-- ==== Sys2Proof/Word.lean ====
section
/-! DEFINITION. The word type of the model: bytes. Everything computed from bytes (fields, byte order,
bit fields) stands in Sys2Proof/Machine/Operands.lean. -/

namespace Sys2Proof

/-- A byte, the smallest addressable unit of the pool (R5, R9; spec/00_scope.md). -/
abbrev Byte := BitVec 8

end Sys2Proof
end

