-- ==== Sys2Proof/Syntax.lean ====
section
/-! DEFINITION. The commands of the PL9200: one constructor per row of spec/opcode_table.json, in the
table's order. A command is one whole step of the part (spec/95_what_each_step_holds.md); its
operands are what reaches the device with it (a message, a flit, a register write) and the physical
facts only the outside knows (a measured interval, a self-test's result, a digest). -/

namespace Sys2Proof

/-- A transaction-layer message: the 128-bit header slot of Table 2.4 and its payload bytes
(R53, R57; spec/02_fabric_transactions.md). -/
structure Msg where
  hdr : BitVec 128
  payload : List Byte
  deriving DecidableEq, Repr

/-- An error as a unit reports it: the class code of Table 16.2 and the unit number
(R372, R386; spec/16_faults_recovery.md). -/
structure StandingFault where
  cls : Nat
  unit : Nat
  deriving DecidableEq, Repr

/-- The commands. The comment of each constructor is its mnemonic, the rule the table gives it, and
the table's summary. -/
inductive Instr where
  /-- PROTOCOL_FLIT (R38). A PROTOCOL flit arrives on a PFTL port and passes its CRC; its messages reach the transaction layer in FSEQ order. -/
  | protocolFlit (p : Nat) (flit : List Byte)
  /-- IDLE_FLIT (R40). An IDLE flit arrives and its acknowledgement and credit returns are taken. -/
  | idleFlit (p : Nat) (flit : List Byte)
  /-- NAK (R41). A NAK arrives and the transmitter resends every unacknowledged flit from ACKSEQ + 1. -/
  | nak (p : Nat) (flit : List Byte)
  /-- REPLAY_TIMEOUT (R41). The oldest unacknowledged flit has waited 2 µs without ACKSEQ advancing, so the transmitter replays without a NAK. -/
  | replayTimeout (p : Nat)
  /-- NAK_REPEAT (R41). A receiver still waiting for the expected FSEQ repeats its NAK after 1 µs. -/
  | nakRepeat (p : Nat)
  /-- ACK_DEADLINE (R40). 100 ns pass after a PROTOCOL flit arrives that is not yet acknowledged, and the receiver sends a cumulative acknowledgement. -/
  | ackDeadline (p : Nat)
  /-- HELLO (R73). A HELLO discovery record arrives; the device checks version and role, chooses an ID, and answers ASSIGN or REJECT. A HELLO from a bound agent first takes the port down. -/
  | hello (p : Nat) (rec : List Byte)
  /-- CREDITS (R73). A CREDITS record arrives; the device checks it against the minimums, resets sequence state, binds the port and marks it ACTIVE. -/
  | credits (p : Nat) (rec : List Byte)
  /-- DISC_REPEAT (R73). 10 µs pass and the device repeats its last discovery record. -/
  | discRepeat (p : Nat)
  /-- DISCOVERY_LIMIT (R73). A port is not ACTIVE 10 ms after link up, so it is taken down and placed under hold-down. -/
  | discoveryLimit (p : Nat)
  /-- RD (R223). An RD request is checked at ingress and at its home and served under the directory transitions. -/
  | rd (p : Nat) (m : Msg)
  /-- RDX (R223). An RDX request is checked and served for an exclusive grant. -/
  | rdx (p : Nat) (m : Msg)
  /-- UPG (R223). An UPG request asks the directory to upgrade a held line to X. -/
  | upg (p : Nat) (m : Msg)
  /-- WB (R223). A WB request writes back a dirty line with its data. -/
  | wb (p : Nat) (m : Msg)
  /-- WBC (R223). A WBC request drops a clean or shared copy. -/
  | wbc (p : Nat) (m : Msg)
  /-- NRD (R220). An NRD request reads a line without allocating. -/
  | nrd (p : Nat) (m : Msg)
  /-- NWR (R220). An NWR request writes a line without allocating. -/
  | nwr (p : Nat) (m : Msg)
  /-- LD (R77). An LD request is checked and performed at its home, or waits under the tier rules. -/
  | ld (p : Nat) (m : Msg)
  /-- ST (R77). An ST request is checked and performed at its home, possibly merged into a run. -/
  | st (p : Nat) (m : Msg)
  /-- ST_REL (R82). An ST.REL arrives at its home and is applied at once or held in the release queue until the frontier reaches it. -/
  | stRel (p : Nat) (m : Msg)
  /-- AT (R114). An atomic request is performed at its home, alone or as part of a combined group. -/
  | at_ (p : Nat) (m : Msg)
  /-- INV (R244). An INV of window lines sends INV_NOTE to every subscriber of the region. -/
  | inv (p : Nat) (m : Msg)
  /-- PUB (R243). A PUB is compared with the region's VERSION and either refused VERSION_STALE or begins a commit of the new BODY. -/
  | pub (p : Nat) (m : Msg)
  /-- SUBS (R242). A SUBS adds its source to, or removes it from, a region's subscribers. -/
  | subs (p : Nat) (m : Msg)
  /-- MSG (R59). An MSG is policed and routed to a local receive area or queued to an uplink. -/
  | msg (p : Nat) (m : Msg)
  /-- HACK (R224). A HACK answering a snoop or INV_NOTE arrives at the home and decides the transient state's outcome. -/
  | hack (p : Nat) (m : Msg)
  /-- DATA (R70). A DATA response arrives, from a tray answering an LD or from an owning agent forwarding a line. -/
  | data (p : Nat) (m : Msg)
  /-- CMP (R70). A CMP response from a tray answers a device ST. -/
  | cmp (p : Nat) (m : Msg)
  /-- LEASE_WORD_STORE (R179). A store to the lease word renews the lease to a new EXPIRY, or starts a new lease and clears LOST. -/
  | leaseWordStore (p : Nat) (m : Msg)
  /-- FENCE_WORD_STORE (R170). A store to the fence word is performed with no effect on data, and as ST.REL acts as a release fence. -/
  | fenceWordStore (p : Nat) (m : Msg)
  /-- RXA_BASE_STORE (R174). A store to RXA_BASE is checked and waits until messages already being written into the current ring are posted. -/
  | rxaBaseStore (p : Nat) (m : Msg)
  /-- RXA_BASE_APPLY (R174). A waiting RXA_BASE store is applied, HEAD and TAIL are reset, and held messages go to the new ring. -/
  | rxaBaseApply (id : Nat)
  /-- RXA_TAIL_STORE (R172). A store to RXA_TAIL is accepted if it moves forward no further than RXA_HEAD. -/
  | rxaTailStore (p : Nat) (m : Msg)
  /-- RECEIVE_AREA_POST (R173). Once a message's payload and header lines are performed, RXA_HEAD advances and the record is posted. -/
  | receiveAreaPost (id : Nat)
  /-- LOAD_TIMEOUT (R66). A request's load timer expires with no final response, so the port sends the error value and a cancel to the home. -/
  | loadTimeout (p : Nat) (seq : Nat)
  /-- CANCEL (R80). A cancel reaches the home; the SEQ is marked resolved and the request is discarded unless already performed. -/
  | cancel (p : Nat) (seq : Nat)
  /-- CANCEL_CONFIRM (R80). The home's confirmation of a cancel reaches the port die and PF(s) may pass the SEQ. -/
  | cancelConfirm (p : Nat) (seq : Nat)
  /-- SEQ_GAP_CLOSE (R52). A missing sequence number has not arrived within the load timeout and is closed as performed. -/
  | seqGapClose (p : Nat)
  /-- PERFORMED_REPORT (R79). A memory complex's report that a request is performed reaches the source's port die and may advance PF(s). -/
  | performedReport (p : Nat) (seq : Nat)
  /-- FRONTIER_UPDATE (R81). A change of PF(s) reaches a memory complex and releases any ST.REL it now allows. -/
  | frontierUpdate (k : Nat) (p : Nat)
  /-- TRAY_TMO (R71). A tray access is unanswered after TRAY_TMO_US; it is a tray error and waiting agent requests get the error value. -/
  | trayTmo (p : Nat) (seq : Nat)
  /-- TRAY_WRITE_BACK (R77). The home writes back an entry of its tray write buffer to the tray. -/
  | trayWriteBack (line : Nat)
  /-- XSN_ARRIVAL (R103). A message crossing a plane arrives at the egress port die and is released in XSN order or held. -/
  | xsnArrival (o : Nat) (d : Nat) (x : Nat)
  /-- REORDER_GAP_TIMEOUT (R103). An XSN gap stays unfilled for 8 µs, which declares the carrying plane failed. -/
  | reorderGapTimeout (o : Nat) (d : Nat)
  /-- ACKNOWLEDGE (R97). The receiving die acknowledges a message, freeing its ingress slots and allowing credits to be returned. -/
  | acknowledge (n : Nat)
  /-- LINE_ENTRY_CLOSE (R113). A home line-table read entry closes 256 ns after its value was bound. -/
  | lineEntryClose (line : Nat)
  /-- ATOMIC_GROUP_APPLY (R114). A combined atomic group's window ends and the group is applied as one read-modify-write with per-member results. -/
  | atomicGroupApply (addr : Nat)
  /-- MERGE_WINDOW_CLOSE (R116). A 256 ns merge window closes and the run's merged write is applied with a CMP to every member. -/
  | mergeWindowClose (line : Nat)
  /-- SELECT (R137). A scheduling point can take a message and selects one by class and subscriber. -/
  | select (q : Nat)
  /-- LINK_LOSS (R75). A port's link is lost; the port goes down, is flushed, its binding ends and the down is counted. -/
  | linkLoss (p : Nat)
  /-- FLUSH_COMPLETE (R119). A port's flush ends and it may accept a new binding. -/
  | flushComplete (p : Nat)
  /-- REBIND (R75). A host write of REBIND ends the port's binding and flushes it, uncounted. -/
  | rebind (p : Nat)
  /-- PRT_CTL_EN (R163). A host write of PRT_CTL.EN enables the port or takes it DOWN, uncounted. -/
  | prtCtlEn (p : Nat) (en : Bool)
  /-- PLANE_FAULT (R120). A plane misses two heartbeats or reports an internal check failure; it is declared failed and dies stop sending to it. -/
  | planeFault (n : Nat)
  /-- SPARE_IN_SERVICE (R121). The spare plane takes the failed plane's slot and dies replay unacknowledged messages through it. -/
  | spareInService
  /-- PLANE_REDUCE (R123). With no spare free, N falls by one and the plane map is compacted; losing the last plane enters containment. -/
  | planeReduce
  /-- MIRROR_RECORD_PERFORMED (R493). A mirror record's NWR is answered and MIRR_WPTR advances. -/
  | mirrorRecordPerformed
  /-- MIRR_CTL (R128). A host write of MIRR_CTL sets EN only if the ring lies in one suitable ACTIVE extent, otherwise sets BADRING. -/
  | mirrCtl (v : Nat)
  /-- SUBTICK (R134). At a subtick boundary buckets refill, capacities and SCALE are recomputed and pending TM changes apply. -/
  | subtick
  /-- TM_APPLY (R139). A host write of TM_CTL.APPLY stages all changes to apply together at the next subtick boundary. -/
  | tmApply
  /-- SIGNAL_DETECT (R149). Signal appears on an enabled port with no hold-down and the port enters TRAIN. -/
  | signalDetect (p : Nat)
  /-- TRAINING_COMPLETE (R149). A port finishes training and goes UP; PFTL ports start discovery and waiting tray work resumes. -/
  | trainingComplete (p : Nat)
  /-- LANE_LOSS (R150). A lane loses signal or lock for more than 1 µs and the port enters RETRAIN. -/
  | laneLoss (p : Nat) (lane : Nat)
  /-- FEC_LIMIT (R150). More than 16 uncorrectable FEC codewords arrive in one epoch and the port enters RETRAIN. -/
  | fecLimit (p : Nat)
  /-- RETRAIN (R150). A host write of PRT_CTL.RETRAIN starts a fast retrain. -/
  | retrain (p : Nat)
  /-- RETRAIN_ATTEMPT_END (R150). A fast retrain attempt ends; the port returns UP, tries again, fails a lane or goes DOWN. -/
  | retrainAttemptEnd (p : Nat) (ok : Bool) (bad : List Nat)
  /-- LOOPBACK_END (R152). A failed lane's loopback test ends and the port is repaired internally or externally or narrows. -/
  | loopbackEnd (p : Nat) (pass : Bool)
  /-- REPAIR_RETRAIN_END (R152). A repair retrain ends and the port is UP at its repaired or narrowed width, or goes DOWN. -/
  | repairRetrainEnd (p : Nat) (ok : Bool)
  /-- HOLD_EXPIRY (R155). A port's hold-down time runs out and it may train again. -/
  | holdExpiry (p : Nat)
  /-- CLR_PARK (R156). A host write of CLR_PARK releases a PARKED port, clears its down history and starts training. -/
  | clrPark (p : Nat)
  /-- FRAME (R160). An Ethernet frame arrives on an uplink, is checked and policed, and is written to the destination's receive area or discarded. -/
  | frame (p : Nat) (bytes : List Byte)
  /-- XOFF_REPEAT (R162). Half the XOFF time passes with the queue still above XON and XOFF is repeated. -/
  | xoffRepeat (p : Nat) (pcp : Nat)
  /-- PFC_FRAME (R161). A PFC frame arrives and stops frames of the paused priority for its time. -/
  | pfcFrame (p : Nat) (mask : Nat) (times : List Nat)
  /-- PFC_PAUSE_EXPIRY (R161). The pause time carried by a PFC frame runs out and the priority may send again. -/
  | pfcPauseExpiry (p : Nat) (pcp : Nat)
  /-- PFC_WATCHDOG (R161). A priority stays paused beyond PFC_WD epochs; its queued frames are flushed and PFC on it is ignored for a while. -/
  | pfcWatchdog (p : Nat) (pcp : Nat)
  /-- EXTENT_CREATE (R176). POOL_EXT_CMD OP 0x1 checks and creates an extent, demoting or writing pages first where needed. -/
  | extentCreate
  /-- EXTENT_ACTIVE (R195). A created extent's frames are all BACKING and its pages written, so it becomes ACTIVE and BUSY falls. -/
  | extentActive
  /-- EXTENT_DELETE (R178). POOL_EXT_CMD OP 0x2 sets the extent DELETING and starts its reclamation. -/
  | extentDelete (idx : Nat)
  /-- SET_ATTR (R176). POOL_EXT_CMD OP 0x3 changes an ACTIVE extent's PLACE and ERGC. -/
  | setAttr (idx : Nat)
  /-- ERGC_REWRITE_END (R206). The rewriting of an extent's TRAY pages after an ERGC change ends and BUSY falls. -/
  | ergcRewriteEnd
  /-- EXTENT_READ (R176). POOL_EXT_CMD OP 0x4 loads an extent record into the argument registers. -/
  | extentRead (idx : Nat)
  /-- SET_OWNER (R176). POOL_EXT_CMD OP 0x5 writes OWNED and OWNER and adds 1 to GEN. -/
  | setOwner (idx : Nat)
  /-- RECLAIM_FILL_END (R178). The zero fill of a deleted or expired extent ends; the extent becomes FREE and its quota is released. -/
  | reclaimFillEnd (idx : Nat)
  /-- LEASE_EXPIRY (R180). The epoch count reaches a lease's EXPIRY; owned extents become EXPIRED and are reclaimed, and LOST is set. -/
  | leaseExpiry (id : Nat)
  /-- SCRUB_READ (R189). Patrol scrub reads the next Oasis frame's lines, correcting or poisoning them. -/
  | scrubRead (k : Nat)
  /-- POOL_SUSP_CLR (R187). A host write of POOL_SUSP_CLR clears a page's suspect bit. -/
  | poolSuspClr (page : Nat)
  /-- MIGRATION_COMPLETE (R202). Every line of a migrating page is performed; the home sets the new location and releases held requests. -/
  | migrationComplete (page : Nat)
  /-- ERGC_PROMOTE_RETRY (R206). A waiting ERGC access tries again when a frame frees, a migration ends, use falls, a quota is written or its tray comes UP. -/
  | ergcPromoteRetry (page : Nat)
  /-- HEAT_DECAY (R197). At an epoch that is a multiple of 2^DECAY_LOG2 every heat is halved. -/
  | heatDecay
  /-- DEFINE (R207). TIER_OBJ_CMD OP 0x1 creates an object in state ERG. -/
  | define
  /-- PLACE_OASIS (R207). TIER_OBJ_CMD OP 0x2 promotes and pins every page of an object. -/
  | placeOasis (idx : Nat)
  /-- PLACE_ERG (R207). TIER_OBJ_CMD OP 0x3 unpins and demotes every page of an object. -/
  | placeErg (idx : Nat)
  /-- OBJECT_DELETE (R207). TIER_OBJ_CMD OP 0x4 unpins an object's pages and frees the object. -/
  | objectDelete (idx : Nat)
  /-- OBJECT_READ (R207). TIER_OBJ_CMD OP 0x5 loads an object record. -/
  | objectRead (idx : Nat)
  /-- SCHEDULE_RUN (R208). A write of a PHASE to TIER_SCHED_RUN runs every prefetch-schedule entry of that phase. -/
  | scheduleRun (phase : Nat)
  /-- SCHEDULE_STOP (R208). A write of PHASE 0 stops the run after its current page. -/
  | scheduleStop
  /-- FORM (R214). DIR_CG_CMD FORM checks slots and brings an OFF group UP. -/
  | form
  /-- ADD (R214). DIR_CG_CMD ADD places an ID in an empty slot of an UP group. -/
  | add
  /-- REMOVE (R214). DIR_CG_CMD REMOVE treats a slot's agent as a non-member and walks to recall its entries. -/
  | remove
  /-- REFORM (R236). DIR_CG_CMD REFORM waits for any fault walk, reloads slots and walks to remove P entries. -/
  | reform
  /-- DISBAND (R214). DIR_CG_CMD DISBAND walks to recall or remove the group's entries and turns it OFF. -/
  | disband
  /-- GROUP_WALK_END (R214). The walk of a REMOVE, REFORM or DISBAND ends and the command completes. -/
  | groupWalkEnd
  /-- FAULT_WALK_END (R233). The fault walk has ended at every memory complex and WALKED is set. -/
  | faultWalkEnd (g : Nat)
  /-- SNOOP_TIMEOUT (R226). A snoop or INV_NOTE is unanswered after SNP_TMO_US and is treated as answered FLUSHED. -/
  | snoopTimeout (line : Nat) (id : Nat)
  /-- SHARER_WALK_END (R237). The walk clearing a departed member from every sharer set ends and its ID may be assigned again. -/
  | sharerWalkEnd (id : Nat)
  /-- REGION_CREATE (R239). DIR_PUB_CMD CREATE makes a region at VERSION 1. -/
  | regionCreate
  /-- REGION_DELETE (R239). DIR_PUB_CMD DELETE ends a region and its subscriptions. -/
  | regionDelete (idx : Nat)
  /-- REGION_READ (R239). DIR_PUB_CMD READ loads a region's record and VERSION. -/
  | regionRead (idx : Nat)
  /-- VERSION_COMMIT (R243). Old-body window reads have drained, so the region's VERSION is set and BUSY cleared. -/
  | versionCommit (idx : Nat)
  /-- REDUCE (R266). A launch word with OPC REDUCE opens or joins a collective entry. -/
  | reduce (p : Nat) (m : Msg)
  /-- GATHER (R283). A launch word with OPC GATHER starts a segmented gather operation. -/
  | gather (p : Nat) (m : Msg)
  /-- FILTER (R286). A launch word with OPC FILTER starts a key filter operation. -/
  | filter (p : Nat) (m : Msg)
  /-- MATMUL (R289). A launch word with OPC MATMUL starts a matrix product. -/
  | matmul (p : Nat) (m : Msg)
  /-- EXPAND (R293). A launch word with OPC EXPAND starts decoding compressed blocks. -/
  | expand (p : Nat) (m : Msg)
  /-- COMPRESS (R293). A launch word with OPC COMPRESS starts encoding values into blocks. -/
  | compress (p : Nat) (m : Msg)
  /-- OWNER_OF (R294). A launch word with OPC OWNER_OF reads an extent's ownership record at its home. -/
  | ownerOf (p : Nat) (m : Msg)
  /-- XFER_OWNER (R296). A launch word with OPC XFER_OWNER runs a PREPARE, COMMIT or ABANDON phase of a transfer. -/
  | xferOwner (p : Nat) (m : Msg)
  /-- FILL (R298). A launch word with OPC FILL starts the near-memory engines filling a range. -/
  | fill (p : Nat) (m : Msg)
  /-- COPY (R298). A launch word with OPC COPY starts a near-memory copy. -/
  | copy (p : Nat) (m : Msg)
  /-- COMPARE (R298). A launch word with OPC COMPARE starts a near-memory comparison. -/
  | compare (p : Nat) (m : Msg)
  /-- MREDUCE (R298). A launch word with OPC MREDUCE starts a near-memory element-wise reduction. -/
  | mreduce (p : Nat) (m : Msg) (res : Nat)
  /-- ABORT_WORD (R254). A store to a slot's abort word with a matching LCNT stops the operation. -/
  | abortWord (p : Nat) (m : Msg)
  /-- LAUNCH_QUEUE_PLACE (R263). A die queue gains room and a part waiting in the launch queue is placed. -/
  | launchQueuePlace
  /-- PART_START (R250). The sequencer starts the oldest queued part whose units are all free. -/
  | partStart (d : Nat) (res : Nat) (pm : Nat)
  /-- PART_END (R250). A part finishes on its die, freeing its units. -/
  | partEnd (d : Nat)
  /-- COMPLETION_RECORD (R257). Every write of an operation is performed, so its completion record is written with DONE and the slot closes. -/
  | completionRecord (id : Nat) (slot : Nat)
  /-- OPERATION_TIMEOUT (R258). An operation's timeout expires and every part stops, ending with TIMEOUT. -/
  | operationTimeout (id : Nat) (slot : Nat)
  /-- CONTRIBUTION (R267). An SC4 store into a collective's target range is routed to its chunk's owner die and added. -/
  | contribution (p : Nat) (m : Msg) (res : Nat)
  /-- ACCUMULATOR_GRANT (R269). An owner die grants a chunk an accumulator and the contributor's held lines proceed. -/
  | accumulatorGrant (tag : Nat) (chunk : Nat)
  /-- CHUNK_EMITTED (R281). Every line of a chunk's result frame is performed; the chunk counts as emitted and its ready bit is set. -/
  | chunkEmitted (tag : Nat) (chunk : Nat)
  /-- SCAN_DUE (R355). A die's scheduled scan epoch is reached. -/
  | scanDue (d : Nat)
  /-- EARLY_SCAN (R356). A die's journal reaches 4,096 entries since its last passing scan and a scan is made due. -/
  | earlyScan (d : Nat)
  /-- SCAN_START (R354). A due scan starts at the die's next step boundary on fresh random operands. -/
  | scanStart (d : Nat)
  /-- VERDICT (R352). The digests of a scan are compared and each die passes or fails; a failure takes the taint actions. -/
  | verdict (d : Nat) (dig : Nat) (chk : Nat)
  /-- ARBITRATION (R352). An arbiter's digest for a disputed scan returns and decides who fails. -/
  | arbitration (d : Nat) (dig : Nat)
  /-- SCORE_DECAY (R363). At an epoch that is a multiple of 2^LOG2 every health score is halved. -/
  | scoreDecay
  /-- OBSERVE (R368). SCN_DIE_CMD OBSERVE puts an ACTIVE die under observation. -/
  | observe (d : Nat)
  /-- RELEASE (R368). SCN_DIE_CMD RELEASE zeroes a die's score and returns it to ACTIVE. -/
  | release (d : Nat)
  /-- RETIRE (R368). SCN_DIE_CMD RETIRE retires a die, with a spare taking its slots. -/
  | retire (d : Nat)
  /-- PAIR (R368). SCN_DIE_CMD PAIR places a die in paired execution. -/
  | pair (d : Nat)
  /-- SCAN_NOW (R368). SCN_DIE_CMD SCAN_NOW requests an early scan of a die. -/
  | scanNow (d : Nat)
  /-- ADDER_SCAN_DUE (R369). A memory complex's MREDUCE adders fall due for their scan. -/
  | adderScanDue (k : Nat)
  /-- ADDER_VERDICT (R369). An adder scan's digests are compared; a failure taints and moves MREDUCE to the partner complex. -/
  | adderVerdict (k : Nat) (dig : Nat) (chk : Nat) (arb : Nat)
  /-- DIE_LINK_ERROR (R20). A die-to-die transfer meets a link error and is retried. -/
  | dieLinkError (a : Nat) (b : Nat)
  /-- DIE_LINK_FAIL (R21). A die-to-die link cannot deliver after its retries, which raises a fault for both end dies. -/
  | dieLinkFail (a : Nat) (b : Nat)
  /-- RGF_HARD (R260). An RGF die fails hard; its parts end and its slots pass to a spare or another die. -/
  | rgfHard (d : Nat)
  /-- STACK_FAIL (R372). A stack stops answering; accesses to its frames wait and a recovery entry opens. -/
  | stackFail (n : Nat)
  /-- PD_FAIL (R372). A port die fails; its ports go DOWN and are flushed. -/
  | pdFail (d : Nat)
  /-- MC_FAIL (R372). A memory complex fails, an S4 error that enters containment. -/
  | mcFail (k : Nat)
  /-- DIR_MISMATCH (R372). A directory lockstep pair mismatches and the slice holds its pipeline. -/
  | dirMismatch (k : Nat)
  /-- SEQUENCER_STEP (R374). The recovery sequencer runs the next step of its highest-severity entry. -/
  | sequencerStep (ok : Bool)
  /-- SUBSTITUTE_RETRY (R379). A frame of a home becomes FREE and a page without a frame takes it as substitute. -/
  | substituteRetry (page : Nat)
  /-- LOCKSTEP_MISMATCH (R382). A control pair mismatches, holds and starts a 20 µs self-test. -/
  | lockstepMismatch (pair : Nat)
  /-- CONTROL_SELF_TEST_END (R382). A control pair's self-test ends; a failing die is retired or both resume. -/
  | controlSelfTestEnd (pair : Nat) (lowOk : Bool) (highOk : Bool)
  /-- ENTER (R383). EVT_CONTAIN_CMD ENTER places the device in containment. -/
  | enter
  /-- CLEAR (R386). EVT_CONTAIN_CMD CLEAR re-reports faults and leaves containment if allowed. -/
  | clear (standing : List StandingFault)
  /-- CLR (R389). EVT_RMAP_CMD CLR sets CLEARED in the selected repair-map record. -/
  | clr
  /-- BUILD (R392). EVT_BUNDLE_CMD BUILD starts assembling the return bundle. -/
  | build
  /-- BUNDLE_COMPLETE (R392). The return bundle is fully assembled in the bundle window. -/
  | bundleComplete
  /-- HEALTH_RECORD (R391). Every 2^28 epochs a health-history record is written to flash. -/
  | healthRecord
  /-- APPLY (R397). POOL_RCMP_CMD APPLY copies staged port slices and slot masks into force. -/
  | apply
  /-- EVICT (R398). POOL_RCMP_CMD EVICT with APPLY starts the eviction walk demoting slices over their Oasis quota. -/
  | evict
  /-- ASSIGN (R409). SEC_TEN_CMD ASSIGN adopts the next key, advances the tenant epoch, starts leases and sets ASSIGNED. -/
  | assign
  /-- TEARDOWN (R413). SEC_TEN_CMD TEARDOWN enters TEARDOWN, aborts slots and channels and starts the drain. -/
  | teardown
  /-- TEARDOWN_DRAIN_END (R413). Nothing is outstanding, so the key is erased, the next key drawn and scrubbing starts. -/
  | teardownDrainEnd
  /-- TEARDOWN_LIMIT (R413). The 2 ms drain limit expires; remaining work is discarded FLUSHED and the key is erased. -/
  | teardownLimit
  /-- TEARDOWN_SCRUB_END (R415). Every Oasis frame and bound tray is written under the next key and the state becomes UNASSIGNED. -/
  | teardownScrubEnd
  /-- TRAY_WRITTEN (R416). A newly bound tray has been fully written and extents in its range may be served. -/
  | trayWritten (t : Nat)
  /-- GEN (R417). SEC_ATT_CMD GEN snapshots the report fields and starts signing. -/
  | gen
  /-- REPORT_SIGNED (R417). The signed report is placed in SEC_ATT_BUF and BUSY clears. -/
  | reportSigned
  /-- BEGIN (R421). SEC_FW_CMD BEGIN invalidates the inactive slot's commit record and starts a firmware write. -/
  | begin
  /-- CHUNK (R421). SEC_FW_CMD CHUNK programs a chunk into the inactive slot. -/
  | chunk
  /-- FINISH (R422). SEC_FW_CMD FINISH reads back and verifies the image and commits the slot. -/
  | finish
  /-- RAISE_SVN (R424). SEC_FW_CMD RAISE_SVN sets the fused minimum SVN to RUN_SVN. -/
  | raiseSvn
  /-- RESET_N_RELEASE (R441). RESET_N is released and start-up begins at step 1. -/
  | resetNRelease
  /-- STARTUP_STEP_END (R441). A start-up step ends and the steps that depend on it begin. -/
  | startupStepEnd (step : Nat) (ok : Bool) (failed : List StandingFault)
  /-- CAL_BEGIN (R447). BOOT_CAL_CMD BEGIN erases the calibration section and starts a write. -/
  | calBegin
  /-- CAL_CHUNK (R447). BOOT_CAL_CMD CHUNK programs a chunk of the calibration set. -/
  | calChunk
  /-- CAL_COMMIT (R447). BOOT_CAL_CMD COMMIT checks the set and programs its commit byte. -/
  | calCommit
  /-- CAPTURE (R447). BOOT_CAL_CMD CAPTURE writes a new calibration set from the values in use. -/
  | capture (trained : List Byte)
  /-- RUN (R450). PWR_CMD TARGET RUN wakes the device from IDLE or SLEEP. -/
  | run
  /-- IDLE (R452). PWR_CMD TARGET IDLE drains admitted messages and gates the core clocks. -/
  | idle
  /-- SLEEP (R453). PWR_CMD TARGET SLEEP powers down lanes, flushes ports and enters retention. -/
  | sleep
  /-- DSLEEP (R453). PWR_CMD TARGET DSLEEP does as SLEEP, scans dies with work and powers down most logic. -/
  | dsleep
  /-- OFF (R459). PWR_CMD TARGET OFF switches off every rail made from VIN48. -/
  | off
  /-- PME_TURN_OFF (R453). PME_Turn_Off arrives during DSLEEP entry and the device answers PME_TO_Ack and enters L2. -/
  | pmeTurnOff
  /-- ENTRY_COMPLETE (R456). A low-power entry finishes its entry window; held edge and present level wake events are honoured. -/
  | entryComplete
  /-- WAKE_N (R457). A qualifying low on WAKE_N wakes the device. -/
  | wakeN (ns : Nat)
  /-- TIMER_WAKE (R455). The epoch count reaches PWR_TIMER and wakes the device. -/
  | timerWake
  /-- WAKE_COMPLETE (R458). Every block has woken after its delay and the device is in RUN. -/
  | wakeComplete
  /-- EPOCH_IN (R462). An accepted rising edge on EPOCH_IN marks a boundary, counts a hit, or feeds the lock test. -/
  | epochIn (highNs : Nat) (gap16 : Nat) (int16 : Nat)
  /-- EPOCH_BOUNDARY (R462). The epoch PLL makes a boundary itself, for a missing edge or in holdover, and all epoch-timed work follows. -/
  | epochBoundary
  /-- EPOCH_LOSS (R463). No edge is accepted for four nominal periods and the device enters holdover. -/
  | epochLoss
  /-- SNAPSHOT (R487). At a snapshot epoch the selected registers are copied and the banks exchanged. -/
  | snapshot
  /-- TEL_SEL (R486). A host write of TEL_SEL is taken only if it names a read-only or read-clear register. -/
  | telSel (n : Nat) (v : Nat)
  /-- FLASH_LOG_WRITE (R491). A queued event record of S1 or above is written to the persistent log in flash. -/
  | flashLogWrite
  /-- REGISTER_WRITE (R11). A host write to a register with no row of its own sets or clears fields by access type. -/
  | registerWrite (off : Nat) (size : Nat) (v : Nat)
  /-- REGISTER_READ (R471). A host BAR0 read of a register with behaviour of its own, clearing an RC counter or latching the high half of a 64-bit register. -/
  | registerRead (off : Nat) (size : Nat)
  /-- CAR_DNEXT (R336). A host write of CAR_DNEXT is applied only in IDLE or HALTED, otherwise ignored with CMD_IGN. -/
  | carDnext (c : Nat) (a : Nat)
  /-- GO (R336). A Caravan GO from the host or the command line starts or resumes a channel. -/
  | go (c : Nat)
  /-- PAUSE (R345). A Caravan PAUSE stops issuing reads and drains the channel. -/
  | pause (c : Nat)
  /-- ABORT (R346). A Caravan ABORT stops the channel and waits for outstanding accesses. -/
  | abort (c : Nat)
  /-- SETD (R335). A command-line SETD sets CAR_DNEXT to DADDR. -/
  | setd (c : Nat) (a : Nat)
  /-- DESCRIPTOR_FETCH (R338). A channel's descriptor read returns and is checked; a bad one halts the channel. -/
  | descriptorFetch (c : Nat)
  /-- CHANNEL_ACCESS_TIMEOUT (R341). A channel access is unanswered after TMO_US and is cancelled as TIMEOUT. -/
  | channelAccessTimeout (c : Nat)
  /-- DESCRIPTOR_END (R343). Every access of a descriptor is answered and its status is stored. -/
  | descriptorEnd (c : Nat)
  /-- DESCRIPTOR_COMMIT (R343). A descriptor's status store is performed; the channel sends IRQ and fetches NEXT or goes IDLE. -/
  | descriptorCommit (c : Nat)
  /-- DRAIN_END (R345). A pausing channel's drain ends and it enters PAUSED. -/
  | drainEnd (c : Nat) (units : Nat)
  /-- ABORT_END (R346). An aborting channel's accesses are answered; the descriptor is written ABORTED and the channel goes IDLE. -/
  | abortEnd (c : Nat) (units : Nat)
  /-- BAR2_READ (R473). A host read through a BAR2 window is performed as NRDs at the homes. -/
  | bar2Read (off : Nat) (len : Nat)
  /-- BAR2_WRITE (R473). A host posted write through BAR2 is performed as NWRs and STs; a byte that is not enabled is none. -/
  | bar2Write (off : Nat) (bytes : List (Option Byte))
  /-- ATOMICOP (R473). A host AtomicOp through BAR2 is performed as one fetch AT: op 0 is FetchAdd and 1 Swap, with
  operand a; 2 is CAS, with compare value a and swap value b. -/
  | atomicOp (off : Nat) (size : Nat) (op : Nat) (a : Nat) (b : Nat)
  /-- BAR2_TIMEOUT (R475). A BAR2 request is not fully answered within TMO_US and ends with TIMEOUT. -/
  | bar2Timeout (tag : Nat)
  /-- FUNCTION_LEVEL_RESET (R470). A Function Level Reset, hot reset or link-down reset resets the host port only. -/
  | functionLevelReset
  /-- PERST_N (R507). PERST_N resets the host port only. -/
  | perstN
  /-- DOE_DISCOVERY (R476). A DOE Discovery object is answered. -/
  | doeDiscovery (idx : Nat)
  /-- GET_VERSION (R476). An SPDM GET_VERSION is answered with version 1.3. -/
  | getVersion
  /-- GET_CAPABILITIES (R476). An SPDM GET_CAPABILITIES is answered. -/
  | getCapabilities
  /-- NEGOTIATE_ALGORITHMS (R476). An SPDM NEGOTIATE_ALGORITHMS is answered. -/
  | negotiateAlgorithms
  /-- GET_DIGESTS (R476). An SPDM GET_DIGESTS is answered. -/
  | getDigests
  /-- GET_CERTIFICATE (R476). An SPDM GET_CERTIFICATE returns slot 0's chain. -/
  | getCertificate (slot : Nat) (off : Nat) (len : Nat)
  /-- GET_MEASUREMENTS (R477). An SPDM GET_MEASUREMENTS returns the measurement blocks from one snapshot. -/
  | getMeasurements (idx : Nat) (sign : Bool)
  /-- SPDM_UNSUPPORTED (R476). Any other SPDM request is answered ERROR UnsupportedRequest. -/
  | spdmUnsupported (code : Nat)
  /-- HOLD (R482). GLB_PRST_CMD HOLD holds a logic die in partial reset. -/
  | hold (die : Nat)
  /-- PRST_RELEASE (R482). GLB_PRST_CMD RELEASE starts a held die's self-test and link training. -/
  | prstRelease (die : Nat)
  /-- PRST_SELF_TEST_END (R482). A released die's self-test ends and it returns to service or is handled as failed. -/
  | prstSelfTestEnd (pass : Bool)
  /-- I3C_WRITE (R483). An I3C or I2C write sets the offset or triggers EVT_BUNDLE_CMD. -/
  | i3cWrite (bytes : List Byte)
  /-- I3C_READ (R483). An I3C or I2C read returns up to 256 bytes from the set offset. -/
  | i3cRead (len : Nat)
  /-- SETDASA (R483). SETDASA assigns the target a dynamic address. -/
  | setdasa (addr : Nat)
  /-- ENTDAA (R483). ENTDAA assigns the target a dynamic address. -/
  | entdaa (addr : Nat)
  /-- VSTBY_UP (R506). VSTBY comes into range and the standby logic starts, driving STBY_OK high. -/
  | vstbyUp
  /-- VSTBY_LOSS (R506). VSTBY leaves its range and STBY_OK is driven low. -/
  | vstbyLoss
  /-- PG_IN_HIGH (R506). PG_IN rises and the on-package rails come up. -/
  | pgInHigh
  /-- PG_IN_LOW (R508). A PG_IN low of 1 µs or longer is a power failure that resets the device. -/
  | pgInLow (ns : Nat)
  /-- RESET_N (R507). A qualifying RESET_N low resets the whole device, losing keys and abandoning flash writes. -/
  | resetN (ns : Nat)
  /-- THERMAL_SAMPLE (R510). Die temperatures are read and the thermal level may rise. -/
  | thermalSample (temps : List Nat)
  /-- THERMAL_LEVEL_EXIT (R510). Temperatures stay 5 °C below the threshold for 1 ms and the thermal level falls. -/
  | thermalLevelExit
  /-- POWER_LIMIT (R511). Input power exceeds 4,800 W for 10 µs, or stays below 4,560 W for 1 ms, and the throttle changes. -/
  | powerLimit (above : Bool)
  /-- TAP_RESET (R513). A TAP reset or TRST_N low selects IDCODE and restores the normal pin behaviour. -/
  | tapReset
  /-- EXTEST (R513). The EXTEST instruction drives the low-speed pins from the boundary register while RESET_N is low. -/
  | extest
  /-- IDCODE (R513). The IDCODE instruction selects the identification register. -/
  | idcode
  /-- SAMPLE_PRELOAD (R513). The SAMPLE/PRELOAD instruction samples or preloads the scanned pins. -/
  | samplePreload (v : Nat)
  /-- CLAMP (R513). The CLAMP instruction holds the pins from the boundary register while RESET_N is low. -/
  | clamp
  /-- HIGHZ (R513). The HIGHZ instruction floats the scanned pins while RESET_N is low. -/
  | highz
  /-- EXTEST_PULSE (R513). The EXTEST_PULSE instruction tests the lanes per IEEE 1149.6. -/
  | extestPulse
  /-- EXTEST_TRAIN (R513). The EXTEST_TRAIN instruction tests the lanes per IEEE 1149.6. -/
  | extestTrain
  /-- BYPASS (R513). The BYPASS instruction, or any other opcode, selects the bypass register. -/
  | bypass (opcode : Nat)
  /-- CRC_FAILURE (R41). A flit arrives whose link CRC fails; the receiver discards it, trusts none of its fields and sends a NAK. -/
  | crcFailure (p : Nat)
  /-- UNDEFINED_OPCODE (R64). A message with an undefined opcode, or one not allowed in this direction, reaches ingress and is answered CMP REFUSED. -/
  | undefinedOpcode (p : Nat) (m : Msg)
  /-- FIRMWARE_CANCEL (R421). SEC_FW_CMD CANCEL invalidates the inactive slot's commit record and clears PEND. -/
  | firmwareCancel
  /-- WAKE_N_HIGH (R457). WAKE_N returns high for at least 2.4 µs, ending the condition that refuses every low-power entry with REASON 0x6. -/
  | wakeNHigh (ns : Nat)
  /-- REFCLK (R460). A lane reference clock REFCLK stops or returns; while it is absent in RUN the port die keeps its lanes in TRAIN. -/
  | refclk (n : Nat) (present : Bool)
  deriving DecidableEq, Repr

end Sys2Proof
end

