-- ==== Sys2Proof/Decode.lean ====
section
/-! DEFINITION. Decoding of commands from the table's bits. The command table gives no row any bits, so no word spells a
command. -/

namespace Sys2Proof

/-- The command that a word spells: the table gives no row any bits, so there is none. -/
def decodeTableWord (_nbits _w : Nat) : Option Instr := none

end Sys2Proof
end

