-- ==== Sys2Proof/Config.lean ====
section
/-! DEFINITION. What the implementation fixes and the spec leaves open: the free values. Each is an
opaque constant, so no proof can see what it is. -/

namespace Sys2Proof.Config

/-- The free values of a run, one after another: `State.freeCtr` counts those used (log entry 6). -/
opaque freeValue : Nat → Nat

/-- SHA3-512 of a byte string, as 64 bytes' value (R417, R432): the standard is not restated by the
spec, so the digest is a free function of the bytes (log entry 7). -/
opaque sha3 : List (BitVec 8) → Nat

/-- The answer of a signature check over (signature or public key, data) (R422, R432; log entry 7). -/
opaque sigOk : List (BitVec 8) → List (BitVec 8) → Bool

/-- The signature the device's key makes over a body with a context string, hedged by a drawn value (R420;
log entry 7). -/
opaque sign : Nat → List (BitVec 8) → List (BitVec 8) → List (BitVec 8)

/-- A byte of the device's public key under its n-th identity (R420, R427; log entry 7). -/
opaque devicePk : Nat → Nat → BitVec 8

/-- A byte of the certificate chain in a slot (R420, R476; log entry 7). -/
opaque certByte : Nat → Nat → BitVec 8

/-- The length in bytes of the certificate chain in slot 0 (R476; log entry 7). -/
opaque certLen : Nat

/-- Bytes of the operands that a scan sends to a die (R260): the spec gives no format of theirs (log entry 64). -/
opaque scanBytes : Nat

/-- Slots of the input queue of the die at scheduling point 320 to 375 (R137): the spec gives no size. -/
opaque dieQueue : Nat → Nat

/-- A byte of the built-in default calibration presets (R446; log entry 7). -/
opaque calPreset : Nat → BitVec 8

/-- The digest of the public key that the fuses accept (R434; log entry 7). -/
opaque keyDigest : Nat

/-- AES-256 of one 16-byte block under a key, the plaintext's value to the ciphertext's: the spec names the cipher and does not
restate it, so it is a free permutation of the block's values (R188; log entry 7). -/
opaque aes : BitVec 256 → Equiv.Perm (BitVec 128)

/-- The row of its stack, with its bank in bits 31 to 24, in which a line of a frame lies: the spec gives no map (R378, R388; log
entry 31). -/
opaque stackRow : Nat → Nat → BitVec 32

/-- The frames of a stack that have a line in a row (R378; log entry 31). -/
opaque rowFrames : Nat → Nat → List Nat

/-- The check symbols CHK5 to CHK0 over the ciphertext and META of a line, 24 bits: the check matrix is not published (R183,
R184; log entry 7). -/
opaque checkBits : BitVec 512 → BitVec 8 → BitVec 24

end Sys2Proof.Config
end

