-- ==== Sys2Proof/Machine/State.lean ====
section
/-! DEFINITION. The state of the PL9200 as plain data, the reasons a step can stop, and the state
right after reset. Every register field of BAR0 lives in `State.regs`, keyed by its field
(Sys2Proof/Machine/RegMap.lean) and instance; what the spec gives the device beyond its registers has
fields of its own. A table `List (Nat × α)` is sparse: keys rising, an unlisted key holds the
table's default (Sys2Proof/Machine/Table.lean). -/

namespace Sys2Proof.Machine

/-- The model raises no fault: every command of the table has an effect the spec describes. The one
constructor is reserved for an access the spec says does not exist; no meaning raises it (safe). -/
inductive Fault where
  | nonexistentAccess
  deriving DecidableEq, Repr

/-- A command the model has no meaning for is rejected by name (safe: it stops where the hardware
goes on); raised only by an arm of exec that is not modelled yet. -/
inductive Refusal where
  | notModelled (mnemonic : String)
  deriving DecidableEq, Repr

/-- Who a request belongs to (R23, R132): an agent's port, a host BAR2 request by its tag (R473), a
Caravan channel (R334), an operation slot of an agent (R251), a collective by its TAG (R281), the
receive area of an agent (R172), a record of the mirror ring (R128), the device itself, or a plane that has merged the
requests of several sources into one (R112). -/
inductive Origin where
  | port (p : Nat)
  | host (tag : Nat)
  | chan (c : Nat)
  | slot (id n : Nat)
  | coll (tag : Nat)
  | rxa (id : Nat)
  | mirror
  | device
  | plane (n : Nat)
  deriving DecidableEq, Repr

/-- Does a request come from a port. -/
def Origin.isPort : Origin → Bool
  | .port _ => true
  | _ => false

/-- One request inside the device: its origin, the agent ID and sequence number it carries, the message, its subscriber (R132),
its line-order tag DEP (R104), whether its access has been counted for heat (R196), the causes of Table 8.2 it has been counted
under (R210), the region whose window it reads through, if any (R241), what the residue checks find when its work is done
(R317; packed as log entry 110 says); the ingress message whose slots a MSG toward an uplink keeps until the uplink's port die
has placed it (R97); its place in the order in which requests arrived at their homes, once it waits there (R202); and its
number among the messages that wait at its scheduling point, with the CCLK count at which it began to wait (R131, R144). -/
structure Req where
  org : Origin
  src : Nat
  seq : Nat
  msg : Msg
  sub : Nat
  dep : Option Nat
  hot : Bool
  causes : List Nat
  win : Option Nat
  res : Nat := 0
  ing : Option Nat := none
  arr : Nat := 0
  pt : Nat := 0
  cyc : Nat := 0
  deriving DecidableEq, Repr

/-- What leaves the device at its boundary: flits and DISC flits on a port (R35, R72), frames
and PFC on an uplink (R158, R162), MSI-X messages (R480), completions of host requests (R471, R474),
DOE answers (R476), I3C read data (R483), EPOCH_OUT pulses (R467), and what IDCODE shifts out (R513). -/
inductive Wire where
  | flit (p : Nat) (bytes : List Byte)
  | disc (p : Nat) (bytes : List Byte)
  | frame (p : Nat) (bytes : List Byte)
  | pfc (p pcp time : Nat)
  | msix (vector : Nat)
  | regData (off size v : Nat)
  | unsupported (off : Nat)
  | bar2 (tag : Nat) (status : Nat) (poisoned : Bool) (bytes : List Byte)
  | aer (status : Nat)
  | doe (bytes : List Byte)
  | i3c (bytes : List Byte)
  | epochOut
  | tdo (v : Nat)
  | pmeToAck
  deriving DecidableEq, Repr

/-- One PROTOCOL flit held for replay: its FSEQ and its bytes (R39, R43). -/
structure TxFlit where
  fseq : Nat
  bytes : List Byte
  deriving DecidableEq, Repr

/-- A request the transaction layer has accepted and not yet answered (R50, R51, R65, R66):
`answered` once its final response was sent, `cancelled` once the port sent the cancel of R80, the subscriber its
responses keep (R132), and whether the port's timer has stopped because the home has answered a tray error (R80). -/
structure Outst where
  seq : Nat
  msg : Msg
  answered : Bool
  cancelled : Bool
  sub : Nat := 0
  stopped : Bool := false
  deriving DecidableEq, Repr

/-- The link layer of a port (R35 to R45): transmit and receive sequence numbers, the replay buffer,
the replays without an advance of ACKSEQ (R42), the NAK wait (R41), flits not yet acknowledged
(R40), the partial message of the last flit (R38), the cumulative credit counts (R44, R45), whether a
flit has been received since the binding (ACKV, R36), the pair of pools the next flit reports, and whether the partial message
cuts through (R106). -/
structure Link where
  txNext : Nat
  replayBuf : List TxFlit
  replays : Nat
  rxNext : Nat
  nakWait : Bool
  unacked : Nat
  part : List Byte
  freed : List Nat
  spent : List Nat
  returned : List Nat
  ackV : Bool := false
  rot : Nat := 0
  partCut : Bool := false
  deriving DecidableEq, Repr

/-- The source side of a bound port: requests outstanding, the performed frontier PF(s) (R79), the
sequence numbers performed or resolved at or above it (R79, R80), those performed at a home whose
report has not reached the port die, the highest number received at or above the frontier, the numbers that arrived
above a gap and are not below the frontier, the oldest first (R52), the cancels sent to a home and not yet there, and the numbers a home has marked resolved by a cancel and not yet
confirmed (R80). -/
structure Source where
  outst : List Outst
  pf : Nat
  above : List Nat
  unreported : List Nat
  newest : Option Nat
  tops : List Nat
  cancels : List Nat
  canceled : List Nat
  deriving DecidableEq, Repr

/-- A port context (R75, R147 to R162). `signal` is the electrical signal, `serial` and `capacity`
come from the binding HELLO (Table 2.13), `lastDisc` is the record repeated under R73, `flushing` holds a new
binding back (R119), `downs` are the times of the last counted downs (R154), `badLanes` the failed
lanes, `attempts` the fast retrain attempts made (R150), `repairing` a repair retrain (R152),
`failedLane` the lane in loopback test, `trayTimes` the recent tray timeouts (Table 16.2), `written` says the bound tray
is written under R416, `rxKib` and `xoff` the receive queue and XOFF state per priority (R162), `pauseIgn` the
priorities whose PFC is ignored (R161), `traySeq` the sequence space kept for a tray (R70), `offered` the
agent ID of an ASSIGN not yet answered by CREDITS and `role` the ROLE of its HELLO (R73, R74), `fastBad` the lanes that
failed the first fast attempt (R150), `testQ` the failed lanes that wait for their loopback test (R152). -/
structure Port where
  link : Link
  srcq : Source
  signal : Bool
  serial : Nat
  hello : List Byte
  capacity : Nat
  lastDisc : List Byte
  flushing : Bool
  downs : List Nat
  badLanes : List Nat
  attempts : Nat
  repairing : Bool
  failedLane : Option Nat
  trayTimes : List Nat
  written : Bool
  traySeq : Nat
  rxBytes : List Nat
  xoff : List Nat
  pauseStart : List (Nat × Nat)
  pauseIgn : List (Nat × Nat)
  offered : Option Nat := none
  role : Nat := 0
  fastBad : List Nat := []
  testQ : List Nat := []
  deriving DecidableEq, Repr

/-- A link with nothing sent or received (R39, R45). -/
def Link.init : Link :=
  { txNext := 0, replayBuf := [], replays := 0, rxNext := 0, nakWait := false, unacked := 0, part := [],
    freed := List.replicate 16 0, spent := List.replicate 16 0, returned := List.replicate 16 0 }

/-- A source with no request (R49, R73). -/
def Source.init : Source :=
  { outst := [], pf := 0, above := [], unreported := [], newest := none, tops := [], cancels := [], canceled := [] }

/-- A port with no link. -/
def Port.init : Port :=
  { link := Link.init, srcq := Source.init, signal := false, serial := 0, hello := [], capacity := 0,
    lastDisc := [], flushing := false, downs := [], badLanes := [], attempts := 0, repairing := false,
    failedLane := none, trayTimes := [], written := false, traySeq := 0, rxBytes := List.replicate 8 0,
    xoff := [], pauseStart := [], pauseIgn := [] }

/-- A message for a receive area (R172 to R174): the port it came from, or 8 times the uplink's
number plus the frame's PCP, the switch number of
its source, its arrival time, the line of the ring its record begins at, its subscriber, and whether its
header line has been issued. -/
structure RxMsg where
  msg : Msg
  fromPort : Option Nat
  uplink : Option Nat
  srcSw : Nat
  time : Nat
  base : Nat
  sub : Nat
  hdrSent : Bool
  deriving DecidableEq, Repr

/-- What the device keeps per agent ID: the serial recorded for it (R74), its lease (R171, R179,
R180), its receive area (R172), the store of RXA_BASE that waits (R174), messages being written and
held, the taint words (R362), the port that holds it, and whether a sharer walk still runs (R237). -/
structure Agent where
  serial : Option Nat
  valid : Bool
  lost : Bool
  expiry : Nat
  rxaBase : Nat
  rxaLog2 : Nat
  rxaHead : Nat
  rxaTail : Nat
  rxaDrop : Nat
  rxaPend : Option Req
  writing : List RxMsg
  held : List RxMsg
  notes : Nat
  noteOpid : Nat
  noteTime : Nat
  tainted : Nat
  port : Option Nat
  walking : Bool
  deriving DecidableEq, Repr

/-- An agent ID nobody has held. -/
def Agent.init : Agent :=
  { serial := none, valid := false, lost := false, expiry := 0, rxaBase := 0, rxaLog2 := 0, rxaHead := 0,
    rxaTail := 0, rxaDrop := 0, rxaPend := none, writing := [], held := [], notes := 0, noteOpid := 0,
    noteTime := 0, tainted := 0, port := none, walking := false }

/-- An extent record (Table 7.5); `state` 0 FREE, 1 ACTIVE, 2 EXPIRED, 3 DELETING; `filling` once its fill has begun (R178). -/
structure Extent where
  state : Nat
  base : Nat
  len : Nat
  slice : Nat
  coh : Bool
  cg : Nat
  pub : Bool
  place : Nat
  ergc : Bool
  owned : Bool
  owner : Nat
  gen : Nat
  filling : Bool := false
  deriving DecidableEq, Repr

/-- Where a page is (R194): `loc` 0 TRAY (or the natural frame of an Oasis page), 1 OASIS in frame
`frame` of its home (a substitute for an Oasis page), 2 MIGRATING, 3 no frame (R380); DIRTY and PIN of the frame
record, `keep` after a refused ERGC demotion (R205), and the heat of a promoted page (R196). -/
structure Page where
  loc : Nat
  frame : Nat
  dirty : Bool
  pin : Bool
  keep : Bool
  heat : Nat
  deriving DecidableEq, Repr

/-- A migration in flight (R202): `kind` 0 promotion, 1 demotion, 2 move between Oasis frames;
`need` lines to be performed and `done` lines performed; `want` the page that waits for the frame,
if a victim is demoted for it (R199, R206); `img` and `psns` the lines of a page image that has
arrived, or that is being written (R205), and whether each carried PSN; `src` the frame that a move between Oasis frames
leaves (R379). -/
structure Mig where
  page : Nat
  home : Nat
  kind : Nat
  frame : Nat
  need : Nat
  done : Nat
  want : Option Nat
  img : List Byte
  psns : List Bool
  src : Nat := 0
  deriving DecidableEq, Repr

/-- A request that waits at its home (R210): `cause` 0 MIGRATING, 1 TRAY_BUSY, 2 LINK_RETRAIN,
3 QUOTA, 4 the line queue of R225, 5 the line-order tag of R105, 6 no way free (R218), 7 a stack's
retrain (Table 16.2), 8 the release queue of R82, 9 containment or a power state below RUN (R384,
R455), 10 a full line-order table (R104), 11 earlier posted writes of the host (R89), 12 a directory slice that
holds (Table 16.2), 13 the recall of the victim it chose (R218), 14 a failed plane
(Table 4.3); `key` is the page or the line it waits for. -/
structure Wait where
  req : Req
  cause : Nat
  key : Nat
  deriving DecidableEq, Repr

/-- What a tray access of the device is for (R70): reads that wait for the line; a directory grant;
the read that completes a partial write-buffer entry; a write-back; a line of a migration (R202); one that a
teardown has discarded and whose answer still comes (R414); a read whose line the tray no longer answers for, since its page
has moved or its extent has ended (R178, R202). -/
inductive TKind where
  | load (reqs : List Req)
  | grant
  | fill
  | writeBack
  | migration (page : Nat)
  | late
  | gone
  deriving DecidableEq, Repr

/-- An outstanding tray access: the tray's port, its SEQ, the pool line and its purpose, and whether a read holds an entry of
the home's line table, which reads of its line join (R113). -/
structure TAcc where
  port : Nat
  seq : Nat
  line : Nat
  kind : TKind
  ent : Bool := false
  deriving DecidableEq, Repr

/-- An entry of the home's tray write buffer (R77): the bytes written, as offset and value, the PSN, whether a write-back of
them was issued, and the subscriber and class of the request that wrote last (Table 5.1). -/
structure WbEnt where
  bytes : List (Nat × Byte)
  psn : Bool
  issued : Bool
  sub : Nat := 1023
  cls : Nat := 3
  deriving DecidableEq, Repr

/-- A read entry of the home's line table (R113): the value bound and its PSN, and the bytes of the line that are bound, where
the tray write buffer gave only some. -/
structure RdEnt where
  bytes : List Byte
  psn : Bool
  known : Option (List Nat) := none
  deriving DecidableEq, Repr

/-- A group of combined atomics, by key (R113, R114). -/
structure AtGrp where
  addr : Nat
  atop : Nat
  size : Nat
  signed : Bool
  members : List Req
  deriving DecidableEq, Repr

/-- A message crossing a plane (R101 to R103): origin and destination die, crossing number, plane,
the scheduling point it goes to, class and subscriber, its multicast entry, the ingress message
whose slots it keeps (R97), and whether it cuts through (R106). -/
structure Cross where
  org : Nat
  dst : Nat
  xsn : Nat
  plane : Nat
  point : Nat
  cls : Nat
  sub : Nat
  msg : Msg
  mcast : Option Nat
  ing : Option Nat := none
  cut : Bool := false
  deriving DecidableEq, Repr

/-- A message held at a scheduling point (R131, R137), with the plane it crossed and whether it cut through
(Table 4.4); `cyc` is the CCLK count at which it was queued (R144). -/
structure QMsg where
  n : Nat
  point : Nat
  cls : Nat
  sub : Nat
  msg : Msg
  time : Nat
  mcast : Option Nat
  plane : Nat := 0
  cut : Bool := false
  cyc : Nat := 0
  deriving DecidableEq, Repr

/-- A message in a port die's ingress region (R96, R97): the port, its pool and slots, the
scheduling point of its virtual output queue (R98); `taken` once that point selected it; the line-order tag
of a request (R104); whether it is a request, and `held` while its port die takes it into no virtual output
queue (R104, R384, R454); `cyc` is the CCLK count at which it was queued (R144), `plane` the plane that carried it
(R121), and `full` once its wait for a line-order entry is counted (R104). -/
structure IngMsg where
  n : Nat
  port : Nat
  pool : Nat
  slots : Nat
  point : Nat
  cls : Nat
  sub : Nat
  msg : Msg
  time : Nat
  taken : Bool
  dep : Option Nat
  req : Bool := true
  held : Bool := false
  cyc : Nat := 0
  plane : Nat := 0
  full : Bool := false
  deriving DecidableEq, Repr

/-- A multicast entry (R109): plane, reference count, origin die, and the copies it sent (R122). -/
structure McEnt where
  n : Nat
  plane : Nat
  count : Nat
  org : Nat
  copies : List Cross := []
  deriving DecidableEq, Repr

/-- A line-order table entry (R104): source port, key (line or destination), newest SEQ. -/
structure LotEnt where
  port : Nat
  key : Nat
  seq : Nat
  deriving DecidableEq, Repr

/-- Scheduler memory of a node (R137): the last committed pick and the deficit round robin's turn. -/
structure Sched where
  last : Nat
  turn : Nat
  deficit : Int
  deriving DecidableEq, Repr

/-- A mirror record waiting to be performed, and whether its write has been sent to its home (R125, R127). -/
structure MirRec where
  recno : Nat
  index : Nat
  bytes : List Byte
  sent : Bool := false
  deriving DecidableEq, Repr

/-- A coherence group beyond its registers (R213, R214, R236): the member slots in force as slot and ID,
the slot under REMOVE, the walk that runs (0 none, 1 REMOVE, 2 REFORM, 3 DISBAND), and whether the
fault walk still runs (R233). -/
structure Cg where
  slots : List (Nat × Nat)
  removing : Option Nat
  walk : Nat
  faultWalk : Bool
  deriving DecidableEq, Repr

/-- Stable and transient directory states (Table 9.5). U is the absence of an entry. -/
inductive DSt where
  | U | S | X | O | US_D | UX_D | SX_I | XS_F | XX_F | X_WB | P
  deriving DecidableEq, Repr

/-- What a transient state does when its answers are in (Table 9.6). -/
inductive After where
  | grantS | grantX | upg | read | write | atomic | drop
  deriving DecidableEq, Repr

/-- A directory entry (Table 9.3): its way, state, group, owner slot and sharer slots; for a transient
state also the request served, the action after it, the slots still to answer, whether data that the owner
forwarded has come back and is written (R228), whether the request was cancelled (R228), whether a WB of the owner has already
written the data (R225), whether the owner was in O, and NOFWD of its snoops. -/
structure DirEnt where
  way : Nat
  st : DSt
  cg : Nat
  own : Option Nat
  shr : List Nat
  req : Option Req
  aft : After
  awaiting : List Nat
  fwdDone : Bool
  cancelled : Bool
  wbDone : Bool
  wasO : Bool
  nofwd : Bool
  deriving DecidableEq, Repr

/-- A published region (R239 to R243): header line address, lines, committed contents (`body`, and the
contents before a commit in progress), version, commit time, BUSY, the PUB in progress and whether it
asks for INVALL, the PUBs that wait behind it, and the subscribers. -/
structure Region where
  used : Bool
  hdr : Nat
  lines : Nat
  body : Nat
  oldBody : Nat
  version : Nat
  time : Nat
  busy : Bool
  cur : Option Req
  invall : Bool
  queue : List Req
  subs : List Nat
  deriving DecidableEq, Repr

/-- A line that an engine or a channel reads from an owning agent or a page that is not at hand (R210, R220, R278): who
reads, the SEQ its request carries, the line, and the bytes once they are at hand, with their PSN. -/
structure EngRead where
  org : Origin
  seq : Nat
  line : Nat
  got : Option (List Byte × Bool)
  deriving DecidableEq, Repr

/-- An INV_NOTE not yet answered (R244): region, subscriber, line address, and the request it serves. -/
structure Note where
  region : Nat
  id : Nat
  addr : Nat
  req : Req
  deriving DecidableEq, Repr

/-- An object (R207): `state` 0 FREE, 1 ERG, 2 OASIS, 3 PARTIAL. -/
structure Obj where
  state : Nat
  base : Nat
  pages : Nat
  layer : Nat
  deriving DecidableEq, Repr

/-- An operation slot (R251 to R259): the descriptor bytes stored (a table by offset), OPEN and LCNT, the
opcode and NOSPLIT, the operation ID, launch time, timeout and deadline epoch, the latched arithmetic of
R307, PARTS and the parts still to end, the status so far with its rank in Table 10.7, PSN_OUT and SUSP,
the first failure's POS, OUT_COUNT, AUX, POS, TOT, the missing-contributor bitmap, the completion
record, and whether the operation has ended or stopped, so that its record is due; the share that does its work now and the
shares that a refused write has stopped (R258), the homes whose share of a near-memory operation has not ended and those whose
engine holds it (R190), what its residue checks find (R317), the number of its launch-word store until the CMP OK has left the
device (R267), its place in the order of arrival at its home (R294), and when its record was written (R361). -/
structure OpSlot where
  desc : List Host.Cell
  isOpen : Bool
  lcnt : Nat
  opc : Nat
  nosplit : Bool
  opid : Nat
  tLaunch : Nat
  tmo : Nat
  deadline : Nat
  rmode : Nat
  satFp8 : Bool
  parts : Nat
  left : Nat
  status : Nat
  rank : Nat
  psnOut : Bool
  susp : Bool
  errPos : Option Nat
  outCount : Nat
  aux : Nat
  pos : Nat
  tot : Nat
  bitmap : List Byte
  crec : List Byte
  ending : Bool
  share : Nat := 0
  stops : List Nat := []
  nearLeft : List Nat := []
  nearRun : List Nat := []
  nearRes : Nat := 0
  mask : Nat := 0
  ackSeq : Option Nat := none
  arr : Nat := 0
  tDone : Nat := 0
  deriving DecidableEq, Repr

/-- A slot nobody has used since its agent bound (R255). -/
def OpSlot.init : OpSlot :=
  { desc := [], isOpen := false, lcnt := 0, opc := 0, nosplit := false, opid := 0, tLaunch := 0, tmo := 0,
    deadline := 0, rmode := 0, satFp8 := false, parts := 0, left := 0, status := 0, rank := 0,
    psnOut := false, susp := false, errPos := none, outCount := 0, aux := 0, pos := 0, tot := 0,
    bitmap := List.replicate 64 0, crec := List.replicate 64 0, ending := false }

/-- A part of an operation (R261 to R263): the slot's key, its number among the parts, its share `lo` to `hi` of the split axis, its
work estimate, its placement slot, whether it has started, whether its work is done, and what the residue
checks (R317) and the digests of a pair (R365) find in it: `res` 0 no mismatch, 1 recomputed, 2 repeated;
`pm` 0 match, 1 this die in the minority, 2 its partner, 3 no two agree. -/
structure Part where
  key : Nat
  ix : Nat := 0
  opc : Nat
  lo : Nat
  hi : Nat
  work : Nat
  place : Nat
  running : Bool
  worked : Bool
  res : Nat := 0
  pm : Nat := 0
  deriving DecidableEq, Repr

/-- A chunk of a collective on its owner die (R267 to R271): whether it has an accumulator, the lines staged
as rank, line, bytes and PSN, the ranks that delivered it with the lines their frame used, the values
of each delivered frame in order of arrival, poison, whether its result frame is due or emitted; of the ranks whose frame has
come in part, the values already added and the blocks decoded (R270); of a result frame, whether its
heat is counted, whether its writes are issued, and the waits counted (R196, R210), and what the digests of a pair find in it (R365). -/
structure Chunk where
  granted : Bool
  lines : List (Nat × Nat × List Byte × Bool)
  done : List (Nat × Nat)
  vals : List (List Nat)
  poisoned : Bool
  writing : Bool
  emitted : Bool
  adding : List (Nat × Nat × Nat) := []
  hot : Bool := false
  issued : Bool := false
  causes : List Nat := []
  pm : Nat := 0
  deriving DecidableEq, Repr

/-- A contribution line that waits for its chunk's accumulator (R269). -/
structure HeldLine where
  chunk : Nat
  req : Req
  deriving DecidableEq, Repr

/-- A collective entry (R266 to R271): the shared descriptor bytes, TMO, its opener, the deadline, the
latched rounding mode, the contributors that joined as rank, agent and slot, those withdrawn, ranks
that ever joined, its chunks, the lines held, the placement slots whose part stopped with the first
status, poison written, the first failure's POS, the outcome the operation has ended with, the contributors' slots that have not
completed (R271), and the contributor list, as agent and OPID, with its index (R357). -/
structure Coll where
  tag : Nat
  desc : List Byte
  tmo : Nat
  opener : Nat
  deadline : Nat
  rmode : Nat
  joins : List (Nat × Nat × Nat)
  ranks : List Nat
  chunks : List (Nat × Chunk)
  held : List HeldLine
  stopped : List Nat
  status : Nat
  psn : Bool
  errPos : Option Nat
  ended : Option (Nat × Nat) := none
  slots : List Nat := []
  list : List (Nat × Nat) := []
  idx : Nat := 0
  deriving DecidableEq, Repr

/-- A Caravan channel beyond its registers (R334 to R347): the descriptor's line once fetched, source units
read, destination units written, the holding register as byte and poison, poison and suspect seen, the
first bus error with its address and the destination bytes performed before it (R342), an ABORT that waits for a drain, and the descriptor's end: its status
store issued (`ended`), its status, whether it is BAD, and whether its commit has been told. -/
structure Chan where
  desc : List Byte
  fetched : Bool
  units : Nat
  written : Nat
  hold : List (Byte × Bool)
  psn : Bool
  susp : Bool
  err : Option (Nat × Nat)
  abortAfter : Bool
  ended : Bool
  fin : Nat
  bad : Bool
  told : Bool
  errOfs : Nat := 0
  deriving DecidableEq, Repr

/-- A taint journal entry (Table 15.3): its number of writing, operation, start and end time, two written page ranges, flags,
slot, destination, contributor list as agent and OPID with its index, and the home whose share of an MREDUCE it is (R369). -/
structure JEnt where
  num : Nat
  opid : Nat
  tStart : Nat
  tEnd : Nat
  r0 : Nat
  n0 : Nat
  r1 : Nat
  n1 : Nat
  stride32 : Bool
  multi : Bool
  slot : Nat
  dest : Nat
  list : List (Nat × Nat)
  coll : Nat := 0
  home : Nat := 0
  deriving DecidableEq, Repr

/-- The scans of an RGF die or of a complex's MREDUCE adders (R351 to R358): a scan due, running, its
start, the checker, both digests while arbitration runs, the arbiter, passes in a row, the
starts of the last passing scans, the journal, the epoch of entry into observation (R355), whether a SPARE
die may neither take a slot nor check another (Table 15.6), whether a PAIRED die is the suspect of its
pair (R366), and the entries written to the journal of a complex's adders (R369). -/
structure Scan where
  due : Bool
  running : Bool
  seed : Nat
  start : Nat
  checker : Nat
  arbiting : Option (Nat × Nat × Nat)
  passes : Nat
  starts : List Nat
  journal : List JEnt
  obsFrom : Nat
  barred : Bool
  suspect : Bool
  written : Nat := 0
  deriving DecidableEq, Repr

/-- A recovery entry (R374): class, unit, severity, first seen, count, next step, and whether the
unit's own recovery has begun (R377). -/
structure RcvEnt where
  cls : Nat
  unit : Nat
  sev : Nat
  time : Nat
  count : Nat
  step : Nat
  started : Bool
  deriving DecidableEq, Repr

/-- The power state machine beyond its registers: the target of the entry that runs, whether a wake runs (R456,
R458), a RUN written during an entry and the level events seen in it, by their bits of PWR_WAKE_SRC (R456), whether
PME_Turn_Off has come (R453), whether WAKE_N is held low (R457), the subticks counted when the low-power state was
entered (R454), reset and OFF, VSTBY, PG_IN and the rails (R506 to R508), a release of RESET_N held back, a wake from
OFF that waits for PG_IN, the start-up steps that have ended (R441), the REFCLKs that are absent (R460), and whether
FAULT_N and THERM_N are held by a thermal trip (R512). -/
structure Power where
  entering : Option Nat
  waking : Bool
  heldEdge : Bool
  heldLevels : Nat
  pme : Bool
  wakeLow : Bool
  lowStart : Nat
  inReset : Bool
  offState : Bool
  vstby : Bool
  pgIn : Bool
  rails : Bool
  relHeld : Bool
  offWake : Bool
  stepsEnded : List Nat
  refclkGone : List Nat
  trips : Bool
  deriving DecidableEq, Repr

/-- The epoch unit beyond its registers (R461 to R466): the subtick, the 940 MHz count since the subtick began, whether the
present epoch began in holdover, the last accepted intervals of the lock test, the intervals behind the locked period, hits in
a row, whether the PLL made the last boundary and no late edge has matched it, whether an out-of-range window was reported,
lock regained and waiting for its edge, and an unlock by a late edge whose holdover begins at the next boundary; `base` is the
CCLK count at which the subtick began (R144), `epochBase` that at which the epoch did (R464). -/
structure Clock where
  subtick : Nat
  cclk : Nat
  holdEpoch : Bool
  window : List Nat
  good : List Nat
  hits : Nat
  madeLast : Bool
  rateSeen : Bool
  relock : Bool
  unlocked : Bool
  base : Nat := 0
  epochBase : Nat := 0
  deriving DecidableEq, Repr

/-- The key store and the tenant's life (R409 to R415): the key of the current tenant, the next key,
and keys drawn. Keys are free values. -/
structure Keys where
  cur : Option Nat
  next : Option Nat
  dead : List Nat
  deriving DecidableEq, Repr

/-- A port-map entry of the running image (Table 19.4). -/
structure PMap where
  port : Nat
  die : Nat
  first : Nat
  width : Nat
  mode : Nat
  dyn : Bool
  repair : Bool
  extWired : Bool
  pmd : Nat
  agent : Nat
  sub : Nat
  slice : Nat
  cred : List Nat
  deriving DecidableEq, Repr

/-- An uplink record (R436): MACs, and per priority XOFF, XON and reservation in KiB. -/
structure Upl where
  port : Nat
  pfcEn : Nat
  mac : List Byte
  xoff : List Nat
  xon : List Nat
  res : List Nat
  deriving DecidableEq, Repr

/-- The loaded configuration of the running image (R432 to R437). -/
structure Image where
  loaded : Bool
  nomHz : Nat
  svn : Nat
  switchNo : Nat
  pcp : List Nat
  pmap : List PMap
  upl : List Upl
  sw : List (Nat × Nat × List Byte)
  regs : List (Nat × Nat)
  objs : List (Nat × Obj)
  sched : List (Nat × Nat × Nat)
  deriving DecidableEq, Repr

/-- The fuses and the factory identity (R1, R425, R424, R434). -/
structure Fuses where
  stepping : Nat
  serial : Nat
  secure : Bool
  returns : Nat
  resecures : Nat
  minSvn : Nat
  deriving DecidableEq, Repr

/-- An attestation snapshot being signed or held (R417). -/
structure Report where
  pending : Option (List Byte)
  buf : List Byte
  deriving DecidableEq, Repr

/-- A BAR2 request not yet completed (R473 to R475): the pool requests still waited for, the worst
status so far with its pool address, and the bytes read so far by address. -/
structure HostReq where
  tag : Nat
  isWrite : Bool
  isAtomic : Bool
  addr : Nat
  len : Nat
  left : Nat
  worst : Nat
  worstAddr : Nat
  psn : Bool
  bytes : List (Nat × Byte)
  deriving DecidableEq, Repr

/-- A host access of BAR0 that came behind a posted write not yet performed (R89): its place in the order of the host's
requests, whether it is a read, and the command. -/
structure Behind where
  ord : Nat
  read : Bool
  cmd : Instr
  deriving DecidableEq, Repr

/-- The TAP (R513): the instruction in force and the boundary register. -/
structure Tap where
  instr : Nat
  boundary : Nat
  driving : Bool
  deriving DecidableEq, Repr

/-- What a host command that takes time is doing (R478): the extent command (R176, R195) with the pages being rewritten under
R206; the object of a command or schedule entry, its OP, the next page and the entries still to run, as object and twice the
entry's number plus 1 for ERG (R207, R208), whether a stop is wanted, whether a page found no place, and the pages processed in
the entries before (R209); the pages that a create has demoted (R195); the eviction walk with the dirty pages it demotes
(R398), and the cycle of the last recomposition with the port slices and slot masks before it (R397); a group command (R214);
the die of a partial reset. -/
structure Busy where
  extIdx : Nat
  extOp : Nat
  objIdx : Nat
  objOp : Nat
  objNext : Nat
  runQ : List (Nat × Nat)
  rcmpEvict : Bool
  cgOp : Nat
  prstDie : Nat
  rewrite : List Nat
  objStop : Bool := false
  objFail : Bool := false
  objPos : Nat := 0
  evicted : List Nat := []
  rcmpPages : List Nat := []
  rcmpAt : Option Nat := none
  rcmpSlices : List Nat := []
  rcmpMasks : List Nat := []
  deriving DecidableEq, Repr

/-- The switch (R95 to R146): ingress regions, plane crossings, messages that wait at their origin for a port at
its egress limit (R99), egress queues, scheduler memory and mirror. -/
structure Switch where
  ing : List IngMsg := []
  egr : List QMsg := []
  xsnNext : List (Nat × Nat) := []
  xsnDone : List (Nat × Nat) := []
  cross : List Cross := []
  voq : List Cross := []
  xhold : List Cross := []
  mcast : List McEnt := []
  lot : List LotEnt := []
  tmAct : List (Nat × Nat) := []
  buckets : List (Nat × Int) := []
  sched : List (Nat × Sched) := []
  mirSeen : List (Nat × Nat) := []
  mirq : List MirRec := []
  deriving DecidableEq, Repr

/-- The homes (R79 to R94, R112 to R117): tray write buffers, waiting requests,
frontiers known at each home, the line tables, the tray accesses outstanding, the ranges of lines that the device has
itself written whole and not yet sent to their trays, as first line and end (R77, R178, R206), how many requests have waited
(R202), and the members of the requests that planes have merged (R112). -/
structure Home where
  wbuf : List (Nat × WbEnt) := []
  waits : List Wait := []
  pfAt : List (Nat × Nat) := []
  rdEnts : List (Nat × RdEnt) := []
  atGrps : List AtGrp := []
  runs : List (Nat × List Req) := []
  tacc : List TAcc := []
  owed : List (Nat × Nat) := []
  arrived : Nat := 0
  merged : List (Nat × List Req) := []
  deriving DecidableEq, Repr

/-- The pool (R164 to R191): extents, every line's bytes, poison, symbol errors and suspect bits, and the frame that each
complex scrubs next in the present pass (R189). -/
structure Pool where
  extents : List (Nat × Extent) := []
  mem : List Host.Cell := []
  psn : List (Nat × Bool) := []
  symErr : List (Nat × Nat) := []
  susp : List (Nat × Bool) := []
  scrubAt : List (Nat × Nat) := []
  deriving DecidableEq, Repr

/-- Frames, heat, migrations and objects (R193 to R212), the epoch of the last halving of heat (R197), and what the tray
still holds of lines of clean promoted pages that were lost in Oasis, with their PSN (R194). -/
structure Tier where
  pages : List (Nat × Page) := []
  retired : List (Nat × Bool) := []
  retry : List Nat := []
  heat : List (Nat × Nat) := []
  migs : List Mig := []
  objs : List (Nat × Obj) := []
  decayed : Option Nat := none
  shadow : List (Nat × List Byte × Bool) := []
  deriving DecidableEq, Repr

/-- A snoop that lets its agent forward the line's DATA to the requester (R229): the agent asked, the line, the SRC and SEQ it
carries, and whether it is a SNP_X. -/
structure Fwd where
  id : Nat
  line : Nat
  src : Nat
  seq : Nat
  excl : Bool
  deriving DecidableEq, Repr

/-- Coherence groups, the directory and published regions (R213 to R246), the HACKs that a held slice has
not taken yet (Table 16.2), the lines that await a returned DATA after a cancelled XX_F, as line, source
and SEQ (R228), the snoops that a DATA may still answer (R229), and the symbols in error of directory
entries, by their line (R217). -/
structure Coh where
  cgs : List (Nat × Cg) := []
  dir : List (Nat × DirEnt) := []
  regions : List (Nat × Region) := []
  inotes : List Note := []
  engReads : List EngRead := []
  hacks : List (Nat × Msg) := []
  awaits : List (Nat × Nat × Nat) := []
  fwds : List Fwd := []
  dirErr : List (Nat × Nat) := []
  deriving DecidableEq, Repr

/-- Operations on the RGF dies (R247 to R333). -/
structure Rgf where
  slots : List (Nat × OpSlot) := []
  launchq : List Part := []
  dieq : List (Nat × List Part) := []
  colls : List Coll := []
  closed : List Nat := []
  nextList : Nat := 0
  deriving DecidableEq, Repr

/-- Mirage (R349 to R370): scans of dies and of adders, the failure log, the last checker chosen (R352), and the epoch of
the last halving of scores (R363). -/
structure Mirage where
  scans : List (Nat × Scan) := []
  adders : List (Nat × Scan) := []
  flog : List (Nat × List Byte) := []
  lastDie : Nat := 35
  decayed : Option Nat := none
  deriving DecidableEq, Repr

/-- The recovery sequencer (R374): its queue and the running entry; the epochs of corrected lines per row and the rows that wait
for their check, by frame (R378), the failed data pins of each stack (R380), the control dies out of service and the epochs of the last mismatch per pair (R382), the pairs
that hold for a self-test, the epoch containment began (R385), the stacks whose accesses wait (Table 16.2),
the directory slices that hold and those retired, the port dies that are lost, and errors a command has met and not yet reported. -/
structure Recov where
  queue : List RcvEnt := []
  running : Option RcvEnt := none
  rowErr : List (Nat × List Nat) := []
  rows : List (Nat × Nat) := []
  pins : List (Nat × Nat) := []
  ctOut : List Nat := []
  ctMis : List (Nat × Nat) := []
  containFrom : Option Nat := none
  stackWait : List Nat := []
  dirHold : List Nat := []
  dirOff : List Nat := []
  ctHold : List Nat := []
  pdOut : List Nat := []
  raised : List StandingFault := []
  deriving DecidableEq, Repr

/-- Flash, fuses, the running image, keys, the attestation report and the chunk windows (R406 to R448), the calibration
set in use (empty for the built-in presets, R446), and whether a firmware or calibration BEGIN has been given. -/
structure Boot where
  flash : List Host.Cell := []
  fuses : Fuses
  image : Image
  keys : Keys
  report : Report
  fwWin : List Host.Cell := []
  calWin : List Host.Cell := []
  calSet : List Byte := []
  fwBegun : Bool := false
  calBegun : Bool := false
  deriving DecidableEq, Repr

/-- The host port (R469 to R483): BAR2 requests, BAR0 accesses behind posted writes and whether one of them is performed now
(R89), the high halves latched by reads of low halves, by register (R471), the MSI-X table and its pending bits, the W1C bits
that events have set, as field, bits and CCLK cycle (R13), and the I3C register pointer (R483). -/
structure HostIf where
  reqs : List HostReq := []
  behind : List Behind := []
  draining : Bool := false
  hiLatch : List (Nat × Nat) := []
  msix : List Host.Cell := []
  pba : List (Nat × Bool) := []
  fresh : List (Nat × Nat × Nat) := []
  i3cOff : Nat := 0
  deriving DecidableEq, Repr

/-- Event ring, flash queue, snapshots and the return bundle (R388 to R392, R486 to R491), the records of events raised in DSLEEP
(Table 24.3, row 6), and whether the temperature or power-limit throttle was active earlier in the present epoch (R511). -/
structure Tel where
  evRing : List (Nat × List Byte) := []
  flashq : List (List Byte) := []
  snapA : List (Nat × Nat) := []
  snapB : List (Nat × Nat) := []
  bundle : List Byte := []
  healthUe : List (Nat × Nat) := []
  healthFails : List (Nat × Nat) := []
  healthNext : Nat := 0
  flogNext : Nat := 0
  heldRecs : List (List Byte) := []
  thrTemp : Bool := false
  thrLim : Bool := false
  deriving DecidableEq, Repr

/-- The whole device. -/
structure State where
  /-- the commands that wait, first in, first out -/
  pending : List Instr
  regs : List (Nat × Nat) := []
  ports : List (Nat × Port) := []
  agents : List (Nat × Agent) := []
  sw : Switch := {}
  home : Home := {}
  pool : Pool := {}
  tier : Tier := {}
  coh : Coh := {}
  rgf : Rgf := {}
  chans : List (Nat × Chan) := []
  scn : Mirage := {}
  rcv : Recov := {}
  boot : Boot
  power : Power
  clk : Clock
  busy : Busy
  host : HostIf := {}
  tel : Tel := {}
  tap : Tap
  out : List Wire := []
  nextId : Nat := 0
  freeCtr : Nat := 0
  deriving DecidableEq, Repr

/-- The image of a device that runs none: nominal epoch 10 µs (R462), nothing configured. -/
def Image.none : Image :=
  { loaded := false, nomHz := 100000, svn := 0, switchNo := 0, pcp := List.replicate 8 0, pmap := [], upl := [],
    sw := [], regs := [], objs := [], sched := [] }

/-- What start-up begins with: no image, no key, the flash erased, and the fuses of a part as it ships: lifecycle
SECURE (R425), no RETURN fuse blown, MIN_SVN 0, stepping and serial 0 (log entry 10). -/
def Boot.reset : Boot :=
  { fuses := { stepping := 0, serial := 0, secure := true, returns := 0, resecures := 0, minSvn := 0 }, image := Image.none,
    keys := { cur := none, next := none, dead := [] }, report := { pending := none, buf := [] } }

/-- Held in reset with power good (R506, R507). -/
def Power.reset : Power :=
  { entering := none, waking := false, heldEdge := false, heldLevels := 0, pme := false, wakeLow := false, lowStart := 0,
    inReset := true, offState := false, vstby := true, pgIn := true, rails := true, relHeld := false, offWake := false,
    stepsEnded := [], refclkGone := [], trips := false }

/-- The epoch unit leaves reset in holdover, at subtick 0 of an epoch that began in holdover (R463). So PWR_TIME shows HOLD, 0x800,
after reset, where Table 20.8 gives it the reset value 0: R466 is followed (DESIGN CHOICE, log entry 68). -/
def Clock.reset : Clock :=
  { subtick := 0, cclk := 0, holdEpoch := true, window := [], good := [], hits := 0, madeLast := false, rateSeen := false,
    relock := false, unlocked := false }

/-- No host command runs. -/
def Busy.reset : Busy :=
  { extIdx := 0, extOp := 0, objIdx := 0, objOp := 0, objNext := 0, runQ := [], rcmpEvict := false, cgOp := 0, prstDie := 0,
    rewrite := [] }

/-- The machine right after reset: every register at its reset value (R12), no command waiting, memory with nothing
listed, the device held in reset until RESET_N is released and start-up begins (R441; log entry 10). -/
def State.reset : State :=
  { pending := [], boot := Boot.reset, power := Power.reset, clk := Clock.reset, busy := Busy.reset,
    tap := { instr := 0x01, boundary := 0, driving := false } }

end Sys2Proof.Machine
end

