-- ==== Sys2Proof/Machine/RegMap.lean ====
section
/-! DEFINITION. The registers of BAR0: one name per register field of the spec's register tables
(Tables 2.14 to 23.9), and where each lies: its byte offset in BAR0, the strides and counts of its
instances, its bits, its access type (R11) and its reset value (R12). A field that a table gives no
number for (from image, from flash, from fuses) resets to 0 and is loaded by start-up (log entry 2). -/

namespace Sys2Proof.Machine

/-- The access types of Table 0.2 (R11); W1S is used by no register of the tables. -/
inductive Acc where
  | ro | rw | wo | w1c | rc
  deriving DecidableEq, Repr

/-- Where a field lies. Instance `i`, `j` is at byte `base + s1 * i + s2 * j`, bits
`msb + bs * j` down to `lsb + bs * j`; `i < n1`, `j < n2`. -/
structure FldInfo where
  base : Nat
  s1 : Nat
  n1 : Nat
  s2 : Nat
  n2 : Nat
  msb : Nat
  lsb : Nat
  bs : Nat
  acc : Acc
  reset : Nat
  deriving DecidableEq, Repr

/-- A register field, named REGISTER_FIELD as its table names it. -/
inductive Fld where
  /-- R76: Load timeout, 4–256 µs; applies to requests arriving after the write -/
  | PRT_PFTL_CTL_TMO_US
  /-- R76: Tray response limit, 2–128 µs -/
  | PRT_PFTL_CTL_TRAY_TMO_US
  /-- R76: 1 ends the binding as in R75 -/
  | PRT_PFTL_CTL_REBIND
  /-- R76: 0 holds the port out of discovery -/
  | PRT_PFTL_CTL_DISC_EN
  /-- R76: ROLE from the binding HELLO -/
  | PRT_PFTL_STAT_ROLE
  /-- R76: 1 while bound -/
  | PRT_PFTL_STAT_BOUND
  /-- R76: ID of the binding -/
  | PRT_PFTL_STAT_AGENT_ID
  /-- R76: 0 DOWN, 1 DISCOVERY, 2 ACTIVE, 3 REJECTED -/
  | PRT_PFTL_STAT_STATE
  /-- R76: Credits the device advertises for pool n (0–7 request SC0–SC7, 8–15 response); takes … -/
  | PRT_CRED_LOC_ADV
  /-- R76: Credits the agent advertised for pool n -/
  | PRT_CRED_REM_ADV
  /-- R76: Flits discarded for CRC -/
  | PRT_CRC_ERR_COUNT
  /-- R76: Replays started, NAK or timer -/
  | PRT_REPLAY_COUNT
  /-- R76: Requests answered REFUSED, STATE or UNMAPPED at ingress -/
  | PRT_REFUSED_COUNT
  /-- R76: Requests with a wrong SRC -/
  | PRT_SRC_MISMATCH_COUNT
  /-- R76: Error values sent under R66 -/
  | PRT_TMO_COUNT
  /-- R76: Responses discarded after a timeout -/
  | PRT_LATE_RSP_COUNT
  /-- R76: Requests discarded under R51 -/
  | PRT_DUP_SEQ_COUNT
  /-- R76: Missing numbers closed under R52, one count per number -/
  | PRT_SEQ_GAP_COUNT
  /-- R129: 0 disables store merging (R116) -/
  | SWC_CTL_MRG_EN
  /-- R129: 0 disables read and atomic combining (R112, R113) -/
  | SWC_CTL_COMB_EN
  /-- R129: Hash seed of R101 -/
  | SWC_CTL_SEED
  /-- R129: Planes in service -/
  | SWC_PLANE_STAT_N_ACTIVE
  /-- R129: A spare plane is free -/
  | SWC_PLANE_STAT_SPARE_AVAIL
  /-- R129: Bit n set when SPn has failed -/
  | SWC_PLANE_STAT_FAILED
  /-- R129: Physical plane in slot n; 0xF when the slot is unused -/
  | SWC_PLANE_MAP_SLOT
  /-- R129: AUTO cut-through threshold, in slots -/
  | SWC_CT_DEPTH_DEPTH
  /-- R129: Per-port egress limit in slots, 4,096 to 524,288 -/
  | SWC_EGR_CAP_CAP
  /-- R129: Reads served by a combined access -/
  | SWC_COMB_RD_COUNT
  /-- R129: Atomics served by a combined access -/
  | SWC_COMB_AT_COUNT
  /-- R129: Stores merged into a run -/
  | SWC_MRG_ST_COUNT
  /-- R129: Eligible requests performed uncombined (R113) -/
  | SWC_LINE_TBL_FULL_COUNT
  /-- R129: Requests that waited for the line-order table -/
  | SWC_LOT_FULL_COUNT
  /-- R129: Multicast sends that waited for an entry -/
  | SWC_MCAST_FULL_COUNT
  /-- R129: Duplicates discarded at egress -/
  | SWC_REORDER_DUP_COUNT
  /-- R129: Messages discarded under R118 -/
  | SWC_FLUSHED_COUNT
  /-- R129: Spare planes taken into service at step 3 of Table 4.3; an N reduction under R123 is … -/
  | SWC_FAILOVER_COUNT
  /-- R129: Ingress-region slots in use on PDd -/
  | SWC_BUF_ING_USED
  /-- R129: Egress-region slots in use on PDd -/
  | SWC_BUF_EGR_USED
  /-- R129: Forwarding mode of class n on port p: 0b00 AUTO, 0b01 CUT, 0b10 SAF; 0b11 reserved -/
  | SWC_FWD_MODE
  /-- R130: Ring size 2^LOG2SZ records, 16–25 (2 MiB to 1 GiB) -/
  | MIRR_CTL_LOG2SZ
  /-- R130: 1 overwrites the oldest record when the ring is full -/
  | MIRR_CTL_WRAP
  /-- R130: 1 enables the taps -/
  | MIRR_CTL_EN
  /-- R130: Ring base address bits 47:21 -/
  | MIRR_BASE_BASE
  /-- R130: Records written, modulo 2^32 -/
  | MIRR_WPTR_INDEX
  /-- R130: Records consumed, written by software -/
  | MIRR_RPTR_INDEX
  /-- R130: RECNO of the next record -/
  | MIRR_RECNO_NEXT
  /-- R130: Records dropped by the policer -/
  | MIRR_DROP_POL_COUNT
  /-- R130: Records dropped on a full ring -/
  | MIRR_DROP_FULL_COUNT
  /-- R130: Record writes answered other than OK (R128) -/
  | MIRR_DROP_ERR_COUNT
  /-- R130: EN was cleared because the ring's extent left ACTIVE or teardown began (R128) -/
  | MIRR_STAT_EXTGONE
  /-- R130: A write of EN = 1 was not applied because the ring lies outside one suitable ACTIVE extent -/
  | MIRR_STAT_BADRING
  /-- R130: Port to match -/
  | MIRR_RULE_CTL_PORT
  /-- R130: 1 applies the address range -/
  | MIRR_RULE_CTL_ADDR_EN
  /-- R130: 1 matches every port -/
  | MIRR_RULE_CTL_ANYPORT
  /-- R130: Records one match in 2^SAMPLE -/
  | MIRR_RULE_CTL_SAMPLE
  /-- R130: 0b01 ingress, 0b10 egress, 0b11 both; 0b00 reserved -/
  | MIRR_RULE_CTL_DIR
  /-- R130: 1 enables the rule -/
  | MIRR_RULE_CTL_EN
  /-- R130: Classes matched -/
  | MIRR_RULE_MATCH_SC_MASK
  /-- R130: Opcode bits compared -/
  | MIRR_RULE_MATCH_OPC_MASK
  /-- R130: Opcode value -/
  | MIRR_RULE_MATCH_OPC_VAL
  /-- R130: SRC bits compared -/
  | MIRR_RULE_AGENT_MASK
  /-- R130: SRC value -/
  | MIRR_RULE_AGENT_VAL
  /-- R130: Bit s set matches responses with status s -/
  | MIRR_RULE_STAT_STATUS_MASK
  /-- R130: Lowest address matched -/
  | MIRR_RULE_ALO_ADDR
  /-- R130: Highest address matched -/
  | MIRR_RULE_AHI_ADDR
  /-- R145: 1 applies staged changes at the next refill (R139) -/
  | TM_CTL_APPLY
  /-- R145: Points with SCALE < 4,096 -/
  | TM_STAT_SCALED_PTS
  /-- R145: Last apply refused -/
  | TM_STAT_APPLY_ERR
  /-- R145: Apply waiting for the refill -/
  | TM_STAT_APPLY_PEND
  /-- R145: Mirror policer, bytes per subtick -/
  | TM_POL_MIRR_REFILL
  /-- R145: 256-byte units -/
  | TM_POL_MIRR_B_BURST
  /-- R145: Committed, bytes per subtick; ignored for SC0, SC1 -/
  | TM_CLS_CIR_REFILL
  /-- R145: Peak, bytes per subtick -/
  | TM_CLS_PIR_REFILL
  /-- R145: Peak burst, 256-byte units -/
  | TM_CLS_BURST_PBS
  /-- R145: Committed burst, 256-byte units -/
  | TM_CLS_BURST_CBS
  /-- R145: 1–255 -/
  | TM_CLS_WT_WEIGHT
  /-- R145: A(q) at the last refill -/
  | TM_PT_CAP_CAP
  /-- R145: Committed scale factor × 4,096 -/
  | TM_PT_SCALE_SCALE
  /-- R145: Subscriber node committed rate -/
  | TM_SUB_CIR_REFILL
  /-- R145: Subscriber node peak rate -/
  | TM_SUB_PIR_REFILL
  /-- R145: Peak burst -/
  | TM_SUB_BURST_PBS
  /-- R145: Committed burst -/
  | TM_SUB_BURST_CBS
  /-- R145: Weight -/
  | TM_SUB_WT_WEIGHT
  /-- R145: Scaled at some refill since cleared -/
  | TM_GUAR_SCALED_SEEN
  /-- R145: Scaled at the last refill (R142) -/
  | TM_GUAR_SCALED_NOW
  /-- R145: Subscriber bound to port p -/
  | TM_PORT_SUB_SUB
  /-- R145: SC6 policer, bytes per subtick -/
  | TM_POL_MSG_REFILL
  /-- R145: 256-byte units -/
  | TM_POL_MSG_B_BURST
  /-- R145: Messages or frames dropped -/
  | TM_POL_DROP_COUNT
  /-- R145: Slots at the last sample -/
  | TM_QS_DEPTH_DEPTH
  /-- R145: Oldest age, CCLK cycles -/
  | TM_QS_DELAY_DELAY
  /-- R145: Largest depth since last read -/
  | TM_QS_MAX_DEPTH
  /-- R145: Time of the last sample -/
  | TM_QS_TS_TIME
  /-- R163: 1 releases PARKED (R156) -/
  | PRT_CTL_CLR_PARK
  /-- R163: 1 starts a fast retrain -/
  | PRT_CTL_RETRAIN
  /-- R163: 0 takes the port DOWN, uncounted -/
  | PRT_CTL_EN
  /-- R163: 0b00 unused, 0b01 accelerator, 0b10 tray, 0b11 uplink -/
  | PRT_CFG_MODE
  /-- R163: Dynamic agent ID -/
  | PRT_CFG_DYN
  /-- R163: Port die -/
  | PRT_CFG_DIE
  /-- R163: j0 -/
  | PRT_CFG_FIRST
  /-- R163: Configured lanes: 1, 2, 4 or 8 -/
  | PRT_CFG_WIDTH
  /-- R163: 0 DOWN, 1 TRAIN, 2 UP, 3 RETRAIN, 4 HOLD, 5 PARKED -/
  | PRT_LINK_STAT_LSTATE
  /-- R163: Lanes in service -/
  | PRT_LINK_STAT_LANES
  /-- R163: A lane runs on the repair lane -/
  | PRT_LINK_STAT_REPAIRED
  /-- R163: Hold epochs left -/
  | PRT_HOLD_REMAIN
  /-- R163: 1–15 -/
  | PRT_FLAP_CFG_LIMIT
  /-- R163: 0–15 -/
  | PRT_FLAP_CFG_BASE_LOG2
  /-- R163: BASE_LOG2–24 -/
  | PRT_FLAP_CFG_MAX_LOG2
  /-- R163: 10–30 -/
  | PRT_FLAP_CFG_WIN_LOG2
  /-- R163: Counted downs in window -/
  | PRT_FLAPS_K
  /-- R163: Retrains entered -/
  | PRT_RETRAIN_CNT_COUNT
  /-- R163: Counted downs -/
  | PRT_DOWN_CNT_COUNT
  /-- R163: Codewords corrected -/
  | PRT_FEC_CORR_COUNT
  /-- R163: Codewords uncorrectable -/
  | PRT_FEC_UNCORR_COUNT
  /-- R163: 0b00 unused, 0b01 in service, 0b10 failed; 0b11 reserved -/
  | PRT_LANE_MAP_STATE
  /-- R163: Physical lane carrying it -/
  | PRT_LANE_MAP_PHYS
  /-- R163: Logical lane -/
  | PRT_LANE_MAP_LOGICAL
  /-- R163: FEC symbol errors on lane n -/
  | PRT_LANE_SYM_COUNT
  /-- R163: EtherType -/
  | PRT_UPL_CTL_ETYPE
  /-- R163: Bit n enables PCP n -/
  | PRT_UPL_CTL_PFC_EN
  /-- R163: Epochs, 1–65,535 -/
  | PRT_UPL_PFC_WD_WD
  /-- R163: Frames discarded (R160) -/
  | PRT_UPL_RX_DISCARD_COUNT
  /-- R163: Watchdog firings -/
  | PRT_UPL_PFC_STORM_COUNT
  /-- R163: Bit n set while PCP n is paused -/
  | PRT_UPL_PAUSED_PCP
  /-- R163: Repair lane wired externally -/
  | PRT_DIE_REPAIR_EXT_WIRED
  /-- R163: REPAIR_PORT -/
  | PRT_DIE_REPAIR_EXT_PORT
  /-- R163: 0b00 free, 0b01 internal, 0b10 external; 0b11 reserved -/
  | PRT_DIE_REPAIR_MODE
  /-- R163: Lane index j replaced -/
  | PRT_DIE_REPAIR_LANE
  /-- R192: Enables patrol scrub (R189) -/
  | POOL_CTL_SCRUB_EN
  /-- R192: Home hash seed (R166) -/
  | POOL_CTL_HSEED
  /-- R192: Bit n set while STn is in service -/
  | POOL_STACKS_INSERV
  /-- R192: Present capacity in granules; 51,380,224 in C1 -/
  | POOL_CAP_GRANULES
  /-- R192: Bit t set while tray t is bound -/
  | POOL_TRAYS_PRESENT
  /-- R192: Up to 30 -/
  | POOL_LEASE_CFG_MAX_LOG2
  /-- R192: 10 or more -/
  | POOL_LEASE_CFG_MIN_LOG2
  /-- R192: MIN_LOG2 to MAX_LOG2; a write breaking MIN ≤ DEF ≤ MAX is ignored -/
  | POOL_LEASE_CFG_DEF_LOG2
  /-- R192: Clears the suspect bit of page a[47:16] -/
  | POOL_SUSP_CLR_PAGE
  /-- R192: Address bits 47:21 -/
  | POOL_EXT_ARG0_BASE
  /-- R192: Granules -/
  | POOL_EXT_ARG1_LEN
  /-- R192: Table 7.5 -/
  | POOL_EXT_ARG2_ERGC
  /-- R192: Table 7.5 -/
  | POOL_EXT_ARG2_PLACE
  /-- R192: Table 7.5 -/
  | POOL_EXT_ARG2_PUB
  /-- R192: Table 7.5 -/
  | POOL_EXT_ARG2_CG
  /-- R192: Table 7.5 -/
  | POOL_EXT_ARG2_COH
  /-- R192: Table 7.5 -/
  | POOL_EXT_ARG2_SLICE
  /-- R192: Table 7.5 -/
  | POOL_EXT_ARG3_OWNED
  /-- R192: Table 7.5 -/
  | POOL_EXT_ARG3_OWNER
  /-- R192: Extent for DELETE, SET_ATTR, READ, SET_OWNER -/
  | POOL_EXT_CMD_INDEX
  /-- R192: 0x1–0x5 as R176; others reserved -/
  | POOL_EXT_CMD_OP
  /-- R192: Command running -/
  | POOL_EXT_RES_BUSY
  /-- R192: Extent created or read -/
  | POOL_EXT_RES_INDEX
  /-- R192: STATE of the extent read -/
  | POOL_EXT_RES_STATE
  /-- R192: Status code (Table 0.3) -/
  | POOL_EXT_RES_STATUS
  /-- R192: GEN of the extent read -/
  | POOL_EXT_GEN_GEN
  /-- R192: 26–36 -/
  | POOL_SCRUB_CFG_PERIOD_LOG2
  /-- R192: Frames read this pass -/
  | POOL_SCRUB_POS_POS
  /-- R192: In-service Oasis frames -/
  | POOL_SCRUB_TOT_TOTAL
  /-- R192: Progress in 0.01 %, 0–10,000 -/
  | POOL_SCRUB_PCT_PCT
  /-- R192: Lines corrected -/
  | POOL_CE_COUNT
  /-- R192: Lines uncorrectable -/
  | POOL_UE_COUNT
  /-- R192: Reads of poisoned lines -/
  | POOL_POISON_RD_COUNT
  /-- R192: Requests discarded by cancel (R80) -/
  | POOL_CANCEL_COUNT
  /-- R192: ST.REL held for the frontier (R82) -/
  | POOL_REL_HELD_COUNT
  /-- R192: Duplicates discarded (R90) -/
  | POOL_DUP_DISCARD_COUNT
  /-- R192: Leases expired -/
  | POOL_LEASE_EXP_COUNT
  /-- R192: Extents reclaimed -/
  | POOL_EXT_RECLAIM_COUNT
  /-- R192: Pages -/
  | POOL_QUOTA_OASIS_MAX
  /-- R192: Pages in Oasis frames -/
  | POOL_USE_OASIS_USE
  /-- R192: Granules -/
  | POOL_QUOTA_ERG_MAX
  /-- R192: Granules in Erg ranges -/
  | POOL_USE_ERG_USE
  /-- R212: Migrations in flight per home, 1–4 -/
  | TIER_CTL_MIG_MAX
  /-- R212: Halving period in epochs, 2^6–2^20 -/
  | TIER_CTL_DECAY_LOG2
  /-- R212: 0 stops heat counting and heat promotion -/
  | TIER_CTL_HEAT_EN
  /-- R212: Victim margin (R199) -/
  | TIER_PROMO_HYST
  /-- R212: Promotion threshold, 1–255 -/
  | TIER_PROMO_THR
  /-- R212: Outstanding requests per tray, 16–2,048 -/
  | TIER_TRAY_QD_QD
  /-- R212: 0b01 STARTUP, 0b10 TEST, 0b11 RECOVERY; 0b00 stops the run -/
  | TIER_SCHED_RUN_PHASE
  /-- R212: A run is in progress -/
  | TIER_SCHED_STAT_RUNNING
  /-- R212: Phase of the run -/
  | TIER_SCHED_STAT_PHASE
  /-- R212: Entry being run -/
  | TIER_SCHED_STAT_ENTRY
  /-- R212: First page, a[47:16] -/
  | TIER_OBJ_ARG0_BASE
  /-- R212: Pages, 1–2^24 -/
  | TIER_OBJ_ARG1_PAGES
  /-- R212: Layer ID -/
  | TIER_OBJ_ARG2_LAYER
  /-- R212: Object for PLACE_OASIS, PLACE_ERG, DELETE, READ -/
  | TIER_OBJ_CMD_INDEX
  /-- R212: 0x1–0x5 as R207; others reserved -/
  | TIER_OBJ_CMD_OP
  /-- R212: Command or run in progress -/
  | TIER_OBJ_RES_BUSY
  /-- R212: Object defined or read -/
  | TIER_OBJ_RES_INDEX
  /-- R212: 0 FREE, 1 ERG, 2 OASIS, 3 PARTIAL -/
  | TIER_OBJ_RES_STATE
  /-- R212: Status code (Table 0.3) -/
  | TIER_OBJ_RES_STATUS
  /-- R212: Pages processed (R209) -/
  | TIER_PROG_POS_POS
  /-- R212: Pages in the command or run -/
  | TIER_PROG_TOT_TOTAL
  /-- R212: Progress in 0.01 %, 0–10,000 -/
  | TIER_PROG_PCT_PCT
  /-- R212: Promotions completed -/
  | TIER_PROMO_CNT_COUNT
  /-- R212: Demotions, clean and dirty -/
  | TIER_DEMO_COUNT
  /-- R212: Moves abandoned (R203) -/
  | TIER_MIG_ABORT_COUNT
  /-- R212: Accesses not counted for lack of a way -/
  | TIER_HEAT_MISS_COUNT
  /-- R212: Promotions refused by quota -/
  | TIER_PROMO_QUOTA_COUNT
  /-- R212: Pages demoted for an extent creation -/
  | TIER_EVICT_CREATE_COUNT
  /-- R212: Dirty pages lost with a stack -/
  | TIER_LOST_DIRTY_COUNT
  /-- R212: Demotions refused for image size -/
  | TIER_ERGC_KEEP_COUNT
  /-- R212: Schedule entries skipped -/
  | TIER_SCHED_SKIP_COUNT
  /-- R212: Table 8.2 -/
  | TIER_LATE_MIGRATING_COUNT
  /-- R212: Table 8.2 -/
  | TIER_LATE_TRAY_BUSY_COUNT
  /-- R212: Table 8.2 -/
  | TIER_LATE_LINK_RETRAIN_COUNT
  /-- R212: Table 8.2 -/
  | TIER_LATE_QUOTA_COUNT
  /-- R212: FREE frames at MCk -/
  | TIER_FREE_FRAMES_COUNT
  /-- R212: Entries written, modulo 2^32; entry i = NEXT mod 64 is written next -/
  | TIER_LATE_LOG_IDX_NEXT
  /-- R212: Page a[47:16] -/
  | TIER_LATE_LOG_PAGE
  /-- R212: 0 MIGRATING, 1 TRAY_BUSY, 2 LINK_RETRAIN, 3 QUOTA -/
  | TIER_LATE_LOG_CAUSE
  /-- R212: Object LAYER -/
  | TIER_LATE_LOG_LAYER
  /-- R212: Start of the wait, R7 format -/
  | TIER_LATE_LOG_TIME
  /-- R246: Snoop and INV_NOTE answer limit, 2–128 µs -/
  | DIR_CTL_SNP_TMO_US
  /-- R246: Group of the command -/
  | DIR_CG_ARG_GROUP
  /-- R246: Slot for ADD, REMOVE -/
  | DIR_CG_ARG_SLOT
  /-- R246: Agent ID for ADD -/
  | DIR_CG_ARG_ID
  /-- R246: 0x1–0x5 as Table 9.1; others reserved -/
  | DIR_CG_CMD_OP
  /-- R246: Command running -/
  | DIR_CG_RES_BUSY
  /-- R246: Group of the last command -/
  | DIR_CG_RES_GROUP
  /-- R246: Status code (Table 0.3) -/
  | DIR_CG_RES_STATUS
  /-- R246: Sets in one walk, all memory complexes -/
  | DIR_CG_TOT_TOTAL
  /-- R246: 0 OFF, 1 UP, 2 FAULTED; 3 reserved -/
  | DIR_CG_STAT_STATE
  /-- R246: The last fault walk has ended -/
  | DIR_CG_STAT_WALKED
  /-- R246: CAUSE of the last fault -/
  | DIR_CG_STAT_CAUSE
  /-- R246: Valid slots, 0–64 -/
  | DIR_CG_STAT_MEMBERS
  /-- R246: Progress of the group's walk, 0.01 % units -/
  | DIR_CG_STAT_PCT
  /-- R246: R215 -/
  | DIR_CG_GEN_GEN
  /-- R246: Lines marked at the last fault -/
  | DIR_CG_POISONED_COUNT
  /-- R246: Sets walked in the group's walk -/
  | DIR_CG_POS_POS
  /-- R246: Slot holds an ID -/
  | DIR_CG_MEMBER_VALID
  /-- R246: Agent ID -/
  | DIR_CG_MEMBER_ID
  /-- R246: Entries in use at MCk -/
  | DIR_ENTRIES_USED
  /-- R246: Snoops sent -/
  | DIR_SNOOP_COUNT
  /-- R246: DATA forwarded by owners -/
  | DIR_FWD_COUNT
  /-- R246: Forwarded DATA returned (R228) -/
  | DIR_FWD_RETURN_COUNT
  /-- R246: Entries recalled for a way -/
  | DIR_EVICT_COUNT
  /-- R246: Requests that waited for a way -/
  | DIR_SET_WAIT_COUNT
  /-- R246: Stale WB and WBC -/
  | DIR_WB_STALE_COUNT
  /-- R246: UPG answered GRANT 0b00 -/
  | DIR_UPG_LOST_COUNT
  /-- R246: Rule breaches by agents -/
  | DIR_PROTO_ERR_COUNT
  /-- R246: Snoops and notes not answered in time -/
  | DIR_SNP_TMO_COUNT
  /-- R246: Non-member accesses to coherent extents -/
  | DIR_NONMEMBER_COUNT
  /-- R246: Versions committed -/
  | DIR_PUB_OK_COUNT
  /-- R246: PUB refused VERSION_STALE -/
  | DIR_PUB_STALE_COUNT
  /-- R246: INV_NOTEs sent -/
  | DIR_INV_NOTE_COUNT
  /-- R246: Header line address -/
  | DIR_PUB_ARG0_HDR
  /-- R246: Initial BODY -/
  | DIR_PUB_ARG1_BODY
  /-- R246: 1–1,048,576 -/
  | DIR_PUB_ARG2_LINES
  /-- R246: Region for DELETE, READ -/
  | DIR_PUB_CMD_INDEX
  /-- R246: 0x1 CREATE, 0x2 DELETE, 0x3 READ; others reserved -/
  | DIR_PUB_CMD_OP
  /-- R246: Command running -/
  | DIR_PUB_RES_BUSY
  /-- R246: Region created or read -/
  | DIR_PUB_RES_INDEX
  /-- R246: Status code -/
  | DIR_PUB_RES_STATUS
  /-- R246: VERSION of the region read -/
  | DIR_PUB_VER_VERSION
  /-- R273: 0 SPARE, 1 ACTIVE, 2 OBSERVED, 3 PAIRED, 4 RETIRED, 5 FAILED; 6–7 reserved -/
  | RGF_DIE_STAT_ROLE
  /-- R273: Partner die in paired execution; 0x3F for none -/
  | RGF_DIE_STAT_PARTNER
  /-- R273: Placement slots served -/
  | RGF_DIE_STAT_NSLOTS
  /-- R273: Repair columns in use, 0–8 -/
  | RGF_DIE_STAT_REPCOL
  /-- R273: Parts queued and running, 0–64 -/
  | RGF_QDEPTH_PARTS
  /-- R273: Work in CCLK cycles (R261), saturating -/
  | RGF_QWORK_WORK
  /-- R273: Accumulators in use, 0–512 -/
  | RGF_ACC_USED_ACC
  /-- R273: Parts completed -/
  | RGF_PARTS_RUN_COUNT
  /-- R273: CCLK cycles with the MAC array working -/
  | RGF_MAC_BUSY_COUNT
  /-- R273: Elements added by the reduce unit -/
  | RGF_RED_ELEM_COUNT
  /-- R273: Lines read by the gather unit -/
  | RGF_GATHER_LINES_COUNT
  /-- R273: Chunk waits for an accumulator (R269) -/
  | RGF_ACC_WAIT_COUNT
  /-- R273: Default operation timeout in epochs, 1–65,535 -/
  | RGF_CTL_DEF_TMO
  /-- R273: Accumulators per entry per die: 16–127, or 0 for 128. The reset value 0 gives 128 -/
  | RGF_CTL_ACC_MAX
  /-- R273: Split threshold 2^(16 + field) CCLK cycles, field 0–8 -/
  | RGF_CTL_SPLIT_MIN_LOG2
  /-- R273: Parts at most, field + 1: 1–8 -/
  | RGF_CTL_SPLIT_MAX
  /-- R273: 0 disables splitting -/
  | RGF_CTL_SPLIT_EN
  /-- R273: Dies in service -/
  | RGF_SUM_ACTIVE
  /-- R273: Spare dies free -/
  | RGF_SUM_SPARE
  /-- R273: Dies serving more than one slot -/
  | RGF_SUM_DOUBLED
  /-- R273: Open collective entries, 0–1,024 -/
  | RGF_COLL_OPEN_COUNT
  /-- R273: Parts in the launch queue, 0–4,096 -/
  | RGF_LAUNCHQ_COUNT
  /-- R273: Launches accepted -/
  | RGF_LAUNCH_COUNT
  /-- R273: Operations aborted (R254, R255) -/
  | RGF_ABORT_COUNT
  /-- R273: Joins refused (R266) -/
  | RGF_MISMATCH_COUNT
  /-- R273: Launches with a closed TAG -/
  | RGF_LATE_JOIN_COUNT
  /-- R273: Contribution lines discarded as repeats -/
  | RGF_DUP_CHUNK_COUNT
  /-- R273: Contribution lines beyond K -/
  | RGF_CHUNK_RANGE_COUNT
  /-- R273: Launches refused with QUOTA -/
  | RGF_QUOTA_COUNT
  /-- R273: Physical die serving slot s, 0–35 -/
  | RGF_MAP_DIE
  /-- R318: 1 saturates FP8 narrowing (Table 12.4) -/
  | RGF_ARITH_SATFP8
  /-- R318: 0b00 RNE, 0b01 RTZ, 0b10 RUP, 0b11 RDN -/
  | RGF_ARITH_RMODE
  /-- R318: Residue mismatches recomputed -/
  | RGF_RES_RETRY_COUNT
  /-- R318: Mismatches repeated on recomputation -/
  | RGF_RES_FAIL_COUNT
  /-- R318: Values overflowed on narrowing or rounding (R310) -/
  | RGF_OVF_COUNT
  /-- R318: NaN values written -/
  | RGF_NAN_OUT_COUNT
  /-- R333: CCLK cycles paused under R331 -/
  | EXP_BEHIND_COUNT
  /-- R333: CODED blocks decoded -/
  | EXP_BLK_CODED_COUNT
  /-- R333: RAW and ZERO blocks passed by the decoder -/
  | EXP_BLK_RAW_COUNT
  /-- R333: Blocks whose check value mismatched -/
  | EXP_CHECK_FAIL_COUNT
  /-- R333: Malformed blocks (R327) -/
  | EXP_MALFORMED_COUNT
  /-- R333: Blocks written by the compressor -/
  | EXP_COMP_BLK_COUNT
  /-- R333: Of those, RAW blocks -/
  | EXP_COMP_RAW_COUNT
  /-- R333: Erg image blocks failed on expansion -/
  | TIER_ERGC_CHECK_COUNT
  /-- R348: 1 halts on a bus error (R342) -/
  | CAR_CTL_STOP_ON_ERR
  /-- R348: R346 -/
  | CAR_CTL_ABORT
  /-- R348: R345 -/
  | CAR_CTL_PAUSE
  /-- R348: Table 14.1 -/
  | CAR_CTL_GO
  /-- R348: Status of the last descriptor ended, or of a failed fetch -/
  | CAR_STAT_LASTST
  /-- R348: A command had no effect -/
  | CAR_STAT_CMD_IGN
  /-- R348: 0 IDLE, 1 RUN, 2 PAUSING, 3 PAUSED, 4 ABORTING, 5 HALTED; 6–7 reserved -/
  | CAR_STAT_STATE
  /-- R348: Bound channel -/
  | CAR_CFG_AGV
  /-- R348: Access limit, 4–1,023 µs -/
  | CAR_CFG_TMO_US
  /-- R348: Bound agent -/
  | CAR_CFG_AGENT
  /-- R348: Next descriptor to fetch -/
  | CAR_DNEXT_ADDR
  /-- R348: Command line (R335); bits 5:0 zero -/
  | CAR_CMDADDR_ADDR
  /-- R348: Current descriptor -/
  | CAR_CUR_ADDR
  /-- R348: Destination bytes performed in it -/
  | CAR_OFS_BYTES
  /-- R348: Bytes in the holding register -/
  | CAR_HOLDCNT_BYTES
  /-- R348: R347 -/
  | CAR_POS_POS
  /-- R348: R347 -/
  | CAR_TOT_TOT
  /-- R348: 0.01 % units, 0–10,000 -/
  | CAR_PCT_PCT
  /-- R348: Descriptors ended DONE -/
  | CAR_DESC_DONE_COUNT
  /-- R348: Descriptors ended BAD -/
  | CAR_DESC_BAD_COUNT
  /-- R348: Descriptors ended ABORTED -/
  | CAR_DESC_ABORT_COUNT
  /-- R370: 0 turns every automatic retirement into pairing -/
  | SCN_CTL_AUTO_RET
  /-- R370: Normal interval in epochs, 200–2,000 -/
  | SCN_INT_NORM
  /-- R370: Observed interval in epochs, 10–50 -/
  | SCN_INT_OBS
  /-- R370: Table 15.5 -/
  | SCN_W0_W_SCAN
  /-- R370: Table 15.5 -/
  | SCN_W0_W_RFAIL
  /-- R370: Table 15.5 -/
  | SCN_W1_W_PAIRMIS
  /-- R370: Table 15.5 -/
  | SCN_W1_W_RETRY
  /-- R370: Table 15.6 -/
  | SCN_THR0_RET_THR
  /-- R370: Table 15.6 -/
  | SCN_THR0_OBS_THR
  /-- R370: Table 15.6 -/
  | SCN_THR1_EXIT_THR
  /-- R370: Passing scans in a row to leave observation, 1–65,535 -/
  | SCN_THR1_OBS_MIN
  /-- R370: Halving period 2^LOG2 epochs, 20–32 -/
  | SCN_DECAY_LOG2
  /-- R370: Retirement budget window, at least the reset value -/
  | SCN_RET_WIN_EPOCHS
  /-- R370: Last automatic retirement, R7 format -/
  | SCN_LAST_RET_TIME
  /-- R370: Fewer than 24 dies in service (R367) -/
  | SCN_STAT_LOW
  /-- R370: Dies serving slots -/
  | SCN_STAT_INSERV
  /-- R370: Dies in PAIRED -/
  | SCN_STAT_PAIRED
  /-- R370: Dies in OBSERVED -/
  | SCN_STAT_OBSERVED
  /-- R370: Die of the command, 0–35 -/
  | SCN_DIE_CMD_DIE
  /-- R370: Table 15.7; others reserved -/
  | SCN_DIE_CMD_OP
  /-- R370: Command running -/
  | SCN_DIE_RES_BUSY
  /-- R370: Status code (Table 0.3) -/
  | SCN_DIE_RES_STATUS
  /-- R370: Scans completed -/
  | SCN_SCANS_COUNT
  /-- R370: Scans failed, any die -/
  | SCN_FAILS_COUNT
  /-- R370: Arbitrations run -/
  | SCN_ARB_COUNT
  /-- R370: Early scans (R356) -/
  | SCN_EARLY_COUNT
  /-- R370: Pages marked suspect -/
  | SCN_SUSP_PAGES_COUNT
  /-- R370: TAINT_NOTEs sent -/
  | SCN_NOTES_COUNT
  /-- R370: Operations completed TAINTED -/
  | SCN_TAINTED_OPS_COUNT
  /-- R370: Paired digests that differed -/
  | SCN_PAIR_MIS_COUNT
  /-- R370: Health score -/
  | SCN_DIE_SCORE_SCORE
  /-- R370: Start of the last passing scan, R7 format -/
  | SCN_DIE_LAST_TIME
  /-- R370: Epoch of the next scheduled scan -/
  | SCN_DIE_NEXT_EPOCH
  /-- R370: Scans failed by die d -/
  | SCN_DIE_FAILS_COUNT
  /-- R370: Journal entries since the start of the last passing scan -/
  | SCN_DIE_JCNT_ENTRIES
  /-- R370: Entries written, modulo 2^32 -/
  | SCN_DIE_JHEAD_NEXT
  /-- R370: MREDUCE moved to MC(k XOR 1) (R369) -/
  | SCN_MC_STAT_MOVED
  /-- R370: Adder scans failed -/
  | SCN_MC_STAT_FAILS
  /-- R370: Start of the last passing adder scan -/
  | SCN_MC_LAST_TIME
  /-- R370: Die, 0–35, or 0x30 + k for MCk's adders -/
  | SCN_JSEL_DIE
  /-- R370: Entry, 0–16,383 -/
  | SCN_JSEL_INDEX
  /-- R370: Failure records written; entry NEXT mod 64 is written next -/
  | SCN_FLOG_IDX_NEXT
  /-- R393: An entry is running -/
  | EVT_RCV_STAT_BUSY
  /-- R393: Severity of the running entry -/
  | EVT_RCV_STAT_SEV
  /-- R393: Entries queued, 0–64 -/
  | EVT_RCV_STAT_QCNT
  /-- R393: Step of the running entry -/
  | EVT_RCV_STAT_STEP
  /-- R393: Class of the running entry (Table 16.2) -/
  | EVT_RCV_CUR_CLASS
  /-- R393: Unit number -/
  | EVT_RCV_CUR_UNIT
  /-- R393: Containment in force -/
  | EVT_CONTAIN_ACTIVE
  /-- R393: 0 none, 1 storm, 2 S4 error, 3 host ENTER -/
  | EVT_CONTAIN_CAUSE
  /-- R393: Class of an S4 cause -/
  | EVT_CONTAIN_CLASS
  /-- R393: R386 -/
  | EVT_CONTAIN_CMD_CLEAR
  /-- R393: R383 -/
  | EVT_CONTAIN_CMD_ENTER
  /-- R393: Status of the last CLEAR -/
  | EVT_CONTAIN_RES_STATUS
  /-- R393: Table 16.5 -/
  | EVT_DEGRADED_STATES
  /-- R393: Bit n set while STn is lost -/
  | EVT_STACK_LOST_STACKS
  /-- R393: Pages without a frame (R380) -/
  | EVT_FRAME_NOSUB_PAGES
  /-- R393: Frames RETIRED, all homes -/
  | EVT_FRAMES_RETIRED_COUNT
  /-- R393: Entries completed -/
  | EVT_RCV_DONE_COUNT
  /-- R393: Preemptions (R375) -/
  | EVT_RCV_PREEMPT_COUNT
  /-- R393: Errors joined to an entry -/
  | EVT_RCV_MERGED_COUNT
  /-- R393: Units retired (R377) -/
  | EVT_UNIT_RETIRED_COUNT
  /-- R393: Error storms -/
  | EVT_STORMS_COUNT
  /-- R393: Errors not queued -/
  | EVT_RCV_DROPPED_COUNT
  /-- R393: R390 -/
  | EVT_RMAP_CNT_FULL
  /-- R393: Records held, 0–4,096 -/
  | EVT_RMAP_CNT_RECORDS
  /-- R393: Record selected -/
  | EVT_RMAP_SEL_INDEX
  /-- R393: Sets CLEARED in the selected record -/
  | EVT_RMAP_CMD_CLR
  /-- R393: R392 -/
  | EVT_BUNDLE_CMD_BUILD
  /-- R393: Bytes assembled -/
  | EVT_BUNDLE_POS_POS
  /-- R393: 2,293,888 while building or built -/
  | EVT_BUNDLE_TOT_TOTAL
  /-- R393: Progress in 0.01 %, 0–10,000 -/
  | EVT_BUNDLE_PCT_PCT
  /-- R393: Entry class; 0 when empty -/
  | EVT_RCV_Q_CLASS
  /-- R393: Severity -/
  | EVT_RCV_Q_SEV
  /-- R393: Next step -/
  | EVT_RCV_Q_STEP
  /-- R393: Unit number -/
  | EVT_RCV_Q_UNIT
  /-- R393: Errors joined -/
  | EVT_RCV_Q_COUNT
  /-- R393: First seen, R7 format -/
  | EVT_RCV_Q_TIME
  /-- R405: With APPLY, runs the eviction walk (R398) -/
  | POOL_RCMP_CMD_EVICT
  /-- R405: Applies the staged slices (R397) -/
  | POOL_RCMP_CMD_APPLY
  /-- R405: Recomposition in progress -/
  | POOL_RCMP_STAT_BUSY
  /-- R405: OK or QUOTA (R398) -/
  | POOL_RCMP_STAT_STATUS
  /-- R405: Pages demoted -/
  | POOL_RCMP_POS_POS
  /-- R405: Excess pages at the start of the walk -/
  | POOL_RCMP_TOT_TOTAL
  /-- R405: Progress in 0.01 %, 0–10,000 -/
  | POOL_RCMP_PCT_PCT
  /-- R405: Recompositions applied -/
  | POOL_RCMP_CNT_COUNT
  /-- R405: Transfers committed -/
  | POOL_XFER_COMMIT_COUNT
  /-- R405: XFER_OWNER answered VERSION_STALE -/
  | POOL_XFER_STALE_COUNT
  /-- R405: Staged placement-slot mask -/
  | POOL_SLC_SLOTS_MASK
  /-- R405: Mask in force -/
  | POOL_SLC_SLOTS_ACT_MASK
  /-- R405: USE_OASIS exceeds QUOTA_OASIS -/
  | POOL_SLC_STAT_OVER
  /-- R405: Ports in the slice, 0–320 -/
  | POOL_SLC_STAT_NPORTS
  /-- R405: Slots in the mask in force, 0–32 -/
  | POOL_SLC_STAT_NSLOTS
  /-- R405: Staged slice of port p -/
  | POOL_PORT_SLICE_STAGED
  /-- R405: Slice in force -/
  | POOL_PORT_SLICE_ACTIVE
  /-- R428: RETURN fuses blown, 0–3 -/
  | SEC_LIFE_RETURNS
  /-- R428: 0 MANUFACTURE, 1 SECURE, 2 RETURNED; 3 reserved -/
  | SEC_LIFE_LIFECYCLE
  /-- R428: ASSIGN or teardown running; 1 during the scrub after reset -/
  | SEC_TEN_STAT_BUSY
  /-- R428: Teardown step, 1–7, or 6 for the scrub after reset; 0 otherwise -/
  | SEC_TEN_STAT_STEP
  /-- R428: 0 UNASSIGNED, 1 ASSIGNED, 2 TEARDOWN, 3 SCRUBBING -/
  | SEC_TEN_STAT_STATE
  /-- R428: R410 -/
  | SEC_TEN_EPOCH_EPOCH
  /-- R428: 0x1 ASSIGN, 0x2 TEARDOWN; others reserved -/
  | SEC_TEN_CMD_OP
  /-- R428: Status code (Table 0.3) -/
  | SEC_TEN_RES_STATUS
  /-- R428: Tenant identifier bytes 4n to 4n + 3, n = 0–7 -/
  | SEC_TEN_ID_ID
  /-- R428: Pages written (R415) -/
  | SEC_TD_POS_POS
  /-- R428: Pages to write -/
  | SEC_TD_TOT_TOTAL
  /-- R428: Progress in 0.01 %, 0–10,000 -/
  | SEC_TD_PCT_PCT
  /-- R428: Discards at step 4 -/
  | SEC_TD_FLUSHED_COUNT
  /-- R428: Late arrivals (R414) -/
  | SEC_TD_LATE_COUNT
  /-- R428: Nonce bytes 4n to 4n + 3, n = 0–7 -/
  | SEC_ATT_NONCE_NONCE
  /-- R428: R417 -/
  | SEC_ATT_CMD_GEN
  /-- R428: Report being built -/
  | SEC_ATT_STAT_BUSY
  /-- R428: GEN ignored while busy -/
  | SEC_ATT_STAT_CMD_IGN
  /-- R428: 7,731 once a report is held -/
  | SEC_ATT_STAT_LEN
  /-- R428: Reports built -/
  | SEC_ATT_CNT_COUNT
  /-- R428: Command running -/
  | SEC_FW_STAT_BUSY
  /-- R428: Running security version -/
  | SEC_FW_STAT_RUN_SVN
  /-- R428: Command ignored while busy -/
  | SEC_FW_STAT_CMD_IGN
  /-- R428: Status of the last command -/
  | SEC_FW_STAT_STATUS
  /-- R428: Committed image waits in the inactive slot -/
  | SEC_FW_STAT_PEND
  /-- R428: 0 A, 1 B -/
  | SEC_FW_STAT_RUN_SLOT
  /-- R428: Table 18.6; others reserved -/
  | SEC_FW_CMD_OP
  /-- R428: Image length in bytes -/
  | SEC_FW_LEN_LEN
  /-- R428: Chunk length, 1–32,768 -/
  | SEC_FW_CHLEN_LEN
  /-- R428: Bytes programmed -/
  | SEC_FW_POS_POS
  /-- R428: Bytes to program -/
  | SEC_FW_TOT_TOTAL
  /-- R428: Progress in 0.01 %, 0–10,000 -/
  | SEC_FW_PCT_PCT
  /-- R428: R424 -/
  | SEC_FW_MINSVN_MIN
  /-- R448: R442 -/
  | BOOT_STAT_READY
  /-- R448: Recovery boot (R440) -/
  | BOOT_STAT_RECOVERY
  /-- R448: Start-up stopped at step 5 -/
  | BOOT_STAT_HALT
  /-- R448: R439 -/
  | BOOT_STAT_FALLBACK
  /-- R448: R446 -/
  | BOOT_STAT_CAL_DEFAULT
  /-- R448: BOOT_STEP, 1–10; 0 when every step has ended -/
  | BOOT_STAT_STEP
  /-- R448: Table 19.5 code for slot A; 0 when run -/
  | BOOT_STAT_REFUSE_A
  /-- R448: The same for slot B -/
  | BOOT_STAT_REFUSE_B
  /-- R448: R443 -/
  | BOOT_POS_POS
  /-- R448: R443 -/
  | BOOT_TOT_TOTAL
  /-- R448: Progress in 0.01 %, 0–10,000 -/
  | BOOT_PCT_PCT
  /-- R448: SEQ of slot A; 0 without a record -/
  | BOOT_SEQ_A_SEQ
  /-- R448: SEQ of slot B -/
  | BOOT_SEQ_B_SEQ
  /-- R448: LEN of the running image -/
  | BOOT_IMG_LEN_LEN
  /-- R448: End of step s, s = 1–10, R7 format -/
  | BOOT_STEP_T_TIME
  /-- R448: Table 19.8; others reserved -/
  | BOOT_CAL_CMD_OP
  /-- R448: Command running -/
  | BOOT_CAL_STAT_BUSY
  /-- R448: A committed set is in the flash -/
  | BOOT_CAL_STAT_VALID
  /-- R448: Command ignored while busy -/
  | BOOT_CAL_STAT_CMD_IGN
  /-- R448: Status of the last command -/
  | BOOT_CAL_STAT_STATUS
  /-- R448: Set length for BEGIN -/
  | BOOT_CAL_LEN_LEN
  /-- R448: Chunk length, 1–32,768 -/
  | BOOT_CAL_CHLEN_LEN
  /-- R448: Bytes programmed -/
  | BOOT_CAL_POS_POS
  /-- R448: Bytes to program -/
  | BOOT_CAL_TOT_TOTAL
  /-- R448: Progress in 0.01 %, 0–10,000 -/
  | BOOT_CAL_PCT_PCT
  /-- R468: 0 RUN, 1 IDLE, 2 SLEEP, 3 DSLEEP, 4 OFF; 5–7 reserved -/
  | PWR_CMD_TARGET
  /-- R468: Entry or wake in progress -/
  | PWR_STAT_BUSY
  /-- R468: Command ignored while busy -/
  | PWR_STAT_CMD_IGN
  /-- R468: Status of the last command -/
  | PWR_STAT_STATUS
  /-- R468: Table 20.2 -/
  | PWR_STAT_REASON
  /-- R468: 0 RUN, 1 IDLE, 2 SLEEP, 3 DSLEEP -/
  | PWR_STAT_STATE
  /-- R468: Events of the last wake (Table 20.3) -/
  | PWR_WAKE_SRC_SRC
  /-- R468: Timer wake epoch; 0 disables -/
  | PWR_TIMER_EPOCH
  /-- R468: Epochs spent in the last SLEEP or DSLEEP (R454) -/
  | PWR_LOWTIME_EPOCHS
  /-- R468: R467 -/
  | PWR_EP_CTL_OUT_HOLD
  /-- R468: 0 holds EPOCH_OUT low -/
  | PWR_EP_CTL_OUT_EN
  /-- R468: R463 -/
  | PWR_EP_STAT_HOLDOVER
  /-- R468: R462 -/
  | PWR_EP_STAT_LOCKED
  /-- R468: Locked or holdover period, 1/16 SYSCLK cycle units -/
  | PWR_EP_STAT_PERIOD
  /-- R468: Epoch count -/
  | PWR_EPOCH_COUNT
  /-- R468: Present time, R7 format -/
  | PWR_TIME_TIME
  /-- R468: Narrow pulses ignored -/
  | PWR_EP_NARROW_COUNT
  /-- R468: Edges within 2.5 µs ignored -/
  | PWR_EP_FAST_COUNT
  /-- R468: Boundaries made without an edge while locked -/
  | PWR_EP_MISS_COUNT
  /-- R468: Intervals off by more than 1 % -/
  | PWR_EP_HIT_COUNT
  /-- R468: Entries to holdover -/
  | PWR_EP_LOSS_COUNT
  /-- R468: WAKE_N lows ignored -/
  | PWR_WAKE_GLITCH_COUNT
  /-- R468: Edge events lost in the entry window -/
  | PWR_EDGE_LOST_COUNT
  /-- R484: Part number -/
  | GLB_ID_PART_PART
  /-- R484: Stepping letter, ASCII -/
  | GLB_ID_STEP_LETTER
  /-- R484: Stepping digit, 0–9 -/
  | GLB_ID_STEP_DIGIT
  /-- R484: Serial number -/
  | GLB_SERIAL_SERIAL
  /-- R484: BOOT_STAT.READY -/
  | GLB_STAT_READY
  /-- R484: EVT_CONTAIN.ACTIVE -/
  | GLB_STAT_CONTAIN
  /-- R484: PWR_EP_STAT.HOLDOVER -/
  | GLB_STAT_HOLDOVER
  /-- R484: EVT_DEGRADED ≠ 0 -/
  | GLB_STAT_DEGRADED
  /-- R484: A die is held (R482) -/
  | GLB_STAT_PRST
  /-- R484: SEC_FW_STAT.PEND -/
  | GLB_STAT_PEND
  /-- R484: SEC_TEN_STAT.STATE -/
  | GLB_STAT_TENANT
  /-- R484: PWR_STAT.STATE -/
  | GLB_STAT_POWER
  /-- R484: For software -/
  | GLB_SCRATCH_DATA
  /-- R484: BAR2 timeout, 4–256 µs (R475) -/
  | GLB_HOST_CTL_TMO_US
  /-- R484: Writes not performed as sent (R474) -/
  | GLB_HOST_WERR_COUNT
  /-- R484: Pool address of the last such write -/
  | GLB_HOST_WERR_ADDR_ADDR
  /-- R484: Its status -/
  | GLB_HOST_WERR_ST_STATUS
  /-- R484: Reads and AtomicOps not completed successfully -/
  | GLB_HOST_RERR_COUNT
  /-- R484: Pool address bits 47:32 of window w -/
  | GLB_APER_BASE
  /-- R484: 1 enables the window -/
  | GLB_APER_EN
  /-- R484: Table 21.7 -/
  | GLB_IRQ_STAT_CAUSE
  /-- R484: Enables messages per cause -/
  | GLB_IRQ_EN_EN
  /-- R484: Causes that drive ALERT_N -/
  | GLB_ALERT_EN_EN
  /-- R484: Lowest severity, 0–4, that sets EVENT -/
  | GLB_IRQ_CFG_EV_SEV
  /-- R484: Table 21.5 -/
  | GLB_CMD_DONE_DONE
  /-- R484: Die, 0–99 -/
  | GLB_PRST_CMD_DIE
  /-- R484: 0b01 HOLD, 0b10 RELEASE; others reserved -/
  | GLB_PRST_CMD_OP
  /-- R484: Command running -/
  | GLB_PRST_RES_BUSY
  /-- R484: Status code (Table 0.3) -/
  | GLB_PRST_RES_STATUS
  /-- R484: Bit i: die 32n + i held, n = 0–3 -/
  | GLB_PRST_HELD_HELD
  /-- R484: R479 -/
  | GLB_PRST_POS_POS
  /-- R484: R479 -/
  | GLB_PRST_TOT_TOTAL
  /-- R484: Progress in 0.01 %, 0–10,000 -/
  | GLB_PRST_PCT_PCT
  /-- R484: Dynamic address; 0 while none -/
  | GLB_I3C_STAT_DYNADDR
  /-- R494: Enables snapshots -/
  | TEL_CTL_EN
  /-- R494: Period 2^PERIOD_LOG2 epochs, 0–20 -/
  | TEL_CTL_PERIOD_LOG2
  /-- R494: A TEL_SEL write was ignored (R486) -/
  | TEL_STAT_SEL_ERR
  /-- R494: Bank currently readable -/
  | TEL_STAT_BANK
  /-- R494: Snapshots taken, modulo 2^32 -/
  | TEL_SEQ_COUNT
  /-- R494: Time of the last snapshot, R7 format -/
  | TEL_TS_TIME
  /-- R494: Entry in use -/
  | TEL_SEL_VALID
  /-- R494: BAR0 offset, 4-byte aligned -/
  | TEL_SEL_OFFSET
  /-- R494: Value at the last snapshot -/
  | TEL_SNAP_VALUE
  /-- R494: Records written, modulo 2^32 (R491) -/
  | EVT_LOG_IDX_NEXT
  /-- R494: Records committed to flash -/
  | EVT_FLOG_IDX_NEXT
  /-- R494: Records not written to flash -/
  | EVT_FLOG_DROP_COUNT
  /-- R514: A thermal trip occurred (R512) -/
  | PWR_THERM_STAT_TRIP
  /-- R514: Power-limit throttle active (R511) -/
  | PWR_THERM_STAT_LIMIT
  /-- R514: Thermal level 0–2 (R510); 3 reserved -/
  | PWR_THERM_STAT_LEVEL
  /-- R514: Hottest die, numbered as IN_RESET (Table 18.5) -/
  | PWR_THERM_STAT_HOTDIE
  /-- R514: Its temperature in °C -/
  | PWR_THERM_STAT_TMAX
  /-- R514: Level 1 threshold, 60–104 °C -/
  | PWR_THERM_CFG_T1
  /-- R514: Level 2 threshold, T1 + 1 to 110 °C; a write breaking the range is ignored -/
  | PWR_THERM_CFG_T2
  /-- R514: Epochs at level 1 or 2 -/
  | PWR_THR_TEMP_COUNT
  /-- R514: Epochs under the power-limit throttle -/
  | PWR_THR_LIM_COUNT
  deriving DecidableEq, Repr

/-- The register tables, field by field (R11, R12). -/
def Fld.info : Fld → FldInfo
  | .PRT_PFTL_CTL_TMO_US => ⟨0x1000400, 0x1000, 320, 0x0, 1, 24, 16, 0, .rw, 32⟩
  | .PRT_PFTL_CTL_TRAY_TMO_US => ⟨0x1000400, 0x1000, 320, 0x0, 1, 15, 8, 0, .rw, 16⟩
  | .PRT_PFTL_CTL_REBIND => ⟨0x1000400, 0x1000, 320, 0x0, 1, 1, 1, 0, .wo, 0⟩
  | .PRT_PFTL_CTL_DISC_EN => ⟨0x1000400, 0x1000, 320, 0x0, 1, 0, 0, 0, .rw, 1⟩
  | .PRT_PFTL_STAT_ROLE => ⟨0x1000404, 0x1000, 320, 0x0, 1, 19, 17, 0, .ro, 0⟩
  | .PRT_PFTL_STAT_BOUND => ⟨0x1000404, 0x1000, 320, 0x0, 1, 16, 16, 0, .ro, 0⟩
  | .PRT_PFTL_STAT_AGENT_ID => ⟨0x1000404, 0x1000, 320, 0x0, 1, 15, 4, 0, .ro, 0⟩
  | .PRT_PFTL_STAT_STATE => ⟨0x1000404, 0x1000, 320, 0x0, 1, 2, 0, 0, .ro, 0⟩
  | .PRT_CRED_LOC_ADV => ⟨0x1000440, 0x1000, 320, 0x4, 16, 10, 0, 0, .rw, 0⟩
  | .PRT_CRED_REM_ADV => ⟨0x1000480, 0x1000, 320, 0x4, 16, 10, 0, 0, .ro, 0⟩
  | .PRT_CRC_ERR_COUNT => ⟨0x10004C0, 0x1000, 320, 0x0, 1, 31, 0, 0, .rc, 0⟩
  | .PRT_REPLAY_COUNT => ⟨0x10004C4, 0x1000, 320, 0x0, 1, 31, 0, 0, .rc, 0⟩
  | .PRT_REFUSED_COUNT => ⟨0x10004C8, 0x1000, 320, 0x0, 1, 31, 0, 0, .rc, 0⟩
  | .PRT_SRC_MISMATCH_COUNT => ⟨0x10004CC, 0x1000, 320, 0x0, 1, 31, 0, 0, .rc, 0⟩
  | .PRT_TMO_COUNT => ⟨0x10004D0, 0x1000, 320, 0x0, 1, 31, 0, 0, .rc, 0⟩
  | .PRT_LATE_RSP_COUNT => ⟨0x10004D4, 0x1000, 320, 0x0, 1, 31, 0, 0, .rc, 0⟩
  | .PRT_DUP_SEQ_COUNT => ⟨0x10004D8, 0x1000, 320, 0x0, 1, 31, 0, 0, .rc, 0⟩
  | .PRT_SEQ_GAP_COUNT => ⟨0x10004DC, 0x1000, 320, 0x0, 1, 31, 0, 0, .rc, 0⟩
  | .SWC_CTL_MRG_EN => ⟨0x2000000, 0x0, 1, 0x0, 1, 9, 9, 0, .rw, 1⟩
  | .SWC_CTL_COMB_EN => ⟨0x2000000, 0x0, 1, 0x0, 1, 8, 8, 0, .rw, 1⟩
  | .SWC_CTL_SEED => ⟨0x2000000, 0x0, 1, 0x0, 1, 2, 0, 0, .rw, 0⟩
  | .SWC_PLANE_STAT_N_ACTIVE => ⟨0x2000004, 0x0, 1, 0x0, 1, 19, 16, 0, .ro, 7⟩
  | .SWC_PLANE_STAT_SPARE_AVAIL => ⟨0x2000004, 0x0, 1, 0x0, 1, 15, 15, 0, .ro, 1⟩
  | .SWC_PLANE_STAT_FAILED => ⟨0x2000004, 0x0, 1, 0x0, 1, 7, 0, 0, .ro, 0⟩
  | .SWC_PLANE_MAP_SLOT => ⟨0x2000008, 0x0, 1, 0x0, 7, 3, 0, 4, .ro, 0⟩
  | .SWC_CT_DEPTH_DEPTH => ⟨0x200000C, 0x0, 1, 0x0, 1, 15, 0, 0, .rw, 64⟩
  | .SWC_EGR_CAP_CAP => ⟨0x2000010, 0x0, 1, 0x0, 1, 19, 0, 0, .rw, 131072⟩
  | .SWC_COMB_RD_COUNT => ⟨0x2000100, 0x0, 1, 0x0, 1, 31, 0, 0, .rc, 0⟩
  | .SWC_COMB_AT_COUNT => ⟨0x2000104, 0x0, 1, 0x0, 1, 31, 0, 0, .rc, 0⟩
  | .SWC_MRG_ST_COUNT => ⟨0x2000108, 0x0, 1, 0x0, 1, 31, 0, 0, .rc, 0⟩
  | .SWC_LINE_TBL_FULL_COUNT => ⟨0x200010C, 0x0, 1, 0x0, 1, 31, 0, 0, .rc, 0⟩
  | .SWC_LOT_FULL_COUNT => ⟨0x2000110, 0x0, 1, 0x0, 1, 31, 0, 0, .rc, 0⟩
  | .SWC_MCAST_FULL_COUNT => ⟨0x2000114, 0x0, 1, 0x0, 1, 31, 0, 0, .rc, 0⟩
  | .SWC_REORDER_DUP_COUNT => ⟨0x2000118, 0x0, 1, 0x0, 1, 31, 0, 0, .rc, 0⟩
  | .SWC_FLUSHED_COUNT => ⟨0x200011C, 0x0, 1, 0x0, 1, 31, 0, 0, .rc, 0⟩
  | .SWC_FAILOVER_COUNT => ⟨0x2000120, 0x0, 1, 0x0, 1, 31, 0, 0, .rc, 0⟩
  | .SWC_BUF_ING_USED => ⟨0x2000200, 0x8, 36, 0x0, 1, 19, 0, 0, .ro, 0⟩
  | .SWC_BUF_EGR_USED => ⟨0x2000204, 0x8, 36, 0x0, 1, 19, 0, 0, .ro, 0⟩
  | .SWC_FWD_MODE => ⟨0x2001000, 0x4, 320, 0x0, 8, 1, 0, 2, .rw, 0⟩
  | .MIRR_CTL_LOG2SZ => ⟨0xA000000, 0x0, 1, 0x0, 1, 12, 8, 0, .rw, 16⟩
  | .MIRR_CTL_WRAP => ⟨0xA000000, 0x0, 1, 0x0, 1, 1, 1, 0, .rw, 0⟩
  | .MIRR_CTL_EN => ⟨0xA000000, 0x0, 1, 0x0, 1, 0, 0, 0, .rw, 0⟩
  | .MIRR_BASE_BASE => ⟨0xA000008, 0x0, 1, 0x0, 1, 26, 0, 0, .rw, 0⟩
  | .MIRR_WPTR_INDEX => ⟨0xA000010, 0x0, 1, 0x0, 1, 31, 0, 0, .ro, 0⟩
  | .MIRR_RPTR_INDEX => ⟨0xA000014, 0x0, 1, 0x0, 1, 31, 0, 0, .rw, 0⟩
  | .MIRR_RECNO_NEXT => ⟨0xA000018, 0x0, 1, 0x0, 1, 31, 0, 0, .ro, 0⟩
  | .MIRR_DROP_POL_COUNT => ⟨0xA00001C, 0x0, 1, 0x0, 1, 31, 0, 0, .rc, 0⟩
  | .MIRR_DROP_FULL_COUNT => ⟨0xA000020, 0x0, 1, 0x0, 1, 31, 0, 0, .rc, 0⟩
  | .MIRR_DROP_ERR_COUNT => ⟨0xA000024, 0x0, 1, 0x0, 1, 31, 0, 0, .rc, 0⟩
  | .MIRR_STAT_EXTGONE => ⟨0xA000028, 0x0, 1, 0x0, 1, 1, 1, 0, .w1c, 0⟩
  | .MIRR_STAT_BADRING => ⟨0xA000028, 0x0, 1, 0x0, 1, 0, 0, 0, .w1c, 0⟩
  | .MIRR_RULE_CTL_PORT => ⟨0xA000100, 0x20, 16, 0x0, 1, 24, 16, 0, .rw, 0⟩
  | .MIRR_RULE_CTL_ADDR_EN => ⟨0xA000100, 0x20, 16, 0x0, 1, 9, 9, 0, .rw, 0⟩
  | .MIRR_RULE_CTL_ANYPORT => ⟨0xA000100, 0x20, 16, 0x0, 1, 8, 8, 0, .rw, 0⟩
  | .MIRR_RULE_CTL_SAMPLE => ⟨0xA000100, 0x20, 16, 0x0, 1, 7, 4, 0, .rw, 0⟩
  | .MIRR_RULE_CTL_DIR => ⟨0xA000100, 0x20, 16, 0x0, 1, 2, 1, 0, .rw, 3⟩
  | .MIRR_RULE_CTL_EN => ⟨0xA000100, 0x20, 16, 0x0, 1, 0, 0, 0, .rw, 0⟩
  | .MIRR_RULE_MATCH_SC_MASK => ⟨0xA000104, 0x20, 16, 0x0, 1, 23, 16, 0, .rw, 255⟩
  | .MIRR_RULE_MATCH_OPC_MASK => ⟨0xA000104, 0x20, 16, 0x0, 1, 13, 8, 0, .rw, 0⟩
  | .MIRR_RULE_MATCH_OPC_VAL => ⟨0xA000104, 0x20, 16, 0x0, 1, 5, 0, 0, .rw, 0⟩
  | .MIRR_RULE_AGENT_MASK => ⟨0xA000108, 0x20, 16, 0x0, 1, 27, 16, 0, .rw, 0⟩
  | .MIRR_RULE_AGENT_VAL => ⟨0xA000108, 0x20, 16, 0x0, 1, 11, 0, 0, .rw, 0⟩
  | .MIRR_RULE_STAT_STATUS_MASK => ⟨0xA00010C, 0x20, 16, 0x0, 1, 15, 0, 0, .rw, 65535⟩
  | .MIRR_RULE_ALO_ADDR => ⟨0xA000110, 0x20, 16, 0x0, 1, 47, 0, 0, .rw, 0⟩
  | .MIRR_RULE_AHI_ADDR => ⟨0xA000118, 0x20, 16, 0x0, 1, 47, 0, 0, .rw, 0⟩
  | .TM_CTL_APPLY => ⟨0x3000000, 0x0, 1, 0x0, 1, 0, 0, 0, .wo, 0⟩
  | .TM_STAT_SCALED_PTS => ⟨0x3000004, 0x0, 1, 0x0, 1, 24, 16, 0, .ro, 0⟩
  | .TM_STAT_APPLY_ERR => ⟨0x3000004, 0x0, 1, 0x0, 1, 1, 1, 0, .w1c, 0⟩
  | .TM_STAT_APPLY_PEND => ⟨0x3000004, 0x0, 1, 0x0, 1, 0, 0, 0, .ro, 0⟩
  | .TM_POL_MIRR_REFILL => ⟨0x3000010, 0x0, 1, 0x0, 1, 19, 0, 0, .rw, 1048575⟩
  | .TM_POL_MIRR_B_BURST => ⟨0x3000014, 0x0, 1, 0x0, 1, 15, 0, 0, .rw, 64⟩
  | .TM_CLS_CIR_REFILL => ⟨0x3010000, 0x80, 376, 0x10, 8, 19, 0, 0, .rw, 0⟩
  | .TM_CLS_PIR_REFILL => ⟨0x3010004, 0x80, 376, 0x10, 8, 19, 0, 0, .rw, 1048575⟩
  | .TM_CLS_BURST_PBS => ⟨0x3010008, 0x80, 376, 0x10, 8, 31, 16, 0, .rw, 64⟩
  | .TM_CLS_BURST_CBS => ⟨0x3010008, 0x80, 376, 0x10, 8, 15, 0, 0, .rw, 64⟩
  | .TM_CLS_WT_WEIGHT => ⟨0x301000C, 0x80, 376, 0x10, 8, 7, 0, 0, .rw, 1⟩
  | .TM_PT_CAP_CAP => ⟨0x3020000, 0x8, 376, 0x0, 1, 19, 0, 0, .ro, 0⟩
  | .TM_PT_SCALE_SCALE => ⟨0x3020004, 0x8, 376, 0x0, 1, 12, 0, 0, .ro, 4096⟩
  | .TM_SUB_CIR_REFILL => ⟨0x3040000, 0x80, 1024, 0x10, 8, 19, 0, 0, .rw, 0⟩
  | .TM_SUB_PIR_REFILL => ⟨0x3040004, 0x80, 1024, 0x10, 8, 19, 0, 0, .rw, 1048575⟩
  | .TM_SUB_BURST_PBS => ⟨0x3040008, 0x80, 1024, 0x10, 8, 31, 16, 0, .rw, 64⟩
  | .TM_SUB_BURST_CBS => ⟨0x3040008, 0x80, 1024, 0x10, 8, 15, 0, 0, .rw, 64⟩
  | .TM_SUB_WT_WEIGHT => ⟨0x304000C, 0x80, 1024, 0x10, 8, 7, 0, 0, .rw, 1⟩
  | .TM_GUAR_SCALED_SEEN => ⟨0x3060000, 0x4, 1024, 0x0, 1, 1, 1, 0, .w1c, 0⟩
  | .TM_GUAR_SCALED_NOW => ⟨0x3060000, 0x4, 1024, 0x0, 1, 0, 0, 0, .ro, 0⟩
  | .TM_PORT_SUB_SUB => ⟨0x3070000, 0x4, 320, 0x0, 1, 9, 0, 0, .rw, 0⟩
  | .TM_POL_MSG_REFILL => ⟨0x3080000, 0x8, 320, 0x0, 1, 19, 0, 0, .rw, 1048575⟩
  | .TM_POL_MSG_B_BURST => ⟨0x3080004, 0x8, 320, 0x0, 1, 15, 0, 0, .rw, 64⟩
  | .TM_POL_DROP_COUNT => ⟨0x3090000, 0x4, 320, 0x0, 1, 31, 0, 0, .rc, 0⟩
  | .TM_QS_DEPTH_DEPTH => ⟨0x30A0000, 0x40, 376, 0x8, 8, 19, 0, 0, .ro, 0⟩
  | .TM_QS_DELAY_DELAY => ⟨0x30A0004, 0x40, 376, 0x8, 8, 31, 0, 0, .ro, 0⟩
  | .TM_QS_MAX_DEPTH => ⟨0x30C0000, 0x40, 376, 0x8, 8, 19, 0, 0, .rc, 0⟩
  | .TM_QS_TS_TIME => ⟨0x30E0000, 0x8, 376, 0x0, 1, 63, 0, 0, .ro, 0⟩
  | .PRT_CTL_CLR_PARK => ⟨0x1000000, 0x1000, 320, 0x0, 1, 8, 8, 0, .wo, 0⟩
  | .PRT_CTL_RETRAIN => ⟨0x1000000, 0x1000, 320, 0x0, 1, 4, 4, 0, .wo, 0⟩
  | .PRT_CTL_EN => ⟨0x1000000, 0x1000, 320, 0x0, 1, 0, 0, 0, .rw, 1⟩
  | .PRT_CFG_MODE => ⟨0x1000004, 0x1000, 320, 0x0, 1, 25, 24, 0, .ro, 0⟩
  | .PRT_CFG_DYN => ⟨0x1000004, 0x1000, 320, 0x0, 1, 20, 20, 0, .ro, 0⟩
  | .PRT_CFG_DIE => ⟨0x1000004, 0x1000, 320, 0x0, 1, 17, 12, 0, .ro, 0⟩
  | .PRT_CFG_FIRST => ⟨0x1000004, 0x1000, 320, 0x0, 1, 11, 8, 0, .ro, 0⟩
  | .PRT_CFG_WIDTH => ⟨0x1000004, 0x1000, 320, 0x0, 1, 3, 0, 0, .ro, 0⟩
  | .PRT_LINK_STAT_LSTATE => ⟨0x1000008, 0x1000, 320, 0x0, 1, 18, 16, 0, .ro, 0⟩
  | .PRT_LINK_STAT_LANES => ⟨0x1000008, 0x1000, 320, 0x0, 1, 11, 8, 0, .ro, 0⟩
  | .PRT_LINK_STAT_REPAIRED => ⟨0x1000008, 0x1000, 320, 0x0, 1, 4, 4, 0, .ro, 0⟩
  | .PRT_HOLD_REMAIN => ⟨0x100000C, 0x1000, 320, 0x0, 1, 31, 0, 0, .ro, 0⟩
  | .PRT_FLAP_CFG_LIMIT => ⟨0x1000010, 0x1000, 320, 0x0, 1, 27, 24, 0, .rw, 8⟩
  | .PRT_FLAP_CFG_BASE_LOG2 => ⟨0x1000010, 0x1000, 320, 0x0, 1, 19, 16, 0, .rw, 10⟩
  | .PRT_FLAP_CFG_MAX_LOG2 => ⟨0x1000010, 0x1000, 320, 0x0, 1, 12, 8, 0, .rw, 20⟩
  | .PRT_FLAP_CFG_WIN_LOG2 => ⟨0x1000010, 0x1000, 320, 0x0, 1, 4, 0, 0, .rw, 22⟩
  | .PRT_FLAPS_K => ⟨0x1000014, 0x1000, 320, 0x0, 1, 3, 0, 0, .ro, 0⟩
  | .PRT_RETRAIN_CNT_COUNT => ⟨0x1000018, 0x1000, 320, 0x0, 1, 31, 0, 0, .rc, 0⟩
  | .PRT_DOWN_CNT_COUNT => ⟨0x100001C, 0x1000, 320, 0x0, 1, 31, 0, 0, .rc, 0⟩
  | .PRT_FEC_CORR_COUNT => ⟨0x1000020, 0x1000, 320, 0x0, 1, 31, 0, 0, .rc, 0⟩
  | .PRT_FEC_UNCORR_COUNT => ⟨0x1000024, 0x1000, 320, 0x0, 1, 31, 0, 0, .rc, 0⟩
  | .PRT_LANE_MAP_STATE => ⟨0x1000100, 0x1000, 320, 0x10, 8, 29, 28, 0, .ro, 0⟩
  | .PRT_LANE_MAP_PHYS => ⟨0x1000100, 0x1000, 320, 0x10, 8, 25, 16, 0, .ro, 0⟩
  | .PRT_LANE_MAP_LOGICAL => ⟨0x1000100, 0x1000, 320, 0x10, 8, 9, 0, 0, .ro, 0⟩
  | .PRT_LANE_SYM_COUNT => ⟨0x1000104, 0x1000, 320, 0x10, 8, 31, 0, 0, .rc, 0⟩
  | .PRT_UPL_CTL_ETYPE => ⟨0x1000500, 0x1000, 320, 0x0, 1, 31, 16, 0, .rw, 34997⟩
  | .PRT_UPL_CTL_PFC_EN => ⟨0x1000500, 0x1000, 320, 0x0, 1, 7, 0, 0, .rw, 0⟩
  | .PRT_UPL_PFC_WD_WD => ⟨0x1000504, 0x1000, 320, 0x0, 1, 15, 0, 0, .rw, 100⟩
  | .PRT_UPL_RX_DISCARD_COUNT => ⟨0x1000508, 0x1000, 320, 0x0, 1, 31, 0, 0, .rc, 0⟩
  | .PRT_UPL_PFC_STORM_COUNT => ⟨0x100050C, 0x1000, 320, 0x0, 1, 31, 0, 0, .rc, 0⟩
  | .PRT_UPL_PAUSED_PCP => ⟨0x1000510, 0x1000, 320, 0x0, 1, 7, 0, 0, .ro, 0⟩
  | .PRT_DIE_REPAIR_EXT_WIRED => ⟨0x1140000, 0x100, 36, 0x0, 1, 31, 31, 0, .ro, 0⟩
  | .PRT_DIE_REPAIR_EXT_PORT => ⟨0x1140000, 0x100, 36, 0x0, 1, 28, 20, 0, .ro, 0⟩
  | .PRT_DIE_REPAIR_MODE => ⟨0x1140000, 0x100, 36, 0x0, 1, 17, 16, 0, .ro, 0⟩
  | .PRT_DIE_REPAIR_LANE => ⟨0x1140000, 0x100, 36, 0x0, 1, 3, 0, 0, .ro, 0⟩
  | .POOL_CTL_SCRUB_EN => ⟨0x4000000, 0x0, 1, 0x0, 1, 8, 8, 0, .rw, 1⟩
  | .POOL_CTL_HSEED => ⟨0x4000000, 0x0, 1, 0x0, 1, 3, 0, 0, .rw, 0⟩
  | .POOL_STACKS_INSERV => ⟨0x4000004, 0x0, 1, 0x0, 1, 31, 0, 0, .ro, 4294967295⟩
  | .POOL_CAP_GRANULES => ⟨0x4000008, 0x0, 1, 0x0, 1, 25, 0, 0, .ro, 0⟩
  | .POOL_TRAYS_PRESENT => ⟨0x400000C, 0x0, 1, 0x0, 1, 23, 0, 0, .ro, 0⟩
  | .POOL_LEASE_CFG_MAX_LOG2 => ⟨0x4000010, 0x0, 1, 0x0, 1, 20, 16, 0, .rw, 26⟩
  | .POOL_LEASE_CFG_MIN_LOG2 => ⟨0x4000010, 0x0, 1, 0x0, 1, 12, 8, 0, .rw, 14⟩
  | .POOL_LEASE_CFG_DEF_LOG2 => ⟨0x4000010, 0x0, 1, 0x0, 1, 4, 0, 0, .rw, 20⟩
  | .POOL_SUSP_CLR_PAGE => ⟨0x4000018, 0x0, 1, 0x0, 1, 31, 0, 0, .wo, 0⟩
  | .POOL_EXT_ARG0_BASE => ⟨0x4000020, 0x0, 1, 0x0, 1, 26, 0, 0, .rw, 0⟩
  | .POOL_EXT_ARG1_LEN => ⟨0x4000024, 0x0, 1, 0x0, 1, 25, 0, 0, .rw, 0⟩
  | .POOL_EXT_ARG2_ERGC => ⟨0x4000028, 0x0, 1, 0x0, 1, 24, 24, 0, .rw, 0⟩
  | .POOL_EXT_ARG2_PLACE => ⟨0x4000028, 0x0, 1, 0x0, 1, 21, 20, 0, .rw, 0⟩
  | .POOL_EXT_ARG2_PUB => ⟨0x4000028, 0x0, 1, 0x0, 1, 16, 16, 0, .rw, 0⟩
  | .POOL_EXT_ARG2_CG => ⟨0x4000028, 0x0, 1, 0x0, 1, 15, 12, 0, .rw, 0⟩
  | .POOL_EXT_ARG2_COH => ⟨0x4000028, 0x0, 1, 0x0, 1, 8, 8, 0, .rw, 0⟩
  | .POOL_EXT_ARG2_SLICE => ⟨0x4000028, 0x0, 1, 0x0, 1, 4, 0, 0, .rw, 0⟩
  | .POOL_EXT_ARG3_OWNED => ⟨0x400002C, 0x0, 1, 0x0, 1, 31, 31, 0, .rw, 0⟩
  | .POOL_EXT_ARG3_OWNER => ⟨0x400002C, 0x0, 1, 0x0, 1, 11, 0, 0, .rw, 0⟩
  | .POOL_EXT_CMD_INDEX => ⟨0x4000030, 0x0, 1, 0x0, 1, 27, 16, 0, .rw, 0⟩
  | .POOL_EXT_CMD_OP => ⟨0x4000030, 0x0, 1, 0x0, 1, 3, 0, 0, .wo, 0⟩
  | .POOL_EXT_RES_BUSY => ⟨0x4000034, 0x0, 1, 0x0, 1, 31, 31, 0, .ro, 0⟩
  | .POOL_EXT_RES_INDEX => ⟨0x4000034, 0x0, 1, 0x0, 1, 27, 16, 0, .ro, 0⟩
  | .POOL_EXT_RES_STATE => ⟨0x4000034, 0x0, 1, 0x0, 1, 9, 8, 0, .ro, 0⟩
  | .POOL_EXT_RES_STATUS => ⟨0x4000034, 0x0, 1, 0x0, 1, 3, 0, 0, .ro, 0⟩
  | .POOL_EXT_GEN_GEN => ⟨0x4000038, 0x0, 1, 0x0, 1, 31, 0, 0, .ro, 0⟩
  | .POOL_SCRUB_CFG_PERIOD_LOG2 => ⟨0x4000080, 0x0, 1, 0x0, 1, 5, 0, 0, .rw, 33⟩
  | .POOL_SCRUB_POS_POS => ⟨0x4000084, 0x0, 1, 0x0, 1, 31, 0, 0, .ro, 0⟩
  | .POOL_SCRUB_TOT_TOTAL => ⟨0x4000088, 0x0, 1, 0x0, 1, 31, 0, 0, .ro, 33554432⟩
  | .POOL_SCRUB_PCT_PCT => ⟨0x400008C, 0x0, 1, 0x0, 1, 13, 0, 0, .ro, 0⟩
  | .POOL_CE_COUNT => ⟨0x4000100, 0x0, 1, 0x0, 1, 31, 0, 0, .rc, 0⟩
  | .POOL_UE_COUNT => ⟨0x4000104, 0x0, 1, 0x0, 1, 31, 0, 0, .rc, 0⟩
  | .POOL_POISON_RD_COUNT => ⟨0x4000108, 0x0, 1, 0x0, 1, 31, 0, 0, .rc, 0⟩
  | .POOL_CANCEL_COUNT => ⟨0x400010C, 0x0, 1, 0x0, 1, 31, 0, 0, .rc, 0⟩
  | .POOL_REL_HELD_COUNT => ⟨0x4000110, 0x0, 1, 0x0, 1, 31, 0, 0, .rc, 0⟩
  | .POOL_DUP_DISCARD_COUNT => ⟨0x4000114, 0x0, 1, 0x0, 1, 31, 0, 0, .rc, 0⟩
  | .POOL_LEASE_EXP_COUNT => ⟨0x4000118, 0x0, 1, 0x0, 1, 31, 0, 0, .rc, 0⟩
  | .POOL_EXT_RECLAIM_COUNT => ⟨0x400011C, 0x0, 1, 0x0, 1, 31, 0, 0, .rc, 0⟩
  | .POOL_QUOTA_OASIS_MAX => ⟨0x4001000, 0x10, 32, 0x0, 1, 25, 0, 0, .rw, 0⟩
  | .POOL_USE_OASIS_USE => ⟨0x4001004, 0x10, 32, 0x0, 1, 25, 0, 0, .ro, 0⟩
  | .POOL_QUOTA_ERG_MAX => ⟨0x4001008, 0x10, 32, 0x0, 1, 25, 0, 0, .rw, 0⟩
  | .POOL_USE_ERG_USE => ⟨0x400100C, 0x10, 32, 0x0, 1, 25, 0, 0, .ro, 0⟩
  | .TIER_CTL_MIG_MAX => ⟨0x6000000, 0x0, 1, 0x0, 1, 19, 16, 0, .rw, 4⟩
  | .TIER_CTL_DECAY_LOG2 => ⟨0x6000000, 0x0, 1, 0x0, 1, 12, 8, 0, .rw, 10⟩
  | .TIER_CTL_HEAT_EN => ⟨0x6000000, 0x0, 1, 0x0, 1, 0, 0, 0, .rw, 1⟩
  | .TIER_PROMO_HYST => ⟨0x6000004, 0x0, 1, 0x0, 1, 15, 8, 0, .rw, 4⟩
  | .TIER_PROMO_THR => ⟨0x6000004, 0x0, 1, 0x0, 1, 7, 0, 0, .rw, 16⟩
  | .TIER_TRAY_QD_QD => ⟨0x6000008, 0x0, 1, 0x0, 1, 11, 0, 0, .rw, 512⟩
  | .TIER_SCHED_RUN_PHASE => ⟨0x6000010, 0x0, 1, 0x0, 1, 1, 0, 0, .wo, 0⟩
  | .TIER_SCHED_STAT_RUNNING => ⟨0x6000014, 0x0, 1, 0x0, 1, 31, 31, 0, .ro, 0⟩
  | .TIER_SCHED_STAT_PHASE => ⟨0x6000014, 0x0, 1, 0x0, 1, 29, 28, 0, .ro, 0⟩
  | .TIER_SCHED_STAT_ENTRY => ⟨0x6000014, 0x0, 1, 0x0, 1, 11, 0, 0, .ro, 0⟩
  | .TIER_OBJ_ARG0_BASE => ⟨0x6000020, 0x0, 1, 0x0, 1, 31, 0, 0, .rw, 0⟩
  | .TIER_OBJ_ARG1_PAGES => ⟨0x6000024, 0x0, 1, 0x0, 1, 24, 0, 0, .rw, 0⟩
  | .TIER_OBJ_ARG2_LAYER => ⟨0x6000028, 0x0, 1, 0x0, 1, 15, 0, 0, .rw, 65535⟩
  | .TIER_OBJ_CMD_INDEX => ⟨0x600002C, 0x0, 1, 0x0, 1, 25, 16, 0, .rw, 0⟩
  | .TIER_OBJ_CMD_OP => ⟨0x600002C, 0x0, 1, 0x0, 1, 3, 0, 0, .wo, 0⟩
  | .TIER_OBJ_RES_BUSY => ⟨0x6000030, 0x0, 1, 0x0, 1, 31, 31, 0, .ro, 0⟩
  | .TIER_OBJ_RES_INDEX => ⟨0x6000030, 0x0, 1, 0x0, 1, 25, 16, 0, .ro, 0⟩
  | .TIER_OBJ_RES_STATE => ⟨0x6000030, 0x0, 1, 0x0, 1, 9, 8, 0, .ro, 0⟩
  | .TIER_OBJ_RES_STATUS => ⟨0x6000030, 0x0, 1, 0x0, 1, 3, 0, 0, .ro, 0⟩
  | .TIER_PROG_POS_POS => ⟨0x6000040, 0x0, 1, 0x0, 1, 31, 0, 0, .ro, 0⟩
  | .TIER_PROG_TOT_TOTAL => ⟨0x6000044, 0x0, 1, 0x0, 1, 31, 0, 0, .ro, 0⟩
  | .TIER_PROG_PCT_PCT => ⟨0x6000048, 0x0, 1, 0x0, 1, 13, 0, 0, .ro, 0⟩
  | .TIER_PROMO_CNT_COUNT => ⟨0x6000100, 0x0, 1, 0x0, 1, 31, 0, 0, .rc, 0⟩
  | .TIER_DEMO_COUNT => ⟨0x6000104, 0x0, 1, 0x0, 1, 31, 0, 0, .rc, 0⟩
  | .TIER_MIG_ABORT_COUNT => ⟨0x6000108, 0x0, 1, 0x0, 1, 31, 0, 0, .rc, 0⟩
  | .TIER_HEAT_MISS_COUNT => ⟨0x600010C, 0x0, 1, 0x0, 1, 31, 0, 0, .rc, 0⟩
  | .TIER_PROMO_QUOTA_COUNT => ⟨0x6000110, 0x0, 1, 0x0, 1, 31, 0, 0, .rc, 0⟩
  | .TIER_EVICT_CREATE_COUNT => ⟨0x6000114, 0x0, 1, 0x0, 1, 31, 0, 0, .rc, 0⟩
  | .TIER_LOST_DIRTY_COUNT => ⟨0x6000118, 0x0, 1, 0x0, 1, 31, 0, 0, .rc, 0⟩
  | .TIER_ERGC_KEEP_COUNT => ⟨0x600011C, 0x0, 1, 0x0, 1, 31, 0, 0, .rc, 0⟩
  | .TIER_SCHED_SKIP_COUNT => ⟨0x6000120, 0x0, 1, 0x0, 1, 31, 0, 0, .rc, 0⟩
  | .TIER_LATE_MIGRATING_COUNT => ⟨0x6000140, 0x0, 1, 0x0, 1, 31, 0, 0, .rc, 0⟩
  | .TIER_LATE_TRAY_BUSY_COUNT => ⟨0x6000144, 0x0, 1, 0x0, 1, 31, 0, 0, .rc, 0⟩
  | .TIER_LATE_LINK_RETRAIN_COUNT => ⟨0x6000148, 0x0, 1, 0x0, 1, 31, 0, 0, .rc, 0⟩
  | .TIER_LATE_QUOTA_COUNT => ⟨0x600014C, 0x0, 1, 0x0, 1, 31, 0, 0, .rc, 0⟩
  | .TIER_FREE_FRAMES_COUNT => ⟨0x6000400, 0x4, 16, 0x0, 1, 21, 0, 0, .ro, 2097152⟩
  | .TIER_LATE_LOG_IDX_NEXT => ⟨0x6000800, 0x0, 1, 0x0, 1, 31, 0, 0, .ro, 0⟩
  | .TIER_LATE_LOG_PAGE => ⟨0x6000810, 0x10, 64, 0x0, 1, 31, 0, 0, .ro, 0⟩
  | .TIER_LATE_LOG_CAUSE => ⟨0x6000814, 0x10, 64, 0x0, 1, 19, 16, 0, .ro, 0⟩
  | .TIER_LATE_LOG_LAYER => ⟨0x6000814, 0x10, 64, 0x0, 1, 15, 0, 0, .ro, 0⟩
  | .TIER_LATE_LOG_TIME => ⟨0x6000818, 0x10, 64, 0x0, 1, 63, 0, 0, .ro, 0⟩
  | .DIR_CTL_SNP_TMO_US => ⟨0x5000000, 0x0, 1, 0x0, 1, 23, 16, 0, .rw, 16⟩
  | .DIR_CG_ARG_GROUP => ⟨0x5000004, 0x0, 1, 0x0, 1, 27, 24, 0, .rw, 0⟩
  | .DIR_CG_ARG_SLOT => ⟨0x5000004, 0x0, 1, 0x0, 1, 21, 16, 0, .rw, 0⟩
  | .DIR_CG_ARG_ID => ⟨0x5000004, 0x0, 1, 0x0, 1, 11, 0, 0, .rw, 0⟩
  | .DIR_CG_CMD_OP => ⟨0x5000008, 0x0, 1, 0x0, 1, 3, 0, 0, .wo, 0⟩
  | .DIR_CG_RES_BUSY => ⟨0x500000C, 0x0, 1, 0x0, 1, 31, 31, 0, .ro, 0⟩
  | .DIR_CG_RES_GROUP => ⟨0x500000C, 0x0, 1, 0x0, 1, 27, 24, 0, .ro, 0⟩
  | .DIR_CG_RES_STATUS => ⟨0x500000C, 0x0, 1, 0x0, 1, 3, 0, 0, .ro, 0⟩
  | .DIR_CG_TOT_TOTAL => ⟨0x5000010, 0x0, 1, 0x0, 1, 31, 0, 0, .ro, 16777216⟩
  | .DIR_CG_STAT_STATE => ⟨0x5000040, 0x4, 16, 0x0, 1, 31, 30, 0, .ro, 0⟩
  | .DIR_CG_STAT_WALKED => ⟨0x5000040, 0x4, 16, 0x0, 1, 29, 29, 0, .ro, 0⟩
  | .DIR_CG_STAT_CAUSE => ⟨0x5000040, 0x4, 16, 0x0, 1, 27, 24, 0, .ro, 0⟩
  | .DIR_CG_STAT_MEMBERS => ⟨0x5000040, 0x4, 16, 0x0, 1, 22, 16, 0, .ro, 0⟩
  | .DIR_CG_STAT_PCT => ⟨0x5000040, 0x4, 16, 0x0, 1, 13, 0, 0, .ro, 0⟩
  | .DIR_CG_GEN_GEN => ⟨0x5000080, 0x4, 16, 0x0, 1, 31, 0, 0, .ro, 0⟩
  | .DIR_CG_POISONED_COUNT => ⟨0x50000C0, 0x4, 16, 0x0, 1, 31, 0, 0, .ro, 0⟩
  | .DIR_CG_POS_POS => ⟨0x5000100, 0x4, 16, 0x0, 1, 31, 0, 0, .ro, 0⟩
  | .DIR_CG_MEMBER_VALID => ⟨0x5001000, 0x100, 16, 0x4, 64, 15, 15, 0, .rw, 0⟩
  | .DIR_CG_MEMBER_ID => ⟨0x5001000, 0x100, 16, 0x4, 64, 11, 0, 0, .rw, 0⟩
  | .DIR_ENTRIES_USED => ⟨0x5002000, 0x4, 16, 0x0, 1, 24, 0, 0, .ro, 0⟩
  | .DIR_SNOOP_COUNT => ⟨0x5002100, 0x0, 1, 0x0, 1, 31, 0, 0, .rc, 0⟩
  | .DIR_FWD_COUNT => ⟨0x5002104, 0x0, 1, 0x0, 1, 31, 0, 0, .rc, 0⟩
  | .DIR_FWD_RETURN_COUNT => ⟨0x5002108, 0x0, 1, 0x0, 1, 31, 0, 0, .rc, 0⟩
  | .DIR_EVICT_COUNT => ⟨0x500210C, 0x0, 1, 0x0, 1, 31, 0, 0, .rc, 0⟩
  | .DIR_SET_WAIT_COUNT => ⟨0x5002110, 0x0, 1, 0x0, 1, 31, 0, 0, .rc, 0⟩
  | .DIR_WB_STALE_COUNT => ⟨0x5002114, 0x0, 1, 0x0, 1, 31, 0, 0, .rc, 0⟩
  | .DIR_UPG_LOST_COUNT => ⟨0x5002118, 0x0, 1, 0x0, 1, 31, 0, 0, .rc, 0⟩
  | .DIR_PROTO_ERR_COUNT => ⟨0x500211C, 0x0, 1, 0x0, 1, 31, 0, 0, .rc, 0⟩
  | .DIR_SNP_TMO_COUNT => ⟨0x5002120, 0x0, 1, 0x0, 1, 31, 0, 0, .rc, 0⟩
  | .DIR_NONMEMBER_COUNT => ⟨0x5002124, 0x0, 1, 0x0, 1, 31, 0, 0, .rc, 0⟩
  | .DIR_PUB_OK_COUNT => ⟨0x5002128, 0x0, 1, 0x0, 1, 31, 0, 0, .rc, 0⟩
  | .DIR_PUB_STALE_COUNT => ⟨0x500212C, 0x0, 1, 0x0, 1, 31, 0, 0, .rc, 0⟩
  | .DIR_INV_NOTE_COUNT => ⟨0x5002130, 0x0, 1, 0x0, 1, 31, 0, 0, .rc, 0⟩
  | .DIR_PUB_ARG0_HDR => ⟨0x5003000, 0x0, 1, 0x0, 1, 47, 0, 0, .rw, 0⟩
  | .DIR_PUB_ARG1_BODY => ⟨0x5003008, 0x0, 1, 0x0, 1, 47, 0, 0, .rw, 0⟩
  | .DIR_PUB_ARG2_LINES => ⟨0x5003010, 0x0, 1, 0x0, 1, 20, 0, 0, .rw, 0⟩
  | .DIR_PUB_CMD_INDEX => ⟨0x5003014, 0x0, 1, 0x0, 1, 25, 16, 0, .rw, 0⟩
  | .DIR_PUB_CMD_OP => ⟨0x5003014, 0x0, 1, 0x0, 1, 3, 0, 0, .wo, 0⟩
  | .DIR_PUB_RES_BUSY => ⟨0x5003018, 0x0, 1, 0x0, 1, 31, 31, 0, .ro, 0⟩
  | .DIR_PUB_RES_INDEX => ⟨0x5003018, 0x0, 1, 0x0, 1, 25, 16, 0, .ro, 0⟩
  | .DIR_PUB_RES_STATUS => ⟨0x5003018, 0x0, 1, 0x0, 1, 3, 0, 0, .ro, 0⟩
  | .DIR_PUB_VER_VERSION => ⟨0x500301C, 0x0, 1, 0x0, 1, 31, 0, 0, .ro, 0⟩
  | .RGF_DIE_STAT_ROLE => ⟨0x7000000, 0x10000, 36, 0x0, 1, 30, 28, 0, .ro, 0⟩
  | .RGF_DIE_STAT_PARTNER => ⟨0x7000000, 0x10000, 36, 0x0, 1, 21, 16, 0, .ro, 63⟩
  | .RGF_DIE_STAT_NSLOTS => ⟨0x7000000, 0x10000, 36, 0x0, 1, 13, 8, 0, .ro, 0⟩
  | .RGF_DIE_STAT_REPCOL => ⟨0x7000000, 0x10000, 36, 0x0, 1, 3, 0, 0, .ro, 0⟩
  | .RGF_QDEPTH_PARTS => ⟨0x7000004, 0x10000, 36, 0x0, 1, 6, 0, 0, .ro, 0⟩
  | .RGF_QWORK_WORK => ⟨0x7000008, 0x10000, 36, 0x0, 1, 31, 0, 0, .ro, 0⟩
  | .RGF_ACC_USED_ACC => ⟨0x700000C, 0x10000, 36, 0x0, 1, 9, 0, 0, .ro, 0⟩
  | .RGF_PARTS_RUN_COUNT => ⟨0x7000100, 0x10000, 36, 0x0, 1, 31, 0, 0, .rc, 0⟩
  | .RGF_MAC_BUSY_COUNT => ⟨0x7000104, 0x10000, 36, 0x0, 1, 31, 0, 0, .rc, 0⟩
  | .RGF_RED_ELEM_COUNT => ⟨0x7000108, 0x10000, 36, 0x0, 1, 63, 0, 0, .rc, 0⟩
  | .RGF_GATHER_LINES_COUNT => ⟨0x7000110, 0x10000, 36, 0x0, 1, 63, 0, 0, .rc, 0⟩
  | .RGF_ACC_WAIT_COUNT => ⟨0x7000118, 0x10000, 36, 0x0, 1, 31, 0, 0, .rc, 0⟩
  | .RGF_CTL_DEF_TMO => ⟨0x7300000, 0x0, 1, 0x0, 1, 31, 16, 0, .rw, 8192⟩
  | .RGF_CTL_ACC_MAX => ⟨0x7300000, 0x0, 1, 0x0, 1, 14, 8, 0, .rw, 0⟩
  | .RGF_CTL_SPLIT_MIN_LOG2 => ⟨0x7300000, 0x0, 1, 0x0, 1, 7, 4, 0, .rw, 0⟩
  | .RGF_CTL_SPLIT_MAX => ⟨0x7300000, 0x0, 1, 0x0, 1, 3, 1, 0, .rw, 7⟩
  | .RGF_CTL_SPLIT_EN => ⟨0x7300000, 0x0, 1, 0x0, 1, 0, 0, 0, .rw, 1⟩
  | .RGF_SUM_ACTIVE => ⟨0x7300004, 0x0, 1, 0x0, 1, 21, 16, 0, .ro, 32⟩
  | .RGF_SUM_SPARE => ⟨0x7300004, 0x0, 1, 0x0, 1, 13, 8, 0, .ro, 4⟩
  | .RGF_SUM_DOUBLED => ⟨0x7300004, 0x0, 1, 0x0, 1, 5, 0, 0, .ro, 0⟩
  | .RGF_COLL_OPEN_COUNT => ⟨0x7300008, 0x0, 1, 0x0, 1, 10, 0, 0, .ro, 0⟩
  | .RGF_LAUNCHQ_COUNT => ⟨0x730000C, 0x0, 1, 0x0, 1, 12, 0, 0, .ro, 0⟩
  | .RGF_LAUNCH_COUNT => ⟨0x7300010, 0x0, 1, 0x0, 1, 31, 0, 0, .rc, 0⟩
  | .RGF_ABORT_COUNT => ⟨0x7300014, 0x0, 1, 0x0, 1, 31, 0, 0, .rc, 0⟩
  | .RGF_MISMATCH_COUNT => ⟨0x7300018, 0x0, 1, 0x0, 1, 31, 0, 0, .rc, 0⟩
  | .RGF_LATE_JOIN_COUNT => ⟨0x730001C, 0x0, 1, 0x0, 1, 31, 0, 0, .rc, 0⟩
  | .RGF_DUP_CHUNK_COUNT => ⟨0x7300020, 0x0, 1, 0x0, 1, 31, 0, 0, .rc, 0⟩
  | .RGF_CHUNK_RANGE_COUNT => ⟨0x7300024, 0x0, 1, 0x0, 1, 31, 0, 0, .rc, 0⟩
  | .RGF_QUOTA_COUNT => ⟨0x7300028, 0x0, 1, 0x0, 1, 31, 0, 0, .rc, 0⟩
  | .RGF_MAP_DIE => ⟨0x7300100, 0x4, 32, 0x0, 1, 5, 0, 0, .ro, 0⟩
  | .RGF_ARITH_SATFP8 => ⟨0x7300040, 0x0, 1, 0x0, 1, 4, 4, 0, .rw, 0⟩
  | .RGF_ARITH_RMODE => ⟨0x7300040, 0x0, 1, 0x0, 1, 1, 0, 0, .rw, 0⟩
  | .RGF_RES_RETRY_COUNT => ⟨0x7000120, 0x10000, 36, 0x0, 1, 31, 0, 0, .rc, 0⟩
  | .RGF_RES_FAIL_COUNT => ⟨0x7000124, 0x10000, 36, 0x0, 1, 31, 0, 0, .rc, 0⟩
  | .RGF_OVF_COUNT => ⟨0x7000128, 0x10000, 36, 0x0, 1, 31, 0, 0, .rc, 0⟩
  | .RGF_NAN_OUT_COUNT => ⟨0x700012C, 0x10000, 36, 0x0, 1, 31, 0, 0, .rc, 0⟩
  | .EXP_BEHIND_COUNT => ⟨0x700011C, 0x10000, 36, 0x0, 1, 31, 0, 0, .rc, 0⟩
  | .EXP_BLK_CODED_COUNT => ⟨0x7000130, 0x10000, 36, 0x0, 1, 31, 0, 0, .rc, 0⟩
  | .EXP_BLK_RAW_COUNT => ⟨0x7000134, 0x10000, 36, 0x0, 1, 31, 0, 0, .rc, 0⟩
  | .EXP_CHECK_FAIL_COUNT => ⟨0x7000138, 0x10000, 36, 0x0, 1, 31, 0, 0, .rc, 0⟩
  | .EXP_MALFORMED_COUNT => ⟨0x700013C, 0x10000, 36, 0x0, 1, 31, 0, 0, .rc, 0⟩
  | .EXP_COMP_BLK_COUNT => ⟨0x7000140, 0x10000, 36, 0x0, 1, 31, 0, 0, .rc, 0⟩
  | .EXP_COMP_RAW_COUNT => ⟨0x7000144, 0x10000, 36, 0x0, 1, 31, 0, 0, .rc, 0⟩
  | .TIER_ERGC_CHECK_COUNT => ⟨0x6000124, 0x0, 1, 0x0, 1, 31, 0, 0, .rc, 0⟩
  | .CAR_CTL_STOP_ON_ERR => ⟨0x8000000, 0x100, 64, 0x0, 1, 8, 8, 0, .rw, 0⟩
  | .CAR_CTL_ABORT => ⟨0x8000000, 0x100, 64, 0x0, 1, 2, 2, 0, .wo, 0⟩
  | .CAR_CTL_PAUSE => ⟨0x8000000, 0x100, 64, 0x0, 1, 1, 1, 0, .wo, 0⟩
  | .CAR_CTL_GO => ⟨0x8000000, 0x100, 64, 0x0, 1, 0, 0, 0, .wo, 0⟩
  | .CAR_STAT_LASTST => ⟨0x8000004, 0x100, 64, 0x0, 1, 11, 8, 0, .ro, 0⟩
  | .CAR_STAT_CMD_IGN => ⟨0x8000004, 0x100, 64, 0x0, 1, 4, 4, 0, .w1c, 0⟩
  | .CAR_STAT_STATE => ⟨0x8000004, 0x100, 64, 0x0, 1, 2, 0, 0, .ro, 0⟩
  | .CAR_CFG_AGV => ⟨0x8000008, 0x100, 64, 0x0, 1, 31, 31, 0, .rw, 0⟩
  | .CAR_CFG_TMO_US => ⟨0x8000008, 0x100, 64, 0x0, 1, 25, 16, 0, .rw, 256⟩
  | .CAR_CFG_AGENT => ⟨0x8000008, 0x100, 64, 0x0, 1, 11, 0, 0, .rw, 0⟩
  | .CAR_DNEXT_ADDR => ⟨0x8000010, 0x100, 64, 0x0, 1, 47, 0, 0, .rw, 0⟩
  | .CAR_CMDADDR_ADDR => ⟨0x8000018, 0x100, 64, 0x0, 1, 47, 0, 0, .rw, 0⟩
  | .CAR_CUR_ADDR => ⟨0x8000020, 0x100, 64, 0x0, 1, 47, 0, 0, .ro, 0⟩
  | .CAR_OFS_BYTES => ⟨0x8000028, 0x100, 64, 0x0, 1, 31, 0, 0, .ro, 0⟩
  | .CAR_HOLDCNT_BYTES => ⟨0x800002C, 0x100, 64, 0x0, 1, 6, 0, 0, .ro, 0⟩
  | .CAR_POS_POS => ⟨0x8000030, 0x100, 64, 0x0, 1, 31, 0, 0, .ro, 0⟩
  | .CAR_TOT_TOT => ⟨0x8000034, 0x100, 64, 0x0, 1, 31, 0, 0, .ro, 0⟩
  | .CAR_PCT_PCT => ⟨0x8000038, 0x100, 64, 0x0, 1, 13, 0, 0, .ro, 0⟩
  | .CAR_DESC_DONE_COUNT => ⟨0x8000040, 0x100, 64, 0x0, 1, 31, 0, 0, .rc, 0⟩
  | .CAR_DESC_BAD_COUNT => ⟨0x8000044, 0x100, 64, 0x0, 1, 31, 0, 0, .rc, 0⟩
  | .CAR_DESC_ABORT_COUNT => ⟨0x8000048, 0x100, 64, 0x0, 1, 31, 0, 0, .rc, 0⟩
  | .SCN_CTL_AUTO_RET => ⟨0x9000000, 0x0, 1, 0x0, 1, 0, 0, 0, .rw, 1⟩
  | .SCN_INT_NORM => ⟨0x9000004, 0x0, 1, 0x0, 1, 26, 16, 0, .rw, 2000⟩
  | .SCN_INT_OBS => ⟨0x9000004, 0x0, 1, 0x0, 1, 5, 0, 0, .rw, 50⟩
  | .SCN_W0_W_SCAN => ⟨0x9000010, 0x0, 1, 0x0, 1, 31, 16, 0, .rw, 256⟩
  | .SCN_W0_W_RFAIL => ⟨0x9000010, 0x0, 1, 0x0, 1, 15, 0, 0, .rw, 64⟩
  | .SCN_W1_W_PAIRMIS => ⟨0x9000014, 0x0, 1, 0x0, 1, 31, 16, 0, .rw, 256⟩
  | .SCN_W1_W_RETRY => ⟨0x9000014, 0x0, 1, 0x0, 1, 15, 0, 0, .rw, 1⟩
  | .SCN_THR0_RET_THR => ⟨0x9000018, 0x0, 1, 0x0, 1, 31, 16, 0, .rw, 1024⟩
  | .SCN_THR0_OBS_THR => ⟨0x9000018, 0x0, 1, 0x0, 1, 15, 0, 0, .rw, 64⟩
  | .SCN_THR1_EXIT_THR => ⟨0x900001C, 0x0, 1, 0x0, 1, 31, 16, 0, .rw, 16⟩
  | .SCN_THR1_OBS_MIN => ⟨0x900001C, 0x0, 1, 0x0, 1, 15, 0, 0, .rw, 2000⟩
  | .SCN_DECAY_LOG2 => ⟨0x9000020, 0x0, 1, 0x0, 1, 5, 0, 0, .rw, 26⟩
  | .SCN_RET_WIN_EPOCHS => ⟨0x9000028, 0x0, 1, 0x0, 1, 47, 0, 0, .rw, 25920000000⟩
  | .SCN_LAST_RET_TIME => ⟨0x9000030, 0x0, 1, 0x0, 1, 63, 0, 0, .ro, 0⟩
  | .SCN_STAT_LOW => ⟨0x9000038, 0x0, 1, 0x0, 1, 31, 31, 0, .ro, 0⟩
  | .SCN_STAT_INSERV => ⟨0x9000038, 0x0, 1, 0x0, 1, 21, 16, 0, .ro, 32⟩
  | .SCN_STAT_PAIRED => ⟨0x9000038, 0x0, 1, 0x0, 1, 13, 8, 0, .ro, 0⟩
  | .SCN_STAT_OBSERVED => ⟨0x9000038, 0x0, 1, 0x0, 1, 5, 0, 0, .ro, 0⟩
  | .SCN_DIE_CMD_DIE => ⟨0x9000040, 0x0, 1, 0x0, 1, 21, 16, 0, .rw, 0⟩
  | .SCN_DIE_CMD_OP => ⟨0x9000040, 0x0, 1, 0x0, 1, 3, 0, 0, .wo, 0⟩
  | .SCN_DIE_RES_BUSY => ⟨0x9000044, 0x0, 1, 0x0, 1, 31, 31, 0, .ro, 0⟩
  | .SCN_DIE_RES_STATUS => ⟨0x9000044, 0x0, 1, 0x0, 1, 3, 0, 0, .ro, 0⟩
  | .SCN_SCANS_COUNT => ⟨0x9000100, 0x0, 1, 0x0, 1, 31, 0, 0, .rc, 0⟩
  | .SCN_FAILS_COUNT => ⟨0x9000104, 0x0, 1, 0x0, 1, 31, 0, 0, .rc, 0⟩
  | .SCN_ARB_COUNT => ⟨0x9000108, 0x0, 1, 0x0, 1, 31, 0, 0, .rc, 0⟩
  | .SCN_EARLY_COUNT => ⟨0x900010C, 0x0, 1, 0x0, 1, 31, 0, 0, .rc, 0⟩
  | .SCN_SUSP_PAGES_COUNT => ⟨0x9000110, 0x0, 1, 0x0, 1, 31, 0, 0, .rc, 0⟩
  | .SCN_NOTES_COUNT => ⟨0x9000114, 0x0, 1, 0x0, 1, 31, 0, 0, .rc, 0⟩
  | .SCN_TAINTED_OPS_COUNT => ⟨0x9000118, 0x0, 1, 0x0, 1, 31, 0, 0, .rc, 0⟩
  | .SCN_PAIR_MIS_COUNT => ⟨0x900011C, 0x0, 1, 0x0, 1, 31, 0, 0, .rc, 0⟩
  | .SCN_DIE_SCORE_SCORE => ⟨0x9001000, 0x40, 36, 0x0, 1, 15, 0, 0, .ro, 0⟩
  | .SCN_DIE_LAST_TIME => ⟨0x9001008, 0x40, 36, 0x0, 1, 63, 0, 0, .ro, 0⟩
  | .SCN_DIE_NEXT_EPOCH => ⟨0x9001010, 0x40, 36, 0x0, 1, 47, 0, 0, .ro, 0⟩
  | .SCN_DIE_FAILS_COUNT => ⟨0x9001018, 0x40, 36, 0x0, 1, 31, 0, 0, .rc, 0⟩
  | .SCN_DIE_JCNT_ENTRIES => ⟨0x900101C, 0x40, 36, 0x0, 1, 14, 0, 0, .ro, 0⟩
  | .SCN_DIE_JHEAD_NEXT => ⟨0x9001020, 0x40, 36, 0x0, 1, 31, 0, 0, .ro, 0⟩
  | .SCN_MC_STAT_MOVED => ⟨0x9002000, 0x10, 16, 0x0, 1, 31, 31, 0, .ro, 0⟩
  | .SCN_MC_STAT_FAILS => ⟨0x9002000, 0x10, 16, 0x0, 1, 15, 0, 0, .ro, 0⟩
  | .SCN_MC_LAST_TIME => ⟨0x9002008, 0x10, 16, 0x0, 1, 63, 0, 0, .ro, 0⟩
  | .SCN_JSEL_DIE => ⟨0x9003000, 0x0, 1, 0x0, 1, 29, 24, 0, .rw, 0⟩
  | .SCN_JSEL_INDEX => ⟨0x9003000, 0x0, 1, 0x0, 1, 13, 0, 0, .rw, 0⟩
  | .SCN_FLOG_IDX_NEXT => ⟨0x9003FF0, 0x0, 1, 0x0, 1, 31, 0, 0, .ro, 0⟩
  | .EVT_RCV_STAT_BUSY => ⟨0x58000, 0x0, 1, 0x0, 1, 31, 31, 0, .ro, 0⟩
  | .EVT_RCV_STAT_SEV => ⟨0x58000, 0x0, 1, 0x0, 1, 30, 28, 0, .ro, 0⟩
  | .EVT_RCV_STAT_QCNT => ⟨0x58000, 0x0, 1, 0x0, 1, 22, 16, 0, .ro, 0⟩
  | .EVT_RCV_STAT_STEP => ⟨0x58000, 0x0, 1, 0x0, 1, 3, 0, 0, .ro, 0⟩
  | .EVT_RCV_CUR_CLASS => ⟨0x58004, 0x0, 1, 0x0, 1, 23, 16, 0, .ro, 0⟩
  | .EVT_RCV_CUR_UNIT => ⟨0x58004, 0x0, 1, 0x0, 1, 15, 0, 0, .ro, 0⟩
  | .EVT_CONTAIN_ACTIVE => ⟨0x58010, 0x0, 1, 0x0, 1, 31, 31, 0, .ro, 0⟩
  | .EVT_CONTAIN_CAUSE => ⟨0x58010, 0x0, 1, 0x0, 1, 27, 24, 0, .ro, 0⟩
  | .EVT_CONTAIN_CLASS => ⟨0x58010, 0x0, 1, 0x0, 1, 23, 16, 0, .ro, 0⟩
  | .EVT_CONTAIN_CMD_CLEAR => ⟨0x58014, 0x0, 1, 0x0, 1, 1, 1, 0, .wo, 0⟩
  | .EVT_CONTAIN_CMD_ENTER => ⟨0x58014, 0x0, 1, 0x0, 1, 0, 0, 0, .wo, 0⟩
  | .EVT_CONTAIN_RES_STATUS => ⟨0x58018, 0x0, 1, 0x0, 1, 3, 0, 0, .ro, 0⟩
  | .EVT_DEGRADED_STATES => ⟨0x58020, 0x0, 1, 0x0, 1, 9, 0, 0, .ro, 0⟩
  | .EVT_STACK_LOST_STACKS => ⟨0x58024, 0x0, 1, 0x0, 1, 31, 0, 0, .ro, 0⟩
  | .EVT_FRAME_NOSUB_PAGES => ⟨0x58028, 0x0, 1, 0x0, 1, 21, 0, 0, .ro, 0⟩
  | .EVT_FRAMES_RETIRED_COUNT => ⟨0x5802C, 0x0, 1, 0x0, 1, 25, 0, 0, .ro, 0⟩
  | .EVT_RCV_DONE_COUNT => ⟨0x58100, 0x0, 1, 0x0, 1, 31, 0, 0, .rc, 0⟩
  | .EVT_RCV_PREEMPT_COUNT => ⟨0x58104, 0x0, 1, 0x0, 1, 31, 0, 0, .rc, 0⟩
  | .EVT_RCV_MERGED_COUNT => ⟨0x58108, 0x0, 1, 0x0, 1, 31, 0, 0, .rc, 0⟩
  | .EVT_UNIT_RETIRED_COUNT => ⟨0x5810C, 0x0, 1, 0x0, 1, 31, 0, 0, .rc, 0⟩
  | .EVT_STORMS_COUNT => ⟨0x58110, 0x0, 1, 0x0, 1, 31, 0, 0, .rc, 0⟩
  | .EVT_RCV_DROPPED_COUNT => ⟨0x58114, 0x0, 1, 0x0, 1, 31, 0, 0, .rc, 0⟩
  | .EVT_RMAP_CNT_FULL => ⟨0x58200, 0x0, 1, 0x0, 1, 31, 31, 0, .ro, 0⟩
  | .EVT_RMAP_CNT_RECORDS => ⟨0x58200, 0x0, 1, 0x0, 1, 12, 0, 0, .ro, 0⟩
  | .EVT_RMAP_SEL_INDEX => ⟨0x58204, 0x0, 1, 0x0, 1, 11, 0, 0, .rw, 0⟩
  | .EVT_RMAP_CMD_CLR => ⟨0x58208, 0x0, 1, 0x0, 1, 0, 0, 0, .wo, 0⟩
  | .EVT_BUNDLE_CMD_BUILD => ⟨0x58300, 0x0, 1, 0x0, 1, 0, 0, 0, .wo, 0⟩
  | .EVT_BUNDLE_POS_POS => ⟨0x58304, 0x0, 1, 0x0, 1, 31, 0, 0, .ro, 0⟩
  | .EVT_BUNDLE_TOT_TOTAL => ⟨0x58308, 0x0, 1, 0x0, 1, 31, 0, 0, .ro, 0⟩
  | .EVT_BUNDLE_PCT_PCT => ⟨0x5830C, 0x0, 1, 0x0, 1, 13, 0, 0, .ro, 0⟩
  | .EVT_RCV_Q_CLASS => ⟨0x58400, 0x10, 64, 0x0, 1, 31, 24, 0, .ro, 0⟩
  | .EVT_RCV_Q_SEV => ⟨0x58400, 0x10, 64, 0x0, 1, 22, 20, 0, .ro, 0⟩
  | .EVT_RCV_Q_STEP => ⟨0x58400, 0x10, 64, 0x0, 1, 19, 16, 0, .ro, 0⟩
  | .EVT_RCV_Q_UNIT => ⟨0x58400, 0x10, 64, 0x0, 1, 15, 0, 0, .ro, 0⟩
  | .EVT_RCV_Q_COUNT => ⟨0x58404, 0x10, 64, 0x0, 1, 31, 0, 0, .ro, 0⟩
  | .EVT_RCV_Q_TIME => ⟨0x58408, 0x10, 64, 0x0, 1, 63, 0, 0, .ro, 0⟩
  | .POOL_RCMP_CMD_EVICT => ⟨0x4002000, 0x0, 1, 0x0, 1, 1, 1, 0, .wo, 0⟩
  | .POOL_RCMP_CMD_APPLY => ⟨0x4002000, 0x0, 1, 0x0, 1, 0, 0, 0, .wo, 0⟩
  | .POOL_RCMP_STAT_BUSY => ⟨0x4002004, 0x0, 1, 0x0, 1, 31, 31, 0, .ro, 0⟩
  | .POOL_RCMP_STAT_STATUS => ⟨0x4002004, 0x0, 1, 0x0, 1, 3, 0, 0, .ro, 0⟩
  | .POOL_RCMP_POS_POS => ⟨0x4002008, 0x0, 1, 0x0, 1, 31, 0, 0, .ro, 0⟩
  | .POOL_RCMP_TOT_TOTAL => ⟨0x400200C, 0x0, 1, 0x0, 1, 31, 0, 0, .ro, 0⟩
  | .POOL_RCMP_PCT_PCT => ⟨0x4002010, 0x0, 1, 0x0, 1, 13, 0, 0, .ro, 0⟩
  | .POOL_RCMP_CNT_COUNT => ⟨0x4002014, 0x0, 1, 0x0, 1, 31, 0, 0, .rc, 0⟩
  | .POOL_XFER_COMMIT_COUNT => ⟨0x4002018, 0x0, 1, 0x0, 1, 31, 0, 0, .rc, 0⟩
  | .POOL_XFER_STALE_COUNT => ⟨0x400201C, 0x0, 1, 0x0, 1, 31, 0, 0, .rc, 0⟩
  | .POOL_SLC_SLOTS_MASK => ⟨0x4002100, 0x4, 32, 0x0, 1, 31, 0, 0, .rw, 0⟩
  | .POOL_SLC_SLOTS_ACT_MASK => ⟨0x4002200, 0x4, 32, 0x0, 1, 31, 0, 0, .ro, 0⟩
  | .POOL_SLC_STAT_OVER => ⟨0x4002300, 0x4, 32, 0x0, 1, 31, 31, 0, .ro, 0⟩
  | .POOL_SLC_STAT_NPORTS => ⟨0x4002300, 0x4, 32, 0x0, 1, 24, 16, 0, .ro, 0⟩
  | .POOL_SLC_STAT_NSLOTS => ⟨0x4002300, 0x4, 32, 0x0, 1, 5, 0, 0, .ro, 0⟩
  | .POOL_PORT_SLICE_STAGED => ⟨0x4003000, 0x4, 320, 0x0, 1, 20, 16, 0, .rw, 0⟩
  | .POOL_PORT_SLICE_ACTIVE => ⟨0x4003000, 0x4, 320, 0x0, 1, 4, 0, 0, .ro, 0⟩
  | .SEC_LIFE_RETURNS => ⟨0x30000, 0x0, 1, 0x0, 1, 5, 4, 0, .ro, 0⟩
  | .SEC_LIFE_LIFECYCLE => ⟨0x30000, 0x0, 1, 0x0, 1, 1, 0, 0, .ro, 0⟩
  | .SEC_TEN_STAT_BUSY => ⟨0x30004, 0x0, 1, 0x0, 1, 31, 31, 0, .ro, 1⟩
  | .SEC_TEN_STAT_STEP => ⟨0x30004, 0x0, 1, 0x0, 1, 6, 4, 0, .ro, 6⟩
  | .SEC_TEN_STAT_STATE => ⟨0x30004, 0x0, 1, 0x0, 1, 1, 0, 0, .ro, 3⟩
  | .SEC_TEN_EPOCH_EPOCH => ⟨0x30008, 0x0, 1, 0x0, 1, 31, 0, 0, .ro, 0⟩
  | .SEC_TEN_CMD_OP => ⟨0x3000C, 0x0, 1, 0x0, 1, 3, 0, 0, .wo, 0⟩
  | .SEC_TEN_RES_STATUS => ⟨0x30010, 0x0, 1, 0x0, 1, 3, 0, 0, .ro, 0⟩
  | .SEC_TEN_ID_ID => ⟨0x30020, 0x4, 8, 0x0, 1, 31, 0, 0, .rw, 0⟩
  | .SEC_TD_POS_POS => ⟨0x30040, 0x0, 1, 0x0, 1, 31, 0, 0, .ro, 0⟩
  | .SEC_TD_TOT_TOTAL => ⟨0x30044, 0x0, 1, 0x0, 1, 31, 0, 0, .ro, 0⟩
  | .SEC_TD_PCT_PCT => ⟨0x30048, 0x0, 1, 0x0, 1, 13, 0, 0, .ro, 0⟩
  | .SEC_TD_FLUSHED_COUNT => ⟨0x3004C, 0x0, 1, 0x0, 1, 31, 0, 0, .rc, 0⟩
  | .SEC_TD_LATE_COUNT => ⟨0x30050, 0x0, 1, 0x0, 1, 31, 0, 0, .rc, 0⟩
  | .SEC_ATT_NONCE_NONCE => ⟨0x30100, 0x4, 8, 0x0, 1, 31, 0, 0, .rw, 0⟩
  | .SEC_ATT_CMD_GEN => ⟨0x30120, 0x0, 1, 0x0, 1, 0, 0, 0, .wo, 0⟩
  | .SEC_ATT_STAT_BUSY => ⟨0x30124, 0x0, 1, 0x0, 1, 31, 31, 0, .ro, 0⟩
  | .SEC_ATT_STAT_CMD_IGN => ⟨0x30124, 0x0, 1, 0x0, 1, 16, 16, 0, .w1c, 0⟩
  | .SEC_ATT_STAT_LEN => ⟨0x30124, 0x0, 1, 0x0, 1, 12, 0, 0, .ro, 0⟩
  | .SEC_ATT_CNT_COUNT => ⟨0x30128, 0x0, 1, 0x0, 1, 31, 0, 0, .rc, 0⟩
  | .SEC_FW_STAT_BUSY => ⟨0x30200, 0x0, 1, 0x0, 1, 31, 31, 0, .ro, 0⟩
  | .SEC_FW_STAT_RUN_SVN => ⟨0x30200, 0x0, 1, 0x0, 1, 23, 16, 0, .ro, 0⟩
  | .SEC_FW_STAT_CMD_IGN => ⟨0x30200, 0x0, 1, 0x0, 1, 12, 12, 0, .w1c, 0⟩
  | .SEC_FW_STAT_STATUS => ⟨0x30200, 0x0, 1, 0x0, 1, 11, 8, 0, .ro, 0⟩
  | .SEC_FW_STAT_PEND => ⟨0x30200, 0x0, 1, 0x0, 1, 1, 1, 0, .ro, 0⟩
  | .SEC_FW_STAT_RUN_SLOT => ⟨0x30200, 0x0, 1, 0x0, 1, 0, 0, 0, .ro, 0⟩
  | .SEC_FW_CMD_OP => ⟨0x30204, 0x0, 1, 0x0, 1, 3, 0, 0, .wo, 0⟩
  | .SEC_FW_LEN_LEN => ⟨0x30208, 0x0, 1, 0x0, 1, 31, 0, 0, .rw, 0⟩
  | .SEC_FW_CHLEN_LEN => ⟨0x3020C, 0x0, 1, 0x0, 1, 15, 0, 0, .rw, 0⟩
  | .SEC_FW_POS_POS => ⟨0x30210, 0x0, 1, 0x0, 1, 31, 0, 0, .ro, 0⟩
  | .SEC_FW_TOT_TOTAL => ⟨0x30214, 0x0, 1, 0x0, 1, 31, 0, 0, .ro, 0⟩
  | .SEC_FW_PCT_PCT => ⟨0x30218, 0x0, 1, 0x0, 1, 13, 0, 0, .ro, 0⟩
  | .SEC_FW_MINSVN_MIN => ⟨0x3021C, 0x0, 1, 0x0, 1, 5, 0, 0, .ro, 0⟩
  | .BOOT_STAT_READY => ⟨0x10000, 0x0, 1, 0x0, 1, 31, 31, 0, .ro, 0⟩
  | .BOOT_STAT_RECOVERY => ⟨0x10000, 0x0, 1, 0x0, 1, 30, 30, 0, .ro, 0⟩
  | .BOOT_STAT_HALT => ⟨0x10000, 0x0, 1, 0x0, 1, 29, 29, 0, .ro, 0⟩
  | .BOOT_STAT_FALLBACK => ⟨0x10000, 0x0, 1, 0x0, 1, 28, 28, 0, .ro, 0⟩
  | .BOOT_STAT_CAL_DEFAULT => ⟨0x10000, 0x0, 1, 0x0, 1, 27, 27, 0, .ro, 0⟩
  | .BOOT_STAT_STEP => ⟨0x10000, 0x0, 1, 0x0, 1, 19, 16, 0, .ro, 1⟩
  | .BOOT_STAT_REFUSE_A => ⟨0x10000, 0x0, 1, 0x0, 1, 11, 8, 0, .ro, 0⟩
  | .BOOT_STAT_REFUSE_B => ⟨0x10000, 0x0, 1, 0x0, 1, 7, 4, 0, .ro, 0⟩
  | .BOOT_POS_POS => ⟨0x10004, 0x0, 1, 0x0, 1, 31, 0, 0, .ro, 0⟩
  | .BOOT_TOT_TOTAL => ⟨0x10008, 0x0, 1, 0x0, 1, 31, 0, 0, .ro, 0⟩
  | .BOOT_PCT_PCT => ⟨0x1000C, 0x0, 1, 0x0, 1, 13, 0, 0, .ro, 0⟩
  | .BOOT_SEQ_A_SEQ => ⟨0x10010, 0x0, 1, 0x0, 1, 31, 0, 0, .ro, 0⟩
  | .BOOT_SEQ_B_SEQ => ⟨0x10014, 0x0, 1, 0x0, 1, 31, 0, 0, .ro, 0⟩
  | .BOOT_IMG_LEN_LEN => ⟨0x10018, 0x0, 1, 0x0, 1, 31, 0, 0, .ro, 0⟩
  | .BOOT_STEP_T_TIME => ⟨0x10020, 0x8, 11, 0x0, 1, 63, 0, 0, .ro, 0⟩
  | .BOOT_CAL_CMD_OP => ⟨0x10100, 0x0, 1, 0x0, 1, 3, 0, 0, .wo, 0⟩
  | .BOOT_CAL_STAT_BUSY => ⟨0x10104, 0x0, 1, 0x0, 1, 31, 31, 0, .ro, 0⟩
  | .BOOT_CAL_STAT_VALID => ⟨0x10104, 0x0, 1, 0x0, 1, 16, 16, 0, .ro, 0⟩
  | .BOOT_CAL_STAT_CMD_IGN => ⟨0x10104, 0x0, 1, 0x0, 1, 12, 12, 0, .w1c, 0⟩
  | .BOOT_CAL_STAT_STATUS => ⟨0x10104, 0x0, 1, 0x0, 1, 11, 8, 0, .ro, 0⟩
  | .BOOT_CAL_LEN_LEN => ⟨0x10108, 0x0, 1, 0x0, 1, 31, 0, 0, .rw, 0⟩
  | .BOOT_CAL_CHLEN_LEN => ⟨0x1010C, 0x0, 1, 0x0, 1, 15, 0, 0, .rw, 0⟩
  | .BOOT_CAL_POS_POS => ⟨0x10110, 0x0, 1, 0x0, 1, 31, 0, 0, .ro, 0⟩
  | .BOOT_CAL_TOT_TOTAL => ⟨0x10114, 0x0, 1, 0x0, 1, 31, 0, 0, .ro, 0⟩
  | .BOOT_CAL_PCT_PCT => ⟨0x10118, 0x0, 1, 0x0, 1, 13, 0, 0, .ro, 0⟩
  | .PWR_CMD_TARGET => ⟨0x20000, 0x0, 1, 0x0, 1, 2, 0, 0, .wo, 0⟩
  | .PWR_STAT_BUSY => ⟨0x20004, 0x0, 1, 0x0, 1, 31, 31, 0, .ro, 0⟩
  | .PWR_STAT_CMD_IGN => ⟨0x20004, 0x0, 1, 0x0, 1, 16, 16, 0, .w1c, 0⟩
  | .PWR_STAT_STATUS => ⟨0x20004, 0x0, 1, 0x0, 1, 11, 8, 0, .ro, 0⟩
  | .PWR_STAT_REASON => ⟨0x20004, 0x0, 1, 0x0, 1, 7, 4, 0, .ro, 0⟩
  | .PWR_STAT_STATE => ⟨0x20004, 0x0, 1, 0x0, 1, 2, 0, 0, .ro, 0⟩
  | .PWR_WAKE_SRC_SRC => ⟨0x20008, 0x0, 1, 0x0, 1, 4, 0, 0, .ro, 0⟩
  | .PWR_TIMER_EPOCH => ⟨0x20010, 0x0, 1, 0x0, 1, 47, 0, 0, .rw, 0⟩
  | .PWR_LOWTIME_EPOCHS => ⟨0x20018, 0x0, 1, 0x0, 1, 47, 0, 0, .ro, 0⟩
  | .PWR_EP_CTL_OUT_HOLD => ⟨0x20020, 0x0, 1, 0x0, 1, 1, 1, 0, .rw, 1⟩
  | .PWR_EP_CTL_OUT_EN => ⟨0x20020, 0x0, 1, 0x0, 1, 0, 0, 0, .rw, 1⟩
  | .PWR_EP_STAT_HOLDOVER => ⟨0x20024, 0x0, 1, 0x0, 1, 31, 31, 0, .ro, 1⟩
  | .PWR_EP_STAT_LOCKED => ⟨0x20024, 0x0, 1, 0x0, 1, 30, 30, 0, .ro, 0⟩
  | .PWR_EP_STAT_PERIOD => ⟨0x20024, 0x0, 1, 0x0, 1, 19, 0, 0, .ro, 16000⟩
  | .PWR_EPOCH_COUNT => ⟨0x20028, 0x0, 1, 0x0, 1, 47, 0, 0, .ro, 0⟩
  | .PWR_TIME_TIME => ⟨0x20030, 0x0, 1, 0x0, 1, 63, 0, 0, .ro, 0⟩
  | .PWR_EP_NARROW_COUNT => ⟨0x20100, 0x0, 1, 0x0, 1, 31, 0, 0, .rc, 0⟩
  | .PWR_EP_FAST_COUNT => ⟨0x20104, 0x0, 1, 0x0, 1, 31, 0, 0, .rc, 0⟩
  | .PWR_EP_MISS_COUNT => ⟨0x20108, 0x0, 1, 0x0, 1, 31, 0, 0, .rc, 0⟩
  | .PWR_EP_HIT_COUNT => ⟨0x2010C, 0x0, 1, 0x0, 1, 31, 0, 0, .rc, 0⟩
  | .PWR_EP_LOSS_COUNT => ⟨0x20110, 0x0, 1, 0x0, 1, 31, 0, 0, .rc, 0⟩
  | .PWR_WAKE_GLITCH_COUNT => ⟨0x20114, 0x0, 1, 0x0, 1, 31, 0, 0, .rc, 0⟩
  | .PWR_EDGE_LOST_COUNT => ⟨0x20118, 0x0, 1, 0x0, 1, 31, 0, 0, .rc, 0⟩
  | .GLB_ID_PART_PART => ⟨0x0, 0x0, 1, 0x0, 1, 31, 0, 0, .ro, 37376⟩
  | .GLB_ID_STEP_LETTER => ⟨0x4, 0x0, 1, 0x0, 1, 15, 8, 0, .ro, 0⟩
  | .GLB_ID_STEP_DIGIT => ⟨0x4, 0x0, 1, 0x0, 1, 7, 0, 0, .ro, 0⟩
  | .GLB_SERIAL_SERIAL => ⟨0x8, 0x0, 1, 0x0, 1, 63, 0, 0, .ro, 0⟩
  | .GLB_STAT_READY => ⟨0x10, 0x0, 1, 0x0, 1, 31, 31, 0, .ro, 0⟩
  | .GLB_STAT_CONTAIN => ⟨0x10, 0x0, 1, 0x0, 1, 30, 30, 0, .ro, 0⟩
  | .GLB_STAT_HOLDOVER => ⟨0x10, 0x0, 1, 0x0, 1, 29, 29, 0, .ro, 1⟩
  | .GLB_STAT_DEGRADED => ⟨0x10, 0x0, 1, 0x0, 1, 28, 28, 0, .ro, 0⟩
  | .GLB_STAT_PRST => ⟨0x10, 0x0, 1, 0x0, 1, 27, 27, 0, .ro, 0⟩
  | .GLB_STAT_PEND => ⟨0x10, 0x0, 1, 0x0, 1, 26, 26, 0, .ro, 0⟩
  | .GLB_STAT_TENANT => ⟨0x10, 0x0, 1, 0x0, 1, 5, 4, 0, .ro, 3⟩
  | .GLB_STAT_POWER => ⟨0x10, 0x0, 1, 0x0, 1, 2, 0, 0, .ro, 0⟩
  | .GLB_SCRATCH_DATA => ⟨0x14, 0x0, 1, 0x0, 1, 31, 0, 0, .rw, 0⟩
  | .GLB_HOST_CTL_TMO_US => ⟨0x20, 0x0, 1, 0x0, 1, 24, 16, 0, .rw, 32⟩
  | .GLB_HOST_WERR_COUNT => ⟨0x24, 0x0, 1, 0x0, 1, 31, 0, 0, .rc, 0⟩
  | .GLB_HOST_WERR_ADDR_ADDR => ⟨0x28, 0x0, 1, 0x0, 1, 47, 0, 0, .ro, 0⟩
  | .GLB_HOST_WERR_ST_STATUS => ⟨0x30, 0x0, 1, 0x0, 1, 3, 0, 0, .ro, 0⟩
  | .GLB_HOST_RERR_COUNT => ⟨0x34, 0x0, 1, 0x0, 1, 31, 0, 0, .rc, 0⟩
  | .GLB_APER_BASE => ⟨0x100, 0x8, 16, 0x0, 1, 47, 32, 0, .rw, 0⟩
  | .GLB_APER_EN => ⟨0x100, 0x8, 16, 0x0, 1, 0, 0, 0, .rw, 0⟩
  | .GLB_IRQ_STAT_CAUSE => ⟨0x200, 0x0, 1, 0x0, 1, 7, 0, 0, .w1c, 0⟩
  | .GLB_IRQ_EN_EN => ⟨0x204, 0x0, 1, 0x0, 1, 7, 0, 0, .rw, 255⟩
  | .GLB_ALERT_EN_EN => ⟨0x208, 0x0, 1, 0x0, 1, 7, 0, 0, .rw, 2⟩
  | .GLB_IRQ_CFG_EV_SEV => ⟨0x20C, 0x0, 1, 0x0, 1, 2, 0, 0, .rw, 1⟩
  | .GLB_CMD_DONE_DONE => ⟨0x210, 0x0, 1, 0x0, 1, 15, 0, 0, .w1c, 0⟩
  | .GLB_PRST_CMD_DIE => ⟨0x300, 0x0, 1, 0x0, 1, 22, 16, 0, .rw, 0⟩
  | .GLB_PRST_CMD_OP => ⟨0x300, 0x0, 1, 0x0, 1, 1, 0, 0, .wo, 0⟩
  | .GLB_PRST_RES_BUSY => ⟨0x304, 0x0, 1, 0x0, 1, 31, 31, 0, .ro, 0⟩
  | .GLB_PRST_RES_STATUS => ⟨0x304, 0x0, 1, 0x0, 1, 3, 0, 0, .ro, 0⟩
  | .GLB_PRST_HELD_HELD => ⟨0x310, 0x4, 4, 0x0, 1, 31, 0, 0, .ro, 0⟩
  | .GLB_PRST_POS_POS => ⟨0x320, 0x0, 1, 0x0, 1, 31, 0, 0, .ro, 0⟩
  | .GLB_PRST_TOT_TOTAL => ⟨0x324, 0x0, 1, 0x0, 1, 31, 0, 0, .ro, 0⟩
  | .GLB_PRST_PCT_PCT => ⟨0x328, 0x0, 1, 0x0, 1, 13, 0, 0, .ro, 0⟩
  | .GLB_I3C_STAT_DYNADDR => ⟨0x400, 0x0, 1, 0x0, 1, 6, 0, 0, .ro, 0⟩
  | .TEL_CTL_EN => ⟨0x40000, 0x0, 1, 0x0, 1, 31, 31, 0, .rw, 1⟩
  | .TEL_CTL_PERIOD_LOG2 => ⟨0x40000, 0x0, 1, 0x0, 1, 4, 0, 0, .rw, 0⟩
  | .TEL_STAT_SEL_ERR => ⟨0x40004, 0x0, 1, 0x0, 1, 1, 1, 0, .w1c, 0⟩
  | .TEL_STAT_BANK => ⟨0x40004, 0x0, 1, 0x0, 1, 0, 0, 0, .ro, 0⟩
  | .TEL_SEQ_COUNT => ⟨0x40008, 0x0, 1, 0x0, 1, 31, 0, 0, .ro, 0⟩
  | .TEL_TS_TIME => ⟨0x40010, 0x0, 1, 0x0, 1, 63, 0, 0, .ro, 0⟩
  | .TEL_SEL_VALID => ⟨0x40400, 0x4, 256, 0x0, 1, 31, 31, 0, .rw, 0⟩
  | .TEL_SEL_OFFSET => ⟨0x40400, 0x4, 256, 0x0, 1, 27, 0, 0, .rw, 0⟩
  | .TEL_SNAP_VALUE => ⟨0x41000, 0x8, 256, 0x0, 1, 63, 0, 0, .ro, 0⟩
  | .EVT_LOG_IDX_NEXT => ⟨0x50000, 0x0, 1, 0x0, 1, 31, 0, 0, .ro, 0⟩
  | .EVT_FLOG_IDX_NEXT => ⟨0x50004, 0x0, 1, 0x0, 1, 31, 0, 0, .ro, 0⟩
  | .EVT_FLOG_DROP_COUNT => ⟨0x50008, 0x0, 1, 0x0, 1, 31, 0, 0, .rc, 0⟩
  | .PWR_THERM_STAT_TRIP => ⟨0x20200, 0x0, 1, 0x0, 1, 31, 31, 0, .w1c, 0⟩
  | .PWR_THERM_STAT_LIMIT => ⟨0x20200, 0x0, 1, 0x0, 1, 24, 24, 0, .ro, 0⟩
  | .PWR_THERM_STAT_LEVEL => ⟨0x20200, 0x0, 1, 0x0, 1, 17, 16, 0, .ro, 0⟩
  | .PWR_THERM_STAT_HOTDIE => ⟨0x20200, 0x0, 1, 0x0, 1, 14, 8, 0, .ro, 0⟩
  | .PWR_THERM_STAT_TMAX => ⟨0x20200, 0x0, 1, 0x0, 1, 7, 0, 0, .ro, 0⟩
  | .PWR_THERM_CFG_T1 => ⟨0x20204, 0x0, 1, 0x0, 1, 15, 8, 0, .rw, 102⟩
  | .PWR_THERM_CFG_T2 => ⟨0x20204, 0x0, 1, 0x0, 1, 7, 0, 0, .rw, 106⟩
  | .PWR_THR_TEMP_COUNT => ⟨0x20208, 0x0, 1, 0x0, 1, 31, 0, 0, .rc, 0⟩
  | .PWR_THR_LIM_COUNT => ⟨0x2020C, 0x0, 1, 0x0, 1, 31, 0, 0, .rc, 0⟩

/-- The width of a field in bits. -/
def Fld.width (f : Fld) : Nat := f.info.msb - f.info.lsb + 1

/-- Fields of the tables, part 0. -/
def Fld.part0 : List Fld := [.PRT_PFTL_CTL_TMO_US, .PRT_PFTL_CTL_TRAY_TMO_US, .PRT_PFTL_CTL_REBIND, .PRT_PFTL_CTL_DISC_EN, .PRT_PFTL_STAT_ROLE, .PRT_PFTL_STAT_BOUND, .PRT_PFTL_STAT_AGENT_ID, .PRT_PFTL_STAT_STATE, .PRT_CRED_LOC_ADV, .PRT_CRED_REM_ADV, .PRT_CRC_ERR_COUNT, .PRT_REPLAY_COUNT, .PRT_REFUSED_COUNT, .PRT_SRC_MISMATCH_COUNT, .PRT_TMO_COUNT, .PRT_LATE_RSP_COUNT, .PRT_DUP_SEQ_COUNT, .PRT_SEQ_GAP_COUNT, .SWC_CTL_MRG_EN, .SWC_CTL_COMB_EN, .SWC_CTL_SEED, .SWC_PLANE_STAT_N_ACTIVE, .SWC_PLANE_STAT_SPARE_AVAIL, .SWC_PLANE_STAT_FAILED, .SWC_PLANE_MAP_SLOT, .SWC_CT_DEPTH_DEPTH, .SWC_EGR_CAP_CAP, .SWC_COMB_RD_COUNT, .SWC_COMB_AT_COUNT, .SWC_MRG_ST_COUNT, .SWC_LINE_TBL_FULL_COUNT, .SWC_LOT_FULL_COUNT, .SWC_MCAST_FULL_COUNT, .SWC_REORDER_DUP_COUNT, .SWC_FLUSHED_COUNT, .SWC_FAILOVER_COUNT, .SWC_BUF_ING_USED, .SWC_BUF_EGR_USED, .SWC_FWD_MODE, .MIRR_CTL_LOG2SZ]
/-- Fields of the tables, part 1. -/
def Fld.part1 : List Fld := [.MIRR_CTL_WRAP, .MIRR_CTL_EN, .MIRR_BASE_BASE, .MIRR_WPTR_INDEX, .MIRR_RPTR_INDEX, .MIRR_RECNO_NEXT, .MIRR_DROP_POL_COUNT, .MIRR_DROP_FULL_COUNT, .MIRR_DROP_ERR_COUNT, .MIRR_STAT_EXTGONE, .MIRR_STAT_BADRING, .MIRR_RULE_CTL_PORT, .MIRR_RULE_CTL_ADDR_EN, .MIRR_RULE_CTL_ANYPORT, .MIRR_RULE_CTL_SAMPLE, .MIRR_RULE_CTL_DIR, .MIRR_RULE_CTL_EN, .MIRR_RULE_MATCH_SC_MASK, .MIRR_RULE_MATCH_OPC_MASK, .MIRR_RULE_MATCH_OPC_VAL, .MIRR_RULE_AGENT_MASK, .MIRR_RULE_AGENT_VAL, .MIRR_RULE_STAT_STATUS_MASK, .MIRR_RULE_ALO_ADDR, .MIRR_RULE_AHI_ADDR, .TM_CTL_APPLY, .TM_STAT_SCALED_PTS, .TM_STAT_APPLY_ERR, .TM_STAT_APPLY_PEND, .TM_POL_MIRR_REFILL, .TM_POL_MIRR_B_BURST, .TM_CLS_CIR_REFILL, .TM_CLS_PIR_REFILL, .TM_CLS_BURST_PBS, .TM_CLS_BURST_CBS, .TM_CLS_WT_WEIGHT, .TM_PT_CAP_CAP, .TM_PT_SCALE_SCALE, .TM_SUB_CIR_REFILL, .TM_SUB_PIR_REFILL]
/-- Fields of the tables, part 2. -/
def Fld.part2 : List Fld := [.TM_SUB_BURST_PBS, .TM_SUB_BURST_CBS, .TM_SUB_WT_WEIGHT, .TM_GUAR_SCALED_SEEN, .TM_GUAR_SCALED_NOW, .TM_PORT_SUB_SUB, .TM_POL_MSG_REFILL, .TM_POL_MSG_B_BURST, .TM_POL_DROP_COUNT, .TM_QS_DEPTH_DEPTH, .TM_QS_DELAY_DELAY, .TM_QS_MAX_DEPTH, .TM_QS_TS_TIME, .PRT_CTL_CLR_PARK, .PRT_CTL_RETRAIN, .PRT_CTL_EN, .PRT_CFG_MODE, .PRT_CFG_DYN, .PRT_CFG_DIE, .PRT_CFG_FIRST, .PRT_CFG_WIDTH, .PRT_LINK_STAT_LSTATE, .PRT_LINK_STAT_LANES, .PRT_LINK_STAT_REPAIRED, .PRT_HOLD_REMAIN, .PRT_FLAP_CFG_LIMIT, .PRT_FLAP_CFG_BASE_LOG2, .PRT_FLAP_CFG_MAX_LOG2, .PRT_FLAP_CFG_WIN_LOG2, .PRT_FLAPS_K, .PRT_RETRAIN_CNT_COUNT, .PRT_DOWN_CNT_COUNT, .PRT_FEC_CORR_COUNT, .PRT_FEC_UNCORR_COUNT, .PRT_LANE_MAP_STATE, .PRT_LANE_MAP_PHYS, .PRT_LANE_MAP_LOGICAL, .PRT_LANE_SYM_COUNT, .PRT_UPL_CTL_ETYPE, .PRT_UPL_CTL_PFC_EN]
/-- Fields of the tables, part 3. -/
def Fld.part3 : List Fld := [.PRT_UPL_PFC_WD_WD, .PRT_UPL_RX_DISCARD_COUNT, .PRT_UPL_PFC_STORM_COUNT, .PRT_UPL_PAUSED_PCP, .PRT_DIE_REPAIR_EXT_WIRED, .PRT_DIE_REPAIR_EXT_PORT, .PRT_DIE_REPAIR_MODE, .PRT_DIE_REPAIR_LANE, .POOL_CTL_SCRUB_EN, .POOL_CTL_HSEED, .POOL_STACKS_INSERV, .POOL_CAP_GRANULES, .POOL_TRAYS_PRESENT, .POOL_LEASE_CFG_MAX_LOG2, .POOL_LEASE_CFG_MIN_LOG2, .POOL_LEASE_CFG_DEF_LOG2, .POOL_SUSP_CLR_PAGE, .POOL_EXT_ARG0_BASE, .POOL_EXT_ARG1_LEN, .POOL_EXT_ARG2_ERGC, .POOL_EXT_ARG2_PLACE, .POOL_EXT_ARG2_PUB, .POOL_EXT_ARG2_CG, .POOL_EXT_ARG2_COH, .POOL_EXT_ARG2_SLICE, .POOL_EXT_ARG3_OWNED, .POOL_EXT_ARG3_OWNER, .POOL_EXT_CMD_INDEX, .POOL_EXT_CMD_OP, .POOL_EXT_RES_BUSY, .POOL_EXT_RES_INDEX, .POOL_EXT_RES_STATE, .POOL_EXT_RES_STATUS, .POOL_EXT_GEN_GEN, .POOL_SCRUB_CFG_PERIOD_LOG2, .POOL_SCRUB_POS_POS, .POOL_SCRUB_TOT_TOTAL, .POOL_SCRUB_PCT_PCT, .POOL_CE_COUNT, .POOL_UE_COUNT]
/-- Fields of the tables, part 4. -/
def Fld.part4 : List Fld := [.POOL_POISON_RD_COUNT, .POOL_CANCEL_COUNT, .POOL_REL_HELD_COUNT, .POOL_DUP_DISCARD_COUNT, .POOL_LEASE_EXP_COUNT, .POOL_EXT_RECLAIM_COUNT, .POOL_QUOTA_OASIS_MAX, .POOL_USE_OASIS_USE, .POOL_QUOTA_ERG_MAX, .POOL_USE_ERG_USE, .TIER_CTL_MIG_MAX, .TIER_CTL_DECAY_LOG2, .TIER_CTL_HEAT_EN, .TIER_PROMO_HYST, .TIER_PROMO_THR, .TIER_TRAY_QD_QD, .TIER_SCHED_RUN_PHASE, .TIER_SCHED_STAT_RUNNING, .TIER_SCHED_STAT_PHASE, .TIER_SCHED_STAT_ENTRY, .TIER_OBJ_ARG0_BASE, .TIER_OBJ_ARG1_PAGES, .TIER_OBJ_ARG2_LAYER, .TIER_OBJ_CMD_INDEX, .TIER_OBJ_CMD_OP, .TIER_OBJ_RES_BUSY, .TIER_OBJ_RES_INDEX, .TIER_OBJ_RES_STATE, .TIER_OBJ_RES_STATUS, .TIER_PROG_POS_POS, .TIER_PROG_TOT_TOTAL, .TIER_PROG_PCT_PCT, .TIER_PROMO_CNT_COUNT, .TIER_DEMO_COUNT, .TIER_MIG_ABORT_COUNT, .TIER_HEAT_MISS_COUNT, .TIER_PROMO_QUOTA_COUNT, .TIER_EVICT_CREATE_COUNT, .TIER_LOST_DIRTY_COUNT, .TIER_ERGC_KEEP_COUNT]
/-- Fields of the tables, part 5. -/
def Fld.part5 : List Fld := [.TIER_SCHED_SKIP_COUNT, .TIER_LATE_MIGRATING_COUNT, .TIER_LATE_TRAY_BUSY_COUNT, .TIER_LATE_LINK_RETRAIN_COUNT, .TIER_LATE_QUOTA_COUNT, .TIER_FREE_FRAMES_COUNT, .TIER_LATE_LOG_IDX_NEXT, .TIER_LATE_LOG_PAGE, .TIER_LATE_LOG_CAUSE, .TIER_LATE_LOG_LAYER, .TIER_LATE_LOG_TIME, .DIR_CTL_SNP_TMO_US, .DIR_CG_ARG_GROUP, .DIR_CG_ARG_SLOT, .DIR_CG_ARG_ID, .DIR_CG_CMD_OP, .DIR_CG_RES_BUSY, .DIR_CG_RES_GROUP, .DIR_CG_RES_STATUS, .DIR_CG_TOT_TOTAL, .DIR_CG_STAT_STATE, .DIR_CG_STAT_WALKED, .DIR_CG_STAT_CAUSE, .DIR_CG_STAT_MEMBERS, .DIR_CG_STAT_PCT, .DIR_CG_GEN_GEN, .DIR_CG_POISONED_COUNT, .DIR_CG_POS_POS, .DIR_CG_MEMBER_VALID, .DIR_CG_MEMBER_ID, .DIR_ENTRIES_USED, .DIR_SNOOP_COUNT, .DIR_FWD_COUNT, .DIR_FWD_RETURN_COUNT, .DIR_EVICT_COUNT, .DIR_SET_WAIT_COUNT, .DIR_WB_STALE_COUNT, .DIR_UPG_LOST_COUNT, .DIR_PROTO_ERR_COUNT, .DIR_SNP_TMO_COUNT]
/-- Fields of the tables, part 6. -/
def Fld.part6 : List Fld := [.DIR_NONMEMBER_COUNT, .DIR_PUB_OK_COUNT, .DIR_PUB_STALE_COUNT, .DIR_INV_NOTE_COUNT, .DIR_PUB_ARG0_HDR, .DIR_PUB_ARG1_BODY, .DIR_PUB_ARG2_LINES, .DIR_PUB_CMD_INDEX, .DIR_PUB_CMD_OP, .DIR_PUB_RES_BUSY, .DIR_PUB_RES_INDEX, .DIR_PUB_RES_STATUS, .DIR_PUB_VER_VERSION, .RGF_DIE_STAT_ROLE, .RGF_DIE_STAT_PARTNER, .RGF_DIE_STAT_NSLOTS, .RGF_DIE_STAT_REPCOL, .RGF_QDEPTH_PARTS, .RGF_QWORK_WORK, .RGF_ACC_USED_ACC, .RGF_PARTS_RUN_COUNT, .RGF_MAC_BUSY_COUNT, .RGF_RED_ELEM_COUNT, .RGF_GATHER_LINES_COUNT, .RGF_ACC_WAIT_COUNT, .RGF_CTL_DEF_TMO, .RGF_CTL_ACC_MAX, .RGF_CTL_SPLIT_MIN_LOG2, .RGF_CTL_SPLIT_MAX, .RGF_CTL_SPLIT_EN, .RGF_SUM_ACTIVE, .RGF_SUM_SPARE, .RGF_SUM_DOUBLED, .RGF_COLL_OPEN_COUNT, .RGF_LAUNCHQ_COUNT, .RGF_LAUNCH_COUNT, .RGF_ABORT_COUNT, .RGF_MISMATCH_COUNT, .RGF_LATE_JOIN_COUNT, .RGF_DUP_CHUNK_COUNT]
/-- Fields of the tables, part 7. -/
def Fld.part7 : List Fld := [.RGF_CHUNK_RANGE_COUNT, .RGF_QUOTA_COUNT, .RGF_MAP_DIE, .RGF_ARITH_SATFP8, .RGF_ARITH_RMODE, .RGF_RES_RETRY_COUNT, .RGF_RES_FAIL_COUNT, .RGF_OVF_COUNT, .RGF_NAN_OUT_COUNT, .EXP_BEHIND_COUNT, .EXP_BLK_CODED_COUNT, .EXP_BLK_RAW_COUNT, .EXP_CHECK_FAIL_COUNT, .EXP_MALFORMED_COUNT, .EXP_COMP_BLK_COUNT, .EXP_COMP_RAW_COUNT, .TIER_ERGC_CHECK_COUNT, .CAR_CTL_STOP_ON_ERR, .CAR_CTL_ABORT, .CAR_CTL_PAUSE, .CAR_CTL_GO, .CAR_STAT_LASTST, .CAR_STAT_CMD_IGN, .CAR_STAT_STATE, .CAR_CFG_AGV, .CAR_CFG_TMO_US, .CAR_CFG_AGENT, .CAR_DNEXT_ADDR, .CAR_CMDADDR_ADDR, .CAR_CUR_ADDR, .CAR_OFS_BYTES, .CAR_HOLDCNT_BYTES, .CAR_POS_POS, .CAR_TOT_TOT, .CAR_PCT_PCT, .CAR_DESC_DONE_COUNT, .CAR_DESC_BAD_COUNT, .CAR_DESC_ABORT_COUNT, .SCN_CTL_AUTO_RET, .SCN_INT_NORM]
/-- Fields of the tables, part 8. -/
def Fld.part8 : List Fld := [.SCN_INT_OBS, .SCN_W0_W_SCAN, .SCN_W0_W_RFAIL, .SCN_W1_W_PAIRMIS, .SCN_W1_W_RETRY, .SCN_THR0_RET_THR, .SCN_THR0_OBS_THR, .SCN_THR1_EXIT_THR, .SCN_THR1_OBS_MIN, .SCN_DECAY_LOG2, .SCN_RET_WIN_EPOCHS, .SCN_LAST_RET_TIME, .SCN_STAT_LOW, .SCN_STAT_INSERV, .SCN_STAT_PAIRED, .SCN_STAT_OBSERVED, .SCN_DIE_CMD_DIE, .SCN_DIE_CMD_OP, .SCN_DIE_RES_BUSY, .SCN_DIE_RES_STATUS, .SCN_SCANS_COUNT, .SCN_FAILS_COUNT, .SCN_ARB_COUNT, .SCN_EARLY_COUNT, .SCN_SUSP_PAGES_COUNT, .SCN_NOTES_COUNT, .SCN_TAINTED_OPS_COUNT, .SCN_PAIR_MIS_COUNT, .SCN_DIE_SCORE_SCORE, .SCN_DIE_LAST_TIME, .SCN_DIE_NEXT_EPOCH, .SCN_DIE_FAILS_COUNT, .SCN_DIE_JCNT_ENTRIES, .SCN_DIE_JHEAD_NEXT, .SCN_MC_STAT_MOVED, .SCN_MC_STAT_FAILS, .SCN_MC_LAST_TIME, .SCN_JSEL_DIE, .SCN_JSEL_INDEX, .SCN_FLOG_IDX_NEXT]
/-- Fields of the tables, part 9. -/
def Fld.part9 : List Fld := [.EVT_RCV_STAT_BUSY, .EVT_RCV_STAT_SEV, .EVT_RCV_STAT_QCNT, .EVT_RCV_STAT_STEP, .EVT_RCV_CUR_CLASS, .EVT_RCV_CUR_UNIT, .EVT_CONTAIN_ACTIVE, .EVT_CONTAIN_CAUSE, .EVT_CONTAIN_CLASS, .EVT_CONTAIN_CMD_CLEAR, .EVT_CONTAIN_CMD_ENTER, .EVT_CONTAIN_RES_STATUS, .EVT_DEGRADED_STATES, .EVT_STACK_LOST_STACKS, .EVT_FRAME_NOSUB_PAGES, .EVT_FRAMES_RETIRED_COUNT, .EVT_RCV_DONE_COUNT, .EVT_RCV_PREEMPT_COUNT, .EVT_RCV_MERGED_COUNT, .EVT_UNIT_RETIRED_COUNT, .EVT_STORMS_COUNT, .EVT_RCV_DROPPED_COUNT, .EVT_RMAP_CNT_FULL, .EVT_RMAP_CNT_RECORDS, .EVT_RMAP_SEL_INDEX, .EVT_RMAP_CMD_CLR, .EVT_BUNDLE_CMD_BUILD, .EVT_BUNDLE_POS_POS, .EVT_BUNDLE_TOT_TOTAL, .EVT_BUNDLE_PCT_PCT, .EVT_RCV_Q_CLASS, .EVT_RCV_Q_SEV, .EVT_RCV_Q_STEP, .EVT_RCV_Q_UNIT, .EVT_RCV_Q_COUNT, .EVT_RCV_Q_TIME, .POOL_RCMP_CMD_EVICT, .POOL_RCMP_CMD_APPLY, .POOL_RCMP_STAT_BUSY, .POOL_RCMP_STAT_STATUS]
/-- Fields of the tables, part 10. -/
def Fld.part10 : List Fld := [.POOL_RCMP_POS_POS, .POOL_RCMP_TOT_TOTAL, .POOL_RCMP_PCT_PCT, .POOL_RCMP_CNT_COUNT, .POOL_XFER_COMMIT_COUNT, .POOL_XFER_STALE_COUNT, .POOL_SLC_SLOTS_MASK, .POOL_SLC_SLOTS_ACT_MASK, .POOL_SLC_STAT_OVER, .POOL_SLC_STAT_NPORTS, .POOL_SLC_STAT_NSLOTS, .POOL_PORT_SLICE_STAGED, .POOL_PORT_SLICE_ACTIVE, .SEC_LIFE_RETURNS, .SEC_LIFE_LIFECYCLE, .SEC_TEN_STAT_BUSY, .SEC_TEN_STAT_STEP, .SEC_TEN_STAT_STATE, .SEC_TEN_EPOCH_EPOCH, .SEC_TEN_CMD_OP, .SEC_TEN_RES_STATUS, .SEC_TEN_ID_ID, .SEC_TD_POS_POS, .SEC_TD_TOT_TOTAL, .SEC_TD_PCT_PCT, .SEC_TD_FLUSHED_COUNT, .SEC_TD_LATE_COUNT, .SEC_ATT_NONCE_NONCE, .SEC_ATT_CMD_GEN, .SEC_ATT_STAT_BUSY, .SEC_ATT_STAT_CMD_IGN, .SEC_ATT_STAT_LEN, .SEC_ATT_CNT_COUNT, .SEC_FW_STAT_BUSY, .SEC_FW_STAT_RUN_SVN, .SEC_FW_STAT_CMD_IGN, .SEC_FW_STAT_STATUS, .SEC_FW_STAT_PEND, .SEC_FW_STAT_RUN_SLOT, .SEC_FW_CMD_OP]
/-- Fields of the tables, part 11. -/
def Fld.part11 : List Fld := [.SEC_FW_LEN_LEN, .SEC_FW_CHLEN_LEN, .SEC_FW_POS_POS, .SEC_FW_TOT_TOTAL, .SEC_FW_PCT_PCT, .SEC_FW_MINSVN_MIN, .BOOT_STAT_READY, .BOOT_STAT_RECOVERY, .BOOT_STAT_HALT, .BOOT_STAT_FALLBACK, .BOOT_STAT_CAL_DEFAULT, .BOOT_STAT_STEP, .BOOT_STAT_REFUSE_A, .BOOT_STAT_REFUSE_B, .BOOT_POS_POS, .BOOT_TOT_TOTAL, .BOOT_PCT_PCT, .BOOT_SEQ_A_SEQ, .BOOT_SEQ_B_SEQ, .BOOT_IMG_LEN_LEN, .BOOT_STEP_T_TIME, .BOOT_CAL_CMD_OP, .BOOT_CAL_STAT_BUSY, .BOOT_CAL_STAT_VALID, .BOOT_CAL_STAT_CMD_IGN, .BOOT_CAL_STAT_STATUS, .BOOT_CAL_LEN_LEN, .BOOT_CAL_CHLEN_LEN, .BOOT_CAL_POS_POS, .BOOT_CAL_TOT_TOTAL, .BOOT_CAL_PCT_PCT, .PWR_CMD_TARGET, .PWR_STAT_BUSY, .PWR_STAT_CMD_IGN, .PWR_STAT_STATUS, .PWR_STAT_REASON, .PWR_STAT_STATE, .PWR_WAKE_SRC_SRC, .PWR_TIMER_EPOCH, .PWR_LOWTIME_EPOCHS]
/-- Fields of the tables, part 12. -/
def Fld.part12 : List Fld := [.PWR_EP_CTL_OUT_HOLD, .PWR_EP_CTL_OUT_EN, .PWR_EP_STAT_HOLDOVER, .PWR_EP_STAT_LOCKED, .PWR_EP_STAT_PERIOD, .PWR_EPOCH_COUNT, .PWR_TIME_TIME, .PWR_EP_NARROW_COUNT, .PWR_EP_FAST_COUNT, .PWR_EP_MISS_COUNT, .PWR_EP_HIT_COUNT, .PWR_EP_LOSS_COUNT, .PWR_WAKE_GLITCH_COUNT, .PWR_EDGE_LOST_COUNT, .GLB_ID_PART_PART, .GLB_ID_STEP_LETTER, .GLB_ID_STEP_DIGIT, .GLB_SERIAL_SERIAL, .GLB_STAT_READY, .GLB_STAT_CONTAIN, .GLB_STAT_HOLDOVER, .GLB_STAT_DEGRADED, .GLB_STAT_PRST, .GLB_STAT_PEND, .GLB_STAT_TENANT, .GLB_STAT_POWER, .GLB_SCRATCH_DATA, .GLB_HOST_CTL_TMO_US, .GLB_HOST_WERR_COUNT, .GLB_HOST_WERR_ADDR_ADDR, .GLB_HOST_WERR_ST_STATUS, .GLB_HOST_RERR_COUNT, .GLB_APER_BASE, .GLB_APER_EN, .GLB_IRQ_STAT_CAUSE, .GLB_IRQ_EN_EN, .GLB_ALERT_EN_EN, .GLB_IRQ_CFG_EV_SEV, .GLB_CMD_DONE_DONE, .GLB_PRST_CMD_DIE]
/-- Fields of the tables, part 13. -/
def Fld.part13 : List Fld := [.GLB_PRST_CMD_OP, .GLB_PRST_RES_BUSY, .GLB_PRST_RES_STATUS, .GLB_PRST_HELD_HELD, .GLB_PRST_POS_POS, .GLB_PRST_TOT_TOTAL, .GLB_PRST_PCT_PCT, .GLB_I3C_STAT_DYNADDR, .TEL_CTL_EN, .TEL_CTL_PERIOD_LOG2, .TEL_STAT_SEL_ERR, .TEL_STAT_BANK, .TEL_SEQ_COUNT, .TEL_TS_TIME, .TEL_SEL_VALID, .TEL_SEL_OFFSET, .TEL_SNAP_VALUE, .EVT_LOG_IDX_NEXT, .EVT_FLOG_IDX_NEXT, .EVT_FLOG_DROP_COUNT, .PWR_THERM_STAT_TRIP, .PWR_THERM_STAT_LIMIT, .PWR_THERM_STAT_LEVEL, .PWR_THERM_STAT_HOTDIE, .PWR_THERM_STAT_TMAX, .PWR_THERM_CFG_T1, .PWR_THERM_CFG_T2, .PWR_THR_TEMP_COUNT, .PWR_THR_LIM_COUNT]

/-- Every register field. -/
def Fld.all : List Fld := Fld.part0 ++ Fld.part1 ++ Fld.part2 ++ Fld.part3 ++ Fld.part4 ++ Fld.part5 ++ Fld.part6 ++ Fld.part7 ++ Fld.part8 ++ Fld.part9 ++ Fld.part10 ++ Fld.part11 ++ Fld.part12 ++ Fld.part13

/-- The value a field holds after RESET_N (R12): the table's, with the tables' indexed values for
the plane map (0x0654_3210), the placement slots (`s`), the capacity of the die points (R140: seven planes at the
nominal epoch; no lane is in service yet) and the roles of a device with an empty
repair map (dies 0 to 31 ACTIVE, one slot each; 32 to 35 SPARE; R261). -/
def Fld.resetVal (f : Fld) (i j : Nat) : Nat :=
  match f with
  | .SWC_PLANE_MAP_SLOT => j
  | .RGF_MAP_DIE => i
  | .TM_PT_CAP_CAP => if i < 320 then 0 else 526400
  | .RGF_DIE_STAT_ROLE => if i < 32 then 1 else 0
  | .RGF_DIE_STAT_NSLOTS => if i < 32 then 1 else 0
  | f => f.info.reset

/-- The key of a field's instance in `State.regs`. -/
def Fld.key (f : Fld) (i j : Nat) : Nat := Nat.pair f.ctorIdx (Nat.pair i j)

end Sys2Proof.Machine
end

