-- ==== Sys2Proof/Machine/Table.lean ====
section
/-! DEFINITION. Sparse tables: what the device keeps per number (a port, an agent, a page, an address)
as a list of pairs with keys strictly rising, and no entry that equals what an unlisted key reads as.
Memory is such a table of bytes. -/

namespace Sys2Proof.Machine

/-- The value listed under `k`, if any. -/
def tfind {α : Type} : List (Nat × α) → Nat → Option α
  | [], _ => none
  | e :: t, k => if e.1 = k then some e.2 else tfind t k

/-- List `v` under `k`, in key order. -/
def tins {α : Type} : List (Nat × α) → Nat → α → List (Nat × α)
  | [], k, v => [(k, v)]
  | e :: t, k, v =>
    if k < e.1 then (k, v) :: e :: t
    else if k = e.1 then (k, v) :: t
    else e :: tins t k v

/-- Remove the entry of `k`. -/
def tdel {α : Type} (t : List (Nat × α)) (k : Nat) : List (Nat × α) :=
  t.filter (fun e => decide (e.1 ≠ k))

/-- What `k` reads as, `d` where it is not listed. -/
def tget {α : Type} (d : α) (t : List (Nat × α)) (k : Nat) : α := (tfind t k).getD d

/-- Make `k` read as `v`: the entry goes where `v` is what an unlisted key reads as. -/
def tset {α : Type} [DecidableEq α] (d : α) (t : List (Nat × α)) (k : Nat) (v : α) :
    List (Nat × α) :=
  if v = d then tdel t k else tins t k v

/-- Remove every entry with `lo ≤ key < hi`. -/
def tclear {α : Type} (t : List (Nat × α)) (lo hi : Nat) : List (Nat × α) :=
  t.filter (fun e => decide (e.1 < lo ∨ hi ≤ e.1))

/-- Change the entry of `k` where there is one. -/
def tmod {α : Type} (t : List (Nat × α)) (k : Nat) (f : α → α) : List (Nat × α) :=
  match tfind t k with
  | some v => tins t k (f v)
  | none => t

/-- Keys strictly rising. -/
def tsorted {α : Type} (t : List (Nat × α)) : Prop := t.Pairwise (fun a b => a.1 < b.1)

/-- The canonical form of a table whose unlisted keys read as `d`. -/
abbrev twf {α : Type} (d : α) (t : List (Nat × α)) : Prop :=
  t.Pairwise (fun a b => a.1 < b.1) ∧ ∀ e ∈ t, e.2 ≠ d

end Sys2Proof.Machine
end

