-- ==== Sys2Proof/Machine/Ops.lean ====
section
/-! DEFINITION. The named operations every meaning is written over: register fields, free values,
time, events, interrupts, the boundary output, and bytes of the pool. -/

namespace Sys2Proof.Machine

/-! ### Bits and bytes (R8, R9) -/

/-- Bits `lo + n - 1` down to `lo` of `x`. -/
def bits (x lo n : Nat) : Nat := (x >>> lo) % 2 ^ n

/-- Bit `i` of `x`. -/
def bit (x i : Nat) : Bool := x.testBit i

/-- `x` with bit `i` set to `b`. -/
def setBit (x i : Nat) (b : Bool) : Nat :=
  if x.testBit i = b then x else if b then x + 2 ^ i else x - 2 ^ i

/-- 1 for true. -/
def b2n (b : Bool) : Nat := if b then 1 else 0

/-- The `n` little-endian bytes of `v` (R9). -/
def leBytes : Nat → Nat → List Byte
  | 0, _ => []
  | n + 1, v => BitVec.ofNat 8 v :: leBytes n (v / 256)

/-- The value of little-endian bytes (R9). -/
def leVal : List Byte → Nat
  | [] => 0
  | b :: t => b.toNat + 256 * leVal t

/-- `n` bytes of `bs` from offset `o`; bytes beyond the end read zero. -/
def slice (bs : List Byte) (o n : Nat) : List Byte :=
  let t := (bs.drop o).take n
  t ++ List.replicate (n - t.length) 0

/-- The little-endian value of `n` bytes of `bs` from offset `o` (R9). -/
def leAt (bs : List Byte) (o n : Nat) : Nat := leVal ((bs.drop o).take n)

/-- `bs` with the bytes from offset `o` replaced by `v`; `bs` keeps its length. -/
def patch (bs : List Byte) (o : Nat) (v : List Byte) : List Byte :=
  (bs.take o ++ v ++ bs.drop (o + v.length)).take bs.length

/-- `floor (10,000 × pos ÷ tot)`, and 0 while `tot` is 0 (R479). -/
def pct (pos tot : Nat) : Nat := if tot = 0 then 0 else 10000 * pos / tot

/-! ### Register fields (R11, R485) -/

/-- The value of a field's instance. -/
def State.rd (s : State) (f : Fld) (i : Nat := 0) (j : Nat := 0) : Nat :=
  tget (f.resetVal i j) s.regs (f.key i j)

/-- Make a field's instance hold `v`, cut to the field's width. -/
def State.wr (s : State) (f : Fld) (v : Nat) (i : Nat := 0) (j : Nat := 0) : State :=
  { s with regs := tset (f.resetVal i j) s.regs (f.key i j) (v % 2 ^ f.width) }

/-- Is a one-bit field set. -/
def State.on (s : State) (f : Fld) (i : Nat := 0) (j : Nat := 0) : Bool := decide (s.rd f i j ≠ 0)

/-- Count `n` more in an RC counter, which saturates at all ones (R485). -/
def State.bump (s : State) (f : Fld) (i : Nat := 0) (j : Nat := 0) (n : Nat := 1) : State :=
  s.wr f (min (s.rd f i j + n) (2 ^ f.width - 1)) i j

/-- Advance an index register, which wraps (R485). -/
def State.advance (s : State) (f : Fld) (i : Nat := 0) (j : Nat := 0) (n : Nat := 1) : State :=
  s.wr f (s.rd f i j + n) i j

/-- Take a little from a field, to zero at least. -/
def State.lower (s : State) (f : Fld) (i : Nat := 0) (j : Nat := 0) (n : Nat := 1) : State :=
  s.wr f (s.rd f i j - n) i j

/-- The value in force of a field that is staged (R139, R399): what was last applied. -/
def State.tmA (s : State) (f : Fld) (i : Nat := 0) (j : Nat := 0) : Nat := tget (f.resetVal i j) s.sw.tmAct (f.key i j)

/-- Put a staged field in force. -/
def State.applyStaged (s : State) (f : Fld) (i : Nat := 0) (j : Nat := 0) : State :=
  { s with sw := { s.sw with tmAct := tset (f.resetVal i j) s.sw.tmAct (f.key i j) (s.rd f i j) } }

/-! ### Sorting -/

/-- Put an element into a list that rises by `k`, behind those of an equal key. -/
def insBy {α : Type} (k : α → Nat) : List α → α → List α
  | [], x => [x]
  | y :: t, x => if k x < k y then x :: y :: t else y :: insBy k t x

/-- A list in rising order of `k`. -/
def sortBy {α : Type} (k : α → Nat) (l : List α) : List α := l.foldl (insBy k) []

/-! ### Free values (log entry 6) -/

/-- Use one free value. -/
def State.free (s : State) : Nat × State :=
  (Config.freeValue s.freeCtr, { s with freeCtr := s.freeCtr + 1 })

/-- A counter rises by an amount that no row reports, a free value. -/
def State.bumpFree (s : State) (f : Fld) (i : Nat := 0) (j : Nat := 0) : State :=
  let r := s.free
  r.2.bump f i j r.1

/-! ### Time (R7, R466) -/

/-- The present time: epoch, subtick, HOLD in holdover, and the CCLK count halved (R7, R466). -/
def State.now (s : State) : Nat :=
  s.rd .PWR_EPOCH_COUNT * 65536 + s.clk.subtick * 4096
    + (if s.clk.holdEpoch then 2048 else 0) + min (s.clk.cclk / 2) 0x7FF

/-- The present CCLK count (R144). -/
def State.cycle (s : State) : Nat := s.clk.base + s.clk.cclk

/-- The present epoch count. -/
def State.epoch (s : State) : Nat := s.rd .PWR_EPOCH_COUNT

/-! ### The boundary -/

/-- Something leaves the device; the newest output stands first. -/
def State.emit (s : State) (w : Wire) : State := { s with out := w :: s.out }

/-! ### W1C bits (R13) -/

/-- A field instance, by its byte offset and low bit. -/
def fieldKey (f : Fld) (i j : Nat) : Nat := (f.info.base + f.info.s1 * i + f.info.s2 * j) * 64 + f.info.lsb

/-- An event sets bits of a W1C field; a write of the same CCLK cycle does not clear them (R13). -/
def State.raiseBits (s : State) (f : Fld) (v : Nat) (i : Nat := 0) (j : Nat := 0) : State :=
  let t := s.wr f (s.rd f i j ||| v) i j
  let old := s.host.fresh.filter (fun e => e.2.2 == s.cycle)
  { t with host := { t.host with fresh := old ++ [(fieldKey f i j, v, s.cycle)] } }

/-- The bits of a W1C field that events of this CCLK cycle have set. -/
def State.freshBits (s : State) (f : Fld) (i j : Nat) : Nat :=
  (s.host.fresh.filter (fun e => e.1 == fieldKey f i j && e.2.2 == s.cycle)).foldl (fun a e => a ||| e.2.1) 0

/-! ### Interrupts (R480, R481) -/

/-- What a byte of the MSI-X table holds after reset: every vector masked, as PCI Express has it
(log entry 8). -/
def msixReset (off : Nat) : Byte := if off % 16 = 12 then 1 else 0

/-- A byte of the MSI-X table. -/
def State.msixByte (s : State) (off : Nat) : Byte := (tfind s.host.msix off).getD (msixReset off)

/-- Is a vector masked in the MSI-X table. -/
def State.masked (s : State) (v : Nat) : Bool := (s.msixByte (16 * v + 12)).toNat.testBit 0

/-- Send a vector's message, or set its pending bit while it is masked (R480). -/
def State.sendVector (s : State) (v : Nat) : State :=
  if s.masked v then { s with host := { s.host with pba := tset false s.host.pba v true } }
  else s.emit (.msix v)

/-- Set a cause bit; its message goes when the bit rises while it is enabled (R480). -/
def State.irq (s : State) (c : Nat) : State :=
  let t := s.raiseBits .GLB_IRQ_STAT_CAUSE (2 ^ c)
  if (s.rd .GLB_IRQ_STAT_CAUSE).testBit c then t
  else if (t.rd .GLB_IRQ_EN_EN).testBit c then t.sendVector c
  else t

/-- A host command ended: its bit of GLB_CMD_DONE, and cause CMD_DONE (R478, Table 21.5). -/
def State.cmdDone (s : State) (b : Nat) : State :=
  (s.raiseBits .GLB_CMD_DONE_DONE (2 ^ b)).irq 2

/-- ALERT_N is driven low while an enabled cause is set (R481). -/
def State.alertLow (s : State) : Bool :=
  decide ((s.rd .GLB_IRQ_STAT_CAUSE) &&& (s.rd .GLB_ALERT_EN_EN) ≠ 0)

/-! ### Events (R489 to R492) -/

/-- The events of Table 22.2. -/
inductive Ev where
  | bootReady | bootFallback | bootHalt | calDefault
  | epochRate | epochLost | epochLock
  | tenantAssign | tenantTeardown | keyErased | tenantClean
  | contain | containClear | degraded | unitRetired | frameRetired | stackLost | rmapFull
  | agentJoin | agentLeave | idExhausted | seqGap | portNarrow | portFlap | pfcStorm
  | planeFail | planeSpare
  | guarScaled | guarRestored
  | poolUe | leaseExpired | extentReclaimed | rcmpApplied
  | cgFault | cgWalked | cgUp | cgOff | pubSubDropped
  | lostDirty | ergcCheck
  | residueFail | nmResidue
  | scnFail | scnObserve | scnRelease | scnRetire | scnPair | scnNoPartner | rgfLow | nmMoved
  deriving DecidableEq, Repr

/-- CODE of an event (Table 22.2). -/
def Ev.code : Ev → Nat
  | .bootReady => 0x0101 | .bootFallback => 0x0102 | .bootHalt => 0x0103 | .calDefault => 0x0104
  | .epochRate => 0x0201 | .epochLost => 0x0202 | .epochLock => 0x0203
  | .tenantAssign => 0x0301 | .tenantTeardown => 0x0302 | .keyErased => 0x0303 | .tenantClean => 0x0304
  | .contain => 0x0501 | .containClear => 0x0502 | .degraded => 0x0503 | .unitRetired => 0x0504
  | .frameRetired => 0x0505 | .stackLost => 0x0506 | .rmapFull => 0x0507
  | .agentJoin => 0x1001 | .agentLeave => 0x1002 | .idExhausted => 0x1003 | .seqGap => 0x1004
  | .portNarrow => 0x1005 | .portFlap => 0x1006 | .pfcStorm => 0x1007
  | .planeFail => 0x2001 | .planeSpare => 0x2002
  | .guarScaled => 0x3001 | .guarRestored => 0x3002
  | .poolUe => 0x4001 | .leaseExpired => 0x4002 | .extentReclaimed => 0x4003 | .rcmpApplied => 0x4004
  | .cgFault => 0x5001 | .cgWalked => 0x5002 | .cgUp => 0x5003 | .cgOff => 0x5004 | .pubSubDropped => 0x5005
  | .lostDirty => 0x6001 | .ergcCheck => 0x6002
  | .residueFail => 0x7001 | .nmResidue => 0x7002
  | .scnFail => 0x9001 | .scnObserve => 0x9002 | .scnRelease => 0x9003 | .scnRetire => 0x9004
  | .scnPair => 0x9005 | .scnNoPartner => 0x9006 | .rgfLow => 0x9007 | .nmMoved => 0x9008

/-- SEV of an event (Table 22.2). -/
def Ev.sev : Ev → Nat
  | .bootReady => 0 | .bootFallback => 1 | .bootHalt => 4 | .calDefault => 1
  | .epochRate => 1 | .epochLost => 1 | .epochLock => 0
  | .tenantAssign => 1 | .tenantTeardown => 1 | .keyErased => 1 | .tenantClean => 1
  | .contain => 3 | .containClear => 1 | .degraded => 2 | .unitRetired => 2
  | .frameRetired => 1 | .stackLost => 2 | .rmapFull => 2
  | .agentJoin => 0 | .agentLeave => 0 | .idExhausted => 1 | .seqGap => 1
  | .portNarrow => 2 | .portFlap => 1 | .pfcStorm => 1
  | .planeFail => 2 | .planeSpare => 2
  | .guarScaled => 1 | .guarRestored => 0
  | .poolUe => 1 | .leaseExpired => 1 | .extentReclaimed => 0 | .rcmpApplied => 0
  | .cgFault => 3 | .cgWalked => 1 | .cgUp => 1 | .cgOff => 0 | .pubSubDropped => 1
  | .lostDirty => 2 | .ergcCheck => 1
  | .residueFail => 2 | .nmResidue => 2
  | .scnFail => 2 | .scnObserve => 1 | .scnRelease => 1 | .scnRetire => 2
  | .scnPair => 2 | .scnNoPartner => 2 | .rgfLow => 2 | .nmMoved => 2

/-- The 64 bytes of an event record (Table 22.1). -/
def evRecord (time : Nat) (e : Ev) (unit arg0 arg1 seq : Nat) : List Byte :=
  leBytes 8 time ++ leBytes 2 e.code ++ leBytes 1 e.sev ++ leBytes 1 0 ++ leBytes 2 unit
    ++ leBytes 2 0 ++ leBytes 8 arg0 ++ leBytes 8 arg1 ++ leBytes 8 0 ++ leBytes 4 seq
    ++ leBytes 19 0 ++ leBytes 1 1

/-- CODE and UNIT of a record as one number, the order within a CCLK cycle (R490). -/
def recOrder (r : List Byte) : Nat := leAt r 8 2 * 65536 + leAt r 12 2

/-- A record with another SEQ. -/
def recSeq (r : List Byte) (seq : Nat) : List Byte := patch r 40 (leBytes 4 seq)

/-- The records of the CCLK cycle of an event that come after its own in R490's order, newest first. -/
def State.laterRecords (s : State) (time ord seq : Nat) : Nat → List (List Byte)
  | 0 => []
  | n + 1 =>
    let r := tget [] s.tel.evRing ((seq + 2 ^ 32 - 1) % 2 ^ 32 % 4096)
    if !r.isEmpty && leAt r 0 8 == time && decide (ord < recOrder r) && leAt r 40 4 == (seq + 2 ^ 32 - 1) % 2 ^ 32 then
      r :: State.laterRecords s time ord ((seq + 2 ^ 32 - 1) % 2 ^ 32) n
    else []

/-- The queue of records that wait for flash holds 256; a record that finds it full is counted (R491).
Records that moved up by one SEQ stay in the queue behind the new one. -/
def State.queueFlash (s : State) (r : List Byte) (old moved : List (List Byte)) : State :=
  let q := s.tel.flashq.filter (fun x => !old.contains x)
  let tail := (old.zip moved).filterMap (fun e => if s.tel.flashq.contains e.1 then some e.2 else none)
  if s.tel.flashq.length < 256 then { s with tel := { s.tel with flashq := q ++ [r] ++ tail } }
  else ({ s with tel := { s.tel with flashq := q ++ tail } }).bump .EVT_FLOG_DROP_COUNT

/-- Log an event of a time, a place in R490's order and a severity; `mk` gives its record for a SEQ. The record goes into the ring
in the order of R490 and EVT_LOG_IDX advances; severity 1 and above goes to the flash queue; the EVENT cause is set at severity EV_SEV
and above (R489 to R492). -/
def State.logEvent (s : State) (time ord sev : Nat) (mk : Nat → List Byte) : State :=
  let next := s.rd .EVT_LOG_IDX_NEXT
  let old := (s.laterRecords time ord next 64).reverse
  let seq := (next + 2 ^ 32 - old.length) % 2 ^ 32
  let r := mk seq
  let moved := old.zipIdx.map (fun (x, i) => recSeq x ((seq + 1 + i) % 2 ^ 32))
  let ring := (r :: moved).zipIdx.foldl (fun t (x, i) => tset [] t ((seq + i) % 2 ^ 32 % 4096) x) s.tel.evRing
  let s := ({ s with tel := { s.tel with evRing := ring } }).advance .EVT_LOG_IDX_NEXT
  let s := if 1 ≤ sev then s.queueFlash r old moved
           else { s with tel := { s.tel with flashq := s.tel.flashq.map (fun x =>
             match (old.zip moved).find? (fun e => e.1 == x) with
             | some e => e.2
             | none => x) } }
  if s.rd .GLB_IRQ_CFG_EV_SEV ≤ sev then s.irq 0 else s

/-- Raise an event: it is logged at once, or in DSLEEP, where CT0/CT1 are off, held for the wake with the time it was raised (R489;
Table 24.3, row 6; DEDUCED, log entry 114). -/
def State.event (s : State) (e : Ev) (unit : Nat := 0) (arg0 : Nat := 0) (arg1 : Nat := 0) : State :=
  if s.rd .PWR_STAT_STATE = 3 then
    { s with tel := { s.tel with heldRecs := s.tel.heldRecs ++ [evRecord s.now e unit arg0 arg1 0] } }
  else s.logEvent s.now (e.code * 65536 + unit % 65536) e.sev (evRecord s.now e unit arg0 arg1)

/-- The events raised while CT0/CT1 were off are logged, with the times they were raised (Table 24.3, row 6). -/
def State.logHeld (s : State) : State :=
  s.tel.heldRecs.foldl (fun s r => s.logEvent (leAt r 0 8) (recOrder r) (leAt r 10 1) (recSeq r))
    { s with tel := { s.tel with heldRecs := [] } }

/-! ### Bytes of the pool -/

/-- What a byte of the pool reads as where nothing was written: new extents, scrubbed frames and
trays read zero (R178, R415, R416; log entry 3). -/
def memByte (m : List Host.Cell) (a : Nat) : Byte := tget 0 m a

/-- Write one byte; memory stays canonical. -/
def memSet (m : List Host.Cell) (a : Nat) (b : Byte) : List Host.Cell := tset 0 m a b

/-- `n` bytes from address `a`. -/
def memRead (m : List Host.Cell) (a : Nat) : Nat → List Byte
  | 0 => []
  | n + 1 => memByte m a :: memRead m (a + 1) n

/-- Write bytes from address `a` up. -/
def memWrite (m : List Host.Cell) (a : Nat) : List Byte → List Host.Cell
  | [] => m
  | b :: t => memWrite (memSet m a b) (a + 1) t

/-- The canonical form of the pool's memory. -/
abbrev Memory.wf (m : List Host.Cell) : Prop := twf (0 : Byte) m

/-- Change the pool's part of a state. -/
def State.withMem (s : State) (m : List Host.Cell) : State := { s with pool := { s.pool with mem := m } }

/-! ### Ports and agents -/

/-- Change one port. -/
def State.updPort (s : State) (p : Nat) (f : Port → Port) : State :=
  { s with ports := tins s.ports p (f (tget Port.init s.ports p)) }

/-- A port's context. -/
def State.port (s : State) (p : Nat) : Port := tget Port.init s.ports p

/-- Change one agent. -/
def State.updAgent (s : State) (id : Nat) (f : Agent → Agent) : State :=
  { s with agents := tins s.agents id (f (tget Agent.init s.agents id)) }

/-- An agent's record. -/
def State.agent (s : State) (id : Nat) : Agent := tget Agent.init s.agents id

end Sys2Proof.Machine
end

