-- ==== Sys2Proof/Machine/Operands.lean ====
section
/-! DEFINITION. Operand forms: message headers and payloads (Tables 2.4 to 2.10), flits (Tables 2.1
and 2.2) and the link CRC (R37). -/

namespace Sys2Proof.Machine

/-! ### Status codes (Table 0.3) -/

abbrev stOK : Nat := 0
abbrev stPOISON : Nat := 1
abbrev stTIMEOUT : Nat := 2
abbrev stUNMAPPED : Nat := 3
abbrev stNOT_MEMBER : Nat := 4
abbrev stGROUP_DOWN : Nat := 5
abbrev stFLUSHED : Nat := 6
abbrev stVERSION_STALE : Nat := 7
abbrev stQUOTA : Nat := 8
abbrev stLEASE_GONE : Nat := 9
abbrev stTAINTED : Nat := 10
abbrev stSTATE : Nat := 11
abbrev stREFUSED : Nat := 12

/-! ### Opcodes (Table 2.5) -/

abbrev opRD : Nat := 0x01
abbrev opRDX : Nat := 0x02
abbrev opUPG : Nat := 0x03
abbrev opWB : Nat := 0x04
abbrev opWBC : Nat := 0x05
abbrev opNRD : Nat := 0x06
abbrev opNWR : Nat := 0x07
abbrev opLD : Nat := 0x08
abbrev opST : Nat := 0x09
abbrev opST_REL : Nat := 0x0A
abbrev opAT : Nat := 0x0B
abbrev opINV : Nat := 0x0C
abbrev opPUB : Nat := 0x0D
abbrev opSUBS : Nat := 0x0E
abbrev opMSG : Nat := 0x0F
abbrev opSNP_S : Nat := 0x20
abbrev opSNP_I : Nat := 0x21
abbrev opSNP_X : Nat := 0x22
abbrev opINV_NOTE : Nat := 0x23
abbrev opTAINT_NOTE : Nat := 0x24
abbrev opGROUP_FAULT : Nat := 0x25
abbrev opDATA : Nat := 0x30
abbrev opCMP : Nat := 0x31
abbrev opHACK : Nat := 0x32

/-! ### Header fields (Tables 2.4, 2.6 to 2.10) -/

/-- Bits `lo + n - 1` down to `lo` of a header. -/
def hbits (m : Msg) (lo n : Nat) : Nat := bits m.hdr.toNat lo n

def mOpc (m : Msg) : Nat := hbits m 122 6
def mSc (m : Msg) : Nat := hbits m 119 3
def mSrc (m : Msg) : Nat := hbits m 107 12
def mDst (m : Msg) : Nat := hbits m 95 12
def mSeq (m : Msg) : Nat := hbits m 75 20
def mAddr (m : Msg) : Nat := hbits m 27 48
def mSizeF (m : Msg) : Nat := hbits m 24 3
def mAtop (m : Msg) : Nat := hbits m 20 4
def mFetch (m : Msg) : Bool := bit m.hdr.toNat 19
def mSigned (m : Msg) : Bool := bit m.hdr.toNat 18
def mPsn (m : Msg) : Bool := bit m.hdr.toNat 17
def mUnsub (m : Msg) : Bool := bit m.hdr.toNat 16
def mNlines (m : Msg) : Nat := hbits m 0 16
def mDsw (m : Msg) : Nat := hbits m 59 16
def mLen (m : Msg) : Nat := hbits m 45 14
def mMpri (m : Msg) : Nat := hbits m 42 3
def mNofwd (m : Msg) : Bool := bit m.hdr.toNat 26
def mRspst (m : Msg) : Nat := hbits m 25 2
def mFwd (m : Msg) : Bool := bit m.hdr.toNat 24
def mHdata (m : Msg) : Bool := bit m.hdr.toNat 23
def mHpsn (m : Msg) : Bool := bit m.hdr.toNat 22
def mStatus (m : Msg) : Nat := hbits m 71 4
def mRpsn (m : Msg) : Bool := bit m.hdr.toNat 70
def mSusp (m : Msg) : Bool := bit m.hdr.toNat 69
def mGrant (m : Msg) : Nat := hbits m 67 2

/-- The bytes a SIZE names (Table 2.6). -/
def mSize (m : Msg) : Nat := 2 ^ mSizeF m

/-- The 64-byte line of an address. -/
def lineOf (a : Nat) : Nat := a / 64

/-- The page number a[47:16] of an address. -/
def pageOf (a : Nat) : Nat := a / 65536

/-- A header from its fields, each given as lowest bit, width and value. -/
def mkHdr : List (Nat × Nat × Nat) → BitVec 128
  | [] => 0
  | (lo, n, v) :: t => BitVec.ofNat 128 ((v % 2 ^ n) * 2 ^ lo) ||| mkHdr t

/-- The common header (Table 2.4). -/
def commonHdr (opc sc src dst seq : Nat) : List (Nat × Nat × Nat) :=
  [(122, 6, opc), (119, 3, sc), (107, 12, src), (95, 12, dst), (75, 20, seq)]

/-- A request header (Table 2.6). -/
def reqHdr (opc sc src seq addr sizeF : Nat) : BitVec 128 :=
  mkHdr (commonHdr opc sc src 0 seq ++ [(27, 48, addr), (24, 3, sizeF)])

/-- What a final response carries (Table 2.10). -/
structure Resp where
  status : Nat
  psn : Bool := false
  susp : Bool := false
  grant : Nat := 0
  curver : Nat := 0
  data : Option (List Byte) := none
  deriving DecidableEq, Repr

/-- The message of a final response: DATA where it carries data, CMP where not (R62). -/
def respMsg (sc src dst seq : Nat) (r : Resp) : Msg :=
  { hdr := mkHdr (commonHdr (if r.data.isSome then opDATA else opCMP) sc src dst seq
      ++ [(71, 4, r.status), (70, 1, b2n r.psn), (69, 1, b2n r.susp), (67, 2, r.grant), (32, 32, r.curver)]),
    payload := r.data.getD [] }

/-- The 16-byte slots of a message: its header and its payload (R53). -/
def mSlots (m : Msg) : Nat := 1 + (m.payload.length + 15) / 16

/-- Bytes `lo` to `hi - 1` of a payload are zero. -/
def zeroBetween (bs : List Byte) (lo hi : Nat) : Bool :=
  ((bs.drop lo).take (hi - lo)).all (fun b => b == 0)

/-- Is this opcode one an agent may send to the device as a request (Table 2.5). -/
def isRequest (o : Nat) : Bool := decide (1 ≤ o ∧ o ≤ 15)

/-- Requests whose answer carries data (R66, Table 2.12). -/
def expectsData (m : Msg) : Bool :=
  [opRD, opRDX, opNRD, opLD].contains (mOpc m) || (mOpc m == opAT && mFetch m)

/-- The reads of Table 3.2. -/
def isRead (o : Nat) : Bool := [opRD, opRDX, opNRD, opLD].contains o

/-- Payload slots a request carries (Table 2.5). -/
def reqSlots (m : Msg) : Nat :=
  let o := mOpc m
  if o = opWB ∨ o = opNWR then 4
  else if o = opST ∨ o = opST_REL then max 1 (mSize m / 16)
  else if o = opAT ∨ o = opPUB then 1
  else if o = opMSG then (mLen m + 15) / 16
  else if o = opHACK then (if mHdata m then 4 else 0)
  else if o = opDATA then (m.payload.length + 15) / 16
  else if o = opTAINT_NOTE then 1
  else 0

/-! ### Agent blocks of the control window (R168) -/

/-- The base of the control window (Table 7.1). -/
abbrev winBase : Nat := 0xFFFF00000000

/-- Is an address in the control window. -/
def inWindow (a : Nat) : Bool := decide (winBase ≤ a ∧ a < winBase + 0x10000000)

/-- The agent whose block an address of the control window lies in. -/
def winAgent (a : Nat) : Nat := (a - winBase) / 65536

/-- The offset in the agent's block. -/
def winOff (a : Nat) : Nat := (a - winBase) % 65536

/-! ### Check 1 of Table 2.11 -/

/-- The classes a request may use (Table 2.5); `own` for an address in the sender's own block, which check 5 serves in SC1
alone (R169). -/
def scAllowed (m : Msg) (own : Bool) : Bool :=
  let o := mOpc m
  let sc := mSc m
  if own ∧ sc = 1 ∧ [opLD, opST, opST_REL, opAT].contains o then true
  else if [opRD, opRDX, opUPG, opWB, opWBC, opINV, opPUB, opSUBS].contains o then sc == 0
  else if o = opNRD ∨ o = opLD then sc == 2
  else if o = opNWR then sc == 3
  else if o = opST ∨ o = opST_REL ∨ o = opAT then sc == 3 || sc == 4
  else if o = opMSG then sc == 6
  else false

/-- SIZE and alignment of a request (R56). -/
def sizeOk (m : Msg) : Bool :=
  let o := mOpc m
  let f := mSizeF m
  mAddr m % mSize m == 0 &&
  (if [opRD, opRDX, opUPG, opWB, opWBC, opNRD, opNWR, opINV, opPUB, opSUBS].contains o then f == 6
   else if o = opAT then f == 2 || f == 3
   else f != 7)

/-- Fields a request does not use are zero, and no field holds a reserved encoding (R55, Table 2.6). -/
def fieldsOk (m : Msg) : Bool :=
  let o := mOpc m
  if o = opMSG then
    hbits m 0 42 == 0 && decide (1 ≤ mLen m ∧ mLen m ≤ 8192)
  else
    mDst m == 0 &&
    (if o = opAT then decide (mAtop m ≤ 7) else mAtop m == 0) &&
    (o == opAT || !mFetch m) &&
    ((o == opAT && (mAtop m == 1 || mAtop m == 2)) || !mSigned m) &&
    ([opWB, opNWR, opST, opST_REL, opAT].contains o || !mPsn m) &&
    (o == opSUBS || !mUnsub m) &&
    (o == opINV || mNlines m == 0)

/-- The payload has the slots of Table 2.5, and its reserved bytes are zero (R57). -/
def payloadOk (m : Msg) : Bool :=
  let o := mOpc m
  m.payload.length == 16 * reqSlots m &&
  (if o = opST ∨ o = opST_REL then zeroBetween m.payload (mSize m) (16 * reqSlots m)
   else if o = opAT then
     let w := mSize m
     zeroBetween m.payload w 8 &&
       (if mAtop m = 7 then zeroBetween m.payload (8 + w) 16 else zeroBetween m.payload 8 16)
   else if o = opPUB then
     zeroBetween m.payload 4 8 && zeroBetween m.payload 15 16
       && ((m.payload.getD 14 0).toNat % 256 / 2 == 0) && ((m.payload.getD 8 0).toNat % 64 == 0)
   else if o = opMSG then zeroBetween m.payload (mLen m) (16 * reqSlots m)
   else true)

/-- Check 1 of Table 2.11 (R10, R54 to R58). -/
def check1 (m : Msg) (own : Bool) : Bool :=
  isRequest (mOpc m) && scAllowed m own && fieldsOk m && (mOpc m == opMSG || sizeOk m) && payloadOk m

/-! ### CRC-32C (R37) -/

/-- One bit step of the reflected CRC-32C. -/
def crc32cBit (c : Nat) : Nat := if c % 2 = 1 then (c / 2) ^^^ 0x82F63B78 else c / 2

/-- One byte of the reflected CRC-32C. -/
def crc32cByte (c : Nat) (b : Byte) : Nat :=
  crc32cBit (crc32cBit (crc32cBit (crc32cBit (crc32cBit (crc32cBit (crc32cBit (crc32cBit (c ^^^ b.toNat))))))))

/-- CRC-32C of bytes: initial value and final exclusive-or of all ones, input and output reflected (R37). -/
def crc32c (bs : List Byte) : Nat := (bs.foldl crc32cByte 0xFFFFFFFF) ^^^ 0xFFFFFFFF

/-! ### Flits (Tables 2.1 and 2.2) -/

/-- The 96-bit header of a flit. -/
def flHdr (f : List Byte) : Nat := leAt f 0 12
def flType (f : List Byte) : Nat := bits (flHdr f) 92 4
def flSeq (f : List Byte) : Nat := bits (flHdr f) 80 12
def flAckSeq (f : List Byte) : Nat := bits (flHdr f) 68 12
def flAckV (f : List Byte) : Bool := bit (flHdr f) 67
def flCraPool (f : List Byte) : Nat := bits (flHdr f) 63 4
def flCraCnt (f : List Byte) : Nat := bits (flHdr f) 51 12
def flCrbPool (f : List Byte) : Nat := bits (flHdr f) 47 4
def flCrbCnt (f : List Byte) : Nat := bits (flHdr f) 35 12
def flHdrmap (f : List Byte) : Nat := bits (flHdr f) 20 15

/-- Is the flit whole and its CRC right (R35, R37). -/
def flitOk (f : List Byte) : Bool :=
  f.length == 256 && crc32c (f.take 252) == leAt f 252 4

/-- A flit's bytes from its header value and its 240 slot bytes. -/
def mkFlit (hdr : Nat) (slots : List Byte) : List Byte :=
  let body := leBytes 12 hdr ++ slice slots 0 240
  body ++ leBytes 4 (crc32c body)

/-- A flit header (Table 2.2). -/
def mkFlHdr (ftype fseq ackseq ackv craPool craCnt crbPool crbCnt hdrmap : Nat) : Nat :=
  ftype * 2 ^ 92 + (fseq % 4096) * 2 ^ 80 + (ackseq % 4096) * 2 ^ 68 + ackv * 2 ^ 67 + craPool * 2 ^ 63
    + (craCnt % 4096) * 2 ^ 51 + crbPool * 2 ^ 47 + (crbCnt % 4096) * 2 ^ 35 + hdrmap * 2 ^ 20

/-- A DISC flit: FTYPE 3, the credit and acknowledgement fields zero, and the record in the slot area (R72). -/
def discFlit (rec_ : List Byte) : List Byte := mkFlit (mkFlHdr 3 0 0 0 0 0 0 0 0) rec_

/-- A message as the bytes of its slots (R53, R57). -/
def msgBytes (m : Msg) : List Byte :=
  leBytes 16 m.hdr.toNat ++ slice m.payload 0 (16 * (mSlots m - 1))

/-- The message whose header slot and payload slots are these bytes. -/
def msgOfBytes (bs : List Byte) : Msg :=
  { hdr := BitVec.ofNat 128 (leAt bs 0 16), payload := bs.drop 16 }

/-- The slots of the message that starts with this header slot (Table 2.5). -/
def slotsOfHdr (hdr : List Byte) : Nat :=
  let m := msgOfBytes (hdr.take 16)
  if mOpc m = opDATA then 5 else 1 + reqSlots m

/-- Compare sequence numbers modulo 2^20: `a` lies in the 65,536 numbers that precede `b` (R79). -/
def seqBelow (a b : Nat) : Bool :=
  let d := (b + 2 ^ 20 - a % 2 ^ 20) % 2 ^ 20
  decide (1 ≤ d ∧ d ≤ 65536)

end Sys2Proof.Machine
end

