-- ==== Sys2Proof/Machine/Arith.lean ====
section
/-! DEFINITION. Number formats and arithmetic (R299 to R314): every value is read exactly, every
operation is done exactly and rounded once where the spec names a rounding. -/

namespace Sys2Proof.Machine

/-! ### Formats (Tables 11.3, 12.1, 12.2) -/

/-- A binary format: exponent bits, mantissa bits, bias, and whether it has infinities. -/
structure Fmt where
  eb : Nat
  mb : Nat
  bias : Nat
  ieee : Bool
  deriving DecidableEq, Repr

abbrev fmtBF16 : Fmt := { eb := 8, mb := 7, bias := 127, ieee := true }
abbrev fmtFP16 : Fmt := { eb := 5, mb := 10, bias := 15, ieee := true }
abbrev fmtFP32 : Fmt := { eb := 8, mb := 23, bias := 127, ieee := true }
abbrev fmtE4M3 : Fmt := { eb := 4, mb := 3, bias := 7, ieee := false }
abbrev fmtE5M2 : Fmt := { eb := 5, mb := 2, bias := 15, ieee := true }

abbrev tBF16 : Nat := 1
abbrev tFP16 : Nat := 2
abbrev tFP32 : Nat := 3
abbrev tE4M3 : Nat := 4
abbrev tE5M2 : Nat := 5
abbrev tMXE4M3 : Nat := 6
abbrev tMXE5M2 : Nat := 7
abbrev tMXINT8 : Nat := 8
abbrev tINT8 : Nat := 9
abbrev tINT32 : Nat := 10

/-- Bytes per element (Table 11.3). -/
def tySize (t : Nat) : Nat :=
  if t = tBF16 ∨ t = tFP16 then 2 else if t = tFP32 ∨ t = tINT32 then 4 else 1

/-- The format of a floating-point type; MX elements have the format of their element type. -/
def tyFmt (t : Nat) : Fmt :=
  if t = tBF16 then fmtBF16 else if t = tFP16 then fmtFP16 else if t = tFP32 then fmtFP32
  else if t = tE4M3 ∨ t = tMXE4M3 then fmtE4M3 else fmtE5M2

/-- Is a type one of the three MX types. -/
def isMx (t : Nat) : Bool := decide (6 ≤ t ∧ t ≤ 8)

/-- The encoding of NaN that the device writes (Table 12.2). -/
def Fmt.nan (f : Fmt) : Nat :=
  if f.ieee then (if f = fmtE5M2 then 0x7F else (2 ^ f.eb - 1) * 2 ^ f.mb + 2 ^ (f.mb - 1)) else 0x7F

/-- The encoding of an infinity. -/
def Fmt.inf (f : Fmt) (neg : Bool) : Nat := b2n neg * 2 ^ (f.eb + f.mb) + (2 ^ f.eb - 1) * 2 ^ f.mb

/-- The encoding of the largest finite value. -/
def Fmt.maxFin (f : Fmt) (neg : Bool) : Nat :=
  b2n neg * 2 ^ (f.eb + f.mb) + (if f.ieee then (2 ^ f.eb - 1) * 2 ^ f.mb - 1 else 2 ^ (f.eb + f.mb) - 2)

/-! ### Exact values -/

/-- An exact value: a NaN, an infinity, or `(-1)^neg × man × 2^exp`. -/
inductive Num where
  | nan
  | inf (neg : Bool)
  | fin (neg : Bool) (man : Nat) (exp : Int)
  deriving DecidableEq, Repr

/-- Zero of a sign. -/
def Num.zero (neg : Bool) : Num := .fin neg 0 0

/-- Widening is exact (R299, R300, R302, R308). -/
def widenF (f : Fmt) (v : Nat) : Num :=
  let neg := v.testBit (f.eb + f.mb)
  let e := bits v f.mb f.eb
  let m := bits v 0 f.mb
  if f.ieee ∧ e = 2 ^ f.eb - 1 then (if m = 0 then .inf neg else .nan)
  else if !f.ieee ∧ e = 2 ^ f.eb - 1 ∧ m = 2 ^ f.mb - 1 then .nan
  else if e = 0 then .fin neg m (1 - (f.bias : Int) - f.mb)
  else .fin neg (2 ^ f.mb + m) ((e : Int) - f.bias - f.mb)

/-- The value of an element of a type; MXINT8 weighs 2^-6 (R301). -/
def widenT (t v : Nat) : Num :=
  if t = tINT8 ∨ t = tMXINT8 ∨ t = tINT32 then
    let w := if t = tINT32 then 32 else 8
    let neg := v.testBit (w - 1)
    .fin neg (if neg then 2 ^ w - v % 2 ^ w else v % 2 ^ w) (if t = tMXINT8 then -6 else 0)
  else widenF (tyFmt t) v

/-- Multiply a value by the MX scale X: 2^(X - 127), and NaN for 0xFF (R301). -/
def scaleMx (x : Nat) : Num → Num
  | .nan => .nan
  | .inf n => if x = 0xFF then .nan else .inf n
  | .fin n m e => if x = 0xFF then .nan else .fin n m (e + (x : Int) - 127)

/-! ### Rounding (R307, R309) -/

/-- The magnitude `man / 2^sh` rounded to an integer under a mode: 0 to nearest even, 1 toward zero, 2
up, 3 down (R307). -/
def roundShift (mode : Nat) (neg : Bool) (man sh : Nat) : Nat :=
  let q := man / 2 ^ sh
  let r := man % 2 ^ sh
  let up : Bool :=
    match mode with
    | 0 => decide (2 ^ sh < 2 * r) || (decide (2 * r = 2 ^ sh) && sh != 0 && q % 2 == 1)
    | 1 => false
    | 2 => r != 0 && !neg
    | _ => r != 0 && neg
  if up then q + 1 else q

/-- A finite value's integer significand and its quantum's exponent after rounding to a format, with no
bound on the exponent. -/
def roundMan (f : Fmt) (mode : Nat) (neg : Bool) (man : Nat) (exp : Int) : Nat × Int :=
  let top : Int := (Nat.log2 man : Int) + exp
  let q : Int := max (top - f.mb) (1 - (f.bias : Int) - f.mb)
  let m := if q ≤ exp then man * 2 ^ (exp - q).toNat else roundShift mode neg man (q - exp).toNat
  if m = 2 ^ (f.mb + 1) then (2 ^ f.mb, q + 1) else (m, q)

/-- Does a rounded value lie beyond the largest finite value of a format. -/
def Fmt.overflows (f : Fmt) (m : Nat) (q : Int) : Bool :=
  let e : Int := q + f.bias + f.mb
  decide (2 ^ f.mb ≤ m) &&
    (if f.ieee then decide ((2 ^ f.eb : Int) - 2 < e)
     else decide ((2 ^ f.eb : Int) - 1 < e ∨ (e = (2 ^ f.eb : Int) - 1 ∧ m = 2 ^ (f.mb + 1) - 1)))

/-- Narrow a value to a format under a mode; `sat` saturates the FP8 formats. The second part says that
a finite value overflowed (Table 12.4, R310). -/
def narrow (f : Fmt) (mode : Nat) (sat : Bool) : Num → Nat × Bool
  | .nan => (f.nan, false)
  | .inf n =>
    if (f = fmtE4M3 ∨ f = fmtE5M2) ∧ sat then (f.maxFin n, false)
    else if !f.ieee then (f.nan, false)
    else (f.inf n, false)
  | .fin n man exp =>
    let sg := b2n n * 2 ^ (f.eb + f.mb)
    if man = 0 then (sg, false)
    else
      let r := roundMan f mode n man exp
      if f.overflows r.1 r.2 then
        if (f = fmtE4M3 ∨ f = fmtE5M2) ∧ sat then (f.maxFin n, true)
        else if !f.ieee then (f.nan, true)
        else if mode = 0 ∨ (mode = 2 ∧ !n) ∨ (mode = 3 ∧ n) then (f.inf n, true)
        else (f.maxFin n, true)
      else if r.1 < 2 ^ f.mb then (sg + r.1, false)
      else (sg + (r.2 + f.bias + f.mb).toNat * 2 ^ f.mb + (r.1 - 2 ^ f.mb), false)

/-- An FP32 value in flight: its value, and whether a rounding on its way overflowed (R310). -/
structure Fp where
  num : Num
  ovf : Bool
  deriving DecidableEq, Repr

/-- Round an exact value to FP32. -/
def toFp32 (mode : Nat) (x : Num) (ovf : Bool) : Fp :=
  let r := narrow fmtFP32 mode false x
  { num := widenF fmtFP32 r.1, ovf := ovf || r.2 }

/-- An exact value taken as FP32 with nothing lost. -/
def Fp.of (x : Num) : Fp := { num := x, ovf := false }

/-- A value's signed significand at an exponent not above its own. -/
def Num.at (man : Nat) (exp e : Int) (neg : Bool) : Int :=
  let v : Int := (man * 2 ^ (exp - e).toNat : Nat)
  if neg then -v else v

/-- Is a value infinite or NaN. -/
def Num.special : Num → Bool
  | .fin _ _ _ => false
  | _ => true

/-- Is a value infinite or NaN with no overflow before it. -/
def Fp.genuine (a : Fp) : Bool := a.num.special && !a.ovf

/-- Does an overflow before it account for a result of two values: one of them overflowed, and none was infinite or NaN of
itself (R310). -/
def Fp.spoils (a b : Fp) : Bool := (a.ovf || b.ovf) && !a.genuine && !b.genuine

/-- FP32 addition (R303, R311). -/
def fpAdd (mode : Nat) (a b : Fp) : Fp :=
  let o := a.spoils b
  match a.num, b.num with
  | .nan, _ => { num := .nan, ovf := o }
  | _, .nan => { num := .nan, ovf := o }
  | .inf n, .inf m => { num := if n = m then .inf n else .nan, ovf := o }
  | .inf n, _ => { num := .inf n, ovf := o }
  | _, .inf n => { num := .inf n, ovf := o }
  | .fin n x e, .fin m y f =>
    let g := min e f
    let t := Num.at x e g n + Num.at y f g m
    if t = 0 then
      { num := .zero ((n && m && x == 0 && y == 0) || mode == 3), ovf := o }
    else toFp32 mode (.fin (decide (t < 0)) t.natAbs g) o

/-- The exact product of two values (R304, R305). -/
def mulExact (a b : Num) : Num :=
  match a, b with
  | .nan, _ => .nan
  | _, .nan => .nan
  | .inf n, .inf m => .inf (n != m)
  | .inf n, .fin m y _ => if y = 0 then .nan else .inf (n != m)
  | .fin n x _, .inf m => if x = 0 then .nan else .inf (n != m)
  | .fin n x e, .fin m y f => .fin (n != m) (x * y) (e + f)

/-- FP32 multiplication. -/
def fpMul (mode : Nat) (a b : Fp) : Fp := toFp32 mode (mulExact a.num b.num) (a.spoils b)

/-- FP32 division by a positive count (R303): the quotient to 80 bits below the dividend's last, with a
sticky bit, rounds as the exact quotient does. -/
def fpDivNat (mode : Nat) (a : Fp) (c : Nat) : Fp :=
  match a.num with
  | .fin n m e =>
    let x := m * 2 ^ 80
    toFp32 mode (.fin n (2 * (x / c) + (if x % c = 0 then 0 else 1)) (e - 81)) a.ovf
  | v => { num := v, ovf := a.ovf }

/-- Is one value less than another, −0 below +0 (R312). -/
def numLt (a b : Num) : Bool :=
  match a, b with
  | .nan, _ => false
  | _, .nan => false
  | .inf n, .inf m => n && !m
  | .inf n, _ => n
  | _, .inf m => !m
  | .fin n x e, .fin m y f =>
    let g := min e f
    let p := Num.at x e g n
    let q := Num.at y f g m
    decide (p < q) || (decide (p = q) && x == 0 && y == 0 && n && !m)

/-- MAX and MIN (R312). -/
def fpPick (mx : Bool) (a b : Fp) : Fp :=
  let o := a.spoils b
  match a.num, b.num with
  | .nan, _ => { num := .nan, ovf := o }
  | _, .nan => { num := .nan, ovf := o }
  | _, _ => if numLt a.num b.num = mx then b else a

/-- Combine two values under ROP: 0 SUM, 1 MAX, 2 MIN. -/
def fpCombine (rop mode : Nat) (a b : Fp) : Fp :=
  if rop = 0 then fpAdd mode a b else fpPick (rop == 1) a b

/-- A single term of a SUM: one that is exactly zero is −0 under RDN (R311). -/
def loneTerm (rop mode : Nat) (x : Fp) : Fp :=
  match x.num with
  | .fin _ 0 _ => if rop = 0 ∧ mode = 3 then { x with num := .zero true } else x
  | _ => x

/-- Combine values in an order and a grouping that free values choose (R314): two of them are taken out
and their combination put back, until one is left. The free values start at `c`. -/
def combineFree (free : Nat → Nat) (rop mode : Nat) : Nat → Nat → List Fp → Fp
  | _, _, [] => Fp.of (.zero false)
  | _, _, [x] => loneTerm rop mode x
  | 0, _, x :: _ => x
  | n + 1, c, x :: y :: t =>
    let vs := x :: y :: t
    let k := free c
    let i := k % vs.length
    let a := vs.getD i x
    let rest := vs.eraseIdx i
    let j := k / vs.length % rest.length
    let b := rest.getD j y
    combineFree free rop mode n (c + 1) (fpCombine rop mode a b :: rest.eraseIdx j)

/-- Combine values, and the free values used (R314). -/
def combine (rop mode c : Nat) (vs : List Fp) : Fp × Nat :=
  (combineFree Config.freeValue rop mode vs.length c vs, c + (vs.length - 1))

/-! ### The column window (R304, R305) -/

/-- The weight of the window's last bit is 2^-286. -/
abbrev windowExp : Int := -286

/-- The products of one pass, summed exactly and rounded once to FP32 (R304, R305). -/
def passSum (mode : Nat) (ps : List Num) : Fp :=
  if ps.any (fun p => p == .nan) then Fp.of .nan
  else if ps.any (fun p => p == .inf false) then
    (if ps.any (fun p => p == .inf true) then Fp.of .nan else Fp.of (.inf false))
  else if ps.any (fun p => p == .inf true) then Fp.of (.inf true)
  else
    let t := ps.foldl (fun (acc : Int) p =>
      match p with
      | .fin n m e => if windowExp ≤ e then acc + Num.at m e windowExp n
                      else acc + (if n then -((m / 2 ^ (windowExp - e).toNat : Nat) : Int) else ((m / 2 ^ (windowExp - e).toNat : Nat) : Int))
      | _ => acc) 0
    if t = 0 then
      let allNeg := !ps.isEmpty && ps.all (fun p => match p with | .fin n m _ => n && m == 0 | _ => false)
      Fp.of (.zero (allNeg || mode == 3))
    else toFp32 mode (.fin (decide (t < 0)) t.natAbs windowExp) false

/-- Cut a list into runs of `n`. -/
def chunksOf {α : Type} (n : Nat) (xs : List α) : List (List α) :=
  (List.range ((xs.length + n - 1) / n)).map (fun i => (xs.drop (n * i)).take n)

/-- A column product: passes of `run` products, added with the further terms in a free order (R304,
R306, R314). -/
def columnSum (mode run c : Nat) (ps : List Num) (extra : List Fp) : Fp × Nat :=
  combine 0 mode c ((chunksOf run ps).map (passSum mode) ++ extra)

/-! ### Writing values (R309, R310) -/

/-- What a write of values adds to the counters: overflows and NaNs (R310). -/
structure WrCount where
  ovf : Nat
  nan : Nat
  deriving DecidableEq, Repr

/-- Is an encoding a NaN of its format. -/
def isNanEnc (f : Fmt) (v : Nat) : Bool := widenF f v == .nan

/-- Convert an FP32 value to a type and lay out its bytes; with them, whether it shows an overflow, here or in a rounding
before (R310), and whether it is NaN. -/
def putValue (t mode : Nat) (sat : Bool) (x : Fp) : List Byte × Bool × Bool :=
  let f := tyFmt t
  let r := narrow f mode sat x.num
  let top := [f.maxFin false, f.maxFin true] ++ (if f.ieee then [f.inf false, f.inf true] else [])
  let lost := x.ovf && (isNanEnc f r.1 || top.contains r.1)
  (leBytes (tySize t) r.1, lost || r.2, isNanEnc f r.1)

/-- Convert a row of values. -/
def putValues (t mode : Nat) (sat : Bool) (xs : List Fp) : List Byte × WrCount :=
  let rs := xs.map (putValue t mode sat)
  (rs.flatMap (·.1),
    { ovf := (rs.filter (·.2.1)).length, nan := (rs.filter (·.2.2)).length })

/-- Element `i` of a byte string in a type. -/
def elemAt (t : Nat) (bs : List Byte) (i : Nat) : Nat := leAt bs (i * tySize t) (tySize t)

/-- The values of a byte string in a type. -/
def elems (t n : Nat) (bs : List Byte) : List Num := (chunksOf (tySize t) (bs.take (n * tySize t))).map (fun b => widenT t (leVal b))

/-! ### Integers (R312, R313) -/

/-- A 32-bit value as a two's-complement integer. -/
def i32 (v : Nat) : Int := if 2 ^ 31 ≤ v % 2 ^ 32 then (v % 2 ^ 32 : Int) - 2 ^ 32 else (v % 2 ^ 32 : Int)

/-- An integer as 32 bits. -/
def toI32 (v : Int) : Nat := (v % 2 ^ 32).toNat

/-- INT32 SUM, MAX and MIN (R312, R313). -/
def intCombine (rop a b : Nat) : Nat :=
  if rop = 0 then (a + b) % 2 ^ 32
  else if rop = 1 then (if i32 a < i32 b then b else a)
  else (if i32 b < i32 a then b else a)

end Sys2Proof.Machine
end

