-- ==== Sys2Proof/Machine/Flash.lean ====
section
/-! DEFINITION. The flash and the records the device keeps in it (R388 to R391, R429 to R431): sectors
and programming, the repair map, the health history, and the degraded states (R387). -/

namespace Sys2Proof.Machine

/-! ### Bytes of the flash (R430) -/

/-- A byte of the flash; erased flash reads 0xFF. -/
def State.flashByte (s : State) (a : Nat) : Byte := tget 0xFF s.boot.flash a

/-- `n` bytes of the flash. -/
def State.flashRead (s : State) (a n : Nat) : List Byte := (List.range n).map (fun i => s.flashByte (a + i))

/-- Program bytes. -/
def State.flashWrite (s : State) (a : Nat) (bs : List Byte) : State :=
  let f := bs.zipIdx.foldl (fun f (b, i) => tset 0xFF f (a + i) b) s.boot.flash
  { s with boot := { s.boot with flash := f } }

/-- Erase a region: it reads 0xFF. -/
def State.flashErase (s : State) (a n : Nat) : State :=
  { s with boot := { s.boot with flash := tclear s.boot.flash a (a + n) } }

/-- Write a record of a ring whose records share 4 KiB sectors: a record that begins a sector erases it
first (R430). -/
def State.flashRecord (s : State) (base size i : Nat) (bs : List Byte) : State :=
  let a := base + size * i
  let s := if a % 4096 = 0 then s.flashErase a 4096 else s
  s.flashWrite a (slice bs 0 size)

/-- Regions of Table 19.1. -/
abbrev flEpoch : Nat := 0x2000
abbrev flRmap : Nat := 0x10000
abbrev flHealth : Nat := 0x30000
abbrev flEvents : Nat := 0x130000
abbrev flCal : Nat := 0x230000
abbrev flSlotA : Nat := 0x400000
abbrev flSlotB : Nat := 0x4000000

/-! ### The repair map (R388 to R390) -/

/-- Do records of a kind carry PERSIST (R389). -/
def rmapPersist (kind detail : Nat) : Bool :=
  kind == 1 || kind == 7 || kind == 8 || kind == 9 || (kind == 4 && (detail == 4 || detail == 5))

/-- A repair map record (Table 16.6). -/
def rmapRecord (kind unit index time detail : Nat) : List Byte :=
  leBytes 1 kind ++ leBytes 1 (b2n (rmapPersist kind detail)) ++ leBytes 2 unit ++ leBytes 4 index
    ++ leBytes 8 time ++ leBytes 8 detail ++ leBytes 7 0 ++ leBytes 1 1

/-- Record `i` of the repair map. -/
def State.rmapAt (s : State) (i : Nat) : List Byte := s.flashRead (flRmap + 32 * i) 32

/-- Does a repair map record count, and is it CLEARED. -/
def rmapLive (r : List Byte) : Bool := leAt r 31 1 == 1
def rmapCleared (r : List Byte) : Bool := (leAt r 1 1).testBit 1

/-- The slots of the repair map that hold a record, in ascending order: those whose COMMIT byte is 0x01 (R388). -/
def State.rmapSlots (s : State) : List Nat :=
  s.boot.flash.filterMap (fun e =>
    if flRmap ≤ e.1 ∧ e.1 < flRmap + 0x20000 ∧ e.1 % 32 = 31 ∧ e.2 = 1 then some ((e.1 - flRmap) / 32) else none)

/-- The first number from `n` on that an ascending list leaves out. -/
def firstGap : Nat → List Nat → Nat
  | n, [] => n
  | n, i :: t => if i = n then firstGap (n + 1) t else n

/-- Is a repair recorded already: the latest record in force of its kind, unit and index says the same (R376). -/
def State.rmapHas (s : State) (kind unit index detail : Nat) : Bool :=
  let mine := (s.rmapSlots.map s.rmapAt).filter (fun r =>
    !rmapCleared r && leAt r 0 1 == kind % 256 && leAt r 2 2 == unit % 65536 && leAt r 4 4 == index % 2 ^ 32)
  let last := mine.foldl (fun (b : Option (List Byte)) r =>
    match b with
    | none => some r
    | some q => if leAt r 8 8 < leAt q 8 8 then some q else some r) none
  last.any (fun r => leAt r 16 8 == detail % 2 ^ 64)

/-- The oldest CLEARED record. -/
def State.rmapOldest (s : State) : Option Nat :=
  (s.rmapSlots.filter (fun i => rmapLive (s.rmapAt i) && rmapCleared (s.rmapAt i))).foldl
    (fun (b : Option Nat) i =>
      match b with
      | none => some i
      | some j => if leAt (s.rmapAt i) 8 8 < leAt (s.rmapAt j) 8 8 then some i else b) none

/-- Record a repair that the map does not show yet (R376), in the first slot without a record. A full map takes the place of
its oldest CLEARED record; with none, FULL is set, EV_RMAP_FULL raised, and the repair is not recorded (R390). -/
def State.rmap (s : State) (kind unit : Nat) (index : Nat := 0) (detail : Nat := 0) : State :=
  let r := rmapRecord kind unit index s.now detail
  let n := firstGap 0 s.rmapSlots
  if s.rmapHas kind unit index detail then s
  else if n < 4096 then (s.flashWrite (flRmap + 32 * n) r).wr .EVT_RMAP_CNT_RECORDS (s.rmapSlots.length + 1)
  else
    match s.rmapOldest with
    | some i => s.flashWrite (flRmap + 32 * i) r
    | none => (s.wr .EVT_RMAP_CNT_FULL 1).event .rmapFull

/-! ### The health history (R391) -/

/-- A health-history record. -/
def State.healthBytes (s : State) : List Byte :=
  leBytes 8 s.now
    ++ (List.range 36).flatMap (fun d => leBytes 2 (s.rd .SCN_DIE_SCORE_SCORE d))
    ++ (List.range 36).flatMap (fun d => leBytes 1 (s.rd .RGF_DIE_STAT_ROLE d))
    ++ (List.range 36).flatMap (fun d => leBytes 1 (min 255 (tget 0 s.tel.healthFails d)))
    ++ (List.range 32).flatMap (fun n => leBytes 1 (min 255 (tget 0 s.tel.healthUe n)))
    ++ (List.range 18).flatMap (fun i =>
        leBytes 1 (s.rd .RGF_DIE_STAT_REPCOL (2 * i) + 16 * s.rd .RGF_DIE_STAT_REPCOL (2 * i + 1)))
    ++ leBytes 1 (s.rd .SWC_PLANE_STAT_N_ACTIVE)
    ++ leBytes 1 (((List.range 4).map (fun n => if s.rcv.ctOut.contains n then 0 else 2 ^ n)).sum)
    ++ leBytes 4 (s.rd .EVT_DEGRADED_STATES) ++ leBytes 47 0 ++ leBytes 1 1

/-- Write a health-history record; the counts since the last record begin again. -/
def State.healthLog (s : State) : State :=
  let s := s.flashRecord flHealth 256 (s.tel.healthNext % 4096) s.healthBytes
  { s with tel := { s.tel with healthNext := s.tel.healthNext + 1, healthUe := [], healthFails := [] } }

/-! ### Degraded states (R387) -/

/-- EVT_DEGRADED as it becomes: where it changes, cause DEGRADED, EV_DEGRADED and a health-history record
(R387, R391, Table 21.7). -/
def State.setDegraded (s : State) (b : Nat) (v : Bool) : State :=
  let old := s.rd .EVT_DEGRADED_STATES
  let new := setBit old b v
  if new = old then s
  else ((((s.wr .EVT_DEGRADED_STATES new).irq 3).event .degraded 0 0 new)).healthLog

end Sys2Proof.Machine
end

