-- ==== Sys2Proof/Machine/Pool.lean ====
section
/-! DEFINITION. The pool: address map and homes (R164 to R167), extents (R175), stored lines with
poison, symbol errors and suspect bits (R183 to R187), and the device's mode tests. -/

namespace Sys2Proof.Machine

/-! ### Modes -/

/-- Tenant state 1 is ASSIGNED (Table 18.1). -/
def State.assigned (s : State) : Bool := s.rd .SEC_TEN_STAT_STATE == 1

/-- Containment is in force (R383). -/
def State.contained (s : State) : Bool := s.on .EVT_CONTAIN_ACTIVE

/-- The power state is RUN and no entry runs (Table 20.1). -/
def State.running (s : State) : Bool :=
  s.rd .PWR_STAT_STATE == 0 && !s.power.inReset && !s.power.offState && s.power.entering.isNone

/-- Does the device sit in a low-power state, its entry complete and no wake begun. -/
def State.asleep (s : State) : Bool :=
  s.rd .PWR_STAT_STATE != 0 && s.power.entering.isNone && !s.power.waking && !s.power.inReset && !s.power.offState

/-- A wake event of Table 20.3, by its bit of PWR_WAKE_SRC: it begins a wake, or joins the one in progress
(R455, R458). -/
def State.wake (s : State) (b : Nat) : State :=
  if s.asleep then
    { (s.wr .PWR_WAKE_SRC_SRC (2 ^ b)).wr .PWR_STAT_BUSY 1 with power := { s.power with waking := true } }
  else if s.power.waking then s.wr .PWR_WAKE_SRC_SRC (setBit (s.rd .PWR_WAKE_SRC_SRC) b true)
  else s

/-! ### Homes (R166) -/

/-- The exclusive-or of the eight nibbles of a page number (R166). -/
def nibbleFold (p : Nat) : Nat :=
  (p % 16) ^^^ (p / 16 % 16) ^^^ (p / 16 ^ 2 % 16) ^^^ (p / 16 ^ 3 % 16) ^^^ (p / 16 ^ 4 % 16)
    ^^^ (p / 16 ^ 5 % 16) ^^^ (p / 16 ^ 6 % 16) ^^^ (p / 16 ^ 7 % 16)

/-- The home memory complex of a page (R166). -/
def State.homeOfPage (s : State) (pg : Nat) : Nat := nibbleFold pg ^^^ s.rd .POOL_CTL_HSEED

/-- The home of an address: the hash of R166, and the block's complex in the control window (R169). -/
def State.homeOf (s : State) (a : Nat) : Nat :=
  if inWindow a then winAgent a % 16 else s.homeOfPage (pageOf a)

/-- Is a page of the Oasis range (R167). -/
def oasisPage (pg : Nat) : Bool := decide (pg < 2 ^ 25)

/-- Is a page of some tray's Erg range (Table 7.1). -/
def ergPage (pg : Nat) : Bool := decide (2 ^ 25 ≤ pg ∧ pg < 0x62000000)

/-- The tray of an Erg page, and the tray-local address of a pool address (R167). -/
def trayOf (pg : Nat) : Nat := (pg - 2 ^ 25) / 2 ^ 26
def trayLocal (a : Nat) : Nat := (a - 0x020000000000) % 0x040000000000

/-- The tray ports of the port map in ascending order (R164). -/
def State.trayPorts (s : State) : List Nat :=
  (List.range 320).filter (fun p => s.rd .PRT_CFG_MODE p == 2)

/-- The port of tray `t`: the t-th tray port of the port map (R164). -/
def State.trayPort (s : State) (t : Nat) : Option Nat := (s.trayPorts)[t]?

/-- The tray of a tray port. -/
def State.trayOfPort (s : State) (p : Nat) : Option Nat := (s.trayPorts).findIdx? (· == p)

/-- The present capacity of tray `t` in bytes, capped at 4 TiB; 0 while its port is not bound (R164). -/
def State.trayCapacity (s : State) (t : Nat) : Nat :=
  match s.trayPort t with
  | some p => if s.on .PRT_PFTL_STAT_BOUND p then min (s.port p).capacity 4096 * 2 ^ 30 else 0
  | none => 0

/-- Is a page present under R164 and R165. -/
def State.pagePresent (s : State) (pg : Nat) : Bool :=
  if oasisPage pg then true
  else if ergPage pg then decide ((pg - 2 ^ 25) % 2 ^ 26 * 65536 < s.trayCapacity (trayOf pg))
  else false

/-- The link state of the port of a page's tray is UP (R199), and the tray is written (R416). -/
def State.trayUp (s : State) (pg : Nat) : Bool :=
  match s.trayPort (trayOf pg) with
  | some p => s.rd .PRT_LINK_STAT_LSTATE p == 2 && s.rd .PRT_PFTL_STAT_STATE p == 2 && (s.port p).written
  | none => false

/-! ### Extents (R175) -/

/-- A FREE extent record. -/
def Extent.free : Extent :=
  { state := 0, base := 0, len := 0, slice := 0, coh := false, cg := 0, pub := false, place := 0,
    ergc := false, owned := false, owner := 0, gen := 0 }

/-- Does an extent hold an address. -/
def Extent.holds (x : Extent) (a : Nat) : Bool :=
  decide (x.state ≠ 0 ∧ x.base * 2 ^ 21 ≤ a ∧ a < (x.base + x.len) * 2 ^ 21)

/-- The extent that holds an address, with its index. -/
def State.extentAt (s : State) (a : Nat) : Option (Nat × Extent) :=
  s.pool.extents.find? (fun e => e.2.holds a)

/-- An extent by its index. -/
def State.extent (s : State) (i : Nat) : Extent := tget Extent.free s.pool.extents i

/-- Change one extent record. -/
def State.setExtent (s : State) (i : Nat) (x : Extent) : State :=
  { s with pool := { s.pool with extents := tset Extent.free s.pool.extents i x } }

/-- Does a range lie in one ACTIVE extent that passes a test. -/
def State.inActive (s : State) (lo len : Nat) (ok : Extent → Bool) : Bool :=
  s.pool.extents.any (fun e => e.2.state == 1 && e.2.holds lo && e.2.holds (lo + len - 1) && ok e.2)

/-- Pages of the Oasis range that an extent covers. -/
def Extent.isOasis (x : Extent) : Bool := decide (x.base < 2 ^ 20)

/-! ### Lines (R183 to R187) -/

/-- The bytes of a line. -/
def State.lineBytes (s : State) (l : Nat) : List Byte := memRead s.pool.mem (64 * l) 64

/-- Is a line poisoned. -/
def State.linePsn (s : State) (l : Nat) : Bool := tget false s.pool.psn l

/-- Is the suspect bit of a line's page set (R187). -/
def State.lineSusp (s : State) (l : Nat) : Bool := tget false s.pool.susp (l / 1024)

/-- The tweak of the next block: multiplied by x in GF(2^128), as XTS has it (IEEE 1619, R188). -/
def xtsNext (t : BitVec 128) : BitVec 128 := (t <<< 1) ^^^ (if t.msb then 0x87 else 0)

/-- A line through XTS block by block, with `f` the cipher of the data half of the key pair or its inverse: the tweak of the
first of its four AES blocks is the line number through the cipher of the other half (R188, R411; log entry 7). -/
def xtsLine (f : BitVec 256 → BitVec 128 → BitVec 128) (pair l : Nat) (bs : List Byte) : List Byte :=
  let t0 := Config.aes (BitVec.ofNat 256 (pair / 2 ^ 256)) (BitVec.ofNat 128 l)
  let block (j : Nat) (t : BitVec 128) : List Byte :=
    leBytes 16 (f (BitVec.ofNat 256 pair) (BitVec.ofNat 128 (leAt bs (16 * j) 16) ^^^ t) ^^^ t).toNat
  block 0 t0 ++ block 1 (xtsNext t0) ++ block 2 (xtsNext (xtsNext t0)) ++ block 3 (xtsNext (xtsNext (xtsNext t0)))

/-- The bytes of a line as they are stored and sent to a tray: encrypted under the tenant's key pair, with the line number as
tweak (R188). -/
def State.encrypt (s : State) (l : Nat) (bs : List Byte) : List Byte :=
  xtsLine (fun k => Config.aes k) (s.boot.keys.cur.getD 0) l bs

/-- The plaintext of stored bytes of a line (R188). -/
def State.decrypt (s : State) (l : Nat) (bs : List Byte) : List Byte := xtsLine (fun k => (Config.aes k).symm) (s.boot.keys.cur.getD 0) l bs

/-- META of a stored line (Table 7.8): PSN, and seven reserved bits of zero. -/
def State.lineMeta (s : State) (l : Nat) : BitVec 8 := if s.linePsn l then 0x80 else 0

/-- The 32 side bits written with a line: the check symbols over its ciphertext and META, and META (Table 7.8). Symbols that
have gone bad since are counted in `Pool.symErr` (R184). -/
def State.sideBits (s : State) (l : Nat) : BitVec 32 :=
  Config.checkBits (BitVec.ofNat 512 (leVal (s.encrypt l (s.lineBytes l)))) (s.lineMeta l) ++ s.lineMeta l

/-- Set or clear a line's PSN. -/
def State.setPsn (s : State) (l : Nat) (v : Bool) : State :=
  { s with pool := { s.pool with psn := tset false s.pool.psn l v } }

/-- Set or clear a page's suspect bit (R187). -/
def State.setSusp (s : State) (pg : Nat) (v : Bool) : State :=
  { s with pool := { s.pool with susp := tset false s.pool.susp pg v } }

/-- The symbols in error of a stored line are gone. -/
def State.clearSym (s : State) (l : Nat) : State :=
  { s with pool := { s.pool with symErr := tdel s.pool.symErr l } }

/-- Write bytes of a line at an offset. -/
def State.putLine (s : State) (l off : Nat) (bs : List Byte) : State :=
  s.withMem (memWrite s.pool.mem (64 * l + off) bs)

/-- Sixty-four bytes of all ones. -/
def allOnes : List Byte := List.replicate 64 0xFF

/-- An error a unit has met; it is reported to the sequencer at the end of the command (R372, R374). -/
def State.raise (s : State) (cls unit : Nat) : State :=
  { s with rcv := { s.rcv with raised := s.rcv.raised ++ [StandingFault.mk cls unit] } }

/-- Key of a frame of a home. -/
def frameKey (k f : Nat) : Nat := k * 2 ^ 21 + f

/-- The frame that holds a line now: the natural frame of an Oasis page, or the frame of its page's record
(R167, R194). -/
def State.frameOfLine (s : State) (l : Nat) : Nat :=
  let pg := l / 1024
  frameKey (s.homeOfPage pg) (match tfind s.tier.pages pg with | some x => x.frame | none => pg / 16)

/-- The stack of a frame, by the frame's key (R167). -/
def frameStack (f : Nat) : Nat := 2 * (f / 2 ^ 21) + f % 2

/-- The row of its stack in which a line lies (R378; log entry 31). -/
def State.rowOfLine (s : State) (l : Nat) : Nat := (Config.stackRow (s.frameOfLine l) (l % 1024)).toNat

/-- A line's row calls for its repair: an error of class LINE_UE of its frame (R378, Table 16.2). -/
def State.raiseRow (s : State) (l : Nat) : State :=
  let e := (s.frameOfLine l, s.rowOfLine l)
  ({ s with rcv := { s.rcv with rows := if s.rcv.rows.contains e then s.rcv.rows else s.rcv.rows ++ [e] } }).raise 0x02 e.1

/-- A line was corrected: 16 corrected lines of a row within 2^20 epochs call for its repair (R378). -/
def State.countCe (s : State) (l : Nat) : State :=
  let f := frameStack (s.frameOfLine l) * 2 ^ 32 + s.rowOfLine l
  let ts := ((tget [] s.rcv.rowErr f).filter (fun e => decide (s.epoch < e + 2 ^ 20))) ++ [s.epoch]
  let set (s : State) (v : List Nat) : State := { s with rcv := { s.rcv with rowErr := tset [] s.rcv.rowErr f v } }
  let s := s.bump .POOL_CE_COUNT
  if ts.length < 16 then set s ts else (set s []).raiseRow l

/-- The Oasis copy of a line is about to change without a write to it: the tray of a clean promoted page keeps the line as
it was (R194). -/
def State.keepCopy (s : State) (l : Nat) : State :=
  match tfind s.tier.pages (l / 1024) with
  | some x =>
    if ergPage (l / 1024) ∧ x.loc = 1 ∧ !x.dirty ∧ (tfind s.tier.shadow l).isNone then
      { s with tier := { s.tier with shadow := tins s.tier.shadow l (s.lineBytes l, s.linePsn l) } }
    else s
  | none => s

/-- A line found uncorrectable: rewritten as 0xFF with PSN 1, POOL_UE counted, EV_POOL_UE raised
(R185), and the health history's count of its stack (R391). -/
def State.poisonUe (s : State) (l : Nat) : State :=
  let st := frameStack (s.frameOfLine l)
  let s := ((((s.keepCopy l).clearSym l).putLine l 0 allOnes)).setPsn l true
  let s := { s with tel := { s.tel with healthUe := tset 0 s.tel.healthUe st (tget 0 s.tel.healthUe st + 1) } }
  ((s.bump .POOL_UE_COUNT).event .poolUe 0 (64 * l) 0).raiseRow l

/-- Symbols of a stored line in error: those gone bad, and one for each failed data pin of its stack (R183, R380). -/
def State.badSyms (s : State) (l : Nat) : Nat :=
  tget 0 s.pool.symErr l + tget 0 s.rcv.pins (frameStack (s.frameOfLine l))

/-- Sixty-four free bytes: what a line with three or more symbols in error returns (R184). -/
def State.freeLine (s : State) : List Byte × State :=
  let r := s.free
  (leBytes 64 r.1, r.2)

/-- What the code does with a line on a read (R184, R185): corrects one symbol, poisons two; for three
or more no outcome is guaranteed, so a free value chooses, and wrong data is free data. The result
is the bytes the access sees (`none`: those stored). -/
def State.checkLine (s : State) (l : Nat) : Option (List Byte) × State :=
  match s.badSyms l with
  | 0 => (none, s)
  | 1 => (none, (s.clearSym l).countCe l)
  | 2 => (none, s.poisonUe l)
  | _ =>
    let r := s.free
    if r.1 % 3 = 0 then (none, r.2.poisonUe l)
    else if r.1 % 3 = 1 then
      let q := r.2.freeLine
      (some q.1, (((q.2.keepCopy l).clearSym l).putLine l 0 q.1).countCe l)
    else
      let q := r.2.freeLine
      (some q.1, q.2)

/-- A read of a line at its ordering point: its bytes and PSN (R185). -/
def State.readLine (s : State) (l : Nat) : (List Byte × Bool) × State :=
  let stored := s.linePsn l && decide (s.badSyms l ≤ 1)
  let r := s.checkLine l
  ((r.1.getD (r.2.lineBytes l), r.2.linePsn l),
    if stored then r.2.bump .POOL_POISON_RD_COUNT else r.2)

/-- A write of `bs` at `off` of a line, carrying PSN or not, and the status of its CMP (Table 7.9). -/
def State.writeLine (s : State) (l off : Nat) (bs : List Byte) (psn : Bool) : Nat × State :=
  if bs.length = 64 then
    (stOK, ((s.clearSym l).putLine l 0 bs).setPsn l psn)
  else
    let s := (s.checkLine l).2
    if psn then (stOK, (s.putLine l off bs).setPsn l true)
    else if s.linePsn l then (stPOISON, s.putLine l off bs)
    else (stOK, s.putLine l off bs)

/-! ### Atomics (R56, Table 2.6) -/

/-- A value as a two's-complement or unsigned integer of `w` bits. -/
def asInt (signed : Bool) (w v : Nat) : Int :=
  if signed ∧ 2 ^ (w - 1) ≤ v % 2 ^ w then (v % 2 ^ w : Int) - 2 ^ w else (v % 2 ^ w : Int)

/-- The new value of an atomic: old value, operand, and the compare value of CAS (Table 2.6). -/
def atomicOp (atop : Nat) (signed : Bool) (w old opd cmp : Nat) : Nat :=
  match atop with
  | 0 => (old + opd) % 2 ^ w
  | 1 => if asInt signed w opd < asInt signed w old then opd else old
  | 2 => if asInt signed w old < asInt signed w opd then opd else old
  | 3 => old &&& opd
  | 4 => old ||| opd
  | 5 => old ^^^ opd
  | 6 => opd
  | _ => if old = cmp then opd else old

/-- The operand and compare value of an AT (R57). -/
def atOperand (m : Msg) : Nat := leAt m.payload 0 (mSize m)
def atCompare (m : Msg) : Nat := leAt m.payload 8 (mSize m)

/-! ### Slices and quotas (R182) -/

/-- Change USE_OASIS of a slice by some pages, up or down (R182, R201). -/
def State.chargeOasis (s : State) (slc : Nat) (n : Nat) : State := s.advance .POOL_USE_OASIS_USE slc 0 n
def State.creditOasis (s : State) (slc : Nat) (n : Nat) : State := s.lower .POOL_USE_OASIS_USE slc 0 n

/-- Would `n` more pages exceed the Oasis quota of a slice (R182, R199). -/
def State.oasisOver (s : State) (slc n : Nat) : Bool :=
  decide (s.rd .POOL_QUOTA_OASIS_MAX slc < s.rd .POOL_USE_OASIS_USE slc + n)

end Sys2Proof.Machine
end

