-- ==== Sys2Proof/Machine/Fabric.lean ====
section
/-! DEFINITION. The fabric: sources and their performed frontier (R49 to R52, R79 to R81), ingress
checks (R64), planes and crossing numbers (R101 to R103), and final responses (R62, R65, R80). -/

namespace Sys2Proof.Machine

/-! ### Dies (IN_RESET numbering: SP 0-7, PD 8-43, MC 44-59, RG 60-95, CT 96-99) -/

/-- The die of a port. -/
def State.portDie (s : State) (p : Nat) : Nat := 8 + s.rd .PRT_CFG_DIE p
/-- The die of a memory complex. -/
def mcDie (k : Nat) : Nat := 44 + k
/-- The die of an RGF die's number. -/
def rgDie (d : Nat) : Nat := 60 + d

/-- The subscriber of a port (R132). -/
def State.subOf (s : State) (p : Nat) : Nat := s.tmA .TM_PORT_SUB_SUB p

/-! ### Ports and agents -/

/-- Is a port bound and ACTIVE. -/
def State.active (s : State) (p : Nat) : Bool := s.rd .PRT_PFTL_STAT_STATE p == 2

/-- The agent ID bound to a port. -/
def State.agentId (s : State) (p : Nat) : Nat := s.rd .PRT_PFTL_STAT_AGENT_ID p

/-- The port an agent ID is bound to. -/
def State.portOfAgent (s : State) (id : Nat) : Option Nat :=
  (List.range 320).find? (fun p => s.on .PRT_PFTL_STAT_BOUND p && s.agentId p == id)

/-! ### Planes (R101, R102) -/

/-- The plane slot of a message (R101, R102). -/
def State.planeSlot (s : State) (src seq xsn : Nat) : Nat :=
  let n := s.rd .SWC_PLANE_STAT_N_ACTIVE
  let v := if src = 0 ∧ seq = 0 then xsn else (seq ^^^ (seq / 2)) ^^^ src
  (v + s.rd .SWC_CTL_SEED) % n

/-- The physical plane in a slot. -/
def State.planeIn (s : State) (h : Nat) : Nat := s.rd .SWC_PLANE_MAP_SLOT 0 h

/-- Has a plane failed. -/
def State.planeFailed (s : State) (n : Nat) : Bool := (s.rd .SWC_PLANE_STAT_FAILED).testBit n

/-- Does the plane of a request carry messages: a request whose slot's plane has failed waits at its origin (Table 4.3,
step 2; R123). A MSG takes its crossing number first and waits with it. -/
def State.planeUp (s : State) (m : Msg) : Bool :=
  mOpc m == opMSG || !s.planeFailed (s.planeIn (s.planeSlot (mSrc m) (mSeq m) 0))

/-- A message leaves a die for a port: it takes the next XSN toward that port die and its plane
(R101 to R103). -/
def State.cross (s : State) (org p cls sub : Nat) (m : Msg) (ing : Option Nat) (cut : Bool) : State :=
  let dst := s.portDie p
  let k := Nat.pair org dst
  let xsn := tget 0 s.sw.xsnNext k
  let pl := s.planeIn (s.planeSlot (mSrc m) (mSeq m) xsn)
  let c : Cross := { org := org, dst := dst, xsn := xsn, plane := pl, point := p, cls := cls, sub := sub, msg := m,
                     mcast := none, ing := ing, cut := cut }
  { s with sw := { s.sw with cross := s.sw.cross ++ [c],
                             xsnNext := tset 0 s.sw.xsnNext k ((xsn + 1) % 65536) } }

/-- The copies of a multicast message for the ports of one port die cross under one number (R103, R109). -/
def State.crossCopies (s : State) (cs : List Cross) : State :=
  match cs with
  | [] => s
  | c :: _ =>
    let k := Nat.pair c.org c.dst
    let xsn := tget 0 s.sw.xsnNext k
    let cs := cs.map (fun x => { x with xsn := xsn })
    { s with sw := { s.sw with
        cross := s.sw.cross ++ cs
        mcast := s.sw.mcast.map (fun e => if c.mcast = some e.n then { e with copies := e.copies ++ cs } else e)
        xsnNext := tset 0 s.sw.xsnNext k ((xsn + 1) % 65536) } }

/-- Slots of the egress region that a port uses, those on the way to it among them (R99). -/
def State.egrLoad (s : State) (p : Nat) : Nat :=
  ((s.sw.egr.filter (fun x => x.point == p)).map (fun x => mSlots x.msg)).sum
    + (((s.sw.cross ++ s.sw.xhold).filter (fun c => c.point == p)).map (fun c => mSlots c.msg)).sum

/-- The slots of a port die's egress region (R96). -/
abbrev egrRegion : Nat := 524288

/-- The guarantee of each port in it (R99). -/
abbrev egrGuarantee : Nat := 4096

/-- The ports of a port die. -/
def State.diePorts (s : State) (d : Nat) : List Nat :=
  (List.range 320).filter (fun p => s.rd .PRT_CFG_MODE p != 0 && s.rd .PRT_CFG_DIE p == d)

/-- Is there room for `n` more slots of a port in its die's egress region: within its guarantee, or up to
SWC_EGR_CAP out of what no port is guaranteed (R99). -/
def State.egrRoom (s : State) (p n : Nat) : Bool :=
  let l := s.egrLoad p + n
  decide (l ≤ s.rd .SWC_EGR_CAP_CAP) &&
    (decide (l ≤ egrGuarantee) ||
      (let ps := s.diePorts (s.rd .PRT_CFG_DIE p)
       let used := ((ps.filter (· != p)).map (fun q => s.egrLoad q - egrGuarantee)).sum + (l - egrGuarantee)
       decide (used + egrGuarantee * ps.length ≤ egrRegion)))

/-- Do two messages wait in one virtual output queue: of one die, toward one port, in one class (R98, R100). -/
def Cross.sameQueue (c d : Cross) : Bool := c.org == d.org && c.point == d.point && c.cls == d.cls

/-- Has the sequence from a die to a port die a free crossing number: the reorder window is 4,096 (R103). -/
def State.xsnOpen (s : State) (org dst : Nat) : Bool :=
  let k := Nat.pair org dst
  decide ((tget 0 s.sw.xsnNext k + 65536 - tget 0 s.sw.xsnDone k) % 65536 < 4096)

/-- Where a message stands that its own port die made and that crosses no plane. -/
abbrev noPlane : Nat := 17

/-- Send a message of a die to a port. While the port is at its egress limit no plane grants it further
messages, and they wait at their origin, behind those of their own virtual output queue alone (R98, R99); so they do while
4,096 of their numbers are on the way (R103). -/
def State.send (s : State) (org p cls sub : Nat) (m : Msg) (ing : Option Nat := none) (cut : Bool := false) : State :=
  if s.sw.voq.any (fun c => c.org == org && c.point == p && c.cls == cls) || !s.egrRoom p (mSlots m)
      || !s.xsnOpen org (s.portDie p) then
    let c : Cross := { org := org, dst := s.portDie p, xsn := 0, plane := 0, point := p, cls := cls, sub := sub, msg := m,
                       mcast := none, ing := ing, cut := cut }
    { s with sw := { s.sw with voq := s.sw.voq ++ [c] } }
  else s.cross org p cls sub m ing cut

/-- Is there room for a message that waits: for a multicast message, at every port of the die it goes to. -/
def State.voqRoom (s : State) (c : Cross) : Bool :=
  (c.plane == noPlane || s.xsnOpen c.org c.dst) &&
  match c.mcast with
  | none => s.egrRoom c.point (mSlots c.msg)
  | some n => (s.sw.voq.filter (fun x => x.mcast == some n && x.dst == c.dst)).all (fun x => s.egrRoom x.point (mSlots x.msg))

/-- The oldest message of a virtual output queue that there is room for; `before` are those passed over. -/
def State.nextVoq (s : State) (before : List Cross) : List Cross → Option Cross
  | [] => none
  | c :: t => if !before.any (fun d => d.sameQueue c) && s.voqRoom c then some c else s.nextVoq (before ++ [c]) t

/-- A message goes into the egress queue of a port. A port die keeps one copy of a multicast message for all
its ports (R109). -/
def State.toEgress (s : State) (p cls sub : Nat) (m : Msg) (mcast : Option Nat := none) (plane : Nat := 0)
    (cut : Bool := false) : State :=
  let q : QMsg := { n := s.nextId, point := p, cls := cls, sub := sub, msg := m, time := s.now, mcast := mcast,
                    plane := plane, cut := cut, cyc := s.cycle }
  let d := s.rd .PRT_CFG_DIE p
  let copy := mcast.isSome && s.sw.egr.any (fun x => x.mcast == mcast && s.portDie x.point == s.portDie p)
  ({ s with sw := { s.sw with egr := s.sw.egr ++ [q] }, nextId := s.nextId + 1 }).advance
    .SWC_BUF_EGR_USED d 0 (if copy then 0 else mSlots m)

/-- A message that a port die itself makes for one of its ports enters that port's egress region, as soon as there is room for
it (R96, R99). -/
def State.sendLocal (s : State) (p cls sub : Nat) (m : Msg) : State :=
  let d := s.portDie p
  if s.sw.voq.any (fun c => c.org == d && c.point == p && c.cls == cls) || !s.egrRoom p (mSlots m) then
    let c : Cross := { org := d, dst := d, xsn := 0, plane := noPlane, point := p, cls := cls, sub := sub, msg := m,
                       mcast := none }
    { s with sw := { s.sw with voq := s.sw.voq ++ [c] } }
  else s.toEgress p cls sub m

/-- Messages that waited for a port's egress limit go on, in order; `n` bounds how many. -/
def State.grantVoq (s : State) (n : Nat) : State :=
  match n with
  | 0 => s
  | n + 1 =>
    match s.nextVoq [] s.sw.voq with
    | none => s
    | some c =>
      match c.mcast with
      | none =>
        let s := { s with sw := { s.sw with voq := s.sw.voq.erase c } }
        State.grantVoq (if c.plane = noPlane then s.toEgress c.point c.cls c.sub c.msg
          else s.cross c.org c.point c.cls c.sub c.msg c.ing c.cut) n
      | some k =>
        let here (x : Cross) : Bool := x.mcast == some k && x.dst == c.dst
        State.grantVoq (({ s with sw := { s.sw with voq := s.sw.voq.filter (fun x => !here x) } }).crossCopies
          (s.sw.voq.filter here)) n

/-- Entries of the multicast table of a plane (R110). -/
def State.mcastUsed (s : State) (pl : Nat) : Nat := (s.sw.mcast.filter (fun e => e.plane == pl)).length

/-- A message with the destination agent's ID in its DST (Table 2.4). -/
def toAgent (m : Msg) (id : Nat) : Msg :=
  { m with hdr := (m.hdr &&& ~~~(BitVec.ofNat 128 ((2 ^ 12 - 1) * 2 ^ 95))) ||| BitVec.ofNat 128 (id % 2 ^ 12 * 2 ^ 95) }

/-- One destination of a multicast message: its port, class and subscriber, and what is sent there. -/
structure Leg where
  port : Nat
  cls : Nat
  sub : Nat
  msg : Msg
  deriving DecidableEq, Repr

/-- One message to several ports (R109): one multicast entry, one crossing per port die; the copies for a port die wait
at their origin while a port of it is at its egress limit (R99). A message that finds no free entry waits at its origin,
under plane number 16 (R110). Where the plane depends on the crossing number, it is the next one toward the first port's die
when the entry is taken, since one message takes one number for each port die and one plane (DESIGN CHOICE, log entry 74). -/
def State.sendLegs (s : State) (org : Nat) (ls : List Leg) : State :=
  match ls with
  | [] => s
  | l0 :: _ =>
    let dies := (ls.map (fun l => s.portDie l.port)).dedup
    let pl := s.planeIn (s.planeSlot (mSrc l0.msg) (mSeq l0.msg) (tget 0 s.sw.xsnNext (Nat.pair org (s.portDie l0.port))))
    let full := decide (4096 ≤ s.mcastUsed pl)
    let n := s.nextId
    let e : McEnt := { n := n, plane := if full then 16 else pl, count := ls.length, org := org }
    let copy (l : Leg) : Cross :=
      { org := org, dst := s.portDie l.port, xsn := 0, plane := if full then 16 else pl, point := l.port, cls := l.cls,
        sub := l.sub, msg := l.msg, mcast := some n }
    let s := if full then s.bump .SWC_MCAST_FULL_COUNT else s
    let s := { s with nextId := n + 1, sw := { s.sw with mcast := s.sw.mcast ++ [e] } }
    dies.foldl (fun s d =>
      let cs := (ls.filter (fun l => s.portDie l.port == d)).map copy
      if cs.any (fun c => s.sw.voq.any (fun x => x.sameQueue c) || !s.egrRoom c.point (mSlots c.msg)) || !s.xsnOpen org d then
        { s with sw := { s.sw with voq := s.sw.voq ++ cs } }
      else s.crossCopies cs) s

/-- One message to several ports, each copy with its agent in DST (R109). -/
def State.sendMulti (s : State) (org : Nat) (ps : List Nat) (cls sub : Nat) (m : Msg) : State :=
  s.sendLegs org (ps.map (fun p => { port := p, cls := cls, sub := sub, msg := toAgent m (s.agentId p) }))

/-- Multicast messages that wait for an entry of their plane take it, the oldest first (R110). -/
def State.mcastFill (s : State) : State :=
  (s.sw.mcast.filter (fun e => e.plane == 16)).foldl (fun s w =>
    match (s.sw.cross ++ s.sw.voq).find? (fun c => c.mcast == some w.n) with
    | none => s
    | some c =>
      let xsn := if s.sw.cross.contains c then c.xsn else tget 0 s.sw.xsnNext (Nat.pair c.org c.dst)
      let pl := s.planeIn (s.planeSlot (mSrc c.msg) (mSeq c.msg) xsn)
      if 4096 ≤ s.mcastUsed pl then s
      else
        let on (x : Cross) : Cross := if x.mcast = some w.n then { x with plane := pl } else x
        { s with sw := { s.sw with
            mcast := s.sw.mcast.map (fun e => if e.n = w.n then { e with plane := pl, copies := e.copies.map on } else e)
            cross := s.sw.cross.map on
            voq := s.sw.voq.map on } }) s

/-- A copy of a multicast message has been sent or flushed: the count falls, and at zero the entry is free (R109, R110). -/
def State.mcastDone (s : State) (n : Option Nat) : State :=
  match n with
  | none => s
  | some n =>
    let ms := (s.sw.mcast.map (fun e => if e.n = n then { e with count := e.count - 1 } else e)).filter (fun e => e.count != 0)
    ({ s with sw := { s.sw with mcast := ms } }).mcastFill

/-- Messages of one crossing number occupy their port die's egress region: one copy, whatever their ports (R96, R109). -/
def State.egrTake (s : State) (cs : List Cross) : State :=
  match cs with
  | [] => s
  | c :: _ => s.advance .SWC_BUF_EGR_USED (c.dst - 8) 0 (mSlots c.msg)

/-- Messages held for their order that are discarded there leave the region: one copy for each number (R96, R109). -/
def State.egrFree (s : State) (cs : List Cross) : State :=
  (cs.map (fun c => (c.org, c.dst, c.xsn, mSlots c.msg))).dedup.foldl (fun s e => s.lower .SWC_BUF_EGR_USED (e.2.1 - 8) 0 e.2.2.2) s

/-- They leave the region, or go from the reorder hold to their ports' queues. -/
def State.egrGive (s : State) (cs : List Cross) : State :=
  match cs with
  | [] => s
  | c :: _ => s.lower .SWC_BUF_EGR_USED (c.dst - 8) 0 (mSlots c.msg)

/-- A message leaves the egress queue of its port: its slots are free, and a multicast message is counted down
(R109). -/
def State.fromEgress (s : State) (x : QMsg) : State :=
  let s := { s with sw := { s.sw with egr := s.sw.egr.filter (fun y => y.n != x.n) } }
  let copy := x.mcast.isSome && s.sw.egr.any (fun y => y.mcast == x.mcast && s.portDie y.point == s.portDie x.point)
  (s.lower .SWC_BUF_EGR_USED (s.rd .PRT_CFG_DIE x.point) 0 (if copy then 0 else mSlots x.msg)).mcastDone x.mcast

/-! ### Sources (R49 to R52, R79, R80) -/

/-- An ingress message has been placed by the die that receives it; its slots may be acknowledged (R97). -/
def State.ingPlaced (s : State) (i : Option Nat) : State :=
  { s with sw := { s.sw with ing := s.sw.ing.map (fun x => if i = some x.n then { x with taken := true } else x) } }

/-- Is a sequence number performed or resolved: below the frontier, or recorded above it at the port
die or at a home (R79, R80, R90). -/
def Source.isDone (q : Source) (seq : Nat) : Bool :=
  seqBelow seq q.pf || q.above.contains seq || q.unreported.contains seq || q.canceled.contains seq

/-- Is a request with this number still unanswered. -/
def Source.isOpen (q : Source) (seq : Nat) : Bool :=
  q.outst.any (fun o => o.seq == seq && !o.answered)

/-- Move the frontier over the numbers recorded above it (R79); `n` bounds how many. -/
def Source.climb (q : Source) : Nat → Source
  | 0 => q
  | n + 1 =>
    if q.above.contains q.pf then
      Source.climb { q with
        above := q.above.filter (· != q.pf), pf := (q.pf + 1) % 2 ^ 20, tops := q.tops.filter (· != q.pf)
        newest := if q.newest == some q.pf then none else q.newest } n
    else q

/-- The port die learns that a number is performed or resolved (R79, R80). -/
def Source.settle (q : Source) (seq : Nat) : Source :=
  if seqBelow seq q.pf || q.above.contains seq then q
  else Source.climb { q with above := q.above ++ [seq] } (q.above.length + 1)

/-- How far a number is ahead of the frontier; the 65,536 numbers before the frontier are below it (R79). -/
def Source.ahead (q : Source) (seq : Nat) : Nat := (seq + 2 ^ 20 - q.pf % 2 ^ 20) % 2 ^ 20

/-- A request with this number has been received: the highest number, and what it leaves out below it (R52). -/
def Source.hear (q : Source) (seq : Nat) : Source :=
  let next := match q.newest with | none => q.pf | some n => (n + 1) % 2 ^ 20
  let higher := match q.newest with | none => true | some n => decide (q.ahead n < q.ahead seq)
  if seqBelow seq q.pf || !higher then q
  else { q with newest := some seq, tops := if next = seq then q.tops else q.tops ++ [seq] }

/-- Change a port's source side. -/
def State.updSource (s : State) (p : Nat) (f : Source → Source) : State :=
  s.updPort p (fun x => { x with srcq := f x.srcq })

/-- A port's source side. -/
def State.source (s : State) (p : Nat) : Source := (s.port p).srcq

/-- The subscriber that the outstanding request of a port with this number keeps; the port's own where there is none
(R132). -/
def State.reqSub (s : State) (p seq : Nat) : Nat :=
  (((s.source p).outst.find? (fun o => o.seq == seq && !o.answered)).map (·.sub)).getD (s.subOf p)

/-- The line-order key of a request (R104): its line, or the destination of a MSG. -/
def lotKey (m : Msg) : Nat :=
  if mOpc m = opMSG then 2 ^ 60 + mDsw m * 4096 + mDst m else lineOf (mAddr m)

/-- The performed report of a number takes its line-order entry away (R104). -/
def State.lotDrop (s : State) (p seq : Nat) : State :=
  { s with sw := { s.sw with lot := s.sw.lot.filter (fun e => !(e.port == p && e.seq == seq)) } }

/-- The port die resolves a number itself (a request answered at ingress, a confirmed cancel) (R80). -/
def State.settleSeq (s : State) (p seq : Nat) : State :=
  (s.updSource p (fun q => q.settle seq)).lotDrop p seq

/-- A home performs, or ends without effect, a request of a port; its report has still to reach the
port die (R79, R80). -/
def State.markDone (s : State) (r : Req) : State :=
  match r.org with
  | .port p => s.updSource p (fun q => { q with unreported := q.unreported ++ [r.seq] })
  | _ => s

/-! ### Requests that a plane has merged (R112) -/

/-- The members of a merged request; any other request is its own one member. -/
def State.members (s : State) (r : Req) : List Req :=
  match r.org with
  | .plane n => (tfind s.home.merged n).getD []
  | _ => [r]

/-- A merged request is no more. -/
def State.dropMerged (s : State) (r : Req) : State :=
  match r.org with
  | .plane n => { s with home := { s.home with merged := tdel s.home.merged n } }
  | _ => s

/-! ### Host requests through BAR2 (R473, R474) -/

/-- The rank of a status in Table 21.3. -/
def hostRank (st : Nat) : Nat :=
  if st = stOK then 0 else if st = stPOISON then 1 else if st = stTIMEOUT then 2
  else if st = stNOT_MEMBER ∨ st = stGROUP_DOWN then 3 else 4

/-- Complete a BAR2 request (Table 21.3): 0 Successful Completion, 1 Completer Abort, 2 Unsupported
Request. -/
def State.hostComplete (s : State) (h : HostReq) : State :=
  let s := { s with host := { s.host with reqs := s.host.reqs.filter (fun x => x.tag != h.tag) } }
  let rk := hostRank h.worst
  if h.isWrite then
    if rk = 0 then s
    else
      let s := ((s.bump .GLB_HOST_WERR_COUNT).wr .GLB_HOST_WERR_ADDR_ADDR h.worstAddr).wr .GLB_HOST_WERR_ST_STATUS h.worst
      if rk = 1 then s else s.emit (.aer (if rk ≤ 3 then 1 else 2))
  else
    let bytes := (List.range h.len).map (fun i => tget 0 h.bytes (h.addr + i))
    if rk ≤ 1 then s.emit (.bar2 h.tag 0 (rk == 1) bytes)
    else (s.bump .GLB_HOST_RERR_COUNT).emit (.bar2 h.tag (if rk ≤ 3 then 1 else 2) false [])

/-- One pool request of a BAR2 request is answered. -/
def State.hostPart (s : State) (tag addr : Nat) (x : Resp) : State :=
  match s.host.reqs.find? (fun h => h.tag == tag) with
  | none => s
  | some h =>
    let base := if h.isAtomic then addr else addr / 64 * 64
    let bs := (x.data.getD []).zipIdx.map (fun (b, i) => (base + i, b))
    let worse := decide (hostRank h.worst < hostRank x.status)
    let h : HostReq :=
      { h with
        left := h.left - 1
        bytes := h.bytes ++ bs
        worst := if worse then x.status else h.worst
        worstAddr := if worse then addr else h.worstAddr }
    if h.left = 0 then s.hostComplete h
    else { s with host := { s.host with reqs := s.host.reqs.map (fun y => if y.tag == tag then h else y) } }

/-! ### Operation slots as requesters (R191, R258) -/

/-- The key of slot `n` of agent `id`. -/
def slotKey (id n : Nat) : Nat := 16 * id + n

/-- A slot by its key. -/
def State.slot (s : State) (k : Nat) : OpSlot := tget OpSlot.init s.rgf.slots k

/-- Set a slot. -/
def State.setSlot (s : State) (k : Nat) (x : OpSlot) : State :=
  { s with rgf := { s.rgf with slots := tset OpSlot.init s.rgf.slots k x } }

/-- An outcome of Table 10.7: the status of the lowest row that applies is reported, and the first
failure's POS is recorded. Ranks: 1 an operation's own status below every row, 2 POISON of an input,
3 a write's status or an operation's own, 4 TIMEOUT, 5 a hard failure, 6 TAINTED, 7 FLUSHED. -/
def OpSlot.outcome (x : OpSlot) (rank st : Nat) : OpSlot :=
  let x := if x.rank < rank then { x with rank := rank, status := st } else x
  if x.errPos.isNone then { x with errPos := some x.pos } else x

/-- A status of an operation's own that is no failure of Table 10.7: it names no place (R257, R288, R293). -/
def OpSlot.outcomeOwn (x : OpSlot) (rank st : Nat) : OpSlot :=
  if x.rank < rank then { x with rank := rank, status := st } else x

/-- The FLAG of a COMMIT's transfer record is performed as COMMITTED: OWNER and GEN change at that moment (R296). -/
def State.xferTake (s : State) (x : OpSlot) (r : Req) : State :=
  let d := memRead x.desc 0 64
  if x.opc = 8 ∧ leAt d 14 1 = 2 ∧ mOpc r.msg = opST ∧ mAddr r.msg = leAt d 16 8 + 63 then
    match s.extentAt (leAt d 0 8) with
    | some (i, y) =>
      (s.setExtent i { y with owner := leAt d 12 2, gen := (leAt d 8 4 + 1) % 2 ^ 32 }).bump .POOL_XFER_COMMIT_COUNT
    | none => s
  else s

/-- A request of an operation is answered: data goes to the reading engine, and a write answered other
than OK or POISON is an outcome of the operation and stops the share that made it (R258). -/
def State.slotAnswer (s : State) (id n : Nat) (r : Req) (x : Resp) : State :=
  let take (e : EngRead) : EngRead :=
    if e.org == .slot id n && e.line == lineOf (mAddr r.msg) && e.got.isNone && mOpc r.msg == opNRD then
      { e with got := some ((x.data.getD allOnes), x.psn || x.data.isNone) }
    else e
  let s := { s with coh := { s.coh with engReads := s.coh.engReads.map take } }
  if x.data.isNone ∧ x.status ≠ stOK ∧ x.status ≠ stPOISON then
    let y := (s.slot (slotKey id n)).outcome 3 x.status
    s.setSlot (slotKey id n) { y with stops := if y.stops.contains r.seq then y.stops else y.stops ++ [r.seq] }
  else s.xferTake (s.slot (slotKey id n)) r

/-! ### Final responses (R62, R65) -/

/-- A channel that has done nothing. -/
def Chan.init : Chan :=
  { desc := [], fetched := false, units := 0, written := 0, hold := [], psn := false, susp := false, err := none,
    abortAfter := false, ended := false, fin := 0, bad := false, told := false }

/-- A channel's record. -/
def State.chan (s : State) (c : Nat) : Chan := tget Chan.init s.chans c

/-- The first bus error of a channel is kept, with the destination bytes performed before it (R342). -/
def State.chanErr (s : State) (c st a : Nat) : State :=
  let h := s.chan c
  if h.err.isSome then s
  else { s with chans := tset Chan.init s.chans c { h with err := some (st, a), errOfs := s.rd .CAR_OFS_BYTES c } }

/-- A request of a Caravan channel is answered: data goes to the channel, a POISON is noted (R340), any other status is a bus
error (R342), the error value of a tray too (R71); a destination unit is performed, and CAR_OFS and CAR_POS count its
bytes (R347). -/
def State.chanAnswer (s : State) (c : Nat) (r : Req) (x : Resp) : State :=
  let mine (e : EngRead) : Bool := e.org == .chan c && e.line == lineOf (mAddr r.msg) && e.got.isNone && mOpc r.msg == opNRD
  if x.status ≠ stOK ∧ x.status ≠ stPOISON then
    ({ s with coh := { s.coh with engReads := s.coh.engReads.filter (fun e => !mine e) } }).chanErr c x.status (mAddr r.msg)
  else
    let take (e : EngRead) : EngRead :=
      if mine e then { e with got := some ((x.data.getD allOnes), x.psn || x.data.isNone) } else e
    let s := { s with coh := { s.coh with engReads := s.coh.engReads.map take } }
    let s := if mOpc r.msg = opNWR then (s.advance .CAR_OFS_BYTES c 0 (mSize r.msg)).advance .CAR_POS_POS c 0 (mSize r.msg) else s
    if x.data.isNone ∧ x.status = stPOISON then { s with chans := tset Chan.init s.chans c { s.chan c with psn := true } }
  else s

/-- A write of a collective's result frame is answered: one that is refused stops the chunk owner's part
(R258, R281). -/
def State.collAnswer (s : State) (tag : Nat) (r : Req) (x : Resp) : State :=
  if x.data.isNone ∧ x.status ≠ stOK ∧ x.status ≠ stPOISON then
    let upd (c : Coll) : Coll :=
      if c.tag = tag ∧ c.ended.isNone then
        let chunk := (mAddr r.msg - leAt c.desc 32 8) / 65536
        let own := ((tag / 65536 ^^^ tag % 65536) % 32 + chunk) % 32
        let n := (c.chunks.filter (fun e => e.2.emitted)).length
        { c with
          stopped := if c.stopped.contains own then c.stopped else c.stopped ++ [own]
          status := if c.status = stOK then x.status else c.status
          errPos := if c.errPos.isNone then some n else c.errPos }
      else c
    { s with rgf := { s.rgf with colls := s.rgf.colls.map upd } }
  else s

/-- The write of the oldest mirror record is answered: its ring slot is used up, and an answer other than OK counts it as
dropped (R127, R128). -/
def State.mirrorDone (s : State) (st : Nat) : State :=
  let s := ({ s with sw := { s.sw with mirq := s.sw.mirq.drop 1 } }).advance .MIRR_WPTR_INDEX
  if st = stOK then s else s.bump .MIRR_DROP_ERR_COUNT

/-- A final response toward a request's requester, sent by die `die`. The response of a request whose port
is no longer bound is discarded (R118). -/
def State.answerFrom (s : State) (die : Nat) (r : Req) (x : Resp) : State :=
  match r.org with
  | .port p =>
    if s.on .PRT_PFTL_STAT_BOUND p && s.agentId p == r.src then
      s.send die p (mSc r.msg) r.sub (respMsg (mSc r.msg) r.src r.src r.seq x)
    else s.bump .SWC_FLUSHED_COUNT
  | .host tag => s.hostPart tag (mAddr r.msg) x
  | .slot id n => s.slotAnswer id n r x
  | .chan c => s.chanAnswer c r x
  | .coll tag => s.collAnswer tag r x
  | .rxa _ => s
  | .mirror => s.mirrorDone x.status
  | .device => s
  | .plane _ => s

/-- A home sends a request's final response (R62). -/
def State.answer (s : State) (home : Nat) (r : Req) (x : Resp) : State := s.answerFrom (mcDie home) r x

/-- The DATA of a read: the requested bytes at their own offset within the line, every other byte
zero (R57). -/
def cutLine (m : Msg) (bs : List Byte) : List Byte :=
  if mSize m = 64 then bs
  else
    let o := mAddr m % 64
    List.replicate o 0 ++ slice bs o (mSize m) ++ List.replicate (64 - o - mSize m) 0

/-- A member's part of the answer to the merged request it is in: its own bytes of the line, and the one status (R112,
R115). -/
def memberResp (m : Msg) (x : Resp) : Resp :=
  if expectsData m then { x with data := x.data.map (fun bs => if mOpc m = opAT then bs else cutLine m bs) }
  else { status := x.status }

/-- Where an answer goes, if the requester's port is still bound. -/
def State.answerLeg (s : State) (r : Req) (x : Resp) : Option Leg :=
  match r.org with
  | .port p =>
    if s.on .PRT_PFTL_STAT_BOUND p && s.agentId p == r.src then
      some { port := p, cls := mSc r.msg, sub := r.sub, msg := respMsg (mSc r.msg) r.src r.src r.seq x }
    else none
  | _ => none

/-- Answers that leave a home together: by multicast, where they are several. -/
def State.sendTogether (s : State) (org : Nat) (ls : List Leg) : State :=
  match ls with
  | [l] => s.send org l.port l.cls l.sub l.msg
  | _ => s.sendLegs org ls

/-- The members of a merged request get their results, the plane splitting the answer: those that carry data by one
multicast, the others by another (R112). -/
def State.answerAll (s : State) (home : Nat) (xs : List (Req × Resp)) : State :=
  let s := xs.foldl (fun s x => s.markDone x.1) s
  let ls := xs.filterMap (fun x => s.answerLeg x.1 x.2)
  let s := s.bump .SWC_FLUSHED_COUNT 0 0 (xs.length - ls.length)
  (s.sendTogether (mcDie home) (ls.filter (fun l => mOpc l.msg == opDATA))).sendTogether (mcDie home)
    (ls.filter (fun l => mOpc l.msg != opDATA))

/-- A home performs a request, or ends it without effect, and answers it (R78, R80). -/
def State.finish (s : State) (r : Req) (x : Resp) : State :=
  match r.org with
  | .plane _ => (s.dropMerged r).answerAll (s.homeOf (mAddr r.msg)) ((s.members r).map (fun m => (m, memberResp m.msg x)))
  | _ => (s.markDone r).answer (s.homeOf (mAddr r.msg)) r x

/-- End a request with a CMP of this status. -/
def State.finishCmp (s : State) (r : Req) (st : Nat) : State := s.finish r { status := st }

/-- The error value of R66; a DATA shows the suspect bit of its line's page (R187). -/
def State.errorValue (s : State) (m : Msg) : Resp :=
  if expectsData m then
    { status := stTIMEOUT, psn := true, susp := !inWindow (mAddr m) && s.lineSusp (lineOf (mAddr m)),
      data := some (List.replicate (if mOpc m = opAT then 16 else 64) 0xFF) }
  else { status := stTIMEOUT }

/-- A read's response from the line's bytes (R57, R185, R187). -/
def State.dataResp (s : State) (m : Msg) (bs : List Byte) (psn : Bool) (grant : Nat := 0) : Resp :=
  { status := if psn then stPOISON else stOK, psn := psn, susp := s.lineSusp (lineOf (mAddr m)),
    grant := if psn then 0 else grant, data := some (cutLine m bs) }

/-! ### Ingress (R50, R51, R64) -/

/-- Is a number more than 65,536 away from another, before or behind it. -/
def seqFar (a b : Nat) : Bool :=
  let d := (a + 2 ^ 20 - b % 2 ^ 20) % 2 ^ 20
  decide (65536 < d ∧ d < 2 ^ 20 - 65536)

/-- Does the distance from the oldest unanswered request to the newest one, with this number among them, fit R50. A
number that arrives late, below the others, is the oldest one. -/
def Source.inWindow (q : Source) (seq : Nat) : Bool := q.outst.all (fun o => o.answered || !seqFar seq o.seq)

/-- The port die answers a request itself; its number has arrived (R52), and is resolved unless another request of the source
still holds it (R80). -/
def State.refuseAs (s : State) (p : Nat) (m : Msg) (st : Nat) (held : Bool) : State :=
  let s := s.updSource p (fun q => if q.inWindow (mSeq m) then q.hear (mSeq m) else q)
  let s := s.sendLocal p (mSc m) (s.reqSub p (mSeq m)) (respMsg (mSc m) (mSrc m) (s.agentId p) (mSeq m) { status := st })
  if held then s else s.settleSeq p (mSeq m)

/-- The port die resolves a request that it does not accept, and answers it (log entry 67). -/
def State.refuseAt (s : State) (p : Nat) (m : Msg) (st : Nat) : State :=
  s.refuseAs p m st ((s.source p).outst.any (fun o => o.seq == mSeq m))

/-- The port die resolves and answers a request that it has accepted. -/
def State.flushOpen (s : State) (p : Nat) (m : Msg) : State :=
  (s.refuseAs p m stFLUSHED false).updSource p (fun q => { q with outst := q.outst.filter (fun o => o.seq != mSeq m) })

/-- The ingress port die answers a request itself, with no effect (R64, R80). -/
def State.reject (s : State) (p : Nat) (m : Msg) (st : Nat) (c : Fld) : State :=
  ((s.bump c p).refuseAt p m st)

/-- Check 4 of Table 2.11: what the tenant state admits (Table 18.1). -/
def State.admits (s : State) (m : Msg) (id : Nat) : Bool :=
  s.assigned || (mOpc m == opLD && inWindow (mAddr m) && winAgent (mAddr m) == id)

/-- Does the destination of a MSG exist (R59): a bound accelerator of this device, or a switch the
image names. A tray is no destination: it has no receive area and R70 sends it only LD and ST (DEDUCED, log entry 70). -/
def State.msgDestExists (s : State) (m : Msg) : Bool :=
  if mDsw m = 0 then
    match s.portOfAgent (mDst m) with
    | some p => s.rd .PRT_PFTL_STAT_ROLE p != 3
    | none => false
  else s.boot.image.sw.any (fun e => e.1 == mDsw m)

/-- Check 5 of Table 2.11. -/
def State.mapped (s : State) (m : Msg) (id : Nat) : Bool :=
  if mOpc m = opMSG then s.msgDestExists m
  else if inWindow (mAddr m) then winAgent (mAddr m) == id && mSc m == 1
  else (s.extentAt (mAddr m)).isSome

/-- A message with the opcode its row names. -/
def withOpc (m : Msg) (o : Nat) : Msg :=
  { m with hdr := (m.hdr &&& BitVec.ofNat 128 (2 ^ 122 - 1)) ||| BitVec.ofNat 128 (o * 2 ^ 122) }

/-- Is a request's address in the sender's own block. -/
def ownBlock (m : Msg) (id : Nat) : Bool := inWindow (mAddr m) && winAgent (mAddr m) == id

/-- What the checks of Table 2.11 do with a request. -/
inductive Ingress where
  | refuse (st : Nat) (c : Fld)
  | duplicate
  | performed
  | accept
  deriving DecidableEq, Repr

/-- The checks of Table 2.11 in their order. The duplicates of R51 are looked for behind checks 1 and 2, which tell whether
the SEQ is the sender's (DESIGN CHOICE, log entry 93); one that passes them all and is performed already is discarded by its
home (R90, R177). -/
def State.ingressCheck (s : State) (p : Nat) (m : Msg) : Ingress :=
  let id := s.agentId p
  let q := s.source p
  if !check1 m (ownBlock m id) then .refuse stREFUSED .PRT_REFUSED_COUNT
  else if mSrc m ≠ id then .refuse stREFUSED .PRT_SRC_MISMATCH_COUNT
  else if q.isOpen (mSeq m) then .duplicate
  else if !q.inWindow (mSeq m) then .refuse stREFUSED .PRT_REFUSED_COUNT
  else if !s.admits m id then .refuse stSTATE .PRT_REFUSED_COUNT
  else if !s.mapped m id then .refuse stUNMAPPED .PRT_REFUSED_COUNT
  else if q.isDone (mSeq m) then .performed
  else .accept

/-- The newest request of a source to a key, in the line-order table (R104). -/
def State.lotFind (s : State) (p key : Nat) : Option Nat :=
  (s.sw.lot.find? (fun e => e.port == p && e.key == key)).map (·.seq)

/-- Entries of the line-order table of a port's die (R104). -/
def State.lotCount (s : State) (p : Nat) : Nat :=
  (s.sw.lot.filter (fun e => s.portDie e.port == s.portDie p)).length

/-- Enter a request into the line-order table (R104). -/
def State.lotPut (s : State) (p : Nat) (m : Msg) : State :=
  let k := lotKey m
  { s with sw := { s.sw with lot := s.sw.lot.filter (fun e => !(e.port == p && e.key == k))
      ++ [{ port := p, key := k, seq := mSeq m }] } }

/-- An accepted request is outstanding until its final response (R65). -/
def State.open (s : State) (p : Nat) (m : Msg) : State :=
  s.updSource p (fun q =>
    { q.hear (mSeq m) with
      outst := q.outst ++ [{ seq := mSeq m, msg := m, answered := false, cancelled := false, sub := s.subOf p }] })

/-- The request record of a message accepted at a port. -/
def State.mkReq (s : State) (p : Nat) (m : Msg) : Req :=
  { org := .port p, src := mSrc m, seq := mSeq m, msg := m, sub := s.subOf p, dep := s.lotFind p (lotKey m),
    hot := false, causes := [], win := none }

/-! ### Waiting -/

/-- A request takes its place in the order of arrival at the homes, once (R202). -/
def State.stamp (s : State) (r : Req) : Req × State :=
  if r.arr = 0 then
    ({ r with arr := s.home.arrived + 1 }, { s with home := { s.home with arrived := s.home.arrived + 1 } })
  else (r, s)

/-- A request waits at its home or at ingress, in arrival order. -/
def State.wait (s : State) (r : Req) (cause key : Nat) : State :=
  let t := if cause = 9 ∨ cause = 10 ∨ cause = 11 ∨ cause = 14 then (r, s) else s.stamp r
  { t.2 with home := { t.2.home with waits := t.2.home.waits ++ [{ req := t.1, cause := cause, key := key }] } }

/-- Does a group take this atomic (R113). -/
def AtGrp.takes (g : AtGrp) (m : Msg) : Bool :=
  g.addr == mAddr m && g.atop == mAtop m && g.size == mSize m && g.signed == mSigned m

/-- Is the request named by a DEP tag performed or resolved, or ahead in a group that this one joins, or in a run of its
line, which this one joins or, arriving, ends (R93, R105). -/
def State.depDone (s : State) (r : Req) : Bool :=
  match r.org, r.dep with
  | .port p, some d =>
    (s.source p).isDone d
      || s.home.runs.any (fun e => (e.2.flatMap s.members).any (fun x => x.org == .port p && x.seq == d))
      || (mOpc r.msg == opAT && !mPsn r.msg && s.on .SWC_CTL_COMB_EN
        && s.home.atGrps.any (fun g => g.takes r.msg && (g.members.flatMap s.members).any (fun x => x.org == .port p && x.seq == d)))
  | _, _ => true

end Sys2Proof.Machine
end

