-- ==== Sys2Proof/Machine/Points.lean ====
section
/-! DEFINITION. The scheduling points (R131 to R138): what waits at the die of a point, the token buckets, selection, and the
passage of a request that finds its point free. -/

namespace Sys2Proof.Machine

/-- A message that waits at a point: its number, class, subscriber, cost in bytes (R134), and whether it is
ready. -/
structure Cand where
  n : Nat
  cls : Nat
  sub : Nat
  cost : Nat
  ready : Bool
  cyc : Nat
  deriving DecidableEq, Repr

/-- Is a die in partial reset (R482); dies are numbered as IN_RESET numbers them. -/
def State.dieHeld (s : State) (n : Nat) : Bool := (s.rd .GLB_PRST_HELD_HELD (n / 32)).testBit (n % 32)

/-- Slots in the input queue of the die of point `q`: of the requests that a home holds. Contribution lines that wait for an
accumulator stay at ingress (R269). -/
def State.queueUsed (s : State) (q : Nat) : Nat :=
  if q < 336 then
    ((s.home.waits.filter (fun w => s.homeOf (mAddr w.req.msg) == q - 320 && w.cause != 9 && w.cause != 10
      && w.cause != 11 && w.cause != 14 && w.cause != 15)).map (fun w => mSlots w.req.msg)).sum
  else 0

/-- Does a die take a message of `n` slots from its port dies now: not while it is held in reset, and if its input queue has
room for it (R137). The spec gives no size: it is a constant of the configuration, and an empty queue has room (DESIGN
CHOICE, log entry 88). -/
def State.pointOpen (s : State) (q n : Nat) : Bool :=
  (if q < 336 then !s.dieHeld (mcDie (q - 320)) else if q < 372 then !s.dieHeld (rgDie (q - 336)) else true)
    && (s.queueUsed q == 0 || decide (s.queueUsed q + n ≤ Config.dieQueue q))

/-- The plane that carries a message from its ingress region to a die (R101). -/
def State.ingPlane (s : State) (x : IngMsg) : Nat := s.planeIn (s.planeSlot (mSrc x.msg) (mSeq x.msg) 0)

/-- A request as a message that waits at point `q`. -/
def State.candOf (s : State) (r : Req) (q n cyc : Nat) : Cand :=
  { n := n, cls := mSc r.msg, sub := r.sub, cost := 16 * mSlots r.msg,
    ready := s.pointOpen q (mSlots r.msg) && !s.planeFailed (s.planeIn (s.planeSlot (mSrc r.msg) (mSeq r.msg) 0)), cyc := cyc }

/-- The messages that wait at the die of point `q`, in order of arrival: those of ingress regions, and the requests of the device's
engines, of the host and of request rows that did not find the point free (R23, R100, R131). A message whose plane has failed
waits at its origin (Table 4.3, step 2; R123). -/
def State.dieCands (s : State) (q : Nat) : List Cand :=
  sortBy (·.n) (((s.sw.ing.filter (fun x => x.point == q && !x.taken && !x.held)).map (fun x =>
      { n := x.n, cls := x.cls, sub := x.sub, cost := 16 * x.slots, ready := s.pointOpen q x.slots && !s.planeFailed (s.ingPlane x), cyc := x.cyc }))
    ++ ((s.home.waits.filter (fun w => w.cause == 15 && w.key == q)).map (fun w => s.candOf w.req q w.req.pt w.req.cyc)))

/-- An unlimited bucket (R134). -/
abbrev unlimited : Nat := 0xFFFFF

/-- Keys of the token buckets: a policer of a port, the mirror policer, and the committed and peak buckets of
a point's class and of its subscriber nodes. -/
def polKey (p : Nat) : Nat := Nat.pair 0 p
def mirKey : Nat := Nat.pair 1 0
def clsKey (peak : Bool) (q c : Nat) : Nat := Nat.pair (2 + b2n peak) (8 * q + c)
def subKey (peak : Bool) (q c sub : Nat) : Nat := Nat.pair (4 + b2n peak) ((8 * q + c) * 1024 + sub)

/-- A bucket's count. -/
def State.bucket (s : State) (k : Nat) : Int := tget 0 s.sw.buckets k

/-- Set a bucket's count. -/
def State.setBucket (s : State) (k : Nat) (v : Int) : State :=
  { s with sw := { s.sw with buckets := tset 0 s.sw.buckets k v } }

/-- Slots queued at a point in a class (R144). -/
def depthOf (cs : List Cand) (c : Nat) : Nat := ((cs.filter (fun x => x.cls == c)).map (fun x => x.cost / 16)).sum

/-! ### Buckets (R134) -/

/-- Does a bucket let a message pass: it is unlimited, or its count is above zero. -/
def State.admitsTok (s : State) (k refill : Nat) : Bool := refill == unlimited || decide (0 < s.bucket k)

/-- Charge a bucket. -/
def State.chargeTok (s : State) (k refill cost : Nat) : State :=
  if refill = unlimited then s else s.setBucket k (s.bucket k - cost)

/-- The peak and committed refills in force of a class node and of a subscriber's node. -/
def State.clsPir (s : State) (q c : Nat) : Nat := s.tmA .TM_CLS_PIR_REFILL q c
def State.clsCir (s : State) (q c : Nat) : Nat := s.tmA .TM_CLS_CIR_REFILL q c
def State.subPir (s : State) (u c : Nat) : Nat := s.tmA .TM_SUB_PIR_REFILL u c
def State.subCir (s : State) (u c : Nat) : Nat := s.tmA .TM_SUB_CIR_REFILL u c

/-! ### Selection (R137) -/

/-- The next number after `last` in a rising list, round robin. -/
def roundRobin (ids : List Nat) (last : Nat) : Option Nat := (ids.find? (fun i => decide (last < i))) <|> ids.head?

/-- Deficit round robin: each node in turn gains its quantum and is served once its deficit covers the cost of its
first message. Nodes are given as number, quantum and cost. -/
def drrGo (ds : List (Nat × Int)) : List (Nat × Nat × Nat) → Nat → Option Nat × List (Nat × Int)
  | [], _ => (none, ds)
  | x :: _, 0 => (some x.1, ds)
  | x :: t, n + 1 =>
    let d := tget 0 ds x.1 + (x.2.1 : Int)
    let ds := tset 0 ds x.1 d
    if (x.2.2 : Int) ≤ d then (some x.1, ds) else drrGo ds (t ++ [x]) n

/-- The node a deficit round robin serves: the one whose turn it is while its deficit lasts, else the next ones. -/
def drrPick (ds : List (Nat × Int)) (nodes : List (Nat × Nat × Nat)) (turn : Nat) : Option Nat × List (Nat × Int) :=
  match nodes.find? (fun x => x.1 == turn && decide ((x.2.2 : Int) ≤ tget 0 ds turn)) with
  | some x => (some x.1, ds)
  | none =>
    drrGo ds (nodes.filter (fun x => decide (turn < x.1)) ++ nodes.filter (fun x => decide (x.1 ≤ turn))) (32 * nodes.length)

/-- Keys of scheduler memory: a point, a class node, a subscriber's node. -/
def pointKey (q : Nat) : Nat := Nat.pair 0 q
def clsNode (q c : Nat) : Nat := Nat.pair 1 (8 * q + c)
def subNode (q c u : Nat) : Nat := Nat.pair 2 ((8 * q + c) * 1024 + u)

/-- No memory. -/
def Sched.init : Sched := { last := 0, turn := 0, deficit := 0 }

/-- Scheduler memory of a node. -/
def State.schedOf (s : State) (k : Nat) : Sched := tget Sched.init s.sw.sched k

/-- Set the scheduler memory of a node. -/
def State.setSched (s : State) (k : Nat) (x : Sched) : State :=
  { s with sw := { s.sw with sched := tset Sched.init s.sw.sched k x } }

/-- What a level of the hierarchy chose: the node, whether by its committed rate, and the deficits as they become. -/
structure Pick where
  id : Nat
  committed : Bool
  deficits : List (Nat × Int)
  deriving DecidableEq, Repr

/-- The rule of R137 over one level: committed-eligible nodes first by round robin, then deficit round robin.
Nodes are given as number, committed-eligible, quantum, cost of the first message and deficit. -/
def pickLevel (nodes : List (Nat × Bool × Nat × Nat × Int)) (m : Sched) : Option Pick :=
  let com := (nodes.filter (fun x => x.2.1)).map (·.1)
  let ds := nodes.map (fun x => (x.1, x.2.2.2.2))
  match roundRobin com m.last with
  | some i => some { id := i, committed := true, deficits := ds }
  | none =>
    let r := drrPick ds (nodes.map (fun x => (x.1, x.2.2.1, x.2.2.2.1))) m.turn
    r.1.map (fun i => { id := i, committed := false, deficits := r.2 })

/-- The first ready message of a subscriber in a class. -/
def firstOf (cs : List Cand) (c u : Nat) : Option Cand := cs.find? (fun x => x.ready && x.cls == c && x.sub == u)

/-- The subscriber that R137 serves in class `c` of point `q`, and its first message. -/
def State.pickSub (s : State) (cs : List Cand) (q c : Nat) : Option (Pick × Cand) :=
  let us := sortBy id ((cs.filter (fun x => x.ready && x.cls == c)).map (·.sub)).dedup
  let ok := us.filter (fun u => s.admitsTok (subKey true q c u) (s.subPir u c))
  let nodes := ok.map (fun u =>
    (u, decide (2 ≤ c) && s.admitsTok (subKey false q c u) (s.subCir u c), 512 * s.tmA .TM_SUB_WT_WEIGHT u c,
      ((firstOf cs c u).map (·.cost)).getD 0, (s.schedOf (subNode q c u)).deficit))
  match pickLevel nodes (s.schedOf (clsNode q c)) with
  | some k => (firstOf cs c k.id).map (fun x => (k, x))
  | none => none

/-- May class `c` of point `q` be served: a ready message of a subscriber, and peak tokens (R137). A class none of whose
subscribers has peak tokens is passed over (DESIGN CHOICE, log entry 78). -/
def State.clsReady (s : State) (cs : List Cand) (q c : Nat) : Bool :=
  s.admitsTok (clsKey true q c) (s.clsPir q c) && (s.pickSub cs q c).isSome

/-- The class that R137 serves at point `q`: SC0, SC1, else the weighted classes. -/
def State.pickCls (s : State) (cs : List Cand) (q : Nat) : Option Pick :=
  match [0, 1].find? (fun c => s.clsReady cs q c) with
  | some c => some { id := c, committed := true, deficits := [] }
  | none =>
    let nodes := ([2, 3, 4, 5, 6, 7].filter (fun c => s.clsReady cs q c)).map (fun c =>
      (c, s.admitsTok (clsKey false q c) (s.clsCir q c), 512 * s.tmA .TM_CLS_WT_WEIGHT q c,
        ((s.pickSub cs q c).map (fun r => r.2.cost)).getD 0, (s.schedOf (clsNode q c)).deficit))
    pickLevel nodes (s.schedOf (pointKey q))

/-- Remember a pick of one level: the last committed pick, or the turn and the deficits; a node with nothing left
keeps no deficit. -/
def State.remember (s : State) (level : Nat) (node : Nat → Nat) (k : Pick) (cost : Nat) (more : Nat → Bool) : State :=
  let m := s.schedOf level
  let s := s.setSched level (if k.committed then { m with last := k.id } else { m with turn := k.id })
  k.deficits.foldl (fun s e =>
    let d := e.2 - (if e.1 = k.id ∧ !k.committed then (cost : Int) else 0)
    s.setSched (node e.1) { s.schedOf (node e.1) with deficit := if more e.1 then d else 0 }) s

/-- Serving a message charges every bucket of its class node and its subscriber's node (R134). -/
def State.charge (s : State) (q : Nat) (x : Cand) : State :=
  let c := x.cls
  let s := (s.chargeTok (clsKey true q c) (s.clsPir q c) x.cost).chargeTok (subKey true q c x.sub) (s.subPir x.sub c) x.cost
  if c < 2 then s
  else (s.chargeTok (clsKey false q c) (s.clsCir q c) x.cost).chargeTok (subKey false q c x.sub) (s.subCir x.sub c) x.cost

/-- Point `q` selects one of the messages that wait there: the largest depth seen is kept (R144), the pick of each level is
remembered, and the buckets of its nodes are charged (R134, R137). -/
def State.selectAt (s : State) (cs : List Cand) (q : Nat) : Option Cand × State :=
  let s := (List.range 8).foldl (fun s c =>
    if s.rd .TM_QS_MAX_DEPTH q c < depthOf cs c then s.wr .TM_QS_MAX_DEPTH (depthOf cs c) q c else s) s
  match s.pickCls cs q with
  | none => (none, s)
  | some k =>
    match s.pickSub cs q k.id with
    | none => (none, s)
    | some (u, x) =>
      let more (c : Nat) : Bool := cs.any (fun y => y.cls == c && y.n != x.n)
      let moreSub (i : Nat) : Bool := cs.any (fun y => y.cls == k.id && y.sub == i && y.n != x.n)
      let s := if k.id < 2 then s else s.remember (pointKey q) (clsNode q) k x.cost more
      let s := s.remember (clsNode q k.id) (subNode q k.id) u x.cost moreSub
      (some x, s.charge q x)

/-- A message comes to the die of point `q`. Where nothing waits there and its buckets and the die admit it, it is selected at once
(DESIGN CHOICE, log entry 5). -/
def State.atPoint (s : State) (q : Nat) (x : Cand) : Bool × State :=
  if (s.dieCands q).isEmpty then
    let t := s.selectAt [x] q
    (t.1.isSome, t.2)
  else (false, s)

/-- A request waits at point `q` for its selection (R131, R137), stamped with the CCLK count (R144). -/
def State.queueAt (s : State) (q : Nat) (r : Req) : State :=
  let r := { r with pt := s.nextId, cyc := s.cycle }
  { s with nextId := s.nextId + 1
           home := { s.home with waits := s.home.waits ++ [{ req := r, cause := 15, key := q }] } }

/-- A request passes the point of its die, and acts, or waits there. -/
def State.passPoint (s : State) (q : Nat) (r : Req) (act : State → Req → State) : State :=
  let t := s.atPoint q (s.candOf r q s.nextId s.cycle)
  if t.1 then act t.2 r else t.2.queueAt q r

end Sys2Proof.Machine
end

