-- ==== Sys2Proof/Machine/Compress.lean ====
section
/-! DEFINITION. Exponent stream compression (R319 to R329): the block format, the eight code tables,
the device's encoder, and the expander with its malformed cases. -/

namespace Sys2Proof.Machine

/-- Bits of a value in the FP16 (true) or BF16 (false) reading: mantissa bits, exponent bits, all-ones
exponent, bytes of the sign-and-mantissa section. -/
def manBits (f16 : Bool) : Nat := if f16 then 10 else 7
def expBits (f16 : Bool) : Nat := if f16 then 5 else 8
def expMax (f16 : Bool) : Nat := if f16 then 31 else 255
def smBytes (f16 : Bool) : Nat := if f16 then 352 else 256

/-- The exponent field of a 16-bit value. -/
def expField (f16 : Bool) (v : Nat) : Nat := v / 2 ^ manBits f16 % 2 ^ expBits f16

/-- Sign and mantissa of a 16-bit value, as one field. -/
def signMan (f16 : Bool) (v : Nat) : Nat := (v / 2 ^ 15 % 2) * 2 ^ manBits f16 + v % 2 ^ manBits f16

/-- The 16-bit value with this sign-and-mantissa field and exponent field. -/
def unSignMan (f16 : Bool) (sm e : Nat) : Nat :=
  sm / 2 ^ manBits f16 % 2 * 2 ^ 15 + e % 2 ^ expBits f16 * 2 ^ manBits f16 + sm % 2 ^ manBits f16

/-! ### CRC-16 of T10-DIF (R325) -/

/-- One bit step. -/
def crc16Bit (c : Nat) : Nat := if c ≥ 0x8000 then ((c * 2) % 65536) ^^^ 0x8BB7 else c * 2

/-- One byte. -/
def crc16Byte (c : Nat) (b : Byte) : Nat :=
  crc16Bit (crc16Bit (crc16Bit (crc16Bit (crc16Bit (crc16Bit (crc16Bit (crc16Bit (c ^^^ (b.toNat * 256)))))))))

/-- The check value of bytes (R325). -/
def crc16 (bs : List Byte) : Nat := bs.foldl crc16Byte 0

/-- The check value of a block's values (R325). -/
def checkOf (vals : List Nat) : Nat := crc16 (vals.flatMap (leBytes 2))

/-! ### The code tables (R323, R324) -/

/-- Code lengths of Table 13.2, rows Z, ESC, +2, +1, 0, −1 … −7; 0 for a dash. -/
def codeLens : Nat → List Nat
  | 0 => [5, 5, 7, 4, 1, 2, 4, 5, 7, 7, 8, 8]
  | 1 => [5, 5, 6, 3, 2, 2, 3, 4, 5, 5, 5, 6]
  | 2 => [4, 4, 4, 3, 3, 3, 3, 4, 4, 4, 4, 4]
  | 3 => [1, 5, 7, 4, 3, 3, 4, 5, 5, 7, 7, 7]
  | 4 => [5, 4, 3, 2, 2, 3, 4, 5, 5, 6, 7, 7]
  | 5 => [4, 5, 5, 3, 3, 3, 3, 3, 4, 4, 4, 4]
  | 6 => [2, 5, 5, 3, 2, 3, 4, 4, 5, 6, 6, 0]
  | _ => [2, 3, 0, 5, 1, 4, 5, 0, 0, 0, 0, 0]

/-- Row of the symbol ESC, and the row of a delta (+2 is row 2, −7 row 11). -/
abbrev symZ : Nat := 0
abbrev symEsc : Nat := 1

/-- The symbols of one length, in row order. -/
def symsOfLen (lens : List Nat) (n : Nat) : List Nat :=
  lens.zipIdx.filterMap (fun (l, i) => if l = n then some i else none)

/-- Canonical codes (R324): symbols by length then row, each with its length and code. -/
def canonGo (lens : List Nat) (n code : Nat) : Nat → List (Nat × Nat × Nat)
  | 0 => []
  | fuel + 1 =>
    let ss := symsOfLen lens n
    (ss.zipIdx.map (fun (s, i) => (s, n, code + i))) ++ canonGo lens (n + 1) ((code + ss.length) * 2) fuel

/-- The canonical codes of a table, as symbol, length and code (R324). -/
def codesOf (t : Nat) : List (Nat × Nat × Nat) := canonGo (codeLens t) 1 0 8

/-- The `n` bits of `v`, most significant first (R321). -/
def msbBits (v : Nat) : Nat → List Bool
  | 0 => []
  | n + 1 => v.testBit n :: msbBits v n

/-- The value of bits, most significant first. -/
def bitsVal (bs : List Bool) : Nat := bs.foldl (fun a b => 2 * a + b2n b) 0

/-- Pack bits into bytes from bit 7 down, zero padded (R321). -/
def packBits (bs : List Bool) : Nat → List Byte
  | 0 => []
  | n + 1 =>
    let h := bs.take 8
    BitVec.ofNat 8 (bitsVal (h ++ List.replicate (8 - h.length) false)) :: packBits (bs.drop 8) n

/-- The bits of bytes, from bit 7 down (R321). -/
def unpackBits (bs : List Byte) : List Bool := bs.flatMap (fun b => msbBits b.toNat 8)

/-! ### The encoder (R326) -/

/-- The symbol row of a value with exponent `e` under a base and table. -/
def symOf (f16 : Bool) (base t e : Nat) : Nat :=
  if e = 0 then symZ
  else if e = expMax f16 then symEsc
  else
    let row := (base + 4 : Int) - e
    if 2 ≤ row ∧ row ≤ 11 ∧ (codeLens t).getD row.toNat 0 ≠ 0 then row.toNat else symEsc

/-- The bits of one value's code, with the field of an ESC (R321, R322). -/
def codeBits (f16 : Bool) (base t e : Nat) : List Bool :=
  let sy := symOf f16 base t e
  let c := ((codesOf t).find? (fun x => x.1 == sy)).getD (0, 0, 0)
  msbBits c.2.2 c.2.1 ++ (if sy = symEsc then msbBits e (expBits f16) else [])

/-- Bits a table needs for a block (R326). -/
def tableBits (f16 : Bool) (base t : Nat) (es : List Nat) : Nat :=
  (es.map (fun e =>
    let sy := symOf f16 base t e
    (codeLens t).getD sy 0 + (if sy = symEsc then expBits f16 else 0))).sum

/-- The most frequent exponent between 1 and EMAX − 1, ties to the highest, 0 where there is none (R326). -/
def baseOf (f16 : Bool) (es : List Nat) : Nat :=
  ((List.range (expMax f16)).foldl (fun (b : Nat × Nat) e =>
    if e = 0 then b
    else
      let n := es.count e
      if n ≠ 0 ∧ b.2 ≤ n then (e, n) else b) (0, 0)).1

/-- The table with the fewest bits, ties to the lowest number (R326). -/
def bestTable (f16 : Bool) (base : Nat) (es : List Nat) : Nat × Nat :=
  (List.range 8).foldl (fun (b : Nat × Nat) t =>
    let n := tableBits f16 base t es
    if n < b.2 then (t, n) else b) (0, tableBits f16 base 0 es)

/-- The six header bytes (R319). -/
def blockHeader (check len base mode table : Nat) (f16 : Bool) : List Byte :=
  leBytes 2 check ++ leBytes 2 len ++ leBytes 1 base ++ leBytes 1 (mode * 64 + b2n f16 * 32 + table * 4)

/-- Encode a block of 256 values (R326). -/
def encodeBlock (f16 : Bool) (vals : List Nat) : List Byte :=
  if vals.all (· == 0) then blockHeader 0 6 0 2 0 f16
  else
    let es := vals.map (expField f16)
    let base := baseOf f16 es
    let bt := bestTable f16 base es
    let clen := (bt.2 + 7) / 8
    if 6 + smBytes f16 + clen > 480 then
      blockHeader (checkOf vals) 518 0 1 0 f16 ++ vals.flatMap (leBytes 2)
    else
      blockHeader (checkOf vals) (6 + smBytes f16 + clen) base 0 bt.1 f16
        ++ packBits (vals.flatMap (fun v => msbBits (signMan f16 v) (1 + manBits f16))) (smBytes f16)
        ++ packBits (es.flatMap (codeBits f16 base bt.1)) clen

/-! ### The expander (R327) -/

/-- The code a bit stream begins with: symbol and length (R323). -/
def matchCode (t : Nat) (bs : List Bool) : Option (Nat × Nat) :=
  ((codesOf t).find? (fun c => bs.take c.2.1 == msbBits c.2.2 c.2.1 && decide (c.2.1 ≤ bs.length))).map
    (fun c => (c.1, c.2.1))

/-- Decode `n` exponent fields; `none` where the stream ends or a delta decodes out of range (R322). -/
def decodeExps (f16 : Bool) (base t : Nat) (bs : List Bool) : Nat → Option (List Nat × List Bool)
  | 0 => some ([], bs)
  | n + 1 =>
    match matchCode t bs with
    | none => none
    | some (sy, len) =>
      let bs := bs.drop len
      if sy = symZ then
        (decodeExps f16 base t bs n).map (fun r => (0 :: r.1, r.2))
      else if sy = symEsc then
        let k := expBits f16
        if bs.length < k then none
        else (decodeExps f16 base t (bs.drop k) n).map (fun r => (bitsVal (bs.take k) :: r.1, r.2))
      else
        let e : Int := (base + 4 : Int) - sy
        if e < 1 ∨ (expMax f16 : Int) ≤ e then none
        else (decodeExps f16 base t bs n).map (fun r => (e.toNat :: r.1, r.2))

/-- `n` fields of `w` bits. -/
def fieldsOf (w : Nat) (bs : List Bool) : Nat → List Nat
  | 0 => []
  | n + 1 => bitsVal (bs.take w) :: fieldsOf w (bs.drop w) n

/-- What an expander makes of a block: malformed, or its values, its length, its mode and whether the
check value matched. -/
inductive Block where
  | malformed
  | good (vals : List Nat) (len mode : Nat) (checkOk : Bool)
  deriving DecidableEq, Repr

/-- The length a block's header gives (Table 13.1). -/
abbrev blockLen (bs : List Byte) : Nat := leAt bs 2 2 % 1024

/-- What the six header bytes of a block must show, with `room` bytes inside the bound of its use (R319, R320, R327). -/
def headerOk (f16 : Bool) (bs : List Byte) (room : Nat) : Bool :=
  let len := blockLen bs
  let base := leAt bs 4 1
  let b5 := leAt bs 5 1
  let mode := b5 / 64
  decide (mode ≠ 3 ∧ leAt bs 2 2 / 1024 = 0 ∧ b5 % 4 = 0 ∧ (mode = 0 ∨ (base = 0 ∧ b5 / 4 % 8 = 0)) ∧ b5 / 32 % 2 = b2n f16
    ∧ len ≤ room ∧ (mode = 2 → len = 6 ∧ leAt bs 0 2 = 0) ∧ (mode = 1 → len = 518)
    ∧ (mode = 0 → len ≤ 480 ∧ 6 + smBytes f16 ≤ len ∧ (f16 = true → base ≤ 30)))

/-- Read the block at the front of `bs`, the bytes that remain inside the bound of its use (R327). -/
def decodeBlock (f16 : Bool) (bs : List Byte) : Block :=
  if bs.length < 6 ∨ !headerOk f16 bs bs.length then .malformed
  else
    let check := leAt bs 0 2
    let len := blockLen bs
    let base := leAt bs 4 1
    let mode := leAt bs 5 1 / 64
    let table := leAt bs 5 1 / 4 % 8
    if mode = 2 then .good (List.replicate 256 0) 6 2 true
    else if mode = 1 then
      let vals := (List.range 256).map (fun i => leAt bs (6 + 2 * i) 2)
      .good vals 518 1 (checkOf vals == check)
    else
      let sms := fieldsOf (1 + manBits f16) (unpackBits ((bs.drop 6).take (smBytes f16))) 256
      match decodeExps f16 base table (unpackBits ((bs.drop (6 + smBytes f16)).take (len - 6 - smBytes f16))) 256 with
      | none => .malformed
      | some (es, rest) =>
        if rest.length ≥ 8 ∨ rest.any (fun b => b) then .malformed
        else
          let vals := (sms.zip es).map (fun (sm, e) => unSignMan f16 sm e)
          .good vals len 0 (checkOf vals == check)

/-- CCLK cycles beyond two that a lane of an expander takes for a block, held up by the bytes of its code section (R330). -/
def Block.behind (f16 : Bool) : Block → Nat
  | .malformed => 0
  | .good _ len mode _ => if mode = 0 then (len - 6 - smBytes f16 + 63) / 64 - 2 else 0

/-- A run of blocks decoded: per block its values (`none` where it failed), and the bytes used;
`len` the length of the block. A malformed block fails every block to the end of the run (R327). A
block also fails where any of its bytes lies in a line marked in `bad` (R328), `off` being the
offset of the block in the run's lines. -/
def decodeRun (f16 : Bool) (bad : List Bool) (off : Nat) (bs : List Byte) : Nat → List (Option (List Nat) × Nat × Nat)
  | 0 => []
  | n + 1 =>
    match decodeBlock f16 bs with
    | .malformed => List.replicate (n + 1) (none, 0, 3)
    | .good vals len mode ok =>
      let lo := off / 64
      let hi := (off + len - 1) / 64
      let hit := ((bad.drop lo).take (hi - lo + 1)).any (fun b => b)
      ((if ok && !hit then some vals else none), len, mode) :: decodeRun f16 bad (off + len) (bs.drop len) n

/-- 16-bit values of bytes, little-endian. -/
def vals16 (bs : List Byte) (n : Nat) : List Nat := (List.range n).map (fun i => leAt bs (2 * i) 2)

/-! ### Erg page images (R205) -/

/-- The image of a page: line 0 with the line count and POISON_MAP, then 128 blocks of BF16 packed end
to end, padded to the line (R205). `psns` says which lines of the page are poisoned. -/
def pageImage (page : List Byte) (psns : List Bool) : List Byte :=
  let blocks := (List.range 128).flatMap (fun b => encodeBlock false (vals16 ((page.drop (512 * b)).take 512) 256))
  let n := 1 + (blocks.length + 63) / 64
  let pmap := (List.range 128).foldl (fun a b => if ((psns.drop (8 * b)).take 8).any (fun x => x) then a + 2 ^ b else a) 0
  leBytes 2 n ++ leBytes 14 0 ++ leBytes 16 pmap ++ leBytes 32 0 ++ slice blocks 0 (64 * (n - 1))

/-- Lines of a page image. -/
def imageLines (page : List Byte) (psns : List Bool) : Nat := (pageImage page psns).length / 64

/-- Expand an image: the page's bytes, the PSN of each line, and how many blocks failed (R205, R328).
`psns` says which lines of the image arrived with PSN; `fill b` the bytes of a failed block `b`, which
the spec does not state. -/
def expandImage (img : List Byte) (psns : List Bool) (fill : Nat → List Byte) : List Byte × List Bool × Nat :=
  if psns.headD false then ((List.range 128).flatMap fill, List.replicate 1024 true, 128)
  else
    let pmap := leAt img 16 16
    let run := decodeRun false (psns.drop 1) 0 (img.drop 64) 128
    let blk := (List.range 128).map (fun b =>
      match (run.getD b (none, 0, 3)).1 with
      | some vals => (vals.flatMap (leBytes 2), pmap.testBit b, false)
      | none => (fill b, true, true))
    (blk.flatMap (·.1), blk.flatMap (fun x => List.replicate 8 x.2.1), (blk.filter (·.2.2)).length)

end Sys2Proof.Machine
end

