-- ==== Sys2Proof/Machine/Tiers.lean ====
section
/-! DEFINITION. Oasis and Erg tiers: frames (R193, R194), heat (R196), promotion and demotion (R199 to
R206), tray accesses (R70), and the causes for which a request waits at its home (R210). -/

namespace Sys2Proof.Machine

/-! ### Pages and frames -/

/-- A page in its natural place: TRAY for an Erg page, its natural frame for an Oasis page. -/
def Page.home : Page := { loc := 0, frame := 0, dirty := false, pin := false, keep := false, heat := 0 }

/-- Where a page is. -/
def State.page (s : State) (pg : Nat) : Page := tget Page.home s.tier.pages pg

/-- Set a page's record. -/
def State.setPage (s : State) (pg : Nat) (x : Page) : State :=
  { s with tier := { s.tier with pages := tset Page.home s.tier.pages pg x } }

/-- Is a frame RETIRED. -/
def State.frameRetired (s : State) (k f : Nat) : Bool := tget false s.tier.retired (frameKey k f)

/-- The Oasis page whose natural frame is frame `f` of home `k` (R166, R167). -/
def State.naturalPage (s : State) (k f : Nat) : Nat :=
  f * 16 + ((nibbleFold f ^^^ k ^^^ s.rd .POOL_CTL_HSEED) % 16)

/-- The extent that a frame's natural page belongs to, if any: the frame is then BACKING (R193). -/
def State.backing (s : State) (k f : Nat) : Option Extent :=
  (s.extentAt (s.naturalPage k f * 65536)).map (·.2)

/-- Frames of a home that hold a promoted page or a substitute, or are taken by a move in flight. -/
def State.heldFrames (s : State) (k : Nat) : List Nat :=
  (s.tier.pages.filter (fun e => (e.2.loc == 1) && s.homeOfPage e.1 == k)).map (·.2.frame)
    ++ (s.tier.migs.filter (fun m => m.home == k)).flatMap (fun m => if m.kind = 2 then [m.frame, m.src] else [m.frame])

/-- Is a stack in service (POOL_STACKS). -/
def State.stackIn (s : State) (st : Nat) : Bool := (s.rd .POOL_STACKS_INSERV).testBit st

/-- Stack of a frame of a home. -/
def stackOf (k f : Nat) : Nat := 2 * k + f % 2

/-- Does a page's frame serve no more: it is RETIRED or in a lost stack. -/
def State.frameGone (s : State) (k f : Nat) : Bool := s.frameRetired k f || !s.stackIn (stackOf k f)

/-- The frame of an Oasis page. -/
def State.frameNow (s : State) (pg : Nat) : Nat := if (s.page pg).loc = 0 then pg / 16 else (s.page pg).frame

/-- The lowest FREE frame of a home from `f` up, in the stack `f` lies in (R193). -/
def State.freeFrom (s : State) (k f : Nat) : Nat → Option Nat
  | 0 => none
  | fuel + 1 =>
    if f ≥ 2 ^ 21 then none
    else
      match s.backing k f with
      | some x => State.freeFrom s k (2 * (x.base + x.len) + f % 2) fuel
      | none =>
        if s.frameRetired k f || (s.heldFrames k).contains f then State.freeFrom s k (f + 2) fuel
        else some f

/-- The lowest FREE frame of stack `par` (0 even, 1 odd) of a home. -/
def State.lowestFree (s : State) (k par : Nat) : Option Nat :=
  if s.stackIn (2 * k + par) then
    s.freeFrom k par (s.pool.extents.length + s.tier.pages.length + s.tier.migs.length + s.tier.retired.length + 1)
  else none

/-- FREE frames of stack `par` of a home: each granule of an Oasis extent backs one page in each. -/
def State.freeCount (s : State) (k par : Nat) : Nat :=
  let gr := (s.pool.extents.map (fun e => if e.2.state ≠ 0 ∧ e.2.isOasis then e.2.len else 0)).sum
  let held := ((s.heldFrames k).filter (fun f => f % 2 == par && (s.backing k f).isNone)).length
  let ret := (s.tier.retired.filter (fun e => e.1 / 2 ^ 21 == k && e.1 % 2 == par
    && (s.backing k (e.1 % 2 ^ 21)).isNone && !(s.heldFrames k).contains (e.1 % 2 ^ 21))).length
  if s.stackIn (2 * k + par) then 2 ^ 20 - gr - held - ret else 0

/-- The frame a promotion takes: the lowest FREE frame of the stack with more of them (R193). -/
def State.pickFree (s : State) (k : Nat) : Option Nat :=
  let par := if s.freeCount k 0 < s.freeCount k 1 then 1 else 0
  (s.lowestFree k par) <|> (s.lowestFree k (1 - par))

/-- Is the extent of an address ACTIVE. -/
def State.activeAt (s : State) (a : Nat) : Bool :=
  match s.extentAt a with
  | some (_, x) => x.state == 1
  | none => false

/-- The coldest unpinned HOLDING page of a home among those that pass a test, ties to the lowest frame
(R199, R206); pages of an ending extent are no victims (R195), nor is a kept page (R205). -/
def State.victim (s : State) (k : Nat) (ok : Nat → Page → Bool) : Option (Nat × Page) :=
  (s.tier.pages.filter (fun e => e.2.loc == 1 && ergPage e.1 && s.homeOfPage e.1 == k && !e.2.pin && !e.2.keep
      && s.activeAt (e.1 * 65536) && ok e.1 e.2)).foldl
    (fun (b : Option (Nat × Page)) e =>
      match b with
      | none => some e
      | some c =>
        if e.2.heat < c.2.heat ∨ (e.2.heat = c.2.heat ∧ e.2.frame < c.2.frame) then some e else b) none

/-- Migrations in flight at a home, of every kind (R199). -/
def State.migsAt (s : State) (k : Nat) : Nat := (s.tier.migs.filter (fun m => m.home == k)).length

/-- In containment and in a teardown no further page starts to move (Tables 16.4, 18.2). -/
def State.movesHeld (s : State) : Bool := s.rd .SEC_TEN_STAT_STATE == 2 || s.contained

/-- Has a home room for one more migration (R199, condition 1). -/
def State.migRoom (s : State) (k : Nat) : Bool := !s.movesHeld && decide (s.migsAt k < s.rd .TIER_CTL_MIG_MAX)

/-- The slice of a page's extent. -/
def State.sliceOf (s : State) (pg : Nat) : Nat :=
  match s.extentAt (pg * 65536) with
  | some (_, x) => x.slice
  | none => 0

/-- Is a page's extent ERGC. -/
def State.ergcAt (s : State) (pg : Nat) : Bool :=
  match s.extentAt (pg * 65536) with
  | some (_, x) => x.ergc
  | none => false

/-- The stack that holds a page now, for a page in Oasis. -/
def State.stackOfPage (s : State) (pg : Nat) : Option Nat :=
  let x := s.page pg
  if x.loc = 1 then some (2 * s.homeOfPage pg + x.frame % 2)
  else if oasisPage pg ∧ x.loc = 0 then some (2 * s.homeOfPage pg + pg / 16 % 2)
  else none

/-! ### Tray accesses (R70) -/

/-- Outstanding accesses of home `k` to a tray port (R210). -/
def State.trayLoad (s : State) (k p : Nat) : Nat :=
  (s.home.tacc.filter (fun t => t.port == p && s.homeOfPage (t.line / 1024) == k)).length

/-- Credits left in a pool of a port: the partner's advertisement less what was spent and not returned
(R44, R45). -/
def State.creditsLeft (s : State) (p pool : Nat) : Nat :=
  let l := (s.port p).link
  s.rd .PRT_CRED_REM_ADV p pool - ((l.spent.getD pool 0 + 4096 - l.returned.getD pool 0) % 4096)

/-- Send one LD or ST to the tray of a line and keep it outstanding (R70, R186, R188). -/
def State.traySend (s : State) (l : Nat) (isWrite : Bool) (bytes : List Byte) (psn : Bool) (cls sub : Nat)
    (kind : TKind) (ent : Bool := false) : State :=
  match s.trayPort (trayOf (l / 1024)) with
  | none => s
  | some p =>
    let id := s.agentId p
    let seq := (s.port p).traySeq
    let a := trayLocal (64 * l)
    let hdr := mkHdr (commonHdr (if isWrite then opST else opLD) cls id id seq
      ++ [(27, 48, a), (24, 3, 6), (17, 1, b2n psn)])
    let pay := if isWrite then s.encrypt l bytes else []
    let s := s.send (mcDie (s.homeOfPage (l / 1024))) p cls sub { hdr := hdr, payload := pay }
    let s := s.updPort p (fun x => { x with traySeq := (seq + 1) % 2 ^ 20 })
    { s with home := { s.home with tacc := s.home.tacc ++ [{ port := p, seq := seq, line := l, kind := kind, ent := ent }] } }

/-! ### Objects (R207) -/

/-- The object a page belongs to. -/
def State.objectOf (s : State) (pg : Nat) : Option (Nat × Obj) :=
  s.tier.objs.find? (fun e => e.2.state != 0 && decide (e.2.base ≤ pg ∧ pg < e.2.base + e.2.pages))

/-! ### Waiting for a page (R202, R210, R211) -/

/-- The counter of a cause of Table 8.2. -/
def lateFld : Nat → Fld
  | 0 => .TIER_LATE_MIGRATING_COUNT
  | 1 => .TIER_LATE_TRAY_BUSY_COUNT
  | 2 => .TIER_LATE_LINK_RETRAIN_COUNT
  | _ => .TIER_LATE_QUOTA_COUNT

/-- Write a late-log entry for a wait on a page of a layered object (R211). -/
def State.lateLog (s : State) (pg cause : Nat) : State :=
  match s.objectOf pg with
  | some (_, o) =>
    if o.layer = 0xFFFF then s
    else
      let i := s.rd .TIER_LATE_LOG_IDX_NEXT % 64
      ((((s.wr .TIER_LATE_LOG_PAGE pg i).wr .TIER_LATE_LOG_CAUSE cause i).wr .TIER_LATE_LOG_LAYER o.layer i).wr
        .TIER_LATE_LOG_TIME s.now i).advance .TIER_LATE_LOG_IDX_NEXT
  | none => s

/-- A request waits for a cause of Table 8.2: counted once per cause, the wait logged when it begins
(R210, R211). -/
def State.lateWait (s : State) (r : Req) (cause pg : Nat) : State :=
  if cause ≤ 3 then
    let s := if r.causes.contains cause then s else s.bump (lateFld cause)
    let s := s.lateLog pg cause
    s.wait { r with causes := if r.causes.contains cause then r.causes else r.causes ++ [cause] } cause pg
  else s.wait r cause pg

/-- Requests that wait for the data of a tray access, without those whose page moves: they are held (R202). -/
def TAcc.unload (inPage : Nat → Bool) (t : TAcc) : TAcc :=
  if !inPage t.line then t
  else
    match t.kind with
    | .load _ | .grant | .fill => { t with kind := .gone, ent := false }
    | _ => t

/-- Requests that wait for a page under another cause of Table 8.2 now wait under this one (R210, R211). -/
def State.recause (s : State) (pg c : Nat) : State :=
  let mine (w : Wait) : Bool := decide (w.cause ≤ 3) && w.key == pg
  let moved := s.home.waits.filter (fun w => mine w && w.cause != c)
  let s := moved.foldl (fun s w => (if w.req.causes.contains c then s else s.bump (lateFld c)).lateLog pg c) s
  let turn (w : Wait) : Wait :=
    if mine w && w.cause != c then
      { w with cause := c, req := { w.req with causes := if w.req.causes.contains c then w.req.causes else w.req.causes ++ [c] } }
    else w
  { s with home := { s.home with waits := s.home.waits.map turn } }

/-- From now on the home holds every request to a page, in arrival order: those that wait for its tray, for room on the way
to it, in a group of atomics or in a run of stores were not performed (R202). A read of a directory line starts again after
the move. -/
def State.holdPage (s : State) (pg : Nat) : State :=
  let here (l : Nat) : Bool := l / 1024 == pg
  let rs := s.home.tacc.flatMap (fun t => if here t.line then (match t.kind with | .load rs => rs | _ => []) else [])
    ++ s.home.atGrps.flatMap (fun g => if here (lineOf g.addr) then g.members else [])
    ++ s.home.runs.flatMap (fun e => if here e.1 then e.2 else [])
  let s : State := { s with home := { s.home with
    tacc := s.home.tacc.map (TAcc.unload here)
    atGrps := s.home.atGrps.map (fun g => if here (lineOf g.addr) then { g with members := [] } else g)
    runs := s.home.runs.map (fun e => if here e.1 then (e.1, []) else e) } }
  let s := rs.foldl (fun (s : State) (r : Req) => s.lateWait r 0 pg) s
  let s := s.recause pg 0
  let mine (w : Wait) : Bool := decide (w.cause ≤ 3) && w.key == pg
  { s with home := { s.home with
    waits := s.home.waits.filter (fun w => !mine w) ++ sortBy (fun w => w.req.arr) (s.home.waits.filter mine) } }

/-! ### Lines the device owes a tray (R77, R178, R206) -/

/-- Does the device still owe the tray of a line its own write of it. -/
def State.owes (s : State) (l : Nat) : Bool := s.home.owed.any (fun e => decide (e.1 ≤ l ∧ l < e.2))

/-- Lines `lo` to `hi - 1` are owed no more. -/
def State.dropOwed (s : State) (lo hi : Nat) : State :=
  { s with home := { s.home with owed := s.home.owed.flatMap (fun e =>
      [(e.1, min e.2 lo), (max e.1 hi, e.2)].filter (fun e => decide (e.1 < e.2))) } }

/-- Lines `lo` to `hi - 1` are written by the device and owed to their trays. -/
def State.addOwed (s : State) (lo hi : Nat) : State :=
  let s := s.dropOwed lo hi
  { s with home := { s.home with owed := s.home.owed ++ [(lo, hi)] } }

/-! ### Heat (R196, R197) -/

/-- The heat of a page: its frame record's, or the table's. -/
def State.heatOf (s : State) (pg : Nat) : Nat :=
  if (s.page pg).loc = 1 then (s.page pg).heat else tget 0 s.tier.heat pg

/-- Pages of the heat table in the set of a page (R196). -/
def State.heatWays (s : State) (pg : Nat) : Nat :=
  (s.tier.heat.filter (fun e => s.homeOfPage e.1 == s.homeOfPage pg && e.1 / 16 % 16384 == pg / 16 % 16384)).length

/-- Set a heat-table entry. -/
def State.setHeat (s : State) (pg h : Nat) : State :=
  { s with tier := { s.tier with heat := tset 0 s.tier.heat pg h } }

/-- One counted access to a page (R196). -/
def State.countHeat (s : State) (pg : Nat) : State :=
  let x := s.page pg
  if x.loc = 1 then s.setPage pg { x with heat := min 255 (x.heat + 1) }
  else
    let h := tget 0 s.tier.heat pg
    if h ≠ 0 then s.setHeat pg (min 255 (h + 1))
    else if s.heatWays pg < 16 then s.setHeat pg 1
    else s.bump .TIER_HEAT_MISS_COUNT

/-- Does a page carry heat: HEAT extent in an Erg range (R196). -/
def State.heatPage (s : State) (pg : Nat) : Bool :=
  ergPage pg &&
  (match s.extentAt (pg * 65536) with
   | some (_, x) => x.place == 0
   | none => false)

/-- Is heat counted for a page: it carries heat, and HEAT_EN is set (R196, Table 8.3). -/
def State.heatCounted (s : State) (pg : Nat) : Bool := s.on .TIER_CTL_HEAT_EN && s.heatPage pg

/-- May a page be promoted at all: its extent is ACTIVE and not ERG_ONLY (R198). -/
def State.mayPromote (s : State) (pg : Nat) : Bool :=
  match s.extentAt (pg * 65536) with
  | some (_, x) => x.state == 1 && x.place != 1
  | none => false

/-! ### Moving a page (R202 to R206) -/

/-- The PSN of the lines of a page. -/
def State.pagePsns (s : State) (pg : Nat) : List Bool := (List.range 1024).map (fun i => s.linePsn (pg * 1024 + i))

/-- The bytes of a page. -/
def State.pageBytes (s : State) (pg : Nat) : List Byte := memRead s.pool.mem (pg * 65536) 65536

/-- The lines of a page are read in Oasis (R185): errors found are corrected, or the line is poisoned (R203). -/
def State.readPage (s : State) (pg : Nat) : State :=
  (List.range 1024).foldl (fun s i =>
    if (tfind s.pool.symErr (pg * 1024 + i)).isSome || s.linePsn (pg * 1024 + i) then (s.readLine (pg * 1024 + i)).2 else s) s

/-- The line that a page image puts on line `l` of its page, if the image reaches it (R205). -/
def State.imageLine (s : State) (l : Nat) : Option (List Byte) :=
  let img := pageImage (s.pageBytes (l / 1024)) (s.pagePsns (l / 1024))
  if 64 * (l % 1024) < img.length then some (slice img (64 * (l % 1024)) 64) else none

/-- What the device owes the tray of a line: the line, or the image's, or nothing beyond the image's end. -/
def State.owedLine (s : State) (l : Nat) : Option (List Byte × Bool) :=
  if s.ergcAt (l / 1024) then (s.imageLine l).map (fun b => (b, false)) else some (s.lineBytes l, s.linePsn l)

/-- The device writes every line of some Erg pages itself, as the pool now holds them: it owes them to the trays, and what the
write buffer held of them is overtaken (R178, R206; log entry 86). -/
def State.rewritePages (s : State) (pg n : Nat) : State :=
  ({ s with home := { s.home with wbuf := tclear s.home.wbuf (1024 * pg) (1024 * (pg + n)) } }).addOwed (1024 * pg) (1024 * (pg + n))

/-- The device writes the image of an Erg page (R205, R206). -/
def State.rewriteImage (s : State) (pg : Nat) : State :=
  let img := pageImage (s.pageBytes pg) (s.pagePsns pg)
  let s := ({ s with home := { s.home with wbuf := tclear s.home.wbuf (1024 * pg) (1024 * (pg + 1)) } }).dropOwed (1024 * pg) (1024 * (pg + 1))
  s.addOwed (1024 * pg) (1024 * pg + min 1024 (img.length / 64))

/-- Does a migration read or write a page image (R205). -/
def Mig.ergc (m : Mig) : Bool := !m.img.isEmpty || m.need == 1

/-- A page is in TRAY again, its frame there in the form that its move used: where SET_ATTR has changed ERGC since, it is
written anew (R206). -/
def State.reform (s : State) (m : Mig) : State :=
  if m.ergc = s.ergcAt m.page then s
  else if s.ergcAt m.page then s.rewriteImage m.page
  else s.rewritePages m.page 1

/-- Issue the next line of a migration: an LD of the tray line, or an ST of the line's bytes (R202). -/
def State.migIssue (s : State) (m : Mig) : State :=
  if m.done < m.need then
    let l := m.page * 1024 + m.done
    if m.kind = 0 then s.traySend l false [] false 5 1023 (.migration m.page)
    else if m.kind = 1 then
      if m.img = [] then
        let r := s.readLine l
        r.2.traySend l true r.1.1 r.1.2 5 1023 (.migration m.page)
      else s.traySend l true (slice m.img (64 * m.done) 64) false 5 1023 (.migration m.page)
    else s
  else s

/-- Start a promotion of a page into a frame of its home: MIGRATING, the quota charged, the heat taken
along (R199, R201, R202). -/
def State.startPromotion (s : State) (pg frame : Nat) : State :=
  let k := s.homeOfPage pg
  let h := if s.heatPage pg then s.heatOf pg else 0
  let s := s.holdPage pg
  let m : Mig := { page := pg, home := k, kind := 0, frame := frame, need := if s.ergcAt pg then 1 else 1024,
                   done := 0, want := none, img := [], psns := [] }
  let s := (s.setHeat pg 0).setPage pg { s.page pg with loc := 2, frame := frame, heat := h, dirty := false }
  let s := s.chargeOasis (s.sliceOf pg) 1
  ({ s with tier := { s.tier with migs := s.tier.migs ++ [m] } }).migIssue m

/-- The tray's own copy of a clean page is what the page holds again (R194). -/
def State.trayCopy (s : State) (pg : Nat) : State :=
  let mine := s.tier.shadow.filter (fun e => e.1 / 1024 == pg)
  let s := mine.foldl (fun s e => (s.putLine e.1 0 e.2.1).setPsn e.1 e.2.2) s
  { s with tier := { s.tier with shadow := s.tier.shadow.filter (fun e => e.1 / 1024 != pg) }
           pool := { s.pool with symErr := tclear s.pool.symErr (pg * 1024) (pg * 1024 + 1024) } }

/-- A page leaves Oasis: its frame is FREE, the quota falls, its heat re-enters the table if a way is
free, and TIER_DEMO counts it (R196, R200, R201). -/
def State.toTray (s : State) (pg : Nat) : State :=
  let h := (s.page pg).heat
  let s := ((s.trayCopy pg).setPage pg Page.home).creditOasis (s.sliceOf pg) 1
  let s := if h ≠ 0 ∧ s.heatWays pg < 16 ∧ s.heatPage pg then s.setHeat pg h else s
  s.bump .TIER_DEMO_COUNT

/-- Demote a HOLDING page: a clean page at once, a dirty page by a migration. The first part is false
where the demotion does not start: pages do not move now, its home has no room for a migration or its tray port is not UP
(R199, R384), or its image would not fit, and then the page is kept and TIER_ERGC_KEEP counts it (R205). -/
def State.demote (s : State) (pg : Nat) (want : Option Nat) : Bool × State :=
  let x := s.page pg
  if s.movesHeld then (false, s)
  else if !x.dirty then (true, s.toTray pg)
  else if !s.migRoom (s.homeOfPage pg) || !s.trayUp pg then (false, s)
  else
    let ergc := s.ergcAt pg
    let s := if ergc then s.readPage pg else s
    let img := if ergc then pageImage (s.pageBytes pg) (s.pagePsns pg) else []
    if ergc ∧ 65536 < img.length then
      (false, (s.setPage pg { x with keep := true }).bump .TIER_ERGC_KEEP_COUNT)
    else
      let m : Mig := { page := pg, home := s.homeOfPage pg, kind := 1, frame := x.frame,
                       need := if ergc then img.length / 64 else 1024,
                       done := 0, want := want, img := img, psns := [] }
      let s := (s.holdPage pg).setPage pg { x with loc := 2 }
      (true, ({ s with tier := { s.tier with migs := s.tier.migs ++ [m] } }).migIssue m)

/-- A page is demoted now, or as soon as its home has room and its tray port is UP. -/
def State.demoteSoon (s : State) (pg : Nat) : State :=
  let d := s.demote pg none
  if d.1 ∨ (d.2.page pg).keep then d.2 else { d.2 with tier := { d.2.tier with retry := d.2.tier.retry ++ [pg] } }

/-- Demote a victim for a page, and the next one where an image would not fit and its page is kept (R205, R206). The first part
is the victim, if a demotion of one has been made or has started. -/
def State.demoteFor (s : State) (pg : Nat) (pick : State → Option (Nat × Page)) : Nat → Option (Nat × Page) × State
  | 0 => (none, s)
  | n + 1 =>
    match pick s with
    | none => (none, s)
    | some v =>
      let d := s.demote v.1 (some pg)
      if d.1 then (some v, d.2)
      else if (d.2.page v.1).keep then State.demoteFor d.2 pg pick n
      else (none, d.2)

/-! ### The gate of a home access -/

/-- What the tier lets a request do now: access its frame, go to the tray, wait for a cause of Table 8.2
(0 to 3) or for its stack's retrain (7), wait for a promotion or demotion just started, or find that
its page has no frame (R380). -/
inductive Gate where
  | go
  | tray
  | wait (cause : Nat)
  | started
  | noFrame
  deriving DecidableEq, Repr

/-- A page waits, MIGRATING, for the frame that a demotion will free; every request to it is held from now on (R199,
R202). -/
def State.awaitFrame (s : State) (pg : Nat) : State := (s.holdPage pg).setPage pg { s.page pg with loc := 2 }

/-- Take a frame for a page of this home by demoting a victim; with a clean victim the promotion starts
at once, with a dirty one when its demotion ends. -/
def State.promoteOver (s : State) (pg : Nat) (pick : State → Option (Nat × Page)) : Gate × State :=
  let d := s.demoteFor pg pick (s.tier.pages.length + 1)
  match d.1 with
  | none => (.wait 3, d.2)
  | some v =>
    if v.2.dirty then (.started, d.2.awaitFrame pg)
    else
      match d.2.pickFree (s.homeOfPage pg) with
      | some f => (.started, d.2.startPromotion pg f)
      | none => (.wait 3, d.2)

/-- A frame for an ERGC page: a FREE one, or that of the home's coldest unpinned page (R206). -/
def State.ergcFrame (s : State) (pg : Nat) : Gate × State :=
  let k := s.homeOfPage pg
  match s.pickFree k with
  | some f => (.started, s.startPromotion pg f)
  | none => s.promoteOver pg (fun s => s.victim k (fun _ _ => true))

/-- R206: an access to an ERGC page in TRAY promotes it, or says why it waits. -/
def State.ergcGate (s : State) (pg : Nat) : Gate × State :=
  let k := s.homeOfPage pg
  let slc := s.sliceOf pg
  if !s.trayUp pg then (.wait 2, s)
  else if !s.migRoom k then (.wait 0, s)
  else if s.oasisOver slc 1 then
    let pick (s : State) : Option (Nat × Page) :=
      (List.range 16).findSome? (fun i => s.victim ((k + i) % 16) (fun q _ => s.sliceOf q == slc))
    let d := s.demoteFor pg pick (s.tier.pages.length + 1)
    match d.1 with
    | some v => if v.2.dirty then (.started, d.2.awaitFrame pg) else d.2.ergcFrame pg
    | none =>
      match pick d.2 with
      | some v => (.wait (if v.2.dirty && !d.2.migRoom (d.2.homeOfPage v.1) then 0 else 3), d.2)
      | none => (.wait 3, d.2)
  else s.ergcFrame pg

/-- R199: promote a hot TRAY page if every condition holds. -/
def State.heatPromote (s : State) (pg : Nat) : Option State :=
  let k := s.homeOfPage pg
  if !decide (s.rd .TIER_PROMO_THR ≤ s.heatOf pg) || !s.migRoom k then none
  else if s.oasisOver (s.sliceOf pg) 1 then some (s.bump .TIER_PROMO_QUOTA_COUNT)
  else if !s.trayUp pg then none
  else
    match s.pickFree k with
    | some f => some (s.startPromotion pg f)
    | none => some (s.promoteOver pg (fun t => t.victim k (fun _ x => decide (x.heat + s.rd .TIER_PROMO_HYST ≤ s.heatOf pg)))).2

/-- The gate of a page: what an access to it may do now (R194, R199, R206, R210). `count` for an access
that counts as heat and has not been counted yet. -/
def State.gate (s : State) (pg : Nat) (count : Bool) : Gate × State :=
  let x := s.page pg
  if x.loc = 2 ∨ s.busy.rewrite.contains pg then (.wait 0, s)
  else if x.loc = 3 then (.noFrame, s)
  else
    match s.stackOfPage pg with
    | some st =>
      let s := if count ∧ s.heatCounted pg then s.countHeat pg else s
      if s.rcv.stackWait.contains st then (.wait 7, s) else (.go, s)
    | none =>
      if s.ergcAt pg then s.ergcGate pg
      else
        let s := if count ∧ s.heatCounted pg then s.countHeat pg else s
        let prom := if count ∧ s.heatCounted pg then s.heatPromote pg else none
        match prom with
        | some s' => if (s'.page pg).loc = 2 then (.started, s') else (.tray, s')
        | none => (.tray, s)

/-- Does the gate of a page count heat for an access now: not one that the page's move holds back, or that first promotes an
ERGC page; such an access counts when it is served (R196, R202, R206). -/
def State.gateCounts (s : State) (pg : Nat) : Bool :=
  let x := s.page pg
  x.loc != 2 && x.loc != 3 && !s.busy.rewrite.contains pg && ((s.stackOfPage pg).isSome || !s.ergcAt pg)

/-- The tray path of a line: whether an access of class `cls` and `n` slots may be issued now (R44, R210). -/
def State.trayGate (s : State) (l cls n : Nat) : Gate :=
  let pg := l / 1024
  if !s.trayUp pg then .wait 2
  else
    match s.trayPort (trayOf pg) with
    | some p =>
      if s.rd .TIER_TRAY_QD_QD ≤ s.trayLoad (s.homeOfPage pg) p ∨ s.creditsLeft p cls < n then .wait 1 else .tray
    | none => .wait 2

/-- The first write to a page after promotion sets DIRTY, and ends a kept page's pinning (R194, R205). What its tray still
holds, or is still owed, counts no more: the demotion will write every line. -/
def State.touch (s : State) (pg : Nat) : State :=
  let x := s.page pg
  if x.loc = 1 ∧ ergPage pg then
    let s := (s.setPage pg { x with dirty := true, keep := false }).dropOwed (pg * 1024) (pg * 1024 + 1024)
    { s with tier := { s.tier with shadow := s.tier.shadow.filter (fun e => e.1 / 1024 != pg) }
             home := { s.home with wbuf := tclear s.home.wbuf (pg * 1024) (pg * 1024 + 1024) } }
  else s

/-! ### The end of a migration -/

/-- Take a migration out of flight. -/
def State.dropMig (s : State) (pg : Nat) : State :=
  { s with tier := { s.tier with migs := s.tier.migs.filter (fun m => m.page != pg) } }

/-- An Oasis page moves to another frame of its home, as a substitute (R379): a migration without tray lines. -/
def State.startMove (s : State) (pg frame : Nat) : State :=
  let m : Mig := { page := pg, home := s.homeOfPage pg, kind := 2, frame := frame, need := 0, done := 0, want := none,
                   img := [], psns := [], src := s.frameNow pg }
  let s := (s.holdPage pg).setPage pg { s.page pg with loc := 2, frame := frame }
  { s with tier := { s.tier with migs := s.tier.migs ++ [m] } }

/-- Pages that have no frame (EVT_FRAME_NOSUB). -/
def State.countNosub (s : State) : State :=
  s.wr .EVT_FRAME_NOSUB_PAGES ((s.tier.pages.filter (fun e => e.2.loc == 3)).length)

/-- Every line of a page is 0xFF with PSN 1 (R204, R380). -/
def State.poisonPage (s : State) (pg : Nat) : State :=
  let s := s.withMem (memWrite s.pool.mem (pg * 65536) (List.replicate 65536 0xFF))
  (List.range 1024).foldl (fun s i => s.setPsn (pg * 1024 + i) true) s

/-- A page without a frame, or whose frame is RETIRED, takes this one (R379, R380). -/
def State.takeSub (s : State) (pg frame : Nat) : State :=
  if (s.page pg).loc = 3 then
    ((s.setPage pg { s.page pg with loc := 1, frame := frame }).poisonPage pg).countNosub
  else if s.movesHeld then s
  else s.startMove pg frame

/-- Does a page in a frame have to leave it for another one: a substitute or a kept page, whose frame serves no more or is
to back another page (R205, R379). -/
def State.mustMove (s : State) (pg : Nat) : Bool :=
  let x := s.page pg
  x.loc == 1 && (x.keep || oasisPage pg)
    && (s.frameGone (s.homeOfPage pg) x.frame || (s.backing (s.homeOfPage pg) x.frame).isSome)

/-- Does an Oasis page want a substitute: it has no frame, or its frame is RETIRED (R379, R380); or a kept page another
frame (R205). -/
def State.wantsSub (s : State) (pg : Nat) : Bool :=
  s.mustMove pg ||
  (oasisPage pg && (s.extentAt (pg * 65536)).isSome && (s.page pg).loc != 2
    && ((s.page pg).loc == 3 || s.frameGone (s.homeOfPage pg) (s.frameNow pg)))

/-- A demotion that was to free a frame for a page is over: the page takes a frame, if it still wants one and the
conditions hold, or is in TRAY again (R199, R202, R206, R379). -/
def State.wantPage (s : State) (pg : Nat) : State :=
  let k := s.homeOfPage pg
  if oasisPage pg || (s.page pg).loc == 1 then
    if !s.wantsSub pg then s
    else
      match s.pickFree k with
      | some f => s.takeSub pg f
      | none => s
  else if (s.page pg).loc ≠ 2 ∨ s.tier.migs.any (fun m => m.page == pg) then s
  else
    let s := s.setPage pg { s.page pg with loc := 0 }
    if !s.mayPromote pg then s
    else if s.ergcAt pg then (s.ergcGate pg).2
    else if s.migRoom k ∧ s.trayUp pg ∧ !s.oasisOver (s.sliceOf pg) 1 then
      match s.pickFree k with
      | some f => s.startPromotion pg f
      | none => s
    else s

/-- Write a whole page with the PSN of its lines. -/
def State.putPage (s : State) (pg : Nat) (bytes : List Byte) (psns : List Bool) : State :=
  let s := s.withMem (memWrite s.pool.mem (pg * 65536) bytes)
  psns.zipIdx.foldl (fun s (b, i) => s.setPsn (pg * 1024 + i) b) s

/-- Is a page's extent ACTIVE with PLACE = ERG_ONLY (R198). -/
def State.ergOnlyAt (s : State) (pg : Nat) : Bool :=
  match s.extentAt (pg * 65536) with
  | some (_, x) => x.state == 1 && x.place == 1
  | none => false

/-- Every line of the migration is performed: the new location is set and the move counted (R202, R205). A page whose extent
became ERG_ONLY meanwhile, or whose frame was RETIRED, is demoted (R198, R379). -/
def State.endMig (s : State) (m : Mig) : State :=
  let s := s.dropMig m.page
  if m.kind = 0 then
    let s :=
      if m.ergc then
        let c := s.freeCtr
        let e := expandImage m.img m.psns (fun b => leBytes 512 (Config.freeValue (c + b)))
        let s := { s.putPage m.page e.1 e.2.1 with freeCtr := c + (if e.2.2 = 0 then 0 else 128) }
        if e.2.2 = 0 then s
        else (s.bump .TIER_ERGC_CHECK_COUNT 0 0 e.2.2).event .ergcCheck 0 m.page 0
      else s
    -- what the tray write buffer still holds of the page is written back whole from now on (R77)
    let whole (e : Nat × WbEnt) : Nat × WbEnt :=
      if e.1 / 1024 = m.page ∧ e.2.bytes.length < 64 then
        (e.1, { e.2 with bytes := (s.lineBytes e.1).zipIdx.map (fun (b, i) => (i, b)), psn := s.linePsn e.1 })
      else e
    let s := { s with home := { s.home with wbuf := s.home.wbuf.map whole } }
    let s := (s.setPage m.page { s.page m.page with loc := 1, frame := m.frame, dirty := false }).bump .TIER_PROMO_CNT_COUNT
    if s.ergOnlyAt m.page || s.frameGone m.home m.frame then s.demoteSoon m.page else s
  else if m.kind = 1 then
    let s := (s.toTray m.page).reform m
    match m.want with
    | some w => s.wantPage w
    | none => s
  else s.setPage m.page { s.page m.page with loc := 1, frame := m.frame }

/-- A migration is abandoned: a promoted page stays in TRAY with its frame FREE and the quota released;
a demoted page stays in OASIS, dirty, and the home tries again when the port is UP (R203). -/
def State.abandonMig (s : State) (m : Mig) : State :=
  let s := { s with home := { s.home with tacc := s.home.tacc.filter (fun t => t.kind != TKind.migration m.page) } }
  let s := (s.dropMig m.page).bump .TIER_MIG_ABORT_COUNT
  if m.kind = 0 then
    let h := (s.page m.page).heat
    let s := ((s.setPage m.page Page.home).creditOasis (s.sliceOf m.page) 1).reform m
    if h ≠ 0 ∧ s.heatWays m.page < 16 ∧ s.heatPage m.page then s.setHeat m.page h else s
  else
    let s := s.setPage m.page { s.page m.page with loc := 1, frame := m.frame, dirty := true }
    let s := { s with tier := { s.tier with retry := s.tier.retry ++ [m.page] } }
    match m.want with
    | some w => s.wantPage w
    | none => s

/-- Demotions abandoned or put off earlier are tried again for the pages of a tray that is UP (R203). -/
def State.retryDemotions (s : State) : State :=
  let go := s.tier.retry.filter (fun pg => s.trayUp pg)
  let s := { s with tier := { s.tier with retry := s.tier.retry.filter (fun pg => !s.trayUp pg) } }
  let again (s : State) (pg : Nat) : State :=
    if (s.page pg).loc ≠ 1 ∨ (s.page pg).keep then s
    else
      let d := s.demote pg none
      if d.1 ∨ (d.2.page pg).keep then d.2 else { d.2 with tier := { d.2.tier with retry := d.2.tier.retry ++ [pg] } }
  go.foldl again s

end Sys2Proof.Machine
end

