-- ==== Sys2Proof/Machine/Home.lean ====
section
/-! DEFINITION. Accesses at a home: reads, writes and atomics of a line in Oasis or on a tray through
the tray write buffer (R77, R185), combining and merging (R111 to R117), and the home's own checks. -/

namespace Sys2Proof.Machine

/-! ### The tray write buffer (R77) -/

/-- Is a line on its tray now. -/
def State.onTray (s : State) (l : Nat) : Bool := ergPage (l / 1024) && (s.page (l / 1024)).loc == 0

/-- Which bytes of a line the home's write buffer holds: all of a line that the device owes its tray. -/
def State.wbufOf (s : State) (l : Nat) : List (Nat × Byte) :=
  if s.owes l && !s.ergcAt (l / 1024) then (s.lineBytes l).zipIdx.map (fun (b, i) => (i, b))
  else
    match tfind s.home.wbuf l with
    | some e => e.bytes
    | none => []

/-- Does the write buffer hold bytes `off` to `off + n - 1` of a line. -/
def State.wbufCovers (s : State) (l off n : Nat) : Bool :=
  (List.range n).all (fun i => (tfind (s.wbufOf l) (off + i)).isSome)

/-- The subscriber and the class under which a write goes on to a tray: those of its request (Table 5.1). -/
structure Via where
  sub : Nat := 1023
  cls : Nat := 3
  deriving DecidableEq, Repr

/-- What a request's write goes on under: tray STs travel in SC3, or in SC5 for traffic of that class (Tables 2.5, 5.1). -/
def Req.via (r : Req) : Via := { sub := r.sub, cls := if mSc r.msg = 5 then 5 else 3 }

/-- Enter bytes into the write buffer. -/
def State.wbufPut (s : State) (l off : Nat) (bs : List Byte) (psn : Bool) (v : Via := {}) : State :=
  let old := s.wbufOf l
  let new := bs.zipIdx.foldl (fun t (b, i) => tins t (off + i) b) old
  { s with home := { s.home with
      wbuf := tins s.home.wbuf l { bytes := new, psn := psn, issued := false, sub := v.sub, cls := v.cls } } }

/-- A line that the device owes its tray becomes a whole entry of the write buffer. -/
def State.owedIn (s : State) (l : Nat) : State :=
  if !s.owes l then s
  else
    let o := s.owedLine l
    let s := s.dropOwed l (l + 1)
    match o with
    | none => s
    | some (bs, psn) => s.wbufPut l 0 bs psn { cls := 5 }

/-- A write-back that the tray has performed leaves the write buffer, once no access of the line is out that could still
bring what the tray held before (R87). -/
def State.wbufSettle (s : State) (l : Nat) : State :=
  match tfind s.home.wbuf l with
  | some e =>
    if e.issued && !s.home.tacc.any (fun t => t.line == l) then { s with home := { s.home with wbuf := tdel s.home.wbuf l } } else s
  | none => s

/-- A line's bytes with the write buffer's laid over them. -/
def overlay (bs : List Byte) (w : List (Nat × Byte)) : List Byte :=
  bs.zipIdx.map (fun (b, i) => (tfind w i).getD b)

/-! ### Performing -/

/-- The payload bytes a store writes (R57). -/
def storeBytes (m : Msg) : List Byte := slice m.payload 0 (mSize m)

/-- A line is stored to: its read entry closes (R113), and it awaits no returned DATA any more (R228). -/
def State.closeRead (s : State) (l : Nat) : State :=
  { s with home := { s.home with rdEnts := tdel s.home.rdEnts l
                                 tacc := s.home.tacc.map (fun t => if t.line = l then { t with ent := false } else t) },
           coh := { s.coh with awaits := s.coh.awaits.filter (fun e => e.1 != l) } }

/-- Write bytes of a line where the line is now: Oasis, or the home's tray write buffer. The status of
the CMP (Table 7.9). -/
def State.storeLine (s : State) (l off : Nat) (bs : List Byte) (psn : Bool) (v : Via := {}) : Nat × State :=
  let r := (s.closeRead l).writeLine l off bs psn
  let s := r.2.touch (l / 1024)
  if s.onTray l then (r.1, s.wbufPut l off bs (s.linePsn l) v) else (r.1, s)

/-- The bytes of a run's merged write: later arrivals overwrite earlier ones byte by byte (R93). -/
def runImage (rs : List Req) : List (Nat × Byte) :=
  rs.foldl (fun t r => (storeBytes r.msg).zipIdx.foldl (fun t (b, i) => tins t (mAddr r.msg % 64 + i) b) t) []

/-- The merged write of stores to one line, under the last one's subscriber; every member gets its status (R93, R112,
R115). -/
def State.writeRun (s : State) (l : Nat) (rs : List Req) : State :=
  let img := runImage (rs.flatMap s.members)
  let v := match rs.getLast? with | some r => r.via | none => {}
  let w :=
    if img.length = 64 then s.storeLine l 0 (img.map (·.2)) false v
    else
      img.foldl (fun (st : Nat × State) e =>
        let w := st.2.storeLine l e.1 [e.2] false v
        (max st.1 w.1, w.2)) (stOK, s)
  rs.foldl (fun s r => s.finishCmp r w.1) w.2

/-- A store that is applied now, with its CMP (R77, R185). -/
def State.doStore (s : State) (r : Req) : State :=
  match r.org with
  | .plane _ => s.writeRun (lineOf (mAddr r.msg)) [r]
  | _ =>
    let a := mAddr r.msg
    let w := s.storeLine (lineOf a) (a % 64) (storeBytes r.msg) (mPsn r.msg) r.via
    w.2.finishCmp r w.1

/-- A read of a line whose value is at hand: it is bound and answered (R77). -/
def State.doRead (s : State) (r : Req) (grant : Nat := 0) : State :=
  let v := s.readLine (lineOf (mAddr r.msg))
  v.2.finish r (v.2.dataResp r.msg v.1.1 v.1.2 grant)

/-- The atomic's slot: the old value laid out as the operand (R57, R62). -/
def atSlot (m : Msg) (old : Nat) : List Byte := slice (leBytes (mSize m) old) 0 16

/-- An atomic on a line whose value is at hand, and its answer (R56, R185). An AT carrying PSN is a write carrying PSN
(Table 7.9; log entry 20). -/
def State.atomicDone (s : State) (r : Req) : Resp × State :=
  let a := mAddr r.msg
  let l := lineOf a
  let s := (s.checkLine l).2
  let old := leVal (memRead s.pool.mem a (mSize r.msg))
  let ans (st : Nat) (psn : Bool) : Resp :=
    { status := st, psn := psn, susp := mFetch r.msg && s.lineSusp l,
      data := if mFetch r.msg then some (atSlot r.msg old) else none }
  if s.linePsn l then (ans stPOISON (mFetch r.msg), s)
  else
    let new := atomicOp (mAtop r.msg) (mSigned r.msg) (8 * mSize r.msg) old (atOperand r.msg) (atCompare r.msg)
    let w := s.storeLine l (a % 64) (leBytes (mSize r.msg) new) (mPsn r.msg) r.via
    (ans stOK false, w.2)

/-- An atomic is performed and answered; those that a plane has merged, in their order, as one access (R112, R114). -/
def State.doAtomic (s : State) (r : Req) : State :=
  match r.org with
  | .plane _ =>
    let t := (s.members r).foldl (fun (a : List (Req × Resp) × State) m =>
      let d := a.2.atomicDone m
      (a.1 ++ [(m, d.1)], d.2)) ([], s)
    (t.2.dropMerged r).answerAll (s.homeOf (mAddr r.msg)) t.1
  | _ =>
    let d := s.atomicDone r
    d.2.finish r d.1

/-- The class of the tray LD that serves a request: SC2, or SC5 for traffic of that class (Tables 2.5, 5.1). -/
def trayCls (m : Msg) : Nat := if mSc m = 5 then 5 else 2

/-! ### The line table (R111 to R117) -/

/-- Entries of a home's line table: read entries, atomic groups and store runs (R113, R116). A read whose line has still to
come from its tray has its entry too. -/
def State.lineTable (s : State) (k : Nat) : Nat :=
  (s.home.rdEnts.filter (fun e => s.homeOfPage (e.1 / 1024) == k)).length
    + (s.home.tacc.filter (fun t => t.ent && s.homeOfPage (t.line / 1024) == k && (tfind s.home.rdEnts t.line).isNone)).length
    + (s.home.atGrps.filter (fun g => s.homeOf g.addr == k)).length
    + (s.home.runs.filter (fun e => s.homeOfPage (e.1 / 1024) == k)).length

/-- Is there room for an entry in the line table of a line's home (R113). -/
def State.tableRoom (s : State) (l : Nat) : Bool := decide (s.lineTable (s.homeOfPage (l / 1024)) < 4096)

/-- Is a read of a line out that reads of the line join (R113). -/
def TAcc.joins (l : Nat) (t : TAcc) : Bool := t.line == l && t.ent && (match t.kind with | .load _ => true | _ => false)

/-- Is such a read of a line out. -/
def State.loadOut (s : State) (l : Nat) : Bool := s.home.tacc.any (TAcc.joins l)

/-- Issue a tray LD for a line and let a request wait for it; one that may be combined joins the LD of its line's entry, or
opens the entry if the table has room (R70, R113). -/
def State.trayRead (s : State) (r : Req) (comb : Bool) : State :=
  let l := lineOf (mAddr r.msg)
  let t := s.stamp r
  let r := t.1
  let s := t.2
  if comb ∧ s.loadOut l then
    let add (t : TAcc) : TAcc :=
      if t.joins l then
        match t.kind with
        | .load rs => { t with kind := .load (rs ++ [r]) }
        | _ => t
      else t
    ({ s with home := { s.home with tacc := s.home.tacc.map add } }).bump .SWC_COMB_RD_COUNT
  else
    let ent := comb && ((tfind s.home.rdEnts l).isSome || s.tableRoom l)
    let s := if comb && !ent then s.bump .SWC_LINE_TBL_FULL_COUNT else s
    s.traySend l false [] false (trayCls r.msg) r.sub (.load [r]) ent

/-- The answers of a page without a frame (R380): reads DATA POISON with every byte 0xFF, writes CMP
POISON with no effect. -/
def State.noFrameAnswer (s : State) (r : Req) : State :=
  if expectsData r.msg then
    s.finish r { status := stPOISON, psn := true, susp := s.lineSusp (lineOf (mAddr r.msg)),
                 data := some (if mOpc r.msg = opAT then List.replicate 16 0xFF else cutLine r.msg allOnes) }
  else s.finishCmp r stPOISON

/-- May a request be combined or merged (R111, Table 4.2, Table 9.12). -/
def eligible (m : Msg) (x : Extent) : Bool :=
  let o := mOpc m
  !mPsn m && !x.coh &&
  (o == opLD || o == opNRD || (!x.pub && (o == opST || o == opNWR || (o == opAT && decide (mAtop m ≤ 5)))))

/-- What an extent's state answers at check 2 of Table 7.6: none for ACTIVE. -/
def extentCheck (x : Option (Nat × Extent)) : Option Nat :=
  match x with
  | some (_, e) => if e.state = 1 then none else if e.state = 2 then some stLEASE_GONE else some stUNMAPPED
  | none => some stUNMAPPED

/-- Does a request's access count for heat: those of agents, operations, channels and near-memory engines do (R196). -/
def Req.counted (r : Req) : Bool :=
  match r.org with
  | .host _ | .mirror => false
  | _ => true

/-- Requests that are performed as one access pass the gate of their page together: they count once for heat, and where
the access may not be made they wait (R196, R202, R210). -/
def State.together (s : State) (pg : Nat) (rs : List Req) (act : State → State) : State :=
  let g := s.gate pg (rs.any Req.counted)
  let hold (c : Nat) : State := rs.foldl (fun s r => s.lateWait { r with hot := r.hot || s.gateCounts pg } c pg) g.2
  match g.1 with
  | .go => act g.2
  | .started => hold 0
  | .wait c => hold c
  | .noFrame => rs.foldl (fun s r => s.noFrameAnswer r) g.2
  | .tray => if g.2.trayUp pg then act g.2 else hold 2

/-- Apply the merged write of a line's run, and open the next window (R93, R115, R116). -/
def State.applyRun (s : State) (l : Nat) : State :=
  match tfind s.home.runs l with
  | none => s
  | some [] => s
  | some rs =>
    let s := { s with home := { s.home with runs := tins s.home.runs l [] } }
    match extentCheck (s.extentAt (64 * l)) with
    | some st => rs.foldl (fun s r => s.finishCmp r st) s
    | none => s.together (l / 1024) rs (fun s => s.writeRun l rs)

/-- Apply a group of atomics in arrival order (R113, R114); where the word is on its tray, once the line has come. -/
def State.applyGroup (s : State) (g : AtGrp) : State :=
  let s := { s with home := { s.home with atGrps := s.home.atGrps.filter (fun x => !(x == g)) } }
  match extentCheck (s.extentAt g.addr), g.members with
  | _, [] => s
  | some st, rs => rs.foldl (fun s r => s.finishCmp r st) s
  | none, r :: rs =>
    s.together (pageOf g.addr) (r :: rs) (fun s =>
      let l := lineOf g.addr
      if !s.onTray l || s.wbufCovers l (g.addr % 64) g.size then (r :: rs).foldl (fun s r => s.doAtomic r) s
      else
        match s.trayGate l (trayCls r.msg) 1 with
        | .wait c => (r :: rs).foldl (fun s r => s.lateWait { r with hot := true } c (pageOf g.addr)) s
        | _ => s.traySend l false [] false (trayCls r.msg) r.sub (.load (r :: rs)))

/-- Is a read eligible to be combined, while combining is on. -/
def State.combines (s : State) (m : Msg) (x : Extent) : Bool := eligible m x && s.on .SWC_CTL_COMB_EN

/-- Would a request join an entry, group or run that is open, or a load that is out (R113, R116): such a request counts no
heat of its own (R196). -/
def State.joins (s : State) (r : Req) (x : Extent) : Bool :=
  let m := r.msg
  let l := lineOf (mAddr m)
  eligible m x &&
  (if isRead (mOpc m) then s.on .SWC_CTL_COMB_EN && ((tfind s.home.rdEnts l).isSome || s.loadOut l)
   else if mOpc m = opAT then s.on .SWC_CTL_COMB_EN && s.home.atGrps.any (fun g => g.takes m)
   else s.on .SWC_CTL_MRG_EN && (tfind s.home.runs l).isSome)

/-- Is a store merged into the run of its line (R111, R116). -/
def State.merges (s : State) (m : Msg) (x : Extent) : Bool :=
  eligible m x && !isRead (mOpc m) && mOpc m != opAT && s.on .SWC_CTL_MRG_EN

/-- A request arrives at its line: one that the run there does not take ends it (R93). -/
def State.endRun (s : State) (m : Msg) (x : Extent) : State := if s.merges m x then s else s.applyRun (lineOf (mAddr m))

/-- A line's value, or some bytes of it, is bound for an eligible read: an entry is opened for it, if the table has room
(R113). -/
def State.openEntry (s : State) (l : Nat) (bytes : List Byte) (psn : Bool) (known : Option (List Nat) := none) : State :=
  if s.tableRoom l then
    { s with home := { s.home with rdEnts := tins s.home.rdEnts l { bytes := bytes, psn := psn, known := known } } }
  else s.bump .SWC_LINE_TBL_FULL_COUNT

/-- Does a read entry hold the bytes a read asks for. -/
def RdEnt.serves (e : RdEnt) (m : Msg) : Bool :=
  match e.known with
  | none => true
  | some ks => (List.range (mSize m)).all (fun i => ks.contains (mAddr m % 64 + i))

/-- An eligible or plain read whose page may be accessed: an open entry serves it, else the line is read and an entry
opened; one on its tray opens it when the line has come (R113). -/
def State.plainRead (s : State) (r : Req) (x : Extent) : State :=
  let m := r.msg
  let l := lineOf (mAddr m)
  let comb := s.combines m x
  match (if comb then tfind s.home.rdEnts l else none) with
  | some e =>
    if e.serves m then (s.bump .SWC_COMB_RD_COUNT).finish r (s.dataResp m e.bytes e.psn)
    else (if s.loadOut l then s else s.bump .SWC_COMB_RD_COUNT).trayRead r true
  | none =>
    if s.onTray l && !s.wbufCovers l (mAddr m % 64) (mSize m) then s.trayRead r comb
    else
      let v := s.readLine l
      let s := v.2.finish r (v.2.dataResp m v.1.1 v.1.2)
      if !comb then s
      else s.openEntry l v.1.1 v.1.2 (if s.onTray l && !s.wbufCovers l 0 64 then some ((s.wbufOf l).map (·.1)) else none)

/-- A store whose page may be accessed (R93, R116). -/
def State.plainStore (s : State) (r : Req) (x : Extent) : State :=
  let m := r.msg
  let l := lineOf (mAddr m)
  if s.merges m x then
    match tfind s.home.runs l with
    | some rs =>
      let t := s.stamp r
      ({ t.2 with home := { t.2.home with runs := tins t.2.home.runs l (rs ++ [t.1]) } }).bump .SWC_MRG_ST_COUNT
    | none =>
      let s := s.doStore r
      if s.tableRoom l then { s with home := { s.home with runs := tins s.home.runs l [] } }
      else s.bump .SWC_LINE_TBL_FULL_COUNT
  else s.doStore r

/-- Is a word of a line at hand: in Oasis, or covered by the tray write buffer. -/
def State.wordHere (s : State) (m : Msg) : Bool :=
  !s.onTray (lineOf (mAddr m)) || s.wbufCovers (lineOf (mAddr m)) (mAddr m % 64) (mSize m)

/-- An atomic whose page may be accessed (R93, R113). -/
def State.plainAtomic (s : State) (r : Req) (x : Extent) : State :=
  let m := r.msg
  let l := lineOf (mAddr m)
  if s.combines m x then
    match s.home.atGrps.find? (fun g => g.takes m) with
    | some g =>
      let t := s.stamp r
      ({ t.2 with home := { t.2.home with atGrps := t.2.home.atGrps.map (fun y =>
          if AtGrp.takes y m then { g with members := g.members ++ [t.1] } else y) } }).bump .SWC_COMB_AT_COUNT
    | none =>
      let s := if s.wordHere m then s.doAtomic r else s.trayRead r false
      if s.tableRoom l then
        { s with home := { s.home with
            atGrps := s.home.atGrps ++ [AtGrp.mk (mAddr m) (mAtop m) (mSize m) (mSigned m) []] } }
      else s.bump .SWC_LINE_TBL_FULL_COUNT
  else if s.wordHere m then s.doAtomic r
  else s.trayRead r false

/-- The line an access of a tray brings: the tray's bytes with the write buffer's laid over them become
what the home knows of the line (R77, R186). -/
def State.learnLine (s : State) (l : Nat) (bytes : List Byte) (psn : Bool) : State :=
  let w := s.wbufOf l
  let full := decide (w.length = 64)
  let s := s.putLine l 0 (overlay bytes w)
  if full then s else s.setPsn l (psn || (match tfind s.home.wbuf l with | some e => e.psn | none => false))

/-- A line that came from its tray poisoned, or that holds poisoned bytes since, was read poisoned: counted once (R186). -/
def State.notePsn (s : State) (l : Nat) : State := if s.linePsn l then s.bump .POOL_POISON_RD_COUNT else s

/-- A request that waited for its tray line is served from it (R77). -/
def State.serveTray (s : State) (r : Req) : State :=
  if mOpc r.msg = opAT then s.doAtomic r
  else s.finish r (s.dataResp r.msg (s.lineBytes (lineOf (mAddr r.msg))) (s.linePsn (lineOf (mAddr r.msg))))

/-- The requests that waited for a tray line are served in turn; an entry keeps the line once it has come (R113). -/
def State.serveLoads (s : State) (l : Nat) (rs : List Req) (ent : Bool) : State :=
  let s := rs.foldl (fun s r => s.serveTray r) s
  if ent then { s with home := { s.home with rdEnts := tins s.home.rdEnts l { bytes := s.lineBytes l, psn := s.linePsn l } } }
  else s

end Sys2Proof.Machine
end

