-- ==== Sys2Proof/Machine/Coherence.lean ====
section
/-! DEFINITION. Coherence groups and the directory (R213 to R238): membership, the transitions of
Tables 9.4 to 9.7, recalls, and the group fault. -/

namespace Sys2Proof.Machine

/-! ### Groups (R213) -/

/-- A group with no slot. -/
def Cg.init : Cg := { slots := [], removing := none, walk := 0, faultWalk := false }

/-- A group's record. -/
def State.cg (s : State) (g : Nat) : Cg := tget Cg.init s.coh.cgs g

/-- Set a group's record. -/
def State.setCg (s : State) (g : Nat) (c : Cg) : State :=
  { s with coh := { s.coh with cgs := tset Cg.init s.coh.cgs g c } }

/-- State of a group: 0 OFF, 1 UP, 2 FAULTED. -/
def State.cgState (s : State) (g : Nat) : Nat := s.rd .DIR_CG_STAT_STATE g

/-- Is an agent bound with ROLE 0x2, a caching accelerator. -/
def State.caching (s : State) (id : Nat) : Bool :=
  match s.portOfAgent id with
  | some p => s.rd .PRT_PFTL_STAT_ROLE p == 2
  | none => false

/-- The slot that lists an agent in a group. -/
def State.slotListed (s : State) (g id : Nat) : Option Nat := ((s.cg g).slots.find? (fun e => e.2 == id)).map (·.1)

/-- The slot through which an agent is a member of a group (R213); a slot under REMOVE is none
(Table 9.1). -/
def State.memberSlot (s : State) (g id : Nat) : Option Nat :=
  if s.cgState g ≠ 0 ∧ s.caching id then
    match s.slotListed g id with
    | some m => if (s.cg g).removing = some m then none else some m
    | none => none
  else none

/-- The agent in a slot. -/
def State.slotAgent (s : State) (g m : Nat) : Option Nat := ((s.cg g).slots.find? (fun e => e.1 == m)).map (·.2)

/-! ### Directory entries (R217, R218) -/

/-- The entry of a line, if it has one. -/
def State.dirEnt (s : State) (l : Nat) : Option DirEnt := tfind s.coh.dir l

/-- Write an entry. -/
def State.setDir (s : State) (l : Nat) (e : DirEnt) : State :=
  { s with coh := { s.coh with dir := tins s.coh.dir l e } }

/-- Remove an entry: the line is in U. -/
def State.dropDir (s : State) (l : Nat) : State := { s with coh := { s.coh with dir := tdel s.coh.dir l } }

/-- The directory set of a line, a[25:6] XOR a[45:26] (R217). -/
def dirSet (l : Nat) : Nat := (l % 2 ^ 20) ^^^ (l / 2 ^ 20 % 2 ^ 20)

/-- Is a state transient (Table 9.5). -/
def DSt.transient : DSt → Bool
  | .US_D | .UX_D | .SX_I | .XS_F | .XX_F | .X_WB => true
  | _ => false

/-- The entries in the set of a line at its home. -/
def State.dirWays (s : State) (l : Nat) : List (Nat × DirEnt) :=
  s.coh.dir.filter (fun e => s.homeOfPage (e.1 / 1024) == s.homeOfPage (l / 1024) && dirSet e.1 == dirSet l)

/-- A free way of a line's set (R218). -/
def State.freeWay (s : State) (l : Nat) : Option Nat :=
  (List.range 16).find? (fun w => !(s.dirWays l).any (fun e => e.2.way == w))

/-- The entry with the lowest way among those that pass a test. -/
def lowestWay (es : List (Nat × DirEnt)) (ok : DirEnt → Bool) : Option (Nat × DirEnt) :=
  (es.filter (fun e => ok e.2)).foldl (fun (b : Option (Nat × DirEnt)) e =>
    match b with
    | none => some e
    | some c => if e.2.way < c.2.way then some e else b) none

/-- The victim of a full set (R218). An entry of a FAULTED group that the fault walk has still to reach is none: no snoop
is sent for it (R234). -/
def State.dirVictim (s : State) (l : Nat) : Option (Nat × DirEnt) :=
  let es := s.dirWays l
  let up (e : DirEnt) : Bool := s.cgState e.cg != 2
  (lowestWay es (fun e => e.st == .P && !(s.cg e.cg).faultWalk))
    <|> (lowestWay es (fun e => e.st == .S && up e))
    <|> (lowestWay es (fun e => (e.st == .X || e.st == .O) && up e))

/-- Make an entry stable: S with its sharers, X or O with its owner; S with no sharer is U. -/
def State.stable (s : State) (l : Nat) (e : DirEnt) (st : DSt) (own : Option Nat) (shr : List Nat) : State :=
  if st == .S && shr.isEmpty then s.dropDir l
  else if st == .U then s.dropDir l
  else
    s.setDir l { e with
      st := st, own := own, shr := shr, req := none, awaiting := [], fwdDone := false, cancelled := false,
      wbDone := false, wasO := false, nofwd := false }

/-- A fresh entry in a way. -/
def DirEnt.fresh (w g : Nat) : DirEnt :=
  { way := w, st := .S, cg := g, own := none, shr := [], req := none, aft := .drop, awaiting := [],
    fwdDone := false, cancelled := false, wbDone := false, wasO := false, nofwd := false }

/-! ### Snoops (R60, R223) -/

/-- What a snoop carries: SRC, SEQ, NOFWD and subscriber of the request it serves; zero, with NOFWD, for
a host request (R473). -/
structure SnoopFor where
  src : Nat
  seq : Nat
  nofwd : Bool
  sub : Nat
  deriving DecidableEq, Repr

/-- What the snoops of a request carry. -/
def Req.snoop (r : Req) : SnoopFor :=
  match r.org with
  | .host _ => { src := 0, seq := 0, nofwd := true, sub := r.sub }
  | _ => { src := r.src, seq := r.seq, nofwd := false, sub := r.sub }

/-- Snoops of a walk, which serve no request (log entry 22). -/
def SnoopFor.walk : SnoopFor := { src := 0, seq := 0, nofwd := false, sub := 1023 }

/-- Send a snoop to the agent in a slot, its DST the agent (Table 2.4; log entry 84); false where the slot has no port, so
that it is answered as if with FLUSHED (R118). A SNP_S or SNP_X with NOFWD 0 lets the agent forward one DATA (R229). -/
def State.sendSnoop (s : State) (l opc g : Nat) (f : SnoopFor) (slot : Nat) : Bool × State :=
  let s := s.bump .DIR_SNOOP_COUNT
  match s.slotAgent g slot with
  | none => (false, s)
  | some id =>
    match s.portOfAgent id with
    | none => (false, s)
    | some p =>
      let m : Msg := { hdr := mkHdr (commonHdr opc 0 f.src id f.seq ++ [(27, 48, 64 * l), (26, 1, b2n f.nofwd)]),
                       payload := [] }
      let s := if opc = opSNP_I ∨ f.nofwd then s
        else { s with coh := { s.coh with fwds := s.coh.fwds ++ [Fwd.mk id l f.src f.seq (opc == opSNP_X)] } }
      (true, s.send (mcDie (s.homeOfPage (l / 1024))) p 0 f.sub m)

/-- The agent in a slot forwards no DATA for a snoop of a line: its HACK says so, or it answers no more. -/
def State.fwdGone (s : State) (l id : Nat) : State :=
  { s with coh := { s.coh with fwds := s.coh.fwds.filter (fun f => !(f.line == l && f.id == id)) } }

/-- Send snoops to slots; the slots that will answer. -/
def State.sendSnoops (s : State) (l opc g : Nat) (f : SnoopFor) (slots : List Nat) : List Nat × State :=
  slots.foldl (fun (a : List Nat × State) m =>
    let r := a.2.sendSnoop l opc g f m
    (if r.1 then a.1 ++ [m] else a.1, r.2)) ([], s)

/-! ### Actions at the end of a transition -/

/-- Answer a request of a FAULTED group (R234). -/
def State.faultedAnswer (s : State) (r : Req) : State :=
  let o := mOpc r.msg
  if o = opNRD ∨ o = opLD then
    s.finish r (s.dataResp r.msg (s.lineBytes (lineOf (mAddr r.msg))) true)
  else if o = opINV ∨ o = opPUB ∨ o = opSUBS then s.finishCmp r stREFUSED
  else s.finishCmp r stGROUP_DOWN

/-- May a home grant now: not in containment (Table 16.4), and the request not cancelled (R228). -/
def State.mayGrant (s : State) (e : DirEnt) : Bool := !e.cancelled && !s.contained

/-- Add a slot to a list without repeats. -/
def addSlot (l : List Nat) (m : Nat) : List Nat := if l.contains m then l else l ++ [m]

/-- The line's value is at hand for a grant to Q: answer it, and record the holder. Poisoned data never
grants (R227). `x` for a grant of X. -/
def State.grantNow (s : State) (l : Nat) (e : DirEnt) (r : Req) (x : Bool) : State :=
  let v := s.readLine l
  let s := v.2
  let q := (s.memberSlot e.cg r.src)
  let ok := s.mayGrant e && !v.1.2 && q.isSome
  let s := if s.mayGrant e then s.finish r (s.dataResp r.msg v.1.1 v.1.2 (if ok then (if x then 2 else 1) else 0)) else s
  if x then
    if ok then s.stable l e .X q [] else s.dropDir l
  else s.stable l e .S none (if ok then addSlot e.shr (q.getD 0) else e.shr)

/-- A request that its home holds waits for a cause of Table 8.2: counted once for each, and logged (R210, R211). -/
def State.noteLate (s : State) (r : Req) (c pg : Nat) : Req × State :=
  if r.causes.contains c then (r, s) else ({ r with causes := r.causes ++ [c] }, (s.bump (lateFld c)).lateLog pg c)

/-- Read memory for a grant: at once in Oasis, by a tray LD else (states US_D and UX_D). Where the tray takes none now, the
request waits in the entry (R210), and the home tries again. -/
def State.grant (s : State) (l : Nat) (e : DirEnt) (r : Req) (x : Bool) : State :=
  if s.onTray l && !s.wbufCovers l 0 64 then
    let e := { e with st := if x then DSt.UX_D else DSt.US_D, own := none, awaiting := [] }
    match s.trayGate l 2 1 with
    | .wait c =>
      let t := s.noteLate r c (l / 1024)
      t.2.setDir l { e with req := some t.1 }
    | _ => (s.setDir l { e with req := some r }).traySend l false [] false 2 r.sub .grant
  else s.grantNow l e r x

/-- A request goes to the tray of its line, as soon as the tray takes it (R210). -/
def State.trayAsk (s : State) (r : Req) : State :=
  let l := lineOf (mAddr r.msg)
  match s.trayGate l (trayCls r.msg) 1 with
  | .wait c => s.lateWait r c (l / 1024)
  | _ => s.trayRead r false

/-- The write of a non-allocating write at the end of a recall. -/
def State.recallDone (s : State) (l : Nat) (e : DirEnt) : State :=
  let s := s.dropDir l
  match e.req with
  | none => s
  | some r =>
    if e.cancelled then s
    else
      match e.aft with
      | .write => s.doStore r
      | .atomic => if s.wordHere r.msg then s.doAtomic r else s.trayAsk r
      | _ => s

/-- Start to invalidate sharers and then act (SX_I), or recall owner and sharers (X_WB). With nobody to
ask, the action follows at once. -/
def State.recall (s : State) (l : Nat) (e : DirEnt) (f : SnoopFor) (r : Option Req) (aft : After) : State :=
  let owned := e.st == .X || e.st == .O
  let who := (match e.own with | some w => [w] | none => []) ++ e.shr
  let a := s.sendSnoops l opSNP_I e.cg f who
  let e := { e with st := if owned then DSt.X_WB else DSt.SX_I, req := r, aft := aft, awaiting := a.1,
                    own := e.own.filter a.1.contains, shr := e.shr.filter a.1.contains,
                    wasO := e.st == .O, wbDone := false, cancelled := false, fwdDone := false, nofwd := f.nofwd }
  if a.1.isEmpty then a.2.recallDone l e else a.2.setDir l e

/-- Ask the owner (XS_F or XX_F). -/
def State.askOwner (s : State) (l : Nat) (e : DirEnt) (r : Req) (excl : Bool) (aft : After) : State :=
  let f := r.snoop
  match e.own with
  | none => s
  | some w =>
    let a := s.sendSnoops l (if excl then opSNP_X else opSNP_S) e.cg f [w]
    a.2.setDir l { e with
      st := if excl then DSt.XX_F else DSt.XS_F, req := some r, aft := aft, awaiting := [w],
      wasO := e.st == .O || e.wasO, wbDone := false, cancelled := false, fwdDone := false, nofwd := f.nofwd }

/-- Invalidate some sharers, and an owner in the O-state UPG, then grant X or finish an UPG (SX_I). -/
def State.invalidate (s : State) (l : Nat) (e : DirEnt) (r : Req) (who : List Nat) (aft : After) : State :=
  let a := s.sendSnoops l opSNP_I e.cg r.snoop who
  a.2.setDir l { e with
    st := .SX_I, req := some r, aft := aft, awaiting := a.1, wasO := e.st == .O, wbDone := false,
    cancelled := false, fwdDone := false, nofwd := r.snoop.nofwd }

/-- A line is given up by whoever still holds it: the holders are recalled, and with none the entry goes (R218, R238). -/
def State.giveUp (s : State) (l : Nat) (e : DirEnt) : State :=
  if e.own.isNone && e.shr.isEmpty then s.dropDir l
  else s.recall l { e with st := if e.own.isSome then .O else .S, req := none } SnoopFor.walk none .drop

/-- Every answer of an SX_I or X_WB is in: act (Table 9.6). An UPG whose slot is under REMOVE since is answered too: an
owner keeps its line until the walk recalls it, a sharer is told that it holds nothing (Table 9.1, R230). -/
def State.transitionDone (s : State) (l : Nat) (e : DirEnt) : State :=
  match e.aft, e.req with
  | .grantX, some r =>
    match e.own with
    | some _ => if e.cancelled then s.stable l e .O e.own [] else s.askOwner l e r true .grantX
    | none => s.grant l { e with shr := [] } r true
  | .upg, some r =>
    match s.memberSlot e.cg r.src with
    | some q =>
      if s.mayGrant e then (s.finish r { status := stOK, grant := 2 }).stable l e .X (some q) []
      else if e.own = some q then s.stable l e .O (some q) []
      else s.stable l e .S none [q]
    | none =>
      if e.own.isSome ∧ e.own = s.slotListed e.cg r.src then
        (if s.mayGrant e then s.finish r { status := stOK, grant := 2 } else s).stable l e .X e.own []
      else if s.mayGrant e then
        ((s.finish r { status := stOK, grant := 0 }).bump .DIR_UPG_LOST_COUNT).dropDir l
      else s.dropDir l
  | _, none => s.giveUp l e
  | _, _ => s.recallDone l e

/-! ### Requests of a coherent extent (Tables 9.4 and 9.6) -/

/-- How Table 9.4 treats a request. -/
inductive CohKind where
  | rd | rdx | upg | wb | wbc | read | write | atomic | answer (st : Nat)
  deriving DecidableEq, Repr

/-- Table 9.4. -/
def cohKind (o : Nat) (mem : Bool) : CohKind :=
  if o = opRD then (if mem then .rd else .read)
  else if o = opRDX then (if mem then .rdx else .read)
  else if o = opUPG then (if mem then .upg else .answer stNOT_MEMBER)
  else if o = opWBC then (if mem then .wbc else .answer stNOT_MEMBER)
  else if o = opWB then (if mem then .wb else .write)
  else if o = opNRD ∨ o = opLD then .read
  else if o = opNWR ∨ o = opST ∨ o = opST_REL then .write
  else if o = opAT then (if mem then .atomic else .answer stNOT_MEMBER)
  else .answer stREFUSED

/-- A WB or WBC whose data or notice is stale (Table 9.6): CMP OK, counted. -/
def State.wbStale (s : State) (r : Req) : State := (s.finishCmp r stOK).bump .DIR_WB_STALE_COUNT

/-- An UPG that finds its requester without a copy. -/
def State.upgLost (s : State) (r : Req) : State :=
  (s.finish r { status := stOK, grant := 0 }).bump .DIR_UPG_LOST_COUNT

/-- A breach by a recorded holder: CMP REFUSED, counted. -/
def State.protoErr (s : State) (r : Req) : State := (s.finishCmp r stREFUSED).bump .DIR_PROTO_ERR_COUNT

/-- The write of a WB by the owner: its data, and its CMP OK. -/
def State.ownerWrite (s : State) (r : Req) : State :=
  let w := s.storeLine (lineOf (mAddr r.msg)) 0 (slice r.msg.payload 0 64) (mPsn r.msg) r.via
  w.2.finishCmp r stOK

/-- A non-allocating read that memory can answer. -/
def State.readNow (s : State) (r : Req) : State :=
  if s.onTray (lineOf (mAddr r.msg)) && !s.wbufCovers (lineOf (mAddr r.msg)) (mAddr r.msg % 64) (mSize r.msg)
  then s.trayAsk r else s.doRead r

/-- A request on a line in U (Table 9.6). -/
def State.dirU (s : State) (l g : Nat) (r : Req) : CohKind → State
  | .rd | .rdx =>
    let x := mOpc r.msg == opRDX
    match s.freeWay l with
    | some w => s.grant l (DirEnt.fresh w g) r x
    | none =>
      match s.dirVictim l with
      | some (v, e) =>
        let s := s.bump .DIR_EVICT_COUNT
        let s := if e.st == .P then s.dropDir v else s.recall v e r.snoop none .drop
        s.wait r 13 v
      | none => (s.bump .DIR_SET_WAIT_COUNT).wait r 6 l
  | .upg => s.upgLost r
  | .wb | .wbc => s.wbStale r
  | .read => s.readNow r
  | .write => s.doStore r
  | .atomic => if s.wordHere r.msg then s.doAtomic r else s.trayAsk r
  | .answer st => s.finishCmp r st

/-- A request on a line in S (Table 9.6); `q` the requester's slot. -/
def State.dirS (s : State) (l : Nat) (e : DirEnt) (r : Req) (q : Nat) : CohKind → State
  | .rd => if e.shr.contains q then s.protoErr r else s.grant l e r false
  | .rdx => if e.shr.contains q then s.protoErr r else s.invalidate l e r e.shr .grantX
  | .upg =>
    if e.shr.contains q then s.invalidate l e r (e.shr.filter (· != q)) .upg else s.upgLost r
  | .wb => (s.stable l e .S none (e.shr.filter (· != q))).wbStale r
  | .wbc =>
    if e.shr.contains q then (s.stable l e .S none (e.shr.filter (· != q))).finishCmp r stOK else s.wbStale r
  | .read => s.readNow r
  | .write => s.recall l e r.snoop (some r) .write
  | .atomic => s.recall l e r.snoop (some r) .atomic
  | .answer st => s.finishCmp r st

/-- A request on a line in X (Table 9.6). -/
def State.dirX (s : State) (l : Nat) (e : DirEnt) (r : Req) (q : Nat) : CohKind → State
  | .rd => if e.own = some q then s.protoErr r else s.askOwner l e r false .grantS
  | .rdx => if e.own = some q then s.protoErr r else s.askOwner l e r true .grantX
  | .upg => if e.own = some q then s.finish r { status := stOK, grant := 2 } else s.upgLost r
  | .wb => if e.own = some q then (s.ownerWrite r).dropDir l else s.wbStale r
  | .wbc => if e.own = some q then (s.finishCmp r stOK).dropDir l else s.wbStale r
  | .read => s.askOwner l e r false .read
  | .write => s.recall l e r.snoop (some r) .write
  | .atomic => s.recall l e r.snoop (some r) .atomic
  | .answer st => s.finishCmp r st

/-- A request on a line in O (Table 9.6). -/
def State.dirO (s : State) (l : Nat) (e : DirEnt) (r : Req) (q : Nat) : CohKind → State
  | .rd =>
    if e.own = some q ∨ e.shr.contains q then s.protoErr r else s.askOwner l e r false .grantS
  | .rdx =>
    if e.own = some q ∨ e.shr.contains q then s.protoErr r
    else if e.shr.isEmpty then s.askOwner l e r true .grantX
    else s.invalidate l e r e.shr .grantX
  | .upg =>
    if e.own = some q then s.invalidate l e r e.shr .upg
    else if e.shr.contains q then
      s.invalidate l e r ((e.shr.filter (· != q)) ++ (match e.own with | some w => [w] | none => [])) .upg
    else s.upgLost r
  | .wb =>
    if e.own = some q then (s.ownerWrite r).stable l e .S none e.shr
    else (s.stable l e .O e.own (e.shr.filter (· != q))).wbStale r
  | .wbc =>
    if e.own = some q then s.protoErr r
    else if e.shr.contains q then (s.stable l e .O e.own (e.shr.filter (· != q))).finishCmp r stOK
    else s.wbStale r
  | .read => s.askOwner l e r false .read
  | .write => s.recall l e r.snoop (some r) .write
  | .atomic => s.recall l e r.snoop (some r) .atomic
  | .answer st => s.finishCmp r st

/-- A WB or WBC that meets a transient line which is snooping its sender (R225). A WB from another agent than the owner is
stale, and its sender no sharer any more (Table 9.6). -/
def State.wbDuring (s : State) (l : Nat) (e : DirEnt) (r : Req) (q : Nat) : State :=
  if mOpc r.msg = opWB then
    if e.own = some q then (s.setDir l { e with wbDone := true }).ownerWrite r
    else (s.setDir l { e with shr := e.shr.filter (· != q) }).wbStale r
  else s.finishCmp r stOK

/-! ### The directory's symbol code (R184, R217) -/

/-- Send GROUP_FAULT to every bound member of a group (Table 9.9, step 4). -/
def State.sendGroupFault (s : State) (g cause : Nat) : State :=
  let ps := ((s.cg g).slots.filterMap (fun e => s.portOfAgent e.2)).filter (fun p => s.rd .PRT_PFTL_STAT_ROLE p == 2)
  s.sendMulti (mcDie 0) ps 1 1023
    { hdr := mkHdr (commonHdr opGROUP_FAULT 1 0 0 0 ++ [(71, 4, g), (67, 4, cause)]), payload := [] }

/-- Does a request address a coherent extent of a group. -/
def State.reqOfGroup (s : State) (g : Nat) (r : Req) : Bool :=
  match s.extentAt (mAddr r.msg) with
  | some (_, x) => x.coh && x.cg == g && !inWindow (mAddr r.msg)
  | none => false

/-- A group faults: FAULTED, CAUSE, GEN and EV_CG_FAULT; every request of it that waits at a home, for a snoop or for a
tray, is answered under R234; GROUP_FAULT goes to its members; the fault walk starts (Table 9.9). -/
def State.groupFault (s : State) (g cause : Nat) : State :=
  if s.cgState g ≠ 1 then s
  else
    let s := ((s.wr .DIR_CG_STAT_STATE 2 g).wr .DIR_CG_STAT_CAUSE cause g).wr .DIR_CG_STAT_WALKED 0 g
    let s := (s.advance .DIR_CG_GEN_GEN g).event .cgFault g 0 cause
    let hit := s.home.waits.filter (fun w => s.reqOfGroup g w.req)
    let mine := s.coh.dir.filter (fun e => e.2.cg == g)
    let loads := s.home.tacc.flatMap (fun t => match t.kind with | .load rs => rs.filter (s.reqOfGroup g) | _ => [])
    let cut (t : TAcc) : TAcc :=
      match t.kind with
      | .load rs => { t with kind := .load (rs.filter (fun r => !s.reqOfGroup g r)) }
      | .grant => if mine.any (fun e => e.1 == t.line) then { t with kind := .load [] } else t
      | _ => t
    let quiet (e : Nat × DirEnt) : Nat × DirEnt :=
      if e.2.cg == g then (e.1, { e.2 with req := none, awaiting := [] }) else e
    let s := { s with
      home := { s.home with
        waits := s.home.waits.filter (fun w => !s.reqOfGroup g w.req)
        tacc := s.home.tacc.map cut }
      coh := { s.coh with dir := s.coh.dir.map quiet } }
    let s := mine.foldl (fun s e =>
      match e.2.req with
      | some r => if e.2.cancelled then s else s.faultedAnswer r
      | none => s) s
    let s := loads.foldl (fun s r => s.faultedAnswer r) s
    let s := hit.foldl (fun s w => s.faultedAnswer w.req) s
    let s := s.sendGroupFault g cause
    let c := s.cg g
    ((s.setCg g { c with faultWalk := true }).wr .DIR_CG_POS_POS 0 g).wr .DIR_CG_STAT_PCT 0 g

/-- Every UP group faults with CAUSE 0x1 (R232). -/
def State.allGroupsFault (s : State) : State :=
  (List.range 16).foldl (fun s g => if s.cgState g = 1 then s.groupFault g 1 else s) s

/-- An entry whose symbols three or more errors have changed unnoticed: its state, owner and sharers are free values. -/
def DirEnt.garbled (e : DirEnt) (v : Nat) : DirEnt :=
  let st := if v % 3 = 0 then DSt.S else if v % 3 = 1 then .X else .O
  { e with st := st, own := if st == .S then none else some (v / 3 % 64),
           shr := (List.range 64).filter (fun m => (v / 192).testBit m) }

/-- What the code does with an entry of a set that is read (R184, R217): it corrects one symbol; two make the way
uncorrectable, and the group of its line cannot be known, so that every UP group faults (R232) and the way is empty (DESIGN
CHOICE, log entry 85); of three or more nothing is guaranteed, so a free value chooses. -/
def State.dirCheckOne (s : State) (l : Nat) : State :=
  let n := tget 0 s.coh.dirErr l
  let s := { s with coh := { s.coh with dirErr := tdel s.coh.dirErr l } }
  let bad (s : State) : State := ((s.dropDir l).raise 0x0B (s.homeOfPage (l / 1024))).allGroupsFault
  if n ≤ 1 then s
  else if n = 2 then bad s
  else
    let r := s.free
    if r.1 % 2 = 0 then bad r.2
    else
      match r.2.dirEnt l with
      | some e => if e.st.transient then bad r.2 else r.2.setDir l (e.garbled (r.1 / 2))
      | none => r.2

/-- The set of a line is read: every way of it passes the code. -/
def State.dirCheck (s : State) (l : Nat) : State :=
  if s.coh.dirErr.isEmpty then s
  else ((s.dirWays l).filter (fun e => (tfind s.coh.dirErr e.1).isSome)).foldl (fun s e => s.dirCheckOne e.1) s

/-- A walk reads every set (R214, R233, R237); of the lines that pass a test, those whose entries hold errors are checked. -/
def State.dirCheckAll (s : State) (ok : Nat → Bool) : State :=
  ((s.coh.dirErr.map (·.1)).filter ok).foldl (fun s l => s.dirCheckOne l) s

/-- An INVALIDATE or an UPG that has nobody left to ask is done at once. -/
def State.settleLine (s : State) (l : Nat) : State :=
  match s.dirEnt l with
  | some e => if e.st == .SX_I && e.awaiting.isEmpty then s.transitionDone l e else s
  | none => s

/-- The agent a channel works for: the bound agent, or none for a host channel (R334). -/
def State.carAgent (s : State) (c : Nat) : Option Nat :=
  if s.on .CAR_CFG_AGV c then some (s.rd .CAR_CFG_AGENT c) else none

/-- The agent whose access a request is: its sender, the agent of an operation, or the one a channel is bound to (R220, R273,
R340). -/
def State.accessOf (s : State) (o : Origin) (src : Nat) : Option Nat :=
  match o with
  | .port _ => some src
  | .slot id _ => some id
  | .chan c => s.carAgent c
  | _ => none

/-- The mark among a request's causes that it has been counted as a non-member's (R220). -/
abbrev nonMemberMark : Nat := 20

/-- A request to a coherent extent of group `g` at check 3 of Table 7.6. A non-member's is counted once. -/
def State.dirAccess (s : State) (r : Req) (g : Nat) : State :=
  let l := lineOf (mAddr r.msg)
  let s := s.dirCheck l
  if s.cgState g = 2 then s.faultedAnswer r
  else
    let q := (s.accessOf r.org r.src).bind (s.memberSlot g)
    let first := q.isNone && !r.causes.contains nonMemberMark
    let s := if first then s.bump .DIR_NONMEMBER_COUNT else s
    let r := if first then { r with causes := r.causes ++ [nonMemberMark] } else r
    let k := cohKind (mOpc r.msg) q.isSome
    let qs := q.getD 64
    match k with
    | .answer st => s.finishCmp r st
    | k =>
      match s.dirEnt l with
      | none => s.dirU l g r k
      | some e =>
        if e.st.transient then
          if (k == .wb || k == .wbc) && e.awaiting.contains qs then s.wbDuring l e r qs
          else s.wait r 4 l
        else if e.st == .S then (s.dirS l e r qs k).settleLine l
        else if e.st == .X then s.dirX l e r qs k
        else if e.st == .O then (s.dirO l e r qs k).settleLine l
        else s.faultedAnswer r

/-! ### Answers to snoops (R224 to R226) -/

/-- After SNP_S: the state built from what the owner keeps (R224). -/
def State.afterShare (s : State) (l : Nat) (e : DirEnt) (keep : Nat) (q : Option Nat) : State :=
  let sh := match q with | some m => addSlot e.shr m | none => e.shr
  match e.own with
  | none => s.stable l e .S none sh
  | some w =>
    if keep = 2 then s.stable l e .O (some w) sh
    else if keep = 1 then s.stable l e .S none (addSlot sh w)
    else s.stable l e .S none sh

/-- Is the owner's answer in XS_F or XX_F allowed (Table 9.7, R224). -/
def hackAllowed (e : DirEnt) (m : Msg) : Bool :=
  let rs := mRspst m
  let f := mFwd m
  let d := mHdata m
  !(f && e.nofwd) && !(f && mHpsn m) &&
  (if e.st == .XS_F then
     (rs == 2 && (f || d)) || (rs ≤ 1 && d) || (rs ≤ 1 && f && !d && !e.wasO) || (rs == 0 && !f && !d && !e.wasO)
   else
     rs == 0 && (f || d || !e.wasO))

/-- The owner's allowed answer in XS_F or XX_F (Table 9.7). A requester that got forwarded data is recorded even where its
slot is under REMOVE since, so that the walk recalls it (Table 9.1), and in containment, where the home itself grants
nothing. -/
def State.ownerHack (s : State) (l : Nat) (e : DirEnt) (m : Msg) : State :=
  let v : Via := match e.req with | some r => r.via | none => {}
  let s := if mHdata m && !e.wbDone && s.activeAt (64 * l) then (s.storeLine l 0 (slice m.payload 0 64) (mHpsn m) v).2 else s
  match e.req with
  | none =>
    s.giveUp l { e with
      own := if e.st == .XS_F && mRspst m == 2 then e.own else none
      shr := if e.st == .XS_F && mRspst m == 1 then (match e.own with | some w => addSlot e.shr w | none => e.shr) else e.shr }
  | some r =>
    let fwd := mFwd m
    let psn := s.linePsn l
    let q := if mFwd m then s.memberSlot e.cg r.src <|> s.slotListed e.cg r.src else s.memberSlot e.cg r.src
    let alloc := e.aft == .grantS || e.aft == .grantX
    let s := if fwd then s.bump .DIR_FWD_COUNT else s
    if e.st == .XX_F then
      if fwd then
        if e.cancelled then
          let s := s.dropDir l
          if e.fwdDone then s
          else { s with coh := { s.coh with awaits := s.coh.awaits ++ [(l, r.src, r.seq)] } }
        else if q.isNone then (s.markDone r).dropDir l
        else (s.markDone r).stable l e .X q []
      else s.grant l { e with own := none, shr := [] } r true
    else
      let add := if alloc && !e.cancelled && (fwd || (!s.contained && !psn)) then q else none
      if fwd then (if e.cancelled then s else s.markDone r).afterShare l e (mRspst m) add
      else if !s.mayGrant e then s.afterShare l e (mRspst m) none
      else if s.onTray l && !s.wbufCovers l 0 64 then
        -- a clean owner gave nothing back and the line lies on its tray
        let s := s.afterShare l e (mRspst m) none
        match s.dirEnt l with
        | some e' => if alloc then s.grant l e' r false else s.trayAsk r
        | none => if alloc then s.grant l { e with own := none, shr := [] } r false else s.trayAsk r
      else
        let v := s.readLine l
        let g := if alloc && !v.1.2 then 1 else 0
        (v.2.finish r (v.2.dataResp r.msg v.1.1 v.1.2 g)).afterShare l e (mRspst m) add

/-- An answer of a sharer or of a recalled owner: RSPST I with no forward (R224). An owner's data is
written. -/
def State.recallHack (s : State) (l : Nat) (e : DirEnt) (slot : Nat) (m : Msg) : State :=
  let s := if mHdata m && e.own == some slot && !e.wbDone && (s.activeAt (64 * l))
    then (s.storeLine l 0 (slice m.payload 0 64) (mHpsn m) (match e.req with | some r => r.via | none => {})).2 else s
  let e := { e with awaiting := e.awaiting.filter (· != slot),
                    own := if e.own == some slot then none else e.own,
                    shr := e.shr.filter (· != slot) }
  if e.awaiting.isEmpty then (s.setDir l e).transitionDone l e else s.setDir l e

/-! ### The group fault (R232, R233) -/

/-- A snoop answered as if with FLUSHED (R226): from a sharer RSPST I; from an owner its data is lost and
the group faults, except in the recall of an ending extent (R238). -/
def State.flushedSnoop (s : State) (l slot : Nat) : State :=
  let s := s.dirCheck l
  match s.dirEnt l with
  | none => s
  | some e =>
    if !e.st.transient || !e.awaiting.contains slot then s
    else
      let s := match s.slotAgent e.cg slot with | some id => s.fwdGone l id | none => s
      if e.own == some slot && s.activeAt (64 * l) then s.groupFault e.cg 0
      else s.recallHack l e slot { hdr := 0, payload := [] }

/-- The owned entries of an agent's slot in a group (R219). -/
def State.ownsLines (s : State) (g slot : Nat) : Bool :=
  s.coh.dir.any (fun e => e.2.cg == g && e.2.own == some slot && e.2.st != .P)

/-- The HACK of a snoop (R224 to R226). -/
def State.snoopHack (s : State) (l : Nat) (id : Nat) (m : Msg) : State :=
  let s := (if mFwd m then s else s.fwdGone l id).dirCheck l
  match s.dirEnt l with
  | none => s.bump .DIR_PROTO_ERR_COUNT
  | some e =>
    match s.slotListed e.cg id with
    | none => s.bump .DIR_PROTO_ERR_COUNT
    | some slot =>
      if !e.st.transient || !e.awaiting.contains slot || s.cgState e.cg = 2 then s.bump .DIR_PROTO_ERR_COUNT
      else if e.st == .SX_I || e.st == .X_WB then
        if mRspst m = 0 ∧ !mFwd m then s.recallHack l e slot m
        else (s.bump .DIR_PROTO_ERR_COUNT).flushedSnoop l slot
      else if hackAllowed e m then s.ownerHack l { e with awaiting := [] } m
      else (s.bump .DIR_PROTO_ERR_COUNT).flushedSnoop l slot

/-- Tray data for a directory read in US_D or UX_D arrives: grant (Table 9.6). -/
def State.grantData (s : State) (l : Nat) : State :=
  match s.dirEnt l with
  | none => s
  | some e =>
    match e.req with
    | none => s
    | some r => if e.st == .US_D then s.grantNow l e r false else if e.st == .UX_D then s.grantNow l e r true else s

/-- The tray data for a directory read did not come: its request ends with the error value (R71). -/
def State.grantLost (s : State) (l : Nat) : State :=
  match s.dirEnt l with
  | none => s
  | some e =>
    let s := match e.req with
      | some r => if e.cancelled then s else s.finish r (s.errorValue r.msg)
      | none => s
    if e.st == .US_D then s.stable l e .S none e.shr else s.dropDir l

/-- Directory reads whose page has moved since they began (R202). -/
def State.movedReads (s : State) : List (Nat × DirEnt) :=
  s.coh.dir.filter (fun e => (e.2.st == .US_D || e.2.st == .UX_D) && (s.page (e.1 / 1024)).loc != 2
    && !s.home.tacc.any (fun t => t.line == e.1 && t.kind == .grant))

/-- They start again where the page is now. -/
def State.grantAgain (s : State) : State :=
  s.movedReads.foldl (fun s e => match e.2.req with | some r => s.grant e.1 e.2 r (e.2.st == .UX_D) | none => s) s

/-- A line of an ending extent gives up its entry: the request that waits on it is answered, and whoever holds the line is
recalled; nothing is sent for a FAULTED group (R178, R234, R238). -/
def State.endLine (s : State) (l : Nat) (e : DirEnt) (st : Nat) : State :=
  let s := match e.req with
    | some r => if e.cancelled then s else s.finishCmp r st
    | none => s
  if e.st == .P || s.cgState e.cg == 2 then s.dropDir l
  else if e.st == .US_D || e.st == .UX_D then
    let s := { s with home := { s.home with tacc := s.home.tacc.map (TAcc.unload (· == l)) } }
    s.giveUp l e
  else if e.st.transient then s.setDir l { e with req := none, aft := .drop }
  else s.giveUp l e

end Sys2Proof.Machine
end

