-- ==== Sys2Proof/Machine/Regions.lean ====
section
/-! DEFINITION. Published regions (R239 to R245): the header line, reads through the window, SUBS, PUB
and its commit, INV and its notes. -/

namespace Sys2Proof.Machine

/-- No region. -/
def Region.none : Region :=
  { used := false, hdr := 0, lines := 0, body := 0, oldBody := 0, version := 0, time := 0, busy := false,
    cur := Option.none, invall := false, queue := [], subs := [] }

/-- A region by its index. -/
def State.region (s : State) (i : Nat) : Region := tget Region.none s.coh.regions i

/-- Set a region. -/
def State.setRegion (s : State) (i : Nat) (x : Region) : State :=
  { s with coh := { s.coh with regions := tset Region.none s.coh.regions i x } }

/-- The region whose header line or window holds an address. -/
def State.regionAt (s : State) (a : Nat) : Option (Nat × Region) :=
  s.coh.regions.find? (fun e => e.2.used && decide (e.2.hdr ≤ a ∧ a < e.2.hdr + 64 * (e.2.lines + 1)))

/-- The header line (Table 9.11). -/
def Region.header (x : Region) : List Byte :=
  leBytes 4 x.version ++ leBytes 1 (b2n x.busy) ++ leBytes 3 0 ++ leBytes 4 x.lines ++ leBytes 4 0
    ++ leBytes 8 x.body ++ leBytes 8 x.time ++ leBytes 2 x.subs.length ++ leBytes 30 0

/-- May BODY lie here (R239): in one ACTIVE extent with COH = 0 and PUB = 0. -/
def State.bodyOk (s : State) (body lines : Nat) : Bool :=
  s.inActive body (64 * lines) (fun x => !x.coh && !x.pub)

/-- A message with another address. -/
def withAddr (m : Msg) (a : Nat) : Msg :=
  { m with hdr := (m.hdr &&& ~~~(BitVec.ofNat 128 ((2 ^ 48 - 1) * 2 ^ 27))) ||| BitVec.ofNat 128 (a % 2 ^ 48 * 2 ^ 27) }

/-- Send one INV_NOTE to a subscriber (Table 2.8, R244). -/
def State.sendNote (s : State) (i id addr nl : Nat) (r : Req) : State :=
  match s.portOfAgent id with
  | none => s
  | some p =>
    let m : Msg := { hdr := mkHdr (commonHdr opINV_NOTE 0 r.src id r.seq ++ [(27, 48, addr), (0, 16, nl)]), payload := [] }
    let s := (s.send (mcDie (s.homeOf addr)) p 0 r.sub m).bump .DIR_INV_NOTE_COUNT
    { s with coh := { s.coh with inotes := s.coh.inotes ++ [Note.mk i id addr r] } }

/-- INV_NOTEs for a range of lines to every subscriber, in notes of at most 65,536 lines (R243, R244). -/
def State.sendNotes (s : State) (i : Nat) (x : Region) (addr nlines : Nat) (r : Req) : State :=
  let cuts := (List.range ((nlines + 65535) / 65536)).map (fun j => (addr + 64 * 65536 * j, min 65536 (nlines - 65536 * j)))
  x.subs.foldl (fun s id => cuts.foldl (fun s c => s.sendNote i id c.1 (c.2 - 1) r) s) s

/-- Answer CMP OK with CURVER to a committed PUB (R243). -/
def State.pubAnswer (s : State) (r : Req) (ver : Nat) : State :=
  s.answer (s.homeOf (mAddr r.msg)) r { status := stOK, curver := ver }

/-- The home of the header begins a PUB: compare, check the body, set BUSY and change BODY (R243, steps 1
to 3). -/
def State.pubBegin (s : State) (i : Nat) (r : Req) : State :=
  let x := s.region i
  let base := leAt r.msg.payload 0 4
  let body := leAt r.msg.payload 8 6
  let invall := leAt r.msg.payload 14 1 % 2 == 1
  if base ≠ x.version then
    (s.finish r { status := stVERSION_STALE, curver := x.version }).bump .DIR_PUB_STALE_COUNT
  else if (s.extentAt body).isNone ∨ (s.extentAt (body + 64 * x.lines - 1)).isNone then s.finishCmp r stUNMAPPED
  else if !s.bodyOk body x.lines then s.finishCmp r stREFUSED
  else s.setRegion i { x with busy := true, cur := some r, invall := invall, oldBody := x.body, body := body }

/-- The PUBs waiting behind a finished one, in arrival order; each that is refused lets the next begin. -/
def State.pubNext (s : State) (i : Nat) : Nat → State
  | 0 => s
  | n + 1 =>
    let x := s.region i
    match x.queue with
    | [] => s
    | r :: t =>
      if x.cur.isSome then s
      else State.pubNext ((s.setRegion i { x with queue := t }).pubBegin i r) i n

/-- A PUB whose notes are all answered, or that asked for none: CMP OK, and the next begins (R243). -/
def State.pubEnd (s : State) (i : Nat) : State :=
  let x := s.region i
  match x.cur with
  | none => s
  | some r =>
    let s := (s.pubAnswer r x.version).setRegion i { x with cur := none }
    s.pubNext i x.queue.length

/-- A PUB that is not committed yet is taken away: the region is as it was, and the next PUB begins (R80, R118). -/
def State.pubDrop (s : State) (i : Nat) : State :=
  let x := s.region i
  if x.cur.isSome && x.busy then
    (s.setRegion i { x with cur := none, busy := false, body := x.oldBody }).pubNext i x.queue.length
  else s

/-- Are window reads of the old BODY still to be performed (R243, step 3). -/
def State.oldReads (s : State) (i : Nat) (x : Region) : Bool :=
  let hit (r : Req) : Bool :=
    r.win == some i && decide (x.oldBody ≤ mAddr r.msg ∧ mAddr r.msg < x.oldBody + 64 * x.lines)
  s.home.waits.any (fun w => hit w.req)
    || s.home.tacc.any (fun t => match t.kind with | .load rs => rs.any hit | _ => false)

/-- The commit of a PUB (R243, steps 4 and 5). -/
def State.pubCommit (s : State) (i : Nat) : State :=
  let x := s.region i
  match x.cur with
  | none => s
  | some r =>
    if !x.busy || s.oldReads i x then s
    else
      let x := { x with version := (x.version + 1) % 2 ^ 32, time := s.now, busy := false }
      let s := ((s.setRegion i x).markDone r).bump .DIR_PUB_OK_COUNT
      if x.invall && !x.subs.isEmpty then s.sendNotes i x (x.hdr + 64) x.lines r else s.pubEnd i

/-- An INV_NOTE is answered, or counts as answered: the INV or PUB it served ends with its last (R244). -/
def State.noteDone (s : State) (n : Note) : State :=
  let s := { s with coh := { s.coh with inotes := s.coh.inotes.erase n } }
  if s.coh.inotes.any (fun y => y.req == n.req) then s
  else if mOpc n.req.msg = opPUB then s.pubEnd n.region
  else s.finishCmp n.req stOK

/-- A note answered in another way than R244 asks, or not in time: the subscriber is removed. -/
def State.dropSub (s : State) (n : Note) (c : Fld) : State :=
  let x := s.region n.region
  let s := (s.setRegion n.region { x with subs := x.subs.filter (· != n.id) }).bump c
  (s.event .pubSubDropped n.id (pageOf n.addr) 0).noteDone n

/-- The note a HACK answers. -/
def State.noteOf (s : State) (id : Nat) (m : Msg) : Option Note :=
  s.coh.inotes.find? (fun n => n.id == id && n.addr == mAddr m && n.req.src == mSrc m && n.req.seq == mSeq m)

/-- End an agent's subscriptions (R237, R242). Its open notes count as answered. -/
def State.unsubscribe (s : State) (id : Nat) : State :=
  let rs := s.coh.regions.map (fun e => (e.1, { e.2 with subs := e.2.subs.filter (· != id) }))
  let s := { s with coh := { s.coh with regions := rs } }
  (s.coh.inotes.filter (fun n => n.id == id)).foldl (fun s n => s.noteDone n) s

/-- A region ends, with its subscriptions: its open notes count as answered. PUBs not yet committed are refused (R239). -/
def State.endRegion (s : State) (i : Nat) : State :=
  let x := s.region i
  let notes := s.coh.inotes.filter (fun n => n.region == i && mOpc n.req.msg != opPUB)
  let s := s.setRegion i Region.none
  let s := { s with coh := { s.coh with inotes := s.coh.inotes.filter (fun n => !(n.region == i && mOpc n.req.msg == opPUB)) } }
  let s := match x.cur with
    | some r => if x.busy then s.finishCmp r stREFUSED else s.pubAnswer r x.version
    | none => s
  let s := x.queue.foldl (fun s r => s.finishCmp r stREFUSED) s
  notes.foldl (fun s n => s.noteDone n) s

/-- What Table 9.12 does with a request in a published-region extent. -/
inductive PubWay where
  | done (s : State)
  | window (r : Req)
  | plain
  deriving DecidableEq, Repr

/-- Accesses within a PUB = 1 extent (Table 9.12): answered here, read through the window, or plain. -/
def State.pubAccess (s : State) (r : Req) : PubWay :=
  let m := r.msg
  let o := mOpc m
  let a := mAddr m
  match s.regionAt a with
  | some (i, x) =>
    if a < x.hdr + 64 then
      if o = opLD ∨ o = opNRD then .done (s.finish r (s.dataResp m x.header false))
      else if o = opSUBS then
        let subs := if mUnsub m then x.subs.filter (· != r.src) else addSlot x.subs r.src
        .done ((s.setRegion i { x with subs := subs }).finishCmp r stOK)
      else if o = opPUB then
        if x.cur.isSome then .done (s.setRegion i { x with queue := x.queue ++ [r] })
        else .done (s.pubBegin i r)
      else .done (s.finishCmp r stREFUSED)
    else if o = opLD ∨ o = opNRD then
      .window { r with msg := withAddr m (x.body + (a - x.hdr - 64)), win := some i }
    else if o = opINV then
      let first := (a - x.hdr - 64) / 64
      if first + mNlines m + 1 ≤ x.lines then
        if x.subs.isEmpty then .done (s.finishCmp r stOK)
        else .done (s.sendNotes i x a (mNlines m + 1) r)
      else .done (s.finishCmp r stREFUSED)
    else .done (s.finishCmp r stREFUSED)
  | none =>
    if [opLD, opNRD, opST, opST_REL, opNWR, opAT].contains o then .plain else .done (s.finishCmp r stREFUSED)

end Sys2Proof.Machine
end

