-- ==== Sys2Proof/Machine/Access.lean ====
section
/-! DEFINITION. A request at its home outside the control window: the checks of Table 7.6, the release
queue (R82), the line-order tag (R105), and the tier's waits (R210), in that order; and the accesses of
the device's own engines. -/

namespace Sys2Proof.Machine

/-! ### The frontier at a home (R81, R82) -/

/-- Key of a source's frontier at a memory complex. -/
def pfKey (k p : Nat) : Nat := 512 * k + p

/-- PF(s) as memory complex `k` knows it. -/
def State.frontierAt (s : State) (k p : Nat) : Nat := tget 0 s.home.pfAt (pfKey k p)

/-- May a release be applied: the frontier at its home has reached its number (R82). -/
def State.relReady (s : State) (r : Req) : Bool :=
  match r.org with
  | .port p =>
    let f := s.frontierAt (s.homeOf (mAddr r.msg)) p
    r.seq == f || seqBelow r.seq f
  | _ => true

/-- A release waits in its home's release queue; it is counted once (R82). -/
def State.holdRelease (s : State) (r : Req) : State :=
  let s := if r.causes.contains 8 then s else s.bump .POOL_REL_HELD_COUNT
  s.wait { r with causes := if r.causes.contains 8 then r.causes else r.causes ++ [8] } 8 (lineOf (mAddr r.msg))

/-! ### The tier (R196, R210) -/

/-- Does a request need the tray to answer now. -/
def State.needsTray (s : State) (r : Req) (x : Extent) : Bool :=
  let m := r.msg
  let l := lineOf (mAddr m)
  if x.coh then
    (match s.dirEnt l with
     | some e => e.st == .S
     | none => true) && !s.wbufCovers l 0 64 && (isRead (mOpc m) || mOpc m == opAT)
  else
    (isRead (mOpc m) || mOpc m == opAT) && !s.wbufCovers l (mAddr m % 64) (mSize m)
      && !(isRead (mOpc m) && s.combines m x
        && ((match tfind s.home.rdEnts l with | some e => e.serves m | none => false) || s.loadOut l))

/-- A request that has arrived at its line ends a run that does not take it (R93); it passes the gate of its page, and acts;
or it waits (R196, R199, R206, R210). -/
def State.viaTier (s : State) (r : Req) (x : Extent) (act : State → Req → State) : State :=
  let m := r.msg
  let pg := pageOf (mAddr m)
  let s := s.endRun m x
  let r' := { r with hot := r.hot || s.gateCounts pg }
  let g := s.gate pg (!r.hot && r.counted && !s.joins r x)
  let s := g.2
  let r := r'
  match g.1 with
  | .go => act s r
  | .started => s.lateWait r 0 pg
  | .wait c => s.lateWait r c pg
  | .noFrame => s.noFrameAnswer r
  | .tray =>
    if !s.trayUp pg then s.lateWait r 2 pg
    else if s.needsTray r x then
      match s.trayGate (lineOf (mAddr m)) (trayCls m) 1 with
      | .wait c => s.lateWait r c pg
      | _ => act s r
    else act s r

/-- A request to a plain extent: what R221 refuses, and the rest performed. -/
def State.plainAct (s : State) (r : Req) (x : Extent) : State :=
  let o := mOpc r.msg
  if o = opLD ∨ o = opNRD then s.plainRead r x
  else if o = opST ∨ o = opNWR ∨ o = opST_REL then s.plainStore r x
  else if o = opAT then s.plainAtomic r x
  else s.finishCmp r stREFUSED

/-- Is an opcode one that a plain extent serves (R221). -/
def plainOpc (o : Nat) : Bool := [opLD, opNRD, opST, opST_REL, opNWR, opAT].contains o

/-- A request to a plain extent. -/
def State.plainPath (s : State) (r : Req) (x : Extent) : State :=
  if plainOpc (mOpc r.msg) then s.viaTier r x (fun s r => s.plainAct r x) else s.finishCmp r stREFUSED

/-- A request outside the control window at its home, from check 2 of Table 7.6 on. -/
def State.poolAccess (s : State) (r : Req) : State :=
  let xo := s.extentAt (mAddr r.msg)
  match extentCheck xo, xo with
  | some st, _ => s.finishCmp r st
  | none, none => s
  | none, some (_, x) =>
    if x.coh then
      if s.rcv.dirHold.contains (s.homeOf (mAddr r.msg)) then s.wait r 12 (lineOf (mAddr r.msg))
      else if s.cgState x.cg = 2 then s.dirAccess r x.cg
      else s.viaTier r x (fun s r => s.dirAccess r x.cg)
    else if x.pub then
      match s.pubAccess r with
      | .done s' => s'
      | .plain => s.plainPath r x
      | .window r' =>
        let yo := s.extentAt (mAddr r'.msg)
        match extentCheck yo, yo with
        | some st, _ => s.finishCmp r' st
        | none, some (_, y) => s.plainPath r' y
        | none, none => s
    else s.plainPath r x

/-! ### Accesses of the device's own engines (R191, R278, R334) -/

/-- The line whose bytes a line of a published region's window reads as: the line of BODY (Table 9.12, R245); any other line
is its own. -/
def State.srcLine (s : State) (l : Nat) : Nat :=
  match s.extentAt (64 * l), s.regionAt (64 * l) with
  | some (_, x), some (_, y) => if x.pub ∧ y.hdr + 64 ≤ 64 * l then (y.body + (64 * l - y.hdr - 64)) / 64 else l
  | _, _ => l

/-- The header line of a region, where this is one (Table 9.11). -/
def State.headerAt (s : State) (l : Nat) : Option (List Byte) :=
  match s.extentAt (64 * l), s.regionAt (64 * l) with
  | some (_, x), some (_, y) => if x.pub ∧ 64 * l < y.hdr + 64 then some y.header else none
  | _, _ => none

/-- Does an owning agent have to be asked before an engine can read a line (R220). -/
def State.lineOwned (s : State) (l : Nat) : Bool :=
  match s.dirEnt l with
  | some e => e.st == .X || e.st == .O || e.st.transient
  | none => false

/-- Does a read of a line have to be sent to its home, where it may wait: its page is on the move or in its tray, or
its stack retrains (R93, R199, R210, R258). -/
def State.lineAway (s : State) (l : Nat) : Bool :=
  let l := s.srcLine l
  let pg := l / 1024
  match s.extentAt (64 * l) with
  | none => false
  | some (_, x) =>
    x.state == 1 && (s.headerAt l).isNone
      && ((s.page pg).loc == 2 || s.busy.rewrite.contains pg
        || (match s.stackOfPage pg with
            | some st => s.rcv.stackWait.contains st
            | none => (s.page pg).loc == 0))

/-- The bytes of a line an engine asked its home for. -/
def State.engGot (s : State) (o : Origin) (l : Nat) : Option (List Byte × Bool) :=
  (s.coh.engReads.find? (fun e => e.org == o && e.line == s.srcLine l)).bind (·.got)

/-- Does an engine wait for a line that an owner gives. -/
def State.engWaiting (s : State) (o : Origin) : Bool := s.coh.engReads.any (fun e => e.org == o && e.got.isNone)

/-- An engine's request: its origin, the agent it works for, subscriber, opcode, class, address, SIZE,
further header fields and payload (R191). -/
def engReq (o : Origin) (src seq sub opc sc addr sizeF : Nat) (more : List (Nat × Nat × Nat)) (pay : List Byte) : Req :=
  { org := o, src := src, seq := seq,
    msg := { hdr := mkHdr (commonHdr opc sc src 0 seq ++ [(27, 48, addr), (24, 3, sizeF)] ++ more), payload := pay },
    sub := sub, dep := none, hot := false, causes := [], win := none }

/-- A request of the device's engines or of the host passes the point of its home, and is checked and performed there (R23, R100,
R131, R272). -/
def State.engSend (s : State) (r : Req) : State := s.passPoint (320 + s.homeOf (mAddr r.msg) % 16) r (fun s r => s.poolAccess r)

/-- Ask the owner of a line with an NRD (R220). -/
def State.engAsk (s : State) (o : Origin) (src sub sc l : Nat) : State :=
  let seq := s.nextId % 2 ^ 20
  let s := { s with nextId := s.nextId + 1,
                    coh := { s.coh with engReads := s.coh.engReads ++ [EngRead.mk o seq (s.srcLine l) none] } }
  s.engSend (engReq o src seq sub opNRD sc (64 * l) 6 [] [])

/-- Does an engine have to ask for a line before it can read it: an agent owns it, or it is not at hand. -/
def State.engNeeds (s : State) (l : Nat) : Bool := s.lineOwned l || s.lineAway l

/-- Ask for those of some lines that have to be asked for and were not. -/
def State.engAskLines (s : State) (o : Origin) (src sub sc : Nat) (ls : List Nat) : State :=
  ls.foldl (fun s l =>
    if s.engNeeds l && !(s.coh.engReads.any (fun e => e.org == o && e.line == s.srcLine l && e.seq != 2 ^ 20)) then s.engAsk o src sub sc l else s) s

/-- The lines of a range of lines that are not at hand. -/
def State.awayLines (s : State) (q : Nat × Nat) : List Nat :=
  ((List.range ((q.1 + q.2 + 1023) / 1024 - q.1 / 1024)).map (fun i => q.1 / 1024 + i)).flatMap (fun pg =>
    if ergPage pg || s.lineAway (1024 * pg) || (match s.extentAt (65536 * pg) with | some (_, x) => x.pub | none => false) then
      ((List.range 1024).map (fun j => 1024 * pg + j)).filter (fun l =>
        decide (q.1 ≤ l ∧ l < q.1 + q.2) && s.lineAway l)
    else [])

/-- Ask for those lines of some ranges that pass a test and have to be asked for. Ranges are first line and lines. -/
def State.engAskWhere (s : State) (o : Origin) (src sub sc : Nat) (rs : List (Nat × Nat)) (ok : Nat → Bool) : State :=
  let hit := s.coh.dir.filter (fun e => rs.any (fun q => decide (q.1 ≤ e.1 ∧ e.1 < q.1 + q.2)))
  s.engAskLines o src sub sc ((hit.map (·.1) ++ rs.flatMap s.awayLines).filter ok)

/-- Ask for those lines of some ranges that have to be asked for. -/
def State.engAskRanges (s : State) (o : Origin) (src sub sc : Nat) (rs : List (Nat × Nat)) : State :=
  s.engAskWhere o src sub sc rs (fun _ => true)

/-! An operation does its work in one piece once every line it reads is at hand. It is tried; where it read a line that
has to be asked for, what it did is dropped and the line is asked for (R210, R220, R258). -/

/-- The mark of a line that an operation read without having it. -/
def State.engNote (s : State) (o : Origin) (l : Nat) : State :=
  { s with coh := { s.coh with engReads := s.coh.engReads ++ [EngRead.mk o (2 ^ 20) l none] } }

/-- The lines marked. -/
def State.engNoted (s : State) (o : Origin) : List Nat :=
  ((s.coh.engReads.filter (fun e => e.org == o && e.seq == 2 ^ 20)).map (·.line)).dedup

/-- The marks of an engine are taken away. -/
def State.engUnnote (s : State) (o : Origin) : State :=
  { s with coh := { s.coh with engReads := s.coh.engReads.filter (fun e => !(e.org == o && e.seq == 2 ^ 20)) } }

/-- Work that reads as it goes: whether it is done, or the lines it lacks are asked for. -/
def State.engTry (s : State) (o : Origin) (src sub sc : Nat) (f : State → State) : Bool × State :=
  let t := f s
  let ls := t.engNoted o
  if ls.isEmpty then (true, t) else (false, s.engAskLines o src sub sc ls)

/-- Forget what an engine was given. -/
def State.engForget (s : State) (o : Origin) : State :=
  { s with coh := { s.coh with engReads := s.coh.engReads.filter (fun e => e.org != o) } }

/-- Is an engine's read of a coherent line a non-member's (R220). -/
def State.engOutside (s : State) (o : Origin) (x : Extent) : Bool :=
  x.coh && s.cgState x.cg != 2 && ((s.accessOf o 0).bind (s.memberSlot x.cg)).isNone

/-- An engine reads a line that is at hand: it ends a run of stores to the line (R93), heat is counted (R196), a non-member's
read of a coherent line is counted (R220), a FAULTED group's lines and a page without a frame read poisoned (R234, R380), as
does a line that the checks of Table 7.6 refuse (R276), and a line of a published region reads as its header or its committed contents (R241, R245). -/
def State.engLine (s : State) (o : Origin) (l : Nat) : (List Byte × Bool) × State :=
  match s.headerAt l with
  | some bs => ((bs, false), s)
  | none =>
    match s.engGot o l with
    | some g => (g, s)
    | none =>
      let l := s.srcLine l
      let pg := l / 1024
      if (extentCheck (s.extentAt (64 * l))).isSome then ((allOnes, true), s)
      else
      let s := s.applyRun l
      let s := if s.heatCounted pg then (s.gate pg true).2 else s
      if (s.page pg).loc = 3 then ((allOnes, true), s)
      else
        match s.extentAt (64 * l) with
        | some (_, x) =>
          let s := if s.engOutside o x then s.bump .DIR_NONMEMBER_COUNT else s
          let v := s.readLine l
          if x.coh ∧ s.cgState x.cg = 2 then ((v.1.1, true), v.2) else v
        | none => s.readLine l

/-- An engine writes a whole line as an NWR of the agent it works for (R191); `share` is the share of the operation that
writes it. -/
def State.engWriteLine (s : State) (o : Origin) (src share sub sc l : Nat) (bs : List Byte) (psn : Bool) : State :=
  s.engSend (engReq o src share sub opNWR sc (64 * l) 6 [(17, 1, b2n psn)] (slice bs 0 64))

/-- An engine writes four bytes. -/
def State.engWriteWord (s : State) (o : Origin) (src share sub sc a : Nat) (bs : List Byte) (psn : Bool) : State :=
  s.engSend (engReq o src share sub opST sc a 2 [(17, 1, b2n psn)] (slice bs 0 16))

/-- An engine's non-fetch AT OR of eight bytes (R281, R288). -/
def State.engOr (s : State) (o : Origin) (src sub sc a v : Nat) : State :=
  s.engSend (engReq o src 0 sub opAT sc a 3 [(20, 4, 4)] (leBytes 16 v))

/-- Is no request that passes a test waiting anywhere. -/
def State.reqQuiet (s : State) (here : Req → Bool) : Bool :=
  !(s.home.waits.any (fun w => here w.req))
    && !(s.coh.dir.any (fun e => match e.2.req with | some r => here r && !e.2.cancelled | none => false))
    && !(s.home.tacc.any (fun t => match t.kind with | .load rs => rs.any here | _ => false))
    && !(s.home.runs.any (fun e => e.2.any here))
    && !(s.home.atGrps.any (fun g => g.members.any here))
    && !(s.home.merged.any (fun e => e.2.any here))

/-- The requests that pass a test, wherever they are held. -/
def State.heldReqs (s : State) (here : Req → Bool) : List Req :=
  (s.home.waits.map (·.req) ++ s.coh.dir.filterMap (fun e => if e.2.cancelled then none else e.2.req)
    ++ s.home.tacc.flatMap (fun t => match t.kind with | .load rs => rs | _ => [])
    ++ s.home.runs.flatMap (·.2) ++ s.home.atGrps.flatMap (·.members)).filter here

/-- Has every write of an engine been answered (R257, R343). -/
def State.engQuiet (s : State) (o : Origin) : Bool := s.reqQuiet (fun r => r.org == o)

/-- Take requests that pass a test out of every place they wait. -/
def State.engDropReqs (s : State) (here : Req → Bool) : State :=
  let noRun (e : Nat × List Req) : Nat × List Req := (e.1, e.2.filter (fun r => !here r))
  let noMember (g : AtGrp) : AtGrp := { g with members := g.members.filter (fun r => !here r) }
  let s := { s with home := { s.home with
    waits := s.home.waits.filter (fun w => !here w.req)
    runs := s.home.runs.map noRun, atGrps := s.home.atGrps.map noMember
    merged := s.home.merged.map noRun } }
  let noLoad (t : TAcc) : TAcc :=
    match t.kind with
    | .load rs => { t with kind := .load (rs.filter (fun r => !here r)) }
    | _ => t
  let s := { s with home := { s.home with tacc := s.home.tacc.map noLoad } }
  let quiet (e : Nat × DirEnt) : Nat × DirEnt :=
    match e.2.req with
    | some r => if here r then (e.1, { e.2 with cancelled := true }) else e
    | none => e
  { s with coh := { s.coh with dir := s.coh.dir.map quiet } }

/-- Take an engine's requests out of every place they wait. -/
def State.engDrop (s : State) (o : Origin) : State := (s.engDropReqs (fun r => r.org == o)).engForget o

end Sys2Proof.Machine
end

