-- ==== Sys2Proof/Machine/Rgf.lean ====
section
/-! DEFINITION. Operation slots and RGF dies: descriptors and their checks (R274 to R277), the reads and
writes of an operation with the common outcomes (R258), die queues and placement (R260 to R265). -/

namespace Sys2Proof.Machine

/-! ### Slots -/

/-- The origin of a slot's requests. -/
def slotOrg (k : Nat) : Origin := .slot (k / 16) (k % 16)

/-- The agent of a slot's key. -/
def slotAgentId (k : Nat) : Nat := k / 16

/-- Change a slot. -/
def State.modSlot (s : State) (k : Nat) (f : OpSlot → OpSlot) : State := s.setSlot k (f (s.slot k))

/-- The subscriber an agent's operations are charged to (R272). -/
def State.agentSub (s : State) (id : Nat) : Nat :=
  match s.portOfAgent id with
  | some p => s.subOf p
  | none => 1023

/-- The stored descriptor of a slot (R251). -/
def OpSlot.descBytes (x : OpSlot) (n : Nat) : List Byte := memRead x.desc 0 n

/-- A slot's operation meets an outcome of Table 10.7. -/
def State.opOutcome (s : State) (k rank st : Nat) : State := s.modSlot k (fun x => x.outcome rank st)

/-- The status of an operation ends it: nothing further of it runs. -/
def State.opEnd (s : State) (k rank st : Nat) : State :=
  s.modSlot k (fun x => { x.outcome rank st with ending := true, left := 0 })

/-- The status of an operation's own that stops nothing and names no place (R288, R293). -/
def State.opOwn (s : State) (k rank st : Nat) : State := s.modSlot k (fun x => x.outcomeOwn rank st)

/-- An operation's descriptor fails a check: its status, ERR_POS 0 (R276). -/
def State.opRefuse (s : State) (k st : Nat) : State :=
  s.modSlot k (fun x => { x with rank := 3, status := st, errPos := some 0, ending := true, left := 0 })

/-! ### Ranges and checks (R275, R276) -/

/-- A range: first byte and length. -/
structure Rng where
  lo : Nat
  len : Nat
  deriving DecidableEq, Repr

/-- Do two ranges overlap. -/
def Rng.meets (a b : Rng) : Bool := decide (a.len ≠ 0 ∧ b.len ≠ 0 ∧ a.lo < b.lo + b.len ∧ b.lo < a.lo + a.len)

/-- First line and number of lines of a range. -/
def Rng.lines (a : Rng) : Nat × Nat :=
  if a.len = 0 then (a.lo / 64, 0) else (a.lo / 64, (a.lo + a.len - 1) / 64 + 1 - a.lo / 64)

/-- Check 2 for one range: wholly inside one ACTIVE extent (Table 11.2). -/
def State.rangeStatus (s : State) (r : Rng) : Nat :=
  if r.len = 0 then stOK
  else
    match s.extentAt r.lo with
    | none => stUNMAPPED
    | some (_, x) =>
      if x.state = 1 ∧ x.holds (r.lo + r.len - 1) then stOK
      else if x.state = 2 then stLEASE_GONE else stUNMAPPED

/-- Does a range lie in an extent that passes a test. -/
def State.rangeIn (s : State) (r : Rng) (ok : Extent → Bool) : Bool :=
  decide (r.len = 0) ||
  (match s.extentAt r.lo with
   | some (_, x) => ok x
   | none => false)

/-- What the work estimate E is made from (R261): the pool input bytes that every part reads, those that the parts share
out, the MACs with the number done in a cycle, the reduce-unit elements, and the filter keys with their rate. -/
structure Load where
  each : Nat := 0
  bytes : Nat := 0
  macs : Nat := 0
  macRate : Nat := 65536
  elems : Nat := 0
  keys : Nat := 0
  keyRate : Nat := 64
  deriving DecidableEq, Repr

/-- Ceiling of a quotient. -/
def cdiv (a b : Nat) : Nat := (a + b - 1) / b

/-- E of the share `n` of `d` of the work: the largest quotient of R261, each rounded up to whole cycles (DESIGN CHOICE, log
entry 98). -/
def Load.est (w : Load) (n d : Nat) : Nat :=
  max (max (cdiv (w.each + cdiv (w.bytes * n) d) 896) (cdiv (w.macs * n) (d * w.macRate)))
    (max (cdiv (w.elems * n) (d * 512)) (cdiv (w.keys * n) (d * w.keyRate)))

/-- CCLK cycles the MAC array works on the share `n` of `d` of the work (R275; log entry 92). -/
def Load.macCycles (w : Load) (n d : Nat) : Nat := cdiv (w.macs * n) (d * w.macRate)

/-- What an operation's descriptor says of it: whether check 1 passes, its inputs and outputs, the
overlaps its rules forbid, whether check 3's extent rule for it passes, TOT, the split axis and what its
work is estimated from (R261, R276). -/
structure Plan where
  ok : Bool
  ins : List Rng
  outs : List Rng
  clash : Bool
  extra : Bool
  tot : Nat
  axis : Nat
  split : Bool
  load : Load := {}
  deriving DecidableEq, Repr

/-- A plan whose descriptor fails check 1. -/
def Plan.bad : Plan :=
  { ok := false, ins := [], outs := [], clash := false, extra := true, tot := 0, axis := 1, split := false }

/-- E of an operation (R261, R262). -/
def Plan.work (p : Plan) : Nat := p.load.est 1 1

/-- E of the part that takes `lo` to `hi` of the split axis (R261). -/
def Plan.share (p : Plan) (lo hi : Nat) : Nat := p.load.est (hi - lo) (max 1 p.axis)

/-- The checks of Table 11.2, in order: the status of the first that fails. -/
def State.planStatus (s : State) (p : Plan) : Nat :=
  if !p.ok then stREFUSED
  else
    match ((p.ins ++ p.outs).map s.rangeStatus).find? (· != stOK) with
    | some st => st
    | none =>
      if p.clash || !p.extra || p.outs.any (fun r => !s.rangeIn r (fun x => !x.pub)) then stREFUSED else stOK

/-- Does an address field of a descriptor keep bits 63:48 zero (R275). -/
def addrOk (bs : List Byte) (o : Nat) : Bool := leAt bs (o + 6) 2 == 0

/-! ### Lines read and written by an operation (R258, R278) -/

/-- Read `n` bytes from an address: the bytes, and for each line touched whether it was poisoned. SUSP of
an input line is noted (R258), and a line that has to be asked for is marked. -/
def State.opRead (s : State) (k a n : Nat) : (List Byte × List Bool) × State :=
  let q := (Rng.mk a n).lines
  let r := (List.range q.2).foldl (fun (t : (List Byte × List Bool) × State) i =>
    let l := q.1 + i
    let susp := t.2.lineSusp l
    let u := if (t.2.engGot (slotOrg k) l).isNone && t.2.engNeeds l then t.2.engNote (slotOrg k) l else t.2
    let v := u.engLine (slotOrg k) l
    let s := if susp then v.2.modSlot k (fun x => { x with susp := true }) else v.2
    ((t.1.1 ++ v.1.1, t.1.2 ++ [v.1.2]), s)) (([], []), s)
  ((slice r.1.1 (a % 64) n, r.1.2), r.2)

/-- A little-endian word of an operation's input, with its poison. -/
def State.opWord (s : State) (k a n : Nat) : (Nat × Bool) × State :=
  let r := s.opRead k a n
  ((leVal r.1.1, r.1.2.any (fun b => b)), r.2)

/-- Cut bytes from an address at line boundaries. -/
def linePieces (a : Nat) (bs : List Byte) : Nat → List (Nat × List Byte)
  | 0 => []
  | n + 1 =>
    if bs.isEmpty then []
    else
      let k := 64 - a % 64
      (a, bs.take k) :: linePieces (a + k) (bs.drop k) n

/-- Has the share of an operation that is at work stopped: a write of it was refused, or the operation has ended. The other
shares finish (R258). -/
def State.opStopped (s : State) (k : Nat) : Bool := (s.slot k).stops.contains (s.slot k).share || (s.slot k).ending

/-- The share of an operation that does its work now: a part by its number, a near-memory share by its home. -/
def State.onShare (s : State) (k i : Nat) : State := s.modSlot k (fun x => { x with share := i })

/-- Write one line's piece: a whole line as an NWR, else word by word. -/
def State.opWritePiece (s : State) (k sc sub a : Nat) (bs : List Byte) (psn : Bool) : State :=
  let o := slotOrg k
  let id := slotAgentId k
  let i := (s.slot k).share
  let s := if psn then (s.modSlot k (fun x => { x with psnOut := true })).opOutcome k 2 stPOISON else s
  if bs.length = 64 then s.engWriteLine o id i sub sc (a / 64) bs psn
  else (chunksOf 4 bs).zipIdx.foldl (fun s (w, j) => s.engWriteWord o id i sub sc (a + 4 * j) w psn) s

/-- An operation writes bytes; `psn` gives PSN of the line that holds an offset. A write answered other
than OK or POISON stops the writing (R258). With it, how many bytes were written. -/
def State.opWriteN (s : State) (k sc a : Nat) (bs : List Byte) (psn : Nat → Bool) : Nat × State :=
  let sub := s.agentSub (slotAgentId k)
  (linePieces a bs (bs.length / 64 + 2)).foldl (fun (t : Nat × State) e =>
    if t.2.opStopped k then t
    else
      let s := t.2.opWritePiece k sc sub e.1 e.2 (psn (e.1 - a))
      (if s.opStopped k then t.1 else t.1 + e.2.length, s)) (0, s)

/-- An operation writes bytes. -/
def State.opWrite (s : State) (k sc a : Nat) (bs : List Byte) (psn : Nat → Bool) : State := (s.opWriteN k sc a bs psn).2

/-- An input was found poisoned at a place of the operation: POISON, and where that was the first failure (Table 10.7). -/
def State.opPoison (s : State) (k pos : Nat) : State :=
  s.modSlot k (fun x => ({ x with errPos := if x.errPos.isNone then some pos else x.errPos }).outcome 2 stPOISON)

/-- An operation ends in a way of its own that names the place (R288, R293). -/
def State.opHalt (s : State) (k st pos : Nat) : State :=
  s.modSlot k (fun x => { (x.outcome 3 st) with errPos := some pos })

/-- Bytes padded with zeros to a whole number of lines. -/
def padLines (bs : List Byte) : List Byte := bs ++ List.replicate (cdiv bs.length 64 * 64 - bs.length) 0

/-! ### Dies and queues (R260 to R263) -/

/-- The die that serves a placement slot. -/
def State.dieOf (s : State) (p : Nat) : Nat := s.rd .RGF_MAP_DIE p

/-- ROLE of a die: 0 SPARE, 1 ACTIVE, 2 OBSERVED, 3 PAIRED, 4 RETIRED, 5 FAILED. -/
def State.role (s : State) (d : Nat) : Nat := s.rd .RGF_DIE_STAT_ROLE d

/-- The partner of a PAIRED die. -/
def State.partner (s : State) (d : Nat) : Option Nat :=
  let p := s.rd .RGF_DIE_STAT_PARTNER d
  if s.role d = 3 ∧ p < 36 then some p else none

/-- A die nobody has scanned. -/
def Scan.init : Scan :=
  { due := false, running := false, seed := 0, start := 0, checker := 0, arbiting := none, passes := 0,
    starts := [], journal := [], obsFrom := 0, barred := false, suspect := false }

/-- The scan record of a die, or (48 and above) of a complex's adders (SCN_JSEL, Table 15.8). -/
def State.scan (s : State) (d : Nat) : Scan :=
  if d < 48 then tget Scan.init s.scn.scans d else tget Scan.init s.scn.adders (d - 48)

/-- The die that writes the steps of a part: of a pair, the partner of the suspect (R365). -/
def State.writerOf (s : State) (d : Nat) : Nat :=
  match s.partner d with
  | some q => if (s.scan d).suspect then q else d
  | none => d

/-- The parts queued and running on a die. -/
def State.dieq (s : State) (d : Nat) : List Part := tget [] s.rgf.dieq d

/-- Set one die's queue, with RGF_QDEPTH and RGF_QWORK as they become (R261). -/
def State.setOwnq (s : State) (d : Nat) (q : List Part) : State :=
  let w := (q.map (·.work)).sum * (if s.role d = 3 then 2 else 1)
  (({ s with rgf := { s.rgf with dieq := tset [] s.rgf.dieq d q } }).wr .RGF_QDEPTH_PARTS q.length d).wr
    .RGF_QWORK_WORK (min w (2 ^ 32 - 1)) d

/-- Set the queue of a die; the two dies of a pair each run every part placed on either, so that they have one queue (R260,
R365; DEDUCED, log entry 91). -/
def State.setDieq (s : State) (d : Nat) (q : List Part) : State :=
  match s.partner d with
  | some p => (s.setOwnq d q).setOwnq p q
  | none => s.setOwnq d q

/-- Count in a counter of a die, and of its partner, which runs the part too (R365). -/
def State.bumpPair (s : State) (f : Fld) (d n : Nat) : State :=
  match s.partner d with
  | some p => (s.bump f d 0 n).bump f p 0 n
  | none => s.bump f d 0 n

/-- Set the launch queue. -/
def State.setLaunchq (s : State) (q : List Part) : State :=
  ({ s with rgf := { s.rgf with launchq := q } }).wr .RGF_LAUNCHQ_COUNT q.length

/-- The slot mask of an agent: that of the slice of the port it is bound to (R394). A launch in the CCLK cycle of a
recomposition still takes the slices and masks before it (R397). -/
def State.agentMask (s : State) (id : Nat) : Nat :=
  let old := s.busy.rcmpAt == some s.now
  let port (p : Nat) : Nat := if old then s.busy.rcmpSlices.getD p 0 else s.rd .POOL_PORT_SLICE_ACTIVE p
  let n := match s.portOfAgent id with | some p => port p | none => 0
  if old then s.busy.rcmpMasks.getD n 0 else s.rd .POOL_SLC_SLOTS_ACT_MASK n

/-- The placement slots a mask stands for; a mask of zero means all 32 (R394). -/
def inMask (mask p : Nat) : Bool := mask == 0 || mask.testBit p

/-- The slot a part is placed on: from slot `start` up, modulo 32, the first of the mask with the least RGF_QWORK
among those whose die's queue has room (R263, R395). -/
def State.placeFor (s : State) (start mask : Nat) : Option Nat :=
  (((List.range 32).map (fun i => (start + i) % 32)).filter (fun p => inMask mask p)).foldl (fun (b : Option Nat) p =>
    let d := s.dieOf p
    if 64 ≤ (s.dieq d).length then b
    else
      match b with
      | none => some p
      | some c => if s.rd .RGF_QWORK_WORK d < s.rd .RGF_QWORK_WORK (s.dieOf c) then some p else b) none

/-- The parts of the launch queue are placed in arrival order while a queue has room, under the masks of their launches (R263,
R395, R397). -/
def State.placeWaiting (s : State) : State :=
  let q := s.rgf.launchq
  q.foldl (fun s x =>
    match s.placeFor (slotAgentId x.key % 32) (s.slot x.key).mask with
    | some p => s.setDieq (s.dieOf p) (s.dieq (s.dieOf p) ++ [{ x with place := p }])
    | none => s.setLaunchq (s.rgf.launchq ++ [x])) (s.setLaunchq [])

/-- Place a part behind those that wait, or let it wait in the launch queue (R263). -/
def State.placePart (s : State) (x : Part) : State := (s.setLaunchq (s.rgf.launchq ++ [x])).placeWaiting

/-- Room in the queues of the dies that serve slots of a mask (R265, R395); a pair has one queue. -/
def State.queueRoom (s : State) (mask : Nat) : Nat :=
  (((((List.range 32).filter (fun p => inMask mask p)).map (fun p => min (s.dieOf p) ((s.partner (s.dieOf p)).getD (s.dieOf p)))).dedup).map (fun d => 64 - (s.dieq d).length)).sum

/-- Is there room for `n` parts of a launch with this mask (R265). -/
def State.launchRoom (s : State) (mask n : Nat) : Bool :=
  decide (n ≤ s.queueRoom mask + (4096 - s.rgf.launchq.length))

/-- Parts of an operation (R262): one, or P shares where it is split. -/
def State.partCount (s : State) (p : Plan) (nosplit : Bool) : Nat :=
  let thr := 2 ^ (16 + s.rd .RGF_CTL_SPLIT_MIN_LOG2)
  if p.split ∧ !nosplit ∧ s.on .RGF_CTL_SPLIT_EN ∧ thr < p.work then
    min (s.rd .RGF_CTL_SPLIT_MAX + 1) (cdiv p.work thr)
  else 1

/-- Take an operation's parts out of every queue (R254, R258). -/
def State.dropParts (s : State) (k : Nat) : State :=
  let s := s.setLaunchq (s.rgf.launchq.filter (fun x => x.key != k))
  (s.rgf.dieq.map (·.1)).foldl (fun s d => s.setDieq d ((s.dieq d).filter (fun x => x.key != k))) s

/-- Units a part needs (Table 10.3): gather, MAC, reduce, filter. -/
def unitsOf (opc : Nat) : List Nat :=
  if opc = 2 then [0, 1, 2] else if opc = 3 then [3, 0] else if opc = 4 then [1] else [0]

/-- The part a die starts next: the oldest whose units are free and not wanted by an older one that
waits (R250). -/
def nextPart : List Part → List Nat → Option Part
  | [], _ => none
  | x :: t, busy =>
    if x.running then nextPart t busy
    else if (unitsOf x.opc).all (fun u => !busy.contains u) then some x
    else nextPart t (busy ++ unitsOf x.opc)

/-- The part a die can start. -/
def startable (q : List Part) : Option Part :=
  nextPart q ((q.filter (·.running)).flatMap (fun x => unitsOf x.opc))

/-! ### Residue checks (R315 to R317) -/

/-- The residues modulo 3 and modulo 7 of a word of the window or of a lane (R315). -/
def residues (v : Int) : Int × Int := (v % 3, v % 7)

/-- Does the check of a pass or of a lane's addition find an error of `e` units of the checked word's last bit: the residues of
the sum differ from those the separate path predicts (R315). -/
def residueMiss (sum e : Int) : Bool := residues (sum + e) != residues sum

/-- What the checks find in a step whose first computation is wrong by `res mod 2^32` units and whose recomputation by
`res / 2^32 mod 2^32`: 0 no mismatch, 1 one that the recomputation clears, 2 one that repeats (R317). -/
def residueFind (res : Nat) : Nat :=
  if !residueMiss 0 (res % 2 ^ 32 : Nat) then 0
  else if !residueMiss 0 (res / 2 ^ 32 % 2 ^ 32 : Nat) then 1
  else 2

/-- Do the residue checks cover an operation's arithmetic: the MAC array's and the reduce unit's (R315, R316). -/
def residueCovers (opc : Nat) : Bool := opc == 2 || opc == 4

/-- Dies that serve at least one slot (R247). -/
def State.dieServes (s : State) (d : Nat) : Nat := ((List.range 32).filter (fun p => s.dieOf p == d)).length

/-- Is a die in service: it serves slots and has not failed. -/
def State.inService (s : State) (d : Nat) : Bool := decide (0 < s.dieServes d ∧ s.role d < 4)

end Sys2Proof.Machine
end

