-- ==== Sys2Proof/Machine/Work.lean ====
section
/-! DEFINITION. The operations of the RGF dies: descriptors, limits and ranges (Tables 11.5, 11.6, 11.8,
11.10), and what a part of GATHER, FILTER, MATMUL, EXPAND or COMPRESS reads, computes and writes. -/

namespace Sys2Proof.Machine

/-- What goes wrong with a part: the output row a residue mismatch that repeats reaches (R317), and a
pair of dies that no arbiter could settle (R365). -/
structure Harm where
  row : Option Nat
  all : Bool
  deriving DecidableEq, Repr

/-- Count what a die wrote (R310). -/
def State.countWr (s : State) (d : Nat) (c : WrCount) : State :=
  (s.bump .RGF_OVF_COUNT (s.writerOf d) 0 c.ovf).bump .RGF_NAN_OUT_COUNT (s.writerOf d) 0 c.nan

/-- Any of the lines of a read poisoned. -/
def anyBad (bad : List Bool) : Bool := bad.any (fun b => b)

/-- The types a descriptor may name. -/
def isT3 (t : Nat) : Bool := decide (1 ≤ t ∧ t ≤ 3)
def isT16 (t : Nat) : Bool := decide (t = 1 ∨ t = 2)

/-! ### Blocks (R319 to R328) -/

/-- Read up to `n` blocks from the front of bytes, each with its offset; reading ends after a malformed
one (R327). -/
def readBlocks (f16 : Bool) (off : Nat) (bs : List Byte) : Nat → List (Block × Nat)
  | 0 => []
  | n + 1 =>
    match decodeBlock f16 bs with
    | .malformed => [(.malformed, off)]
    | .good v len m ok => (.good v len m ok, off) :: readBlocks f16 (off + len) (bs.drop len) n

/-- Count the blocks a die decoded (Table 13.4). -/
def State.countBlocks (s : State) (d : Nat) (bs : List (Block × Nat)) : State :=
  bs.foldl (fun s b =>
    match b.1 with
    | .malformed => s.bumpPair .EXP_MALFORMED_COUNT d 1
    | .good _ _ m ok =>
      let s := if m = 0 then s.bumpPair .EXP_BLK_CODED_COUNT d 1 else s.bumpPair .EXP_BLK_RAW_COUNT d 1
      if ok then s else s.bumpPair .EXP_CHECK_FAIL_COUNT d 1) s

/-- CCLK cycles the unit behind an expander pauses for some blocks: they are dealt to four lanes in order, and leave in order,
so that each four wait for the slowest of them (R330, R331; DEDUCED, log entry 97). -/
def pauses (f16 : Bool) (bs : List Block) : Nat :=
  ((chunksOf 4 bs).map (fun g => (g.map (Block.behind f16)).foldl max 0)).sum

/-- An expander reads blocks for a unit of a die: they are counted, and the cycles the unit pauses (R331). -/
def State.expanded (s : State) (d : Nat) (f16 : Bool) (bs : List (Block × Nat)) : State :=
  (s.countBlocks d bs).bumpPair .EXP_BEHIND_COUNT d (pauses f16 (bs.map (·.1)))

/-- Does a block that starts at `off` touch a line read with PSN 1. -/
def blockHit (bad : List Bool) (off len : Nat) : Bool :=
  anyBad ((bad.drop (off / 64)).take ((off + len - 1) / 64 + 1 - off / 64))

/-- Did every one of `n` blocks pass (R328). -/
def blocksPass (bad : List Bool) (n : Nat) (bs : List (Block × Nat)) : Bool :=
  decide (bs.length = n) && bs.all (fun b =>
    match b.1 with
    | .malformed => false
    | .good _ len _ ok => ok && !blockHit bad b.2 len)

/-- The values of the blocks that were decoded. -/
def blockVals (bs : List (Block × Nat)) : List Nat :=
  bs.flatMap (fun b => match b.1 with | .malformed => [] | .good v _ _ _ => v)

/-! ### GATHER (R283 to R285) -/

/-- Is a flag of a descriptor's FLAGS byte set. -/
def flag (d : List Byte) (o i : Nat) : Bool := (leAt d o 1).testBit i

/-- Output values per GATHER row. -/
def gatherD (d : List Byte) : Nat := if flag d 56 2 then leAt d 50 2 else leAt d 48 2

/-- GATHER's descriptor (Table 11.5); `first` and `last` are SEGPTR[0] and SEGPTR[NSEG]. Each part reads W, which counts in its
pool input bytes (DESIGN CHOICE, log entry 99). -/
def gatherPlan (d : List Byte) (first last : Nat) : Plan :=
  let seg := leAt d 0 8; let idx := leAt d 8 8; let ew := leAt d 16 8; let feat := leAt d 24 8
  let nseg := leAt d 32 4; let nrows := leAt d 36 4; let rs := leAt d 40 4; let os := leAt d 44 4
  let fdim := leAt d 48 2; let odim := leAt d 50 2
  let ft := leAt d 52 1; let wt := leAt d 53 1; let ot := leAt d 54 1
  let ewen := flag d 56 0; let fcomp := flag d 56 1; let wen := flag d 56 2
  let w := leAt d 64 8; let out := leAt d 72 8
  let n := last - first
  let ok :=
    zeroBetween d 57 64 && zeroBetween d 80 128 && leAt d 56 1 < 8 && leAt d 55 1 ≤ 2
    && [0, 8, 16, 24, 64, 72].all (addrOk d)
    && seg % 4 == 0 && idx % 4 == 0 && ew % 4 == 0 && (ewen || ew == 0) && feat % 64 == 0 && w % 64 == 0
    && out % 64 == 0 && decide (1 ≤ nseg ∧ nseg ≤ 2 ^ 28 ∧ 1 ≤ nrows)
    && (if fcomp then isT16 ft else isT3 ft) && isT3 ot
    && (if wen then isT16 wt && decide (1 ≤ odim ∧ odim ≤ 4096) else wt == 0 && odim == 0)
    && decide (16 ≤ fdim ∧ fdim ≤ 4096) && fdim % (if fcomp then 256 else 16) == 0
    && rs % 64 == 0 && decide (fdim * tySize ft ≤ rs)
    && os % 64 == 0 && decide (gatherD d * tySize ot ≤ os) && decide (first ≤ last)
  let wb := if wen then fdim * odim * tySize wt else 0
  let ins := [Rng.mk seg (4 * (nseg + 1)), Rng.mk (idx + 4 * first) (4 * n),
    Rng.mk (ew + 4 * first) (if ewen then 4 * n else 0), Rng.mk feat (nrows * rs), Rng.mk w wb]
  let o := Rng.mk out (nseg * os)
  let shared := 4 * (nseg + 1) + 4 * n + (if ewen then 4 * n else 0) + n * (if fcomp then rs else fdim * tySize ft)
  { ok := ok, ins := ins, outs := [o], clash := ins.any o.meets, extra := true, tot := n, axis := nseg, split := true,
    load := { each := wb, bytes := shared, macs := if wen then nseg * fdim * odim else 0, elems := n * fdim } }

/-- `n` free values of a type, for data the spec gives no value. -/
def State.freeRow (s : State) (n : Nat) : List Num × State :=
  ((List.range n).map (fun i => widenF fmtFP32 (Config.freeValue (s.freeCtr + i) % 2 ^ 32)),
    { s with freeCtr := s.freeCtr + n })

/-- Row `r` of FEAT as values, and whether it counts as poisoned, and as faulty (R284, R285, R328). -/
def State.gatherRow (s : State) (k d r : Nat) (ds : List Byte) : (List Num × Bool × Bool) × State :=
  let fdim := leAt ds 48 2; let ft := leAt ds 52 1; let rs := leAt ds 40 4
  if leAt ds 36 4 ≤ r then
    let v := s.freeRow fdim
    ((v.1, true, true), v.2)
  else if flag ds 56 1 then
    let v := s.opRead k (leAt ds 24 8 + r * rs) rs
    let f16 := ft == tFP16
    let bs := readBlocks f16 0 v.1.1 (fdim / 256)
    let s := v.2.expanded d f16 bs
    if blocksPass v.1.2 (fdim / 256) bs then (((blockVals bs).map (widenT ft), false, false), s)
    else
      let q := s.freeRow fdim
      ((q.1, true, true), q.2)
  else
    let v := s.opRead k (leAt ds 24 8 + r * rs) (fdim * tySize ft)
    ((elems ft fdim v.1.1, anyBad v.1.2, false), v.2)

/-- The matrix W by rows, with its poison (Table 11.5). -/
def State.gatherW (s : State) (k : Nat) (ds : List Byte) : (List (List Num) × Bool) × State :=
  if flag ds 56 2 then
    let odim := leAt ds 50 2; let wt := leAt ds 53 1; let fdim := leAt ds 48 2
    let v := s.opRead k (leAt ds 64 8) (fdim * odim * tySize wt)
    ((chunksOf odim (elems wt (fdim * odim) v.1.1), anyBad v.1.2), v.2)
  else (([], false), s)

/-- Column `j` of rows of values. -/
def column {α : Type} (d : α) (rows : List (List α)) (j : Nat) : List α := rows.map (fun r => r.getD j d)

/-- One segment of a GATHER (R284): gather, aggregate, multiply by W, convert and write. -/
def State.gatherSeg (s : State) (k d : Nat) (ds : List Byte) (w : List (List Num) × Bool) (h : Harm) (sg : Nat) : State :=
  if s.opStopped k then s
  else
    let x := s.slot k
    let md := x.rmode
    let fdim := leAt ds 48 2; let ot := leAt ds 54 1; let agg := leAt ds 55 1
    let lo := s.opWord k (leAt ds 0 8 + 4 * sg) 4
    let hi := lo.2.opWord k (leAt ds 0 8 + 4 * (sg + 1)) 4
    let broken := decide (hi.1.1 < lo.1.1)
    let n := hi.1.1 - lo.1.1
    let psn0 := lo.1.2 || hi.1.2 || broken || (w.2 && decide (0 < n)) || h.all || h.row == some sg
    let s := hi.2
    let s := if broken then (s.opOutcome k 2 stPOISON).modSlot k (fun x => { x with aux := x.aux + 2 ^ 32 }) else s
    let r := (List.range n).foldl (fun (t : (List (List Fp) × Bool) × State) i =>
      let e := lo.1.1 + i
      let ix := t.2.opWord k (leAt ds 8 8 + 4 * e) 4
      let wv := if flag ds 56 0 then ix.2.opWord k (leAt ds 16 8 + 4 * e) 4 else ((0, false), ix.2)
      let row := wv.2.gatherRow k d ix.1.1 ds
      let fp := row.1.1.map Fp.of
      let fp := if flag ds 56 0 then fp.map (fun v => fpMul md v (Fp.of (widenF fmtFP32 wv.1.1))) else fp
      let bad := ix.1.2 || wv.1.2 || row.1.2.1
      let s := row.2
      let s := if bad then s.opOutcome k 2 stPOISON else s
      let s := s.modSlot k (fun x => { x with aux := if row.1.2.2 then x.aux + 1 else x.aux, pos := x.pos + 1 })
      ((t.1.1 ++ [fp], t.1.2 || bad), s)) (([], psn0), s)
    let s := (r.2.bumpPair .RGF_RED_ELEM_COUNT d (n * fdim)).bumpPair .RGF_GATHER_LINES_COUNT d
      (n * cdiv (fdim * tySize (leAt ds 52 1)) 64)
    let a := (List.range fdim).foldl (fun (t : List Fp × Nat) j =>
      let col := column (Fp.of (.zero false)) r.1.1 j
      -- a SUM starts from zeros (R284)
      let c := combine (if agg = 2 then 1 else 0) md t.2 (if agg = 2 then col else Fp.of (.zero false) :: col)
      (t.1 ++ [if agg = 1 ∧ 0 < n then fpDivNat md c.1 n else c.1], c.2)) ([], s.freeCtr)
    let y :=
      if flag ds 56 2 ∧ 0 < n then
        let wt := leAt ds 53 1
        let av := a.1.map (fun v =>
          let q := narrow (tyFmt wt) md x.satFp8 v.num
          ({ num := widenF (tyFmt wt) q.1, ovf := v.ovf || q.2 } : Fp))
        (List.range (leAt ds 50 2)).foldl (fun (t : List Fp × Nat) j =>
          let wc := column (.zero false) w.1 j
          let ps := (av.zip wc).map (fun p => mulExact p.1.num p.2)
          let c := columnSum md 256 t.2 ps []
          let lost := av.any (·.ovf) && !av.any Fp.genuine && !wc.any Num.special
          (t.1 ++ [({ c.1 with ovf := c.1.ovf || lost } : Fp)], c.2)) ([], a.2)
      else ((List.range (gatherD ds)).map (fun j => if 0 < n then a.1.getD j (Fp.of (.zero false)) else Fp.of (.zero false)), a.2)
    let o := putValues ot md x.satFp8 y.1
    let s := ({ s with freeCtr := y.2 }).countWr d o.2
    let s := s.opWrite k 4 (leAt ds 72 8 + sg * leAt ds 44 4) (padLines o.1) (fun _ => r.1.2)
    if s.opStopped k then s else s.modSlot k (fun x => { x with outCount := x.outCount + 1 })

/-- A part of a GATHER: segments `lo` to `hi − 1`. -/
def State.gatherPart (s : State) (k d lo hi : Nat) (h : Harm) : State :=
  let ds := (s.slot k).descBytes 128
  let w := s.gatherW k ds
  let w := (w.1, if w.1.2 then w.2.opPoison k (s.slot k).pos else w.2)
  ((List.range (hi - lo)).map (· + lo)).foldl (fun s sg => s.gatherSeg k d ds w.1 h sg) w.2

/-! ### FILTER (R286 to R288) -/

/-- FILTER's descriptor (Table 11.6). -/
def filterPlan (d : List Byte) : Plan :=
  let sub := leAt d 0 1; let pm := leAt d 1 1; let fl := leAt d 2 1
  let a := leAt d 8 8; let na := leAt d 16 4; let nb := leAt d 20 4; let b := leAt d 24 8
  let out := leAt d 32 8; let omax := leAt d 40 4; let bmap := leAt d 64 8; let nbits := leAt d 72 4
  let pred := sub == 1
  let bm := pred && (pm == 1 || pm == 2)
  let ok :=
    zeroBetween d 3 8 && zeroBetween d 44 48 && zeroBetween d 56 64 && zeroBetween d 76 128
    && decide (1 ≤ sub ∧ sub ≤ 5) && (if pred then decide (pm ≤ 2) else pm == 0)
    && decide (fl ≤ 1) && (fl == 0 || (pred && pm == 1)) && [8, 24, 32, 64].all (addrOk d)
    && a % 4 == 0 && b % 4 == 0 && out % 4 == 0 && decide (na ≤ 2 ^ 30 ∧ nb ≤ 2 ^ 30)
    && (nb == 0 || !(sub == 1 || sub == 5)) && (b == 0 || nb != 0) && decide (1 ≤ omax ∧ omax ≤ 2 ^ 30)
    && (!bm || (bmap % 64 == 0 && decide (1 ≤ nbits ∧ nbits ≤ 2 ^ 28)))
  let bl := if bm then 64 * cdiv nbits 512 else 0
  let ins := [Rng.mk a (4 * na), Rng.mk b (4 * nb), Rng.mk bmap bl]
  let o := Rng.mk out (cdiv (out + 4 * omax) 64 * 64 - out)
  -- with MARK the bitmap is written too (R288)
  { ok := ok, ins := ins, outs := o :: (if fl = 1 then [Rng.mk bmap bl] else []), clash := ins.any o.meets, extra := true,
    tot := na + nb, axis := 1, split := false,
    load := { bytes := 4 * (na + nb) + bl, keys := na + nb, keyRate := if pred then 128 else 64 } }

/-- Keys of an input with the poison of the line each lies in. -/
def State.filterKeys (s : State) (k a n : Nat) : List (Nat × Bool) × State :=
  let r := s.opRead k a (4 * n)
  ((List.range n).map (fun i => (leAt r.1.1 (4 * i) 4, r.1.2.getD ((a % 64 + 4 * i) / 64) false)), r.2)

/-- A filter at work: keys kept (each with the poison its line would carry), how many qualified, keys
consumed, poison seen and after how many keys it was, the last key of each input, the last key kept, whether an input was out of order, and
the marked bits. -/
structure Filt where
  out : List (Nat × Bool)
  count : Nat
  used : Nat
  psn : Bool
  psnAt : Option Nat
  lastA : Option Nat
  lastB : Option Nat
  last : Option Nat
  stop : Bool
  marks : List Nat
  deriving DecidableEq, Repr

/-- Keep a key (R287, R288). -/
def Filt.keep (f : Filt) (omax key : Nat) : Filt :=
  { f with out := if f.out.length < omax then f.out ++ [(key, f.psn)] else f.out,
           count := f.count + 1, last := some key }

/-- A poisoned key is passed over (R288). -/
def Filt.spoil (f : Filt) : Filt :=
  { f with psn := true, psnAt := if f.psnAt.isNone then some f.used else f.psnAt, used := f.used + 1 }

/-- PRED over the keys of A (Table 11.7). -/
def Filt.pred (pm lo hi nbits omax : Nat) (mark : Bool) (bit : Nat → Bool) (f : Filt) (e : Nat × Bool) : Filt :=
  if e.2 then f.spoil
  else
    let f := { f with used := f.used + 1 }
    let key := e.1
    let inMap := decide (key < nbits)
    let set := bit key || f.marks.contains key
    let pass :=
      if pm = 0 then decide (lo ≤ key ∧ key ≤ hi)
      else if pm = 1 then inMap && !set else inMap && set
    if pass then
      let f := f.keep omax key
      if mark then { f with marks := key :: f.marks } else f
    else f

/-- The sorted sub-operations: the smaller head goes first, B's on a tie, so that each key of A is
judged with what B holds of it known (Table 11.7). A key below its predecessor stops (R288). -/
def Filt.merge (sub omax : Nat) : Nat → Filt → List (Nat × Bool) → List (Nat × Bool) → Filt
  | 0, f, _, _ => f
  | n + 1, f, as, bs =>
    match as, bs with
    | (_, true) :: ta, _ => Filt.merge sub omax n f.spoil ta bs
    | _, (_, true) :: tb => Filt.merge sub omax n f.spoil as tb
    | [], [] => f
    | (x, _) :: ta, [] => takeA sub omax n f x ta []
    | [], (y, _) :: tb => takeB sub omax n f y [] tb
    | (x, _) :: ta, (y, _) :: tb =>
      if y ≤ x then takeB sub omax n f y ((x, false) :: ta) tb
      else takeA sub omax n f x ta ((y, false) :: tb)
where
  /-- A key of A. -/
  takeA (sub omax n : Nat) (f : Filt) (x : Nat) (ta bs : List (Nat × Bool)) : Filt :=
    if (match f.lastA with | some l => decide (x < l) | none => false) then { f with stop := true }
    else
      let f := { f with used := f.used + 1, lastA := some x }
      let inB := f.lastB == some x
      let want := (if sub = 2 then inB else if sub = 4 then !inB else true) && f.last != some x
      Filt.merge sub omax n (if want then f.keep omax x else f) ta bs
  /-- A key of B. -/
  takeB (sub omax n : Nat) (f : Filt) (y : Nat) (as tb : List (Nat × Bool)) : Filt :=
    if (match f.lastB with | some l => decide (y < l) | none => false) then { f with stop := true }
    else
      let f := { f with used := f.used + 1, lastB := some y }
      let inA := f.lastA == some y
      let want := (if sub = 2 then inA else if sub = 3 then true else false) && f.last != some y
      Filt.merge sub omax n (if want then f.keep omax y else f) as tb

/-- A FILTER's one part. -/
def State.filterPart (s : State) (k : Nat) (h : Harm) : State :=
  let ds := (s.slot k).descBytes 128
  let sub := leAt ds 0 1; let pm := leAt ds 1 1; let mark := flag ds 2 0
  let omax := leAt ds 40 4; let out := leAt ds 32 8; let bmap := leAt ds 64 8; let nbits := leAt ds 72 4
  let ra := s.filterKeys k (leAt ds 8 8) (leAt ds 16 4)
  let rb := ra.2.filterKeys k (leAt ds 24 8) (leAt ds 20 4)
  let bm := sub == 1 && (pm == 1 || pm == 2)
  let rm := if bm then rb.2.opRead k bmap (64 * cdiv nbits 512) else (([], []), rb.2)
  let bit (key : Nat) : Bool := (leAt rm.1.1 (key / 8) 1).testBit (key % 8)
  let bad0 := anyBad rm.1.2 || h.all
  let f0 : Filt := Filt.mk [] 0 0 bad0 (if bad0 then some 0 else none) none none none false []
  let f :=
    if sub = 1 then ra.1.foldl (Filt.pred pm (leAt ds 48 4) (leAt ds 52 4) nbits omax mark bit) f0
    else Filt.merge sub omax (ra.1.length + rb.1.length + 1) f0 ra.1 rb.1
  let s := rm.2.modSlot k (fun x => { x with pos := f.used, aux := f.count })
  let s := if f.psn then s.opPoison k (f.psnAt.getD 0) else s
  let bytes := f.out.flatMap (fun e => leBytes 4 e.1)
  let room := if bytes.isEmpty then 0 else (64 - (out % 64 + bytes.length) % 64) % 64
  let data := bytes ++ List.replicate room 0
  -- an output line carries PSN where poison was met before its last key was kept
  let linePsn (o : Nat) : Bool :=
    let lastIx := (64 - (out + o) % 64 + o) / 4
    if lastIx ≤ f.out.length ∧ 0 < lastIx then (f.out.getD (lastIx - 1) (0, false)).2 else f.psn
  let w := s.opWriteN k 4 out data linePsn
  let s := w.2.modSlot k (fun x => { x with outCount := min f.out.length (w.1 / 4) })
  let written := f.out.map (·.1)
  let words := (written.map (· / 64)).dedup
  let s := if mark ∧ !s.opStopped k then
      words.foldl (fun s w =>
        let v := ((written.filter (fun key => key / 64 == w)).map (fun key => 2 ^ (key % 64))).sum
        s.engOr (slotOrg k) (slotAgentId k) (s.agentSub (slotAgentId k)) 4 (bmap + 8 * w) v) s
    else s
  if f.stop then s.opHalt k stREFUSED f.used
  else if omax < f.count then s.opOwn k 1 stQUOTA
  else s

/-! ### MATMUL (R289 to R291) -/

/-- May two operand types and an output type go together (Table 11.9). -/
def mmTypes (a b o : Nat) : Bool :=
  if a = tINT8 ∧ b = tINT8 then o == tINT32
  else isT3 o && ((isT16 a && isT16 b) || (decide (4 ≤ a ∧ a ≤ 5 ∧ 4 ≤ b ∧ b ≤ 5))
    || (decide (6 ≤ a ∧ a ≤ 7 ∧ 6 ≤ b ∧ b ≤ 7)) || (a == tMXINT8 && b == tMXINT8))

/-- MATMUL's descriptor (Tables 11.8, 11.9). -/
def matmulPlan (d : List Byte) : Plan :=
  let a := leAt d 0 8; let b := leAt d 8 8; let c := leAt d 16 8; let dd := leAt d 24 8
  let m := leAt d 32 4; let n := leAt d 36 2; let kk := leAt d 38 2
  let ta := leAt d 40 1; let tb := leAt d 41 1; let ot := leAt d 42 1; let fl := leAt d 43 1
  let acc := flag d 43 0; let trb := flag d 43 1
  let lda := leAt d 48 4; let ldb := leAt d 52 4; let ldc := leAt d 56 4; let ldd := leAt d 60 4
  let sca := leAt d 64 8; let scb := leAt d 72 8
  let mx := isMx ta
  let brows := if trb then n else kk
  let bcols := if trb then kk else n
  let ok :=
    zeroBetween d 44 48 && zeroBetween d 80 128 && decide (fl ≤ 3) && [0, 8, 16, 24, 64, 72].all (addrOk d)
    && a % 64 == 0 && b % 64 == 0 && c % 64 == 0 && dd % 64 == 0 && (acc || (c == 0 && ldc == 0))
    && decide (1 ≤ m ∧ m ≤ 2 ^ 24 ∧ 1 ≤ n ∧ 1 ≤ kk) && (!mx || kk % 32 == 0) && mmTypes ta tb ot
    && lda % 64 == 0 && ldb % 64 == 0 && ldd % 64 == 0
    && decide (kk * tySize ta ≤ lda ∧ bcols * tySize tb ≤ ldb ∧ n * tySize ot ≤ ldd)
    && (!acc || (ldc % 64 == 0 && decide (n * tySize ot ≤ ldc)))
    && (mx || (sca == 0 && scb == 0)) && decide (m * lda ≤ 24 * 2 ^ 20 ∧ ldb * brows ≤ 32 * 2 ^ 20)
  let ra := Rng.mk a (m * lda)
  let rb := Rng.mk b (ldb * brows)
  let rc := Rng.mk c (if acc then m * ldc else 0)
  let rs := Rng.mk sca (if mx then m * (kk / 32) else 0)
  let rt := Rng.mk scb (if mx then n * (kk / 32) else 0)
  let ro := Rng.mk dd (m * ldd)
  let w8 := tySize ta == 1
  { ok := ok, ins := [ra, rb, rc, rs, rt], outs := [ro],
    clash := [ra, rb, rs, rt].any ro.meets || (ro.meets rc && !(dd == c && ldd == ldc)), extra := true,
    tot := m, axis := m, split := true,
    load := { each := rb.len + rt.len, bytes := ra.len + rc.len + rs.len, macs := m * n * kk,
              macRate := if w8 then 131072 else 65536 } }

/-- The elements of a row with their MX scales applied (R301). -/
def mxScale (t : Nat) (scales : List Byte) (vs : List Num) : List Num :=
  if isMx t then vs.zipIdx.map (fun (v, i) => scaleMx (leAt scales (i / 32) 1) v) else vs

/-- Matrix B by columns, scaled, with its poison. -/
def State.matmulB (s : State) (k : Nat) (ds : List Byte) : (List (List Num) × Bool) × State :=
  let n := leAt ds 36 2; let kk := leAt ds 38 2; let tb := leAt ds 41 1; let trb := flag ds 43 1
  let ldb := leAt ds 52 4; let scb := leAt ds 72 8
  let rows := if trb then n else kk
  let cols := if trb then kk else n
  let r := (List.range rows).foldl (fun (t : (List (List Num) × Bool) × State) i =>
    let v := t.2.opRead k (leAt ds 8 8 + i * ldb) (cols * tySize tb)
    ((t.1.1 ++ [elems tb cols v.1.1], t.1.2 || anyBad v.1.2), v.2)) (([], false), s)
  let cs := if trb then r.1.1 else (List.range n).map (column (.zero false) r.1.1)
  if isMx tb then
    let q := r.2.opRead k scb (n * (kk / 32))
    let scale (j b : Nat) : Nat := leAt q.1.1 (if trb then j * (kk / 32) + b else b * n + j) 1
    ((cs.zipIdx.map (fun (c, j) => c.zipIdx.map (fun (v, i) => scaleMx (scale j (i / 32)) v)),
      r.1.2 || anyBad q.1.2), q.2)
  else ((cs, r.1.2), r.2)

/-- One row of D (R291, R304 to R306, R313). -/
def State.matmulRow (s : State) (k d : Nat) (ds : List Byte) (b : List (List Num) × Bool) (h : Harm) (i : Nat) : State :=
  if s.opStopped k then s
  else
    let x := s.slot k
    let md := x.rmode
    let n := leAt ds 36 2; let kk := leAt ds 38 2; let ta := leAt ds 40 1; let ot := leAt ds 42 1
    let acc := flag ds 43 0
    let va := s.opRead k (leAt ds 0 8 + i * leAt ds 48 4) (kk * tySize ta)
    let sa := if isMx ta then va.2.opRead k (leAt ds 64 8 + i * (kk / 32)) (kk / 32) else (([], []), va.2)
    let vc := if acc then sa.2.opRead k (leAt ds 16 8 + i * leAt ds 56 4) (n * tySize ot) else (([], []), sa.2)
    let s := vc.2
    let bad := anyBad va.1.2 || anyBad sa.1.2 || anyBad vc.1.2 || b.2 || h.all || h.row == some i
    let row := mxScale ta sa.1.1 (elems ta kk va.1.1)
    if ot = tINT32 then
      let toI (v : Num) : Int := match v with | .fin ng m _ => if ng then -(m : Int) else m | _ => 0
      let data := (List.range n).flatMap (fun j =>
        let t := ((row.zip (b.1.getD j [])).map (fun p => toI p.1 * toI p.2)).sum
        leBytes 4 (toI32 (t + (if acc then (elemAt tINT32 vc.1.1 j : Int) else 0))))
      let s := s.opWrite k 4 (leAt ds 24 8 + i * leAt ds 60 4) (padLines data) (fun _ => bad)
      if s.opStopped k then s else s.modSlot k (fun x => { x with outCount := x.outCount + 1, pos := x.pos + 1 })
    else
      let run := if tySize ta = 1 then 512 else 256
      let y := (List.range n).foldl (fun (t : List Fp × Nat) j =>
        let ps := (row.zip (b.1.getD j [])).map (fun p => mulExact p.1 p.2)
        let c := columnSum md run t.2 ps (if acc then [Fp.of (widenT ot (elemAt ot vc.1.1 j))] else [])
        (t.1 ++ [c.1], c.2)) ([], s.freeCtr)
      let o := putValues ot md x.satFp8 y.1
      let s := ({ s with freeCtr := y.2 }).countWr d o.2
      let s := s.opWrite k 4 (leAt ds 24 8 + i * leAt ds 60 4) (padLines o.1) (fun _ => bad)
      if s.opStopped k then s else s.modSlot k (fun x => { x with outCount := x.outCount + 1, pos := x.pos + 1 })

/-- A part of a MATMUL: rows `lo` to `hi − 1` of A. -/
def State.matmulPart (s : State) (k d lo hi : Nat) (h : Harm) : State :=
  let ds := (s.slot k).descBytes 128
  let b := s.matmulB k ds
  ((List.range (hi - lo)).map (· + lo)).foldl (fun s i => s.matmulRow k d ds b.1 h i) b.2

/-! ### EXPAND and COMPRESS (R292, R293) -/

/-- Their descriptor (Table 11.10); `comp` for COMPRESS. -/
def xcPlan (comp : Bool) (d : List Byte) : Plan :=
  let t := leAt d 0 1; let fl := leAt d 1 1; let src := leAt d 8 8; let dst := leAt d 16 8; let ofs := leAt d 24 8
  let nval := leAt d 32 8; let span := leAt d 40 8
  let ofsen := flag d 1 0
  let nb := cdiv nval 256
  let raw := cdiv (2 * nval) 64 * 64
  let ok :=
    zeroBetween d 2 8 && zeroBetween d 48 64 && isT16 t && decide (fl ≤ 1) && (comp || !ofsen)
    && [8, 16, 24].all (addrOk d) && src % 64 == 0 && dst % 64 == 0 && ofs % 4 == 0 && (ofsen || ofs == 0)
    && decide (1 ≤ nval ∧ nval ≤ 2 ^ 36) && span % 64 == 0
  let i := if comp then Rng.mk src raw else Rng.mk src span
  let os := if comp then [Rng.mk dst span, Rng.mk ofs (if ofsen then 4 * nb else 0)] else [Rng.mk dst raw]
  { ok := ok, ins := [i], outs := os, clash := os.any i.meets || (match os with | [a, b] => a.meets b | _ => false),
    extra := true, tot := nb, axis := 1, split := false, load := { bytes := i.len } }

/-- EXPAND's one part. -/
def State.expandPart (s : State) (k d : Nat) (h : Harm) : State :=
  let ds := (s.slot k).descBytes 64
  let f16 := leAt ds 0 1 == tFP16
  let nval := leAt ds 32 8
  let nb := cdiv nval 256
  let v := s.opRead k (leAt ds 8 8) (leAt ds 40 8)
  let bs := readBlocks f16 0 v.1.1 nb
  let s := v.2.expanded d f16 bs
  let good := bs.filter (fun b => b.1 != .malformed)
  let vals := (blockVals good).take nval
  let fails := good.map (fun b =>
    match b.1 with
    | .malformed => true
    | .good _ len _ ok => !ok || blockHit v.1.2 b.2 len)
  let s := s.modSlot k (fun x => { x with pos := good.length })
  let s := match fails.idxOf? true with
    | some i => s.opPoison k i
    | none => s
  let w := s.opWriteN k 4 (leAt ds 16 8) (padLines (vals.flatMap (leBytes 2))) (fun o => fails.getD (o / 512) false || h.all)
  let wrote := vals.take (w.1 / 2)
  let s := w.2.modSlot k (fun x => { x with outCount := wrote.length })
  let s := s.bump .RGF_NAN_OUT_COUNT (s.writerOf d) 0
    (wrote.filter (isNanEnc (if f16 then fmtFP16 else fmtBF16))).length
  if good.length < nb then s.opHalt k stREFUSED good.length else s

/-- The blocks of values, and where each lies, until one would pass SPAN (R293). -/
def packBlocks (f16 : Bool) (span off : Nat) (vals : List Nat) : Nat → List (List Byte × Nat)
  | 0 => []
  | n + 1 =>
    let v := vals.take 256
    let b := encodeBlock f16 (v ++ List.replicate (256 - v.length) 0)
    if span < off + b.length then []
    else (b, off) :: packBlocks f16 span (off + b.length) (vals.drop 256) n

/-- COMPRESS's one part. -/
def State.compressPart (s : State) (k d : Nat) (h : Harm) : State :=
  let ds := (s.slot k).descBytes 64
  let f16 := leAt ds 0 1 == tFP16
  let nval := leAt ds 32 8
  let nb := cdiv nval 256
  let v := s.opRead k (leAt ds 8 8) (2 * nval)
  let bs := packBlocks f16 (leAt ds 40 8) 0 (vals16 v.1.1 nval) nb
  let s := (v.2.bumpPair .EXP_COMP_BLK_COUNT d bs.length).bumpPair .EXP_COMP_RAW_COUNT d (bs.filter (fun b => b.1.length == 518)).length
  -- block i takes its values from source lines 8i to 8i + 7
  let bad (i : Nat) : Bool := anyBad ((v.1.2.drop (8 * i)).take 8) || h.all
  let data := bs.flatMap (·.1)
  let linePsn (o : Nat) : Bool :=
    bs.zipIdx.any (fun b => bad b.2 && decide (b.1.2 < o + 64 ∧ o < b.1.2 + b.1.1.length))
  let s := s.modSlot k (fun x => { x with pos := bs.length })
  let s := match (List.range bs.length).find? bad with
    | some i => s.opPoison k i
    | none => s
  let w := s.opWriteN k 4 (leAt ds 16 8) (padLines data) linePsn
  let s := w.2.modSlot k (fun x =>
    { x with outCount := min data.length w.1, aux := (bs.filter (fun b => decide (b.2 + b.1.length ≤ w.1))).length })
  let s := if flag ds 1 0 ∧ !s.opStopped k then
      s.opWrite k 4 (leAt ds 24 8) (bs.flatMap (fun b => leBytes 4 b.2))
        (fun o => ((List.range bs.length).filter (fun i => decide (4 * i < o + 64))).any (fun i => decide (0 < i) && bad (i - 1)))
    else s
  if bs.length < nb then s.opOwn k 3 stQUOTA else s

/-! ### One part -/

/-- The plan of an operation on an RGF die. For GATHER the two index-list words are read (R283); a word that is not at hand is
marked. -/
def State.planRead (s : State) (k opc : Nat) : Plan × State :=
  let x := s.slot k
  if opc = 2 then
    let d := x.descBytes 128
    let seg := leAt d 0 8
    let p0 := gatherPlan d 0 0
    if p0.ok then
      let a := s.opWord k seg 4
      let b := a.2.opWord k (seg + 4 * leAt d 32 4) 4
      (gatherPlan d a.1.1 b.1.1, b.2)
    else (p0, s)
  else if opc = 3 then (filterPlan (x.descBytes 128), s)
  else if opc = 4 then (matmulPlan (x.descBytes 128), s)
  else if opc = 5 then (xcPlan false (x.descBytes 64), s)
  else (xcPlan true (x.descBytes 64), s)

/-- The plan, from what is at hand. -/
def State.planOf (s : State) (k opc : Nat) : Plan × State :=
  let p := s.planRead k opc
  (p.1, p.2.engUnnote (slotOrg k))

/-- A part does its work. -/
def State.workPart (s : State) (d : Nat) (x : Part) (h : Harm) : State :=
  let s := s.onShare x.key x.ix
  if x.opc = 2 then s.gatherPart x.key d x.lo x.hi h
  else if x.opc = 3 then s.filterPart x.key h
  else if x.opc = 4 then s.matmulPart x.key d x.lo x.hi h
  else if x.opc = 5 then s.expandPart x.key d h
  else s.compressPart x.key d h

end Sys2Proof.Machine
end

