-- ==== Sys2Proof/Machine/Journal.lean ====
section
/-! DEFINITION. The taint journal (R357, R358) of the RGF dies and of the complexes' MREDUCE adders. -/

namespace Sys2Proof.Machine

/-- Start of the last passing scan. -/
def Scan.lastPass (x : Scan) : Nat := x.starts.headD 0

/-- Entries since the start of the last passing scan (SCN_DIE_JCNT). -/
def Scan.since (x : Scan) : Nat := (x.journal.filter (fun e => decide (x.lastPass ≤ e.tStart))).length

/-- Keep the running parts and the entries that ended at or after the start of the fourth-most-recent
passing scan, 16,384 at most (R358). -/
def Scan.prune (x : Scan) : Scan :=
  let from4 := x.starts.getD 3 0
  let j := x.journal.filter (fun e => e.tEnd == 0 || decide (from4 ≤ e.tEnd))
  { x with journal := j.drop (j.length - 16384) }

/-- Set a scan record, and what SCN_DIE_JCNT shows. -/
def State.setScan (s : State) (d : Nat) (x : Scan) : State :=
  if d < 48 then
    ({ s with scn := { s.scn with scans := tset Scan.init s.scn.scans d x } }).wr .SCN_DIE_JCNT_ENTRIES x.since d
  else { s with scn := { s.scn with adders := tset Scan.init s.scn.adders (d - 48) x } }

/-- Is a die busy with a scan, its own or another's. -/
def State.engaged (s : State) (d : Nat) : Bool :=
  (List.range 36).any (fun x =>
    let y := s.scan x
    y.running && (x == d || y.checker == d || (match y.arbiting with | some a => a.2.2 == d | none => false)))

/-- Write an entry (R357). -/
def State.journalAdd (s : State) (d : Nat) (e : JEnt) : State :=
  let n := if d < 48 then s.rd .SCN_DIE_JHEAD_NEXT d else (s.scan d).written
  let x := s.scan d
  let s := s.setScan d ({ x with journal := x.journal ++ [{ e with num := n }], written := x.written + 1 }).prune
  if d < 48 then s.advance .SCN_DIE_JHEAD_NEXT d else s

/-- Change the entries of a die that pass a test. -/
def State.journalMap (s : State) (d : Nat) (ok : JEnt → Bool) (f : JEnt → JEnt) : State :=
  let x := s.scan d
  s.setScan d { x with journal := x.journal.map (fun e => if ok e then f e else e) }

/-- The part of an operation that ran for a placement slot stops: T_END is written (R357). -/
def State.journalEnd (s : State) (d opid slot : Nat) : State :=
  s.journalMap d (fun e => e.opid == opid && e.slot == slot && e.tEnd == 0) (fun e => { e with tEnd := s.now })

/-- First page and pages of a range. -/
def Rng.pages (r : Rng) : Nat × Nat :=
  if r.len = 0 then (0, 0) else (r.lo / 65536, (r.lo + r.len - 1) / 65536 + 1 - r.lo / 65536)

/-- The written range of a part: its share of the operation's first output range, and the second range
(R357). -/
def partRanges (p : Plan) (lo hi : Nat) : Rng × Rng :=
  let o := p.outs.getD 0 (Rng.mk 0 0)
  let share := if p.axis = 0 then o else Rng.mk (o.lo + o.len / p.axis * lo) (o.len / p.axis * (hi - lo))
  (if p.split then share else o, p.outs.getD 1 (Rng.mk 0 0))

/-- Enter a part that starts on a die (R357). -/
def State.journalPart (s : State) (d : Nat) (x : Part) (p : Plan) : State :=
  let r := partRanges p x.lo x.hi
  s.journalAdd d
    { num := 0, opid := (s.slot x.key).opid, tStart := s.now, tEnd := 0, r0 := r.1.pages.1, n0 := r.1.pages.2,
      r1 := r.2.pages.1, n1 := r.2.pages.2, stride32 := false, multi := false, slot := x.place,
      dest := slotAgentId x.key, list := [] }

/-- The 64 bytes of an entry (Table 15.3); `coll` is the collective list index. -/
def JEnt.bytes (e : JEnt) (coll : Nat) : List Byte :=
  leBytes 8 e.opid ++ leBytes 8 e.tStart ++ leBytes 8 e.tEnd ++ leBytes 4 e.r0 ++ leBytes 4 e.n0 ++ leBytes 4 e.r1
    ++ leBytes 4 e.n1 ++ leBytes 1 (b2n e.stride32 + 2 * b2n e.multi) ++ leBytes 1 (e.slot % 32)
    ++ leBytes 2 (if e.multi then 0 else e.dest) ++ leBytes 4 (if e.multi then coll else 0) ++ leBytes 16 0

/-- The entry selected by SCN_JSEL (R358): the newest written at INDEX modulo 16,384. -/
def State.journalAt (s : State) (d i : Nat) : List Byte :=
  match ((s.scan d).journal.filter (fun e => e.num % 16384 == i)).getLast? with
  | some e => e.bytes e.coll
  | none => List.replicate 64 0

end Sys2Proof.Machine
end

