-- ==== Sys2Proof/Machine/Collective.lean ====
section
/-! DEFINITION. Collective REDUCE (R266 to R271, R279 to R282): entries, contributions, chunks, and how a
collective ends. -/

namespace Sys2Proof.Machine

/-! ### The descriptor (Table 11.4) -/

abbrev redTag (d : List Byte) : Nat := leAt d 0 4
abbrev redCount (d : List Byte) : Nat := leAt d 4 2
abbrev redRank (d : List Byte) : Nat := leAt d 6 2
abbrev redIType (d : List Byte) : Nat := leAt d 8 1
abbrev redOType (d : List Byte) : Nat := leAt d 9 1
abbrev redElems (d : List Byte) : Nat := leAt d 16 8
abbrev redTarget (d : List Byte) : Nat := leAt d 24 8
abbrev redOut (d : List Byte) : Nat := leAt d 32 8
abbrev redRdy (d : List Byte) : Nat := leAt d 40 8

/-- Chunks K (R267). -/
def redK (d : List Byte) : Nat := cdiv (redElems d) 16384

/-- The slot that owns chunk `c` of a TAG (R266, R268). -/
def chunkSlot (tag c : Nat) : Nat := ((tag / 65536 ^^^ tag % 65536) % 32 + c) % 32

/-- The fields a joiner must share: all but RANK (Table 11.4). -/
def redShared (d : List Byte) : List Byte := patch (d.take 64) 6 [0, 0]

/-- REDUCE's descriptor (R279). -/
def reducePlan (d : List Byte) : Plan :=
  let fl := leAt d 11 1
  let icomp := fl.testBit 0; let ocomp := fl.testBit 1; let scale := fl.testBit 2; let rdyen := fl.testBit 3
  let k := redK d
  let t := Rng.mk (redTarget d) (k * 65536)
  let o := Rng.mk (redOut d) (k * 65536)
  let r := Rng.mk (redRdy d) (if rdyen then 8 * cdiv k 64 else 0)
  let ok :=
    zeroBetween d 48 64 && decide (fl < 16) && decide (1 ≤ redCount d ∧ redCount d ≤ 512 ∧ redRank d < redCount d)
    && isT3 (redIType d) && isT3 (redOType d) && decide (leAt d 10 1 ≤ 2) && (scale || leAt d 12 4 == 0)
    && decide (1 ≤ redElems d ∧ redElems d ≤ 2 ^ 36) && [24, 32, 40].all (addrOk d)
    && redTarget d % 65536 == 0 && redOut d % 65536 == 0 && redRdy d % 8 == 0 && (rdyen || redRdy d == 0)
    && (!icomp || isT16 (redIType d)) && (!ocomp || isT16 (redOType d))
  { ok := ok, ins := [t], outs := [o, r], clash := t.meets o || t.meets r || o.meets r, extra := true, tot := k,
    axis := 1, split := false }

/-- The target and result ranges lie in extents with COH = 0 (R279). -/
def State.reduceExtra (s : State) (p : Plan) : Plan :=
  { p with extra := (p.ins ++ p.outs.take 1).all (fun r => s.rangeIn r (fun x => !x.coh)) }

/-! ### Entries -/

/-- The open entry of a TAG. -/
def State.collAt (s : State) (tag : Nat) : Option Coll := s.rgf.colls.find? (fun c => c.tag == tag)

/-- Change an entry. -/
def State.updColl (s : State) (tag : Nat) (f : Coll → Coll) : State :=
  { s with rgf := { s.rgf with colls := s.rgf.colls.map (fun c => if c.tag = tag then f c else c) } }

/-- A chunk nobody has sent a line of. -/
def Chunk.init : Chunk :=
  { granted := false, lines := [], done := [], vals := [], poisoned := false, writing := false, emitted := false }

/-- A chunk of an entry. -/
def Coll.chunk (c : Coll) (i : Nat) : Chunk := tget Chunk.init c.chunks i

/-- Change a chunk. -/
def State.updChunk (s : State) (tag i : Nat) (f : Chunk → Chunk) : State :=
  s.updColl tag (fun c => { c with chunks := tins c.chunks i (f (c.chunk i)) })

/-- The collective that a slot contributes to. -/
def State.collOf (s : State) (k : Nat) : Option Coll :=
  s.rgf.colls.find? (fun c => c.joins.any (fun j => slotKey j.2.1 j.2.2 == k))

/-- Chunks emitted, and their elements (R282). -/
def Coll.emitted (c : Coll) : Nat := (c.chunks.filter (fun e => e.2.emitted)).length
def Coll.chunkElems (c : Coll) (i : Nat) : Nat := min 16384 (redElems c.desc - 16384 * i)
def Coll.outElems (c : Coll) : Nat := ((c.chunks.filter (fun e => e.2.emitted)).map (fun e => c.chunkElems e.1)).sum

/-- Remember a closed TAG: the last 4,096 (R266). -/
def State.closeTag (s : State) (tag : Nat) : State :=
  { s with rgf := { s.rgf with closed := (tag :: s.rgf.closed).take 4096 } }

/-- Does a chunk of an entry hold an accumulator: until it is emitted, or the operation ends (R249). -/
def Coll.holdsAcc (c : Coll) (e : Nat × Chunk) : Bool := e.2.granted && !e.2.emitted && c.ended.isNone

/-- Accumulators an entry holds on a die (R269). -/
def State.accOf (s : State) (c : Coll) (d : Nat) : Nat :=
  (c.chunks.filter (fun e => c.holdsAcc e && s.dieOf (chunkSlot c.tag e.1) == d)).length

/-- Does an entry hold an accumulator for a placement slot. -/
def Coll.accOn (c : Coll) (slot : Nat) : Bool := c.chunks.any (fun e => c.holdsAcc e && chunkSlot c.tag e.1 == slot)

/-- May an owner die grant a chunk an accumulator (R269). -/
def State.accRoom (s : State) (c : Coll) (i : Nat) : Bool :=
  let d := s.dieOf (chunkSlot c.tag i)
  let m := s.rd .RGF_CTL_ACC_MAX
  decide (s.accOf c d < (if m = 0 then 128 else m) ∧ s.rd .RGF_ACC_USED_ACC d < 512)

/-- Free the accumulators of an entry that ends. -/
def State.freeAccs (s : State) (c : Coll) : State :=
  (c.chunks.filter c.holdsAcc).foldl (fun s e => s.lower .RGF_ACC_USED_ACC (s.dieOf (chunkSlot c.tag e.1))) s

/-- The journal entries of a collective that are open on a die are closed. -/
def State.collJournalEnd (s : State) (c : Coll) (d : Nat) : State :=
  s.journalMap d (fun e => e.multi && e.opid == c.opener && e.tEnd == 0) (fun e => { e with tEnd := s.now })

/-- The operation of an entry ends with an outcome: nothing more of it is added or emitted (R271). The entry stays open until
its last contributor's slot completes. -/
def State.collOver (s : State) (tag rank st : Nat) : State :=
  match s.collAt tag with
  | none => s
  | some c =>
    if c.ended.isSome then s
    else
      let s := s.freeAccs c
      let s := (List.range 36).foldl (fun s d => s.collJournalEnd c d) s
      s.updColl tag (fun c => { c with ended := some (rank, st) })

/-- The last contributor's slot has completed: the entry closes, and its TAG is one of those closed (R271). A store still held
then contributes to no open entry: it is an ordinary store (R267; DESIGN CHOICE, log entry 101). -/
def State.collClose (s : State) (tag : Nat) : State :=
  match s.collAt tag with
  | none => s
  | some c =>
    if !c.slots.isEmpty then s
    else
      let s := s.collOver tag 7 stFLUSHED
      let s := { s with rgf := { s.rgf with colls := s.rgf.colls.filter (fun x => x.tag != tag) } }
      let s := (s.closeTag tag).wr .RGF_COLL_OPEN_COUNT s.rgf.colls.length
      c.held.foldl (fun s h => s.poolAccess h.req) s

/-- A contributor's slot has completed (R271). -/
def State.collDone (s : State) (k : Nat) : State :=
  match s.rgf.colls.find? (fun c => c.slots.contains k) with
  | none => s
  | some c =>
    (s.updColl c.tag (fun c =>
      { c with slots := c.slots.filter (· != k), joins := c.joins.filter (fun j => slotKey j.2.1 j.2.2 != k) })).collClose c.tag

/-- The missing-contributor bitmap: ranks that had not delivered some unemitted chunk (R271). -/
def Coll.missing (c : Coll) : List Byte :=
  let live := c.joins.map (·.1)
  let k := redK c.desc
  let gap (r : Nat) : Bool :=
    !live.contains r || (List.range k).any (fun i => !(c.chunk i).emitted && !((c.chunk i).done.any (fun e => e.1 == r)))
  leBytes 64 (((List.range (redCount c.desc)).map (fun r => if gap r then 2 ^ r else 0)).sum)

/-- What a contributor's slot shows when its collective ends (R271, R282). -/
def Coll.fill (c : Coll) (x : OpSlot) : OpSlot :=
  { x with parts := min 32 (redK c.desc), outCount := c.outElems, aux := c.ranks.length, pos := c.emitted,
           tot := redK c.desc, psnOut := c.psn, errPos := if c.errPos.isSome then c.errPos else x.errPos }

/-- End one contributor's slot with an outcome. -/
def State.collSlotEnd (s : State) (c : Coll) (k rank st : Nat) (bitmap : Bool) : State :=
  s.modSlot k (fun x =>
    let x := (c.fill x).outcome rank st
    { x with ending := true, left := 0, bitmap := if bitmap then c.missing else x.bitmap,
             errPos := if rank = 0 then c.errPos else x.errPos })

/-- Every contributor's slot completes with one outcome; chunks not emitted are never emitted (R271), and nothing more is
written where `bitmap` says that the operation timed out (R258). The ready bits of emitted chunks are still set. -/
def State.collEnd (s : State) (tag rank st : Nat) (bitmap : Bool) : State :=
  match s.collAt tag with
  | none => s
  | some c =>
    let s := c.joins.foldl (fun s j => s.collSlotEnd c (slotKey j.2.1 j.2.2) rank st bitmap) s
    let s := if bitmap then s.engDrop (.coll tag) else s
    s.collOver tag rank st

/-- Has every chunk been emitted, or its owner's part stopped (R271, R258). -/
def Coll.over (c : Coll) : Bool :=
  (List.range (redK c.desc)).all (fun i => (c.chunk i).emitted || c.stopped.contains (chunkSlot c.tag i))

/-- A collective ends when nothing more can be emitted. -/
def State.collSettle (s : State) (tag : Nat) : State :=
  match s.collAt tag with
  | none => s
  | some c =>
    if !c.over ∨ c.ended.isSome then s
    else if c.status ≠ stOK then s.collEnd tag 3 c.status false
    else if c.psn then s.collEnd tag 2 stPOISON false
    else s.collEnd tag 0 stOK false

/-- A contributor is withdrawn: its rank counts as not delivering (R271). With the last of them nothing more is written (R254). -/
def State.collLeave (s : State) (k : Nat) : State :=
  match s.collOf k with
  | none => s
  | some c =>
    let rank := (c.joins.find? (fun j => slotKey j.2.1 j.2.2 == k)).map (·.1)
    let cut (x : Chunk) : Chunk :=
      if x.emitted || x.writing then x
      else { x with lines := x.lines.filter (fun l => some l.1 != rank),
                    vals := (x.vals.zip x.done).filterMap (fun v => if some v.2.1 != rank then some v.1 else none),
                    adding := x.adding.filter (fun e => some e.1 != rank),
                    done := x.done.filter (fun e => some e.1 != rank) }
    let s := s.updColl c.tag (fun c =>
      { c with joins := c.joins.filter (fun j => slotKey j.2.1 j.2.2 != k),
               chunks := c.chunks.map (fun e => (e.1, cut e.2)),
               held := c.held.filter (fun h => h.req.src != slotAgentId k) })
    let s := if c.joins.length ≤ 1 then s.engDrop (.coll c.tag) else s
    (c.held.filter (fun h => h.req.src == slotAgentId k)).foldl (fun s h => s.poolAccess h.req) s

/-- Open or join an entry (R266). The slot is OPEN and its launch answered. The checks of Table 11.2 come first; RANK is held
against the COUNT of an open entry of the TAG as the other fields are, and a launch it refuses is counted. The TMO of a launch
is its resolved one (DESIGN CHOICE, log entry 102). -/
def State.collLaunch (s : State) (k : Nat) : State :=
  let x := s.slot k
  let d := x.descBytes 64
  let p := s.reduceExtra (reducePlan (redShared d))
  let st := s.planStatus p
  if st ≠ stOK then s.opRefuse k st
  else
    let tag := redTag d
    let me := (redRank d, slotAgentId k, k % 16)
    match s.collAt tag with
    | some c =>
      if redShared d = c.desc ∧ x.tmo = c.tmo ∧ redRank d < redCount c.desc ∧ !c.ranks.contains (redRank d) then
        let s := s.updColl tag (fun c =>
          { c with joins := c.joins ++ [me], ranks := c.ranks ++ [redRank d], slots := c.slots ++ [k],
                   list := c.list ++ [(me.2.1, x.opid)] })
        let s := (List.range 36).foldl (fun s d => s.journalMap d (fun e => e.multi && e.opid == c.opener)
          (fun e => { e with list := e.list ++ [(me.2.1, x.opid)] })) s
        let s := s.modSlot k (fun y => { y with tot := redK d, deadline := c.deadline, rmode := c.rmode, parts := min 32 (redK d) })
        -- an operation that has ended before its entry closes has the same end for one that joins now (R271)
        match c.ended with
        | some e => s.collSlotEnd c k e.1 e.2 (e.1 == 4)
        | none => s
      else (s.opRefuse k stREFUSED).bump .RGF_MISMATCH_COUNT
    | none =>
      if redCount d ≤ redRank d then s.opRefuse k stREFUSED
      else if s.rgf.closed.contains tag then (s.opRefuse k stSTATE).bump .RGF_LATE_JOIN_COUNT
      else
        let c : Coll :=
          { tag := tag, desc := redShared d, tmo := x.tmo, opener := x.opid, deadline := x.deadline, rmode := x.rmode,
            joins := [me], ranks := [redRank d], chunks := [], held := [], stopped := [], status := stOK, psn := false,
            errPos := none, slots := [k], list := [(me.2.1, x.opid)], idx := s.rgf.nextList }
        let s := { s with rgf := { s.rgf with colls := s.rgf.colls ++ [c], nextList := (s.rgf.nextList + 1) % 2 ^ 32 } }
        (s.wr .RGF_COLL_OPEN_COUNT s.rgf.colls.length).modSlot k
          (fun y => { y with tot := redK d, parts := min 32 (redK d) })

/-! ### Contributions (R267, R269, R270, R280) -/

/-- Has a joined contributor received the CMP OK of its launch word (R267). -/
def State.told (s : State) (j : Nat × Nat × Nat) : Bool := (s.slot (slotKey j.2.1 j.2.2)).ackSeq.isNone

/-- Which collective and rank a request contributes to (R267). -/
def State.contribTo (s : State) (r : Req) : Option (Coll × Nat) :=
  if mOpc r.msg = opST ∧ mSc r.msg = 4 then
    match s.rgf.colls.find? (fun c => c.joins.any (fun j => j.2.1 == r.src && s.told j)
        && decide (redTarget c.desc ≤ mAddr r.msg ∧ mAddr r.msg < redTarget c.desc + 65536 * redK c.desc)) with
    | some c => ((c.joins.find? (fun j => j.2.1 == r.src && s.told j)).map (fun j => (c, j.1)))
    | none => none
  else none

/-- The owner die takes or discards a line: it is performed, and answered CMP OK (R267). -/
def State.contribOk (s : State) (tag i : Nat) (r : Req) : State :=
  ((s.markDone r).ingPlaced r.ing).answerFrom (rgDie (s.dieOf (chunkSlot tag i))) r { status := stOK }

/-- Does a contribution line wait for its accumulator in its place of the ingress region (R269). -/
def State.accHeld (s : State) (n : Nat) : Bool := s.rgf.colls.any (fun c => c.held.any (fun h => h.req.ing == some n))

/-- Lines a raw frame needs (R280). -/
def Coll.rawLines (c : Coll) (i : Nat) : Nat := cdiv (c.chunkElems i * tySize (redIType c.desc)) 64

/-- The contiguous bytes and poison of a rank's staged lines from the frame's start. -/
def stagedFrom (lines : List (Nat × Nat × List Byte × Bool)) (rank i : Nat) : Nat → List Byte × List Bool
  | 0 => ([], [])
  | n + 1 =>
    match lines.find? (fun l => l.1 == rank && l.2.1 == i) with
    | some l =>
      let t := stagedFrom lines rank (i + 1) n
      (l.2.2.1 ++ t.1, l.2.2.2 :: t.2)
    | none => ([], [])

/-- The blocks at the front of a frame that have come in whole, each with its offset, `room` bytes of the frame being left:
reading ends at a block of which some bytes are still to come, and after a malformed one (R270, R327). -/
def readArrived (f16 : Bool) (room off : Nat) (bs : List Byte) : Nat → List (Block × Nat)
  | 0 => []
  | n + 1 =>
    if (bs.length < 6 ∧ 6 ≤ room) ∨ (headerOk f16 bs room ∧ bs.length < blockLen bs) then []
    else
      match decodeBlock f16 bs with
      | .malformed => [(.malformed, off)]
      | .good v len m ok => (.good v len m ok, off) :: readArrived f16 (room - len) (off + len) (bs.drop len) n

/-- What has come in of a rank's frame: the values that are contiguous from its start, the lines they lie in, whether one of
these is poisoned or a block has failed, the blocks decoded, and whether that is the whole frame (R270, R280, R328). The values
of a malformed block and after it are free. -/
structure Arrived where
  vals : List Nat
  used : Nat
  bad : Bool
  blocks : List (Block × Nat)
  whole : Bool
  deriving DecidableEq, Repr

/-- The frame of a rank for a chunk, as far as it has come in; free values from `free0` on. -/
def Coll.frame (c : Coll) (free0 i rank : Nat) (lines : List (Nat × Nat × List Byte × Bool)) : Arrived :=
  let n := c.chunkElems i
  let t := redIType c.desc
  let g := stagedFrom lines rank 0 1024
  if flag c.desc 11 0 then
    let nb := cdiv n 256
    let bs := readArrived (t == tFP16) 65536 0 g.1 nb
    let broken := bs.any (fun b => b.1 == .malformed)
    let whole := broken || bs.length == nb
    let used := bs.foldl (fun a b => match b.1 with | .malformed => max a (b.2 + 6) | .good _ len _ _ => max a (b.2 + len)) 0
    let vals := blockVals bs
    let rest := if broken then (List.range (n - vals.length)).map (fun j => Config.freeValue (free0 + j) % 65536) else []
    { vals := (vals ++ rest).take n, used := cdiv used 64, bad := whole && !blocksPass g.2 nb bs, blocks := bs, whole := whole }
  else
    let got := min n (g.1.length / tySize t)
    { vals := (List.range got).map (fun j => elemAt t g.1 j), used := cdiv (got * tySize t) 64,
      bad := anyBad (g.2.take (c.rawLines i)), blocks := [], whole := got == n }

/-- The element-wise result of a chunk (R281, R303): combined in a free order, scaled, converted. -/
def Coll.result (c : Coll) (free0 i : Nat) (x : Chunk) : List Byte × WrCount × Nat :=
  let t := redIType c.desc; let ot := redOType c.desc
  let rop := leAt c.desc 10 1
  let scale := flag c.desc 11 2
  let y := (List.range (c.chunkElems i)).foldl (fun (a : List Fp × Nat) j =>
    let v := combine rop c.rmode a.2 (x.vals.map (fun f => Fp.of (widenT t (f.getD j 0))))
    (a.1 ++ [if scale then fpMul c.rmode v.1 (Fp.of (widenF fmtFP32 (leAt c.desc 12 4))) else v.1], v.2)) ([], free0)
  let o := putValues ot c.rmode false y.1
  if flag c.desc 11 1 then
    let vals := vals16 o.1 (c.chunkElems i)
    let blocks := (chunksOf 256 vals).flatMap (fun v => encodeBlock (ot == tFP16) (v ++ List.replicate (256 - v.length) 0))
    (slice blocks 0 65536, o.2, y.2)
  else (slice o.1 0 65536, o.2, y.2)

/-- Lines that wait in a die's STAGE, which takes 131,072 of them (Table 10.2). -/
def State.stageUsed (s : State) (d : Nat) : Nat :=
  (s.rgf.colls.map (fun c => ((c.chunks.filter (fun e => s.dieOf (chunkSlot c.tag e.1) == d)).map (fun e => e.2.lines.length)).sum)).sum

/-- Enter a collective in a die's journal for a slot, where it has no open entry there (R357). -/
def State.collEnter (s : State) (c : Coll) (d slot : Nat) : State :=
  if (s.scan d).journal.any (fun e => e.multi && e.opid == c.opener && e.tEnd == 0) then s
  else
    let rdy := if flag c.desc 11 3 then (Rng.mk (redRdy c.desc) (8 * cdiv (redK c.desc) 64)).pages else (0, 0)
    s.journalAdd d
      { num := 0, opid := c.opener, tStart := s.now, tEnd := 0, r0 := 0, n0 := 0, r1 := rdy.1, n1 := rdy.2,
        stride32 := true, multi := true, slot := slot, dest := c.opener / 2 ^ 52, list := c.list, coll := c.idx }

/-- The dies that hold a chunk's accumulator: the owner, and its partner in paired execution (R365). -/
def State.chunkDies (s : State) (tag i : Nat) : List Nat :=
  let d := s.dieOf (chunkSlot tag i)
  d :: (s.partner d).toList

/-- REDUCE input of a chunk waits while a die that holds it is under a scan (R354). -/
def State.chunkBusy (s : State) (tag i : Nat) : Bool := (s.chunkDies tag i).any s.engaged

/-- Enter the collective in the journal of the dies that hold its chunk (R357, R365). -/
def State.collJournal (s : State) (c : Coll) (i : Nat) : State :=
  (s.chunkDies c.tag i).foldl (fun s d => s.collEnter c d (chunkSlot c.tag i)) s

/-- A rank's values that have become contiguous are added; the frame is delivered with its last (R270). The result frame of a
chunk that every rank has delivered is due. -/
def State.deliver (s : State) (tag i rank : Nat) : State :=
  match s.collAt tag with
  | none => s
  | some c =>
    let x := c.chunk i
    if x.done.any (fun e => e.1 == rank) || c.ended.isSome || s.chunkBusy tag i then s
    else
      let a := c.frame s.freeCtr i rank x.lines
      let before := ((x.adding.find? (fun e => e.1 == rank)).map (·.2)).getD (0, 0)
      let d := s.dieOf (chunkSlot tag i)
      let f16 := redIType c.desc == tFP16
      let s := { s with freeCtr := s.freeCtr + (if a.whole then a.vals.length else 0) }
      let s := (s.countBlocks d (a.blocks.drop before.2)).bumpPair .EXP_BEHIND_COUNT d
        (pauses f16 (a.blocks.map (·.1)) - pauses f16 ((a.blocks.take before.2).map (·.1)))
      let s := s.bumpPair .RGF_RED_ELEM_COUNT d (a.vals.length - before.1)
      if !a.whole then
        s.updChunk tag i (fun x =>
          { x with adding := x.adding.filter (fun e => e.1 != rank) ++ [(rank, a.vals.length, a.blocks.length)] })
      else
        let extra := (x.lines.filter (fun l => l.1 == rank && decide (a.used ≤ l.2.1))).length
        let s := s.bump .RGF_CHUNK_RANGE_COUNT 0 0 extra
        s.updChunk tag i (fun x =>
          let n := x.done.length + 1
          { x with lines := x.lines.filter (fun l => l.1 != rank), done := x.done ++ [(rank, a.used)],
                   vals := x.vals ++ [a.vals], poisoned := x.poisoned || a.bad,
                   adding := x.adding.filter (fun e => e.1 != rank), writing := decide (n = redCount c.desc) })

/-- Contribution lines that came while a die was under a scan are added now (R354). -/
def State.stageRun (s : State) (d : Nat) : State :=
  (s.rgf.colls.flatMap (fun c => (c.chunks.filter (fun e => (s.chunkDies c.tag e.1).contains d)).flatMap (fun e =>
    ((e.2.lines.map (·.1)).dedup).map (fun r => (c.tag, e.1, r))))).foldl (fun s e => s.deliver e.1 e.2.1 e.2.2) s

/-- A contribution line reaches its chunk's owner (R269, R270). With it, the die whose reduce unit takes the line. A line of an
operation that has ended is discarded (DESIGN CHOICE, log entry 101). -/
def State.contribLine (s : State) (r : Req) (tag rank res : Nat) : Option Nat × State :=
  match s.collAt tag with
  | none => (none, s.finishCmp r stOK)
  | some c =>
    if mSize r.msg ≠ 64 then (none, s.finishCmp r stREFUSED)
    else
      let off := mAddr r.msg - redTarget c.desc
      let i := off / 65536
      let ln := off % 65536 / 64
      let d := s.dieOf (chunkSlot tag i)
      let x := c.chunk i
      let wait (s : State) : State := s.updColl tag (fun c => { c with held := c.held ++ [HeldLine.mk i r] })
      match x.done.find? (fun e => e.1 == rank) with
      | some e =>
        (none, (s.contribOk tag i r).bump (if ln < e.2 then .RGF_DUP_CHUNK_COUNT else .RGF_CHUNK_RANGE_COUNT))
      | none =>
        if !flag c.desc 11 0 && decide (c.rawLines i ≤ ln) then (none, (s.contribOk tag i r).bump .RGF_CHUNK_RANGE_COUNT)
        else if x.lines.any (fun l => l.1 == rank && l.2.1 == ln) then (none, (s.contribOk tag i r).bump .RGF_DUP_CHUNK_COUNT)
        else if c.ended.isSome then (none, s.contribOk tag i r)
        else if c.held.any (fun h => h.chunk == i && h.req.src == r.src) then (none, wait s)
        else if s.chunkBusy tag i && decide (131072 ≤ s.stageUsed d) then (none, wait s)
        else if !x.granted && !s.accRoom c i then (none, wait (s.bump .RGF_ACC_WAIT_COUNT d))
        else
          let s := if x.granted then s else (s.advance .RGF_ACC_USED_ACC d).collJournal c i
          let s := s.updChunk tag i (fun x =>
            { x with granted := true, lines := x.lines ++ [(rank, ln, slice r.msg.payload 0 64, mPsn r.msg)],
                     poisoned := x.poisoned || residueFind res == 2, pm := max x.pm (res / 2 ^ 64 % 4) })
          (some d, (s.contribOk tag i r).deliver tag i rank)

/-! ### Emission (R281, R282) -/

/-- The writes of a chunk's result frame. -/
def State.frameReqs (s : State) (c : Coll) (i : Nat) (bs : List Byte) (psn : Bool) : List Req :=
  let id := c.opener / 2 ^ 52
  (List.range 1024).map (fun j =>
    { engReq (.coll c.tag) id 0 (s.agentSub id) opNWR 4 (redOut c.desc + 65536 * i + 64 * j) 6 [(17, 1, b2n psn)]
        (slice bs (64 * j) 64) with hot := true })

/-- A frame is one page: its lines pass the gate of the page together, their heat counted once, or the frame waits and no line
of it is written (R196, R199, R210, R282). -/
def State.frameGate (s : State) (x : Chunk) (pg : Nat) : Gate × State :=
  if x.hot then s.gate pg false
  else (List.range 1023).foldl (fun (g : Gate × State) _ =>
    match g.1 with
    | .go => g.2.gate pg true
    | .tray => g.2.gate pg true
    | _ => g) (s.gate pg true)

/-- Is every line of a chunk's result frame performed (R281). -/
def State.frameQuiet (s : State) (c : Coll) (i : Nat) : Bool :=
  s.reqQuiet (fun r => r.org == .coll c.tag && mAddr r.msg / 65536 == redOut c.desc / 65536 + i && mOpc r.msg == opNWR)

/-- What a result frame waits for is counted once, with its first line (R210). -/
def State.frameWait (s : State) (c : Coll) (i cause pg : Nat) : State :=
  let r := { engReq (.coll c.tag) (c.opener / 2 ^ 52) 0 (s.agentSub (c.opener / 2 ^ 52)) opNWR 4 (redOut c.desc + 65536 * i) 6 [] []
    with causes := (c.chunk i).causes }
  let mine (q : Req) : Bool := q.org == .coll c.tag && mOpc q.msg == opNWR && mAddr q.msg == redOut c.desc + 65536 * i
  let s := s.lateWait r cause pg
  let cs := ((s.heldReqs mine).map (·.causes)).headD r.causes
  (s.engDropReqs mine).updChunk c.tag i (fun x => { x with hot := true, causes := cs })

/-- The result frame of a chunk is written whole in SC4, poisoned where a contribution was, or where no two digests of a pair
agreed (R270, R281, R365); the owner's part stops at a write that is refused (R258). -/
def State.emitChunk (s : State) (c : Coll) (i : Nat) : State :=
  let x := c.chunk i
  let d := s.dieOf (chunkSlot c.tag i)
  let psn := x.poisoned || ((s.partner d).isSome && x.pm == 3)
  let r := c.result s.freeCtr i x
  let s := ({ s with freeCtr := r.2.2 }).countWr d r.2.1
  let s :=
    if flag c.desc 11 1 then
      let bs := readBlocks (redOType c.desc == tFP16) 0 r.1 (cdiv (c.chunkElems i) 256)
      (s.bumpPair .EXP_COMP_BLK_COUNT d bs.length).bumpPair .EXP_COMP_RAW_COUNT d
        (bs.filter (fun b => match b.1 with | .good _ _ m _ => m == 1 | _ => false)).length
    else s
  let s := (s.updChunk c.tag i (fun x => { x with issued := true })).updColl c.tag (fun c =>
    if psn then { c with psn := true, errPos := if c.errPos.isNone then some c.emitted else c.errPos } else c)
  let ended (s : State) : Bool := ((s.collAt c.tag).map (fun c => c.stopped.contains (chunkSlot c.tag i))).getD true
  (s.frameReqs c i r.1 psn).foldl (fun s q => if ended s then s else s.engSend q) s

/-- Every line of a chunk's result frame is performed: the chunk is emitted, its accumulator free, its
ready bit set (R281). -/
def State.chunkOut (s : State) (c : Coll) (i : Nat) : State :=
  let d := s.dieOf (chunkSlot c.tag i)
  let s := (s.updChunk c.tag i (fun x => { x with emitted := true, writing := false, vals := [], lines := [] })).lower
    .RGF_ACC_USED_ACC d
  let pg := redOut c.desc / 65536 + i
  let s := (s.chunkDies c.tag i).foldl (fun s d => s.journalMap d (fun e => e.multi && e.opid == c.opener && e.tEnd == 0) (fun e =>
    if e.n0 = 0 then { e with r0 := pg, n0 := 1 }
    else { e with r0 := min e.r0 pg, n0 := max (e.r0 + e.n0) (pg + 1) - min e.r0 pg })) s
  let s := if flag c.desc 11 3 then
      s.engOr (.coll c.tag) (c.opener / 2 ^ 52) (s.agentSub (c.opener / 2 ^ 52)) 4 (redRdy c.desc + 8 * (i / 64)) (2 ^ (i % 64))
    else s
  let n := c.emitted + 1
  let s := c.joins.foldl (fun s j => s.modSlot (slotKey j.2.1 j.2.2) (fun y => { y with pos := n })) s
  s.collSettle c.tag

/-- A chunk that every rank has delivered is emitted, once the page of its result frame takes the frame (R281, R282). -/
def State.chunkEmit (s : State) (tag i : Nat) : State :=
  match s.collAt tag with
  | none => s
  | some c =>
    let x := c.chunk i
    let pg := redOut c.desc / 65536 + i
    if c.stopped.contains (chunkSlot tag i) then s.collSettle tag
    else if !x.writing || x.emitted || c.ended.isSome || s.chunkBusy tag i then s
    else if x.issued then (if s.frameQuiet c i then s.chunkOut c i else s)
    else
      let g := if (extentCheck (s.extentAt (65536 * pg))).isSome then (Gate.go, s) else s.frameGate x pg
      let g := match g.1 with | .tray => if g.2.trayUp pg then (Gate.go, g.2) else (Gate.wait 2, g.2) | .started => (Gate.wait 0, g.2) | _ => g
      match g.1 with
      | .wait cause => g.2.frameWait c i cause pg
      | _ =>
        let s := g.2.emitChunk c i
        match s.collAt tag with
        | none => s
        | some c =>
          if c.stopped.contains (chunkSlot tag i) then s.collSettle tag
          else if s.frameQuiet c i then s.chunkOut c i
          else s

/-- Is a request the write of a result line by the owner of a placement slot. -/
def Coll.writeOf (c : Coll) (slot : Nat) (r : Req) : Bool :=
  r.org == .coll c.tag && mOpc r.msg == opNWR
    && chunkSlot c.tag (mAddr r.msg / 65536 - redOut c.desc / 65536) == slot

/-- The part of a collective on a placement slot stops with a status: what it had still to write is not written (R258). -/
def State.collStop (s : State) (tag slot st : Nat) : State :=
  let s := match s.collAt tag with
    | some c => s.engDropReqs (c.writeOf slot)
    | none => s
  (s.updColl tag (fun c =>
    { c with stopped := if c.stopped.contains slot then c.stopped else c.stopped ++ [slot],
             status := if c.status = stOK then st else c.status,
             errPos := if c.errPos.isNone then some c.emitted else c.errPos })).collSettle tag

end Sys2Proof.Machine
end

