-- ==== Sys2Proof/Machine/Mirage.lean ====
section
/-! DEFINITION. Mirage (R349 to R369): roles of the RGF dies and their slots, health scores, verdicts, the
taint actions of a failed scan, and paired execution. -/

namespace Sys2Proof.Machine

/-! ### Modes that hold parts and scans back (R356, R454, Table 24.3) -/

/-- May RGF die `d` run parts and scans now (R356). -/
def State.dieRuns (s : State) (d : Nat) : Bool :=
  (s.running || s.power.entering == some 3) && !s.contained && !s.dieHeld (rgDie d)

/-- May a new scan start: none from the first step of teardown until UNASSIGNED, nor in the scrub after a
reset (Table 24.3, row 10). -/
def State.scansAllowed (s : State) : Bool :=
  let t := s.rd .SEC_TEN_STAT_STATE
  decide (t ≤ 1 ∨ (t = 2 ∧ s.rd .SEC_TEN_STAT_STEP = 0))

/-! ### Roles and slots (R260) -/

/-- Score of a die. -/
def State.score (s : State) (d : Nat) : Nat := s.rd .SCN_DIE_SCORE_SCORE d

/-- A SPARE die that may take a slot or check another (Table 15.6). -/
def State.spareFree (s : State) (d : Nat) : Bool := s.role d == 0 && !(s.scan d).barred && !s.dieHeld (rgDie d)

/-- The lowest free spare. -/
def State.firstSpare (s : State) : Option Nat := (List.range 36).find? s.spareFree

/-- Is a role one that is scanned (R350). -/
def scannedRole (r : Nat) : Bool := decide (r ≤ 3)

/-- RGF_SUM, RGF_DIE_STAT.NSLOTS, SCN_STAT and the spare state of EVT_DEGRADED as the map and the roles
have them. -/
def State.rgfSummary (s : State) : State :=
  let ds := List.range 36
  let n (ok : Nat → Bool) : Nat := (ds.filter ok).length
  let s := ds.foldl (fun s d => s.wr .RGF_DIE_STAT_NSLOTS (s.dieServes d) d) s
  let ins := n s.inService
  let s := (s.wr .RGF_SUM_ACTIVE ins).wr .SCN_STAT_INSERV ins
  let spares := n (fun d => s.role d == 0 && !(s.scan d).barred)
  let s := s.wr .RGF_SUM_SPARE spares
  let s := s.wr .RGF_SUM_DOUBLED (n (fun d => decide (1 < s.dieServes d)))
  let s := (s.wr .SCN_STAT_PAIRED (n (fun d => s.role d == 3))).wr .SCN_STAT_OBSERVED (n (fun d => s.role d == 2))
  if spares = 0 then s.setDegraded 4 true else s

/-- Parts that find a queue full wait in the launch queue (R263); a part that runs stays. -/
def State.fillq (s : State) (d : Nat) (q : List Part) : State :=
  let s := s.setDieq d (q.take 64 ++ (q.drop 64).filter (·.running))
  s.setLaunchq ((q.drop 64).filter (fun x => !x.running) ++ s.rgf.launchq)

/-- Give a die a role; a change writes a health-history record (R391). -/
def State.setRole (s : State) (d r : Nat) : State :=
  if s.role d = r then s
  else
    let s := s.wr .RGF_DIE_STAT_ROLE r d
    let s := s.setOwnq d (s.dieq d)
    let s := if r = 2 then s.setScan d { s.scan d with obsFrom := s.epoch } else s
    s.rgfSummary.healthLog

/-- RGF_ACC_USED of every die, from the accumulators that its slots hold (R269). -/
def State.accRefresh (s : State) : State :=
  (List.range 36).foldl (fun s d => s.wr .RGF_ACC_USED_ACC (s.rgf.colls.map (fun c => s.accOf c d)).sum d) s

/-- The journal entries that are open on a die for a slot are closed there and go on with the slot's new
die, which has one entry for a collective (R357). -/
def State.journalMove (s : State) (d new slot : Nat) : State :=
  let part (e : JEnt) : Bool := e.tEnd == 0 && e.slot % 32 == slot && !e.multi
  let mine := (s.scan d).journal.filter part
  let s := s.journalMap d part (fun e => { e with tEnd := s.now })
  let s := mine.foldl (fun s e => s.journalAdd new { e with tStart := s.now }) s
  s.rgf.colls.foldl (fun s c =>
    let s := if c.accOn slot then s.collEnter c new slot else s
    if s.accOf c d = 0 then s.collJournalEnd c d else s) s

/-- A slot passes to another die, with the parts placed on it; a part that finds the new queue full waits
in the launch queue (R260, R263). -/
def State.passSlot (s : State) (p new : Nat) : State :=
  let d := s.dieOf p
  let s := s.wr .RGF_MAP_DIE new p
  let mine := (s.dieq d).filter (fun x => x.place == p)
  let s := s.setDieq d ((s.dieq d).filter (fun x => x.place != p))
  let s := mine.foldl (fun s x =>
    if x.running || decide ((s.dieq new).length < 64) then s.setDieq new (s.dieq new ++ [x])
    else s.setLaunchq (x :: s.rgf.launchq)) s
  (s.journalMove d new p).accRefresh

/-- The slots a die serves. -/
def State.slotsOf (s : State) (d : Nat) : List Nat := (List.range 32).filter (fun p => s.dieOf p == d)

/-- The in-service die that serves the fewest slots, lowest number first, among those that pass a test. -/
def State.leastServing (s : State) (ok : Nat → Bool) : Option Nat :=
  ((List.range 36).filter (fun d => ok d && s.inService d)).foldl (fun (b : Option Nat) d =>
    match b with
    | none => some d
    | some c => if s.dieServes d < s.dieServes c then some d else b) none

/-- A die leaves service: a free spare takes its slots and is ACTIVE; with none, each slot passes to the
die in service that serves the fewest (R260). -/
def State.leaveService (s : State) (d : Nat) : State :=
  match s.firstSpare with
  | some sp =>
    if s.slotsOf d = [] then s else ((s.slotsOf d).foldl (fun s p => s.passSlot p sp) s).setRole sp 1
  | none =>
    ((s.slotsOf d).foldl (fun s p =>
      match s.leastServing (fun x => x != d) with
      | some x => s.passSlot p x
      | none => s) s).rgfSummary

/-! ### Pairs (R365, R366) -/

/-- The queue of a pair parts: each die keeps the parts placed on its own slots. -/
def State.splitq (s : State) (d : Nat) : State :=
  match s.partner d with
  | none => s
  | some p =>
    let own (x : Nat) : List Part := (s.dieq x).filter (fun y => s.dieOf y.place == x)
    let a := own d
    let b := own p
    (s.setOwnq d a).setOwnq p b

/-- A die leaves its pair. -/
def State.unpair (s : State) (d : Nat) : State :=
  let s := s.splitq d
  (s.wr .RGF_DIE_STAT_PARTNER 0x3F d).setScan d { s.scan d with suspect := false }

/-- The partner a suspect die gets: the ACTIVE die with the lowest score, lowest number first; an OBSERVED
die without slots is a candidate again once its score is below EXIT_THR (R366). -/
def State.partnerFor (s : State) (d : Nat) : Option Nat :=
  ((List.range 36).filter (fun x => x != d && (s.role x == 1
      || (s.role x == 2 && s.dieServes x == 0 && decide (s.score x < s.rd .SCN_THR1_EXIT_THR))))).foldl
    (fun (b : Option Nat) x =>
      match b with
      | none => some x
      | some c => if s.score x < s.score c then some x else b) none

/-- Pair a suspect die; with no partner its slots pass on and it is OBSERVED without slots (R366). -/
def State.pairDie (s : State) (d : Nat) (ev : Bool) : State :=
  match s.partnerFor d with
  | some q =>
    let s := (s.wr .RGF_DIE_STAT_PARTNER q d).wr .RGF_DIE_STAT_PARTNER d q
    let s := s.setScan d { s.scan d with suspect := true }
    let s := ((s.setRole d 3).setRole q 3).fillq d (s.dieq d ++ s.dieq q)
    if ev then s.event .scnPair d else s
  | none => (((s.unpair d).event .scnNoPartner d).leaveService d).setRole d 2

/-! ### Role changes (R363, R364, R367) -/

/-- The conditions of an automatic retirement, but for the score (Table 15.6, R367). -/
def State.mayRetire (s : State) : Bool :=
  s.on .SCN_CTL_AUTO_RET && !s.on .SCN_STAT_LOW && s.firstSpare.isSome &&
  (s.rd .SCN_LAST_RET_TIME == 0 || decide (s.rd .SCN_LAST_RET_TIME / 65536 + s.rd .SCN_RET_WIN_EPOCHS ≤ s.epoch))

/-- Retire a die whose slots a spare takes. The partner of a retired suspect returns to ACTIVE. -/
def State.retireDie (s : State) (d : Nat) (auto : Bool) : State :=
  let pr := s.partner d
  let sus := (s.scan d).suspect
  let s := ((s.unpair d).leaveService d).setRole d 4
  let s := if auto then (s.wr .SCN_LAST_RET_TIME s.now).event .scnRetire d else s
  match pr with
  | none => s
  | some q => if sus || auto then (s.unpair q).setRole q 1 else (s.unpair q).pairDie q false

/-- The paired die with the highest score, lowest number first. -/
def State.worstPaired (s : State) : Option Nat :=
  ((List.range 36).filter (fun d => s.role d == 3)).foldl (fun (b : Option Nat) d =>
    match b with
    | none => some d
    | some c => if s.score c < s.score d then some d else b) none

/-- Table 15.6 for the pairs. -/
def State.checkPairs (s : State) : State :=
  match s.worstPaired with
  | some d => if s.rd .SCN_THR0_RET_THR ≤ s.score d ∧ s.mayRetire then s.retireDie d true else s
  | none => s

/-- Table 15.6 for a die, after a change of its score or a verdict. -/
def State.roleCheck (s : State) (d : Nat) : State :=
  let r := s.role d
  let v := s.score d
  let s :=
    if r = 0 then
      let x := s.scan d
      let b := if s.rd .SCN_THR0_OBS_THR ≤ v then true else if v < s.rd .SCN_THR1_EXIT_THR then false else x.barred
      if b = x.barred then s else (s.setScan d { x with barred := b }).rgfSummary
    else if (r = 1 ∨ r = 2) ∧ s.rd .SCN_THR0_RET_THR ≤ v then
      if s.mayRetire then s.retireDie d true else s.pairDie d true
    else if r = 1 ∧ s.rd .SCN_THR0_OBS_THR ≤ v then (s.setRole d 2).event .scnObserve d
    else if r = 2 ∧ v < s.rd .SCN_THR1_EXIT_THR ∧ s.rd .SCN_THR1_OBS_MIN ≤ (s.scan d).passes then
      (s.setRole d 1).event .scnRelease d
    else s
  s.checkPairs

/-- Add to a die's score (R363). -/
def State.addScore (s : State) (d n : Nat) : State :=
  if n = 0 then s else (s.wr .SCN_DIE_SCORE_SCORE (min 65535 (s.score d + n)) d).roleCheck d

/-! ### The taint actions (Table 15.4) -/

/-- One part of an operation has ended or stopped. -/
def State.partOver (s : State) (k : Nat) : State :=
  s.modSlot k (fun x => { x with left := x.left - 1, ending := x.ending || decide (x.left ≤ 1) })

/-- The pages the recorded ranges of an entry cover. -/
def JEnt.pages (e : JEnt) : List Nat :=
  ((List.range e.n0).filter (fun i => !e.stride32 || i % 32 == 0)).map (e.r0 + ·) ++ (List.range e.n1).map (e.r1 + ·)

/-- The completion record (Table 10.6). -/
def OpSlot.record (x : OpSlot) (now : Nat) : List Byte :=
  leBytes 8 x.opid ++ leBytes 1 (x.status % 16 + 16 * b2n x.psnOut + 32 * b2n x.susp + 128) ++ leBytes 1 (x.parts % 64)
    ++ leBytes 6 0 ++ leBytes 8 x.tLaunch ++ leBytes 8 now ++ leBytes 8 x.outCount
    ++ leBytes 8 (x.errPos.getD (2 ^ 64 - 1)) ++ leBytes 8 x.aux ++ leBytes 8 0

/-- An operation that completes TAINTED is counted, for its agent too (R359, R362). -/
def State.taintedOp (s : State) (id : Nat) (x : OpSlot) : State :=
  if x.status = stTAINTED then
    (s.bump .SCN_TAINTED_OPS_COUNT).updAgent id (fun a => { a with tainted := (a.tainted + 1) % 2 ^ 32 })
  else s

/-- Is the operation with this OPID still open: its record is not yet performed (R361). -/
def State.opOpen (s : State) (opid : Nat) : Bool :=
  let x := s.slot (opid / 2 ^ 48)
  x.isOpen && x.opid == opid

/-- Was its record performed in this CCLK cycle: that is not before a verdict of the same cycle (R361). -/
def State.opNow (s : State) (opid : Nat) : Bool :=
  let x := s.slot (opid / 2 ^ 48)
  !x.isOpen && x.opid == opid && x.tDone == s.now

/-- Such a record shows TAINTED. -/
def State.taintRecord (s : State) (k : Nat) : State :=
  let x := s.slot k
  let y := x.outcome 6 stTAINTED
  let s := s.modSlot k (fun _ => { y with crec := y.record s.now })
  if x.status = stTAINTED then s else s.taintedOp (slotAgentId k) y

/-- A TAINT_NOTE to an agent (R360, R362). -/
def State.taintNote (s : State) (id opid addr time : Nat) : State :=
  let s := s.updAgent id (fun a => { a with notes := (a.notes + 1) % 2 ^ 32, noteOpid := opid, noteTime := time })
  let s := s.bump .SCN_NOTES_COUNT
  let m : Msg := { hdr := mkHdr (commonHdr opTAINT_NOTE 1 0 id 0 ++ [(27, 48, addr)]),
                   payload := leBytes 8 opid ++ leBytes 8 time }
  match s.portOfAgent id with
  | some p => s.send 96 p 1 1023 m
  | none => s.bump .SWC_FLUSHED_COUNT

/-- What one operation of the window gets: TAINTED while its record is not performed, else a note. The
count is the notes sent. -/
def State.taintOp (s : State) (e : JEnt) (time id opid : Nat) : Nat × State :=
  if s.opOpen opid then (0, s.opOutcome (opid / 2 ^ 48) 6 stTAINTED)
  else if s.opNow opid then (0, s.taintRecord (opid / 2 ^ 48))
  else (1, s.taintNote id opid (if e.n0 = 0 then 0 else 65536 * e.r0) time)

/-- The entries a fault of the window can have touched (R358). -/
def State.windowEntries (s : State) (d : Nat) : List JEnt :=
  let x := s.scan d
  x.journal.filter (fun e => decide (e.tStart < s.now) && (e.tEnd == 0 || decide (x.lastPass ≤ e.tEnd)))

/-- Steps 2 to 5 of Table 15.4 over the window of a die or of a complex's adders. -/
def State.taintWindow (s : State) (d : Nat) : State :=
  let x := s.scan d
  let es := s.windowEntries d
  let pages := ((es.flatMap JEnt.pages).dedup).filter (fun pg => (s.extentAt (65536 * pg)).isSome)
  let s := pages.foldl (fun s pg => s.setSusp pg true) s
  let s := s.bump .SCN_SUSP_PAGES_COUNT 0 0 pages.length
  let dests := (es.flatMap (fun e => if e.multi then e.list.map (fun l => (e, l.1, l.2)) else [(e, e.dest, e.opid)]))
  let uniq := dests.foldl (fun (a : List (JEnt × Nat × Nat)) q =>
    if a.any (fun y => y.2.2 == q.2.2) then a else a ++ [q]) []
  let r := uniq.foldl (fun (a : Nat × State) q =>
    let t := a.2.taintOp q.1 x.lastPass q.2.1 q.2.2
    (a.1 + t.1, t.2)) (0, s)
  let s := r.2
  -- a collective that holds accumulators on the die ends
  let ends := s.rgf.colls.filter (fun c => es.any (fun e => e.multi && e.opid == c.opener) && (d < 48 && decide (0 < s.accOf c d)))
  let s := ends.foldl (fun s c => s.collEnd c.tag 6 stTAINTED false) s
  let i := s.rd .SCN_FLOG_IDX_NEXT
  let rec_ : List Byte := leBytes 8 0 ++ leBytes 8 x.lastPass ++ leBytes 8 s.now ++ leBytes 4 0 ++ leBytes 4 pages.length
    ++ leBytes 4 0 ++ leBytes 4 r.1 ++ leBytes 1 0 ++ leBytes 1 d ++ leBytes 22 0
  ({ s with scn := { s.scn with flog := tset (List.replicate 64 0) s.scn.flog (i % 64) rec_ } }).advance .SCN_FLOG_IDX_NEXT

/-- A die's residue checks find a mismatch, which a recomputation clears (1) or repeats (2): it is counted and adds to the
die's score (R317, R363). -/
def State.residueFound (s : State) (d res : Nat) : State :=
  let s := if 1 ≤ res then s.bump .RGF_RES_RETRY_COUNT d else s
  let s := if res = 2 then (s.bump .RGF_RES_FAIL_COUNT d).event .residueFail d else s
  let s := if 1 ≤ res then s.addScore d (s.rd .SCN_W1_W_RETRY) else s
  if res = 2 then s.addScore d (s.rd .SCN_W0_W_RFAIL) else s

/-- Has a part that runs a mismatch whose recomputation is still to come. -/
def Part.pending (x : Part) : Bool := x.running && !x.worked && x.res != 0

/-- Such a mismatch of a part that is stopped is counted, and not recomputed (R317). -/
def State.pendingFound (s : State) (d : Nat) (x : Part) : State := if x.pending then s.residueFound d 1 else s

/-- Those of an operation's parts, each on the first die that holds it. -/
def State.pendingAll (s : State) (k : Nat) : State :=
  let run := s.rgf.dieq.flatMap (fun e => (e.2.filter (fun x => x.key == k && x.pending)).map (fun x => (e.1, x)))
  let once := run.foldl (fun (a : List (Nat × Part)) e => if a.any (fun y => y.2.ix == e.2.ix) then a else a ++ [e]) []
  once.foldl (fun s e => s.pendingFound e.1 e.2) s

/-- The parts running on a die stop, and nothing more of them is written; those queued stay queued (R254; Table 15.4,
step 1). -/
def State.stopRunning (s : State) (d : Nat) : State :=
  let run := (s.dieq d).filter (·.running)
  let s := s.setDieq d ((s.dieq d).filter (fun x => !x.running))
  run.foldl (fun s x =>
    let mine (r : Req) : Bool := r.org == slotOrg x.key && r.seq == x.ix && !isRead (mOpc r.msg)
    (((s.engDropReqs mine).pendingFound d x).journalEnd d (s.slot x.key).opid x.place).partOver x.key) s

/-- A die fails a scan (R359, R363). -/
def State.dieFail (s : State) (d : Nat) : State :=
  let s := s.setScan d { s.scan d with passes := 0 }
  let s := { s with tel := { s.tel with healthFails := tset 0 s.tel.healthFails d (tget 0 s.tel.healthFails d + 1) } }
  if s.role d = 3 then (s.healthLog).addScore d (s.rd .SCN_W0_W_SCAN)
  else
    let s := ((s.event .scnFail d).bump .SCN_FAILS_COUNT).bump .SCN_DIE_FAILS_COUNT d
    let s := (s.taintWindow d).stopRunning d
    let s := s.healthLog
    let s := (s.wr .SCN_DIE_SCORE_SCORE (min 65535 (s.score d + s.rd .SCN_W0_W_SCAN)) d).roleCheck d
    let s := s.raise 0x07 d
    if s.role d = 1 then (s.setRole d 2).event .scnObserve d else s

/-- A die passes a scan that started at `start`. -/
def State.diePass (s : State) (d start : Nat) : State :=
  let x := s.scan d
  let s := s.setScan d ({ x with passes := x.passes + 1, starts := (start :: x.starts).take 4 }).prune
  (s.wr .SCN_DIE_LAST_TIME start d).roleCheck d

/-! ### Scans (R351 to R356) -/

/-- The next die of a kind after the last chosen, round robin. -/
def State.nextDie (s : State) (ok : Nat → Bool) : Option Nat :=
  ((List.range 36).map (fun i => (s.scn.lastDie + 1 + i) % 36)).find? ok

/-- A checker or an arbiter for a scan: the next free spare, else the next ACTIVE die (R352). -/
def State.pickChecker (s : State) (not : List Nat) : Option Nat :=
  let free (d : Nat) : Bool := !not.contains d && !s.engaged d && !s.dieHeld (rgDie d)
  (s.nextDie (fun d => s.spareFree d && free d)) <|> (s.nextDie (fun d => s.role d == 1 && free d))

/-- The scan interval of a die, in epochs (R355). -/
def State.scanInterval (s : State) (obs : Bool) : Nat :=
  let p := s.rd .PWR_EP_STAT_PERIOD
  let nom := s.on .PWR_EP_STAT_HOLDOVER || p == 0
  let cap := if obs then (if nom then s.boot.image.nomHz / 2000 else 800000 / p)
             else (if nom then s.boot.image.nomHz / 50 else 32000000 / p)
  max 1 (min (s.rd (if obs then .SCN_INT_OBS else .SCN_INT_NORM)) cap)

/-- Is a scan of unit `d` of `n` scheduled at epoch `e` (R355). -/
def State.scanAt (s : State) (d n e : Nat) : Bool :=
  let i := s.scanInterval false
  let ph := d * i / n
  decide (ph ≤ e) && (e - ph) % i == 0

/-- Is a scan of RGF die `d` scheduled at epoch `e`. -/
def State.dieScanAt (s : State) (d e : Nat) : Bool :=
  if s.role d = 2 then
    let x := s.scan d
    decide (x.obsFrom < e) && (e - x.obsFrom) % s.scanInterval true == 0
  else s.scanAt d 36 e

/-- SCN_DIE_NEXT: the epoch of the next scheduled scan. -/
def State.dieScanNext (s : State) (d : Nat) : Nat :=
  let e := s.epoch
  let i := s.scanInterval (s.role d == 2)
  (((List.range i).map (fun j => e + 1 + j)).find? (fun x => s.dieScanAt d x)).getD (e + i)

/-- A scan is made due. -/
def State.makeDue (s : State) (d : Nat) : State := s.setScan d { s.scan d with due := true }

/-- Has the last passing scan of a die started more than its interval ago (R356). -/
def State.scanLate (s : State) (d : Nat) : Bool :=
  scannedRole (s.role d) && decide ((s.scan d).lastPass / 65536 + s.scanInterval (s.role d == 2) < s.epoch)

/-- After a stop, a die whose last passing scan is too old is scanned before its next part (R356). -/
def State.lateScans (s : State) : State :=
  (List.range 36).foldl (fun s d => if s.scanLate d then s.makeDue d else s) s

/-- A scan ends; REDUCE input that waited for it in STAGE is added (R354). -/
def State.scanOver (s : State) (d : Nat) : State :=
  let x := s.scan d
  let s := (s.setScan d { x with running := false, arbiting := none }).bump .SCN_SCANS_COUNT
  ([d, x.checker] ++ (x.arbiting.map (·.2.2)).toList).foldl (fun s d => s.stageRun d) s

/-! ### Hard failure of a die (R260, R367) -/

/-- Fewer than 24 dies in service after a hard failure (R367). -/
def State.lowCheck (s : State) : State :=
  if s.rd .SCN_STAT_INSERV < 24 ∧ !s.on .SCN_STAT_LOW then
    ((s.wr .SCN_STAT_LOW 1).event .rgfLow).setDegraded 5 true
  else s

/-- A collective's part on a slot whose die is gone stops, with POISON (R258, R260). -/
def State.collLost (s : State) (d : Nat) : State :=
  let hit := s.rgf.colls.filter (fun c => decide (0 < s.accOf c d))
  hit.foldl (fun s c =>
    let slots := ((c.chunks.filter (fun e => c.holdsAcc e && s.dieOf (chunkSlot c.tag e.1) == d)).map
      (fun e => chunkSlot c.tag e.1)).dedup
    let s := c.joins.foldl (fun s j => s.opOutcome (slotKey j.2.1 j.2.2) 5 stPOISON) s
    slots.foldl (fun s p => s.collStop c.tag p stPOISON) s) s

/-- RGF die `d` fails hard, at the moment of detection: the parts it runs end with POISON, and its pair ends (Table 16.2,
R258). -/
def State.dieHard (s : State) (d : Nat) : State :=
  if s.role d ≥ 4 then s.setRole d 5
  else
    let run := (s.dieq d).filter (·.running)
    let s := run.foldl (fun s x => s.opOutcome x.key 5 stPOISON) s
    let s := (s.collLost d).stopRunning d
    let pr := s.partner d
    let sus := (s.scan d).suspect
    let x := s.scan d
    let s := (s.setScan d { x with due := false, running := false, arbiting := none }).stageRun x.checker
    let s := (s.unpair d).setRole d 5
    let s := match pr with
      | none => s
      | some q => if sus then (s.unpair q).setRole q 1 else (s.unpair q).pairDie q false
    s.rgfSummary

/-- The step of the sequencer that follows: the slots of a die that has failed pass on (R260, R367, R373). -/
def State.dieHardPass (s : State) (d : Nat) : State :=
  if s.role d = 5 then (s.leaveService d).rgfSummary.lowCheck else s

end Sys2Proof.Machine
end

