-- ==== Sys2Proof/Machine/NearMem.lean ====
section
/-! DEFINITION. Operations that use no RGF die (R190, R191, R294 to R298): the ownership records and the
near-memory operations. -/

namespace Sys2Proof.Machine

/-- An operation's slot shows its answer and ends. -/
def State.opAnswer (s : State) (k st : Nat) (aux : Nat) : State :=
  s.modSlot k (fun x =>
    let x := if st = stOK then x else { x with rank := 3, status := st }
    { x with aux := aux, pos := 1, ending := true, left := 0 })

/-! ### Ownership records (R294 to R296) -/

/-- AUX of OWNER_OF (R294). -/
def Extent.ownerAux (x : Extent) : Nat := b2n x.owned * 2 ^ 63 + x.owner * 2 ^ 48 + x.gen

/-- Does an operation on an ownership record of the same extent still run, or wait, that came before this one: the home
handles them one at a time, in arrival order (R294). -/
def State.ownBusy (s : State) (k : Nat) : Bool :=
  let x := s.slot k
  let at_ (y : OpSlot) : Option Nat := (s.extentAt (leAt (y.descBytes 64) 0 8)).map (·.1)
  (at_ x).isSome && s.rgf.slots.any (fun e =>
    let y := e.2
    e.1 != k && y.isOpen && (y.opc == 7 || y.opc == 8) && at_ y == at_ x
      && (if y.ending then y.left == 1 || !s.engQuiet (slotOrg e.1)
          else y.left == 1 && decide (y.arr < x.arr)))

/-- OWNER_OF (R294). -/
def State.runOwnerOf (s : State) (k : Nat) : State :=
  let d := (s.slot k).descBytes 64
  if !addrOk d 0 || !zeroBetween d 8 64 then s.opRefuse k stREFUSED
  else
    let s := s.modSlot k (fun x => { x with tot := 1 })
    match s.extentAt (leAt d 0 8) with
    | some (_, x) =>
      if x.state = 1 then s.opAnswer k stOK x.ownerAux
      else if x.state = 2 then s.opAnswer k stLEASE_GONE x.ownerAux
      else s.opAnswer k stUNMAPPED 0
    | none => s.opAnswer k stUNMAPPED 0

/-- A transfer record (Table 11.12). -/
def xferRecord (base gen from_ to_ t : Nat) : List Byte :=
  leBytes 8 base ++ leBytes 4 gen ++ leBytes 2 from_ ++ leBytes 2 to_ ++ leBytes 8 t ++ leBytes 8 0 ++ leBytes 32 0

/-- Does an agent hold a lease (R171). -/
def State.hasLease (s : State) (id : Nat) : Bool := (s.agent id).valid

/-- T_END and then FLAG of a transfer record are written (R296). -/
def State.xferClose (s : State) (k rec_ fl : Nat) : State :=
  let id := slotAgentId k
  let s := s.engSend (engReq (slotOrg k) id 0 (s.agentSub id) opST 4 (rec_ + 24) 3 [] (leBytes 16 s.now))
  s.engSend (engReq (slotOrg k) id 0 (s.agentSub id) opST 4 (rec_ + 63) 0 [] (leBytes 16 fl))

/-- A COMMIT whose FLAG is written is over (R296). -/
def State.xferOver (s : State) (k : Nat) : State :=
  if (s.slot k).opc = 8 ∧ (s.slot k).left = 1 ∧ (s.slot k).ending ∧ s.engQuiet (slotOrg k) then
    s.modSlot k (fun x => { x with left := 0 })
  else s

/-- XFER_OWNER (R295, R296). A record whose FLAG is none of Table 11.12's values has no row: COMMIT and ABANDON change nothing and
answer STATE (DESIGN CHOICE, log entry 107). -/
def State.runXfer (s : State) (k : Nat) : State :=
  let d := (s.slot k).descBytes 64
  let gen := leAt d 8 4; let to_ := leAt d 12 2; let ph := leAt d 14 1; let rec_ := leAt d 16 8
  if !addrOk d 0 || !addrOk d 16 || !zeroBetween d 24 64 || leAt d 15 1 != 0 || decide (4096 ≤ to_)
      || decide (ph = 0 ∨ 3 < ph) || rec_ % 64 != 0 then s.opRefuse k stREFUSED
  else
    let rs := [Rng.mk (leAt d 0 8) 1, Rng.mk rec_ 64]
    match (rs.map s.rangeStatus).find? (· != stOK) with
    | some st => s.opRefuse k st
    | none =>
      if !s.rangeIn (Rng.mk rec_ 64) (fun x => !x.coh && !x.pub) then s.opRefuse k stREFUSED
      else
        let s := s.modSlot k (fun x => { x with tot := 1 })
        match s.extentAt (leAt d 0 8) with
        | none => s.opAnswer k stUNMAPPED 0
        | some (_, x) =>
          let stale (s : State) : State := (s.bump .POOL_XFER_STALE_COUNT).opAnswer k stVERSION_STALE x.ownerAux
          if !x.owned then s.opAnswer k stSTATE 0
          else if ph = 1 then
            if x.gen ≠ gen then stale s
            else if !s.hasLease to_ then s.opAnswer k stLEASE_GONE 0
            else
              let id := slotAgentId k
              let s := s.engWriteLine (slotOrg k) id 0 (s.agentSub id) 4 (rec_ / 64)
                (xferRecord (x.base * 2 ^ 21) gen x.owner to_ s.now) false
              s.opAnswer k stOK 0
          else
            let r := s.opRead k rec_ 64
            let b := r.1.1
            let s := r.2
            let fl := leAt b 63 1
            if r.1.2.any (fun p => p) then (s.opOutcome k 2 stPOISON).opAnswer k stOK 0
            else if leAt b 0 8 ≠ x.base * 2 ^ 21 ∨ leAt b 8 4 ≠ gen ∨ leAt b 14 2 ≠ to_ then s.opAnswer k stREFUSED 0
            else if ph = 2 then
              if fl = 1 then s.opAnswer k stOK 0
              else if fl ≠ 0 then s.opAnswer k stSTATE 0
              else if x.gen ≠ gen then stale s
              else if !s.hasLease to_ then s.opAnswer k stLEASE_GONE 0
              else
                let s := s.xferClose k rec_ 1
                (s.modSlot k (fun x => { x with pos := 1, ending := true, left := 1 })).xferOver k
            else if fl = 0 then (s.xferClose k rec_ 2).opAnswer k stOK 0
            else if fl = 2 then s.opAnswer k stOK 0
            else s.opAnswer k stSTATE 0

/-- OWNER_OF or XFER_OWNER begins once the home has finished the one before it and its record line is at hand (R258, R294). -/
def State.ownStart (s : State) (k : Nat) : State :=
  let hold (s : State) : State := s.modSlot k (fun x => { x with left := 1 })
  if s.ownBusy k then hold s
  else if (s.slot k).opc = 7 then s.runOwnerOf k
  else
    let id := slotAgentId k
    let r := s.engTry (slotOrg k) id (s.agentSub id) 4 (fun s => s.runXfer k)
    if r.1 then r.2 else hold r.2

/-- One that waited begins. -/
def State.ownResume (s : State) (k : Nat) : State :=
  let x := s.slot k
  if (x.opc = 7 ∨ x.opc = 8) ∧ x.isOpen ∧ !x.ending ∧ x.left = 1 then
    (s.modSlot k (fun y => { y with left := 0 })).ownStart k
  else s

/-! ### Near-memory operations (R297, R298) -/

/-- The plan of FILL, COPY, COMPARE or MREDUCE (Table 11.14). `axis` holds the lines. -/
def nearPlan (opc : Nat) (d : List Byte) : Plan :=
  let mk (ok : Bool) (ins outs : List Rng) (clash : Bool) (n : Nat) : Plan :=
    { ok := ok && decide (64 ≤ n) && n % 64 == 0, ins := ins, outs := outs, clash := clash, extra := true,
      tot := n / 64, axis := n / 64, split := false }
  let al (o : Nat) : Bool := addrOk d o && leAt d o 8 % 64 == 0
  if opc = 0x10 then
    let n := leAt d 8 8
    mk (al 0 && zeroBetween d 24 64) [] [Rng.mk (leAt d 0 8) n] false n
  else if opc = 0x11 then
    let n := leAt d 16 8
    let a := Rng.mk (leAt d 0 8) n; let b := Rng.mk (leAt d 8 8) n
    mk (al 0 && al 8 && zeroBetween d 24 64) [a] [b] (a.meets b) n
  else if opc = 0x12 then
    let n := leAt d 16 8
    mk (al 0 && al 8 && zeroBetween d 24 64) [Rng.mk (leAt d 0 8) n, Rng.mk (leAt d 8 8) n] [] false n
  else
    let n := leAt d 16 8
    let m := leAt d 0 1
    let t := leAt d 1 1
    let srcs := (List.range m).map (fun i => Rng.mk (leAt d (64 + 8 * i) 8) n)
    let out := Rng.mk (leAt d 8 8) n
    let same := (srcs.filter (fun a => a == out)).length
    mk (decide (2 ≤ m ∧ m ≤ 8) && [1, 2, 3, 10].contains t && decide (leAt d 2 1 ≤ 2) && zeroBetween d 3 8 && al 8
        && zeroBetween d 24 64 && (List.range m).all (fun i => al (64 + 8 * i)) && zeroBetween d (64 + 8 * m) 128)
      srcs [out] (decide (1 < same) || srcs.any (fun a => a != out && a.meets out)) n

/-- The homes that take part: those of the pages of the range that is written, or of A for COMPARE. -/
def State.nearHomes (s : State) (r : Rng) : List Nat :=
  ((List.range (r.pages.2)).map (fun i => s.homeOfPage (r.pages.1 + i))).dedup

/-- The complex whose adders compute for a home: its own, or the next where they are MOVED; none where both
have failed (R369). -/
def State.adderOf (s : State) (h : Nat) : Option Nat :=
  if !s.on .SCN_MC_STAT_MOVED h then some h
  else if !s.on .SCN_MC_STAT_MOVED (h ^^^ 1) then some (h ^^^ 1)
  else none

/-- One line of a near-memory operation read: its bytes and poison. -/
def State.nearLine (s : State) (k l : Nat) : (List Byte × Bool) × State :=
  let r := s.opRead k (64 * l) 64
  ((r.1.1, r.1.2.any (fun p => p)), r.2)

/-- One line of a near-memory operation written in SC5 (R191). -/
def State.nearWrite (s : State) (k l : Nat) (bs : List Byte) (psn : Bool) : State :=
  if s.opStopped k then s
  else
    let s := s.opWritePiece k 5 (s.agentSub (slotAgentId k)) (64 * l) bs psn
    if s.opStopped k then s
    else s.modSlot k (fun x => { x with pos := x.pos + 1, outCount := x.outCount + 1 })

/-- The element-wise result of a line of MREDUCE (R298, R312). -/
def mreduceLine (t rop rmode : Nat) (satFp8 : Bool) (free0 : Nat) (ls : List (List Byte)) : List Byte × Nat :=
  let n := 64 / tySize t
  if t = tINT32 then
    ((List.range n).flatMap (fun i =>
      match ls.map (fun b => elemAt t b i) with
      | [] => leBytes 4 0
      | v :: vs => leBytes 4 (vs.foldl (intCombine rop) v)), free0)
  else
    let y := (List.range n).foldl (fun (a : List Fp × Nat) i =>
      let v := combine rop rmode a.2 (ls.map (fun b => Fp.of (widenT t (elemAt t b i))))
      (a.1 ++ [v.1], v.2)) ([], free0)
    ((putValues t rmode satFp8 y.1).1, y.2)

/-- The range whose homes share a near-memory operation out: the one that is written, or A of a COMPARE (R190). -/
def Plan.nearRng (p : Plan) : Rng := (p.outs ++ p.ins).getD 0 (Rng.mk 0 0)

/-- The lines of an operation that a home's engine works on, by their number from the start of the range. -/
def State.nearIdx (s : State) (p : Plan) (h : Nat) : List Nat :=
  (List.range p.tot).filter (fun i => s.homeOfPage ((p.nearRng.lo / 64 + i) / 1024) == h)

/-- Line `i` of a FILL or COPY is written; with the last line of a page that lies whole in the range, the page loses its
suspect bit (R187). -/
def State.nearCopy (s : State) (k : Nat) (r : Rng) (i : Nat) (bs : List Byte) (psn : Bool) : State :=
  let l := r.lo / 64 + i
  let s := s.nearWrite k l bs psn
  if l % 1024 = 1023 ∧ r.lo ≤ l / 1024 * 65536 ∧ !s.opStopped k then s.setSusp (l / 1024) false else s

/-- The share of a near-memory operation that the engine of home `h` works on (R190, R297, R298), whose inputs are at hand.
`res` is what the MREDUCE adders' check finds in it (R317). -/
def State.nearShare (s : State) (k opc res h : Nat) : State :=
  let s := s.onShare k h
  let x := s.slot k
  let d := x.descBytes 128
  let p := nearPlan opc d
  let r := p.nearRng
  let ix := s.nearIdx p h
  if opc = 0x10 then
    let pat := (List.range 8).flatMap (fun _ => (d.drop 16).take 8)
    ix.foldl (fun s i => s.nearCopy k r i pat false) s
  else if opc = 0x11 then
    let a := leAt d 0 8 / 64
    ix.foldl (fun s i =>
      if s.opStopped k then s
      else
        let v := s.nearLine k (a + i)
        v.2.nearCopy k r i v.1.1 v.1.2) s
  else if opc = 0x12 then
    let a := leAt d 0 8 / 64; let b := leAt d 8 8 / 64
    ix.foldl (fun s i =>
      let u := s.nearLine k (a + i)
      let v := u.2.nearLine k (b + i)
      let psn := u.1.2 || v.1.2
      let s := if psn then v.2.opOutcome k 2 stPOISON else v.2
      s.modSlot k (fun x =>
        let x := { x with pos := x.pos + 1 }
        let first := 2 ^ 63 + 64 * i
        if psn || u.1.1 != v.1.1 then
          { x with outCount := x.outCount + 1, aux := if x.aux = 0 then first else min x.aux first }
        else x)) s
  else
    let out := leAt d 8 8 / 64
    let srcs := (List.range (leAt d 0 1)).map (fun i => leAt d (64 + 8 * i) 8 / 64)
    let bad := s.free
    let badLine := if res = 2 then ix[bad.1 % ix.length]? else none
    let s := if res = 2 then bad.2.event .nmResidue h else s
    ix.foldl (fun s i =>
      if s.opStopped k then s
      else
        let v := srcs.foldl (fun (a : List (List Byte) × Bool × State) l =>
          let q := a.2.2.nearLine k (l + i)
          (a.1 ++ [q.1.1], a.2.1 || q.1.2, q.2)) (([] : List (List Byte)), false, s)
        let y := mreduceLine (leAt d 1 1) (leAt d 2 1) x.rmode x.satFp8 v.2.2.freeCtr v.1
        ({ v.2.2 with freeCtr := y.2 }).nearWrite k (out + i) y.1 (v.2.1 || badLine == some i)) s

/-- Has a home an engine free for an operation: its two engines each run one operation at a time (R190). -/
def State.engineFree (s : State) (k h : Nat) : Bool :=
  decide ((s.rgf.slots.filter (fun e => e.1 != k && e.2.isOpen && !e.2.ending && e.2.nearRun.contains h)).length < 2)

/-- The journal entry of a home's share of an MREDUCE ends, in the journal of the adders that took it up (R369). -/
def State.adderEnd (s : State) (opid h : Nat) : State :=
  [h, h ^^^ 1].foldl (fun s a => s.journalMap (48 + a) (fun e => e.opid == opid && e.home == h && e.tEnd == 0)
    (fun e => { e with tEnd := s.now })) s

/-- A home's share is done: its engine is free, and the operation ends with its last share. -/
def State.nearDone (s : State) (k opc h : Nat) : State :=
  let s := if opc = 0x13 then s.adderEnd (s.slot k).opid h else s
  s.modSlot k (fun x =>
    let rest := x.nearLeft.filter (· != h)
    { x with nearLeft := rest, nearRun := x.nearRun.filter (· != h), nearRes := 0,
             left := if rest = [] then 0 else x.left, ending := x.ending || decide (rest = []) })

/-- Each home that has a share left takes it up where an engine of it is free; a share is done at once where every input
line is at hand, else the engine holds it and the lines are asked for (R190, R210, R220). -/
def State.nearGo (s : State) (k : Nat) : State :=
  (s.slot k).nearLeft.foldl (fun s h =>
    let x := s.slot k
    if x.ending || !(x.nearRun.contains h || s.engineFree k h) then s
    else
      let s := s.modSlot k (fun x => { x with nearRun := if x.nearRun.contains h then x.nearRun else x.nearRun ++ [h] })
      let id := slotAgentId k
      let r := s.engTry (slotOrg k) id (s.agentSub id) 5 (fun s => s.nearShare k x.opc x.nearRes h)
      if r.1 then r.2.nearDone k x.opc h else r.2) s

/-- The pages that a home's share of a range covers: from its first to its last (R357, R369). -/
def State.homePages (s : State) (r : Rng) (h : Nat) : Nat × Nat :=
  let ps := ((List.range r.pages.2).map (r.pages.1 + ·)).filter (fun pg => s.homeOfPage pg == h)
  (ps.headD 0, if ps.isEmpty then 0 else ps.getLastD 0 + 1 - ps.headD 0)

/-- Start FILL, COPY, COMPARE or MREDUCE (R190, R276). -/
def State.runNear (s : State) (k opc : Nat) (res : Nat) : State :=
  let d := (s.slot k).descBytes 128
  let p := nearPlan opc d
  let st := s.planStatus p
  if st ≠ stOK then s.opRefuse k st
  else
    let homes := s.nearHomes p.nearRng
    let touched := ((p.outs ++ p.ins).flatMap s.nearHomes).dedup
    if opc = 0x13 ∧ touched.any (fun h => (s.adderOf h).isNone) then s.opRefuse k stSTATE
    else
      let s := s.modSlot k (fun x => { x with parts := homes.length, tot := p.tot, left := 1, nearLeft := homes, nearRes := residueFind res })
      let s := if opc = 0x13 then
          homes.foldl (fun s h =>
            let pgs := s.homePages p.nearRng h
            match s.adderOf h with
            | some a =>
              s.journalAdd (48 + a)
                { num := 0, opid := (s.slot k).opid, tStart := s.now, tEnd := 0, r0 := pgs.1, n0 := pgs.2, r1 := 0, n1 := 0,
                  stride32 := false, multi := false, slot := 0, dest := slotAgentId k, list := [], home := h }
            | none => s) s
        else s
      s.nearGo k

/-- The shares of MREDUCE that the adders of a complex work on stop, and nothing more of them is written (R359, R369). -/
def State.addersStop (s : State) (a : Nat) : State :=
  let run := s.rgf.slots.flatMap (fun e =>
    if e.2.isOpen && e.2.opc == 0x13 && !e.2.ending then (e.2.nearRun.filter (fun h => s.adderOf h == some a)).map (fun h => (e.1, h))
    else [])
  run.foldl (fun s e =>
    (s.engDropReqs (fun r => r.org == slotOrg e.1 && r.seq == e.2 && !isRead (mOpc r.msg))).nearDone e.1 0x13 e.2) s

/-- The shares of a near-memory operation that waited for an engine or for lines go on. -/
def State.nearResume (s : State) (k : Nat) : State :=
  let x := s.slot k
  if 0x10 ≤ x.opc ∧ x.isOpen ∧ !x.ending then s.nearGo k else s

end Sys2Proof.Machine
end

