-- ==== Sys2Proof/Machine/Launch.lean ====
section
/-! DEFINITION. Operations from launch to completion (R251 to R265, R307, R317): the launch and abort words,
parts on the dies, timeouts and the completion record. -/

namespace Sys2Proof.Machine

/-! ### Launch (R252, R253) -/

/-- Is an operation code defined (Table 10.5). -/
def opcDefined (o : Nat) : Bool := decide (1 ≤ o ∧ o ≤ 8) || decide (0x10 ≤ o ∧ o ≤ 0x13)

/-- DLINES an operation's descriptor has (R274). -/
def dlinesOf (o : Nat) : Nat := if o = 2 ∨ o = 3 ∨ o = 4 ∨ o = 0x13 then 1 else 0

/-- Does an operation run on RGF dies as parts (R264). -/
def partOpc (o : Nat) : Bool := decide (2 ≤ o ∧ o ≤ 6)

/-- Check 4 of R253. -/
def State.launchFits (s : State) (k opc : Nat) (nosplit : Bool) : Bool :=
  if opc = 1 then
    let tag := redTag ((s.slot k).descBytes 64)
    decide (s.rgf.colls.length < 1024) || (s.collAt tag).isSome || s.rgf.closed.contains tag
  else if partOpc opc then
    let p := (s.planOf k opc).1
    if s.planStatus p = stOK then s.launchRoom (s.agentMask (slotAgentId k)) (s.partCount p nosplit) else true
  else true

/-- The `n` parts of an operation over its split axis (R262), each with its own work estimate (R261). An axis that `n` does not
divide is cut at floor(i × axis ÷ n), so that a part of a short axis may have no row of it (DESIGN CHOICE, log entry 100). -/
def partsOf (k opc n : Nat) (p : Plan) : List Part :=
  (List.range n).map (fun i =>
    let lo := if n = 1 then 0 else p.axis * i / n
    let hi := if n = 1 then p.axis else p.axis * (i + 1) / n
    { key := k, ix := i, opc := opc, lo := lo, hi := hi, work := p.share lo hi, place := 0, running := false, worked := false })

/-- Start an operation of RGF dies: its checks, its parts and their places (R262, R263, R276). Where the index-list words of a
GATHER are not at hand, they are asked for, and the operation starts once they have come (R258, R283). -/
def State.startParts (s : State) (k opc : Nat) : State :=
  let id := slotAgentId k
  let r := s.engTry (slotOrg k) id (s.agentSub id) 4 (fun s => (s.planRead k opc).2)
  if !r.1 then r.2
  else
    let p := (s.planOf k opc).1
    let s := r.2
    let st := s.planStatus p
    if st ≠ stOK then s.opRefuse k st
    else
      let n := s.partCount p (s.slot k).nosplit
      let s := s.modSlot k (fun x => { x with parts := n, left := n, tot := p.tot })
      (partsOf k opc n p).foldl (fun s x => s.placePart x) s

/-- A GATHER that waited for its index-list words starts. -/
def State.partsResume (s : State) (k : Nat) : State :=
  let x := s.slot k
  if x.opc = 2 ∧ x.isOpen ∧ !x.ending ∧ x.left = 0 then s.startParts k 2 else s

/-- The fields of a launch word (Table 10.5). -/
abbrev lwOpc (w : Nat) : Nat := bits w 56 8
abbrev lwDlines (w : Nat) : Nat := bits w 52 4
abbrev lwTmo (w : Nat) : Nat := bits w 32 16
abbrev lwLcnt (w : Nat) : Nat := bits w 16 16
abbrev lwNosplit (w : Nat) : Bool := bit w 0

/-- The first check of R253 that fails. -/
def State.launchCheck (s : State) (k w : Nat) : Option Nat :=
  let x := s.slot k
  if bits w 48 4 ≠ 0 ∨ bits w 1 15 ≠ 0 ∨ !opcDefined (lwOpc w) then some stREFUSED
  else if x.isOpen then some stSTATE
  else if lwLcnt w ≠ (x.lcnt + 1) % 65536 then some stREFUSED
  else if !s.launchFits k (lwOpc w) (lwNosplit w) then some stQUOTA
  else none

/-- A slot becomes OPEN (R253, R256, R307). -/
def State.openSlot (s : State) (k w : Nat) : State :=
  let tmo := if lwTmo w = 0 then s.rd .RGF_CTL_DEF_TMO else lwTmo w
  let t := { s with home := { s.home with arrived := s.home.arrived + 1 } }
  t.modSlot k (fun x =>
    { OpSlot.init with
      desc := x.desc
      isOpen := true
      lcnt := lwLcnt w
      opc := lwOpc w
      nosplit := lwNosplit w
      opid := k * 2 ^ 48 + lwLcnt w * 2 ^ 32 + s.epoch % 2 ^ 32
      tLaunch := s.now
      tmo := tmo
      deadline := s.epoch + tmo
      rmode := s.rd .RGF_ARITH_RMODE
      satFp8 := s.on .RGF_ARITH_SATFP8
      parts := 1
      mask := s.agentMask (slotAgentId k)
      arr := s.home.arrived + 1 })

/-- The operation of a slot just opened starts. -/
def State.startOp (s : State) (k w res : Nat) : State :=
  let o := lwOpc w
  if lwDlines w ≠ dlinesOf o then s.opRefuse k stREFUSED
  else if o = 1 then s.collLaunch k
  else if o = 7 ∨ o = 8 then s.ownStart k
  else if partOpc o then s.startParts k o
  else s.runNear k o res

/-- The answer of a launch word is on its way to the agent (R267). -/
def State.launchAnswer (s : State) (r : Req) (k : Nat) : State :=
  match r.org with
  | .port _ => s.modSlot k (fun x => { x with ackSeq := some r.seq })
  | _ => s

/-- A launch word is applied (R253). -/
def State.applyLaunch (s : State) (r : Req) (k : Nat) : State :=
  let w := leAt r.msg.payload 0 8
  match s.launchCheck k w with
  | some st => (if st = stQUOTA then s.bump .RGF_QUOTA_COUNT else s).finishCmp r st
  | none => ((((s.bump .RGF_LAUNCH_COUNT).openSlot k w).launchAnswer r k).finishCmp r stOK).startOp k w r.res

/-! ### Stopping an operation (R254, R255, R258) -/

/-- Every part of an operation stops: no further write is made, and it ends with an outcome. A mismatch not yet recomputed is
counted (R317). -/
def State.stopOp (s : State) (k rank st : Nat) : State :=
  let s := s.pendingAll k
  let opid := (s.slot k).opid
  let s := (List.range 36).foldl (fun s d => s.journalMap d (fun e => e.opid == opid && e.tEnd == 0 && !e.multi)
    (fun e => { e with tEnd := s.now })) s
  let s := (List.range 16).foldl (fun s h => s.journalMap (48 + h) (fun e => e.opid == opid && e.tEnd == 0)
    (fun e => { e with tEnd := s.now })) s
  ((s.dropParts k).engDrop (slotOrg k)).opEnd k rank st

/-- Abort the operation of an OPEN slot: it ends FLUSHED (R254). A contributor of a collective is withdrawn
(R271). -/
def State.abortOp (s : State) (k : Nat) : State :=
  if !(s.slot k).isOpen ∨ (s.slot k).rank = 7 then s
  else
    let s := s.bump .RGF_ABORT_COUNT
    match s.collOf k with
    | some c => (s.collSlotEnd c k 7 stFLUSHED false).collLeave k
    | none => s.stopOp k 7 stFLUSHED

/-- An agent's binding ends: every OPEN slot is aborted (R255). -/
def State.abortAll (s : State) (id : Nat) : State :=
  (List.range 16).foldl (fun s n => s.abortOp (slotKey id n)) s

/-- A new binding starts with every slot not OPEN, LCNT 0 and the completion record zero (R255). -/
def State.freshSlots (s : State) (id : Nat) : State :=
  (List.range 16).foldl (fun s n => (s.modSlot (slotKey id n) (fun x => { OpSlot.init with desc := x.desc })).collDone
    (slotKey id n)) s

/-- An abort word is stored (R254). -/
def State.applyAbort (s : State) (r : Req) (k : Nat) : State :=
  let w := leAt r.msg.payload 0 8
  if w / 65536 ≠ 0 then s.finishCmp r stREFUSED
  else
    let s := s.finishCmp r stOK
    if (s.slot k).isOpen ∧ (s.slot k).lcnt = w then s.abortOp k else s

/-! ### Parts (R250, R317, R365) -/

/-- What goes wrong with a part, from what its checks find: the repeated mismatch lies in a row of its share that a free value
chooses. -/
def harmOf (x : Part) (row : Nat) : Harm :=
  { row := if x.res = 2 then some (x.lo + row % (x.hi - x.lo)) else none, all := x.pm == 3 }

/-- A contribution line reaches its chunk's owner, whose reduce unit checks its additions (R269, R315, R317). -/
def State.contribute (s : State) (r : Req) (tag rank res : Nat) : State :=
  match s.contribLine r tag rank res with
  | (some d, s) => s.residueFound d (residueFind res)
  | (none, s) => s

/-- An owner die grants a chunk an accumulator; the held lines of the chunk proceed (R269). -/
def State.grantAcc (s : State) (tag i : Nat) : State :=
  match s.collAt tag with
  | none => s
  | some c =>
    let mine := c.held.filter (fun h => h.chunk == i)
    if mine.isEmpty || c.ended.isSome || s.chunkBusy tag i || (!(c.chunk i).granted && !s.accRoom c i) then s
    else
      let s := s.updColl tag (fun c => { c with held := c.held.filter (fun h => h.chunk != i) })
      mine.foldl (fun s h =>
        match c.joins.find? (fun j => j.2.1 == h.req.src) with
        | some j => s.contribute h.req tag j.1 h.req.res
        | none => s.contribOk tag i h.req) s

/-- What the digests of a pair find in a step: where they differ, the arbiter chosen as under R352 decides; with no die free to
arbitrate, no two digests agree (R365; DESIGN CHOICE, log entry 103). -/
def State.pairFind (s : State) (d pm : Nat) : Nat × State :=
  match s.partner d with
  | none => (0, s)
  | some q =>
    if pm = 0 then (0, s)
    else
      match s.pickChecker [d, q] with
      | some a => (pm, { s with scn := { s.scn with lastDie := a } })
      | none => (3, s)

/-- A disagreement of a pair is counted, and the die in the minority gains its score (R363, R365). -/
def State.pairScore (s : State) (d pm : Nat) : State :=
  match s.partner d with
  | none => s
  | some q =>
    let s := if 1 ≤ pm then s.bump .SCN_PAIR_MIS_COUNT else s
    if pm = 1 then s.addScore d (s.rd .SCN_W1_W_PAIRMIS)
    else if pm = 2 then s.addScore q (s.rd .SCN_W1_W_PAIRMIS)
    else s

/-- A part does its work, and the checks of its die are counted (R317, R363, R365). -/
def State.doWork (s : State) (d : Nat) (x : Part) : State :=
  let row := s.free
  let pf := row.2.pairFind d x.pm
  let s := pf.2.workPart d x (harmOf { x with pm := pf.1 } row.1)
  let s := s.setDieq d ((s.dieq d).map (fun y => if y = x then { x with worked := true } else y))
  let p := (s.planOf x.key x.opc).1
  let s := s.bumpPair .RGF_MAC_BUSY_COUNT d (p.load.macCycles (x.hi - x.lo) (max 1 p.axis))
  (s.residueFound d x.res).pairScore d pf.1

/-- May a die start a part now: it runs, no scan is due or runs on it (R354, R356). -/
def State.mayStart (s : State) (d : Nat) : Bool := s.dieRuns d && !(s.scan d).due && !s.engaged d

/-- May a die start a part now, and its partner with it, which runs the part too (R365). -/
def State.pairMayStart (s : State) (d : Nat) : Bool :=
  s.mayStart d && (match s.partner d with
    | some q => s.mayStart q
    | none => true)

/-- PART_START (R250): the sequencer starts the oldest queued part whose units are free. -/
def State.doPartStart (s : State) (d res pm : Nat) : State :=
  (
    if 36 ≤ d ∨ !s.pairMayStart d then s
    else
      match startable (s.dieq d) with
      | none => s
      | some x =>
        let y := { x with running := true, pm := if (s.partner d).isSome then min pm 3 else 0
                          res := if residueCovers x.opc ∧ x.lo < x.hi then residueFind res else 0 }
        let s := s.setDieq d ((s.dieq d).map (fun z => if z = x then y else z))
        let p := s.planOf x.key x.opc
        let s := p.2.journalPart d y p.1
        let s := match s.partner d with
          | some q => s.journalPart q y p.1
          | none => s
        let o := slotOrg x.key
        let id := slotAgentId x.key
        (s.engTry o id (s.agentSub id) 4 (fun s => s.doWork d y)).2)

/-- The end of a part whose work is done: it is counted, journalled, and leaves its die's queue (R250, R364). -/
def State.partEnds (s : State) (d : Nat) (x : Part) : State :=
  let s := s.setDieq d ((s.dieq d).filter (fun y => !(y.key == x.key && y.ix == x.ix && y.running)))
  let s := s.bumpPair .RGF_PARTS_RUN_COUNT d 1
  let opid := (s.slot x.key).opid
  let s := s.journalEnd d opid x.place
  let s := match s.partner d with
    | some q => s.journalEnd q opid x.place
    | none => s
  s.partOver x.key

/-- PART_END (R250): a running part whose work is done ends. -/
def State.doPartEnd (s : State) (d : Nat) : State :=
  (
    if 36 ≤ d ∨ !s.dieRuns d ∨ s.engaged d then s
    else
      match (s.dieq d).find? (fun x => x.running && (x.worked || !s.engWaiting (slotOrg x.key))) with
      | none => s
      | some x =>
        let id := slotAgentId x.key
        let r := if x.worked then (true, s) else s.engTry (slotOrg x.key) id (s.agentSub id) 4 (fun s => s.doWork d x)
        if r.1 then r.2.partEnds d x else r.2)

/-- LAUNCH_QUEUE_PLACE (R263): the parts of the launch queue are placed while a queue has room. -/
def State.doLaunchQueuePlace (s : State) : State := s.placeWaiting

/-! ### The end of an operation -/

/-- Is every write of a slot's operation performed: those of its parts, and of the collective it
contributes to unless it was withdrawn (R257, R271). -/
def State.opQuiet (s : State) (k : Nat) : Bool :=
  s.engQuiet (slotOrg k) && (match s.collOf k with | some c => s.engQuiet (.coll c.tag) | none => true)

/-- COMPLETION_RECORD (R257): once an operation has ended and its writes are performed, its record is written
and the slot ceases to be OPEN. -/
def State.doCompletionRecord (s : State) (id slot : Nat) : State :=
  (
    let k := slotKey (id % 4096) (slot % 16)
    let s := if s.contained then s else ((s.partsResume k).nearResume k).ownResume k
    let s := s.xferOver k
    let x := s.slot k
    if x.isOpen ∧ x.ending ∧ x.left = 0 ∧ s.opQuiet k then
      let s := s.taintedOp (id % 4096) x
      ((s.modSlot k (fun y => { y with isOpen := false, ending := false, tDone := s.now, crec := x.record s.now })).engForget
        (slotOrg k)).collDone k
    else s)

/-- OPERATION_TIMEOUT (R258, R271, R385): the epoch count reaches an operation's deadline. One whose writes are all performed
has only its record to come, and one already stopped stays so. -/
def State.doOperationTimeout (s : State) (id slot : Nat) : State :=
  (
    let k := slotKey (id % 4096) (slot % 16)
    let x := s.slot k
    if !x.isOpen ∨ s.contained ∨ s.epoch < x.deadline ∨ (x.ending ∧ (x.left = 0 ∧ s.opQuiet k ∨ 4 ≤ x.rank)) then s
    else
      match s.collOf k with
      | some c => s.collEnd c.tag 4 stTIMEOUT true
      | none => s.stopOp k 4 stTIMEOUT)

/-- ACCUMULATOR_GRANT (R269): an owner die grants a chunk its accumulator. -/
def State.doAccumulatorGrant (s : State) (tag chunk : Nat) : State :=
  (if s.contained then s else s.grantAcc tag chunk)

/-- CHUNK_EMITTED (R281): the result of a chunk is performed and its accumulator is freed. -/
def State.doChunkEmitted (s : State) (tag chunk : Nat) : State :=
  (
    if s.contained then s
    else
      match s.collAt tag with
      | none => s
      | some c =>
        let x := c.chunk chunk
        let d := s.dieOf (chunkSlot tag chunk)
        let pf := if x.writing && !x.issued then s.pairFind d x.pm else (x.pm, s)
        let t := (pf.2.updChunk tag chunk (fun x => { x with pm := pf.1 })).chunkEmit tag chunk
        let out (s : State) : Bool := (s.collAt tag).any (fun c => (c.chunk chunk).issued)
        if !x.issued && out t then t.pairScore d pf.1 else if x.issued || out t then t else s.chunkEmit tag chunk)

end Sys2Proof.Machine
end

