-- ==== Sys2Proof/Machine/Messages.lean ====
section
/-! DEFINITION. MSG (R59, R94, R143): policing, the receive areas (R172 to R174) and the way to an uplink
(R158, R159). -/

namespace Sys2Proof.Machine

/-! ### Policers (R143) -/

/-- Does a message of `cost` bytes pass a policer; it is then charged (R143). -/
def State.police (s : State) (k refill cost : Nat) : Bool × State :=
  if refill = unlimited then (true, s)
  else if (cost : Int) ≤ s.bucket k then (true, s.setBucket k (s.bucket k - cost))
  else (false, s)

/-- Police a MSG or a frame of a port. -/
def State.polMsg (s : State) (p cost : Nat) : Bool × State :=
  let r := s.police (polKey p) (s.tmA .TM_POL_MSG_REFILL p) cost
  if r.1 then r else (false, r.2.bump .TM_POL_DROP_COUNT p)

/-! ### Receive areas (R172 to R174) -/

/-- The home of an agent's block (R169). -/
def blockHome (id : Nat) : Nat := id % 16

/-- Lines of a message's record (R172). -/
def RxMsg.lines (m : RxMsg) : Nat := 1 + cdiv (mLen m.msg) 64

/-- Free lines of an agent's receive area. -/
def Agent.rxaFree (a : Agent) : Nat :=
  2 ^ (a.rxaLog2 - 6) - ((a.rxaHead + 2 ^ 32 - a.rxaTail) % 2 ^ 32) - (a.writing.map RxMsg.lines).sum

/-- The header line of a record (Table 7.4). -/
def RxMsg.header (m : RxMsg) : List Byte :=
  leBytes 16 m.msg.hdr.toNat ++ leBytes 8 m.time ++ leBytes 2 m.srcSw ++ leBytes 2 m.lines ++ leBytes 36 0

/-- Write line `n` of an agent's ring. -/
def State.rxWrite (s : State) (id sub n : Nat) (bs : List Byte) : State :=
  let a := s.agent id
  let l := a.rxaBase / 64 + n % 2 ^ (a.rxaLog2 - 6)
  s.engSend (engReq (.rxa id) id 0 sub opNWR 6 (64 * l) 6 [] (slice bs 0 64))

/-- The request a local MSG belongs to. -/
def RxMsg.req (m : RxMsg) : Option Req :=
  m.fromPort.map (fun p =>
    { org := .port p, src := mSrc m.msg, seq := mSeq m.msg, msg := m.msg, sub := m.sub, dep := none, hot := false,
      causes := [], win := none })

/-- A MSG ends with a CMP from the home of its destination's block (R59). -/
def State.msgAnswer (s : State) (id : Nat) (m : RxMsg) (st : Nat) : State :=
  match m.req with
  | some r => (s.markDone r).answerFrom (mcDie (blockHome id)) r { status := st }
  | none => s

/-- A message that does not fit, or finds no area (R172, R174). -/
def State.rxDrop (s : State) (id : Nat) (m : RxMsg) : State :=
  (s.updAgent id (fun a => { a with rxaDrop := (a.rxaDrop + 1) % 2 ^ 64 })).msgAnswer id m stQUOTA

/-- The uplink record of a port (R436). -/
def State.uplOf (s : State) (p : Nat) : Option Upl := s.boot.image.upl.find? (fun u => u.port == p)

/-- Bytes in an uplink's receive queue of a priority (R162). -/
def State.rxUsed (s : State) (p pcp : Nat) : Nat := (s.port p).rxBytes.getD pcp 0

/-- Is a priority of an uplink one that PFC serves. -/
def State.pfcOn (s : State) (p pcp : Nat) : Bool := (s.rd .PRT_UPL_CTL_PFC_EN p).testBit pcp

/-- The receive queue of a priority grows: XOFF goes out when it reaches the threshold (R162). -/
def State.rxFill (s : State) (p pcp n : Nat) : State :=
  let v := s.rxUsed p pcp + n
  let s := s.updPort p (fun x => { x with rxBytes := x.rxBytes.set pcp v })
  let xoff := ((s.uplOf p).map (fun u => 1024 * u.xoff.getD pcp 0)).getD 0
  if s.pfcOn p pcp && decide (xoff ≤ v) && !(s.port p).xoff.contains pcp then
    (s.updPort p (fun x => { x with xoff := x.xoff ++ [pcp] })).emit (.pfc p pcp 0xFFFF)
  else s

/-- A frame's bytes leave the receive queue of its uplink; XON goes out when the queue falls below its threshold
(R162). -/
def State.rxDrain (s : State) (m : RxMsg) : State :=
  match m.uplink with
  | none => s
  | some u =>
    let p := u / 8
    let pcp := u % 8
    let v := s.rxUsed p pcp - (40 + mLen m.msg)
    let s := s.updPort p (fun x => { x with rxBytes := x.rxBytes.set pcp v })
    let xon := ((s.uplOf p).map (fun u => 1024 * u.xon.getD pcp 0)).getD 0
    if (s.port p).xoff.contains pcp && decide (v < xon) then
      (s.updPort p (fun x => { x with xoff := x.xoff.filter (· != pcp) })).emit (.pfc p pcp 0)
    else s

/-- A message's place in the ring follows those being written, and its payload lines are issued (R173). -/
def State.rxPlace (s : State) (id : Nat) (m : RxMsg) : State :=
  let a := s.agent id
  let base := a.rxaHead + (a.writing.map RxMsg.lines).sum
  let m := { m with base := base, hdrSent := false }
  let s := s.updAgent id (fun a => { a with writing := a.writing ++ [m] })
  (List.range (m.lines - 1)).foldl (fun s i =>
    s.rxWrite id m.sub (base + 1 + i) (slice (m.msg.payload.take (mLen m.msg)) (64 * i) 64)) s

/-- A message reaches the home of its destination's block (R172). It is held while a store to RXA_BASE
waits (R174). -/
def State.rxArrive (s : State) (id : Nat) (m : RxMsg) : State :=
  let a := s.agent id
  if a.rxaPend.isSome then s.updAgent id (fun a => { a with held := a.held ++ [m] })
  else if a.rxaLog2 = 0 ∨ a.rxaFree < m.lines then (s.rxDrain m).rxDrop id m
  else s.rxPlace id m

/-- Messages of a receive area that pass a test are taken away before they are posted; those behind them are written
anew, closed up (R80, R118). -/
def State.rxDiscard (s : State) (id : Nat) (here : RxMsg → Bool) : State :=
  let a := s.agent id
  let s := (a.held ++ a.writing).foldl (fun s m => if here m then s.rxDrain m else s) s
  let s := s.updAgent id (fun a => { a with held := a.held.filter (fun m => !here m) })
  if !a.writing.any here then s
  else
    let s := (s.engDrop (.rxa id)).updAgent id (fun a => { a with writing := [] })
    (a.writing.filter (fun m => !here m)).foldl (fun s m => s.rxPlace id m) s

/-- No store to RXA_BASE waits any more: the messages that were held go to the ring (R174). -/
def State.rxRelease (s : State) (id : Nat) : State :=
  let hs := (s.agent id).held
  let s := s.updAgent id (fun a => { a with rxaPend := none, held := [] })
  hs.foldl (fun s m => s.rxArrive id m) s

/-- RXA_BASE, HEAD and TAIL take a new ring (R172, R174). -/
def State.rxSetBase (s : State) (id base log2 : Nat) : State :=
  (s.updAgent id (fun a => { a with rxaBase := base, rxaLog2 := log2, rxaHead := 0, rxaTail := 0 })).rxRelease id

/-- Is the value of a store to RXA_BASE one that R172 accepts: a ring wholly inside one ACTIVE extent, or
none. -/
def State.rxBaseOk (s : State) (v : Nat) : Bool :=
  let lg := v % 32
  v / 2 ^ 48 == 0 && bits v 5 7 == 0 &&
  (lg == 0 || (decide (12 ≤ lg ∧ lg ≤ 30) && s.inActive (v / 4096 * 4096) (2 ^ lg) (fun _ => true)))

/-- An extent leaves ACTIVE: the receive areas in it are taken away, and the messages being written into
them do not fit any more (R174). -/
def State.rxExtentGone (s : State) (lo len : Nat) : State :=
  (s.agents.map (·.1)).foldl (fun s id =>
    let a := s.agent id
    if a.rxaLog2 = 0 ∨ a.rxaBase < lo ∨ lo + len ≤ a.rxaBase then s
    else
      let s := s.engDrop (.rxa id)
      let s := s.updAgent id (fun a => { a with rxaBase := 0, rxaLog2 := 0, rxaHead := 0, rxaTail := 0, writing := [] })
      a.writing.foldl (fun s m => (s.rxDrain m).rxDrop id m) s) s

/-- RXA_BASE_APPLY (R174): a store to RXA_BASE that waited is applied once the current ring's messages are
posted. -/
def State.doRxaBaseApply (s : State) (id : Nat) : State :=
  (
    let id := id % 4096
    let a := s.agent id
    match a.rxaPend with
    | none => s
    | some r =>
      if !a.writing.isEmpty then s
      else
        let v := leAt r.msg.payload 0 8
        if s.rxBaseOk v then
          (s.finishCmp r stOK).rxSetBase id (if v % 32 = 0 then 0 else v / 4096 * 4096) (v % 32)
        else (s.finishCmp r stREFUSED).rxRelease id)

/-- RECEIVE_AREA_POST (R173): once a message's payload lines are performed its header line is written, and
once that is performed RXA_HEAD advances. -/
def State.doReceiveAreaPost (s : State) (id : Nat) : State :=
  (
    let id := id % 4096
    match (s.agent id).writing with
    | [] => s
    | m :: t =>
      if !s.engQuiet (.rxa id) then s
      else
        let s := if m.hdrSent then s else s.rxWrite id m.sub m.base m.header
        if s.engQuiet (.rxa id) then
          let s := s.updAgent id (fun a => { a with writing := t, rxaHead := (a.rxaHead + m.lines) % 2 ^ 32 })
          (s.rxDrain m).msgAnswer id m stOK
        else s.updAgent id (fun a => { a with writing := { m with hdrSent := true } :: t }))

/-! ### The way to an uplink (R158, R159) -/

/-- Uplinks in UP, in ascending port order. -/
def State.uplinksUp (s : State) : List Nat :=
  (List.range 320).filter (fun p => s.rd .PRT_CFG_MODE p == 3 && s.rd .PRT_LINK_STAT_LSTATE p == 2)

/-- The uplink of a destination switch and MPRI (R159). -/
def State.uplinkFor (s : State) (dsw mpri : Nat) : Option Nat :=
  let us := s.uplinksUp
  us[(8 * dsw + mpri) % us.length]?

/-- The image's PCP for an MPRI. -/
def State.pcpOf (s : State) (mpri : Nat) : Nat := s.boot.image.pcp.getD mpri 0

/-- One bit step of the reflected CRC-32 of 802.3. -/
def crc32Bit (c : Nat) : Nat := if c % 2 = 1 then (c / 2) ^^^ 0xEDB88320 else c / 2

/-- The frame check sequence of 802.3. -/
def fcs (bs : List Byte) : Nat :=
  (bs.foldl (fun c (b : Byte) =>
    crc32Bit (crc32Bit (crc32Bit (crc32Bit (crc32Bit (crc32Bit (crc32Bit (crc32Bit (c ^^^ b.toNat)))))))))
    0xFFFFFFFF) ^^^ 0xFFFFFFFF

/-- Big-endian bytes, as 802.3 orders a tag. -/
def beBytes (n v : Nat) : List Byte := (leBytes n v).reverse

/-- The uplink frame of a MSG (Table 6.3). -/
def State.frameOf (s : State) (p : Nat) (m : Msg) : List Byte :=
  let e := (s.boot.image.sw.find? (fun e => e.1 == mDsw m)).getD (0, 0, List.replicate 6 0)
  let u := (s.boot.image.upl.find? (fun u => u.port == p)).map (·.mac)
  let body := slice e.2.2 0 6 ++ slice (u.getD []) 0 6 ++ beBytes 2 0x8100
    ++ beBytes 2 (s.pcpOf (mMpri m) * 8192 + e.2.1 % 4096) ++ beBytes 2 (s.rd .PRT_UPL_CTL_ETYPE p)
    ++ leBytes 1 1 ++ leBytes 1 0 ++ leBytes 2 s.boot.image.switchNo ++ leBytes 2 (mDsw m)
    ++ leBytes 16 m.hdr.toNat ++ slice m.payload 0 (mLen m)
  let body := body ++ List.replicate (60 - body.length) 0
  body ++ leBytes 4 (fcs body)

/-- A MSG that has passed ingress goes its way: to the receive area of its destination, or to an uplink's
egress (R59, R159). -/
def State.msgRoute (s : State) (r : Req) : State :=
  let m := r.msg
  let p := match r.org with | .port p => p | _ => 0
  if mDsw m = 0 then
    if s.msgDestExists m then
      s.rxArrive (mDst m)
        { msg := m, fromPort := some p, uplink := none, srcSw := 0, time := s.now, base := 0, sub := r.sub, hdrSent := false }
    else (s.markDone r).answerFrom (mcDie (blockHome (mDst m))) r { status := stUNMAPPED }
  else
    match s.uplinkFor (mDsw m) (mMpri m) with
    | some u => s.send (s.portDie p) u 6 r.sub m r.ing
    | none => ((s.ingPlaced r.ing).markDone r).answerFrom (s.portDie p) r { status := stFLUSHED }

end Sys2Proof.Machine
end

