-- ==== Sys2Proof/Machine/Window.lean ====
section
/-! DEFINITION. The control window (R168 to R172, R216, R251, R362): what the words of an agent's block read
as and what a store to them does. -/

namespace Sys2Proof.Machine

/-! ### Loads -/

/-- The words of an agent's block: offset, bytes, the LD sizes allowed, and the value. -/
structure WinWord where
  off : Nat
  len : Nat
  sizes : List Nat
  bytes : List Byte
  deriving DecidableEq, Repr

/-- The lease word as it loads (Table 7.3). -/
def Agent.leaseWord (a : Agent) : Nat := b2n a.valid * 2 ^ 63 + b2n a.lost * 2 ^ 62 + a.expiry % 2 ^ 48

/-- AGENT_INFO (Table 7.2). -/
def State.agentInfo (s : State) (id : Nat) : Nat :=
  match s.portOfAgent id with
  | some p => 2 ^ 63 + s.boot.image.switchNo * 2 ^ 32 + p * 2 ^ 16 + id
  | none => s.boot.image.switchNo * 2 ^ 32 + id

/-- The first coherence word (Table 9.2). -/
def State.cohWord (s : State) (id : Nat) : Nat :=
  ((List.range 16).map (fun g =>
    (if s.cgState g = 2 then 2 ^ (32 + g) else 0) + (if (s.memberSlot g id).isSome then 2 ^ g else 0))).sum

/-- Regions an agent subscribes to. -/
def State.subsCount (s : State) (id : Nat) : Nat := (s.coh.regions.filter (fun e => e.2.subs.contains id)).length

/-- The words of an operation slot (Table 10.4), at their offsets in the slot. -/
def OpSlot.words (x : OpSlot) : List WinWord :=
  [ ⟨0x000, 0x400, [8, 16, 32, 64], x.descBytes 1024⟩,
    ⟨0x410, 8, [8], leBytes 8 (b2n x.isOpen * 2 ^ 63 + x.lcnt * 2 ^ 32)⟩,
    ⟨0x440, 64, [8, 16, 32, 64], x.crec⟩,
    ⟨0x480, 64, [8, 16, 32, 64], x.bitmap⟩,
    ⟨0x4C0, 8, [8], leBytes 8 x.pos⟩,
    ⟨0x4C8, 8, [8], leBytes 8 x.tot⟩,
    ⟨0x4D0, 4, [4], leBytes 4 (pct x.pos x.tot)⟩ ]

/-- The other words of an agent's block (Tables 7.2 and 9.2, R362). -/
def State.blockWords (s : State) (id : Nat) : List WinWord :=
  let a := s.agent id
  let any := [1, 2, 4, 8]
  [ ⟨0x8000, 8, any, leBytes 8 a.leaseWord⟩, ⟨0x8008, 8, any, leBytes 8 (s.agentInfo id)⟩,
    ⟨0x8100, 1, [1], [0]⟩,
    ⟨0x8200, 8, any, leBytes 8 (a.rxaBase + a.rxaLog2)⟩, ⟨0x8208, 8, any, leBytes 8 a.rxaHead⟩,
    ⟨0x8210, 8, any, leBytes 8 a.rxaTail⟩, ⟨0x8218, 8, any, leBytes 8 a.rxaDrop⟩,
    ⟨0x8300, 0x50, [4, 8],
      leBytes 8 (s.cohWord id) ++ (List.range 16).flatMap (fun g => leBytes 4 (s.rd .DIR_CG_GEN_GEN g))
        ++ leBytes 8 (s.subsCount id)⟩,
    ⟨0x8380, 8, [8], leBytes 8 a.notes⟩, ⟨0x8388, 8, [8], leBytes 8 a.noteOpid⟩,
    ⟨0x8390, 8, [8], leBytes 8 a.noteTime⟩, ⟨0x8398, 8, [8], leBytes 8 a.tainted⟩ ]

/-- Read `n` bytes at an offset of an agent's block, where the tables allow it (R169). -/
def State.winRead (s : State) (id off n : Nat) : Option (List Byte) :=
  let o := if off < 0x8000 then off % 0x800 else off
  let ws := if off < 0x8000 then (s.slot (slotKey id (off / 0x800))).words else s.blockWords id
  match ws.find? (fun w => decide (w.off ≤ o ∧ o + n ≤ w.off + w.len)) with
  | some w => if w.sizes.contains n then some (slice w.bytes (o - w.off) n) else none
  | none => none

/-! ### Stores -/

/-- A store to the lease word (R171, R179, R180). -/
def State.storeLease (s : State) (r : Req) (id : Nat) : State :=
  let v := leAt r.msg.payload 0 8
  let t := v % 32
  if v / 32 ≠ 0 ∨ !(t == 0 || (decide (s.rd .POOL_LEASE_CFG_MIN_LOG2 ≤ t ∧ t ≤ s.rd .POOL_LEASE_CFG_MAX_LOG2))) then
    s.finishCmp r stREFUSED
  else
    let lost := (s.agent id).lost
    let e := s.epoch + 2 ^ (if t = 0 then s.rd .POOL_LEASE_CFG_DEF_LOG2 else t)
    let s := s.updAgent id (fun a => { a with valid := true, lost := false, expiry := e })
    s.finishCmp r (if lost then stLEASE_GONE else stOK)

/-- A store to RXA_BASE (R172, R174): checked, and applied once no message is being written. With LOG2 = 0 the base bits are
kept as 0 (DESIGN CHOICE, log entry 105). -/
def State.storeRxaBase (s : State) (r : Req) (id : Nat) : State :=
  let v := leAt r.msg.payload 0 8
  if !s.rxBaseOk v then s.finishCmp r stREFUSED
  else if (s.agent id).writing.isEmpty ∧ (s.agent id).rxaPend.isNone then
    (s.finishCmp r stOK).rxSetBase id (if v % 32 = 0 then 0 else v / 4096 * 4096) (v % 32)
  else s.updAgent id (fun a => { a with rxaPend := some r })

/-- A store to RXA_TAIL (R172). -/
def State.storeRxaTail (s : State) (r : Req) (id : Nat) : State :=
  let v := leAt r.msg.payload 0 8
  let a := s.agent id
  if v / 2 ^ 32 = 0 ∧ (v + 2 ^ 32 - a.rxaTail) % 2 ^ 32 ≤ (a.rxaHead + 2 ^ 32 - a.rxaTail) % 2 ^ 32 then
    (s.updAgent id (fun a => { a with rxaTail := v })).finishCmp r stOK
  else s.finishCmp r stREFUSED

/-- A store of descriptor bytes: refused while the slot is OPEN (Table 10.4). -/
def State.storeDesc (s : State) (r : Req) (k o n : Nat) : State :=
  if (s.slot k).isOpen then s.finishCmp r stREFUSED
  else (s.modSlot k (fun x => { x with desc := memWrite x.desc o (slice r.msg.payload 0 n) })).finishCmp r stOK

/-- A store to the control window (Table 7.2, Table 10.4). An ST.REL of the allowed size is served as an ST (DESIGN CHOICE, log
entry 106). -/
def State.winStore (s : State) (r : Req) : State :=
  let id := winAgent (mAddr r.msg)
  let off := winOff (mAddr r.msg)
  let n := mSize r.msg
  if off < 0x8000 then
    let k := slotKey id (off / 0x800)
    let o := off % 0x800
    if o < 0x400 ∧ [8, 16, 32, 64].contains n then s.storeDesc r k o n
    else if o = 0x400 ∧ n = 8 then s.applyLaunch r k
    else if o = 0x408 ∧ n = 8 then s.applyAbort r k
    else s.finishCmp r stREFUSED
  else if off = 0x8000 ∧ n = 8 then s.storeLease r id
  else if off = 0x8100 ∧ n = 1 then s.finishCmp r stOK
  else if off = 0x8200 ∧ n = 8 then s.storeRxaBase r id
  else if off = 0x8210 ∧ n = 8 then s.storeRxaTail r id
  else s.finishCmp r stREFUSED

/-- An access to the control window at its home (R169). -/
def State.winAccess (s : State) (r : Req) : State :=
  let m := r.msg
  let o := mOpc m
  if o = opLD then
    match s.winRead (winAgent (mAddr m)) (winOff (mAddr m)) (mSize m) with
    | some bs =>
      let b := if mSize m = 64 then bs
        else List.replicate (mAddr m % 64) 0 ++ bs ++ List.replicate (64 - mAddr m % 64 - mSize m) 0
      s.finish r { status := stOK, data := some b }
    | none => s.finishCmp r stREFUSED
  else if o = opST ∨ o = opST_REL then s.winStore r
  else s.finishCmp r stREFUSED

/-- Is a store one that is applied as a release: an ST.REL, or a store to a launch word (R82, R85). -/
def isRelease (m : Msg) : Bool :=
  mOpc m == opST_REL ||
  (mOpc m == opST && inWindow (mAddr m) && decide (winOff (mAddr m) < 0x8000) && winOff (mAddr m) % 0x800 == 0x400)

end Sys2Proof.Machine
end

