-- ==== Sys2Proof/Machine/Caravan.lean ====
section
/-! DEFINITION. Caravan channels (R334 to R347): commands, descriptors, the movement of data, pause and
abort. -/

namespace Sys2Proof.Machine

/-! ### Channels -/

/-- Set a channel's record, with what CAR_HOLDCNT shows. -/
def State.setChan (s : State) (c : Nat) (h : Chan) : State :=
  ({ s with chans := tset Chan.init s.chans c h }).wr .CAR_HOLDCNT_BYTES h.hold.length c

/-- States of a channel (CAR_STAT.STATE). -/
abbrev carIDLE : Nat := 0
abbrev carRUN : Nat := 1
abbrev carPAUSING : Nat := 2
abbrev carPAUSED : Nat := 3
abbrev carABORTING : Nat := 4
abbrev carHALTED : Nat := 5

/-- State of a channel. -/
def State.carState (s : State) (c : Nat) : Nat := s.rd .CAR_STAT_STATE c

/-- The subscriber of a channel's traffic (R334). -/
def State.carSub (s : State) (c : Nat) : Nat :=
  match s.carAgent c with
  | some id => s.agentSub id
  | none => 1022

/-- The source ID a channel's requests carry. -/
def State.carSrc (s : State) (c : Nat) : Nat := (s.carAgent c).getD 0

/-- A channel changes state: bytes 16 to 31 of a bound channel's command line are rewritten (R335), and entering HALTED
sends the channel's vector (Table 21.7). -/
def State.setCarState (s : State) (c st : Nat) : State :=
  if s.carState c = st then s
  else
    let s := s.wr .CAR_STAT_STATE st c
    let s := if st = carHALTED then s.sendVector (64 + c) else s
    let a := s.rd .CAR_CMDADDR_ADDR c
    if s.on .CAR_CFG_AGV c ∧ s.inActive a 64 (fun x => !x.coh && !x.pub) then
      s.engSend (engReq .device (s.carSrc c) 0 (s.carSub c) opST 5 (a + 16) 4 []
        (leBytes 8 (st + 256 * s.rd .CAR_STAT_LASTST c) ++ leBytes 8 (s.rd .CAR_CUR_ADDR c)))
    else s

/-- A command without effect (R336). -/
def State.carIgn (s : State) (c : Nat) : State := s.raiseBits .CAR_STAT_CMD_IGN 1 c

/-- Start a descriptor: it is to be fetched. -/
def State.carFetchAt (s : State) (c a : Nat) : State := (s.setChan c Chan.init).wr .CAR_CUR_ADDR a c

/-! ### Commands (Table 14.1) -/

/-- A write of CAR_DNEXT, or SETD (R336). -/
def State.carDnext (s : State) (c a : Nat) : State :=
  if s.carState c = carIDLE ∨ s.carState c = carHALTED then s.wr .CAR_DNEXT_ADDR a c else s.carIgn c

/-- GO: not served outside ASSIGNED (R408), outside RUN (R518), nor in containment, where channels are aborted
(Table 16.4). -/
def State.carGo (s : State) (c : Nat) : State :=
  let st := s.carState c
  if !s.assigned || s.contained || !s.running then s.carIgn c
  else if st = carIDLE then
    if s.rd .CAR_DNEXT_ADDR c = 0 then s.carIgn c
    else (s.carFetchAt c (s.rd .CAR_DNEXT_ADDR c)).setCarState c carRUN
  else if st = carPAUSED then s.setCarState c carRUN
  else if st = carHALTED then (s.carFetchAt c (s.rd .CAR_DNEXT_ADDR c)).setCarState c carRUN
  else s.carIgn c

/-- PAUSE. -/
def State.carPause (s : State) (c : Nat) : State :=
  if s.carState c = carRUN then s.setCarState c carPAUSING else s.carIgn c

/-- ABORT. -/
def State.carAbort (s : State) (c : Nat) : State :=
  let st := s.carState c
  if st = carRUN ∨ st = carPAUSED then s.setCarState c carABORTING
  else if st = carPAUSING then s.setChan c { s.chan c with abortAfter := true }
  else if st = carHALTED then s.setCarState c carIDLE
  else s.carIgn c

/-- A command: SETD acts first, ABORT overrides PAUSE, and PAUSE overrides GO (R335). -/
def State.carCommand (s : State) (c : Nat) (go pause abort setd : Bool) (daddr : Nat) : State :=
  let s := if setd then s.carDnext c daddr else s
  if abort then s.carAbort c
  else if pause then s.carPause c
  else if go then s.carGo c
  else s

/-- ABORT of every channel that passes a test, as the device itself issues it (R346). -/
def State.carAbortAll (s : State) (ok : Nat → Bool) : State :=
  (List.range 64).foldl (fun s c => if ok c && s.carState c != carIDLE then s.carAbort c else s) s

/-- The channel whose command line a store of 16 bytes by the bound agent is (R335). -/
def State.carLine (s : State) (r : Req) : Option Nat :=
  if (mOpc r.msg = opST ∨ mOpc r.msg = opST_REL) ∧ mSizeF r.msg = 4 ∧ s.inActive (mAddr r.msg) 64 (fun x => !x.coh && !x.pub) then
    (List.range 64).find? (fun c =>
      s.carAgent c == some r.src && s.rd .CAR_CMDADDR_ADDR c == mAddr r.msg)
  else none

/-! ### Descriptors (R337, R338) -/

abbrev cdSrc (d : List Byte) : Nat := leAt d 0 8
abbrev cdDst (d : List Byte) : Nat := leAt d 8 8
abbrev cdLen (d : List Byte) : Nat := leAt d 16 4
abbrev cdSw (d : List Byte) : Nat := 2 ^ (leAt d 28 1 % 8)
abbrev cdDw (d : List Byte) : Nat := 2 ^ (leAt d 28 1 / 16 % 8)
abbrev cdSwap (d : List Byte) : Nat := leAt d 29 1
abbrev cdIrq (d : List Byte) : Bool := (leAt d 30 1).testBit 0
abbrev cdNext (d : List Byte) : Nat := leAt d 32 8
def cdSs (d : List Byte) : Nat := if leAt d 20 4 = 0 then cdSw d else leAt d 20 4
def cdDs (d : List Byte) : Nat := if leAt d 24 4 = 0 then cdDw d else leAt d 24 4

/-- The unit a swap mode exchanges within (Table 14.3). -/
def swapUnit (m : Nat) : Nat := if m = 1 then 2 else if m = 2 ∨ m = 4 then 4 else if m = 3 then 8 else 1

/-- The checks of R338. -/
def carCheck (d : List Byte) : Bool :=
  let w := leAt d 28 1
  let n := cdLen d
  let src : Rng := Rng.mk (cdSrc d) ((n / cdSw d - 1) * cdSs d + cdSw d)
  let dst : Rng := Rng.mk (cdDst d) ((n / cdDw d - 1) * cdDs d + cdDw d)
  addrOk d 0 && addrOk d 8 && addrOk d 32 && cdNext d % 64 == 0 && zeroBetween d 40 48 && leAt d 31 1 == 0
  && decide (w % 8 ≤ 6 ∧ w / 16 ≤ 6) && w / 8 % 2 == 0 && decide (cdSwap d ≤ 4) && decide (leAt d 30 1 ≤ 1)
  && decide (1 ≤ n) && n % cdSw d == 0 && n % cdDw d == 0 && n % swapUnit (cdSwap d) == 0
  && cdSrc d % cdSw d == 0 && cdDst d % cdDw d == 0 && leAt d 20 4 % cdSw d == 0 && leAt d 24 4 % cdDw d == 0
  && !src.meets dst

/-- The bytes of a swap unit exchanged (Table 14.3). -/
def swapBytes {α : Type} (m : Nat) (u : List α) : List α :=
  if m = 0 then u
  else if m = 4 then u.drop 2 ++ u.take 2
  else u.reverse

/-! ### Moving data (R339, R340) -/

/-- A channel's read at its home: status, bytes, poison and suspect (Table 7.6, R220, R234, R241). -/
def State.carRead (s : State) (c a n : Nat) : (Nat × List Byte × Bool × Bool) × State :=
  let plain (s : State) (a : Nat) : (Nat × List Byte × Bool × Bool) × State :=
    let susp := s.lineSusp (lineOf a)
    let v := s.engLine (.chan c) (lineOf a)
    ((stOK, slice v.1.1 (a % 64) n, v.1.2, susp), v.2)
  let xo := s.extentAt a
  match extentCheck xo, xo with
  | some st, _ => ((st, [], false, false), s)
  | none, none => ((stUNMAPPED, [], false, false), s)
  | none, some (_, x) =>
    if x.pub then
      match s.regionAt a with
      | some (_, g) =>
        if a < g.hdr + 64 then ((stOK, slice g.header (a % 64) n, false, false), s)
        else
          let b := g.body + (a - g.hdr - 64)
          match extentCheck (s.extentAt b) with
          | some st => ((st, [], false, false), s)
          | none => plain s b
      | none => plain s a
    else plain s a

/-- Write the destination units whose bytes the holding register holds; `raw` of its bytes still wait for
their swap unit, and `n` bounds the units. What is performed is counted when its answer comes. -/
def State.carWrite (s : State) (c raw : Nat) : Nat → State
  | 0 => s
  | n + 1 =>
    let h := s.chan c
    let d := h.desc
    let w := cdDw d
    if h.err.isSome ∨ h.hold.length - raw < w then s
    else
      let u := h.hold.take w
      let psn := u.any (fun b => b.2)
      let a := cdDst d + h.written * cdDs d
      let s := s.setChan c { h with hold := h.hold.drop w, written := h.written + 1 }
      let s := s.engSend (engReq (.chan c) (s.carSrc c) 0 (s.carSub c) opNWR 5 a (leAt d 28 1 / 16 % 8) [(17, 1, b2n psn)]
        (slice (u.map (·.1)) 0 (max 16 w)))
      State.carWrite s c raw n

/-- Does the channel have to send a read of a source unit to its home, and has it no answer yet (R210, R220). -/
def State.carLacks (s : State) (c a : Nat) : Bool :=
  (extentCheck (s.extentAt a)).isNone && (s.engGot (.chan c) (lineOf a)).isNone && s.engNeeds (lineOf a)

/-- Read source units into the holding register and write what is whole, `n` units at most, up to one whose line is not at
hand. -/
def State.carMove (s : State) (c : Nat) : Nat → State
  | 0 => s
  | n + 1 =>
    let h := s.chan c
    let d := h.desc
    if h.err.isSome then s
    else
      let a := cdSrc d + h.units * cdSs d
      let r := s.carRead c a (cdSw d)
      if s.carLacks c a then s
      else if r.1.1 ≠ stOK then r.2.chanErr c r.1.1 a
      else
        let s := r.2
        let su := swapUnit (cdSwap d)
        let raw := (h.units * cdSw d) % su
        let ready := h.hold.take (h.hold.length - raw)
        let tail := h.hold.drop (h.hold.length - raw) ++ r.1.2.1.map (fun b => (b, r.1.2.2.1))
        let whole := tail.length / su * su
        let h := { h with
          units := h.units + 1
          hold := ready ++ (chunksOf su (tail.take whole)).flatMap (swapBytes (cdSwap d)) ++ tail.drop whole
          psn := h.psn || r.1.2.2.1
          susp := h.susp || r.1.2.2.2 }
        let s := (s.setChan c h).carWrite c (tail.length - whole) h.hold.length
        State.carMove s c n

/-- Does a source unit of a descriptor touch a line: the last that begins at or before its end reaches it. -/
def carTouches (d : List Byte) (l : Nat) : Bool :=
  let n := cdLen d / cdSw d
  let e := 64 * l + 63
  let i := if cdSs d = 0 then 0 else min (n - 1) ((e - cdSrc d) / cdSs d)
  decide (cdSrc d ≤ e ∧ 64 * l < cdSrc d + i * cdSs d + cdSw d)

/-- The source lines that have to be asked for are (R210, R220). -/
def State.carAsk (s : State) (c : Nat) : State :=
  let d := (s.chan c).desc
  s.engAskWhere (.chan c) (s.carSrc c) (s.carSub c) 5
    [(Rng.mk (cdSrc d) ((cdLen d / cdSw d - 1) * cdSs d + cdSw d)).lines] (carTouches d)

/-- Move source units up to number `n`; where one is not at hand its line is asked for, and if its home answers at once the
move goes on; `fuel` bounds how often. -/
def State.carRun (s : State) (c n : Nat) : Nat → State
  | 0 => s
  | fuel + 1 =>
    let s := s.carMove c (n - (s.chan c).units)
    let h := s.chan c
    if h.err.isSome ∨ n ≤ h.units then s
    else
      let a := cdSrc h.desc + h.units * cdSs h.desc
      let s := s.engAskLines (.chan c) (s.carSrc c) (s.carSub c) 5 [lineOf a]
      if s.carLacks c a && (s.chan c).err.isNone then s.carAsk c else State.carRun s c n fuel

/-! ### The end of a descriptor (R342, R343, R346) -/

/-- Bytes 48 to 63 are written: DSTATE, RESULT, DONE_LEN, T_END. -/
def State.carStatus (s : State) (c dstate st doneLen : Nat) : State :=
  let h := s.chan c
  let s := s.setChan c { h with ended := true, fin := st, bad := dstate == 2, told := false, err := none }
  s.engSend (engReq (.chan c) (s.carSrc c) 0 (s.carSub c) opST 5 (s.rd .CAR_CUR_ADDR c + 48) 4 []
    (leBytes 1 dstate ++ leBytes 1 (st % 16 + 16 * b2n h.psn + 32 * b2n h.susp) ++ leBytes 2 0 ++ leBytes 4 doneLen
      ++ leBytes 8 s.now))

/-- The channel halts with the failed descriptor's address in CAR_DNEXT (R338, R343). -/
def State.carHalt (s : State) (c st : Nat) : State :=
  ((s.wr .CAR_STAT_LASTST st c).wr .CAR_DNEXT_ADDR (s.rd .CAR_CUR_ADDR c) c).setCarState c carHALTED

/-- The status store is performed: LASTST, the channel's vector, and no further word of it. -/
def State.carTell (s : State) (c : Nat) : State :=
  let h := s.chan c
  if h.told then s
  else
    let s := (s.setChan c { h with told := true }).wr .CAR_STAT_LASTST h.fin c
    if cdIrq h.desc then s.sendVector (64 + c) else s

/-- After the commit: NEXT is fetched, the list ends, or the channel halts (R342, R343). -/
def State.carNext (s : State) (c : Nat) : State :=
  let h := s.chan c
  let nx := cdNext h.desc
  if h.bad ∧ s.on .CAR_CTL_STOP_ON_ERR c then (s.wr .CAR_DNEXT_ADDR nx c).setCarState c carHALTED
  else if nx = 0 then (s.wr .CAR_DNEXT_ADDR 0 c).setCarState c carIDLE
  else s.carFetchAt c nx

/-- The end of a descriptor whose accesses are all answered (R340, R342). -/
def State.carEndDesc (s : State) (c : Nat) : State :=
  let h := s.chan c
  match h.err with
  | some e => (s.carStatus c 2 e.1 h.errOfs).bump .CAR_DESC_BAD_COUNT c
  | none =>
    (s.carStatus c 1 (if h.psn then stPOISON else stOK) (cdLen h.desc)).bump .CAR_DESC_DONE_COUNT c

/-- Has every access of a channel been answered. -/
def State.carQuiet (s : State) (c : Nat) : Bool := s.engQuiet (.chan c) && !s.engWaiting (.chan c)

/-- One access of a channel is given up: its home discards it wherever it is held, and counts it, and the channel takes it
as answered with TIMEOUT (R80, R341). -/
def State.carTimeout (s : State) (c : Nat) : State :=
  match s.heldReqs (fun r => r.org == Origin.chan c) with
  | [] => s
  | q :: _ =>
    let s := s.engDropReqs (fun r => r.org == q.org && r.seq == q.seq && r.msg == q.msg)
    let s := { s with coh := { s.coh with engReads := s.coh.engReads.filter (fun e =>
      !(e.org == Origin.chan c && e.seq == q.seq && mOpc q.msg == opNRD && e.got.isNone)) } }
    (s.bump .POOL_CANCEL_COUNT).chanErr c stTIMEOUT (mAddr q.msg)

end Sys2Proof.Machine
end

