-- ==== Sys2Proof/Machine/Request.lean ====
section
/-! DEFINITION. A request from its ingress port to its home (R64, R104, R105), what waits on the way, and how
a wait ends. -/

namespace Sys2Proof.Machine

/-! ### At the home -/

/-- Has a port's request been performed or resolved already (R80, R90). -/
def State.already (s : State) (r : Req) : Bool :=
  match r.org with
  | .port p => (s.source p).isDone r.seq
  | _ => false

/-- Was a port's request cancelled before it arrived (R80). -/
def State.wasCancelled (s : State) (r : Req) : Bool :=
  match r.org with
  | .port p => (s.source p).canceled.contains r.seq
  | _ => false

/-- A discarded request keeps no line-order entry (R104). -/
def State.lotGone (s : State) (r : Req) : State :=
  match r.org with
  | .port p => s.lotDrop p r.seq
  | _ => s

/-- The store of a Caravan command line: performed as a release, and then its command acts (R335). -/
def State.carStore (s : State) (r : Req) (c : Nat) : State :=
  if !s.relReady r then s.holdRelease r
  else
    let s := s.poolAccess { r with msg := withOpc r.msg opST_REL }
    if s.already r then
      let w := leAt r.msg.payload 0 8
      s.carCommand c (bit w 0) (bit w 1) (bit w 2) (bit w 3) (leAt r.msg.payload 8 6)
    else s

/-- A request reaches the die that performs it: discarded if it was performed or resolved (R80, R90), held
behind its line-order tag (R105), taken as a contribution (R267), held for the frontier as a release (R82,
R85; its arrival ends the run of its line, R93), served in the control window (R169), or checked and performed at its
home. -/
def State.homeArrive (s : State) (r : Req) : State :=
  let m := r.msg
  if s.already r then (if s.wasCancelled r then s.lotGone r else s.bump .POOL_DUP_DISCARD_COUNT)
  else if !s.depDone r then s.wait r 5 (lineOf (mAddr m))
  else if mOpc m = opMSG then s.msgRoute r
  else
    match s.contribTo r with
    | some c => s.contribute r c.1.tag c.2 r.res
    | none =>
      match s.carLine r with
      | some c => s.carStore r c
      | none =>
        if isRelease m && !s.relReady r then (s.applyRun (lineOf (mAddr m))).holdRelease r
        else if inWindow (mAddr m) then s.winAccess r
        else s.poolAccess r

/-! ### Ingress -/

/-- Is a request one that port dies still serve in containment: an LD of the agent's own block (Table 16.4). -/
def servedAlways (m : Msg) (id : Nat) : Bool := mOpc m == opLD && ownBlock m id

/-- Do port dies take messages into virtual output queues now (R384, R454). -/
def State.portsTake (s : State) : Bool := s.running && !s.contained

/-- Does an earlier request of the port wait at ingress. -/
def State.ingressHeld (s : State) (p : Nat) : Bool :=
  s.home.waits.any (fun w => w.req.org == .port p && (w.cause == 9 || w.cause == 10))

/-- Does the line-order table take a request (R104). -/
def State.lotRoom (s : State) (p : Nat) (m : Msg) : Bool :=
  decide (s.lotCount p < 8192) || (s.lotFind p (lotKey m)).isSome

/-- A request leaves its ingress region with its line-order tag (R104). -/
def State.tagged (s : State) (p : Nat) (r : Req) : Req × State :=
  ({ r with dep := s.lotFind p (lotKey r.msg) }, s.lotPut p r.msg)

/-- The point a request goes to: its home, and for MSG the home of its destination's block, or the uplink it leaves on
(R98, R131). -/
def State.pointOf (s : State) (m : Msg) : Nat :=
  if mOpc m = opMSG then
    if mDsw m = 0 then 320 + blockHome (mDst m) else (s.uplinkFor (mDsw m) (mMpri m)).getD 320
  else 320 + s.homeOf (mAddr m) % 16

/-- The point whose queue a request enters: that of the RGF die that takes its contribution (R267), or its home's. -/
def State.queuePoint (s : State) (r : Req) : Nat :=
  match s.contribTo r with
  | some c => 336 + s.dieOf (chunkSlot c.1.tag ((mAddr r.msg - redTarget c.1.desc) / 65536))
  | none => s.pointOf r.msg

/-- A request that has left its ingress region passes the point of its die, or waits there (R98, R131); a MSG toward an uplink has
its point at the uplink, and what containment still serves waits for nothing (Table 16.4). -/
def State.toPoint (s : State) (r : Req) : State :=
  if s.contained ∨ (mOpc r.msg = opMSG ∧ mDsw r.msg ≠ 0) then s.homeArrive r
  else s.passPoint (s.queuePoint r) r (fun s r => s.homeArrive r)

/-- A request that the checks accepted: it goes to the die that performs it, or waits at ingress. -/
def State.letIn (s : State) (p : Nat) (r : Req) : State :=
  let m := r.msg
  if s.ingressHeld p && !servedAlways m r.src then s.wait r (if s.portsTake then 10 else 9) p
  else if !s.portsTake && !(s.running && servedAlways m r.src) then s.wait r 9 p
  else if !s.lotRoom p m then (s.bump .SWC_LOT_FULL_COUNT).wait r 10 p
  else
    let t := s.tagged p r
    if s.planeUp m || s.contained then t.2.toPoint t.1 else t.2.wait t.1 14 p

/-- What ingress does with a request: the checks of Table 2.11, the policer of R143, and acceptance. `go`
says what becomes of an accepted request; a policed MSG is answered QUOTA. -/
def State.ingress (s : State) (p : Nat) (m : Msg) (res : Nat) (go : State → Req → State) : State :=
  if s.rd .PRT_PFTL_STAT_ROLE p = 3 then s.reject p m stREFUSED .PRT_REFUSED_COUNT
  else
    match s.ingressCheck p m with
    | .refuse st c => s.reject p m st c
    | .duplicate => s.bump .PRT_DUP_SEQ_COUNT p
    | .performed => s.bump .POOL_DUP_DISCARD_COUNT
    | .accept =>
      let pol := if mOpc m = opMSG then s.polMsg p (16 * mSlots m) else (true, s)
      if pol.1 then go (pol.2.open p m) { pol.2.mkReq p m with res := res }
      else pol.2.refuseAt p m stQUOTA

/-- A request arrives on a bound port. -/
def State.request (s : State) (p : Nat) (m : Msg) (res : Nat := 0) : State :=
  if p < 320 ∧ s.active p then s.ingress p m res (fun s r => s.letIn p r) else s

/-! ### The end of a wait -/

/-- Is a posted write of the host, through BAR2 or through BAR0, that came before its request of number `n` still to be
performed (R89). -/
def State.postedOlder (s : State) (n : Nat) : Bool :=
  s.host.reqs.any (fun h => h.isWrite && decide (h.tag < n)) || s.host.behind.any (fun b => !b.read && decide (b.ord < n))

/-- Is a posted write of the host that came before a host request still to be performed (R89). -/
def State.postedBefore (s : State) (r : Req) : Bool :=
  match r.org with
  | .host tag => s.postedOlder tag
  | _ => false

/-- Does the recall of a victim run (R218): its line, in SX_I or X_WB with nothing to do at the end but drop it. -/
def State.evicting (s : State) (v : Nat) : Bool :=
  match s.dirEnt v with
  | some e => (e.st == .SX_I || e.st == .X_WB) && e.aft == .drop
  | none => false

/-- May a request that waits go on now. -/
def State.mayRun (s : State) (w : Wait) : Bool :=
  let m := w.req.msg
  let pg := w.key
  match w.cause with
  | 0 => (s.page pg).loc != 2 && !s.busy.rewrite.contains pg && !(s.ergcAt pg && (s.page pg).loc == 0 && ergPage pg)
  | 1 => (s.page pg).loc != 2 && ((s.page pg).loc != 0
      || (!s.ergcAt pg && (match s.trayGate (lineOf (mAddr m)) (trayCls m) 1 with | .wait _ => false | _ => true)))
  | 2 => (s.page pg).loc != 2 && ((s.page pg).loc != 0 || (!s.ergcAt pg && s.trayUp pg))
  | 3 => (s.page pg).loc == 1
  | 4 => match s.dirEnt w.key with | some e => !e.st.transient | none => true
  | 5 => s.depDone w.req
  | 6 => match s.dirEnt w.key with | some e => !e.st.transient | none => (s.freeWay w.key).isSome || (s.dirVictim w.key).isSome
  | 7 => match s.stackOfPage pg with | some st => !s.rcv.stackWait.contains st | none => true
  | 8 => s.relReady w.req
  | 9 => s.portsTake
  | 10 => s.portsTake && (match w.req.org with | .port p => s.lotRoom p m | _ => true)
  | 11 => s.portsTake && !s.postedBefore w.req
  | 12 => !s.rcv.dirHold.contains (s.homeOf (mAddr m))
  | 13 => !s.evicting w.key
  | 14 => s.portsTake && s.planeUp m
  | 15 => false
  | _ => true

/-- Does another request of the same port wait at ingress before this one. -/
def aheadAtIngress (ws : List Wait) (w : Wait) : Bool :=
  (w.cause == 9 || w.cause == 10) &&
  ws.any (fun v => v.req.org == w.req.org && (v.cause == 9 || v.cause == 10))

/-- The oldest wait that may end, with the waits before and after it. -/
def State.nextRun (s : State) : List Wait → List Wait → Option (Wait × List Wait)
  | _, [] => none
  | before, w :: t =>
    if s.mayRun w && !aheadAtIngress before w then some (w, before ++ t) else State.nextRun s (before ++ [w]) t

/-- A request goes on from where it waited. -/
def State.rerun (s : State) (w : Wait) : State :=
  match w.cause, w.req.org with
  | 9, .port p | 10, .port p => s.letIn p w.req
  | 11, _ => s.engSend w.req
  | 14, _ => s.toPoint w.req
  | _, _ => s.homeArrive w.req

/-- Requests whose wait is over go on, the oldest first; `n` bounds how many. -/
def State.resumeN (s : State) : Nat → State
  | 0 => s
  | n + 1 =>
    match s.nextRun [] s.home.waits with
    | none => s
    | some (w, rest) => State.resumeN (({ s with home := { s.home with waits := rest } }).rerun w) n

/-- Requests whose wait is over go on. -/
def State.resume (s : State) : State := s.resumeN (2 * s.home.waits.length)

end Sys2Proof.Machine
end

