-- ==== Sys2Proof/Machine/Link.lean ====
section
/-! DEFINITION. The PFTL link of a port (R35 to R47): flits out with acknowledgement and credit returns, replay,
the slots of received flits, ingress regions (R96, R97), cut-through (R106) and the mirror taps (R124 to
R127). -/

namespace Sys2Proof.Machine

/-- Change the link layer of a port. -/
def State.updLink (s : State) (p : Nat) (f : Link → Link) : State := s.updPort p (fun x => { x with link := f x.link })

/-- A port's link layer. -/
def State.link (s : State) (p : Nat) : Link := (s.port p).link

/-- Lanes in service of a port. -/
def State.lanes (s : State) (p : Nat) : Nat := s.rd .PRT_LINK_STAT_LANES p

/-- Link state of a port: 0 DOWN, 1 TRAIN, 2 UP, 3 RETRAIN, 4 HOLD, 5 PARKED. -/
def State.lstate (s : State) (p : Nat) : Nat := s.rd .PRT_LINK_STAT_LSTATE p

/-- Set the link state of a port. -/
def State.setLstate (s : State) (p v : Nat) : State := s.wr .PRT_LINK_STAT_LSTATE v p

/-- Mode of a port: 0 unused, 1 accelerator, 2 tray, 3 uplink. -/
def State.pmode (s : State) (p : Nat) : Nat := s.rd .PRT_CFG_MODE p

/-- Is a port a PFTL port. -/
def State.isPftl (s : State) (p : Nat) : Bool := s.pmode p == 1 || s.pmode p == 2

/-- Can a port send flits now. -/
def State.flits (s : State) (p : Nat) : Bool := s.isPftl p && s.active p && s.lstate p == 2

/-! ### Flits out (R36, R39, R40, R45) -/

/-- The header of the next flit, with the present acknowledgement and the next two pools' counts. -/
def Link.hdr (l : Link) (ftype fseq hdrmap : Nat) : Nat :=
  let a := 2 * (l.rot % 8)
  mkFlHdr ftype fseq ((l.rxNext + 4095) % 4096) (b2n l.ackV) (poolCode a) (l.freed.getD a 0) (poolCode (a + 1))
    (l.freed.getD (a + 1) 0) hdrmap
where
  /-- CRA_POOL of pool n: 0 to 7 the request pools, 8 to 15 the response pools (Table 2.2). -/
  poolCode (n : Nat) : Nat := n

/-- A flit leaves a port: it acknowledges what has been received. -/
def State.emitFlit (s : State) (p ftype fseq hdrmap : Nat) (slots : List Byte) : State :=
  let f := mkFlit ((s.link p).hdr ftype fseq hdrmap) slots
  (s.updLink p (fun l => { l with rot := (l.rot + 1) % 8, unacked := 0 })).emit (.flit p f)

/-- An IDLE flit. -/
def State.sendIdle (s : State) (p : Nat) : State := s.emitFlit p 0 0 0 []

/-- The IDLE flits that report a receive pool whose slots have become free: a receiver with nothing to send sends IDLE flits
(R40), and each reports the next pair of pools (R45). -/
def State.sendCredits (s : State) (p pool : Nat) : State :=
  if !s.flits p then s
  else (List.range ((pool / 2 + 8 - (s.link p).rot % 8) % 8 + 1)).foldl (fun s _ => s.sendIdle p) s

/-- A NAK (R41). -/
def State.sendNak (s : State) (p : Nat) : State := s.emitFlit p 2 0 0 []

/-- One PROTOCOL flit with a new number; it stays in the replay buffer (R39, R43). -/
def State.sendProto (s : State) (p hdrmap : Nat) (slots : List Byte) : State :=
  let n := (s.link p).txNext
  let f := mkFlit ((s.link p).hdr 1 n hdrmap) slots
  let s := s.updLink p (fun l => { l with txNext := (n + 1) % 4096, replayBuf := l.replayBuf ++ [TxFlit.mk n f] })
  s.emitFlit p 1 n hdrmap slots

/-- The credit pool of a message: request pools 0 to 7, response pools 8 to 15 (R44). -/
def poolOf (m : Msg) : Nat := mSc m + (if opDATA ≤ mOpc m then 8 else 0)

/-- Flits a message takes, packed from slot 0 of a flit of its own (R38; log entry 30). -/
def flitsOf (m : Msg) : Nat := cdiv (mSlots m) 15

/-- Is there room in the replay buffer of a port for `n` flits (R43). -/
def State.replayRoom (s : State) (p n : Nat) : Bool := decide ((s.link p).replayBuf.length + n ≤ 64 * s.lanes p)

/-- Can a message leave a port now: credits for all its slots, and room in the replay buffer (R43, R44). -/
def State.canSend (s : State) (p : Nat) (m : Msg) : Bool :=
  s.flits p && decide (mSlots m ≤ s.creditsLeft p (poolOf m)) && s.replayRoom p (flitsOf m)

/-- A message leaves a port in PROTOCOL flits, and spends its credits (R38, R44). -/
def State.transmit (s : State) (p : Nat) (m : Msg) : State :=
  let pool := poolOf m
  let s := s.updLink p (fun l => { l with spent := l.spent.set pool ((l.spent.getD pool 0 + mSlots m) % 4096) })
  let bs := msgBytes m
  (List.range (flitsOf m)).foldl (fun s i => s.sendProto p (if i = 0 then 1 else 0) (slice bs (240 * i) 240)) s

/-! ### Acknowledgement and replay (R40 to R42) -/

/-- Take the acknowledgement and the credit returns of a flit (R40, R45). -/
def State.takeAck (s : State) (p : Nat) (f : List Byte) : State :=
  s.updLink p (fun l =>
    let l := if flAckV f then
        match l.replayBuf.findIdx? (fun t => t.fseq == flAckSeq f) with
        | some i => { l with replayBuf := l.replayBuf.drop (i + 1), replays := 0 }
        | none => l
      else l
    { l with returned := (l.returned.set (flCraPool f) (flCraCnt f)).set (flCrbPool f) (flCrbCnt f) })

/-- Every unacknowledged flit is sent again, in order, with the present acknowledgement. -/
def State.resend (s : State) (p : Nat) : State :=
  (s.link p).replayBuf.foldl (fun s t => s.emitFlit p 1 t.fseq (flHdrmap t.bytes) ((t.bytes.drop 12).take 240)) s

/-- Free slots of a receive pool: they are returned as credits (R45, R97). -/
def State.freeSlots (s : State) (p pool n : Nat) : State :=
  (s.updLink p (fun l => { l with freed := l.freed.set pool ((l.freed.getD pool 0 + n) % 4096) })).lower
    .SWC_BUF_ING_USED (s.rd .PRT_CFG_DIE p) 0 n

/-! ### Slots in (R38) -/

/-- The messages that a flit's slots complete, and the partial message that goes on in the next flit. -/
def takeSlots (hdrmap : Nat) : List (List Byte) → Nat → List Byte → List Msg × List Byte
  | [], _, part => ([], part)
  | x :: t, i, part =>
    let start := bit hdrmap i
    if !start && part.isEmpty then ([], [])
    else
      let cur := if start then x else part ++ x
      if cur.length = 16 * slotsOfHdr cur then
        let r := takeSlots hdrmap t (i + 1) []
        (msgOfBytes cur :: r.1, r.2)
      else takeSlots hdrmap t (i + 1) cur

/-- The fifteen slots of a flit (Table 2.1). -/
def flitSlots (f : List Byte) : List (List Byte) := (List.range 15).map (fun i => slice f (12 + 16 * i) 16)

/-! ### Cut-through (R106, R107) -/

/-- Slots queued in a port die's virtual output queue of a point and class (R98). -/
def State.voqDepth (s : State) (die point cls : Nat) : Nat :=
  ((s.sw.ing.filter (fun x => s.portDie x.port == die && x.point == point && x.cls == cls && !x.taken)).map (·.slots)).sum

/-- Does a message received on a port cut through toward a point. -/
def State.cutsThrough (s : State) (p point cls : Nat) (m : Msg) : Bool :=
  let mode := s.rd .SWC_FWD_MODE p cls
  let wide := decide (320 ≤ point) || decide (s.lanes point ≤ s.lanes p)
  !(mOpc m == opMSG && mDsw m != 0) && mode != 2 && wide &&
    (mode == 1 || decide (s.voqDepth (s.portDie p) point cls < s.rd .SWC_CT_DEPTH_DEPTH))

/-! ### Mirror taps (R124 to R127) -/

/-- What a tap sees of a message: its port, direction (0 ingress, 1 egress), header, plane, and whether it cut
through. -/
structure Tapped where
  port : Nat
  egress : Bool
  msg : Msg
  plane : Nat
  cut : Bool
  deriving DecidableEq, Repr

/-- Does a message carry ADDR (Tables 2.6 and 2.8). -/
def hasAddr (m : Msg) : Bool := mOpc m != opMSG && mOpc m != opGROUP_FAULT && decide (mOpc m < opDATA ∨ mOpc m = opHACK)

/-- Does a message match rule `n` (R124). -/
def State.mirrMatch (s : State) (n : Nat) (x : Tapped) : Bool :=
  let m := x.msg
  let mask := s.rd .MIRR_RULE_MATCH_OPC_MASK n
  let am := s.rd .MIRR_RULE_AGENT_MASK n
  s.on .MIRR_RULE_CTL_EN n
    && (s.on .MIRR_RULE_CTL_ANYPORT n || s.rd .MIRR_RULE_CTL_PORT n == x.port)
    && bit (s.rd .MIRR_RULE_CTL_DIR n) (b2n x.egress)
    && (mOpc m &&& mask) == (s.rd .MIRR_RULE_MATCH_OPC_VAL n &&& mask)
    && bit (s.rd .MIRR_RULE_MATCH_SC_MASK n) (mSc m)
    && (mSrc m &&& am) == (s.rd .MIRR_RULE_AGENT_VAL n &&& am)
    && (!(mOpc m == opDATA || mOpc m == opCMP) || bit (s.rd .MIRR_RULE_STAT_STATUS_MASK n) (mStatus m))
    && (!s.on .MIRR_RULE_CTL_ADDR_EN n || (hasAddr m && decide (s.rd .MIRR_RULE_ALO_ADDR n ≤ mAddr m)
      && decide (mAddr m ≤ s.rd .MIRR_RULE_AHI_ADDR n)))

/-- A mirror record (Table 4.4). -/
def State.mirrRecord (s : State) (n recno : Nat) (x : Tapped) : List Byte :=
  leBytes 8 s.now ++ leBytes 16 x.msg.hdr.toNat ++ leBytes 2 x.port
    ++ leBytes 1 (16 * n + 8 * b2n x.egress + 4 * b2n s.clk.holdEpoch + 2 * b2n x.cut) ++ leBytes 1 x.plane
    ++ leBytes 4 recno

/-- Records of the mirror ring. -/
def State.mirrSize (s : State) : Nat := 2 ^ s.rd .MIRR_CTL_LOG2SZ

/-- A record is produced: it takes its RECNO and, unless it is dropped, waits to be written (R125, R127). -/
def State.mirrProduce (s : State) (n : Nat) (x : Tapped) : State :=
  let recno := s.rd .MIRR_RECNO_NEXT
  let r := s.mirrRecord n recno x
  let s := s.advance .MIRR_RECNO_NEXT
  let pol := s.police mirKey (s.tmA .TM_POL_MIRR_REFILL) 48
  let s := pol.2
  let at_ := (s.rd .MIRR_WPTR_INDEX + s.sw.mirq.length) % 2 ^ 32
  if !pol.1 then s.bump .MIRR_DROP_POL_COUNT
  else if !s.on .MIRR_CTL_WRAP
      && (s.rd .MIRR_WPTR_INDEX + 2 ^ 32 - s.rd .MIRR_RPTR_INDEX) % 2 ^ 32 == s.mirrSize then
    s.bump .MIRR_DROP_FULL_COUNT
  else { s with sw := { s.sw with mirq := s.sw.mirq ++ [{ recno := recno, index := at_, bytes := r }] } }

/-- A tap: the lowest rule that matches, and every 2^SAMPLE-th match of it (R124). -/
def State.mirrTap (s : State) (x : Tapped) : State :=
  if !s.on .MIRR_CTL_EN then s
  else
    match (List.range 16).find? (fun n => s.mirrMatch n x) with
    | none => s
    | some n =>
      let seen := tget 0 s.sw.mirSeen n + 1
      let hit := decide (2 ^ s.rd .MIRR_RULE_CTL_SAMPLE n ≤ seen)
      let s := { s with sw := { s.sw with mirSeen := tset 0 s.sw.mirSeen n (if hit then 0 else seen) } }
      if hit then s.mirrProduce n x else s

/-! ### The ingress region (R96, R98) -/

/-- A message takes slots of its port die's ingress region. -/
def State.pushIng (s : State) (p point cls sub : Nat) (m : Msg) (req held taken : Bool) (dep : Option Nat) : State :=
  let x : IngMsg :=
    { n := s.nextId, port := p, pool := poolOf m, slots := mSlots m, point := point, cls := cls, sub := sub, msg := m,
      time := s.now, taken := taken, dep := dep, req := req, held := held, cyc := s.cycle }
  ({ s with nextId := s.nextId + 1, sw := { s.sw with ing := s.sw.ing ++ [x] } }).advance .SWC_BUF_ING_USED
    (s.rd .PRT_CFG_DIE p) 0 (mSlots m)

/-- Is an earlier message of a port held at ingress. -/
def State.ingHeld (s : State) (p : Nat) : Bool := s.sw.ing.any (fun x => x.port == p && x.held)

/-- May a request of a port enter a virtual output queue now (R104, R384, R454). -/
def State.mayQueue (s : State) (p : Nat) (m : Msg) (ahead : Bool) : Bool :=
  if servedAlways m (s.agentId p) then s.running && s.lotRoom p m
  else s.portsTake && !ahead && s.lotRoom p m

/-- A MSG toward an uplink goes on to the port die of the uplink; any other request waits for its point (R98, R131). -/
def State.toUplink (s : State) (r : Req) : State :=
  if mOpc r.msg = opMSG ∧ mDsw r.msg ≠ 0 then s.homeArrive r else s

/-- The request of an ingress message. -/
def State.ingReq (s : State) (x : IngMsg) : Req :=
  { s.mkReq x.port x.msg with sub := x.sub, dep := x.dep }

/-- An accepted request of a flit enters its port die's ingress region, and its virtual output queue unless it
is held (R98, R104). -/
def State.queueReq (s : State) (p : Nat) (r : Req) : State :=
  let m := r.msg
  let ok := s.mayQueue p m (s.ingHeld p)
  let q := s.queuePoint r
  let full := s.portsTake && !s.lotRoom p m
  let s := if full then s.bump .SWC_LOT_FULL_COUNT else s
  if ok then
    let dep := s.lotFind p (lotKey m)
    let n := s.nextId
    ((s.lotPut p m).pushIng p q (mSc m) r.sub m true false false dep).toUplink { r with dep := dep, ing := some n }
  else
    let n := s.nextId
    let mark (y : IngMsg) : IngMsg := if y.n = n then { y with full := full } else y
    let s := s.pushIng p q (mSc m) r.sub m true true false none
    { s with sw := { s.sw with ing := s.sw.ing.map mark } }

/-- Held requests enter their virtual output queues, in order, once they may; one that finds the line-order table full is
counted, once (R104). -/
def State.queueHeld (s : State) : State :=
  (s.sw.ing.filter (·.held)).foldl (fun s x =>
    let ahead := match s.sw.ing.find? (fun y => y.port == x.port && y.held) with | some y => y.n != x.n | none => false
    if s.mayQueue x.port x.msg ahead then
      let dep := s.lotFind x.port (lotKey x.msg)
      let s := s.lotPut x.port x.msg
      let go (y : IngMsg) : IngMsg := if y.n = x.n then { y with held := false, dep := dep } else y
      let s := { s with sw := { s.sw with ing := s.sw.ing.map go } }
      s.toUplink { s.ingReq x with dep := dep, ing := some x.n }
    else if !x.full && !ahead && s.portsTake && !s.lotRoom x.port x.msg then
      let mark (y : IngMsg) : IngMsg := if y.n = x.n then { y with full := true } else y
      (({ s with sw := { s.sw with ing := s.sw.ing.map mark } }).bump .SWC_LOT_FULL_COUNT)
    else s) s

end Sys2Proof.Machine
end

