-- ==== Sys2Proof/Machine/Ports.lean ====
section
/-! DEFINITION. Ports: answers that arrive on them (R67, R70, R224, R228), the flush and the end of a binding
(R71, R75, R118, R237), counted downs (R154 to R156), uplinks that leave UP (R159), and the capacity shown
(R164, R379). -/

namespace Sys2Proof.Machine

/-! ### Answers of a tray (R70) -/

/-- Take a tray access out. -/
def State.dropTacc (s : State) (t : TAcc) : State := { s with home := { s.home with tacc := s.home.tacc.erase t } }

/-- The outstanding access of a tray port with this SEQ. -/
def State.taccAt (s : State) (p seq : Nat) : Option TAcc := s.home.tacc.find? (fun t => t.port == p && t.seq == seq)

/-- A line of a migration has come from the tray (R202, R205). -/
def State.migLine (s : State) (pg : Nat) (l : Nat) (bytes : List Byte) (psn : Bool) : State :=
  match s.tier.migs.find? (fun m => m.page == pg) with
  | none => s
  | some m =>
    let ergc := m.ergc
    -- an image line that the device itself has still to send is the newer one (R206)
    let own := if ergc then (if s.owes l then s.owedLine l else (tfind s.home.wbuf l).map (fun e => (e.bytes.map (·.2), e.psn))) else none
    let bytes := (own.map (·.1)).getD bytes
    let psn := (own.map (·.2)).getD psn
    let m' : Mig :=
      if ergc then
        let need := if m.done = 0 then (if psn then 1 else max 1 (min 1024 (leAt bytes 0 2))) else m.need
        { m with img := m.img ++ bytes, psns := m.psns ++ [psn], need := need, done := m.done + 1 }
      else { m with done := m.done + 1 }
    let s := if ergc then (if psn then s.bump .POOL_POISON_RD_COUNT else s) else (s.learnLine l bytes psn).notePsn l
    let s := { s with tier := { s.tier with migs := s.tier.migs.map (fun (x : Mig) => if x.page = pg then m' else x) } }
    s.migIssue m'

/-- A DATA of a tray (R70, R77, R186). Nothing is learnt from an access whose requests are gone. -/
def State.trayData (s : State) (p : Nat) (m : Msg) : State :=
  match s.taccAt p (mSeq m) with
  | none => s
  | some t =>
    let l := t.line
    let bytes := s.decrypt l (slice m.payload 0 64)
    let psn := mRpsn m
    let s' := match t.kind with
      | .load rs => (((s.dropTacc t).learnLine l bytes psn).notePsn l).serveLoads l rs t.ent
      | .gone => if psn then (s.dropTacc t).bump .POOL_POISON_RD_COUNT else s.dropTacc t
      | .grant => ((s.dropTacc t).learnLine l bytes psn).grantData l
      | .fill =>
        let s := ((s.dropTacc t).learnLine l bytes psn).notePsn l
        match tfind s.home.wbuf l with
        | some e => s.wbufPut l 0 (s.lineBytes l) (s.linePsn l) { sub := e.sub, cls := e.cls }
        | none => s
      | .migration pg => (s.dropTacc t).migLine pg l bytes psn
      | .writeBack => s
      | .late => (s.dropTacc t).bump .SEC_TD_LATE_COUNT
    s'.wbufSettle l

/-- A CMP of a tray (R70). -/
def State.trayCmp (s : State) (p : Nat) (m : Msg) : State :=
  match s.taccAt p (mSeq m) with
  | none => s
  | some t =>
    match t.kind with
    | .writeBack => (s.dropTacc t).wbufSettle t.line
    | .migration pg =>
      let s := s.dropTacc t
      match s.tier.migs.find? (fun m => m.page == pg) with
      | none => s
      | some m =>
        let m' := { m with done := m.done + 1 }
        ({ s with tier := { s.tier with migs := s.tier.migs.map (fun (x : Mig) => if x.page = pg then m' else x) } }).migIssue m'
    | .late => (s.dropTacc t).bump .SEC_TD_LATE_COUNT
    | _ => s

/-- The home answers a tray error itself: the port's own timer for the request stops (R80). -/
def State.stopTimer (s : State) (r : Req) : State :=
  (s.members r).foldl (fun s r =>
    match r.org with
    | .port p => s.updSource p (fun q =>
        { q with outst := q.outst.map (fun o => if o.seq = r.seq ∧ !o.answered then { o with stopped := true } else o) })
    | _ => s) s

/-- A tray access will not be answered: the requests that wait on it end with the error value, and what it was
for is undone or kept for later (R71, R203). -/
def State.trayLost (s : State) (t : TAcc) : State :=
  let s := s.dropTacc t
  match t.kind with
  | .load rs => rs.foldl (fun s r => (s.stopTimer r).finish r (s.errorValue r.msg)) s
  | .grant =>
    let s := match (s.dirEnt t.line).bind (·.req) with | some r => s.stopTimer r | none => s
    s.grantLost t.line
  | .writeBack =>
    { s with home := { s.home with wbuf := tmod s.home.wbuf t.line (fun e => { e with issued := false }) } }
  | .migration pg =>
    match s.tier.migs.find? (fun m => m.page == pg) with
    | some m => (s.abandonMig m).retryDemotions
    | none => s
  | _ => s

/-! ### Answers of an agent (R61, R224) -/

/-- May a home take a HACK now: its slice does not hold its pipeline, and the line's page is not on the move (Table 16.2,
R202). -/
def State.takesHack (s : State) (m : Msg) : Bool :=
  !s.rcv.dirHold.contains (s.homeOf (mAddr m)) && ((s.page (pageOf (mAddr m))).loc != 2 || (s.dirEnt (lineOf (mAddr m))).isNone)

/-- A HACK reaches the home: an INV_NOTE's, or a snoop's. One that the home may not take yet is held. -/
def State.hackArrive (s : State) (id : Nat) (m : Msg) : State :=
  if !s.takesHack m then { s with coh := { s.coh with hacks := s.coh.hacks ++ [(id, m)] } }
  else
    match s.noteOf id m with
    | some n =>
      if mRspst m = 0 ∧ !mFwd m ∧ !mHdata m then s.noteDone n else s.dropSub n .DIR_PROTO_ERR_COUNT
    | none => s.snoopHack (lineOf (mAddr m)) id m

/-- The snoop that a DATA of a port's agent answers: one to that agent, with the DATA's SRC, DST and SEQ (R229). -/
def State.fwdOf (s : State) (p : Nat) (m : Msg) : Option Fwd :=
  s.coh.fwds.find? (fun f => f.id == s.agentId p && f.src == mDst m && f.src == mSrc m && f.seq == mSeq m)

/-- Is a forwarded DATA what R229 asks of it: STATUS OK, no PSN, the GRANT of its snoop, and a whole line. -/
def fwdOk (f : Fwd) (m : Msg) : Bool :=
  mStatus m == stOK && !mRpsn m && mGrant m == (if f.excl then 2 else 1) && m.payload.length == 64

/-- A forwarded DATA as its requester gets it: one that asked for no grant gets none, and the bytes it asked for (Table 2.9,
R57; DEDUCED, log entry 81). -/
def State.fwdMsg (s : State) (q : Nat) (m : Msg) : Msg :=
  match (s.source q).outst.find? (fun o => o.seq == mSeq m && !o.answered) with
  | some o =>
    if mOpc o.msg = opRD ∨ mOpc o.msg = opRDX then m
    else respMsg (mSc m) (mSrc m) (mDst m) (mSeq m) { status := stOK, susp := mSusp m, data := some (cutLine o.msg m.payload) }
  | none => m

/-- Does the read of an engine take this DATA, forwarded for snoop `f`. -/
def State.engTakes (s : State) (f : Fwd) (m : Msg) (e : EngRead) : Bool :=
  e.seq == mSeq m && e.line == f.line && e.got.isNone && (match e.org with
    | .slot id _ => id == mDst m
    | .chan c => s.carSrc c == mDst m
    | _ => false)

/-- A DATA that an owning agent forwards: to the engine that asked, or to the port of its DST, through a plane. The crossing
keeps the slots of ingress message `ing` (R97). False where it goes to no port. A DATA that answers no snoop, or is not what
R229 asks, is discarded as a breach of protocol and counted (R3; DEDUCED, log entry 81). -/
def State.fwdData (s : State) (p : Nat) (m : Msg) (ing : Option Nat) (cut : Bool) : Bool × State :=
  match s.fwdOf p m with
  | none => (false, s.bump .DIR_PROTO_ERR_COUNT)
  | some f =>
    if !fwdOk f m then (false, s.bump .DIR_PROTO_ERR_COUNT)
    else
      let s := { s with coh := { s.coh with fwds := s.coh.fwds.erase f } }
      if s.coh.engReads.any (s.engTakes f m) then
        let upd (e : EngRead) : EngRead := if s.engTakes f m e then { e with got := some (slice m.payload 0 64, mRpsn m) } else e
        (false, { s with coh := { s.coh with engReads := s.coh.engReads.map upd } })
      else
        match s.portOfAgent (mDst m) with
        | some q => (true, s.send (s.portDie p) q (mSc m) (s.reqSub q (mSeq m)) (s.fwdMsg q m) ing cut)
        | none => (false, s.bump .SWC_FLUSHED_COUNT)

/-! ### Capacity (R164, R379) -/

/-- Stacks in service. -/
def State.stacksIn (s : State) : Nat := ((List.range 32).filter s.stackIn).length

/-- Oasis frames that are RETIRED: those of lost stacks, and the others one by one. -/
def State.framesRetired (s : State) : Nat :=
  2 ^ 20 * (32 - s.stacksIn)
    + (s.tier.retired.filter (fun e => s.stackIn (2 * (e.1 / 2 ^ 21) + e.1 % 2))).length

/-- The trays that are present: those whose port is bound (R164). -/
def State.traysPresent (s : State) : List Nat :=
  (List.range 24).filter (fun t => match s.trayPort t with | some p => s.on .PRT_PFTL_STAT_BOUND p | none => false)

/-- POOL_CAP, POOL_TRAYS, the frames a scrub pass reads, and EVT_FRAMES_RETIRED (R164, R189, R379). -/
def State.capRefresh (s : State) : State :=
  let ts := s.traysPresent
  let cap := (ts.map (fun t => s.trayCapacity t / 2 ^ 21)).sum
  let f := s.framesRetired
  let s := (s.wr .POOL_CAP_GRANULES (cap + (2 ^ 25 - f) / 32)).wr .POOL_TRAYS_PRESENT ((ts.map (fun t => 2 ^ t)).sum)
  (s.wr .POOL_SCRUB_TOT_TOTAL (2 ^ 25 - f)).wr .EVT_FRAMES_RETIRED_COUNT f

/-! ### The flush of a port (R118) -/

/-- Does a request come from port `p`. -/
def ofPort (p : Nat) (r : Req) : Bool := r.org == .port p

/-- A request whose port is gone goes on without an answer. -/
def orphan (p : Nat) (r : Req) : Req := if ofPort p r then { r with org := .device } else r

/-- MSGs on their way to an uplink that pass a test are taken out: those that wait at their origin or at the uplink's
egress; one that crosses a plane keeps its number, and goes to no port (R80, R103, R118, R161). -/
def State.dropUplink (s : State) (here : Msg → Bool) : Nat × State :=
  let mine (p : Nat) (m : Msg) : Bool := decide (p < 320) && s.pmode p == 3 && mOpc m == opMSG && here m
  let voq := s.sw.voq.filter (fun c => mine c.point c.msg)
  let egr := s.sw.egr.filter (fun x => mine x.point x.msg)
  let n := voq.length + egr.length + ((s.sw.cross ++ s.sw.xhold).filter (fun c => mine c.point c.msg)).length
  let off (c : Cross) : Cross := if mine c.point c.msg then { c with point := 400 } else c
  let held := s.sw.xhold.filter (fun c => mine c.point c.msg)
  let s := { s with sw := { s.sw with
    voq := s.sw.voq.filter (fun c => !mine c.point c.msg), cross := s.sw.cross.map off, xhold := s.sw.xhold.map off } }
  let s := s.egrFree held
  let s := voq.foldl (fun s c => s.ingPlaced c.ing) s
  (n, egr.foldl (fun s x => s.fromEgress x) s)

/-- Does a message of a receive area belong to a request that passes a test. -/
def RxMsg.of (here : Req → Bool) (m : RxMsg) : Bool := match m.req with | some r => here r | none => false

/-- Messages of the receive areas, and PUBs not yet committed, whose requests pass a test are taken away; how many there
were (R80, R118). -/
def State.dropLate (s : State) (here : Req → Bool) : Nat × State :=
  let ids := (s.agents.filter (fun e => (e.2.held ++ e.2.writing).any (RxMsg.of here))).map (·.1)
  let n := (s.agents.map (fun e => ((e.2.held ++ e.2.writing).filter (RxMsg.of here)).length)).sum
  let pubs := (s.coh.regions.filter (fun e => e.2.busy && (match e.2.cur with | some r => here r | none => false))).map (·.1)
  let s := ids.foldl (fun s id => s.rxDiscard id (RxMsg.of here)) s
  (n + pubs.length, pubs.foldl (fun s i => s.pubDrop i) s)

/-- Requests that pass a test are taken out wherever they are held; how many there were (R80, R118). -/
def State.dropHeld (s : State) (here : Req → Bool) : Nat × State :=
  let late := s.dropLate here
  let s := late.2
  let stuck := (s.home.waits.filter (fun w => here w.req)).map (·.req)
  let n := late.1 + (s.home.waits.filter (fun w => here w.req)).length
    + (s.home.runs.map (fun e => (e.2.filter here).length)).sum
    + (s.home.atGrps.map (fun g => (g.members.filter here).length)).sum
    + (s.home.merged.map (fun e => (e.2.filter here).length)).sum
    + (s.home.tacc.map (fun t => match t.kind with | .load rs => (rs.filter here).length | _ => 0)).sum
    + (s.coh.dir.filter (fun e => match e.2.req with | some r => here r && !e.2.cancelled | none => false)).length
    + (s.coh.regions.map (fun e => (e.2.queue.filter here).length)).sum
    + (s.rgf.colls.map (fun c => (c.held.filter (fun h => here h.req)).length)).sum
  let noLoad (t : TAcc) : TAcc :=
    match t.kind with
    | .load rs => { t with kind := .load (rs.filter (fun r => !here r)) }
    | _ => t
  let quiet (e : Nat × DirEnt) : Nat × DirEnt :=
    match e.2.req with
    | some r => if here r then (e.1, { e.2 with cancelled := true }) else e
    | none => e
  let reg (e : Nat × Region) : Nat × Region := (e.1, { e.2 with queue := e.2.queue.filter (fun r => !here r) })
  let coll (c : Coll) : Coll := { c with held := c.held.filter (fun h => !here h.req) }
  let noRun (e : Nat × List Req) : Nat × List Req := (e.1, e.2.filter (fun r => !here r))
  let noMember (g : AtGrp) : AtGrp := { g with members := g.members.filter (fun r => !here r) }
  let s := { s with
    home := { s.home with
      waits := s.home.waits.filter (fun w => !here w.req)
      runs := s.home.runs.map noRun
      atGrps := s.home.atGrps.map noMember
      merged := s.home.merged.map noRun
      tacc := s.home.tacc.map noLoad }
    coh := { s.coh with
      dir := s.coh.dir.map quiet
      regions := s.coh.regions.map reg }
    rgf := { s.rgf with colls := s.rgf.colls.map coll } }
  (n, stuck.foldl (fun s r => s.ingPlaced r.ing) s)

/-- Requests of a port that are held anywhere are taken out; how many there were (R118). -/
def State.flushHeld (s : State) (p : Nat) : Nat × State :=
  let h := s.dropHeld (ofPort p)
  let s := h.2
  let invs := ((s.coh.inotes.filter (fun n => ofPort p n.req)).map (·.req.seq)).dedup.length
  let reg (e : Nat × Region) : Nat × Region := (e.1, { e.2 with cur := e.2.cur.map (orphan p) })
  (h.1 + invs, { s with
    home := { s.home with pfAt := s.home.pfAt.filter (fun e => e.1 % 512 != p) }
    coh := { s.coh with
      regions := s.coh.regions.map reg
      inotes := s.coh.inotes.map (fun n => { n with req := orphan p n.req }) }
    sw := { s.sw with lot := s.sw.lot.filter (fun e => e.port != p) } })

/-- A store to RXA_BASE that waits is taken away with its port. -/
def State.flushRxa (s : State) (p id : Nat) : State :=
  match (s.agent id).rxaPend with
  | some r => if ofPort p r then s.rxRelease id else s
  | none => s

/-- Messages from and to a port that its port die or the egress holds are discarded (R118). -/
def State.flushQueues (s : State) (p : Nat) : State :=
  let ing := s.sw.ing.filter (fun x => x.port == p)
  let egr := s.sw.egr.filter (fun x => x.point == p)
  let voq := s.sw.voq.filter (fun c => c.point == p)
  -- a MSG of the port on its way to an uplink has not been performed
  let up := s.dropUplink (fun m => mSrc m == s.agentId p)
  let s := up.2
  let d := s.rd .PRT_CFG_DIE p
  let s := { s with sw := { s.sw with
    ing := s.sw.ing.filter (fun x => x.port != p)
    voq := s.sw.voq.filter (fun c => c.point != p) } }
  let s := s.lower .SWC_BUF_ING_USED d 0 (ing.map (·.slots)).sum
  let s := voq.foldl (fun s c => (s.ingPlaced c.ing).mcastDone c.mcast) s
  let s := egr.foldl (fun s x => s.fromEgress x) s
  -- a MSG on its way to an uplink is counted there, and a DATA the agent forwarded goes on
  let onWay (x : IngMsg) : Bool :=
    (mOpc x.msg == opMSG && mDsw x.msg != 0 && decide (x.point < 320) && !x.held)
      || (mOpc x.msg == opDATA && s.rd .PRT_PFTL_STAT_ROLE p != 3)
  let open_ := ing.filter (fun x => !x.taken && !onWay x)
  s.bump .SWC_FLUSHED_COUNT 0 0 (open_.length + egr.length + voq.length + up.1)

/-- A message that was cutting through when its port went down: at a port egress it is completed with zeros,
PSN 1 and POISON; at a die it is discarded (R108). -/
def State.flushPart (s : State) (p : Nat) : State :=
  let part := (s.link p).part
  let m := msgOfBytes part
  if part.isEmpty then s
  else if mOpc m = opDATA then
    match (s.fwdOf p m).bind (fun f => if s.coh.engReads.any (s.engTakes f m) then none else s.portOfAgent (mDst m)) with
    | some q =>
      if (s.link p).partCut then
        s.send (s.portDie p) q (mSc m) (s.reqSub q (mSeq m))
          (respMsg (mSc m) (mSrc m) (mDst m) (mSeq m)
            { status := stPOISON, psn := true, data := some (slice m.payload 0 64) })
      else s.bump .SWC_FLUSHED_COUNT
    | none => s.bump .SWC_FLUSHED_COUNT
  else s.bump .SWC_FLUSHED_COUNT

/-- Snoops and notes to an agent that is gone are answered as if with FLUSHED; a group in which it owns lines
faults (R118, R232, R237). -/
def State.flushAgent (s : State) (id : Nat) : State :=
  let gs := (List.range 16).filter (fun g => match s.slotListed g id with | some m => s.ownsLines g m | none => false)
  let s := gs.foldl (fun s g => s.groupFault g 0) s
  let ls := s.coh.dir.filter (fun e => e.2.st.transient && !s.coh.hacks.any (fun h => h.1 == id && lineOf (mAddr h.2) == e.1) &&
    (match s.slotListed e.2.cg id with | some m => e.2.awaiting.contains m | none => false))
  let s := ls.foldl (fun s e =>
    match s.slotListed e.2.cg id with
    | some m => s.flushedSnoop e.1 m
    | none => s) s
  let walk := s.coh.dir.any (fun e => match s.slotListed e.2.cg id with | some m => e.2.shr.contains m | none => false)
  let s := { s.unsubscribe id with coh := { (s.unsubscribe id).coh with
    fwds := (s.unsubscribe id).coh.fwds.filter (fun f => f.id != id) } }
  if walk then s.updAgent id (fun a => { a with walking := true }) else s

/-- Accesses outstanding at a tray are lost with its port (R71). -/
def State.flushTray (s : State) (p : Nat) : State :=
  (s.home.tacc.filter (fun t => t.port == p)).foldl (fun s t => s.trayLost t) s

/-- The binding of a port ends: its queues are flushed, EV_AGENT_LEAVE is raised, and the ID stays held by its
lease (R75). ROLE and AGENT_ID read 0 then, and PRT_CRED_REM keeps what the last agent advertised (DESIGN CHOICE, log
entry 95). -/
def State.unbind (s : State) (p : Nat) : State :=
  if !s.on .PRT_PFTL_STAT_BOUND p then
    (s.wr .PRT_PFTL_STAT_STATE 0 p).updPort p (fun x => { x with link := Link.init, offered := none, lastDisc := [] })
  else
    let id := s.agentId p
    let s := (s.flushPart p).flushQueues p
    let h := s.flushHeld p
    let s := (h.2.flushRxa p id).bump .SWC_FLUSHED_COUNT 0 0 h.1
    let tray := decide (s.rd .PRT_PFTL_STAT_ROLE p = 3)
    let s := if tray then s.flushTray p else s.abortAll id
    let s := if s.rd .PRT_PFTL_STAT_ROLE p = 2 then s.flushAgent id else s.unsubscribe id
    let s := s.carAbortAll (fun c => s.carAgent c == some id)
    let s := ((s.wr .PRT_PFTL_STAT_BOUND 0 p).wr .PRT_PFTL_STAT_STATE 0 p).wr .PRT_PFTL_STAT_ROLE 0 p
    let s := s.wr .PRT_PFTL_STAT_AGENT_ID 0 p
    let s := s.updPort p (fun x => { x with link := Link.init, srcq := Source.init, flushing := true, offered := none,
                                            lastDisc := [], written := false })
    (s.capRefresh).event .agentLeave p

/-! ### Uplinks that leave UP (R159) -/

/-- A MSG bound for an uplink ends with this status at its source (R59, R159, R161). -/
def State.msgEnd (s : State) (die : Nat) (m : Msg) (st : Nat) : State :=
  match s.portOfAgent (mSrc m) with
  | none => s.bump .SWC_FLUSHED_COUNT
  | some p =>
    let r : Req := { org := .port p, src := mSrc m, seq := mSeq m, msg := m, sub := s.reqSub p (mSeq m), dep := none, hot := false,
                     causes := [], win := none }
    (s.markDone r).answerFrom die r { status := st }

/-- A message for an uplink that is at another one's die goes on to it: in the same die at once, else through a plane. -/
def State.moveUplink (s : State) (die u cls sub : Nat) (m : Msg) : State :=
  if s.portDie u = die then s.sendLocal u cls sub m else s.send die u cls sub m

/-- The frames queued for an uplink that has left UP move to their new uplinks, or end FLUSHED if there is
none (R159). -/
def State.uplinkLeft (s : State) (p : Nat) : State :=
  let mine := s.sw.egr.filter (fun x => x.point == p)
  let s := mine.foldl (fun s x => s.fromEgress x) s
  mine.foldl (fun s x =>
    match s.uplinkFor (mDsw x.msg) (mMpri x.msg) with
    | some u => s.moveUplink (s.portDie p) u x.cls x.sub x.msg
    | none => s.msgEnd (s.portDie p) x.msg stFLUSHED) s

/-! ### Downs (R154 to R156) -/

/-- Configured lanes of a port. -/
def State.width (s : State) (p : Nat) : Nat := s.rd .PRT_CFG_WIDTH p

/-- REPAIRED: a lane in service runs on the die's repair lane (R152, R163). -/
def State.showRepaired (s : State) (p : Nat) : State :=
  s.wr .PRT_LINK_STAT_REPAIRED (b2n ((List.range (s.width p)).any (fun i =>
    s.rd .PRT_LANE_MAP_STATE p i == 1 && s.rd .PRT_LANE_MAP_PHYS p i == 17 * s.rd .PRT_CFG_DIE p + 16))) p

/-- PRT_LANE_MAP, LANES and REPAIRED: these lanes are in service, and failed lanes are shown (R153). -/
def State.showLanes (s : State) (p : Nat) (used : List Nat) : State :=
  let s := (List.range (s.width p)).foldl (fun s i =>
    s.wr .PRT_LANE_MAP_STATE (if used.contains i then 1 else if (s.port p).badLanes.contains i then 2 else 0) p i) s
  (s.wr .PRT_LINK_STAT_LANES used.length p).showRepaired p

/-- A port leaves the link: unbound and flushed, with no lane in service. -/
def State.linkOff (s : State) (p st : Nat) : State :=
  let s := (s.setLstate p st).updPort p (fun x =>
    { x with attempts := 0, repairing := false, failedLane := none, fastBad := [], testQ := [] })
  (if s.pmode p = 3 then s.uplinkLeft p else s.unbind p).showLanes p []

/-- STATE of an unbound PFTL port that is UP or in RETRAIN follows DISC_EN: DISCOVERY, or DOWN while it is held out (Table 2.15). -/
def State.discFollow (s : State) (p : Nat) : State :=
  if s.isPftl p && (s.lstate p == 2 || s.lstate p == 3) && !s.on .PRT_PFTL_STAT_BOUND p then
    (s.wr .PRT_PFTL_STAT_STATE (b2n (s.on .PRT_PFTL_CTL_DISC_EN p)) p).updPort p (fun x => { x with offered := none, lastDisc := [] })
  else s

/-- Counted downs within the window of R155; epochs in containment do not count (R385). -/
def State.flaps (s : State) (p : Nat) : Nat :=
  let now := s.rcv.containFrom.getD s.epoch
  ((s.port p).downs.filter (fun e => decide (now < e + 2 ^ s.rd .PRT_FLAP_CFG_WIN_LOG2 p))).length

/-- One more counted down; k with it (R154). -/
def State.countDown (s : State) (p : Nat) : Nat × State :=
  let s := (s.updPort p (fun x => { x with downs := (s.epoch :: x.downs).take 15 })).bump .PRT_DOWN_CNT_COUNT p
  (s.flaps p, s.wr .PRT_FLAPS_K (s.flaps p) p)

/-- A port is PARKED (R156). -/
def State.park (s : State) (p : Nat) : State := (s.linkOff p 5).event .portFlap p

/-- A counted down: HOLD for a time that doubles, or PARKED at the limit (R154 to R156). -/
def State.downCounted (s : State) (p : Nat) : State :=
  let r := s.countDown p
  let s := r.2
  if s.rd .PRT_FLAP_CFG_LIMIT p ≤ r.1 then s.park p
  else
    let h := min (2 ^ (s.rd .PRT_FLAP_CFG_BASE_LOG2 p + r.1 - 1)) (2 ^ s.rd .PRT_FLAP_CFG_MAX_LOG2 p)
    (s.linkOff p 4).wr .PRT_HOLD_REMAIN h p

/-- A down that does not count (R154). -/
def State.downQuiet (s : State) (p : Nat) : State := s.linkOff p 0

/-- A port that may train starts to (R149). -/
def State.startTrain (s : State) (p : Nat) : State :=
  if (s.port p).signal && s.on .PRT_CTL_EN p then s.setLstate p 1 else s.setLstate p 0

/-- Requests that already wait on a tray when its port retrains wait for the retrain from then on (R151, R210, R211). -/
def State.retrainWaits (s : State) (p : Nat) : State :=
  let note (a : List Req × State) (r : Req) : List Req × State :=
    if r.causes.contains 2 then (a.1 ++ [r], a.2)
    else (a.1 ++ [{ r with causes := r.causes ++ [2] }], (a.2.bump (lateFld 2)).lateLog (pageOf (mAddr r.msg)) 2)
  let busy := ((s.home.waits.filter (fun w => w.cause == 1 && s.trayPort (trayOf w.key) == some p)).map (·.key)).dedup
  let s := busy.foldl (fun s pg => s.recause pg 2) s
  (s.home.tacc.filter (fun t => t.port == p)).foldl (fun s t =>
    match t.kind with
    | .load rs =>
      let w := rs.foldl note ([], s)
      { w.2 with home := { w.2.home with tacc := w.2.home.tacc.map (fun y => if y = t then { y with kind := .load w.1 } else y) } }
    | .grant =>
      match s.dirEnt t.line with
      | some e =>
        match e.req with
        | some r => let w := note ([], s) r; w.2.setDir t.line { e with req := w.1.head? }
        | none => s
      | none => s
    | _ => s) s

/-- The moves of pages of a tray whose port leaves UP are abandoned (R203). -/
def State.abandonMoves (s : State) (p : Nat) : State :=
  (s.tier.migs.filter (fun m => m.kind ≤ 1 && s.trayPort (trayOf m.page) == some p)).foldl (fun s m =>
    if s.tier.migs.contains m then s.abandonMig m else s) s

/-- A port enters RETRAIN; a further trigger joins the retrain in progress (R150, R151). -/
def State.enterRetrain (s : State) (p : Nat) : State :=
  if s.lstate p ≠ 2 then s
  else
    let s := ((s.setLstate p 3).bump .PRT_RETRAIN_CNT_COUNT p).updPort p (fun x => { x with attempts := 0, fastBad := [] })
    if s.pmode p = 3 then s.uplinkLeft p
    else if s.pmode p = 2 then (s.retrainWaits p).abandonMoves p
    else s

/-- A retrain is over and the port is UP: unacknowledged flits are replayed, and work for its tray resumes
(R42, R203). -/
def State.retrained (s : State) (p : Nat) : State :=
  let s := (s.setLstate p 2).updPort p (fun x =>
    { x with attempts := 0, repairing := false, failedLane := none, fastBad := [], testQ := [],
             link := { x.link with replays := 0 } })
  (if s.active p then s.resend p else s).retryDemotions

/-- After 16 replays without an advance the link retrains (R42). A replay that finds nothing to send counts too (DESIGN
CHOICE, log entry 96). -/
def State.replay (s : State) (p : Nat) : State :=
  let s := ((s.resend p).bump .PRT_REPLAY_COUNT p).updLink p (fun l => { l with replays := l.replays + 1 })
  if 16 ≤ (s.link p).replays then s.enterRetrain p else s

end Sys2Proof.Machine
end

