-- ==== Sys2Proof/Machine/Tasks.lean ====
section
/-! DEFINITION. Host commands that move pages and go on by themselves: object commands and schedule runs (R207 to
R209), and the eviction walk (R398, R399). -/

namespace Sys2Proof.Machine

/-! ### The eviction walk (R398) -/

/-- May the device start to move a page of its own accord: not in containment (Table 16.4), and in RUN (R518). -/
def State.mayStartPages (s : State) : Bool :=
  s.running && !s.contained && s.rd .SEC_TEN_STAT_STATE != 2

/-- Slices over their Oasis quota (R398). -/
def State.slicesOver (s : State) : List Nat := (List.range 32).filter (fun n => s.oasisOver n 0)

/-- The page a home demotes next for a slice: the coldest unpinned HOLDING page, ties to the lowest frame. -/
def State.walkVictim (s : State) (n k : Nat) : Option (Nat × Page) := s.victim k (fun pg _ => s.sliceOf pg == n)

/-- One more page of the walk is demoted; POS and PCT count it (R398). -/
def State.walkCount (s : State) : State :=
  let s := s.advance .POOL_RCMP_POS_POS
  s.wr .POOL_RCMP_PCT_PCT (min 10000 (pct (s.rd .POOL_RCMP_POS_POS) (s.rd .POOL_RCMP_TOT_TOTAL)))

/-- One page of a slice at a home: a clean page is demoted at once; a dirty one starts, if it can. The
first part says whether anything was done. -/
def State.walkPage (s : State) (n k : Nat) : Bool × State :=
  if !s.oasisOver n 0 then (false, s)
  else
    match s.walkVictim n k with
    | none => (false, s)
    | some v =>
      let d := s.demote v.1 none
      if d.1 && !v.2.dirty then (true, d.2.walkCount)
      else if d.1 then (true, { d.2 with busy := { d.2.busy with rcmpPages := d.2.busy.rcmpPages ++ [v.1] } })
      else (!v.2.keep && (d.2.page v.1).keep, d.2)

/-- One page at every home for every slice over its quota. -/
def State.walkRound (s : State) : Bool × State :=
  s.slicesOver.foldl (fun (a : Bool × State) n =>
    (List.range 16).foldl (fun (a : Bool × State) k =>
      let r := a.2.walkPage n k
      (a.1 || r.1, r.2)) a) (false, s)

/-- Rounds until nothing more can start. -/
def State.walkRounds (s : State) : Nat → State
  | 0 => s
  | n + 1 =>
    let r := s.walkRound
    if r.1 then State.walkRounds r.2 n else r.2

/-- Demotions of the walk that have ended: a page that reached TRAY is counted; a move abandoned under R203 is not. -/
def State.walkEnded (s : State) : State :=
  let ended := s.busy.rcmpPages.filter (fun pg => (s.page pg).loc != 2)
  let s := ended.foldl (fun s pg => if (s.page pg).loc = 0 then s.walkCount else s) s
  { s with busy := { s.busy with rcmpPages := s.busy.rcmpPages.filter (fun pg => !ended.contains pg) } }

/-- The walk's STATUS, and command 6 is done (R398, Table 21.5). -/
def State.walkEnd (s : State) (st : Nat) : State :=
  let s := ({ s with busy := { s.busy with rcmpEvict := false } }).wr .POOL_RCMP_STAT_BUSY 0
  (s.wr .POOL_RCMP_STAT_STATUS st).cmdDone 6

/-- The walk goes as far as it can. -/
def State.walk (s : State) : State :=
  if !s.busy.rcmpEvict then s
  else
    let s := s.walkEnded
    let s := if s.mayStartPages then s.walkRounds (s.tier.pages.length + 1) else s
    if !s.busy.rcmpPages.isEmpty then s
    else if s.slicesOver.isEmpty then s.walkEnd stOK
    else if s.slicesOver.all (fun n => (List.range 16).all (fun k => (s.walkVictim n k).isNone)) then s.walkEnd stQUOTA
    else s

/-! ### Objects and the schedule (R207 to R209) -/

/-- An object. -/
def Obj.free : Obj := { state := 0, base := 0, pages := 0, layer := 0xFFFF }

def State.object (s : State) (i : Nat) : Obj := tget Obj.free s.tier.objs i

def State.setObject (s : State) (i : Nat) (o : Obj) : State :=
  { s with tier := { s.tier with objs := tset Obj.free s.tier.objs i o } }

/-- Pages of an object that have a record. -/
def State.objPages (s : State) (o : Obj) : List (Nat × Page) :=
  s.tier.pages.filter (fun e => decide (o.base ≤ e.1 ∧ e.1 < o.base + o.pages))

/-- What placing one page came to: done, to be tried later, or impossible. -/
inductive Placed where
  | done
  | later
  | no
  deriving DecidableEq, Repr

/-- Promote a page under R206. -/
def State.placeFrame (s : State) (pg : Nat) : Placed × State :=
  let g := s.ergcGate pg
  match g.1 with
  | .started => (if (g.2.page pg).loc = 2 then .done else .later, g.2)
  | .wait 3 => (.no, g.2)
  | _ => (.later, g.2)

/-- PLACE_OASIS of one page: promoted if it is in TRAY, and pinned (R207); a page of an ERG_ONLY extent never moves
(R198). -/
def State.placeIn (s : State) (pg : Nat) : Placed × State :=
  let pin (s : State) : State := s.setPage pg { s.page pg with pin := true }
  let x := s.page pg
  if x.loc = 1 then (.done, pin s)
  else if x.loc = 2 then
    if s.tier.migs.any (fun m => m.page == pg && m.kind == 0) then (.done, pin s) else (.later, s)
  else if s.busy.rewrite.contains pg then (.later, s)
  else if !s.mayPromote pg then (.no, s)
  else
    let r := s.placeFrame pg
    (r.1, if r.1 = .done then pin r.2 else r.2)

/-- PLACE_ERG of one page: unpinned, wherever it is, and demoted (R207); a kept page stays (R205). -/
def State.placeOut (s : State) (pg : Nat) : Placed × State :=
  let x := s.page pg
  let s := s.setPage pg { x with pin := false }
  if x.loc = 2 then (if s.tier.migs.any (fun m => m.page == pg && m.kind == 1) then .done else .later, s)
  else if x.loc ≠ 1 then (.done, s)
  else
    if x.keep then (.done, s)
    else
      let d := s.demote pg none
      if d.1 ∨ (d.2.page pg).keep then (.done, d.2) else (.later, d.2)

/-- POS and PCT (R209). -/
def State.showPos (s : State) (pos : Nat) : State :=
  (s.wr .TIER_PROG_POS_POS pos).wr .TIER_PROG_PCT_PCT (pct pos (s.rd .TIER_PROG_TOT_TOTAL))

/-- POS: the pages processed, in the entries before and in this one, less those in flight (R209). -/
def State.objProgress (s : State) : State :=
  let o := s.object s.busy.objIdx
  let moving := ((s.objPages o).filter (fun e => e.2.loc == 2 && decide (e.1 < o.base + s.busy.objNext))).length
  s.showPos (s.busy.objPos + (s.busy.objNext - moving))

/-- A command or run is over: BUSY falls, and command 9 is done (R207, R209, Table 21.5). -/
def State.objOver (s : State) : State :=
  let o := s.object s.busy.objIdx
  let s := { s with busy := { s.busy with objOp := 0, objNext := 0, runQ := [], objStop := false, objFail := false, objPos := 0 } }
  ((((s.wr .TIER_OBJ_RES_STATE o.state).wr .TIER_OBJ_RES_BUSY 0).wr .TIER_SCHED_STAT_RUNNING 0)).cmdDone 9

/-- The next entry of a run whose object may be placed; the entries before it are skipped and counted (R208), and so are
their pages (R209). -/
def State.nextEntry (s : State) : List (Nat × Nat) → State
  | [] => s.objOver
  | (i, e) :: t =>
    let o := s.object i
    if o.state = 0 ∨ !s.activeAt (o.base * 65536) then
      let s := ({ s with busy := { s.busy with runQ := t, objPos := s.busy.objPos + o.pages } }).bump .TIER_SCHED_SKIP_COUNT
      State.nextEntry (s.showPos s.busy.objPos) t
    else
      ({ s with busy := { s.busy with runQ := t, objIdx := i, objOp := if e % 2 = 0 then 2 else 3, objNext := 0, objFail := false } }).wr
        .TIER_SCHED_STAT_ENTRY (e / 2)

/-- The command on one object, or the entry of a run, is over with its status: the object's state, and the
next entry if there is one. A run's status is QUOTA where an entry ended so. -/
def State.objDone (s : State) (st : Nat) : State :=
  let i := s.busy.objIdx
  let o := s.object i
  let held := ((s.objPages o).filter (fun e => e.2.loc == 1)).length
  let state : Nat := if o.state = 0 then 0 else if s.busy.objOp = 2 then (if st = stOK ∧ held = o.pages then 2 else 3)
    else (if (s.objPages o).isEmpty ∨ held = 0 then 1 else 3)
  let s := s.setObject i { o with state := state }
  let s := if st = stOK then s else s.wr .TIER_OBJ_RES_STATUS st
  let s := s.objProgress
  let s := { s with busy := { s.busy with objPos := s.busy.objPos + s.busy.objNext, objNext := 0 } }
  if s.busy.objStop || s.busy.runQ.isEmpty then s.objOver else s.nextEntry s.busy.runQ

/-- Process pages of the object in ascending order as far as they can start (R207). -/
def State.objStart (s : State) : Nat → State
  | 0 => s
  | n + 1 =>
    let o := s.object s.busy.objIdx
    if o.pages ≤ s.busy.objNext then s
    else
      let pg := o.base + s.busy.objNext
      let r := if s.busy.objOp = 2 then s.placeIn pg else s.placeOut pg
      match r.1 with
      | .done => State.objStart ({ r.2 with busy := { r.2.busy with objNext := r.2.busy.objNext + 1 } }) n
      | .later => r.2
      | .no => { r.2 with busy := { r.2.busy with objFail := true } }

/-- Is nothing of the object in flight. -/
def State.objStill (s : State) (o : Obj) : Bool := (s.objPages o).all (fun e => e.2.loc != 2)

/-- One advance of the command in progress. -/
def State.objAdvance (s : State) : State :=
  if s.busy.objOp = 0 then s
  else if (s.object s.busy.objIdx).state = 0 then s.objDone stOK
  else
    let i := s.busy.objIdx
    let s := if s.mayStartPages && !s.busy.objStop && !s.busy.objFail then s.objStart ((s.object i).pages + 1) else s
    if s.busy.objOp = 0 ∨ s.busy.objIdx ≠ i then s
    else
      let o := s.object i
      let s := s.objProgress
      if !s.objStill o then s
      else if s.busy.objFail then s.objDone stQUOTA
      else if s.busy.objStop then s.objDone stOK
      else if s.busy.objNext < o.pages then s
      else if s.busy.objOp = 2 ∧ ((s.objPages o).filter (fun e => e.2.loc == 1)).length < o.pages then
        -- a move that was abandoned is tried again (R203)
        { s with busy := { s.busy with objNext := 0 } }
      else if s.busy.objOp = 3 ∧ (s.objPages o).any (fun e => e.2.loc == 1 && !e.2.keep) then
        { s with busy := { s.busy with objNext := 0 } }
      else s.objDone stOK

/-- A run goes through its entries; `n` bounds how many in one command. -/
def State.objRun (s : State) : Nat → State
  | 0 => s
  | n + 1 =>
    let k := s.busy.runQ.length
    let s' := s.objAdvance
    if s'.busy.objOp ≠ 0 ∧ s'.busy.runQ.length < k then State.objRun s' n else s'

/-- Page moves in progress go on. -/
def State.tasks (s : State) : State := (s.objRun (s.busy.runQ.length + 1)).walk

end Sys2Proof.Machine
end

