-- ==== Sys2Proof/Machine/Recov.lean ====
section
/-! DEFINITION. Faults and recovery (R371 to R387): the sequencer's queue, containment, planes (R120 to R123),
frames and stacks (R378 to R380), control dies (R382), and the end of every command. -/

namespace Sys2Proof.Machine

/-! ### Containment (R383 to R386) -/

/-- The device enters containment: 1 storm, 2 an S4 error of class `cls`, 3 the host (R383). Channels are
aborted (Table 16.4). -/
def State.enterContain (s : State) (cause cls : Nat) : State :=
  if s.contained then
    if cause = 2 ∧ s.rd .EVT_CONTAIN_CAUSE ≠ 2 then (s.wr .EVT_CONTAIN_CAUSE 2).wr .EVT_CONTAIN_CLASS cls else s
  else
    let s := ((s.wr .EVT_CONTAIN_ACTIVE 1).wr .EVT_CONTAIN_CAUSE cause).wr .EVT_CONTAIN_CLASS (if cause = 2 then cls else 0)
    let s := { s with rcv := { s.rcv with containFrom := some s.epoch } }
    ((s.event .contain 0 0 cause).irq 1).carAbortAll (fun _ => true)

/-- Containment ends: leases, operation deadlines and flap windows move later by the epochs it lasted (R385, R386), a down
counted in containment by those since it; demotions put off go on. -/
def State.leaveContain (s : State) : State :=
  let d := match s.rcv.containFrom with | some e => s.epoch - e | none => 0
  let s := ((s.wr .EVT_CONTAIN_ACTIVE 0).wr .EVT_CONTAIN_CAUSE 0).wr .EVT_CONTAIN_CLASS 0
  let ag (e : Nat × Agent) : Nat × Agent := (e.1, if e.2.valid then { e.2 with expiry := e.2.expiry + d } else e.2)
  let sl (e : Nat × OpSlot) : Nat × OpSlot := (e.1, if e.2.isOpen then { e.2 with deadline := e.2.deadline + d } else e.2)
  let from_ := s.rcv.containFrom.getD s.epoch
  let pt (e : Nat × Port) : Nat × Port := (e.1, { e.2 with downs := e.2.downs.map (fun t => min t from_ + d) })
  let co (c : Coll) : Coll := { c with deadline := c.deadline + d }
  let s := { s with
    rcv := { s.rcv with containFrom := none }
    agents := s.agents.map ag
    rgf := { s.rgf with slots := s.rgf.slots.map sl, colls := s.rgf.colls.map co }
    ports := s.ports.map pt }
  ((s.event .containClear).lateScans).retryDemotions

/-! ### Planes (R120 to R123) -/

/-- The slots in force whose plane has failed. -/
def State.failedSlots (s : State) : List Nat :=
  (List.range (s.rd .SWC_PLANE_STAT_N_ACTIVE)).filter (fun h => s.planeFailed (s.planeIn h))

/-- The spare plane: free, sound and not held (R482); of several the lowest (DESIGN CHOICE, log entry 76). -/
def State.sparePlane (s : State) : Option Nat :=
  (List.range 8).find? (fun n =>
    !s.planeFailed n && !s.dieHeld n && !(List.range (s.rd .SWC_PLANE_STAT_N_ACTIVE)).any (fun h => s.planeIn h == n))

/-- A plane is declared failed (Table 4.3, steps 1 and 2). -/
def State.planeFail (s : State) (n : Nat) : State :=
  if 8 ≤ n ∨ s.planeFailed n then s
  else
    let s := (s.wr .SWC_PLANE_STAT_FAILED (setBit (s.rd .SWC_PLANE_STAT_FAILED) n true)).event .planeFail n
    (s.wr .SWC_PLANE_STAT_SPARE_AVAIL (b2n s.sparePlane.isSome)).raise 0x05 n

/-- Requests that a die took through a failed plane and has not acknowledged are sent to it again; it discards each copy
(R90, R121, step 4). A copy of a request that its home still holds is the one that waits there (DEDUCED, log entry 87). -/
def State.replayTaken (s : State) (n : Nat) : State :=
  (s.sw.ing.filter (fun x => x.taken && x.req && x.plane == n)).foldl (fun s x =>
    let go (y : IngMsg) : IngMsg :=
      if y.n = x.n then { y with plane := s.planeIn (s.planeSlot (mSrc x.msg) (mSeq x.msg) 0) } else y
    let s := { s with sw := { s.sw with ing := s.sw.ing.map go } }
    if s.already (s.ingReq x) then s.bump .POOL_DUP_DISCARD_COUNT else s) s

/-- Messages that a failed plane carried go again, behind what the plane that now has their slot already carries (Table 4.3,
step 4). A multicast entry lost with the plane is not rebuilt: its message is sent again to every destination (R122). -/
def State.replane (s : State) (n : Nat) : State :=
  let again (c : Cross) : Cross := { c with plane := s.planeIn (s.planeSlot (mSrc c.msg) (mSeq c.msg) c.xsn) }
  let lost := s.sw.mcast.filter (fun e => e.plane == n)
  let ofLost (c : Cross) : Bool := lost.any (fun e => c.mcast == some e.n)
  let alone (c : Cross) : Cross := { again c with mcast := none }
  let sent : List Cross := lost.flatMap (fun (e : McEnt) => e.copies.map alone)
  let mine := s.sw.cross.filter (fun c => c.plane == n && !ofLost c)
  let rest := s.sw.cross.filter (fun c => c.plane != n && !ofLost c)
  let s := { s with sw := { s.sw with
    cross := rest ++ mine.map again ++ sent
    voq := s.sw.voq.map (fun c => if ofLost c then again c else c)
    mcast := s.sw.mcast.filter (fun e => e.plane != n) } }
  s.mcastFill.replayTaken n

/-- The spare plane takes the failed plane's slot (Table 4.3, steps 3 to 5). -/
def State.spareIn (s : State) : State :=
  match s.failedSlots, s.sparePlane with
  | h :: _, some q =>
    let n := s.planeIn h
    let s := (s.wr .SWC_PLANE_MAP_SLOT q 0 h)
    let s := (s.wr .SWC_PLANE_STAT_SPARE_AVAIL (b2n s.sparePlane.isSome)).event .planeSpare q
    (s.bump .SWC_FAILOVER_COUNT).replane n
  | _, _ => s

/-- With no spare free N falls by one and the map is compacted; the last plane lost is an S4 error (R123). -/
def State.planeReduce (s : State) : State :=
  match s.failedSlots, s.sparePlane with
  | h :: _, none =>
    let n := s.rd .SWC_PLANE_STAT_N_ACTIVE
    let gone := s.planeIn h
    if n ≤ 1 then s.enterContain 2 0x0F
    else
      let left := sortBy id (((List.range n).filter (· != h)).map s.planeIn)
      let s := (List.range 7).foldl (fun s i => s.wr .SWC_PLANE_MAP_SLOT (left.getD i 0xF) 0 i) s
      (s.wr .SWC_PLANE_STAT_N_ACTIVE (n - 1)).replane gone
  | _, _ => s

/-- The step of the sequencer that follows the failure of a plane: it is recorded, and the degraded states of Table 16.5 are set
that hold now: the spare of the start-up map, plane 7, is in service; N is less than 7 (R373, R376). -/
def State.planeStep (s : State) (n : Nat) : State :=
  let s := s.rmap 0x05 n
  let s := if (List.range (s.rd .SWC_PLANE_STAT_N_ACTIVE)).any (fun h => s.planeIn h == 7) then s.setDegraded 0 true else s
  if s.rd .SWC_PLANE_STAT_N_ACTIVE < 7 then s.setDegraded 1 true else s

/-! ### Frames (R378, R379) -/

/-- A page takes a substitute: the first FREE frame, or the frame of the coldest unpinned HOLDING page, once that page
has left it (R379). The first part is false where there is no such frame. -/
def State.findSub (s : State) (pg : Nat) : Bool × State :=
  let k := s.homeOfPage pg
  match s.pickFree k with
  | some f => (true, s.takeSub pg f)
  | none =>
    let pick (s : State) : Option (Nat × Page) :=
      s.victim k (fun q x => q != pg && !s.frameGone k x.frame && (s.backing k x.frame).isNone)
    let d := s.demoteFor pg pick (s.tier.pages.length + 1)
    match d.1 with
    | some v =>
      if v.2.dirty then (true, d.2)
      else
        match d.2.pickFree k with
        | some f => (true, d.2.takeSub pg f)
        | none => (false, d.2)
    | none => ((pick d.2).isSome, d.2)

/-- The page in a frame leaves it: a promoted page is demoted, or moves where its image would not fit; an Oasis page moves
(R205, R379). -/
def State.leaveFrame (s : State) (k f : Nat) : State :=
  match s.tier.pages.find? (fun e => e.2.loc == 1 && e.2.frame == f && s.homeOfPage e.1 == k) with
  | some e =>
    if ergPage e.1 then
      let s := if e.2.keep then s else s.demoteSoon e.1
      if (s.page e.1).keep then (s.findSub e.1).2 else s
    else (s.findSub e.1).2
  | none =>
    let pg := s.naturalPage k f
    if s.wantsSub pg && (s.page pg).loc == 0 then (s.findSub pg).2 else s

/-- A frame is RETIRED (R378, R379). -/
def State.retireFrame (s : State) (key : Nat) : State :=
  let k := key / 2 ^ 21 % 16
  let f := key % 2 ^ 21
  if s.frameRetired k f then s
  else
    let s := { s with tier := { s.tier with retired := tset false s.tier.retired (frameKey k f) true } }
    let s := (s.event .frameRetired (stackOf k f)).rmap 0x08 (stackOf k f) f
    (s.leaveFrame k f).capRefresh

/-! ### Stacks (R380) -/

/-- A dirty promoted page is lost with its frame: its tray lines become 0xFF with PSN 1 (R204). -/
def State.loseDirty (s : State) (pg : Nat) : State :=
  let s := s.poisonPage pg
  let s := (List.range 1024).foldl (fun s i => s.wbufPut (pg * 1024 + i) 0 allOnes true) s
  (s.bump .TIER_LOST_DIRTY_COUNT).event .lostDirty 0 pg 0

/-- A promoted page goes back to TRAY without a write-back. -/
def State.dropPromoted (s : State) (pg : Nat) : State := ((s.trayCopy pg).setPage pg Page.home).creditOasis (s.sliceOf pg) 1

/-- The migrations whose frame lies in a lost stack end (R202, R204). -/
def State.loseMigs (s : State) (n : Nat) : State :=
  (s.tier.migs.filter (fun m => stackOf m.home m.frame == n || (m.kind == 2 && stackOf m.home m.src == n))).foldl (fun s m =>
    if m.kind = 0 then s.abandonMig m
    else if m.kind = 1 then
      let s := { s with home := { s.home with tacc := s.home.tacc.filter (fun t => t.kind != TKind.migration m.page) } }
      let s := (((s.dropMig m.page).bump .TIER_MIG_ABORT_COUNT).dropPromoted m.page).loseDirty m.page
      match m.want with
      | some w => s.wantPage w
      | none => s
    else if oasisPage m.page then (s.dropMig m.page).setPage m.page { s.page m.page with loc := 3 }
    else ((s.dropMig m.page).dropPromoted m.page).loseDirty m.page) s

/-- The pages of the Oasis extents whose frame lay in a stack. -/
def State.backedIn (s : State) (n : Nat) : List Nat :=
  let k := n / 2
  let nat := s.pool.extents.flatMap (fun e =>
    if e.2.state ≠ 0 ∧ e.2.isOasis then
      ((List.range (32 * e.2.len)).map (32 * e.2.base + ·)).filter (fun pg =>
        s.homeOfPage pg == k && pg / 16 % 2 == n % 2 && (s.page pg).loc == 0)
    else [])
  nat ++ (s.tier.pages.filter (fun e => oasisPage e.1 && s.homeOfPage e.1 == k
    && (e.2.loc == 3 || (e.2.loc == 1 && e.2.frame % 2 == n % 2)))).map (·.1)

/-- A stack is lost (R380). -/
def State.stackLost (s : State) (n : Nat) : State :=
  if 32 ≤ n ∨ !s.stackIn n then s
  else
    let s := s.wr .POOL_STACKS_INSERV (setBit (s.rd .POOL_STACKS_INSERV) n false)
    let s := s.wr .EVT_STACK_LOST_STACKS (setBit (s.rd .EVT_STACK_LOST_STACKS) n true)
    let s := { s with rcv := { s.rcv with stackWait := s.rcv.stackWait.filter (· != n) } }
    let s := s.loseMigs n
    let mine := s.tier.pages.filter (fun e => e.2.loc == 1 && ergPage e.1 && stackOf (s.homeOfPage e.1) e.2.frame == n)
    let s := mine.foldl (fun s e =>
      let s := s.dropPromoted e.1
      if e.2.dirty then s.loseDirty e.1 else s) s
    let s := (s.backedIn n).foldl (fun s pg => ((s.setPage pg { s.page pg with loc := 3 }).findSub pg).2) s
    let s := (s.countNosub.capRefresh).event .stackLost n
    (s.setDegraded 6 true).rmap 0x09 n

/-- The rows of a frame that wait for their check; of an entry reported from outside the row is free (R378; log entry 31). -/
def State.rowsOf (s : State) (f : Nat) : List Nat × State :=
  let mine := (s.rcv.rows.filter (fun e => e.1 == f)).map (·.2)
  if mine.isEmpty then
    let r := s.free
    ([r.1 % 2 ^ 32], r.2)
  else (mine, { s with rcv := { s.rcv with rows := s.rcv.rows.filter (fun e => e.1 != f) } })

/-- One line of a row is read, corrected as far as the code allows, and rewritten into the spare row; what the check finds there
is no new error of the row (R378). -/
def State.rewriteLine (s : State) (l : Nat) : State :=
  let r := s.checkLine l
  let t := (r.2.putLine l 0 (r.1.getD (r.2.lineBytes l))).clearSym l
  { t with rcv := s.rcv }

/-- Post-package repair of a row: its lines in error are rewritten, and it is recorded (R378). -/
def State.repairRow (s : State) (n row : Nat) : State :=
  let mine := (s.pool.symErr.map (·.1)).filter (fun l => frameStack (s.frameOfLine l) == n && s.rowOfLine l == row)
  (mine.foldl (fun s l => s.rewriteLine l) s).rmap 0x07 n row

/-- A row without a spare: every frame that has a line in it is retired (R378). -/
def State.retireRow (s : State) (n row : Nat) : State :=
  (Config.rowFrames n row).foldl (fun s f => if f < 2 ^ 21 ∧ f % 2 = n % 2 then s.retireFrame (frameKey (n / 2) f) else s) s

/-- The row check of a frame: each of its rows is repaired, or the frames that have a line there are retired (R378). -/
def State.rowCheck (s : State) (f : Nat) (ok : Bool) : State :=
  let n := frameStack f
  let r := s.rowsOf f
  if ok then r.1.foldl (fun s row => s.repairRow n row) r.2
  else r.1.foldl (fun s row => s.retireRow n row) (r.2.retireFrame f)

/-! ### Units that go out of service (Table 16.3) -/

/-- The ports of a port die go DOWN and are flushed; they stay DOWN (R118, Table 16.2). -/
def State.portDieLost (s : State) (d : Nat) : State :=
  let s := if s.rcv.pdOut.contains d then s else { s with rcv := { s.rcv with pdOut := s.rcv.pdOut ++ [d] } }
  (List.range 320).foldl (fun s p =>
    if s.pmode p ≠ 0 ∧ s.rd .PRT_CFG_DIE p = d ∧ (s.lstate p ≠ 0 ∨ s.on .PRT_PFTL_STAT_BOUND p) then s.downQuiet p else s) s

/-- The HACKs that a home may take now go on. -/
def State.takeHacks (s : State) : State :=
  let mine := s.coh.hacks.filter (fun h => s.takesHack h.2)
  let s := { s with coh := { s.coh with hacks := s.coh.hacks.filter (fun h => !s.takesHack h.2) } }
  mine.foldl (fun s h => s.hackArrive h.1 h.2) s

/-- A slice takes its HACKs and requests again. -/
def State.dirResume (s : State) (k : Nat) : State :=
  ({ s with rcv := { s.rcv with dirHold := s.rcv.dirHold.filter (· != k) } }).takeHacks

/-- A directory slice is retired: DIR_OFF (Table 16.3). -/
def State.sliceRetire (s : State) (k : Nat) : State :=
  let s := if s.rcv.dirOff.contains k then s else { s with rcv := { s.rcv with dirOff := s.rcv.dirOff ++ [k] } }
  (((s.allGroupsFault).dirResume k).setDegraded 8 true).rmap 0x0B k

/-- A control die is retired; its partner holds no more and runs alone; the last of its pair is CT_PAIR_LOST (R382). -/
def State.ctRetire (s : State) (c : Nat) : State :=
  if s.rcv.ctOut.contains c then s
  else
    let s := { s with rcv := { s.rcv with ctOut := s.rcv.ctOut ++ [c], ctHold := s.rcv.ctHold.filter (· != c / 2) } }
    let s := s.rmap 0x06 c
    if s.rcv.ctOut.contains (if c % 2 = 0 then c + 1 else c - 1) then s.enterContain 2 0x0E else s.setDegraded 7 true

/-- The MREDUCE adders of a complex are MOVED (R369); the sequencer's step records it. -/
def State.moveAdders (s : State) (k : Nat) : State :=
  if s.on .SCN_MC_STAT_MOVED k then s
  else ((s.wr .SCN_MC_STAT_MOVED 1 k).event .nmMoved k).setDegraded 9 true

/-- A lane is failed: it is tested in loopback, and repaired or left out (R150, R152). `n` counts the lanes of the
port. -/
def State.laneFail (s : State) (p n : Nat) : State :=
  (s.updPort p (fun x =>
    { x with badLanes := if x.badLanes.contains n then x.badLanes else x.badLanes ++ [n]
             failedLane := if x.failedLane.isSome then x.failedLane else some n
             testQ := if x.failedLane.isSome ∧ x.failedLane ≠ some n ∧ !x.testQ.contains n then x.testQ ++ [n] else x.testQ }))

/-- The port and lane of a logical lane (R147). -/
def State.laneOwner (s : State) (l : Nat) : Option (Nat × Nat) :=
  ((List.range 320).find? (fun p => s.pmode p != 0 && s.rd .PRT_CFG_DIE p == l / 16
      && decide (s.rd .PRT_CFG_FIRST p ≤ l % 16 ∧ l % 16 < s.rd .PRT_CFG_FIRST p + s.rd .PRT_CFG_WIDTH p))).map
    (fun p => (p, l % 16 - s.rd .PRT_CFG_FIRST p))

/-- The record of a lane that has failed: the repair lane carries it, or it is left out (R152, Table 16.6). -/
def State.laneRecord (s : State) (l : Nat) : State :=
  match s.laneOwner l with
  | some (p, n) =>
    let d := s.rd .PRT_CFG_DIE p
    if (s.port p).badLanes.contains n then s.rmap 0x03 d (l % 16)
    else if s.rd .PRT_LANE_MAP_PHYS p n = 17 * d + 16 then s.rmap 0x02 d (l % 16) (s.rd .PRT_DIE_REPAIR_MODE d - 1)
    else s
  | none => s

/-- Is a lane that has failed still to be tested in loopback (R152). -/
def State.laneTesting (s : State) (l : Nat) : Bool :=
  match s.laneOwner l with
  | some (p, n) => s.lstate p == 3 && ((s.port p).failedLane == some n || (s.port p).testQ.contains n)
  | none => false

/-- Has the sequencer an entry for a lane. -/
def State.laneQueued (s : State) (l : Nat) : Bool :=
  (s.rcv.queue ++ s.rcv.running.toList).any (fun e => e.cls == 4 && e.unit == l)

/-- A failed PE column is replaced by a repair column, and the repair map has it; a die that needs a ninth has failed (R247). The
unit is the die plus 36 times the column (DESIGN CHOICE, log entry 89). -/
def State.peColumn (s : State) (u : Nat) : State :=
  let d := u % 36
  let n := s.rd .RGF_DIE_STAT_REPCOL d
  if 264 ≤ u / 36 then s
  else if 8 ≤ n then (s.dieHard d).raise 0x06 d
  else (s.wr .RGF_DIE_STAT_REPCOL (n + 1) d).rmap 0x01 d (u / 36) n

/-- A unit that errs in its own recovery is retired at once (R377, Table 16.3). The retirement is recorded, as the last step
of the entry that it replaces would have done (R388). -/
def State.retireUnit (s : State) (cls u : Nat) : State :=
  match cls with
  | 0x02 => s.retireFrame u
  | 0x03 => s.park u
  | 0x04 =>
    match s.laneOwner u with
    | some (p, n) => s.laneFail p n
    | none => s
  | 0x05 => (s.planeFail u).planeStep u
  | 0x06 | 0x07 =>
    if 48 ≤ u then (s.moveAdders (u - 48)).rmap 0x0C (u - 48)
    else
      let s := if s.firstSpare.isSome then s.retireDie u false else (s.dieHard u).dieHardPass u
      s.rmap 0x04 u 0 (s.role u)
  | 0x08 => s.stackLost u
  | 0x09 => ((s.portDieLost u).setDegraded 3 true).rmap 0x0A u
  | 0x0A => s.sliceRetire u
  | 0x0C => s.ctRetire u
  | _ => s

/-! ### The queue (R374 to R377) -/

/-- Severity of a class (Table 16.2). -/
def sevOf (cls : Nat) : Nat :=
  if cls = 0x01 then 0 else if cls = 0x02 ∨ cls = 0x03 then 1 else if 0x04 ≤ cls ∧ cls ≤ 0x09 then 2
  else if 0x0A ≤ cls ∧ cls ≤ 0x0C then 3 else 4

/-- Do two classes name the same kind of unit. -/
def sameUnit (a b : Nat) : Bool := a == b || (decide (a = 6 ∨ a = 7) && decide (b = 6 ∨ b = 7))

/-- The best entry of a queue: highest severity, then earliest, then first in. -/
def bestEnt (q : List RcvEnt) : Option RcvEnt :=
  q.foldl (fun (b : Option RcvEnt) e =>
    match b with
    | none => some e
    | some c => if c.sev < e.sev ∨ (c.sev = e.sev ∧ e.time < c.time) then some e else b) none

/-- Change the sequencer's part. -/
def State.withRcv (s : State) (q : List RcvEnt) (r : Option RcvEnt) : State :=
  { s with rcv := { s.rcv with queue := q, running := r } }

/-- The sequencer runs the best entry; a more severe one preempts the running one (R374, R375). -/
def State.sequence (s : State) : State :=
  match bestEnt s.rcv.queue, s.rcv.running with
  | none, _ => s
  | some e, none => s.withRcv (s.rcv.queue.erase e) (some { e with started := true })
  | some e, some r =>
    if r.sev < e.sev then
      (s.withRcv (s.rcv.queue.erase e ++ [{ r with step := 1 }]) (some { e with started := true })).bump .EVT_RCV_PREEMPT_COUNT
    else s

/-- The running entry is completed. -/
def State.entryDone (s : State) : State := ((s.withRcv s.rcv.queue none).bump .EVT_RCV_DONE_COUNT).sequence

/-- The immediate action of a class reported from outside, where it is a change of state (Table 16.2). -/
def State.immediate (s : State) (cls u : Nat) : State :=
  match cls with
  | 0x05 => s.planeFail u
  | 0x06 => if u < 36 then s.dieHard u else s
  | 0x08 =>
    if s.stackIn u && !s.rcv.stackWait.contains u then { s with rcv := { s.rcv with stackWait := s.rcv.stackWait ++ [u] } } else s
  | 0x09 => s.portDieLost u
  | 0x0A =>
    if s.rcv.dirHold.contains u || s.rcv.dirOff.contains u then s
    else { s with rcv := { s.rcv with dirHold := s.rcv.dirHold ++ [u] } }
  | 0x0B => s.allGroupsFault
  | 0x0C =>
    if s.rcv.ctHold.contains (u / 2) then s else { s with rcv := { s.rcv with ctHold := s.rcv.ctHold ++ [u / 2] } }
  | _ => s

/-- An error is reported to the sequencer (R372 to R377, R383). A PE column has no class and no entry: it is replaced at once
(R247; log entry 89). -/
def State.report (s : State) (f : StandingFault) : State :=
  let sev := sevOf f.cls
  if f.cls = 0 ∨ sev = 0 then s
  else if f.cls = 0x101 then s.peColumn f.unit
  else if sev = 4 then s.enterContain 2 f.cls
  else
    let own (e : RcvEnt) : Bool := sameUnit e.cls f.cls && e.unit == f.unit && e.started
    if s.rcv.running.any own ∨ s.rcv.queue.any own then
      let s := ((s.retireUnit f.cls f.unit).bump .EVT_UNIT_RETIRED_COUNT).event .unitRetired f.unit 0 f.cls
      let s := s.withRcv (s.rcv.queue.filter (fun e => !own e)) s.rcv.running
      if s.rcv.running.any own then s.entryDone else s.bump .EVT_RCV_DONE_COUNT
    else if s.rcv.queue.any (fun e => e.cls == f.cls && e.unit == f.unit) then
      (s.withRcv (s.rcv.queue.map (fun e => if e.cls = f.cls ∧ e.unit = f.unit then { e with count := e.count + 1 } else e))
        s.rcv.running).bump .EVT_RCV_MERGED_COUNT
    else if 64 ≤ s.rcv.queue.length then
      ((s.bump .EVT_STORMS_COUNT).bump .EVT_RCV_DROPPED_COUNT).enterContain 1 0
    else
      (s.withRcv (s.rcv.queue ++ [{ cls := f.cls, unit := f.unit, sev := sev, time := s.now, count := 0, step := 1, started := false }])
        s.rcv.running).sequence

/-- Errors that a command has met are reported; reporting one may raise more, `n` bounds the rounds. -/
def State.reportAll (s : State) : Nat → State
  | 0 => s
  | n + 1 =>
    match s.rcv.raised with
    | [] => s
    | f :: t => State.reportAll (({ s with rcv := { s.rcv with raised := t } }).report f) n

/-- A stack whose second data pin has failed is lost (R380). -/
def State.losePins (s : State) : State :=
  (s.rcv.pins.filter (fun e => decide (2 ≤ e.2))).foldl (fun s e => s.stackLost e.1) s

/-- The end of every command: a stack with two failed pins is lost, errors are reported, held requests enter their queues, page moves go on, and
requests whose wait is over, reads of moved directory lines and held HACKs go on. -/
def State.settle (s : State) : State :=
  let s := s.losePins
  let s := (s.reportAll (s.rcv.raised.length + 4)).queueHeld
  let s := s.tasks.resume.grantAgain.takeHacks
  let s := s.grantVoq s.sw.voq.length
  s.reportAll (s.rcv.raised.length + 4)

/-- A command's effect, with the waits it ends. -/
def settled (s : State) : Host.Outcome State Fault Refusal := .next s.settle

/-! ### The order of the host's accesses (R89) -/

/-- Does a BAR0 access of the host come now behind a posted write that is still to be performed, or behind another that
waits so. -/
def State.hostHeld (s : State) : Bool := !s.host.draining && (s.host.reqs.any (·.isWrite) || !s.host.behind.isEmpty)

/-- A BAR0 access waits its turn. -/
def State.fallBehind (s : State) (read : Bool) (c : Instr) : State :=
  { s with nextId := s.nextId + 1, host := { s.host with behind := s.host.behind ++ [Behind.mk s.nextId read c] } }

/-- What a BAR0 access of the host does, once every earlier posted write is performed. -/
def State.inOrder (s : State) (read : Bool) (c : Instr) (act : State → State) : State :=
  if s.hostHeld then s.fallBehind read c else act s

/-- A command that is a register write of the host. -/
def hostRow (c : Instr) (act : State → State) (s : State) : Host.Outcome State Fault Refusal := settled (s.inOrder false c act)

end Sys2Proof.Machine
end

