-- ==== Sys2Proof/Machine/LinkRows.lean ====
section
/-! DEFINITION. The commands of the PFTL link and of discovery (Tables 2.1, 2.2, 2.13, 2.14): flits in,
acknowledgement and replay, HELLO, CREDITS and the limits. -/

namespace Sys2Proof.Machine

/-! ### Flits in (R38 to R42) -/

/-- The slots of a message that did not enter the ingress region are returned at once. -/
def State.creditBack (s : State) (p : Nat) (m : Msg) : State :=
  s.updLink p (fun l => { l with freed := l.freed.set (poolOf m) ((l.freed.getD (poolOf m) 0 + mSlots m) % 4096) })

/-- A DATA that an agent forwards enters the ingress region and goes toward the port of its DST, or to the
engine that asked (R61, R220). -/
def State.deliverFwd (s : State) (p : Nat) (m : Msg) (cut : Bool) : State :=
  let n := s.nextId
  let q := (s.portOfAgent (mDst m)).getD p
  let r := (s.pushIng p q (mSc m) (s.reqSub q (mSeq m)) m false false false none).fwdData p m (some n) cut
  if r.1 then r.2
  else
    { r.2 with sw := { r.2.sw with ing := r.2.sw.ing.filter (fun x => x.n != n) } }.freeSlots p (poolOf m) (mSlots m)

/-- The point whose queue a message of a port enters, as the tap and the forwarding mode see it (R98). -/
def State.pointFor (s : State) (p : Nat) (m : Msg) : Nat :=
  if mOpc m = opDATA ∧ s.rd .PRT_PFTL_STAT_ROLE p ≠ 3 then (s.portOfAgent (mDst m)).getD p
  else if mOpc m = opDATA ∨ mOpc m = opCMP then
    match s.taccAt p (mSeq m) with
    | some t => 320 + s.homeOfPage (t.line / 1024)
    | none => 320
  else s.queuePoint (s.mkReq p m)

/-- Does a message that begins on a port cut through (R106). -/
def State.headCut (s : State) (p : Nat) (m : Msg) : Bool := s.cutsThrough p (s.pointFor p m) (mSc m) m

/-- The ingress tap sees a message once the flit with its header has passed its CRC (R126). The plane it shows is the one
that the message's source and number choose; one that carries neither has no crossing number yet and counts as 0 (log
entry 75). -/
def State.headTap (s : State) (p : Nat) (m : Msg) : State :=
  s.mirrTap { port := p, egress := false, msg := m, plane := s.planeIn (s.planeSlot (mSrc m) (mSeq m) 0), cut := s.headCut p m }

/-- The subscriber of the request that a HACK answers (Table 5.1). -/
def State.hackSub (s : State) (p : Nat) (m : Msg) : Nat :=
  match s.noteOf (s.agentId p) m with
  | some n => n.req.sub
  | none => (((s.dirEnt (lineOf (mAddr m))).bind (·.req)).map (·.sub)).getD (s.subOf p)

/-- The subscriber of a tray's answer: that of the request its access serves, or 1023 (Table 5.1). -/
def State.taccSub (s : State) (p : Nat) (m : Msg) : Nat :=
  match s.taccAt p (mSeq m) with
  | none => 1023
  | some t =>
    match t.kind with
    | .load (r :: _) => r.sub
    | .grant => (((s.dirEnt t.line).bind (·.req)).map (·.sub)).getD 1023
    | .writeBack | .fill => ((tfind s.home.wbuf t.line).map (·.sub)).getD 1023
    | _ => 1023

/-- An answer passes the point of the die that it answers, which selects it as it comes (R131, R132; log entry 5). -/
def State.passAnswer (s : State) (p : Nat) (m : Msg) (sub : Nat) : State :=
  let q := s.pointFor p m
  (s.selectAt [{ n := s.nextId, cls := mSc m, sub := sub, cost := 16 * mSlots m, ready := true, cyc := s.cycle }] q).2

/-- A message reaches the transaction layer of a port (R38, R70, R224). A request passes the checks of Table
2.11; an answer goes toward the die it answers. `began` says of a message whose header came in an earlier flit
whether it cut through then. -/
def State.deliverMsg (s : State) (p : Nat) (m : Msg) (began : Option Bool) : State :=
  let tray := decide (s.rd .PRT_PFTL_STAT_ROLE p = 3)
  let o := mOpc m
  let q := s.pointFor p m
  let cut := began.getD (s.headCut p m)
  let s := if began.isNone then s.headTap p m else s
  if tray ∧ (o = opDATA ∨ o = opCMP) then
    if (s.taccAt p (mSeq m)).isSome then s.pushIng p q (mSc m) (s.taccSub p m) m false false false none else s.creditBack p m
  else if !tray ∧ o = opHACK then s.pushIng p q (mSc m) (s.hackSub p m) m false false false none
  else if !tray ∧ o = opDATA then s.deliverFwd p m cut
  else
    let n := s.nextId
    let s := s.ingress p m 0 (fun s r => s.queueReq p r)
    if s.sw.ing.any (fun x => decide (n ≤ x.n) && x.port == p) then s.wake 2 else s.creditBack p m

/-- The messages a PROTOCOL flit completes, in order (R38), and the message that begins in it and goes on in the next
one: its forwarding is chosen as soon as its header is checked (R106). -/
def State.takeFlit (s : State) (p : Nat) (f : List Byte) : State :=
  let l := s.link p
  let r := takeSlots (flHdrmap f) (flitSlots f) 0 l.part
  let s := s.updLink p (fun l => { l with part := r.2 })
  let s := r.1.zipIdx.foldl (fun s e => s.deliverMsg p e.1 (if e.2 = 0 ∧ l.part ≠ [] then some l.partCut else none)) s
  if r.2 = [] ∨ (r.1 = [] ∧ l.part ≠ []) then s
  else
    let m := msgOfBytes r.2
    (s.headTap p m).updLink p (fun l => { l with partCut := s.headCut p m })

/-- A flit fails at the receiver: it is discarded, and a NAK goes out unless one is already waiting (R41). -/
def State.nakFlit (s : State) (p : Nat) : State :=
  if (s.link p).nakWait then s else (s.updLink p (fun l => { l with nakWait := true })).sendNak p

/-- PROTOCOL_FLIT (R38). A flit with the expected FSEQ is taken; another one is answered with a NAK (R41). The
receiver acknowledges at the latest after 32 flits (R40). -/
def execProtocolFlit (p : Nat) (flit : List Byte) (s : State) : Host.Outcome State Fault Refusal :=
  settled (
    if 320 ≤ p ∨ !s.flits p ∨ !flitOk flit ∨ flType flit ≠ 1 then s
    else
      let s := s.takeAck p flit
      let l := s.link p
      if flSeq flit ≠ l.rxNext then s.nakFlit p
      else
        let s := s.updLink p (fun l =>
          { l with rxNext := (l.rxNext + 1) % 4096, nakWait := false, ackV := true, unacked := l.unacked + 1 })
        let s := s.takeFlit p flit
        if 32 ≤ (s.link p).unacked then s.sendIdle p else s)

/-- IDLE_FLIT (R40). -/
def execIdleFlit (p : Nat) (flit : List Byte) (s : State) : Host.Outcome State Fault Refusal :=
  settled (if p < 320 ∧ s.flits p ∧ flitOk flit ∧ flType flit = 0 then s.takeAck p flit else s)

/-- NAK (R41): every unacknowledged flit is sent again; 16 replays in a row without an advance retrain the link
(R42). -/
def execNak (p : Nat) (flit : List Byte) (s : State) : Host.Outcome State Fault Refusal :=
  settled (if p < 320 ∧ s.flits p ∧ flitOk flit ∧ flType flit = 2 then (s.takeAck p flit).replay p else s)

/-- REPLAY_TIMEOUT (R41): the same, without a NAK. -/
def execReplayTimeout (p : Nat) (s : State) : Host.Outcome State Fault Refusal :=
  settled (if p < 320 ∧ s.flits p ∧ (s.link p).replayBuf ≠ [] then s.replay p else s)

/-- NAK_REPEAT (R41). -/
def execNakRepeat (p : Nat) (s : State) : Host.Outcome State Fault Refusal :=
  settled (if p < 320 ∧ s.flits p ∧ (s.link p).nakWait then s.sendNak p else s)

/-- ACK_DEADLINE (R40). -/
def execAckDeadline (p : Nat) (s : State) : Host.Outcome State Fault Refusal :=
  settled (if p < 320 ∧ s.flits p ∧ (s.link p).unacked ≠ 0 then s.sendIdle p else s)

/-- CRC_FAILURE (R37, R41): the flit is discarded, none of its fields is trusted, and a NAK is sent. -/
def execCrcFailure (p : Nat) (s : State) : Host.Outcome State Fault Refusal :=
  settled (if p < 320 ∧ s.isPftl p ∧ s.lstate p = 2 then
      let s := s.bump .PRT_CRC_ERR_COUNT p
      if s.active p then s.nakFlit p else s
    else s)

/-! ### Discovery (R72 to R74) -/

/-- A discovery record leaves in a DISC flit and is the one to be repeated (R72, R73). -/
def State.sendDisc (s : State) (p : Nat) (rec_ : List Byte) : State :=
  let rec_ := slice rec_ 0 240
  (s.updPort p (fun x => { x with lastDisc := rec_ })).emit (.disc p (discFlit rec_))

/-- A REJECT (Table 2.13). -/
def State.sendReject (s : State) (p reason : Nat) : State :=
  ((s.wr .PRT_PFTL_STAT_STATE 3 p).updPort p (fun x => { x with offered := none })).sendDisc p
    (leBytes 1 4 ++ leBytes 1 1 ++ leBytes 1 0 ++ leBytes 1 reason)

/-- The port-map entry of a port (Table 19.4). -/
def State.pmapOf (s : State) (p : Nat) : Option PMap := s.boot.image.pmap.find? (fun e => e.port == p)

/-- Is an ID static in the port map. -/
def State.isStatic (s : State) (id : Nat) : Bool := s.boot.image.pmap.any (fun e => !e.dyn && e.mode != 3 && e.agent == id)

/-- Is an ID bound, or offered on another port (R48). -/
def State.idTaken (s : State) (p id : Nat) : Bool :=
  (s.portOfAgent id).isSome || s.ports.any (fun e => e.1 != p && e.2.offered == some id)

/-- The ID for a HELLO (R74): the port map's, the one claimed, or the lowest free. An ID whose directory walk (R237) still
runs is not free, and a claim of it counts as no valid claim (DESIGN CHOICE, log entry 72). -/
def State.chooseId (s : State) (p : Nat) (rec_ : List Byte) : Option Nat :=
  match s.pmapOf p with
  | none => none
  | some e =>
    if !e.dyn then some e.agent
    else
      let prev := leAt rec_ 16 2
      let id := prev % 4096
      let a := s.agent id
      if bit prev 15 && a.valid && a.serial == some (leAt rec_ 8 8) && !s.idTaken p id && !a.walking then some id
      else
        (List.range 4096).find? (fun i =>
          !s.isStatic i && !s.idTaken p i && !(s.agent i).valid && !(s.agent i).walking)

/-- An ASSIGN (Table 2.13). -/
def State.assignRecord (s : State) (p id : Nat) : List Byte :=
  leBytes 1 2 ++ leBytes 1 1 ++ leBytes 1 0 ++ leBytes 2 id ++ leBytes 2 s.boot.image.switchNo
    ++ leBytes 2 (s.rd .PRT_PFTL_CTL_TMO_US p) ++ leBytes 6 (winBase + 65536 * id)
    ++ (List.range 16).flatMap (fun n => leBytes 2 (s.rd .PRT_CRED_LOC_ADV p n))

/-- Step 2 of Table 2.14: version, role and ID. The version fails where the major byte is not this device's (DESIGN CHOICE,
log entry 71). An ASSIGN may go out while the port is still flushing; the binding waits, at CREDITS (R119; DESIGN CHOICE,
log entry 77). A static port whose ID's directory walk (R237) still runs leaves the HELLO unanswered; the agent repeats it
(DESIGN CHOICE, log entry 72). -/
def State.helloCheck (s : State) (p : Nat) (rec_ : List Byte) : State :=
  let role := leAt rec_ 3 1
  let ok := if s.pmode p = 2 then role == 3 else role == 1 || role == 2
  if leAt rec_ 1 1 ≠ 1 then s.sendReject p 2
  else if !ok then s.sendReject p 3
  else
    match s.chooseId p rec_ with
    | none => (s.sendReject p 1).event .idExhausted p
    | some id =>
      if (s.agent id).walking then s
      else
        let s := (s.wr .PRT_PFTL_STAT_STATE 1 p).updPort p (fun x =>
          { x with offered := some id, role := role, serial := leAt rec_ 8 8, hello := rec_, capacity := leAt rec_ 20 4 })
        s.sendDisc p (s.assignRecord p id)

/-- May a port take part in discovery now. -/
def State.discovers (s : State) (p : Nat) : Bool :=
  decide (p < 320) && s.isPftl p && s.lstate p == 2 && s.on .PRT_CTL_EN p && s.on .PRT_PFTL_CTL_DISC_EN p

/-- Does a port receive DISC flits now. -/
def State.linked (s : State) (p : Nat) : Bool :=
  decide (p < 320) && s.isPftl p && s.lstate p == 2 && s.on .PRT_CTL_EN p

/-- HELLO (R73, R75, R154): a HELLO from a bound agent first takes the port down, as a counted down; it then
proceeds, unless the port is PARKED (log entry 32) or held out of discovery. -/
def execHello (p : Nat) (rec_ : List Byte) (s : State) : Host.Outcome State Fault Refusal :=
  settled (
    if !s.linked p ∨ leAt rec_ 0 1 ≠ 1 then s
    else if s.on .PRT_PFTL_STAT_BOUND p then
      let r := s.countDown p
      if r.2.rd .PRT_FLAP_CFG_LIMIT p ≤ r.1 then r.2.park p
      else
        let s := (r.2.unbind p).discFollow p
        if s.discovers p then s.helloCheck p rec_ else s
    else if s.discovers p then s.helloCheck p rec_ else s)

/-- The least credits an agent must advertise (Table 2.3). -/
def credMin (tray : Bool) (n : Nat) : Nat :=
  if tray then (if n = 2 then 1 else if n = 3 ∨ n = 5 then 5 else 0)
  else if n = 0 then 1 else if n = 1 then 2
  else if (8 ≤ n ∧ n ≤ 12) ∨ n = 14 then 5 else 0

/-- The lease of an ID at a binding (R179, R180), and what a new serial number clears (R172, R362). -/
def State.bindAgent (s : State) (p id serial : Nat) : State :=
  let a := s.agent id
  let same := a.serial == some serial
  let a := if same then a else
    { a with lost := false, rxaBase := 0, rxaLog2 := 0, rxaHead := 0, rxaTail := 0, rxaDrop := 0, writing := [], notes := 0,
             noteOpid := 0, noteTime := 0, tainted := 0 }
  let a := if a.valid then a else { a with valid := true, expiry := s.epoch + 2 ^ s.rd .POOL_LEASE_CFG_DEF_LOG2 }
  let s := if same then s else (s.agent id).writing.foldl (fun s m => (s.rxDrain m).msgAnswer id m stQUOTA) (s.engDrop (.rxa id))
  (s.updAgent id (fun _ => { a with serial := some serial, port := some p })).freshSlots id

/-- Step 4 of Table 2.14: the port is bound and ACTIVE, and its first flit confirms it. A pool's credits are kept in the
11 bits of PRT_CRED_REM: an agent that advertises more than 2,047 slots is held to 2,047 (DESIGN CHOICE, log entry 69). -/
def State.bind (s : State) (p id : Nat) (rec_ : List Byte) : State :=
  let x := s.port p
  let s := (List.range 16).foldl (fun s n => s.wr .PRT_CRED_REM_ADV (min 2047 (leAt rec_ (3 + 2 * n) 2)) p n) s
  let s := (((s.wr .PRT_PFTL_STAT_BOUND 1 p).wr .PRT_PFTL_STAT_ROLE x.role p).wr .PRT_PFTL_STAT_AGENT_ID id p).wr
    .PRT_PFTL_STAT_STATE 2 p
  let s := s.updPort p (fun x =>
    { x with link := Link.init, srcq := Source.init, offered := none, lastDisc := [], traySeq := 0, written := false })
  let s := { s with home := { s.home with pfAt := s.home.pfAt.filter (fun e => e.1 % 512 != p) } }
  let s := (s.bindAgent p id x.serial).capRefresh
  ((s.event .agentJoin p).sendIdle p).retryDemotions

/-- CREDITS (R46, R73). -/
def execCredits (p : Nat) (rec_ : List Byte) (s : State) : Host.Outcome State Fault Refusal :=
  settled (
    if !s.discovers p ∨ leAt rec_ 0 1 ≠ 3 ∨ (s.port p).flushing then s
    else
      match (s.port p).offered with
      | none => s
      | some id =>
        let tray := s.pmode p == 2
        if (List.range 16).any (fun n => decide (leAt rec_ (3 + 2 * n) 2 < credMin tray n)) then s.sendReject p 5
        else s.bind p id rec_)

/-- DISC_REPEAT (R73). -/
def execDiscRepeat (p : Nat) (s : State) : Host.Outcome State Fault Refusal :=
  settled (if s.discovers p ∧ !s.active p ∧ (s.port p).lastDisc ≠ [] then s.emit (.disc p (discFlit (s.port p).lastDisc))
    else s)

/-- DISCOVERY_LIMIT (R73, R154): a port not ACTIVE 10 ms after link up goes down, and the down counts. -/
def execDiscoveryLimit (p : Nat) (s : State) : Host.Outcome State Fault Refusal :=
  settled (if s.discovers p ∧ !s.active p then s.downCounted p else s)

end Sys2Proof.Machine
end

