-- ==== Sys2Proof/Machine/RequestRows.lean ====
section
/-! DEFINITION. The commands that are messages of an agent (Tables 2.5 and 2.10): requests, answers, the stores
of the control window (Table 7.2, Table 10.4), launches and contributions. A row's message carries the opcode
of its row, whatever its operand holds (log entry 33). -/

namespace Sys2Proof.Machine

/-- A message with another field of its header. -/
def withField (m : Msg) (lo n v : Nat) : Msg :=
  { m with hdr := (m.hdr &&& ~~~(BitVec.ofNat 128 ((2 ^ n - 1) * 2 ^ lo))) ||| BitVec.ofNat 128 (v % 2 ^ n * 2 ^ lo) }

/-- A store to a word of the sender's own block: ST unless it is an ST.REL, at this offset and of this SIZE. -/
def State.winMsg (s : State) (p : Nat) (m : Msg) (off sizeF : Nat) : Msg :=
  let m := if mOpc m = opST_REL then m else withOpc m opST
  withField (withAddr m (winBase + 65536 * s.agentId p + off)) 24 3 sizeF

/-- The operation slot that a message of a slot's row names. -/
def slotOfMsg (m : Msg) : Nat := winOff (mAddr m) / 0x800 % 16

/-- A launch of opcode `opc` (R252): a store to a slot's launch word. -/
def State.launchMsg (s : State) (p : Nat) (m : Msg) (opc : Nat) : Msg :=
  let m := s.winMsg p m (0x800 * slotOfMsg m + 0x400) 3
  { m with payload := patch m.payload 7 (leBytes 1 opc) }

/-! ### Requests (Table 2.5) -/

/-- RD. -/
def execRd (p : Nat) (m : Msg) (s : State) : Host.Outcome State Fault Refusal := settled (s.request p (withOpc m opRD))
/-- RDX. -/
def execRdx (p : Nat) (m : Msg) (s : State) : Host.Outcome State Fault Refusal := settled (s.request p (withOpc m opRDX))
/-- UPG. -/
def execUpg (p : Nat) (m : Msg) (s : State) : Host.Outcome State Fault Refusal := settled (s.request p (withOpc m opUPG))
/-- WB. -/
def execWb (p : Nat) (m : Msg) (s : State) : Host.Outcome State Fault Refusal := settled (s.request p (withOpc m opWB))
/-- WBC. -/
def execWbc (p : Nat) (m : Msg) (s : State) : Host.Outcome State Fault Refusal := settled (s.request p (withOpc m opWBC))
/-- NRD. -/
def execNrd (p : Nat) (m : Msg) (s : State) : Host.Outcome State Fault Refusal := settled (s.request p (withOpc m opNRD))
/-- NWR. -/
def execNwr (p : Nat) (m : Msg) (s : State) : Host.Outcome State Fault Refusal := settled (s.request p (withOpc m opNWR))
/-- LD. -/
def execLd (p : Nat) (m : Msg) (s : State) : Host.Outcome State Fault Refusal := settled (s.request p (withOpc m opLD))
/-- ST. -/
def execSt (p : Nat) (m : Msg) (s : State) : Host.Outcome State Fault Refusal := settled (s.request p (withOpc m opST))
/-- ST.REL. -/
def execStRel (p : Nat) (m : Msg) (s : State) : Host.Outcome State Fault Refusal := settled (s.request p (withOpc m opST_REL))
/-- AT. -/
def execAt (p : Nat) (m : Msg) (s : State) : Host.Outcome State Fault Refusal := settled (s.request p (withOpc m opAT))
/-- INV. -/
def execInv (p : Nat) (m : Msg) (s : State) : Host.Outcome State Fault Refusal := settled (s.request p (withOpc m opINV))
/-- PUB. -/
def execPub (p : Nat) (m : Msg) (s : State) : Host.Outcome State Fault Refusal := settled (s.request p (withOpc m opPUB))
/-- SUBS. -/
def execSubs (p : Nat) (m : Msg) (s : State) : Host.Outcome State Fault Refusal := settled (s.request p (withOpc m opSUBS))
/-- MSG. -/
def execMsg (p : Nat) (m : Msg) (s : State) : Host.Outcome State Fault Refusal := settled (s.request p (withOpc m opMSG))

/-- Any other opcode from an agent, or a response opcode its port may not send, is refused at ingress (R64,
check 1 of Table 2.11). -/
def execUndefinedOpcode (p : Nat) (m : Msg) (s : State) : Host.Outcome State Fault Refusal :=
  let tray := decide (s.rd .PRT_PFTL_STAT_ROLE p = 3)
  let o := mOpc m
  let answers := if tray then o == opDATA || o == opCMP else o == opHACK || o == opDATA
  settled (if isRequest o || answers then s else s.request p m)

/-! ### Answers (Table 2.10) -/

/-- HACK (R60, R224, R244): an accelerator's answer to a snoop or a note. -/
def execHack (p : Nat) (m : Msg) (s : State) : Host.Outcome State Fault Refusal :=
  let m := withOpc m opHACK
  settled (
    if 320 ≤ p ∨ !s.active p then s
    else if s.rd .PRT_PFTL_STAT_ROLE p = 3 then s.request p m
    else (s.passAnswer p m (s.hackSub p m)).hackArrive (s.agentId p) m)

/-- DATA (R61, R70): a tray's answer to an LD, or the data an owning agent forwards. -/
def execData (p : Nat) (m : Msg) (s : State) : Host.Outcome State Fault Refusal :=
  let m := withOpc m opDATA
  settled (
    if 320 ≤ p ∨ !s.active p then s
    else if s.rd .PRT_PFTL_STAT_ROLE p = 3 then (s.passAnswer p m (s.taccSub p m)).trayData p m
    else (s.fwdData p m none (s.headCut p m)).2)

/-- CMP (R70): a tray's answer to an ST. An accelerator may not send one (Table 2.5). -/
def execCmp (p : Nat) (m : Msg) (s : State) : Host.Outcome State Fault Refusal :=
  let m := withOpc m opCMP
  settled (
    if 320 ≤ p ∨ !s.active p then s
    else if s.rd .PRT_PFTL_STAT_ROLE p = 3 then (s.passAnswer p m (s.taccSub p m)).trayCmp p m
    else s.request p m)

/-! ### The control window (Table 7.2) -/

/-- LEASE_WORD_STORE (R171, R179). -/
def execLeaseWordStore (p : Nat) (m : Msg) (s : State) : Host.Outcome State Fault Refusal :=
  settled (s.request p (s.winMsg p m 0x8000 3))

/-- FENCE_WORD_STORE (R170). -/
def execFenceWordStore (p : Nat) (m : Msg) (s : State) : Host.Outcome State Fault Refusal :=
  settled (s.request p (s.winMsg p m 0x8100 0))

/-- RXA_BASE_STORE (R172, R174). -/
def execRxaBaseStore (p : Nat) (m : Msg) (s : State) : Host.Outcome State Fault Refusal :=
  settled (s.request p (s.winMsg p m 0x8200 3))

/-- RXA_TAIL_STORE (R172). -/
def execRxaTailStore (p : Nat) (m : Msg) (s : State) : Host.Outcome State Fault Refusal :=
  settled (s.request p (s.winMsg p m 0x8210 3))

/-- RXA_BASE_APPLY (R174). -/
def execRxaBaseApply (id : Nat) (s : State) : Host.Outcome State Fault Refusal := settled (s.doRxaBaseApply id)

/-- RECEIVE_AREA_POST (R173). -/
def execReceiveAreaPost (id : Nat) (s : State) : Host.Outcome State Fault Refusal := settled (s.doReceiveAreaPost id)

/-! ### Launches (Table 10.5) and contributions (R267) -/

/-- REDUCE. -/
def execReduce (p : Nat) (m : Msg) (s : State) : Host.Outcome State Fault Refusal := settled (s.request p (s.launchMsg p m 0x01))
/-- GATHER. -/
def execGather (p : Nat) (m : Msg) (s : State) : Host.Outcome State Fault Refusal := settled (s.request p (s.launchMsg p m 0x02))
/-- FILTER. -/
def execFilter (p : Nat) (m : Msg) (s : State) : Host.Outcome State Fault Refusal := settled (s.request p (s.launchMsg p m 0x03))
/-- MATMUL. -/
def execMatmul (p : Nat) (m : Msg) (s : State) : Host.Outcome State Fault Refusal := settled (s.request p (s.launchMsg p m 0x04))
/-- EXPAND. -/
def execExpand (p : Nat) (m : Msg) (s : State) : Host.Outcome State Fault Refusal := settled (s.request p (s.launchMsg p m 0x05))
/-- COMPRESS. -/
def execCompress (p : Nat) (m : Msg) (s : State) : Host.Outcome State Fault Refusal := settled (s.request p (s.launchMsg p m 0x06))
/-- OWNER_OF. -/
def execOwnerOf (p : Nat) (m : Msg) (s : State) : Host.Outcome State Fault Refusal := settled (s.request p (s.launchMsg p m 0x07))
/-- XFER_OWNER. -/
def execXferOwner (p : Nat) (m : Msg) (s : State) : Host.Outcome State Fault Refusal := settled (s.request p (s.launchMsg p m 0x08))
/-- FILL. -/
def execFill (p : Nat) (m : Msg) (s : State) : Host.Outcome State Fault Refusal := settled (s.request p (s.launchMsg p m 0x10))
/-- COPY. -/
def execCopy (p : Nat) (m : Msg) (s : State) : Host.Outcome State Fault Refusal := settled (s.request p (s.launchMsg p m 0x11))
/-- COMPARE. -/
def execCompare (p : Nat) (m : Msg) (s : State) : Host.Outcome State Fault Refusal := settled (s.request p (s.launchMsg p m 0x12))

/-- MREDUCE; `res` is what the residue checks of its adders find (R317). -/
def execMreduce (p : Nat) (m : Msg) (res : Nat) (s : State) : Host.Outcome State Fault Refusal :=
  settled (s.request p (s.launchMsg p m 0x13) res)

/-- ABORT_WORD (R257, R259). -/
def execAbortWord (p : Nat) (m : Msg) (s : State) : Host.Outcome State Fault Refusal :=
  settled (s.request p (s.winMsg p m (0x800 * slotOfMsg m + 0x408) 3))

/-- CONTRIBUTION (R267): an ST in SC4 to a contribution window; `res` is what the residue checks find (R317). -/
def execContribution (p : Nat) (m : Msg) (res : Nat) (s : State) : Host.Outcome State Fault Refusal :=
  settled (s.request p (withField (withOpc m opST) 119 3 4) res)

/-! ### Operations (R250 to R271) -/

/-- LAUNCH_QUEUE_PLACE (R263). -/
def execLaunchQueuePlace (s : State) : Host.Outcome State Fault Refusal := settled s.doLaunchQueuePlace

/-- PART_START (R250). -/
def execPartStart (d res pm : Nat) (s : State) : Host.Outcome State Fault Refusal := settled (s.doPartStart d res pm)

/-- PART_END (R250). -/
def execPartEnd (d : Nat) (s : State) : Host.Outcome State Fault Refusal := settled (s.doPartEnd d)

/-- COMPLETION_RECORD (R257). -/
def execCompletionRecord (id slot : Nat) (s : State) : Host.Outcome State Fault Refusal :=
  settled (s.doCompletionRecord id slot)

/-- OPERATION_TIMEOUT (R258). -/
def execOperationTimeout (id slot : Nat) (s : State) : Host.Outcome State Fault Refusal :=
  settled (s.doOperationTimeout id slot)

/-- ACCUMULATOR_GRANT (R269). -/
def execAccumulatorGrant (tag chunk : Nat) (s : State) : Host.Outcome State Fault Refusal :=
  settled (s.doAccumulatorGrant tag chunk)

/-- CHUNK_EMITTED (R281). -/
def execChunkEmitted (tag chunk : Nat) (s : State) : Host.Outcome State Fault Refusal := settled (s.doChunkEmitted tag chunk)

end Sys2Proof.Machine
end

