-- ==== Sys2Proof/Machine/FrontierRows.lean ====
section
/-! DEFINITION. The commands of the performed frontier and of the trays: load timeout and cancel (R66, R80), gaps
(R52), reports and updates (R79, R81), tray timeouts (R71) and write-backs (R77). -/

namespace Sys2Proof.Machine

/-- A request of a port by its number. -/
def isSeq (p seq : Nat) (r : Req) : Bool := r.org == .port p && r.seq == seq

/-- LOAD_TIMEOUT (R66, R80): a request with no final response at its egress, and whose timer still runs, gets the error value,
and a cancel goes to its home. -/
def execLoadTimeout (p seq : Nat) (s : State) : Host.Outcome State Fault Refusal :=
  settled (
    match (s.source p).outst.find? (fun o => o.seq == seq && !o.answered && !o.stopped) with
    | none => s
    | some o =>
      let s := s.updSource p (fun q =>
        { q with outst := q.outst.map (fun x => if x.seq = seq then { x with answered := true, cancelled := true } else x)
                 cancels := q.cancels ++ [seq] })
      (s.bump .PRT_TMO_COUNT p).sendLocal p (mSc o.msg) o.sub
        (respMsg (mSc o.msg) (mSrc o.msg) (s.agentId p) seq (s.errorValue o.msg)))

/-- A request is discarded wherever it is held (R80). -/
def State.discard (s : State) (p seq : Nat) : State :=
  let s := (s.dropHeld (isSeq p seq)).2
  let s := (s.dropUplink (fun m => mSrc m == s.agentId p && mSeq m == seq)).2
  let s := { s with coh := { s.coh with inotes := s.coh.inotes.filter (fun n => !isSeq p seq n.req) } }
  match s.agents.find? (fun e => match e.2.rxaPend with | some r => isSeq p seq r | none => false) with
  | some e => s.rxRelease e.1
  | none => s

/-- CANCEL (R80, steps 2 and 3): it has no effect on a request already performed; any other is discarded and
its number marked as resolved. -/
def execCancel (p seq : Nat) (s : State) : Host.Outcome State Fault Refusal :=
  settled (
    if !(s.source p).cancels.contains seq then s
    else
      let s := s.updSource p (fun q => { q with cancels := q.cancels.filter (· != seq) })
      if (s.source p).isDone seq then s
      else
        ((s.discard p seq).updSource p (fun q => { q with canceled := q.canceled ++ [seq] })).bump .POOL_CANCEL_COUNT)

/-- CANCEL_CONFIRM (R80, step 4): the frontier may pass the number. -/
def execCancelConfirm (p seq : Nat) (s : State) : Host.Outcome State Fault Refusal :=
  settled (
    if !(s.source p).canceled.contains seq then s
    else
      (s.updSource p (fun q =>
        { q with canceled := q.canceled.filter (· != seq), outst := q.outst.filter (fun o => o.seq != seq) })).settleSeq p seq)

/-- Is a number missing: neither received nor performed (R52). -/
def Source.missing (q : Source) (seq : Nat) : Bool := !q.isDone seq && !q.outst.any (fun o => o.seq == seq)

/-- The missing numbers below a number (R52). -/
def Source.missingBelow (q : Source) (seq : Nat) : List Nat :=
  ((List.range (q.ahead seq)).map (fun i => (q.pf + i) % 2 ^ 20)).filter q.missing

/-- The missing numbers whose time ends first: those below the oldest number that arrived above a gap still open. -/
def Source.gap (q : Source) : List Nat := ((q.tops.map q.missingBelow).find? (fun l => !l.isEmpty)).getD []

/-- SEQ_GAP_CLOSE (R52): missing numbers count as performed. -/
def execSeqGapClose (p : Nat) (s : State) : Host.Outcome State Fault Refusal :=
  settled (
    match (s.source p).gap with
    | [] => s
    | run =>
      let s := run.foldl (fun s n => s.settleSeq p n) s
      (s.bump .PRT_SEQ_GAP_COUNT p 0 run.length).event .seqGap p)

/-- PERFORMED_REPORT (R79): a home's report reaches the port die. -/
def execPerformedReport (p seq : Nat) (s : State) : Host.Outcome State Fault Refusal :=
  settled (
    if !(s.source p).unreported.contains seq then s
    else (s.updSource p (fun q => { q with unreported := q.unreported.erase seq })).settleSeq p seq)

/-- FRONTIER_UPDATE (R81): a change of the frontier of a port reaches a memory complex. -/
def execFrontierUpdate (k p : Nat) (s : State) : Host.Outcome State Fault Refusal :=
  settled (
    if 16 ≤ k ∨ 320 ≤ p ∨ !s.on .PRT_PFTL_STAT_BOUND p then s
    else { s with home := { s.home with pfAt := tset 0 s.home.pfAt (pfKey k p) (s.source p).pf } })

/-- TRAY_TMO (R71): an access the tray did not answer in time is lost, and a tray error is reported (Table
16.2). -/
def execTrayTmo (p seq : Nat) (s : State) : Host.Outcome State Fault Refusal :=
  settled (
    match s.taccAt p seq with
    | none => s
    | some t => if s.lstate p = 3 then s else (s.trayLost t).raise 0x03 p)

/-- The class of the LD that completes an entry of the write buffer: SC2, or SC5 for traffic of that class (Table 2.5). -/
def WbEnt.ldCls (e : WbEnt) : Nat := if e.cls = 5 then 5 else 2

/-- A home writes a line of its tray write buffer back, once no other access of the line is out, under the subscriber and the
class of the request that wrote it (R70, R77, R87, R132). -/
def State.writeBack (s : State) (line : Nat) : State :=
  match tfind s.home.wbuf line with
  | none => s
  | some e =>
    if e.issued ∨ s.home.tacc.any (fun t => t.line == line) then s
    else if s.trayGate line e.cls 5 ≠ .tray then s
    else if e.bytes.length < 64 then s.traySend line false [] false e.ldCls e.sub .fill
    else
      let s := { s with home := { s.home with wbuf := tins s.home.wbuf line { e with issued := true } } }
      s.traySend line true (e.bytes.map (·.2)) e.psn e.cls e.sub .writeBack

/-- TRAY_WRITE_BACK (R70, R77): a home writes a line back that its tray write buffer holds, or that the device owes its tray;
an entry that holds only part of the line is first completed by a read. None starts in a teardown (Table 18.2), nor while the
line's page is on the move (R202). -/
def execTrayWriteBack (line : Nat) (s : State) : Host.Outcome State Fault Refusal :=
  settled (if s.rd .SEC_TEN_STAT_STATE = 2 ∨ (s.page (line / 1024)).loc = 2 then s else (s.owedIn line).writeBack line)

end Sys2Proof.Machine
end

