-- ==== Sys2Proof/Machine/SwitchRows.lean ====
section
/-! DEFINITION. The commands of the switch core: arrivals at egress (R67, R103, R118), acknowledgement (R97), the
windows of combining and merging (R113 to R116), planes (R120 to R123) and the mirror ring (R127, R128). -/

namespace Sys2Proof.Machine

/-! ### Arrival through a plane -/

/-- The home writes a DATA that came back to its line. -/
def State.storeBack (s : State) (l : Nat) (m : Msg) : State := (s.storeLine l 0 (slice m.payload 0 64) (mRpsn m)).2

/-- A forwarded DATA that its requester's egress discards goes back to the line's home, which writes it where the line awaits it
after a cancelled XX_F, or during one, or where the directory records its DST as owner in X (R228). -/
def State.fwdReturn (s : State) (line : Option Nat) (m : Msg) : State :=
  let s := s.bump .DIR_FWD_RETURN_COUNT
  let awaited := s.coh.awaits.find? (fun e => e.2.1 == mSrc m && e.2.2 == mSeq m)
  match awaited with
  | some e => s.storeBack e.1 m
  | none =>
    match line with
    | none => s
    | some l =>
      match s.dirEnt l with
      | some e =>
        if e.st == .XX_F && e.cancelled && e.req.any (fun r => r.src == mSrc m && r.seq == mSeq m) then
          (s.setDir l { e with fwdDone := true }).storeBack l m
        else if e.st == .X && (e.own.bind (s.slotAgent e.cg)) == some (mDst m) then
          s.storeBack l m
        else s
      | none => s

/-- Did a message come from a port die: it is then a DATA an owner forwarded (R61). -/
def Cross.forwarded (c : Cross) : Bool := decide (8 ≤ c.org ∧ c.org ≤ 43) && mOpc c.msg == opDATA

/-- A response reaches the egress of its requester: it ends the request there, unless the error value was sent
already; then it is discarded and counted (R65, R67). A second response of a request that has ended (R91) is discarded and
counted with those late ones (DESIGN CHOICE, log entry 73). -/
def State.respArrive (s : State) (c : Cross) : State :=
  let p := c.point
  let m := c.msg
  match (s.source p).outst.find? (fun o => o.seq == mSeq m && mSrc o.msg == mSrc m) with
  | some o =>
    let s := s.updSource p (fun q => { q with outst := q.outst.filter (fun x => x.seq != o.seq) })
    if o.answered then
      let s := s.bump .PRT_LATE_RSP_COUNT p
      if c.forwarded then s.fwdReturn (some (lineOf (mAddr o.msg))) m else s
    else s.toEgress p c.cls c.sub m c.mcast c.plane c.cut
  | none =>
    let s := s.bump .PRT_LATE_RSP_COUNT p
    if c.forwarded then s.fwdReturn none m else s

/-- A message that crossed a plane is placed in its egress region; the ingress slots it kept may be acknowledged
(R97, R103). One that was discarded on the way goes to no port (point 400). -/
def State.crossArrive (s : State) (c : Cross) : State :=
  let p := c.point
  let take (x : IngMsg) : IngMsg := if c.ing = some x.n then { x with taken := true } else x
  let s := { s with sw := { s.sw with ing := s.sw.ing.map take } }
  if 320 ≤ p then s
  else if s.pmode p = 3 then
    if (s.portOfAgent (mSrc c.msg)).isNone then s.bump .SWC_FLUSHED_COUNT
    else if s.lstate p = 2 then s.toEgress p c.cls c.sub c.msg c.mcast c.plane c.cut
    else
      match s.uplinkFor (mDsw c.msg) (mMpri c.msg) with
      | some u => s.moveUplink (s.portDie p) u c.cls c.sub c.msg
      | none => s.msgEnd (s.portDie p) c.msg stFLUSHED
  else if !s.active p || (s.port p).flushing then (s.bump .SWC_FLUSHED_COUNT).mcastDone c.mcast
  else if s.rd .PRT_PFTL_STAT_ROLE p ≠ 3 ∧ (mOpc c.msg = opDATA ∨ mOpc c.msg = opCMP) then s.respArrive c
  else s.toEgress p c.cls c.sub c.msg c.mcast c.plane c.cut

/-- Messages of an origin die that are next in order are released (R103); `n` bounds how many numbers. -/
def State.release (s : State) (o d : Nat) : Nat → State
  | 0 => s
  | n + 1 =>
    let k := Nat.pair o d
    let x := tget 0 s.sw.xsnDone k
    let here (c : Cross) : Bool := c.org == o && c.dst == d && c.xsn == x
    match s.sw.xhold.filter here with
    | [] => s
    | cs =>
      let s := { s with sw := { s.sw with
        xhold := s.sw.xhold.filter (fun c => !here c)
        xsnDone := tset 0 s.sw.xsnDone k ((x + 1) % 65536) } }
      let s := s.egrGive (cs.filter (fun c => decide (c.point < 320)))
      State.release (cs.foldl (fun s c => s.crossArrive c) s) o d n

/-- Is a crossing the next one that its plane's link delivers: links keep the order of sending (R19). -/
def State.linkNext (s : State) (c : Cross) : Bool :=
  match s.sw.cross.find? (fun e => e.org == c.org && e.dst == c.dst && e.plane == c.plane) with
  | some e => e.xsn == c.xsn
  | none => true

/-- XSN_ARRIVAL (R103): a message of origin die `o` with crossing number `x` arrives at port die `d`, if its link delivers it
next. A copy of one that has been released, or is held already, is discarded: no origin is 4,096 numbers ahead of what is
released, so a number outside the window has been. -/
def execXsnArrival (o d x : Nat) (s : State) : Host.Outcome State Fault Refusal :=
  settled (
    let here (c : Cross) : Bool := c.org == o && c.dst == d && c.xsn == x
    let next := tget 0 s.sw.xsnDone (Nat.pair o d)
    let cs := s.sw.cross.filter here
    let old := decide (4096 ≤ (x + 65536 - next) % 65536)
    if cs.isEmpty then (if x < 65536 ∧ old then s.bump .SWC_REORDER_DUP_COUNT else s)
    else if cs.any (fun c => decide (8 ≤ c.plane) || s.planeFailed c.plane || !s.linkNext c) then s
    else
      let s := { s with sw := { s.sw with cross := s.sw.cross.filter (fun c => !here c) } }
      if old ∨ s.sw.xhold.any here then s.bump .SWC_REORDER_DUP_COUNT 0 0 cs.length
      else
        let s := ({ s with sw := { s.sw with xhold := s.sw.xhold ++ cs } }).egrTake (cs.filter (fun c => decide (c.point < 320)))
        s.release o d (s.sw.xhold.length))

/-- REORDER_GAP_TIMEOUT (R103, R120): a gap that stays unfilled is a fault of the plane that carried the missing
message. -/
def execReorderGapTimeout (o d : Nat) (s : State) : Host.Outcome State Fault Refusal :=
  settled (
    let next := tget 0 s.sw.xsnDone (Nat.pair o d)
    if !s.sw.xhold.any (fun c => c.org == o && c.dst == d) then s
    else
      match s.sw.cross.find? (fun c => c.org == o && c.dst == d && c.xsn == next) with
      | some c => s.planeFail c.plane
      | none => s)

/-- ACKNOWLEDGE (R97): the slots of an ingress message that its receiving die has placed are free, and go back as
credits in IDLE flits (R40, R45; log entry 94). A contribution line that waits for an accumulator keeps its slots (R269). -/
def execAcknowledge (n : Nat) (s : State) : Host.Outcome State Fault Refusal :=
  settled (
    match s.sw.ing.find? (fun x => x.n == n && x.taken && !s.accHeld n) with
    | none => s
    | some x =>
      let s := { s with sw := { s.sw with ing := s.sw.ing.filter (fun y => y.n != n) } }
      (s.freeSlots x.port x.pool x.slots).sendCredits x.port x.pool)

/-! ### Combining and merging windows -/

/-- LINE_ENTRY_CLOSE (R113, item 3). -/
def execLineEntryClose (line : Nat) (s : State) : Host.Outcome State Fault Refusal :=
  settled { s with home := { s.home with rdEnts := tdel s.home.rdEnts line } }

/-- ATOMIC_GROUP_APPLY (R113, R114): the oldest group of a word is applied, from its tray line if the word is not at
hand. -/
def execAtomicGroupApply (addr : Nat) (s : State) : Host.Outcome State Fault Refusal :=
  settled (
    match s.home.atGrps.find? (fun g => g.addr == addr) with
    | none => s
    | some g => s.applyGroup g)

/-- MERGE_WINDOW_CLOSE (R116): the run of a line is applied and opens the next window; an empty run ends. -/
def execMergeWindowClose (line : Nat) (s : State) : Host.Outcome State Fault Refusal :=
  settled (
    match tfind s.home.runs line with
    | none => s
    | some [] => { s with home := { s.home with runs := tdel s.home.runs line } }
    | some _ => s.applyRun line)

/-! ### Planes (Table 4.3) -/

/-- PLANE_FAULT (R120). -/
def execPlaneFault (n : Nat) (s : State) : Host.Outcome State Fault Refusal := settled (s.planeFail n)

/-- SPARE_IN_SERVICE (R121, steps 3 to 5). -/
def execSpareInService (s : State) : Host.Outcome State Fault Refusal := settled s.spareIn

/-- PLANE_REDUCE (R123). -/
def execPlaneReduce (s : State) : Host.Outcome State Fault Refusal := settled s.planeReduce

/-! ### The mirror ring (R127, R128) -/

/-- Address of a record of the mirror ring. -/
def State.mirrAddr (s : State) (index : Nat) : Nat := s.rd .MIRR_BASE_BASE * 2 ^ 21 + index % s.mirrSize * 32

/-- MIRROR_RECORD_PERFORMED (R127, R128): the write of the oldest record reaches its home, as a 32-byte NWR of subscriber
1023 in SC7; the next one follows once it is answered. -/
def execMirrorRecordPerformed (s : State) : Host.Outcome State Fault Refusal :=
  settled (
    match s.sw.mirq with
    | [] => s
    | r :: t =>
      if r.sent then s
      else
        let s := { s with sw := { s.sw with mirq := { r with sent := true } :: t } }
        s.engSend (engReq .mirror 0 0 1023 opNWR 7 (s.mirrAddr r.index) 5 [] (slice r.bytes 0 32)))

/-- Does the ring lie wholly inside one ACTIVE extent that may hold it (R128). -/
def State.ringOk (s : State) : Bool :=
  s.inActive (s.rd .MIRR_BASE_BASE * 2 ^ 21) (32 * s.mirrSize) (fun x => !x.coh && !x.pub)

/-- A write of MIRR_CTL (R128). -/
def State.mirrCtl (s : State) (v : Nat) : State :=
  let lg := bits v 8 5
  let s := s.wr .MIRR_CTL_WRAP (bits v 1 1)
  let s := if s.on .MIRR_CTL_EN ∨ lg < 16 ∨ 25 < lg then s else s.wr .MIRR_CTL_LOG2SZ lg
  if !bit v 0 then s.wr .MIRR_CTL_EN 0
  else if s.on .MIRR_CTL_EN then s
  else if s.ringOk then s.wr .MIRR_CTL_EN 1
  else s.raiseBits .MIRR_STAT_BADRING 1

/-- MIRR_CTL (R128). -/
def execMirrCtl (v : Nat) (s : State) : Host.Outcome State Fault Refusal :=
  hostRow (.mirrCtl v) (fun s => s.mirrCtl v) s

/-- The mirror ring's extent leaves ACTIVE, or a teardown begins: the taps stop (R128). -/
def State.mirrExtentGone (s : State) : State :=
  if s.on .MIRR_CTL_EN then (s.wr .MIRR_CTL_EN 0).raiseBits .MIRR_STAT_EXTGONE 1 else s

end Sys2Proof.Machine
end

