-- ==== Sys2Proof/Machine/Traffic.lean ====
section
/-! DEFINITION. Traffic management (R131 to R144): selection at a scheduling point, refills, capacities and the
scale of committed rates, staged parameters, and the samples of depth and delay. -/

namespace Sys2Proof.Machine

/-! ### What waits at a point (R131, R133) -/

/-- Is a priority of an uplink paused by a PFC frame that it honours (R161). -/
def State.paused (s : State) (p pcp : Nat) : Bool := (s.rd .PRT_UPL_PAUSED_PCP p).testBit pcp

/-- May a message leave its port now (R137). -/
def State.egrReady (s : State) (p : Nat) (x : QMsg) : Bool :=
  if s.pmode p = 3 then s.lstate p == 2 && !s.paused p (s.pcpOf (mMpri x.msg)) else s.canSend p x.msg

/-- The messages that wait at point `q`, in order of arrival. A message whose plane has failed waits at its origin (Table
4.3, step 2; R123). -/
def State.candsAt (s : State) (q : Nat) : List Cand :=
  if q < 320 then
    (s.sw.egr.filter (fun x => x.point == q)).map (fun x =>
      { n := x.n, cls := x.cls, sub := x.sub, cost := 16 * mSlots x.msg, ready := s.egrReady q x, cyc := x.cyc })
  else s.dieCands q

/-- The CMP of a launch word has left the device: its sender has received it (R267). -/
def State.launchTold (s : State) (p : Nat) (m : Msg) : State :=
  if mOpc m ≠ opCMP then s
  else
    let told (e : Nat × OpSlot) : Nat × OpSlot :=
      if slotAgentId e.1 = s.agentId p ∧ e.2.ackSeq = some (mSeq m) then (e.1, { e.2 with ackSeq := none }) else e
    { s with rgf := { s.rgf with slots := s.rgf.slots.map told } }

/-- A message leaves a port: in flits, or as a frame of an uplink, whose MSG is then performed (R59, R77). -/
def State.leavePort (s : State) (p : Nat) (x : QMsg) : State :=
  let s := s.fromEgress x
  let s := s.mirrTap { port := p, egress := true, msg := x.msg, plane := x.plane, cut := x.cut }
  if s.pmode p = 3 then (s.emit (.frame p (s.frameOf p x.msg))).msgEnd (s.portDie p) x.msg stOK
  else (s.launchTold p x.msg).transmit p x.msg

/-- A message leaves its ingress region through the plane that carries it. -/
def State.markTaken (s : State) (x : IngMsg) : State :=
  let pl := s.ingPlane x
  let take (y : IngMsg) : IngMsg := if y.n = x.n then { y with taken := true, plane := pl } else y
  { s with sw := { s.sw with ing := s.sw.ing.map take } }

/-- A message is taken by the die of its point, through the plane that carries it. -/
def State.takeIng (s : State) (x : IngMsg) : State :=
  let s := s.markTaken x
  if x.req then
    let r := s.ingReq x
    s.homeArrive (if (s.contribTo r).isSome then { r with ing := some x.n } else r)
  else if s.rd .PRT_PFTL_STAT_ROLE x.port = 3 then
    if mOpc x.msg = opDATA then s.trayData x.port x.msg else s.trayCmp x.port x.msg
  else s.hackArrive (s.agentId x.port) x.msg

/-- Do two requests have one key of Table 4.2, whoever sent them. -/
def sameKey (a b : Msg) : Bool :=
  let o := mOpc a
  lineOf (mAddr a) == lineOf (mAddr b) &&
  (if isRead o then isRead (mOpc b)
   else if o = opAT then
     mOpc b == opAT && mAddr a == mAddr b && mAtop a == mAtop b && mSize a == mSize b && mSigned a == mSigned b
   else (o == opST || o == opNWR) && (mOpc b == opST || mOpc b == opNWR))

/-- May a request be merged with others at a plane (R111, R112). -/
def State.mergeable (s : State) (m : Msg) : Bool :=
  match s.extentAt (mAddr m) with
  | some (_, x) =>
    mOpc m != opMSG && !inWindow (mAddr m) && x.state == 1 && eligible m x
      && (if isRead (mOpc m) || mOpc m == opAT then s.on .SWC_CTL_COMB_EN else s.on .SWC_CTL_MRG_EN)
  | none => false

/-- The requests that reach their home with a selected one, in order of arrival: it, and those that its plane merges with it,
which wait in its combining buffer toward the same home with the same key (R112; log entry 80). -/
def State.mates (s : State) (q : Nat) (x : IngMsg) : List IngMsg :=
  if q < 320 ∨ 336 ≤ q ∨ !x.req ∨ !s.mergeable x.msg then [x]
  else
    s.sw.ing.filter (fun y => y.point == q && !y.taken && !y.held && y.req && s.ingPlane y == s.ingPlane x
      && s.mergeable y.msg && sameKey x.msg y.msg)

/-- May a request go into a merged one: it is neither performed already, nor behind a line-order tag, nor a contribution or
the store of a command line (R105, R112, R267, R335). -/
def State.mayMerge (s : State) (r : Req) : Bool :=
  !s.already r && s.depDone r && (s.contribTo r).isNone && (s.carLine r).isNone

/-- The one request that a plane forwards for several: a read of the whole line, an atomic that fetches if one of them does, or
a store; its members tell the rest (R112). -/
def mergedReq (n : Nat) (r : Req) (rs : List Req) : Req :=
  let m := r.msg
  if isRead (mOpc m) then engReq (.plane n) r.src r.seq r.sub opLD (mSc m) (64 * lineOf (mAddr m)) 6 [] []
  else { ((rs.find? (fun x => mFetch x.msg)).getD r) with org := .plane n, dep := none }

/-- Requests that one plane has merged reach their home as one; each that it spares is counted as served by a combined access
or merged (R112). -/
def State.mergedArrive (s : State) (rs : List Req) : State :=
  match rs with
  | [] => s
  | [r] => s.homeArrive r
  | r :: t =>
    let n := s.nextId
    let s := { s with nextId := n + 1, home := { s.home with merged := tins s.home.merged n (r :: t) } }
    let c : Fld := if isRead (mOpc r.msg) then .SWC_COMB_RD_COUNT else if mOpc r.msg = opAT then .SWC_COMB_AT_COUNT
      else .SWC_MRG_ST_COUNT
    (s.bump c 0 0 t.length).poolAccess (mergedReq n r (r :: t))

/-- A group of messages is taken: what its plane merges goes on as one request, the rest one by one. -/
def State.takeGroup (s : State) (xs : List IngMsg) : State :=
  let ok (x : IngMsg) : Bool := s.mayMerge (s.ingReq x)
  let one := xs.filter ok
  let s' := (one.foldl (fun s x => s.markTaken x) s).mergedArrive (one.map s.ingReq)
  (xs.filter (fun x => !ok x)).foldl (fun s x => s.takeIng x) s'

/-- Move the selected message, and what its plane has merged with it: they reach their home as one request, and each gets its
own answer (R112). -/
def State.serve (s : State) (q : Nat) (x : Cand) : State :=
  if q < 320 then
    match s.sw.egr.find? (fun y => y.n == x.n) with
    | some y => s.leavePort q y
    | none => s
  else
    match s.sw.ing.find? (fun y => y.n == x.n) with
    | some y => if (s.mates q y).length ≤ 1 then s.takeIng y else s.takeGroup (s.mates q y)
    | none =>
      match s.home.waits.find? (fun w => w.cause == 15 && w.key == q && w.req.pt == x.n) with
      | some w => ({ s with home := { s.home with waits := s.home.waits.erase w } }).homeArrive w.req
      | none => s

/-- SELECT (R137): point `q` selects one message; the largest depth seen is kept (R144). -/
def execSelect (q : Nat) (s : State) : Host.Outcome State Fault Refusal :=
  settled (
    if 376 ≤ q then s
    else
      let t := s.selectAt (s.candsAt q) q
      match t.1 with
      | none => t.2
      | some x => t.2.serve q x)

/-! ### Staged parameters (R139) -/

/-- The staged registers. -/
def tmStaged : List Fld :=
  [.TM_POL_MIRR_REFILL, .TM_POL_MIRR_B_BURST, .TM_CLS_CIR_REFILL, .TM_CLS_PIR_REFILL, .TM_CLS_BURST_PBS, .TM_CLS_BURST_CBS,
   .TM_CLS_WT_WEIGHT, .TM_SUB_CIR_REFILL, .TM_SUB_PIR_REFILL, .TM_SUB_BURST_PBS, .TM_SUB_BURST_CBS, .TM_SUB_WT_WEIGHT,
   .TM_PORT_SUB_SUB, .TM_POL_MSG_REFILL, .TM_POL_MSG_B_BURST]

/-- Is a register's value one that R139 allows. -/
def tmRange (f : Fld) (v : Nat) : Bool :=
  if [Fld.TM_POL_MIRR_B_BURST, .TM_CLS_BURST_PBS, .TM_CLS_BURST_CBS, .TM_SUB_BURST_PBS, .TM_SUB_BURST_CBS, .TM_POL_MSG_B_BURST].contains f
  then decide (33 ≤ v)
  else if [Fld.TM_CLS_WT_WEIGHT, .TM_SUB_WT_WEIGHT].contains f then v != 0
  else if f = .TM_PORT_SUB_SUB then decide (v < 1022)
  else true

/-- The field of a register key among the staged ones. -/
def stagedFld (k : Nat) : Option Fld := tmStaged.find? (fun f => f.ctorIdx == (Nat.unpair k).1)

/-- The burst in force of a bucket, in bytes (R136, R143). -/
def State.burstOf (s : State) (k : Nat) : Int :=
  let t := (Nat.unpair k).1
  let n := (Nat.unpair k).2
  let u := n % 1024
  let qc := n / 1024
  let b := if t = 0 then s.tmA .TM_POL_MSG_B_BURST n
    else if t = 1 then s.tmA .TM_POL_MIRR_B_BURST
    else if t = 2 then s.tmA .TM_CLS_BURST_CBS (n / 8) (n % 8)
    else if t = 3 then s.tmA .TM_CLS_BURST_PBS (n / 8) (n % 8)
    else if t = 4 then s.tmA .TM_SUB_BURST_CBS u (qc % 8)
    else s.tmA .TM_SUB_BURST_PBS u (qc % 8)
  256 * b

/-- Apply every staged change together, or none if a staged value is out of range (R139). -/
def State.tmApplyAll (s : State) : State :=
  let mine := s.regs.filter (fun e => (stagedFld e.1).isSome)
  if mine.any (fun e => match stagedFld e.1 with | some f => !tmRange f e.2 | none => false) then s.raiseBits .TM_STAT_APPLY_ERR 1
  else
    let s := { s with sw := { s.sw with tmAct := mine } }
    { s with sw := { s.sw with buckets := s.sw.buckets.map (fun e => (e.1, min e.2 (s.burstOf e.1))) } }

/-- What an APPLY that waits does at a subtick boundary: its changes apply, and the command ends (R139, R478). -/
def State.tmApplyNow (s : State) : State :=
  if !s.on .TM_STAT_APPLY_PEND then s
  else ((s.wr .TM_STAT_APPLY_PEND 0).tmApplyAll).cmdDone 15

/-- TM_APPLY (R139). -/
def execTmApply (s : State) : Host.Outcome State Fault Refusal :=
  hostRow .tmApply (fun s => s.wr .TM_STAT_APPLY_PEND 1) s

/-! ### Capacity and scale (R140 to R142) -/

/-- A(q), in bytes per subtick (R140). -/
def State.capacityAt (s : State) (q : Nat) : Nat :=
  let n := s.rd .SWC_PLANE_STAT_N_ACTIVE
  let t := s.rd .PWR_EP_STAT_PERIOD
  if q < 320 then s.lanes q * 3750 * t * min n 7 / (16 * 256 * 7) else n * t * 47 / 10

/-- SCALE of a point of capacity `a` (R141). -/
def State.scaleAt (s : State) (q a : Nat) : Nat :=
  let strict (c : Nat) : Nat := if s.clsPir q c = unlimited then a else s.clsPir q c
  let ac := a - (strict 0 + strict 1)
  let sum := ([2, 3, 4, 5, 6, 7].map (fun c => s.clsCir q c)).sum
  if sum ≤ ac then 4096 else 4096 * ac / sum

/-- Subscribers that have a node at a point. -/
def State.nodesAt (s : State) (q : Nat) : List Nat := ((s.candsAt q).map (·.sub)).dedup

/-- Capacity, SCALE and its events for every point, and TM_GUAR_SCALED (R142). -/
def State.rescale (s : State) : State :=
  let s := (List.range 376).foldl (fun s q =>
    let a := s.capacityAt q
    let sc := s.scaleAt q a
    let old := s.rd .TM_PT_SCALE_SCALE q
    let s := (s.wr .TM_PT_CAP_CAP a q).wr .TM_PT_SCALE_SCALE sc q
    if sc < 4096 ∧ old = 4096 then s.event .guarScaled q
    else if sc = 4096 ∧ old < 4096 then s.event .guarRestored q
    else s) s
  let low := (List.range 376).filter (fun q => decide (s.rd .TM_PT_SCALE_SCALE q < 4096))
  let subs := (low.flatMap s.nodesAt).dedup
  let s := s.wr .TM_STAT_SCALED_PTS low.length
  (List.range 1024).foldl (fun s u =>
    if subs.contains u then (s.wr .TM_GUAR_SCALED_NOW 1 u).raiseBits .TM_GUAR_SCALED_SEEN 1 u else s.wr .TM_GUAR_SCALED_NOW 0 u) s

/-! ### Refills (R134) -/

/-- The refills of one bucket at `n` subtick boundaries (R134). -/
def State.refillTok (s : State) (n k refill scale : Nat) : State :=
  if refill = unlimited then s
  else s.setBucket k (min (s.bucket k + ((n * (refill * scale / 4096) : Nat) : Int)) (s.burstOf k))

/-- Every bucket is refilled `n` times: the policers, the class nodes, and the subscriber nodes with traffic or a count. -/
def State.refill (s : State) (n : Nat := 1) : State :=
  let s := s.refillTok n mirKey (s.tmA .TM_POL_MIRR_REFILL) 4096
  let s := (List.range 320).foldl (fun s p => s.refillTok n (polKey p) (s.tmA .TM_POL_MSG_REFILL p) 4096) s
  let listed := (s.sw.buckets.filter (fun e => decide (4 ≤ (Nat.unpair e.1).1))).map (fun e => (Nat.unpair e.1).2)
  (List.range 376).foldl (fun s q =>
    let f := s.rd .TM_PT_SCALE_SCALE q
    let cs := s.candsAt q
    let s := (List.range 8).foldl (fun s c =>
      let s := s.refillTok n (clsKey true q c) (s.clsPir q c) 4096
      if c < 2 then s else s.refillTok n (clsKey false q c) (s.clsCir q c) f) s
    let subs := (cs.map (fun (x : Cand) => (x.cls, x.sub))
      ++ (listed.filter (fun e => e / 8192 == q)).map (fun e => (e / 1024 % 8, e % 1024))).dedup
    subs.foldl (fun s e =>
      let s := s.refillTok n (subKey true q e.1 e.2) (s.subPir e.2 e.1) 4096
      if e.1 < 2 then s else s.refillTok n (subKey false q e.1 e.2) (s.subCir e.2 e.1) f) s) s

/-- What happens at a subtick boundary: staged changes, capacities and SCALE, refills (R134, R139 to R142). -/
def State.tmBoundary (s : State) : State := s.tmApplyNow.rescale.refill

/-! ### Samples (R144) -/

/-- The samples taken at an epoch boundary. -/
def State.tmSample (s : State) : State :=
  (List.range 376).foldl (fun s q =>
    let cs := s.candsAt q
    let s := (List.range 8).foldl (fun s c =>
      let mine := cs.filter (fun x => x.cls == c)
      let age := match mine with | x :: _ => min (s.cycle - x.cyc) 0xFFFFFFFF | [] => 0
      (s.wr .TM_QS_DEPTH_DEPTH (depthOf cs c) q c).wr .TM_QS_DELAY_DELAY age q c) s
    s.wr .TM_QS_TS_TIME s.now q) s

end Sys2Proof.Machine
end

