-- ==== Sys2Proof/Machine/PortRows.lean ====
section
/-! DEFINITION. The commands of ports and lanes: link loss and control (R75, R118, R119, R154 to R156), training,
retrain, repair and narrowing (R149 to R153), and the uplinks (R157 to R162). -/

namespace Sys2Proof.Machine

/-! ### Lanes (R147, R152, R153) -/

/-- Do the fabric lanes have power: RUN or IDLE, with the port map loaded (Table 20.1, step 8 of Table 19.6). -/
def State.lanesOn (s : State) : Bool :=
  decide (s.rd .PWR_STAT_STATE ≤ 1 ∧ s.power.entering.getD 0 ≤ 1) && !s.power.inReset && !s.power.offState && s.power.stepsEnded.contains 8

/-- Does a partial-reset command of a die run (R482). -/
def State.prstOn (s : State) (n : Nat) : Bool := s.on .GLB_PRST_RES_BUSY && s.busy.prstDie == n

/-- A partial-reset command ends (R478). -/
def State.prstEnd (s : State) (st : Nat) : State := ((s.wr .GLB_PRST_RES_BUSY 0).wr .GLB_PRST_RES_STATUS st).cmdDone 14

/-- Hold a die, or release it (GLB_PRST_HELD). -/
def State.setHeld (s : State) (n : Nat) (b : Bool) : State :=
  s.wr .GLB_PRST_HELD_HELD (setBit (s.rd .GLB_PRST_HELD_HELD (n / 32)) (n % 32) b) (n / 32)

/-- Is a port of a die still being flushed. -/
def State.dieFlushing (s : State) (n : Nat) : Bool :=
  (List.range 320).any (fun p => s.pmode p != 0 && s.portDie p == n && (s.port p).flushing)

/-- The HOLD of a port die ends when the flushes of its ports end (Table 21.8). -/
def State.prstFlushed (s : State) : State :=
  let n := s.busy.prstDie
  if s.prstOn n && decide (8 ≤ n ∧ n < 44) && !s.dieHeld n && !s.dieFlushing n then (s.setHeld n true).prstEnd stOK else s

/-- May a port train: enabled, its die in service, and its lanes powered. -/
def State.mayTrain (s : State) (p : Nat) : Bool :=
  decide (p < 320) && s.pmode p != 0 && s.on .PRT_CTL_EN p && s.lanesOn && !s.rcv.pdOut.contains (s.rd .PRT_CFG_DIE p)
    && !s.dieHeld (s.portDie p) && !s.prstOn (s.portDie p)

/-- The lane index on its die of lane `n` of a port. -/
def State.laneIdx (s : State) (p n : Nat) : Nat := s.rd .PRT_CFG_FIRST p + n

/-- The largest width of R153 that `n` lanes allow. -/
def fitWidth (n : Nat) : Nat := if 8 ≤ n then 8 else if 4 ≤ n then 4 else if 2 ≤ n then 2 else n

/-- Lanes of a port that are in service and have not failed, the lowest first: a narrowed port regains no lane (R153). -/
def State.soundLanes (s : State) (p : Nat) : List Nat :=
  (List.range (s.width p)).filter (fun n => s.rd .PRT_LANE_MAP_STATE p n == 1 && !(s.port p).badLanes.contains n)

/-- A port comes UP from training with every lane. -/
def State.linkUp (s : State) (p : Nat) : State := (s.setLstate p 2).showLanes p (List.range (s.width p))

/-- Is a port narrower than configured, anywhere: degraded state 2 (R387). -/
def State.narrowCheck (s : State) : State :=
  if (List.range 320).any (fun p => s.pmode p != 0 && s.lstate p == 2 && decide (s.lanes p < s.width p)) then s.setDegraded 2 true
  else s

/-! ### Link loss and control -/

/-- LINK_LOSS (R75, R154): the link is lost from UP or RETRAIN, a counted down; from TRAIN the port is DOWN again. -/
def execLinkLoss (p : Nat) (s : State) : Host.Outcome State Fault Refusal :=
  settled (
    if 320 ≤ p then s
    else
      let st := s.lstate p
      let s := s.updPort p (fun x => { x with signal := false })
      if st = 2 ∨ st = 3 then s.downCounted p
      else if st = 1 then s.setLstate p 0
      else s)

/-- FLUSH_COMPLETE (R119): nothing of a former binding is left on its way, and the port may bind again. -/
def execFlushComplete (p : Nat) (s : State) : Host.Outcome State Fault Refusal :=
  settled (
    if 320 ≤ p ∨ !(s.port p).flushing then s
    else if (s.sw.cross ++ s.sw.xhold ++ s.sw.voq).any (fun c => c.point == p) then s
    else if s.agents.any (fun e => e.2.walking && e.2.port == some p) then s
    else (s.updPort p (fun x => { x with flushing := false })).prstFlushed)

/-- A write of REBIND: the host ends a binding; the port stays in UP and starts discovery again, unless it is held out. A
retrain is abandoned (R151): the port is DOWN, uncounted, and trains again (DEDUCED, log entry 83). -/
def State.rebind (s : State) (p : Nat) : State :=
  if 320 ≤ p ∨ !s.isPftl p ∨ !s.on .PRT_PFTL_STAT_BOUND p then s
  else if s.lstate p = 3 then
    let s := s.downQuiet p
    if s.mayTrain p then s.startTrain p else s
  else (s.unbind p).discFollow p

/-- REBIND (R75). -/
def execRebind (p : Nat) (s : State) : Host.Outcome State Fault Refusal :=
  hostRow (.rebind p) (fun s => s.rebind p) s

/-- A write of PRT_CTL.EN: 0 takes the port DOWN, uncounted, and leaves a hold-down time or a parked state as it is; 1 lets a
port that is DOWN train (R149, R154 to R156, Table 6.4). -/
def State.portEnable (s : State) (p : Nat) (en : Bool) : State :=
  let s := s.wr .PRT_CTL_EN (b2n en) p
  if !en then (if 1 ≤ s.lstate p ∧ s.lstate p ≤ 3 then s.downQuiet p else s)
  else if s.mayTrain p && (s.port p).signal && s.lstate p == 0 then s.setLstate p 1
  else s

/-- PRT_CTL_EN (R154). -/
def execPrtCtlEn (p : Nat) (en : Bool) (s : State) : Host.Outcome State Fault Refusal :=
  hostRow (.prtCtlEn p en) (fun s => if 320 ≤ p then s else s.portEnable p en) s

/-- SIGNAL_DETECT (R149): a port with a signal and no hold-down trains. -/
def execSignalDetect (p : Nat) (s : State) : Host.Outcome State Fault Refusal :=
  settled (
    if 320 ≤ p then s
    else
      let s := s.updPort p (fun x => { x with signal := true })
      if s.mayTrain p && s.lstate p == 0 then s.setLstate p 1 else s)

/-- TRAINING_COMPLETE (R149): every lane passes; a PFTL port starts discovery (Table 2.14), an uplink carries
frames. A port die whose REFCLK is absent keeps its lanes in TRAIN (R460). -/
def execTrainingComplete (p : Nat) (s : State) : Host.Outcome State Fault Refusal :=
  settled (
    if !s.mayTrain p ∨ s.lstate p ≠ 1 ∨ s.power.refclkGone.contains (s.rd .PRT_CFG_DIE p / 4) then s
    else
      let s := s.updPort p (fun x => { x with badLanes := [], attempts := 0, repairing := false, failedLane := none })
      ((s.linkUp p).discFollow p).retryDemotions)

/-! ### Retrain and repair (R150 to R153) -/

/-- LANE_LOSS (R150): a lane loses lock for longer than 1 µs. -/
def execLaneLoss (p lane : Nat) (s : State) : Host.Outcome State Fault Refusal :=
  settled (if 320 ≤ p ∨ s.width p ≤ lane ∨ s.pmode p = 0 then s else s.enterRetrain p)

/-- What the FEC of a port has found on its lanes and in its codewords (Table 6.4) since it was last counted (log entry 79). -/
def State.fecCount (s : State) (p : Nat) : State :=
  (List.range (s.width p)).foldl (fun s n => s.bumpFree .PRT_LANE_SYM_COUNT p n)
    ((s.bumpFree .PRT_FEC_CORR_COUNT p).bumpFree .PRT_FEC_UNCORR_COUNT p)

/-- FEC_LIMIT (R150): more than 16 uncorrectable codewords in one epoch retrain the port. The row does not say how many
codewords and symbols are not counted yet. -/
def execFecLimit (p : Nat) (s : State) : Host.Outcome State Fault Refusal :=
  settled (
    if 320 ≤ p ∨ s.pmode p = 0 then s
    else (s.fecCount p).enterRetrain p)

/-- A write of PRT_CTL.RETRAIN. -/
def State.hostRetrain (s : State) (p : Nat) : State := if 320 ≤ p ∨ s.pmode p = 0 then s else s.enterRetrain p

/-- RETRAIN (R150). -/
def execRetrain (p : Nat) (s : State) : Host.Outcome State Fault Refusal :=
  hostRow (.retrain p) (fun s => s.hostRetrain p) s

/-- Report of a lane failure (Table 16.2). -/
def State.laneReport (s : State) (p n : Nat) : State :=
  (s.laneFail p n).raise 0x04 (16 * s.rd .PRT_CFG_DIE p + s.laneIdx p n)

/-- RETRAIN_ATTEMPT_END (R150): a fast attempt ends; `bad` names the lanes that failed it. After the second the
lanes that failed both are failed, and the first of them goes into loopback; with none, the port goes DOWN. -/
def execRetrainAttemptEnd (p : Nat) (ok : Bool) (bad : List Nat) (s : State) : Host.Outcome State Fault Refusal :=
  settled (
    if 320 ≤ p ∨ s.lstate p ≠ 3 ∨ (s.port p).repairing ∨ (s.port p).failedLane.isSome ∨ 2 ≤ (s.port p).attempts then s
    else if ok then s.retrained p
    else
      let n := (s.port p).attempts + 1
      if n < 2 then s.updPort p (fun x => { x with attempts := n, fastBad := bad })
      else
        let first := (s.port p).fastBad
        let s := s.updPort p (fun x => { x with attempts := n })
        let bad := (bad.filter (fun i => decide (i < s.width p) && first.contains i)).dedup
        if bad.isEmpty then s.downCounted p else bad.foldl (fun s i => s.laneReport p i) s)

/-- The repair lane of a die takes over a lane (R152): MODE 1 internal, 2 external. -/
def State.repairLane (s : State) (p n mode : Nat) : State :=
  let d := s.rd .PRT_CFG_DIE p
  let j := s.laneIdx p n
  let s := (s.wr .PRT_DIE_REPAIR_MODE mode d).wr .PRT_DIE_REPAIR_LANE j d
  let s := (s.wr .PRT_LANE_MAP_PHYS (17 * d + 16) p n).wr .PRT_LANE_MAP_STATE 1 p n
  s.updPort p (fun x => { x with badLanes := x.badLanes.filter (· != n) })

/-- A lane that fails its loopback test takes the internal repair, one that passes the external repair, if the die's
repair lane is free (R152). The first part is false where neither applies. -/
def State.tryRepair (s : State) (p n : Nat) (pass : Bool) : Bool × State :=
  let d := s.rd .PRT_CFG_DIE p
  let free := s.rd .PRT_DIE_REPAIR_MODE d == 0 && s.rd .PRT_LANE_MAP_PHYS p n != 17 * d + 16
  if !free then (false, s)
  else if !pass then (true, s.repairLane p n 1)
  else if s.on .PRT_DIE_REPAIR_EXT_WIRED d && s.rd .PRT_DIE_REPAIR_EXT_PORT d == p then (true, s.repairLane p n 2)
  else (false, s)

/-- Every failed lane has been tested: the port goes DOWN if it cannot narrow, else the repair retrain runs (R152,
R153). -/
def State.afterTests (s : State) (p : Nat) : State :=
  let n := (s.soundLanes p).length
  if n = 0 ∨ (s.pmode p = 3 ∧ n < s.width p) then s.downCounted p
  else s.updPort p (fun x => { x with repairing := true, failedLane := none })

/-- LOOPBACK_END (R152): the loopback test of a failed lane ends. The sequencer records what has become of the lane; where its entry
is over already, it is recorded now (R373, R377). -/
def execLoopbackEnd (p : Nat) (pass : Bool) (s : State) : Host.Outcome State Fault Refusal :=
  settled (
    if 320 ≤ p ∨ s.lstate p ≠ 3 then s
    else
      match (s.port p).failedLane with
      | none => s
      | some n =>
        let r := s.tryRepair p n pass
        let l := 16 * s.rd .PRT_CFG_DIE p + s.laneIdx p n
        let s := if r.1 then r.2 else (r.2.wr .PRT_LANE_MAP_STATE 2 p n).showRepaired p
        let s := if s.laneQueued l then s else s.laneRecord l
        match (s.port p).testQ with
        | i :: t => s.updPort p (fun x => { x with failedLane := some i, testQ := t })
        | [] => s.afterTests p)

/-- REPAIR_RETRAIN_END (R152, R153). -/
def execRepairRetrainEnd (p : Nat) (ok : Bool) (s : State) : Host.Outcome State Fault Refusal :=
  settled (
    if 320 ≤ p ∨ s.lstate p ≠ 3 ∨ !(s.port p).repairing then s
    else if !ok then s.downCounted p
    else
      let n := fitWidth (s.soundLanes p).length
      let narrow := decide (n < s.lanes p)
      let s := (s.showLanes p ((s.soundLanes p).take n)).retrained p
      if narrow then (s.event .portNarrow p).narrowCheck else s)

/-! ### Hold and park (R155, R156) -/

/-- HOLD_EXPIRY (R155): the hold-down time is over. -/
def execHoldExpiry (p : Nat) (s : State) : Host.Outcome State Fault Refusal :=
  settled (
    if 320 ≤ p ∨ s.lstate p ≠ 4 ∨ s.rd .PRT_HOLD_REMAIN p ≠ 0 then s
    else if s.mayTrain p then s.startTrain p else s.setLstate p 0)

/-- A write of CLR_PARK: the down history is cleared and training starts. -/
def State.clrPark (s : State) (p : Nat) : State :=
  if 320 ≤ p ∨ s.lstate p ≠ 5 then s
  else
    let s := (s.updPort p (fun x => { x with downs := [] })).wr .PRT_FLAPS_K 0 p
    if s.mayTrain p then s.startTrain p else s.setLstate p 0

/-- CLR_PARK (R156). -/
def execClrPark (p : Nat) (s : State) : Host.Outcome State Fault Refusal :=
  hostRow (.clrPark p) (fun s => s.clrPark p) s

/-! ### Uplinks (R157 to R162) -/

/-- Big-endian bytes of a frame. -/
def beAt (bs : List Byte) (o n : Nat) : Nat := leVal (slice bs o n).reverse

/-- The MSG that a received frame carries, if R160 accepts it. -/
def State.frameMsg (s : State) (p : Nat) (bs : List Byte) : Option Msg :=
  let body := bs.take (bs.length - 4)
  let m : Msg := { hdr := BitVec.ofNat 128 (leAt bs 24 16), payload := [] }
  let len := mLen m
  let ok := decide (64 ≤ bs.length ∧ bs.length ≤ 9216) && leAt bs (bs.length - 4) 4 == fcs body
    && beAt bs 12 2 == 0x8100 && beAt bs 16 2 == s.rd .PRT_UPL_CTL_ETYPE p && leAt bs 18 1 == 1
    && leAt bs 22 2 == s.boot.image.switchNo && decide (1 ≤ len ∧ 40 + len ≤ body.length)
    && (match s.portOfAgent (mDst m) with | some _ => true | none => false)
  if ok then some { m with payload := slice ((bs.drop 40).take len) 0 (16 * ((len + 15) / 16)) } else none

/-- FRAME (R160): a received frame is discarded, policed, or written to the receive area of its destination. -/
def execFrame (p : Nat) (bytes : List Byte) (s : State) : Host.Outcome State Fault Refusal :=
  settled (
    if 320 ≤ p ∨ s.pmode p ≠ 3 ∨ s.lstate p ≠ 2 ∨ s.contained then s
    else
      match s.frameMsg p bytes with
      | none => s.bump .PRT_UPL_RX_DISCARD_COUNT p
      | some m =>
        let s := s.wake 2
        let s := s.mirrTap { port := p, egress := false, msg := m, plane := s.planeIn (s.planeSlot (mSrc m) (mSeq m) 0),
                             cut := false }
        let pol := s.polMsg p (16 * mSlots m)
        let s := pol.2
        if !pol.1 then s
        else
          let pcp := beAt bytes 14 2 / 8192
          let s := s.rxFill p pcp (40 + mLen m)
          s.rxArrive (mDst m)
            { msg := m, fromPort := none, uplink := some (8 * p + pcp), srcSw := leAt bytes 20 2, time := s.now, base := 0,
              sub := s.subOf p, hdrSent := false })

/-- Is the receive queue of a priority above its XON threshold. -/
def State.aboveXon (s : State) (p pcp : Nat) : Bool :=
  decide (((s.uplOf p).map (fun u => 1024 * u.xon.getD pcp 0)).getD 0 < s.rxUsed p pcp)

/-- XOFF_REPEAT (R162): the XOFF is repeated while the queue stays above XON. -/
def execXoffRepeat (p pcp : Nat) (s : State) : Host.Outcome State Fault Refusal :=
  settled (if p < 320 ∧ s.pmode p = 3 ∧ s.lstate p = 2 ∧ (s.port p).xoff.contains pcp ∧ s.aboveXon p pcp
    then s.emit (.pfc p pcp 0xFFFF) else s)

/-- Set or clear the paused state of a priority. -/
def State.setPause (s : State) (p pcp : Nat) (v : Bool) : State :=
  let s := s.updPort p (fun x => { x with pauseStart := if v then (if (tfind x.pauseStart pcp).isSome then x.pauseStart
                                                         else tins x.pauseStart pcp s.epoch) else tdel x.pauseStart pcp })
  s.wr .PRT_UPL_PAUSED_PCP (setBit (s.rd .PRT_UPL_PAUSED_PCP p) pcp v) p

/-- Is PFC ignored on a priority now (R161). -/
def State.pfcIgnored (s : State) (p pcp : Nat) : Bool :=
  match tfind (s.port p).pauseIgn pcp with
  | some e => decide (s.epoch < e)
  | none => false

/-- PFC_FRAME (R161): bit n of `mask` enables the time for priority n. -/
def execPfcFrame (p mask : Nat) (times : List Nat) (s : State) : Host.Outcome State Fault Refusal :=
  settled (
    if 320 ≤ p ∨ s.pmode p ≠ 3 ∨ s.lstate p ≠ 2 then s
    else
      (List.range 8).foldl (fun s pcp =>
        if mask.testBit pcp && s.pfcOn p pcp && !s.pfcIgnored p pcp then s.setPause p pcp (times.getD pcp 0 != 0) else s) s)

/-- PFC_PAUSE_EXPIRY (R161): the time a PFC frame carried is over. -/
def execPfcPauseExpiry (p pcp : Nat) (s : State) : Host.Outcome State Fault Refusal :=
  settled (if p < 320 ∧ pcp < 8 ∧ s.paused p pcp then s.setPause p pcp false else s)

/-- PFC_WATCHDOG (R161): a priority paused for longer than PFC_WD epochs. -/
def execPfcWatchdog (p pcp : Nat) (s : State) : Host.Outcome State Fault Refusal :=
  settled (
    match tfind (s.port p).pauseStart pcp with
    | none => s
    | some e =>
      let wd := s.rd .PRT_UPL_PFC_WD_WD p
      if 320 ≤ p ∨ 8 ≤ pcp ∨ !s.paused p pcp ∨ s.epoch < e + wd then s
      else
        let s := (s.setPause p pcp false).updPort p (fun x => { x with pauseIgn := tins x.pauseIgn pcp (s.epoch + wd) })
        let mine := s.sw.egr.filter (fun x => x.point == p && s.pcpOf (mMpri x.msg) == pcp)
        let s := mine.foldl (fun s x => (s.fromEgress x).msgEnd (s.portDie p) x.msg stFLUSHED) s
        (s.bump .PRT_UPL_PFC_STORM_COUNT p).event .pfcStorm p)

end Sys2Proof.Machine
end

