-- ==== Sys2Proof/Machine/RecovRows.lean ====
section
/-! DEFINITION. The commands of faults and recovery: errors of units (Table 16.2), the sequencer (R374 to R379),
control dies (R382), containment (R383, R386), the repair map and the health history (R389, R391). -/

namespace Sys2Proof.Machine

/-! ### Errors of units (Table 16.2) -/

/-- DIE_LINK_ERROR (R20): the transfer is retried; software sees nothing of it. -/
def execDieLinkError (_a _b : Nat) (s : State) : Host.Outcome State Fault Refusal := settled s

/-- The class and unit of a die's fault, by the die numbering of Table 21.4. -/
def dieFault (n : Nat) : Nat × Nat :=
  if n < 8 then (0x05, n) else if n < 44 then (0x09, n - 8) else if n < 60 then (0x0D, n - 44)
  else if n < 96 then (0x06, n - 60) else (0x0C, n - 96)

/-- Does a control die run without its partner, which is retired or held (R382, R482). -/
def State.ctAlone (s : State) (c : Nat) : Bool :=
  let o := if c % 2 = 0 then c + 1 else c - 1
  s.rcv.ctOut.contains o || s.dieHeld (96 + o)

/-- An error reported from outside: its immediate action, and its report (R372, R374). -/
def State.fault (s : State) (cls u : Nat) : State :=
  if cls = 0x05 ∧ u < 8 ∧ !s.planeFailed u then s.planeFail u
  else if cls = 0x0C ∧ s.ctAlone u then s.raise 0x0E (u / 2)
  else (s.immediate cls u).raise cls u

/-- A unit fails a self-test (R441, R482): a plane, RGF die or port die as its class is, a stack is lost (R380), a
control die is retired (R382), and adders are MOVED again (R369, R387). A PE column, which has no class, comes as 0x100 plus its
kind in the repair map (DESIGN CHOICE, log entry 89). -/
def State.selfTestFail (s : State) (cls u : Nat) : State :=
  if cls = 0x101 then s.peColumn u
  else if cls = 0x07 ∧ 48 ≤ u ∧ u < 64 then (s.moveAdders (u - 48)).raise 0x07 u
  else if cls = 0x08 then s.stackLost u
  else if cls = 0x0C then (s.ctRetire u).raise 0x0C u
  else s.fault cls u

/-- The die that a class's unit is, by the die numbering of Table 21.4. -/
def faultDie (cls u : Nat) : Option Nat :=
  if cls = 0x05 then some u
  else if (cls = 0x06 ∨ cls = 0x07) ∧ u < 36 then some (60 + u)
  else if cls = 0x09 then some (8 + u)
  else if cls = 0x0C then some (96 + u)
  else none

/-- DIE_LINK_FAIL (R21): a fault for each of the two end dies. -/
def execDieLinkFail (a b : Nat) (s : State) : Host.Outcome State Fault Refusal :=
  settled (
    let go (s : State) (n : Nat) : State := if 100 ≤ n then s else s.fault (dieFault n).1 (dieFault n).2
    go (go s a) b)

/-- RGF_HARD (R260). -/
def execRgfHard (d : Nat) (s : State) : Host.Outcome State Fault Refusal :=
  settled (if 36 ≤ d ∨ s.role d = 5 then s else s.fault 0x06 d)

/-- STACK_FAIL: accesses to the stack's frames wait. -/
def execStackFail (n : Nat) (s : State) : Host.Outcome State Fault Refusal :=
  settled (if 32 ≤ n ∨ !s.stackIn n then s else s.fault 0x08 n)

/-- PD_FAIL: the ports of a port die go DOWN and are flushed. -/
def execPdFail (d : Nat) (s : State) : Host.Outcome State Fault Refusal :=
  settled (if 36 ≤ d ∨ s.rcv.pdOut.contains d then s else s.fault 0x09 d)

/-- MC_FAIL: containment. -/
def execMcFail (k : Nat) (s : State) : Host.Outcome State Fault Refusal := settled (if 16 ≤ k then s else s.fault 0x0D k)

/-- DIR_MISMATCH: the slice holds its pipeline. -/
def execDirMismatch (k : Nat) (s : State) : Host.Outcome State Fault Refusal :=
  settled (if 16 ≤ k ∨ s.rcv.dirOff.contains k then s else s.fault 0x0A k)

/-! ### The sequencer (R374 to R380) -/

/-- The fourth tray timeout within 2^10 epochs takes the port DOWN, as a counted down (Table 16.2); `n` errors have joined the
first in the entry (R374). -/
def State.trayErr (s : State) (p n : Nat) : State :=
  let ts := ((s.port p).trayTimes.filter (fun e => decide (s.epoch < e + 1024))) ++ List.replicate (min n 3 + 1) s.epoch
  let s := s.updPort p (fun x => { x with trayTimes := if 4 ≤ ts.length then [] else ts })
  if 4 ≤ ts.length ∧ (s.lstate p = 2 ∨ s.lstate p = 3) then s.downCounted p else s

/-- Have the immediate actions of an entry's unit come so far that its steps can end: a lane that has failed is tested, and the
slot of a failed plane has another, or none is left (R373; DEDUCED, log entry 108). -/
def State.stepReady (s : State) (e : RcvEnt) : Bool :=
  if e.cls = 0x04 then !s.laneTesting e.unit
  else if e.cls = 0x05 then s.failedSlots.isEmpty || decide (s.rd .SWC_PLANE_STAT_N_ACTIVE ≤ 1)
  else true

/-- The steps of the running entry (Table 16.2); `ok` says whether a row is repaired, a stack retrains, or the
copies of a directory slice match. A directory way (0x0B) has no kind of record in Table 16.6. -/
def State.stepEntry (s : State) (e : RcvEnt) (ok : Bool) : State :=
  let u := e.unit
  match e.cls with
  | 0x02 => s.rowCheck u ok
  | 0x03 => s.trayErr u e.count
  | 0x04 => s.laneRecord u
  | 0x05 => s.planeStep u
  | 0x06 | 0x07 =>
    if 48 ≤ u then s.rmap 0x0C (u - 48)
    else
      let s := if e.cls = 0x06 then s.dieHardPass u else s
      s.rmap 0x04 u 0 (s.role u)
  | 0x08 =>
    if ok then { s with rcv := { s.rcv with stackWait := s.rcv.stackWait.filter (· != u) } } else s.stackLost u
  | 0x09 => (s.setDegraded 3 true).rmap 0x0A u
  | 0x0A => if ok then s.dirResume u else s.sliceRetire u
  | _ => s

/-- SEQUENCER_STEP (R374): the steps of the running entry end. The management pair holds during its own self-test
(R381, R382). -/
def execSequencerStep (ok : Bool) (s : State) : Host.Outcome State Fault Refusal :=
  settled (
    match s.rcv.running with
    | none => s
    | some e =>
      if s.rcv.ctHold.contains 0 ∨ (e.cls = 0x0C ∧ s.rcv.ctHold.contains (e.unit / 2)) ∨ !s.stepReady e then s
      else
        let s := s.stepEntry e ok
        if s.rcv.running = some e then s.entryDone else s)

/-- SUBSTITUTE_RETRY (R379, R380). -/
def execSubstituteRetry (page : Nat) (s : State) : Host.Outcome State Fault Refusal :=
  settled (if s.wantsSub page then (s.findSub page).2 else s)

/-! ### Control dies (R382) -/

/-- Does a pair run in lockstep: neither of its dies is retired or held (R382, R482). -/
def State.lockstep (s : State) (pair : Nat) : Bool := !s.ctAlone (2 * pair) && !s.ctAlone (2 * pair + 1)

/-- LOCKSTEP_MISMATCH: both dies of a pair in lockstep hold and run a self-test. The entry names the higher-numbered die, which a
second mismatch retires (R377, R382; DEDUCED, log entry 109). -/
def execLockstepMismatch (pair : Nat) (s : State) : Host.Outcome State Fault Refusal :=
  settled (
    if 2 ≤ pair ∨ !s.lockstep pair ∨ s.rcv.ctHold.contains pair then s
    else s.fault 0x0C (2 * pair + 1))

/-- CONTROL_SELF_TEST_END: a die that fails is retired; a second mismatch within 2^20 epochs retires the
higher-numbered die. -/
def execControlSelfTestEnd (pair : Nat) (lowOk highOk : Bool) (s : State) : Host.Outcome State Fault Refusal :=
  settled (
    if !s.rcv.ctHold.contains pair then s
    else
      let s := { s with rcv := { s.rcv with ctHold := s.rcv.ctHold.filter (· != pair) } }
      let s := if lowOk then s else s.ctRetire (2 * pair)
      let s := if highOk then s else s.ctRetire (2 * pair + 1)
      if !lowOk || !highOk then s
      else
        match tfind s.rcv.ctMis pair with
        | some e =>
          if s.epoch < e + 2 ^ 20 then s.ctRetire (2 * pair + 1)
          else { s with rcv := { s.rcv with ctMis := tins s.rcv.ctMis pair s.epoch } }
        | none => { s with rcv := { s.rcv with ctMis := tins s.rcv.ctMis pair s.epoch } })

/-! ### Containment (R383, R386) -/

/-- A write of ENTER. -/
def State.doEnter (s : State) : State := (s.enterContain 3 0).cmdDone 11

/-- ENTER (R383). -/
def execEnter (s : State) : Host.Outcome State Fault Refusal :=
  hostRow .enter State.doEnter s

/-- Is an S3 entry queued or running. -/
def State.s3Waits (s : State) : Bool := (s.rcv.queue ++ s.rcv.running.toList).any (fun e => e.sev == 3)

/-- The end of a CLEAR with its status. -/
def State.clearEnd (s : State) (st : Nat) : State := (s.wr .EVT_CONTAIN_RES_STATUS st).cmdDone 11

/-- Does a fault come from a held die, which reports none (Table 24.3, row 25). -/
def State.heldFault (s : State) (f : StandingFault) : Bool :=
  match faultDie f.cls f.unit with
  | some n => s.dieHeld n
  | none => false

/-- Has the sequencer begun an entry of a class and unit. -/
def State.recovering (s : State) (f : StandingFault) : Bool :=
  (s.rcv.queue ++ s.rcv.running.toList).any (fun e => sameUnit e.cls f.cls && e.unit == f.unit && e.started)

/-- The faults that State shows to stand, whose steps are still to be done: a write of CLEAR asks for them (R386). A unit in its own
recovery does not report again (DESIGN CHOICE, log entry 18). -/
def State.standing (s : State) : List StandingFault :=
  let of (cls : Nat) (l : List Nat) : List StandingFault := l.map (fun u => StandingFault.mk cls u)
  (of 0x05 ((List.range 8).filter (fun n => s.planeFailed n && !s.rmapHas 0x05 n 0 0))
    ++ of 0x06 ((List.range 36).filter (fun d => s.role d == 5 && !(s.slotsOf d).isEmpty))
    ++ of 0x08 s.rcv.stackWait
    ++ of 0x09 (s.rcv.pdOut.filter (fun d => !s.rmapHas 0x0A d 0 0))
    ++ of 0x0A s.rcv.dirHold
    ++ of 0x0C (s.rcv.ctHold.map (fun p => 2 * p + 1))).filter (fun f => !s.recovering f)

/-- A write of CLEAR; `standing` are the faults the units report again (R386). -/
def State.doClear (s : State) (standing : List StandingFault) : State :=
  if !s.running then s.clearEnd stSTATE
  else if !s.contained then s.clearEnd stOK
  else if s.rd .EVT_CONTAIN_CAUSE = 2 ∨ s.s3Waits then s.clearEnd stSTATE
  else
    let s := (standing.filter (fun f => !s.heldFault f)).foldl (fun s f => s.report f) s
    if s.rd .EVT_CONTAIN_CAUSE = 2 ∨ 16 ≤ s.rcv.queue.length then s.clearEnd stSTATE
    else s.leaveContain.clearEnd stOK

/-- CLEAR (R386). -/
def execClear (standing : List StandingFault) (s : State) : Host.Outcome State Fault Refusal :=
  hostRow (.clear standing) (fun s => s.doClear standing) s

/-! ### The repair map and the health history (R389, R391) -/

/-- A write of CLR: CLEARED is set in the selected record. -/
def State.doClr (s : State) : State :=
  let i := s.rd .EVT_RMAP_SEL_INDEX
  let r := s.rmapAt i
  let s := if rmapLive r then s.flashWrite (flRmap + 32 * i + 1) [r.getD 1 0 ||| 2] else s
  s.cmdDone 13

/-- CLR (R389). -/
def execClr (s : State) : Host.Outcome State Fault Refusal :=
  hostRow .clr State.doClr s

/-- HEALTH_RECORD (R391). -/
def execHealthRecord (s : State) : Host.Outcome State Fault Refusal := settled (if s.power.inReset then s else s.healthLog)

end Sys2Proof.Machine
end

