-- ==== Sys2Proof/Machine/PoolRows.lean ====
section
/-! DEFINITION. The commands of the pool: extents (R175 to R178, R195, R198), leases (R179, R180), patrol scrub
(R189), suspect bits (R187) and the writing of a bound tray (R416). -/

namespace Sys2Proof.Machine

/-! ### Host commands (R478, R518) -/

/-- May a host command of the pool, the tiers or the directory run: the tenant is ASSIGNED (R176, R408) and the
device in RUN (R518). -/
def State.poolCmdOk (s : State) : Bool := s.assigned && s.running

/-- An extent command ends (R176, R478). -/
def State.extEnd (s : State) (st : Nat) : State :=
  let s := (s.wr .POOL_EXT_RES_STATUS st).wr .POOL_EXT_RES_BUSY 0
  ({ s with busy := { s.busy with extOp := 0, extIdx := 0, evicted := [] } }).cmdDone 5

/-- An extent command runs on. -/
def State.extRun (s : State) (op idx : Nat) : State :=
  ({ s with busy := { s.busy with extOp := op, extIdx := idx } }).wr .POOL_EXT_RES_BUSY 1

/-- An extent command that names an extent by INDEX. -/
def State.extCmd (s : State) (idx : Nat) (act : State → Extent → State) : State :=
  if s.on .POOL_EXT_RES_BUSY then s
  else
    let idx := idx % 4096
    let s := s.wr .POOL_EXT_CMD_INDEX idx
    if !s.poolCmdOk then s.extEnd stSTATE else act s (s.extent idx)

/-! ### Ranges -/

/-- The first byte of an extent and its length in bytes. -/
def Extent.lo (x : Extent) : Nat := x.base * 2 ^ 21
def Extent.bytes (x : Extent) : Nat := x.len * 2 ^ 21
/-- The first page of an extent, and the page after its last. -/
def Extent.page0 (x : Extent) : Nat := x.base * 32
def Extent.page1 (x : Extent) : Nat := (x.base + x.len) * 32

/-- Does an extent hold a page. -/
def Extent.hasPage (x : Extent) (pg : Nat) : Bool := decide (x.page0 ≤ pg ∧ pg < x.page1)

/-- The pages of an extent that have a record: promoted, moving, moved, or without a frame. -/
def State.pagesIn (s : State) (x : Extent) : List (Nat × Page) := s.tier.pages.filter (fun e => x.hasPage e.1)

/-- Trays whose Erg range an extent touches. -/
def Extent.trays (x : Extent) : List Nat :=
  if x.isOasis then []
  else
    let a := trayOf x.page0
    let b := trayOf (x.page1 - 1)
    (List.range (b + 1 - a)).map (a + ·)

/-- Is an extent's range wholly present (R164, R165). -/
def State.rangePresent (s : State) (x : Extent) : Bool :=
  if x.isOasis then true
  else
    decide (x.page1 ≤ 0x62000000) && x.trays.all (fun t =>
      let top := min x.page1 (2 ^ 25 + (t + 1) * 2 ^ 26) - (2 ^ 25 + t * 2 ^ 26)
      decide (top * 65536 ≤ s.trayCapacity t))

/-- Does the device still owe trays lines of an extent, in the list of those owed or in its write buffers. -/
def State.owesIn (s : State) (x : Extent) : Bool :=
  s.home.owed.any (fun e => decide (e.1 < 1024 * x.page1 ∧ 1024 * x.page0 < e.2))
    || s.home.wbuf.any (fun e => x.hasPage (e.1 / 1024))

/-- Has every tray of an extent been written since it bound (R416). -/
def State.traysWritten (s : State) (x : Extent) : Bool :=
  x.trays.all (fun t => match s.trayPort t with | some p => (s.port p).written | none => false)

/-- Every line of a range reads zero, with poison and suspect clear. -/
def State.zeroRange (s : State) (lo n : Nat) : State :=
  { s with
    pool := { s.pool with
      mem := tclear s.pool.mem lo (lo + n)
      psn := tclear s.pool.psn (lo / 64) ((lo + n) / 64)
      symErr := tclear s.pool.symErr (lo / 64) ((lo + n) / 64)
      susp := tclear s.pool.susp (lo / 65536) ((lo + n) / 65536) }
    tier := { s.tier with shadow := s.tier.shadow.filter (fun e => !decide (lo / 64 ≤ e.1 ∧ e.1 < (lo + n) / 64)) }
    home := { s.home with rdEnts := tclear s.home.rdEnts (lo / 64) ((lo + n) / 64) } }

/-! ### Create (R176, R195) -/

/-- The record the argument registers describe. -/
def State.extArgs (s : State) : Extent :=
  { state := 3, base := s.rd .POOL_EXT_ARG0_BASE, len := s.rd .POOL_EXT_ARG1_LEN, slice := s.rd .POOL_EXT_ARG2_SLICE,
    coh := s.on .POOL_EXT_ARG2_COH, cg := s.rd .POOL_EXT_ARG2_CG, pub := s.on .POOL_EXT_ARG2_PUB,
    place := s.rd .POOL_EXT_ARG2_PLACE, ergc := s.on .POOL_EXT_ARG2_ERGC, owned := s.on .POOL_EXT_ARG3_OWNED,
    owner := s.rd .POOL_EXT_ARG3_OWNER, gen := 0 }

/-- Do two extents overlap. -/
def Extent.overlaps (x y : Extent) : Bool := decide (x.base < y.base + y.len ∧ y.base < x.base + x.len)

/-- The checks of R176 in their order; reserved encodings come with the refusals (R198; log entry 35). -/
def State.createStatus (s : State) (x : Extent) : Nat :=
  if x.len = 0 ∨ x.place = 3 ∨ (x.ergc ∧ x.place = 1) then stREFUSED
  else if s.pool.extents.any (fun e => e.2.state != 0 && x.overlaps e.2) then stREFUSED
  else if x.isOasis ∧ 2 ^ 20 < x.base + x.len then stREFUSED
  else if x.coh ∧ x.pub then stREFUSED
  else if !s.rangePresent x then stUNMAPPED
  else if 4096 ≤ (s.pool.extents.filter (fun e => e.2.state != 0)).length then stQUOTA
  else if x.isOasis ∧ s.oasisOver x.slice (32 * x.len) then stQUOTA
  else if !x.isOasis ∧ s.rd .POOL_QUOTA_ERG_MAX x.slice < s.rd .POOL_USE_ERG_USE x.slice + x.len then stQUOTA
  else stOK

/-- A page in a frame of a home, where the frame's natural page lies in an extent's range. -/
def State.inTheWay (s : State) (x : Extent) : List (Nat × Page) :=
  s.tier.pages.filter (fun e => e.2.loc == 1 && x.hasPage (s.naturalPage (s.homeOfPage e.1) e.2.frame))

/-- Pages of an Oasis range whose natural frame serves no more, and that hold no substitute (R379). -/
def State.frameless (s : State) (x : Extent) : List Nat :=
  let ret := (s.tier.retired.map (fun e => s.naturalPage (e.1 / 2 ^ 21) (e.1 % 2 ^ 21))).filter x.hasPage
  let lost := if s.stacksIn = 32 then []
    else ((List.range (32 * x.len)).map (x.page0 + ·)).filter (fun pg => !s.stackIn (stackOf (s.homeOfPage pg) (pg / 16)))
  (ret ++ lost).dedup.filter (fun pg => (s.page pg).loc == 0)

/-- A page that a create demotes is counted, once (R195). -/
def State.countEvict (s : State) (pg : Nat) : State :=
  if s.busy.evicted.contains pg then s
  else ({ s with busy := { s.busy with evicted := s.busy.evicted ++ [pg] } }).bump .TIER_EVICT_CREATE_COUNT

/-- One page gives way to a new extent: a promoted page is demoted, whatever its PIN; a substitute, or a page whose
image would not fit, moves to another frame, found as a substitute is (R195, R205, R379). The first part is false where no
frame is found. -/
def State.giveWay (s : State) (pg : Nat) : Bool × State :=
  let x := s.page pg
  let move (s : State) : Bool × State := s.findSub pg
  if oasisPage pg then move s
  else
    let s := if x.pin then
        let s := s.setPage pg { x with pin := false }
        match s.objectOf pg with
        | some (i, o) => { s with tier := { s.tier with objs := tins s.tier.objs i { o with state := 3 } } }
        | none => s
      else s
    if x.keep then move s
    else
      let d := s.demote pg none
      if d.1 then (true, d.2.countEvict pg)
      else if (d.2.page pg).keep then move d.2
      else (true, d.2)

/-- A page of a new Oasis extent takes a substitute at once (R379). False where no frame is found. -/
def State.newSub (s : State) (pg : Nat) : Bool × State :=
  let k := s.homeOfPage pg
  match s.pickFree k with
  | some f => (true, s.setPage pg { Page.home with loc := 1, frame := f })
  | none =>
    let pick (s : State) : Option (Nat × Page) := s.victim k (fun _ x => !s.frameGone k x.frame && (s.backing k x.frame).isNone)
    let d := s.demoteFor pg pick (s.tier.pages.length + 1)
    match d.1 with
    | some v =>
      if v.2.dirty then (true, d.2)
      else
        match d.2.pickFree k with
        | some f => (true, d.2.setPage pg { Page.home with loc := 1, frame := f })
        | none => (false, d.2)
    | none => ((pick d.2).isSome, d.2)

/-- Every page in the way of a new extent gives way, as far as it can now. -/
def State.clearWay (s : State) (x : Extent) : Bool × State :=
  let r := (s.inTheWay x).foldl (fun (a : Bool × State) e =>
    let b := a.2.giveWay e.1
    (a.1 && b.1, b.2)) (true, s)
  (s.frameless x).foldl (fun (a : Bool × State) pg =>
    let b := a.2.newSub pg
    (a.1 && b.1, b.2)) r

/-- Is nothing left in the way: every frame of the range BACKING and none of them taken or being left by a page on the move,
every page with a frame; every tray written, and the page images of an ERGC extent too (R195, R206, R416). -/
def State.wayClear (s : State) (x : Extent) : Bool :=
  (!x.isOasis || ((s.inTheWay x).isEmpty && (s.frameless x).isEmpty
    && !s.tier.migs.any (fun m => x.hasPage (s.naturalPage m.home m.frame)
      || (m.kind == 2 && x.hasPage (s.naturalPage m.home m.src)))))
  && s.traysWritten x && !(x.ergc && s.owesIn x)

/-- Slice use of an extent, up or down (R182). -/
def State.chargeExtent (s : State) (x : Extent) : State :=
  if x.isOasis then s.chargeOasis x.slice (32 * x.len) else s.advance .POOL_USE_ERG_USE x.slice 0 x.len
def State.creditExtent (s : State) (x : Extent) : State :=
  if x.isOasis then s.creditOasis x.slice (32 * x.len) else s.lower .POOL_USE_ERG_USE x.slice 0 x.len

/-- The lowest FREE extent record. -/
def State.freeExtent (s : State) : Nat := ((List.range 4096).find? (fun i => (s.extent i).state == 0)).getD 0

/-- A create that finds no frame ends with QUOTA, and no extent is created (R379): the substitutes that its pages had taken are
FREE again. -/
def State.createFails (s : State) (i : Nat) (x : Extent) : State :=
  let s := { s with tier := { s.tier with pages := s.tier.pages.filter (fun e => !(x.isOasis && x.hasPage e.1)) } }
  ((s.setExtent i Extent.free).creditExtent x).extEnd stQUOTA

/-- A create: the record is kept, and requests to it are answered UNMAPPED until it is ACTIVE. -/
def State.doCreate (s : State) : State :=
  if s.on .POOL_EXT_RES_BUSY then s
  else if !s.poolCmdOk then s.extEnd stSTATE
  else
    let x := s.extArgs
    let st := s.createStatus x
    if st ≠ stOK then s.extEnd st
    else
      let i := s.freeExtent
      let s := (((s.setExtent i x).chargeExtent x).zeroRange x.lo x.bytes).wr .POOL_EXT_RES_INDEX i
      let s := s.extRun 1 i
      let s := if x.ergc ∧ !x.isOasis then (List.range (32 * x.len)).foldl (fun s i => s.rewriteImage (x.page0 + i)) s else s
      if x.isOasis then
        let r := s.clearWay x
        if r.1 then r.2 else r.2.createFails i x
      else s

/-- EXTENT_CREATE (R176). -/
def execExtentCreate (s : State) : Host.Outcome State Fault Refusal :=
  hostRow .extentCreate State.doCreate s

/-- EXTENT_ACTIVE (R176, R195): nothing is left in the way, and the new extent is ACTIVE. -/
def execExtentActive (s : State) : Host.Outcome State Fault Refusal :=
  settled (
    if s.busy.extOp ≠ 1 then s
    else
      let i := s.busy.extIdx
      let x := s.extent i
      let r := if x.isOasis then s.clearWay x else (true, s)
      if !r.1 then r.2.createFails i x
      else if r.2.wayClear x then (r.2.setExtent i { x with state := 1 }).extEnd stOK
      else r.2)

/-! ### The end of an extent (R178, R195, R238) -/

/-- Does a request address a range. -/
def inRange (lo n : Nat) (r : Req) : Bool :=
  decide (lo ≤ mAddr r.msg ∧ mAddr r.msg < lo + n) && mOpc r.msg != opMSG && !inWindow (mAddr r.msg)

/-- Does a request wait at its home, after check 3 of Table 7.6. -/
def Wait.atHome (w : Wait) : Bool := decide (w.cause ≤ 8) || w.cause == 13

/-- Step 1 of R178: the extent leaves ACTIVE. What its home still holds for it is answered under Table 7.6, its
directory entries are recalled (R238), its regions end (R239), and receive areas and the mirror ring in it stop. -/
def State.endExtent (s : State) (i st : Nat) : State :=
  let x := s.extent i
  let ans := if st = 2 then stLEASE_GONE else stUNMAPPED
  let s := s.setExtent i { x with state := st }
  let s := (s.rxExtentGone x.lo x.bytes)
  let s := if decide (x.lo ≤ s.mirrAddr 0 ∧ s.mirrAddr 0 < x.lo + x.bytes) then s.mirrExtentGone else s
  let regs := s.coh.regions.filter (fun e => e.2.used && decide (x.lo ≤ e.2.hdr ∧ e.2.hdr < x.lo + x.bytes))
  let s := regs.foldl (fun s e => s.endRegion e.1) s
  let hit := s.home.waits.filter (fun w => w.atHome && inRange x.lo x.bytes w.req)
  let s := { s with home := { s.home with waits := s.home.waits.filter (fun w =>
    !(w.atHome && inRange x.lo x.bytes w.req)) } }
  let s := hit.foldl (fun s w => s.finishCmp w.req ans) s
  let runs := s.home.runs.filter (fun e => decide (x.lo ≤ 64 * e.1 ∧ 64 * e.1 < x.lo + x.bytes))
  let s := runs.foldl (fun s e => s.applyRun e.1) s
  let s := { s with home := { s.home with runs := tclear s.home.runs (x.lo / 64) ((x.lo + x.bytes) / 64) } }
  let grps := s.home.atGrps.filter (fun g => decide (x.lo ≤ g.addr ∧ g.addr < x.lo + x.bytes))
  let s := grps.foldl (fun s g => s.applyGroup g) s
  -- requests that wait for a tray line, and completions of lines that the fill will overwrite
  let here (l : Nat) : Bool := x.hasPage (l / 1024)
  let loads := s.home.tacc.flatMap (fun t => if here t.line then (match t.kind with | .load rs => rs | _ => []) else [])
  let unl (t : TAcc) : TAcc := match t.kind with | .load _ | .fill => t.unload here | _ => t
  let s := { s with home := { s.home with tacc := s.home.tacc.map unl } }
  let s := loads.foldl (fun s r => s.finishCmp r ans) s
  let s := s.dirCheckAll here
  let ents := s.coh.dir.filter (fun e => here e.1)
  ents.foldl (fun s e => s.endLine e.1 e.2 ans) s

/-- Objects of an extent that ends become FREE (R207). -/
def State.freeObjects (s : State) (x : Extent) : State :=
  { s with tier := { s.tier with objs := s.tier.objs.filter (fun e => !(e.2.state != 0 && x.hasPage e.2.base)) } }

/-- Step 3 of R178: every line of the range is zero; the device owes the trays their part of the fill (R195). -/
def State.beginFill (s : State) (i : Nat) : State :=
  let x := s.extent i
  if x.filling then s
  else
    let s := (s.zeroRange x.lo x.bytes).setExtent i { x with filling := true }
    if x.isOasis then s else s.rewritePages x.page0 (32 * x.len)

/-- Step 4 of R178: the frames of the range are FREE, its quota is released, and the extent is FREE. -/
def State.freeUp (s : State) (i : Nat) : State :=
  let x := s.extent i
  let held := ((s.pagesIn x).filter (fun e => e.2.loc == 1 && ergPage e.1)).length
  let s := { s with tier := { s.tier with
    pages := s.tier.pages.filter (fun e => !x.hasPage e.1)
    heat := s.tier.heat.filter (fun e => !x.hasPage e.1)
    retry := s.tier.retry.filter (fun pg => !x.hasPage pg) } }
  let s := ((s.creditOasis x.slice held).creditExtent x).freeObjects x
  let s := (s.setExtent i Extent.free).countNosub
  if x.state = 2 then (s.bump .POOL_EXT_RECLAIM_COUNT).event .extentReclaimed i else s

/-- May the fill of an ending extent begin (step 2 of R178): no migration of its pages, no directory entry of its lines. -/
def State.mayFill (s : State) (x : Extent) : Bool :=
  !s.tier.migs.any (fun m => x.hasPage m.page)
    && !s.coh.dir.any (fun e => decide (x.lo ≤ 64 * e.1 ∧ 64 * e.1 < x.lo + x.bytes))

/-- A DELETE by INDEX. -/
def State.doDelete (s : State) (idx : Nat) : State :=
  s.extCmd idx (fun s x =>
    let i := idx % 4096
    if x.state = 0 then s.extEnd stSTATE
    else if x.state = 1 then (s.endExtent i 3).extRun 2 i
    else s.extRun 2 i)

/-- EXTENT_DELETE (R176). -/
def execExtentDelete (idx : Nat) (s : State) : Host.Outcome State Fault Refusal :=
  hostRow (.extentDelete idx) (fun s => s.doDelete idx) s

/-- RECLAIM_FILL_END (R178, R195): once nothing moves in an ending extent its range is filled; once every line that the fill
owes a tray is sent, the fill is over and the extent is FREE. -/
def execReclaimFillEnd (idx : Nat) (s : State) : Host.Outcome State Fault Refusal :=
  settled (
    let x := s.extent idx
    if !(x.state == 2 || x.state == 3) || (s.busy.extOp == 1 && s.busy.extIdx == idx) || !s.mayFill x then s
    else if (s.beginFill idx).owesIn x then s.beginFill idx
    else
      let s := (s.beginFill idx).freeUp idx
      if s.busy.extOp = 2 ∧ s.busy.extIdx = idx then s.extEnd stOK else s)

/-! ### Attributes, records, owners (R176, R198) -/

/-- A SET_ATTR by INDEX. -/
def State.doSetAttr (s : State) (idx : Nat) : State :=
  s.extCmd idx (fun s x =>
    let i := idx % 4096
    let pl := s.rd .POOL_EXT_ARG2_PLACE
    let ec := s.on .POOL_EXT_ARG2_ERGC
    if x.state ≠ 1 then s.extEnd stSTATE
    else if pl = 3 ∨ (ec ∧ pl = 1) then s.extEnd stREFUSED
    else
      let s := s.setExtent i { x with place := pl, ergc := ec }
      -- pages on the move are among them: their promotion or demotion ends under the new attributes
      let held := if x.isOasis then [] else (s.pagesIn x).filter (fun e => e.2.loc == 1 || e.2.loc == 2)
      let s := if x.place = 0 ∧ pl ≠ 0 then held.foldl (fun s e => s.setPage e.1 { s.page e.1 with heat := 0 }) s else s
      let s := if pl = 1 ∧ x.place ≠ 1 then
          held.foldl (fun s e =>
            let s := s.setPage e.1 { s.page e.1 with pin := false, keep := false }
            if e.2.loc = 1 then s.demoteSoon e.1 else s) s
        else s
      if ec = x.ergc ∨ x.isOasis then s.extEnd stOK
      else
        let tray := ((List.range (32 * x.len)).map (x.page0 + ·)).filter (fun pg => (s.page pg).loc == 0)
        let s := tray.foldl (fun s pg => if ec then s.rewriteImage pg else s.rewritePages pg 1) s
        ({ s with busy := { s.busy with rewrite := tray } }).extRun 3 i)

/-- SET_ATTR (R176, R198, R206). -/
def execSetAttr (idx : Nat) (s : State) : Host.Outcome State Fault Refusal :=
  hostRow (.setAttr idx) (fun s => s.doSetAttr idx) s

/-- ERGC_REWRITE_END (R206): every page in TRAY has its new form, once nothing of the extent is owed to its trays any more. -/
def execErgcRewriteEnd (s : State) : Host.Outcome State Fault Refusal :=
  settled (
    if s.busy.extOp ≠ 3 ∨ s.owesIn (s.extent s.busy.extIdx) then s
    else ({ s with busy := { s.busy with rewrite := [] } }).extEnd stOK)

/-- A READ by INDEX: the record goes into the argument registers. -/
def State.doExtRead (s : State) (idx : Nat) : State :=
  s.extCmd idx (fun s x =>
    let s := (s.wr .POOL_EXT_ARG0_BASE x.base).wr .POOL_EXT_ARG1_LEN x.len
    let s := ((s.wr .POOL_EXT_ARG2_ERGC (b2n x.ergc)).wr .POOL_EXT_ARG2_PLACE x.place).wr .POOL_EXT_ARG2_PUB (b2n x.pub)
    let s := ((s.wr .POOL_EXT_ARG2_CG x.cg).wr .POOL_EXT_ARG2_COH (b2n x.coh)).wr .POOL_EXT_ARG2_SLICE x.slice
    let s := (s.wr .POOL_EXT_ARG3_OWNED (b2n x.owned)).wr .POOL_EXT_ARG3_OWNER x.owner
    let s := ((s.wr .POOL_EXT_RES_INDEX idx).wr .POOL_EXT_RES_STATE x.state).wr .POOL_EXT_GEN_GEN x.gen
    s.extEnd stOK)

/-- EXTENT_READ (R176). -/
def execExtentRead (idx : Nat) (s : State) : Host.Outcome State Fault Refusal :=
  hostRow (.extentRead idx) (fun s => s.doExtRead idx) s

/-- A SET_OWNER by INDEX. -/
def State.doSetOwner (s : State) (idx : Nat) : State :=
  s.extCmd idx (fun s x =>
    if x.state ≠ 1 then s.extEnd stSTATE
    else
      (s.setExtent (idx % 4096) { x with
        owned := s.on .POOL_EXT_ARG3_OWNED, owner := s.rd .POOL_EXT_ARG3_OWNER, gen := (x.gen + 1) % 2 ^ 32 }).extEnd stOK)

/-- SET_OWNER (R176). -/
def execSetOwner (idx : Nat) (s : State) : Host.Outcome State Fault Refusal :=
  hostRow (.setOwner idx) (fun s => s.doSetOwner idx) s

/-! ### Leases (R180) -/

/-- LEASE_EXPIRY (R180): a lease whose EXPIRY the epoch count has reached. In containment leases do not expire
(R385); in IDLE the expiry wakes the device (Table 20.3). -/
def execLeaseExpiry (id : Nat) (s : State) : Host.Outcome State Fault Refusal :=
  settled (
    let a := s.agent id
    if 4096 ≤ id ∨ !a.valid ∨ s.epoch < a.expiry ∨ s.contained then s
    else if !s.running then (if s.rd .PWR_STAT_STATE = 1 then s.wake 3 else s)
    else
      let s := s.updAgent id (fun a => { a with valid := false, lost := true })
      let own := s.pool.extents.filter (fun e => e.2.state == 1 && e.2.owned && e.2.owner == id)
      let s := own.foldl (fun s e => s.endExtent e.1 2) s
      (s.bump .POOL_LEASE_EXP_COUNT).event .leaseExpired id)

/-! ### Scrub and suspect bits (R187, R189) -/

/-- The page in a frame of a home. -/
def State.pageInFrame (s : State) (k f : Nat) : Nat :=
  match s.tier.pages.find? (fun e => (e.2.loc == 1) && e.2.frame == f && s.homeOfPage e.1 == k) with
  | some e => e.1
  | none => s.naturalPage k f

/-- The next in-service frame of a home from `f` up. -/
def State.nextInService (s : State) (k f : Nat) : Nat → Option Nat
  | 0 => none
  | n + 1 => if 2 ^ 21 ≤ f then none else if s.frameGone k f then s.nextInService k (f + 1) n else some f

/-- The frame that a complex scrubs next in the present pass. -/
def State.scrubNext (s : State) (k : Nat) : Option Nat :=
  s.nextInService k (tget 0 s.pool.scrubAt k) (2 * s.tier.retired.length + 3)

/-- SCRUB_READ (R189): complex `k` reads the next of its in-service frames of the pass; its lines are checked (R185). A pass
is over once every complex has read its frames, and the next one begins. No scrub starts in a teardown (Table 18.2). -/
def execScrubRead (k : Nat) (s : State) : Host.Outcome State Fault Refusal :=
  settled (
    if 16 ≤ k ∨ !s.on .POOL_CTL_SCRUB_EN ∨ !s.running ∨ s.contained ∨ s.rd .SEC_TEN_STAT_STATE = 2 then s
    else
      let s := if (List.range 16).any (fun j => (s.scrubNext j).isSome) then s
        else { s with pool := { s.pool with scrubAt := [] } }.wr .POOL_SCRUB_POS_POS 0
      match s.scrubNext k with
      | none => s
      | some f =>
        let s := ({ s with pool := { s.pool with scrubAt := tset 0 s.pool.scrubAt k (f + 1) } }).advance .POOL_SCRUB_POS_POS
        let pg := s.pageInFrame k f
        let bad := (s.pool.symErr.filter (fun e => decide (pg * 1024 ≤ e.1 ∧ e.1 < pg * 1024 + 1024))).map (·.1)
        bad.foldl (fun s l => (s.checkLine l).2) s)

/-- POOL_SUSP_CLR (R187). -/
def execPoolSuspClr (page : Nat) (s : State) : Host.Outcome State Fault Refusal :=
  hostRow (.poolSuspClr page) (fun s => s.setSusp (page % 2 ^ 32) false) s

/-! ### A bound tray is written (R416) -/

/-- TRAY_WRITTEN (R416): every page of a newly bound tray is written; its pages read zero, and what is promoted of it
differs from its tray copy (R194; log entry 36). -/
def State.trayWritten (s : State) (t : Nat) : State :=
  match s.trayPort t with
  | none => s
  | some p =>
    if !s.on .PRT_PFTL_STAT_BOUND p ∨ (s.port p).written then s
    else
      let mine (pg : Nat) : Bool := ergPage pg && trayOf pg == t
      let stay (l : Nat) (b : Nat) : Bool :=
        !mine (l / 1024) || (s.page (l / 1024)).loc == 1 || (tfind (s.wbufOf l) b).isSome
      let dirty (e : Nat × Page) : Nat × Page := if mine e.1 && e.2.loc == 1 then (e.1, { e.2 with dirty := true }) else e
      let s := { s with
        pool := { s.pool with
          mem := s.pool.mem.filter (fun e => stay (e.1 / 64) (e.1 % 64))
          psn := s.pool.psn.filter (fun e => !mine (e.1 / 1024) || (s.page (e.1 / 1024)).loc == 1)
          susp := s.pool.susp.filter (fun e => !mine e.1 || (s.page e.1).loc == 1) }
        tier := { s.tier with pages := s.tier.pages.map dirty } }
      (s.updPort p (fun x => { x with written := true })).retryDemotions

/-- TRAY_WRITTEN. -/
def execTrayWritten (t : Nat) (s : State) : Host.Outcome State Fault Refusal := settled (if 24 ≤ t then s else s.trayWritten t)

end Sys2Proof.Machine
end

