-- ==== Sys2Proof/Machine/TierRows.lean ====
section
/-! DEFINITION. The commands of the tiers: the end of a migration (R202), ERGC pages that wait (R206), the decay of
heat (R197), and object commands and the prefetch schedule (R207 to R209). -/

namespace Sys2Proof.Machine

/-! ### Migrations (R202, R206) -/

/-- MIGRATION_COMPLETE (R202): every line of a migrating page is performed; the new location is set, and what
waits for a home with room goes on. A substitute whose own frame was RETIRED meanwhile moves again (R379). -/
def execMigrationComplete (page : Nat) (s : State) : Host.Outcome State Fault Refusal :=
  settled (
    match s.tier.migs.find? (fun m => m.page == page) with
    | none => s
    | some m =>
      if m.done < m.need then s
      else
        let s := s.endMig m
        (if m.kind = 2 ∧ s.wantsSub page then (s.findSub page).2 else s).retryDemotions)

/-- ERGC_PROMOTE_RETRY (R206): a request that waits for an ERGC page in TRAY tries again; it waits on as MIGRATING
once the promotion has started. -/
def execErgcPromoteRetry (page : Nat) (s : State) : Host.Outcome State Fault Refusal :=
  settled (
    if !s.home.waits.any (fun w => decide (w.cause ≤ 3) && w.key == page) || !s.mayStartPages
        || !(ergPage page && (s.page page).loc == 0 && s.ergcAt page && s.activeAt (page * 65536))
        || s.busy.rewrite.contains page then s
    else
      let g := s.ergcGate page
      match g.1 with
      | .started => g.2.recause page 0
      | .wait c => g.2.recause page c
      | _ => g.2)

/-! ### Heat (R197) -/

/-- At an epoch that is a multiple of 2^DECAY_LOG2 every heat is halved, once (R197). In IDLE the halvings are made at the
wake, in SLEEP and DSLEEP heat stands still or is lost (R454; Table 24.3, row 2). -/
def State.halveHeat (s : State) : State :=
  if s.rd .PWR_STAT_STATE ≠ 0 ∨ s.epoch % 2 ^ s.rd .TIER_CTL_DECAY_LOG2 ≠ 0 ∨ s.tier.decayed = some s.epoch then s
  else
    let half (e : Nat × Nat) : Nat × Nat := (e.1, e.2 / 2)
    let cool (e : Nat × Page) : Nat × Page := (e.1, { e.2 with heat := e.2.heat / 2 })
    { s with tier := { s.tier with
      heat := (s.tier.heat.map half).filter (fun e => e.2 != 0)
      pages := s.tier.pages.map cool
      decayed := some s.epoch } }

/-- HEAT_DECAY (R197): the halving of the present epoch's boundary. The boundary itself makes it (`State.newEpoch`), so that
the command has something left to do only where no boundary has been passed yet (DEDUCED, log entry 86). -/
def execHeatDecay (s : State) : Host.Outcome State Fault Refusal := settled s.halveHeat

/-! ### Object commands (R207) -/

/-- An object command ends at once with a status. -/
def State.objEnd (s : State) (st : Nat) : State :=
  ((s.wr .TIER_OBJ_RES_STATUS st).wr .TIER_OBJ_RES_BUSY 0).cmdDone 9

/-- May a range be an object: inside one ACTIVE extent with PLACE = OBJECT in an Erg range, apart from every
object (R207). -/
def State.objOk (s : State) (base pages : Nat) : Bool :=
  decide (1 ≤ pages ∧ pages ≤ 2 ^ 24) && ergPage base
    && (match s.extentAt (base * 65536) with
        | some (_, x) => x.state == 1 && x.place == 2 && !x.isOasis && decide (base + pages ≤ x.page1)
        | none => false)
    && !s.tier.objs.any (fun e => e.2.state != 0 && decide (base < e.2.base + e.2.pages ∧ e.2.base < base + pages))

/-- A DEFINE (R207). -/
def State.doDefine (s : State) : State :=
  if s.on .TIER_OBJ_RES_BUSY then s
  else if !s.poolCmdOk then s.objEnd stSTATE
  else
    let base := s.rd .TIER_OBJ_ARG0_BASE
    let pages := s.rd .TIER_OBJ_ARG1_PAGES
    if !s.objOk base pages then s.objEnd stREFUSED
    else
      match (List.range 1024).find? (fun i => (s.object i).state == 0) with
      | none => s.objEnd stQUOTA
      | some i =>
        let s := s.setObject i { state := 1, base := base, pages := pages, layer := s.rd .TIER_OBJ_ARG2_LAYER }
        ((s.wr .TIER_OBJ_RES_INDEX i).wr .TIER_OBJ_RES_STATE 1).objEnd stOK

/-- DEFINE (R207). -/
def execDefine (s : State) : Host.Outcome State Fault Refusal :=
  hostRow .define State.doDefine s

/-- A command on the object that INDEX names: STATE where the object is FREE (log entry 37). -/
def State.objCmd (s : State) (idx : Nat) (act : State → Obj → State) : State :=
  if s.on .TIER_OBJ_RES_BUSY then s
  else
    let i := idx % 1024
    let s := s.wr .TIER_OBJ_CMD_INDEX i
    if !s.poolCmdOk ∨ (s.object i).state = 0 then s.objEnd stSTATE else act s (s.object i)

/-- PLACE_OASIS or PLACE_ERG begins (R207, R209). -/
def State.objBegin (s : State) (i op : Nat) (o : Obj) : State :=
  let s := (((s.wr .TIER_OBJ_RES_BUSY 1).wr .TIER_OBJ_RES_STATUS stOK).wr .TIER_OBJ_RES_INDEX i).wr .TIER_PROG_TOT_TOTAL o.pages
  let s := (s.wr .TIER_PROG_POS_POS 0).wr .TIER_PROG_PCT_PCT 0
  { s with busy := { s.busy with objIdx := i, objOp := op, objNext := 0, runQ := [], objStop := false, objFail := false, objPos := 0 } }

/-- A PLACE_OASIS by INDEX; an object in an ERG_ONLY extent never moves (R198), and the command is REFUSED
(log entry 37). -/
def State.doPlaceOasis (s : State) (idx : Nat) : State :=
  s.objCmd idx (fun s o =>
    match s.extentAt (o.base * 65536) with
    | some (_, x) => if x.place = 1 then s.objEnd stREFUSED else s.objBegin (idx % 1024) 2 o
    | none => s.objEnd stSTATE)

/-- PLACE_OASIS (R207). -/
def execPlaceOasis (idx : Nat) (s : State) : Host.Outcome State Fault Refusal :=
  hostRow (.placeOasis idx) (fun s => s.doPlaceOasis idx) s

/-- A PLACE_ERG by INDEX. -/
def State.doPlaceErg (s : State) (idx : Nat) : State := s.objCmd idx (fun s o => s.objBegin (idx % 1024) 3 o)

/-- PLACE_ERG (R207). -/
def execPlaceErg (idx : Nat) (s : State) : Host.Outcome State Fault Refusal :=
  hostRow (.placeErg idx) (fun s => s.doPlaceErg idx) s

/-- A DELETE by INDEX: PIN is cleared, and each page stays where it is. -/
def State.doObjDelete (s : State) (idx : Nat) : State :=
  s.objCmd idx (fun s o =>
    let s := (s.objPages o).foldl (fun s e => s.setPage e.1 { e.2 with pin := false }) s
    ((s.setObject (idx % 1024) Obj.free).wr .TIER_OBJ_RES_STATE 0).objEnd stOK)

/-- OBJECT_DELETE (R207). -/
def execObjectDelete (idx : Nat) (s : State) : Host.Outcome State Fault Refusal :=
  hostRow (.objectDelete idx) (fun s => s.doObjDelete idx) s

/-- A READ by INDEX: the record of any of the 1,024 objects, FREE ones too. -/
def State.doObjRead (s : State) (idx : Nat) : State :=
  if s.on .TIER_OBJ_RES_BUSY then s
  else
    let i := idx % 1024
    let s := s.wr .TIER_OBJ_CMD_INDEX i
    if !s.poolCmdOk then s.objEnd stSTATE
    else
      let o := s.object i
      let s := ((s.wr .TIER_OBJ_ARG0_BASE o.base).wr .TIER_OBJ_ARG1_PAGES o.pages).wr .TIER_OBJ_ARG2_LAYER o.layer
      ((s.wr .TIER_OBJ_RES_INDEX i).wr .TIER_OBJ_RES_STATE o.state).objEnd stOK

/-- OBJECT_READ (R207). -/
def execObjectRead (idx : Nat) (s : State) : Host.Outcome State Fault Refusal :=
  hostRow (.objectRead idx) (fun s => s.doObjRead idx) s

/-! ### The prefetch schedule (R208, R437) -/

/-- Image objects whose entry is FREE and whose range meets R207 are defined before a run (R437). -/
def State.imageObjects (s : State) : State :=
  s.boot.image.objs.foldl (fun s e =>
    if (s.object e.1).state = 0 ∧ s.objOk e.2.base e.2.pages then s.setObject e.1 { e.2 with state := 1 } else s) s

/-- A run of a phase (R208). -/
def State.doSchedule (s : State) (phase : Nat) : State :=
  if phase = 0 ∨ 3 < phase ∨ s.on .TIER_OBJ_RES_BUSY then s
  else if !s.poolCmdOk then s.objEnd stSTATE
  else
    let s := s.imageObjects
    let q := s.boot.image.sched.zipIdx.filterMap (fun (e, n) =>
      if bit e.1 (phase - 1) then some (e.2.1, 2 * n + e.2.2 % 2) else none)
    let tot := (q.map (fun e => (s.object e.1).pages)).sum
    let s := ((s.wr .TIER_OBJ_RES_BUSY 1).wr .TIER_OBJ_RES_STATUS stOK).wr .TIER_PROG_TOT_TOTAL tot
    let s := (s.wr .TIER_PROG_POS_POS 0).wr .TIER_PROG_PCT_PCT 0
    let s := (s.wr .TIER_SCHED_STAT_RUNNING 1).wr .TIER_SCHED_STAT_PHASE phase
    let s := { s with busy := { s.busy with runQ := q, objStop := false, objFail := false, objPos := 0 } }
    s.nextEntry q

/-- SCHEDULE_RUN (R208). -/
def execScheduleRun (phase : Nat) (s : State) : Host.Outcome State Fault Refusal :=
  hostRow (.scheduleRun phase) (fun s => s.doSchedule phase) s

/-- A run stops after its current page. -/
def State.stopSchedule (s : State) : State :=
  if s.on .TIER_SCHED_STAT_RUNNING then { s with busy := { s.busy with objStop := true } } else s

/-- SCHEDULE_STOP (R208). -/
def execScheduleStop (s : State) : Host.Outcome State Fault Refusal :=
  hostRow .scheduleStop State.stopSchedule s

end Sys2Proof.Machine
end

