-- ==== Sys2Proof/Machine/GroupRows.lean ====
section
/-! DEFINITION. The commands of coherence groups (R213 to R215, R232 to R237) and published regions (R239 to
R243). -/

namespace Sys2Proof.Machine

/-! ### Group commands (R214) -/

/-- A group command ends (Table 21.5). -/
def State.cgEnd (s : State) (st : Nat) : State :=
  ((s.wr .DIR_CG_RES_STATUS st).wr .DIR_CG_RES_BUSY 0).cmdDone 7

/-- A group command by DIR_CG_ARG; one at a time, and STATE under DIR_OFF (Table 24.3, row 12). -/
def State.cgCmd (s : State) (act : State → Nat → State) : State :=
  if s.on .DIR_CG_RES_BUSY then s
  else
    let g := s.rd .DIR_CG_ARG_GROUP
    let s := s.wr .DIR_CG_RES_GROUP g
    if !s.poolCmdOk ∨ !s.rcv.dirOff.isEmpty then s.cgEnd stSTATE else act s g

/-- The slots that DIR_CG_MEMBER lists. -/
def State.cgListed (s : State) (g : Nat) : List (Nat × Nat) :=
  (List.range 64).filterMap (fun m => if s.on .DIR_CG_MEMBER_VALID g m then some (m, s.rd .DIR_CG_MEMBER_ID g m) else none)

/-- Does no ID appear in two valid slots. -/
def idsOnce (l : List (Nat × Nat)) : Bool := decide ((l.map (·.2)).Nodup)

/-- A walk of a group begins: BUSY stays set and its progress starts again. -/
def State.cgWalk (s : State) (g walk : Nat) : State :=
  let c := s.cg g
  let s := (s.setCg g { c with walk := walk }).wr .DIR_CG_RES_BUSY 1
  (s.wr .DIR_CG_POS_POS 0 g).wr .DIR_CG_STAT_PCT 0 g

/-- A walk of a group has seen every set. -/
def State.cgWalked (s : State) (g : Nat) : State :=
  (s.wr .DIR_CG_POS_POS (s.rd .DIR_CG_TOT_TOTAL) g).wr .DIR_CG_STAT_PCT 10000 g

/-- A group is OFF, UP or FAULTED. -/
def State.setCgState (s : State) (g st : Nat) : State := s.wr .DIR_CG_STAT_STATE st g

/-- Does an entry name a slot as a holder, or wait for its answer. -/
def DirEnt.names (e : DirEnt) (m : Nat) : Bool := e.own == some m || e.shr.contains m || e.awaiting.contains m

/-- Recall the stable entries of a group that pass a test, as for eviction (Table 9.6). -/
def State.recallAll (s : State) (g : Nat) (ok : DirEnt → Bool) : State :=
  let s := s.dirCheckAll (fun _ => true)
  let es := s.coh.dir.filter (fun e => e.2.cg == g && e.2.st != .P && !e.2.st.transient && ok e.2)
  if s.cgState g ≠ 1 then s else es.foldl (fun s e => s.recall e.1 e.2 SnoopFor.walk none .drop) s

/-- Remove the P entries of a group. -/
def State.dropP (s : State) (g : Nat) : State :=
  { s with coh := { s.coh with dir := s.coh.dir.filter (fun e => !(e.2.cg == g && e.2.st == .P)) } }

/-- FORM: checked for repeated IDs; the group is UP with the listed slots. -/
def State.doForm (s : State) : State :=
  s.cgCmd (fun s g =>
    if s.cgState g ≠ 0 then s.cgEnd stSTATE
    else if !idsOnce (s.cgListed g) then s.cgEnd stREFUSED
    else ((s.setCg g { Cg.init with slots := s.cgListed g }).setCgState g 1 |>.advance .DIR_CG_GEN_GEN g).cgEnd stOK)

/-- FORM (R214). -/
def execForm (s : State) : Host.Outcome State Fault Refusal :=
  hostRow .form State.doForm s

/-- ADD: the slot takes the ID at once. -/
def State.doAdd (s : State) : State :=
  s.cgCmd (fun s g =>
    let m := s.rd .DIR_CG_ARG_SLOT
    let id := s.rd .DIR_CG_ARG_ID
    if s.cgState g ≠ 1 ∨ (s.slotAgent g m).isSome ∨ (s.slotListed g id).isSome then s.cgEnd stSTATE
    else
      let c := s.cg g
      let s := s.setCg g { c with slots := c.slots ++ [(m, id)] }
      ((s.wr .DIR_CG_MEMBER_VALID 1 g m).wr .DIR_CG_MEMBER_ID id g m).cgEnd stOK)

/-- ADD (R214). -/
def execAdd (s : State) : Host.Outcome State Fault Refusal :=
  hostRow .add State.doAdd s

/-- REMOVE: the slot is no member's from now on, and a walk recalls every entry that names it. -/
def State.doRemove (s : State) : State :=
  s.cgCmd (fun s g =>
    let m := s.rd .DIR_CG_ARG_SLOT
    if s.cgState g ≠ 1 ∨ (s.slotAgent g m).isNone then s.cgEnd stSTATE
    else
      let c := s.cg g
      let s := (s.setCg g { c with removing := some m }).cgWalk g 1
      if s.contained then s else s.recallAll g (fun e => e.names m))

/-- REMOVE (R214). -/
def execRemove (s : State) : Host.Outcome State Fault Refusal :=
  hostRow .remove State.doRemove s

/-- Steps 2 of R236: the member slots are loaded, repeated IDs refused. -/
def State.reformLoad (s : State) (g : Nat) : State :=
  let l := s.cgListed g
  let c := s.cg g
  if !idsOnce l then (s.setCg g { c with walk := 0 }).cgEnd stREFUSED
  else (s.setCg g { c with slots := l }).cgWalk g 4

/-- REFORM: of a group that is UP it ends at once and changes nothing (R236). -/
def State.doReform (s : State) : State :=
  s.cgCmd (fun s g =>
    if s.cgState g = 1 then s.cgEnd stOK
    else if s.cgState g ≠ 2 then s.cgEnd stSTATE
    else if (s.cg g).faultWalk then s.cgWalk g 2
    else s.reformLoad g)

/-- REFORM (R214, R236). -/
def execReform (s : State) : Host.Outcome State Fault Refusal :=
  hostRow .reform State.doReform s

/-- DISBAND: a walk recalls every entry of the group, or removes its P entries. -/
def State.doDisband (s : State) : State :=
  s.cgCmd (fun s g =>
    if s.cgState g = 0 ∨ s.cgState g = 3 then s.cgEnd stSTATE
    else
      let up := s.cgState g == 1
      let s := s.cgWalk g 3
      if up && !s.contained then s.recallAll g (fun _ => true) else s)

/-- DISBAND (R214). -/
def execDisband (s : State) : Host.Outcome State Fault Refusal :=
  hostRow .disband State.doDisband s

/-! ### The end of walks (R214, R233, R236, R237) -/

/-- The walk of a REMOVE: entries that still name the slot are recalled; with none left, and none that serves its agent, the
slot is emptied. -/
def State.removeWalk (s : State) (g : Nat) : State :=
  let c := s.cg g
  match c.removing with
  | none => s
  | some m =>
    let s := if s.cgState g = 1 ∧ !s.contained then s.recallAll g (fun e => e.names m) else s
    let serves (e : DirEnt) : Bool := e.st.transient && (match e.req with | some r => s.slotListed g r.src == some m | none => false)
    if s.coh.dir.any (fun e => e.2.cg == g && (e.2.names m || serves e.2)) then s
    else
      let s := s.setCg g { c with removing := none, walk := 0, slots := c.slots.filter (fun e => e.1 != m) }
      ((s.wr .DIR_CG_MEMBER_VALID 0 g m).cgWalked g).cgEnd stOK

/-- The walk of a DISBAND: the group is OFF once it has no entry. -/
def State.disbandWalk (s : State) (g : Nat) : State :=
  if (s.cg g).faultWalk then s
  else
    let s := if s.cgState g = 1 ∧ !s.contained then s.recallAll g (fun _ => true) else s
    let s := s.dropP g
    if s.coh.dir.any (fun e => e.2.cg == g) then s
    else
      let s := ((s.setCg g Cg.init).setCgState g 0).advance .DIR_CG_GEN_GEN g
      ((s.event .cgOff g).cgWalked g).cgEnd stOK

/-- The walk of a REFORM: the P entries are removed and the group is UP (R236, steps 3 and 4). -/
def State.reformWalk (s : State) (g : Nat) : State :=
  let c := s.cg g
  let s := ((s.dropP g).setCg g { c with walk := 0, removing := none }).setCgState g 1
  (((s.advance .DIR_CG_GEN_GEN g).event .cgUp g).cgWalked g).cgEnd stOK

/-- GROUP_WALK_END (R214): the walk of the command that runs has passed every set. -/
def execGroupWalkEnd (s : State) : Host.Outcome State Fault Refusal :=
  settled (
    if !s.on .DIR_CG_RES_BUSY then s
    else
      let s := s.dirCheckAll (fun _ => true)
      let g := s.rd .DIR_CG_RES_GROUP
      match (s.cg g).walk with
      | 1 => s.removeWalk g
      | 3 => s.disbandWalk g
      | 4 => s.reformWalk g
      | _ => s)

/-- A line is rewritten with its stored bytes and PSN 1, where it is: a line of a tray through the write buffer (R233). -/
def State.markLine (s : State) (l : Nat) : State :=
  let s := (s.setPsn l true).touch (l / 1024)
  if ergPage (l / 1024) && ((s.page (l / 1024)).loc == 0 || (s.page (l / 1024)).loc == 2) then s.wbufPut l 0 [] true { cls := 5 } else s

/-- The fault walk sets an entry to P; the entry of an ending extent is removed (R238). A line that was neither S nor
US_D is marked poisoned. -/
def State.faultEntry (s : State) (l : Nat) (e : DirEnt) : State :=
  if e.st == .P then s
  else if !s.activeAt (64 * l) then s.dropDir l
  else
    let bad := e.st != .S && e.st != .US_D
    let s := s.setDir l { DirEnt.fresh e.way e.cg with st := .P }
    if bad then (s.markLine l).bump .DIR_CG_POISONED_COUNT e.cg else s

/-- FAULT_WALK_END (R233, steps 5 and 6): every entry of the group is P, and WALKED is set; a REFORM that waited
loads its members (R236). -/
def execFaultWalkEnd (g : Nat) (s : State) : Host.Outcome State Fault Refusal :=
  settled (
    if 16 ≤ g ∨ !(s.cg g).faultWalk then s
    else
      let s := (s.dirCheckAll (fun _ => true)).wr .DIR_CG_POISONED_COUNT 0 g
      let s := (s.coh.dir.filter (fun e => e.2.cg == g)).foldl (fun s e => s.faultEntry e.1 e.2) s
      let c := s.cg g
      let s := (((s.setCg g { c with faultWalk := false }).wr .DIR_CG_STAT_WALKED 1 g).cgWalked g).event .cgWalked g
      if c.walk = 2 then s.reformLoad g else s)

/-- SNOOP_TIMEOUT (R226, R244): the agent has not answered a snoop, or an INV_NOTE, of a line in time; a HACK that its home
holds is an answer. -/
def execSnoopTimeout (line id : Nat) (s : State) : Host.Outcome State Fault Refusal :=
  settled (
    match s.coh.inotes.find? (fun n => n.id == id && n.addr == 64 * line) with
    | some n => s.dropSub n .DIR_SNP_TMO_COUNT
    | none =>
      match s.dirEnt line with
      | none => s
      | some e =>
        match s.slotListed e.cg id with
        | none => s
        | some m =>
          let held := s.coh.hacks.any (fun h => h.1 == id && lineOf (mAddr h.2) == line)
          if e.st.transient && e.awaiting.contains m && !held then (s.bump .DIR_SNP_TMO_COUNT).flushedSnoop line m else s)

/-- SHARER_WALK_END (R237): the slot of an agent that is gone is out of every sharer set. -/
def execSharerWalkEnd (id : Nat) (s : State) : Host.Outcome State Fault Refusal :=
  settled (
    if !(s.agent id).walking then s
    else
      let out (s : State) (e : Nat × DirEnt) : State :=
        match s.slotListed e.2.cg id with
        | none => s
        | some m =>
          if !e.2.shr.contains m then s
          else
            let x := { e.2 with shr := e.2.shr.filter (· != m) }
            if x.st.transient || x.st == .P then s.setDir e.1 x else s.stable e.1 x x.st x.own x.shr
      let s := s.dirCheckAll (fun _ => true)
      (s.coh.dir.foldl out s).updAgent id (fun a => { a with walking := false }))

/-! ### Published regions (R239, R243) -/

/-- A region command ends (Table 21.5). -/
def State.pubCmdEnd (s : State) (st : Nat) : State :=
  ((s.wr .DIR_PUB_RES_STATUS st).wr .DIR_PUB_RES_BUSY 0).cmdDone 8

/-- The status of a CREATE (R239). -/
def State.regionStatus (s : State) (hdr body lines : Nat) : Nat :=
  let mapped (a : Nat) : Bool := (s.extentAt a).isSome
  if lines = 0 ∨ 2 ^ 20 < lines ∨ hdr % 64 ≠ 0 ∨ body % 64 ≠ 0 then stREFUSED
  else if !(mapped hdr && mapped (hdr + 64 * lines) && mapped body && mapped (body + 64 * lines - 1)) then stUNMAPPED
  else if !s.inActive hdr (64 * (lines + 1)) (fun x => x.pub) then stREFUSED
  else if !s.bodyOk body lines then stREFUSED
  else if s.coh.regions.any (fun e => e.2.used &&
      decide (hdr < e.2.hdr + 64 * (e.2.lines + 1) ∧ e.2.hdr < hdr + 64 * (lines + 1))) then stREFUSED
  else if 1024 ≤ (s.coh.regions.filter (fun e => e.2.used)).length then stQUOTA
  else stOK

/-- A CREATE of a region at VERSION 1. -/
def State.doRegionCreate (s : State) : State :=
  if s.on .DIR_PUB_RES_BUSY then s
  else if !s.poolCmdOk then s.pubCmdEnd stSTATE
  else
    let hdr := s.rd .DIR_PUB_ARG0_HDR
    let body := s.rd .DIR_PUB_ARG1_BODY
    let lines := s.rd .DIR_PUB_ARG2_LINES
    let st := s.regionStatus hdr body lines
    if st ≠ stOK then s.pubCmdEnd st
    else
      match (List.range 1024).find? (fun i => !(s.region i).used) with
      | none => s.pubCmdEnd stQUOTA
      | some i =>
        -- the spec gives no time of a last commit before the first (log entry 6)
        let t := s.free
        let s := t.2
        let x := { Region.none with used := true, hdr := hdr, lines := lines, body := body, oldBody := body, version := 1, time := t.1 % 2 ^ 64 }
        ((s.setRegion i x).wr .DIR_PUB_RES_INDEX i).pubCmdEnd stOK

/-- REGION_CREATE (R239). -/
def execRegionCreate (s : State) : Host.Outcome State Fault Refusal :=
  hostRow .regionCreate State.doRegionCreate s

/-- A command on the region that INDEX names; STATE where there is none (log entry 37). -/
def State.regionCmd (s : State) (idx : Nat) (act : State → Nat → Region → State) : State :=
  if s.on .DIR_PUB_RES_BUSY then s
  else
    let i := idx % 1024
    let s := s.wr .DIR_PUB_CMD_INDEX i
    if !s.poolCmdOk ∨ !(s.region i).used then s.pubCmdEnd stSTATE else act s i (s.region i)

/-- A DELETE of a region. -/
def State.doRegionDelete (s : State) (idx : Nat) : State :=
  s.regionCmd idx (fun s i _ => (s.endRegion i).pubCmdEnd stOK)

/-- REGION_DELETE (R239). -/
def execRegionDelete (idx : Nat) (s : State) : Host.Outcome State Fault Refusal :=
  hostRow (.regionDelete idx) (fun s => s.doRegionDelete idx) s

/-- A READ of a region's record. -/
def State.doRegionRead (s : State) (idx : Nat) : State :=
  s.regionCmd idx (fun s i x =>
    let s := ((s.wr .DIR_PUB_ARG0_HDR x.hdr).wr .DIR_PUB_ARG1_BODY x.body).wr .DIR_PUB_ARG2_LINES x.lines
    ((s.wr .DIR_PUB_VER_VERSION x.version).wr .DIR_PUB_RES_INDEX i).pubCmdEnd stOK)

/-- REGION_READ (R246). -/
def execRegionRead (idx : Nat) (s : State) : Host.Outcome State Fault Refusal :=
  hostRow (.regionRead idx) (fun s => s.doRegionRead idx) s

/-- VERSION_COMMIT (R243, steps 4 to 6): no window read of the old BODY is left, and the new version is set. -/
def execVersionCommit (idx : Nat) (s : State) : Host.Outcome State Fault Refusal := settled (s.pubCommit idx)

end Sys2Proof.Machine
end

