-- ==== Sys2Proof/Machine/MirageRows.lean ====
section
/-! DEFINITION. The commands of Mirage (R351 to R369): scans and their verdicts, the decay of scores, the host's die
commands, and the scans of the near-memory adders. -/

namespace Sys2Proof.Machine

/-! ### Scans of RGF dies (R351 to R356) -/

/-- Did the last scan of a die start in this epoch. -/
def Scan.startedAt (x : Scan) (e : Nat) : Bool := x.start != 0 && x.start / 65536 == e

/-- SCAN_DUE (R355): a die's scheduled scan epoch is reached, in containment and in IDLE too (Table 24.3, rows 3 and 22). -/
def execScanDue (d : Nat) (s : State) : Host.Outcome State Fault Refusal :=
  settled (
    if 36 ≤ d ∨ !scannedRole (s.role d) ∨ 1 < s.rd .PWR_STAT_STATE ∨ (s.scan d).startedAt s.epoch ∨ !s.dieScanAt d s.epoch then s
    else s.makeDue d)

/-- EARLY_SCAN (R356): the journal of a die holds 4,096 entries since its last passing scan. -/
def execEarlyScan (d : Nat) (s : State) : Host.Outcome State Fault Refusal :=
  settled (
    if 36 ≤ d ∨ !scannedRole (s.role d) ∨ (s.scan d).due ∨ (s.scan d).running ∨ (s.scan d).since < 4096 then s
    else (s.makeDue d).bump .SCN_EARLY_COUNT)

/-- The operands of a scan come to a die, in SC5 under subscriber 1023: they are charged at its point (R23, R132, R260; log entry
64). -/
def State.scanOperands (s : State) (d : Nat) : State :=
  s.charge (336 + d) { n := 0, cls := 5, sub := 1023, cost := Config.scanBytes, ready := true, cyc := s.cycle }

/-- SCAN_START (R351, R352, R354): a due scan starts at the die's next step boundary, with a seed from the root of
trust and a checker chosen round robin. -/
def execScanStart (d : Nat) (s : State) : Host.Outcome State Fault Refusal :=
  settled (
    let x := s.scan d
    if 36 ≤ d ∨ !scannedRole (s.role d) ∨ !x.due ∨ x.running ∨ s.engaged d ∨ !s.dieRuns d ∨ !s.scansAllowed then s
    else
      match s.pickChecker [d] with
      | none => s
      | some c =>
        let f := (s.scanOperands d |>.scanOperands c).free
        let s := f.2.setScan d { x with due := false, running := true, seed := f.1, start := s.now, checker := c, arbiting := none }
        { s with scn := { s.scn with lastDie := c } })

/-- VERDICT (R352): equal digests pass both dies; unequal ones go to an arbiter. -/
def execVerdict (d dig chk : Nat) (s : State) : Host.Outcome State Fault Refusal :=
  settled (
    let x := s.scan d
    if 36 ≤ d ∨ !x.running ∨ x.arbiting.isSome ∨ !s.dieRuns d then s
    else if dig = chk then ((s.scanOver d).diePass d x.start).diePass x.checker x.start
    else
      match s.pickChecker [d, x.checker] with
      | none => s
      | some a =>
        let s := ((s.setScan d { x with arbiting := some (dig, chk, a) }).bump .SCN_ARB_COUNT).scanOperands a
        { s with scn := { s.scn with lastDie := a } })

/-- ARBITRATION (R352): the arbiter's digest decides which die fails; where no two agree, both fail and the arbiter's
own scan is due. -/
def execArbitration (d dig : Nat) (s : State) : Host.Outcome State Fault Refusal :=
  settled (
    let x := s.scan d
    match x.arbiting with
    | none => s
    | some (own, chk, a) =>
      if 36 ≤ d ∨ !x.running ∨ !s.dieRuns d then s
      else
        let s := s.scanOver d
        if dig = own then ((s.diePass d x.start).diePass a x.start).dieFail x.checker
        else if dig = chk then ((s.diePass x.checker x.start).diePass a x.start).dieFail d
        else ((s.dieFail d).dieFail x.checker).makeDue a)

/-- SCORE_DECAY (R363): at an epoch that is a multiple of 2^LOG2 every score is halved, once. -/
def execScoreDecay (s : State) : Host.Outcome State Fault Refusal :=
  settled (
    if s.epoch % 2 ^ s.rd .SCN_DECAY_LOG2 ≠ 0 ∨ s.scn.decayed = some s.epoch then s
    else
      let s := { s with scn := { s.scn with decayed := some s.epoch } }
      let s := (List.range 36).foldl (fun s d => s.wr .SCN_DIE_SCORE_SCORE (s.score d / 2) d) s
      (List.range 36).foldl (fun s d => s.roleCheck d) s)

/-! ### Host commands on a die (R368) -/

/-- A die command ends (Table 21.5). -/
def State.scnEnd (s : State) (st : Nat) : State :=
  ((s.wr .SCN_DIE_RES_STATUS st).wr .SCN_DIE_RES_BUSY 0).cmdDone 10

/-- A die command: STATE where the device is not in RUN (R518), the die does not exist, or the command is not
allowed (Table 15.7). -/
def State.scnCmd (s : State) (d : Nat) (ok : State → Bool) (act : State → State) : State :=
  if s.on .SCN_DIE_RES_BUSY then s
  else
    let s := s.wr .SCN_DIE_CMD_DIE d
    if !s.running ∨ 36 ≤ d ∨ !ok s then s.scnEnd stSTATE else (act s).scnEnd stOK

/-- OBSERVE. -/
def State.doObserve (s : State) (d : Nat) : State :=
  s.scnCmd d (fun s => s.role d == 1) (fun s => (s.setRole d 2).event .scnObserve d)

/-- OBSERVE (R368). -/
def execObserve (d : Nat) (s : State) : Host.Outcome State Fault Refusal :=
  hostRow (.observe d) (fun s => s.doObserve d) s

/-- RELEASE: the score is zero and the die ACTIVE, as is the partner of a PAIRED die. -/
def State.doRelease (s : State) (d : Nat) : State :=
  s.scnCmd d (fun s => s.role d == 2 || (s.role d == 3 && !s.on .SCN_STAT_LOW)) (fun s =>
    let was := s.role d
    let pr := s.partner d
    let s := s.wr .SCN_DIE_SCORE_SCORE 0 d
    let s := (s.unpair d).setRole d 1
    let s := match pr with
      | some q => (s.unpair q).setRole q 1
      | none => s
    if was = 2 then s.event .scnRelease d else s)

/-- RELEASE (R368). -/
def execRelease (d : Nat) (s : State) : Host.Outcome State Fault Refusal :=
  hostRow (.release d) (fun s => s.doRelease d) s

/-- RETIRE: a spare takes the die's slots. While LOW is set no die leaves PAIRED (R367). -/
def State.doRetire (s : State) (d : Nat) : State :=
  s.scnCmd d (fun s => (s.role d == 1 || s.role d == 2 || (s.role d == 3 && !s.on .SCN_STAT_LOW)) && s.firstSpare.isSome)
    (fun s => s.retireDie d false)

/-- RETIRE (R368). -/
def execRetire (d : Nat) (s : State) : Host.Outcome State Fault Refusal :=
  hostRow (.retire d) (fun s => s.doRetire d) s

/-- PAIR. -/
def State.doPair (s : State) (d : Nat) : State :=
  s.scnCmd d (fun s => s.role d == 1 || s.role d == 2) (fun s => s.pairDie d true)

/-- PAIR (R365, R366, R368). -/
def execPair (d : Nat) (s : State) : Host.Outcome State Fault Refusal :=
  hostRow (.pair d) (fun s => s.doPair d) s

/-- SCAN_NOW: an early scan, unless one is due already; it needs a tenant (R408). -/
def State.doScanNow (s : State) (d : Nat) : State :=
  s.scnCmd d (fun s => s.assigned && scannedRole (s.role d)) (fun s =>
    if (s.scan d).due then s else (s.makeDue d).bump .SCN_EARLY_COUNT)

/-- SCAN_NOW (R356, R368). -/
def execScanNow (d : Nat) (s : State) : Host.Outcome State Fault Refusal :=
  hostRow (.scanNow d) (fun s => s.doScanNow d) s

/-! ### Near-memory adders (R369) -/

/-- May the adders of a complex be scanned now. -/
def State.addersRun (s : State) (k : Nat) : Bool :=
  decide (k < 16) && (s.running || s.power.entering == some 3) && !s.contained && !s.dieHeld (mcDie k) && s.scansAllowed

/-- ADDER_SCAN_DUE (R369): the schedule of R355 with 16 in place of 36; the scan starts. -/
def execAdderScanDue (k : Nat) (s : State) : Host.Outcome State Fault Refusal :=
  settled (
    let x := s.scan (48 + k)
    if !s.addersRun k ∨ x.running ∨ x.startedAt s.epoch ∨ !s.scanAt k 16 s.epoch then s
    else
      let f := s.free
      f.2.setScan (48 + k) { x with due := false, running := true, seed := f.1, start := s.now, checker := k ^^^ 1 })

/-- The adders of a complex pass. -/
def State.adderPass (s : State) (k start : Nat) : State :=
  let x := s.scan (48 + k)
  (s.setScan (48 + k) ({ x with passes := x.passes + 1, starts := (start :: x.starts).take 4 }).prune).wr .SCN_MC_LAST_TIME start k

/-- The adders of a complex fail: the actions of R359 over their window, and MREDUCE moves (R369, class 0x07). -/
def State.adderFail (s : State) (k : Nat) : State :=
  let s := s.setScan (48 + k) { s.scan (48 + k) with passes := 0 }
  let s := ((s.event .scnFail (48 + k)).bump .SCN_FAILS_COUNT).bump .SCN_MC_STAT_FAILS k
  (((s.taintWindow (48 + k)).addersStop k).moveAdders k).raise 0x07 (48 + k)

/-- ADDER_VERDICT (R369): the digests of the scanned adders, of MC(k XOR 1) and, where those differ, of MC(k XOR 2);
where no two agree the arbiter's own scan is due at once, and its start is now. -/
def execAdderVerdict (k dig chk arb : Nat) (s : State) : Host.Outcome State Fault Refusal :=
  settled (
    let x := s.scan (48 + k)
    if !s.addersRun k ∨ !x.running then s
    else
      let s := (s.setScan (48 + k) { x with running := false }).bump .SCN_SCANS_COUNT
      let c := k ^^^ 1
      let a := k ^^^ 2
      if dig = chk then (s.adderPass k x.start).adderPass c x.start
      else
        let s := s.bump .SCN_ARB_COUNT
        if arb = dig then ((s.adderPass k x.start).adderPass a x.start).adderFail c
        else if arb = chk then ((s.adderPass c x.start).adderPass a x.start).adderFail k
        else
          let s := (s.adderFail k).adderFail c
          if (s.scan (48 + a)).running then s
          else s.setScan (48 + a) { s.scan (48 + a) with running := true, start := s.now, checker := a ^^^ 1 })

end Sys2Proof.Machine
end

