-- ==== Sys2Proof/Machine/SliceRows.lean ====
section
/-! DEFINITION. The commands of slices and recomposition (R394 to R399), and the return bundle (R392). -/

namespace Sys2Proof.Machine

/-! ### Recomposition (R396, R397) -/

/-- Pages by which slices exceed their Oasis quotas (R398, step 1). -/
def State.excess (s : State) : Nat :=
  ((List.range 32).map (fun n => s.rd .POOL_USE_OASIS_USE n - s.rd .POOL_QUOTA_OASIS_MAX n)).sum

/-- The staged port slices and slot masks are in force; those before serve the launches of this CCLK cycle (R397). -/
def State.copySlices (s : State) : State :=
  let s := { s with busy := { s.busy with
    rcmpAt := some s.now
    rcmpSlices := (List.range 320).map (fun p => s.rd .POOL_PORT_SLICE_ACTIVE p)
    rcmpMasks := (List.range 32).map (fun n => s.rd .POOL_SLC_SLOTS_ACT_MASK n) } }
  let s := (List.range 320).foldl (fun s p => s.wr .POOL_PORT_SLICE_ACTIVE (s.rd .POOL_PORT_SLICE_STAGED p) p) s
  (List.range 32).foldl (fun s n => s.wr .POOL_SLC_SLOTS_ACT_MASK (s.rd .POOL_SLC_SLOTS_MASK n) n) s

/-- A write of POOL_RCMP_CMD with APPLY: the copies change, and with EVICT the walk of R398 starts (Table 17.2). -/
def State.doApply (s : State) (evict : Bool) : State :=
  if s.on .POOL_RCMP_STAT_BUSY then s
  else if !s.poolCmdOk then (s.wr .POOL_RCMP_STAT_STATUS stSTATE).cmdDone 6
  else
    let s := ((s.copySlices).bump .POOL_RCMP_CNT_COUNT).event .rcmpApplied
    let s := s.wr .POOL_RCMP_POS_POS 0
    if evict then
      let s := ((s.wr .POOL_RCMP_TOT_TOTAL s.excess).wr .POOL_RCMP_PCT_PCT 0).wr .POOL_RCMP_STAT_BUSY 1
      { s with busy := { s.busy with rcmpEvict := true, rcmpPages := [] } }
    else
      (((s.wr .POOL_RCMP_TOT_TOTAL 0).wr .POOL_RCMP_PCT_PCT 10000).wr .POOL_RCMP_STAT_STATUS stOK).cmdDone 6

/-- APPLY (R397). -/
def execApply (s : State) : Host.Outcome State Fault Refusal :=
  hostRow .apply (fun s => s.doApply false) s

/-- EVICT (R398): an APPLY with the eviction walk. -/
def execEvict (s : State) : Host.Outcome State Fault Refusal :=
  hostRow .evict (fun s => s.doApply true) s

/-! ### The return bundle (R392) -/

/-- The length of the bundle (Table 16.7). -/
abbrev bundleLen : Nat := 2293888

/-- Lifecycle (R425): 0 MANUFACTURE, 1 SECURE, 2 RETURNED. -/
def Fuses.lifecycle (f : Fuses) : Nat := if !f.secure then 0 else if f.resecures < f.returns then 2 else 1

/-- The RC counters of one field: byte offset, length and value of each instance. -/
def State.rcOf (s : State) (f : Fld) : List (Nat × Nat × Nat) :=
  if f.info.acc = .rc then
    (List.range (max 1 f.info.n1)).flatMap (fun i => (List.range (max 1 f.info.n2)).map (fun j =>
      (f.info.base + f.info.s1 * i + f.info.s2 * j, (if 32 < f.width then 8 else 4), s.rd f i j)))
  else []

/-- Every RC counter of the device, in ascending offset, 4 bytes each and 8 for a counter of 64 bits, with zeros
after the last (log entry 38). -/
def State.rcSnapshot (s : State) : List Byte :=
  let all := sortBy (·.1) (Fld.all.flatMap s.rcOf)
  slice (all.flatMap (fun e => leBytes e.2.1 e.2.2)) 0 65536

/-- The header of the bundle. -/
def State.bundleHeader (s : State) : List Byte :=
  leBytes 2 1 ++ leBytes 4 (s.rd .GLB_ID_PART_PART) ++ leBytes 2 s.boot.fuses.stepping ++ leBytes 8 s.boot.fuses.serial
    ++ leBytes 1 s.boot.fuses.lifecycle ++ leBytes 7 0 ++ leBytes 8 s.now ++ leBytes 4 bundleLen ++ leBytes 28 0

/-- A write of BUILD: the bundle is being assembled; a BUILD during another begins again. -/
def State.doBuild (s : State) : State :=
  let s := { s with tel := { s.tel with bundle := [] } }
  ((s.wr .EVT_BUNDLE_TOT_TOTAL bundleLen).wr .EVT_BUNDLE_POS_POS 0).wr .EVT_BUNDLE_PCT_PCT 0

/-- BUILD (R392). -/
def execBuild (s : State) : Host.Outcome State Fault Refusal :=
  hostRow .build State.doBuild s

/-- BUNDLE_COMPLETE (R392, Table 16.7): every byte is assembled. -/
def execBundleComplete (s : State) : Host.Outcome State Fault Refusal :=
  settled (
    if s.rd .EVT_BUNDLE_TOT_TOTAL = 0 ∨ s.rd .EVT_BUNDLE_POS_POS = s.rd .EVT_BUNDLE_TOT_TOTAL then s
    else
      let body := s.bundleHeader ++ s.flashRead flRmap 0x20000 ++ s.flashRead flHealth 0x100000
        ++ s.flashRead flEvents 0x100000 ++ s.rcSnapshot
      let s := { s with tel := { s.tel with bundle := body ++ leBytes 64 (Config.sha3 body) } }
      ((s.wr .EVT_BUNDLE_POS_POS bundleLen).wr .EVT_BUNDLE_PCT_PCT 10000).cmdDone 12)

end Sys2Proof.Machine
end

