-- ==== Sys2Proof/Machine/CaravanRows.lean ====
section
/-! DEFINITION. The commands of the Caravan channels (R334 to R347). -/

namespace Sys2Proof.Machine

/-! ### Commands from the host or the command line (R335, R336) -/

/-- A command reaches channel `c`. -/
def State.carAct (s : State) (c : Nat) (act : State → State) : State := if 64 ≤ c then s else act s

/-- CAR_DNEXT (R336). -/
def execCarDnext (c a : Nat) (s : State) : Host.Outcome State Fault Refusal :=
  hostRow (.carDnext c a) (fun s => s.carAct c (fun s => s.carDnext c (a % 2 ^ 48))) s

/-- GO (Table 14.1). -/
def execGo (c : Nat) (s : State) : Host.Outcome State Fault Refusal :=
  hostRow (.go c) (fun s => s.carAct c (fun s => s.carGo c)) s

/-- PAUSE (Table 14.1). -/
def execPause (c : Nat) (s : State) : Host.Outcome State Fault Refusal :=
  hostRow (.pause c) (fun s => s.carAct c (fun s => s.carPause c)) s

/-- ABORT (Table 14.1). -/
def execAbort (c : Nat) (s : State) : Host.Outcome State Fault Refusal :=
  hostRow (.abort c) (fun s => s.carAct c (fun s => s.carAbort c)) s

/-- SETD: a bound agent's command line gives DADDR to CAR_DNEXT (R335). -/
def execSetd (c a : Nat) (s : State) : Host.Outcome State Fault Refusal :=
  settled (if 64 ≤ c ∨ (s.carAgent c).isNone then s else s.carDnext c (a % 2 ^ 48))

/-! ### A descriptor (R338 to R343) -/

/-- The descriptor of a channel is read; one that is answered other than OK halts the channel, and one that fails a
check is written BAD with REFUSED and halts it (R338). -/
def State.carFetch (s : State) (c : Nat) : State :=
  let a := s.rd .CAR_CUR_ADDR c
  let s := if (s.chan c).err.isSome then s else s.engAskRanges (.chan c) (s.carSrc c) (s.carSub c) 5 [(lineOf a, 1)]
  if !s.carQuiet c then s
  else
    let r := s.carRead c a 64
    let s := r.2.engForget (.chan c)
    let bad := match (s.chan c).err with
      | some e => some e.1
      | none => if r.1.1 ≠ stOK then some r.1.1 else if r.1.2.2.1 then some stPOISON else none
    match bad with
    | some st => s.carHalt c st
    | none =>
      let d := r.1.2.1
      let s := s.setChan c { Chan.init with desc := d, fetched := true }
      let s := ((s.wr .CAR_TOT_TOT (cdLen d) c).wr .CAR_POS_POS 0 c).wr .CAR_OFS_BYTES 0 c
      if !carCheck d then
        let s := (s.carStatus c 2 stREFUSED 0).bump .CAR_DESC_BAD_COUNT c
        let h := s.chan c
        (s.setChan c { h with told := true }).carHalt c stREFUSED
      else s.carAsk c

/-- DESCRIPTOR_FETCH (R338): the read of a running channel's descriptor returns and is checked. -/
def execDescriptorFetch (c : Nat) (s : State) : Host.Outcome State Fault Refusal :=
  settled (
    if 64 ≤ c ∨ s.carState c ≠ carRUN ∨ (s.chan c).fetched ∨ !s.running then s else s.carFetch c)

/-- CHANNEL_ACCESS_TIMEOUT (R341): an access unanswered after TMO_US is cancelled and counts as TIMEOUT. -/
def execChannelAccessTimeout (c : Nat) (s : State) : Host.Outcome State Fault Refusal :=
  settled (if 64 ≤ c then s else s.carTimeout c)

/-- Source units of a descriptor. -/
def Chan.total (h : Chan) : Nat := if cdSw h.desc = 0 then 0 else cdLen h.desc / cdSw h.desc

/-- Is a descriptor in progress: fetched and not ended. -/
def Chan.live (h : Chan) : Bool := h.fetched && !h.ended

/-- DESCRIPTOR_END (R339, R340, R343): the rest of a descriptor's data is moved, as far as it is at hand, and once every access is
answered its status is stored. -/
def execDescriptorEnd (c : Nat) (s : State) : Host.Outcome State Fault Refusal :=
  settled (
    if 64 ≤ c ∨ s.carState c ≠ carRUN ∨ !(s.chan c).live ∨ s.engWaiting (.chan c) ∨ !s.running then s
    else
      let h := s.chan c
      let s := s.carRun c h.total (h.total + 1)
      if s.carQuiet c then (s.engForget (.chan c)).carEndDesc c else s)

/-- A status store that failed halts the channel (R343); else its status is told, and what comes next follows. -/
def State.carCommit (s : State) (c : Nat) (next : State → State) : State :=
  match (s.chan c).err with
  | some e => s.carHalt c e.1
  | none => next (s.carTell c)

/-- DESCRIPTOR_COMMIT (R343): the status store is performed; IRQ goes out, and NEXT is fetched or the list ends. A channel that
pauses or is PAUSED goes on with NEXT after its GO. -/
def execDescriptorCommit (c : Nat) (s : State) : Host.Outcome State Fault Refusal :=
  settled (
    let st := s.carState c
    if 64 ≤ c ∨ !(s.chan c).ended ∨ !s.carQuiet c then s
    else if st = carRUN then s.carCommit c (fun s => s.carNext c)
    else if (st = carPAUSING ∨ st = carPAUSED) ∧ !(s.chan c).told then s.carCommit c id
    else s)

/-- A channel whose drain has ended is PAUSED; an ABORT that waited follows (R345, R346). -/
def State.carPaused (s : State) (c : Nat) : State :=
  let h := s.chan c
  let s := s.engForget (.chan c)
  if h.abortAfter then (s.setChan c { h with abortAfter := false }).setCarState c carABORTING
  else s.setCarState c carPAUSED

/-- DRAIN_END (R345): the drain of a pausing channel ends after `units` source units have been read in all, and it is
PAUSED; a bus error is handled first, with its status store. -/
def execDrainEnd (c units : Nat) (s : State) : Host.Outcome State Fault Refusal :=
  settled (
    if 64 ≤ c ∨ s.carState c ≠ carPAUSING ∨ s.engWaiting (.chan c) then s
    else
      let h := s.chan c
      let s := if h.live then s.carMove c (min units h.total - h.units) else s
      if !s.carQuiet c then s
      else
        let h := s.chan c
        let s := if h.live ∧ h.err.isSome then s.carEndDesc c else s
        if !s.carQuiet c then s
        else if (s.chan c).ended then s.carCommit c (fun s => s.carPaused c)
        else s.carPaused c)

/-- The end of an ABORT (R346): the descriptor is written ABORTED with FLUSHED, the holding register is discarded, and
the channel is IDLE with the descriptor's address in CAR_DNEXT. A descriptor whose status was already stored keeps it, and
CAR_DNEXT is its NEXT (log entry 39). -/
def State.carAborted (s : State) (c : Nat) : State :=
  let h := s.chan c
  let s := s.engForget (.chan c)
  if h.ended then
    let s := (s.carTell c).wr .CAR_DNEXT_ADDR (cdNext h.desc) c
    (s.setChan c Chan.init).setCarState c carIDLE
  else
    let s := s.setChan c { h with hold := [], err := none }
    let done := if h.fetched then s.rd .CAR_OFS_BYTES c else 0
    let s := (s.carStatus c 3 stFLUSHED done).bump .CAR_DESC_ABORT_COUNT c
    let s := (s.carTell c).wr .CAR_DNEXT_ADDR (s.rd .CAR_CUR_ADDR c) c
    (s.setChan c Chan.init).setCarState c carIDLE

/-- ABORT_END (R346): every outstanding access of an aborting channel is answered, `units` destination units being
performed in all. -/
def execAbortEnd (c units : Nat) (s : State) : Host.Outcome State Fault Refusal :=
  settled (
    if 64 ≤ c ∨ s.carState c ≠ carABORTING then s
    else
      let h := s.chan c
      let src := if h.live ∧ !s.engWaiting (.chan c) then
          (units * cdDw h.desc + cdSw h.desc - 1) / cdSw h.desc - h.units
        else 0
      let s := s.carMove c (min src (h.total - h.units))
      if !s.engQuiet (.chan c) then s else s.carAborted c)

end Sys2Proof.Machine
end

