-- ==== Sys2Proof/Machine/RegAccess.lean ====
section
/-! DEFINITION. BAR0 as the host sees it (R11, R471): which register fields lie at an offset, what a read
returns and clears, the byte windows, the ranges a written field must lie in, and what a write sets. What a
command register does besides is with the rows (Sys2Proof/Machine/RegRows.lean). -/

namespace Sys2Proof.Machine

/-! ### Fields at an offset -/

/-- The instances of a field whose register lies at byte offset `o`. -/
def Fld.instances (f : Fld) (o : Nat) : List (Nat × Nat) :=
  let x := f.info
  if o < x.base then []
  else
    let rel := o - x.base
    let i := if x.s1 = 0 then 0 else rel / x.s1
    let r := rel - x.s1 * i
    if x.n1 ≤ i then []
    else if x.s2 = 0 then (if r = 0 then (List.range x.n2).map (fun j => (i, j)) else [])
    else if r % x.s2 = 0 ∧ r / x.s2 < x.n2 then [(i, r / x.s2)] else []

/-- A field's instance in its register. -/
structure Slot where
  f : Fld
  i : Nat
  j : Nat
  deriving DecidableEq, Repr

/-- The lowest bit of an instance in its register. -/
def Slot.lsb (x : Slot) : Nat := x.f.info.lsb + x.f.info.bs * x.j

/-- The field instances of the register at an offset. -/
def slotsAt (o : Nat) : List Slot := Fld.all.flatMap (fun f => (f.instances o).map (fun e => ⟨f, e.1, e.2⟩))

/-- Is the register at an offset one of 64 bits. -/
def wide (o : Nat) : Bool := (slotsAt o).any (fun x => decide (32 ≤ x.f.info.msb))

/-! ### Values the device computes -/

/-- Progress in 0.01 % of a triple (R479). -/
def State.pctOf (s : State) (pos tot : Fld) (i : Nat := 0) : Nat := pct (s.rd pos i) (s.rd tot i)

/-- The weights of Table 19.6. -/
def bootWeight : Nat → Nat
  | 1 => 100 | 2 => 100 | 3 => 1500 | 4 => 200 | 5 => 2000 | 6 => 300 | 7 => 1500 | 8 => 300 | 9 => 2500 | 10 => 1500
  | _ => 0

/-- BOOT_PCT (R443): the weights of the steps that have ended, and the share of the one shown. -/
def State.bootPct (s : State) : Nat :=
  let done := ((List.range 10).map (fun i => if s.power.stepsEnded.contains (i + 1) then bootWeight (i + 1) else 0)).sum
  let tot := s.rd .BOOT_TOT_TOTAL
  let part := if tot = 0 then 0 else bootWeight (s.rd .BOOT_STAT_STEP) * s.rd .BOOT_POS_POS / tot
  min 10000 (done + part)

/-- The value a field's instance shows: most hold it, some are computed from the rest of the state. -/
def State.view (s : State) (f : Fld) (i j : Nat) : Nat :=
  match f with
  | .GLB_ID_STEP_LETTER => s.boot.fuses.stepping / 256
  | .GLB_ID_STEP_DIGIT => s.boot.fuses.stepping % 256
  | .GLB_SERIAL_SERIAL => s.boot.fuses.serial
  | .GLB_STAT_READY => s.rd .BOOT_STAT_READY
  | .GLB_STAT_CONTAIN => s.rd .EVT_CONTAIN_ACTIVE
  | .GLB_STAT_HOLDOVER => s.rd .PWR_EP_STAT_HOLDOVER
  | .GLB_STAT_DEGRADED => b2n (decide (s.rd .EVT_DEGRADED_STATES ≠ 0))
  | .GLB_STAT_PRST => b2n ((List.range 4).any (fun n => decide (s.rd .GLB_PRST_HELD_HELD n ≠ 0)))
  | .GLB_STAT_PEND => s.rd .SEC_FW_STAT_PEND
  | .GLB_STAT_TENANT => s.rd .SEC_TEN_STAT_STATE
  | .GLB_STAT_POWER => s.rd .PWR_STAT_STATE
  | .GLB_PRST_PCT_PCT => s.pctOf .GLB_PRST_POS_POS .GLB_PRST_TOT_TOTAL
  | .BOOT_PCT_PCT => s.bootPct
  | .BOOT_CAL_PCT_PCT => s.pctOf .BOOT_CAL_POS_POS .BOOT_CAL_TOT_TOTAL
  | .PWR_TIME_TIME => s.now
  | .SEC_LIFE_RETURNS => s.boot.fuses.returns
  | .SEC_LIFE_LIFECYCLE => s.boot.fuses.lifecycle
  | .SEC_TD_PCT_PCT => s.pctOf .SEC_TD_POS_POS .SEC_TD_TOT_TOTAL
  | .SEC_FW_PCT_PCT => s.pctOf .SEC_FW_POS_POS .SEC_FW_TOT_TOTAL
  | .SEC_FW_MINSVN_MIN => s.boot.fuses.minSvn
  | .SEC_FW_STAT_RUN_SVN => s.boot.image.svn
  | .POOL_SCRUB_PCT_PCT => s.pctOf .POOL_SCRUB_POS_POS .POOL_SCRUB_TOT_TOTAL
  | .CAR_PCT_PCT => s.pctOf .CAR_POS_POS .CAR_TOT_TOT i
  | .EVT_RCV_STAT_BUSY => b2n s.rcv.running.isSome
  | .EVT_RCV_STAT_SEV => ((s.rcv.running.map (·.sev)).getD 0)
  | .EVT_RCV_STAT_QCNT => s.rcv.queue.length
  | .EVT_RCV_STAT_STEP => ((s.rcv.running.map (·.step)).getD 0)
  | .EVT_RCV_CUR_CLASS => ((s.rcv.running.map (·.cls)).getD 0)
  | .EVT_RCV_CUR_UNIT => ((s.rcv.running.map (·.unit)).getD 0)
  | .EVT_RCV_Q_CLASS => ((s.rcv.queue[i]?.map (·.cls)).getD 0)
  | .EVT_RCV_Q_SEV => ((s.rcv.queue[i]?.map (·.sev)).getD 0)
  | .EVT_RCV_Q_STEP => ((s.rcv.queue[i]?.map (·.step)).getD 0)
  | .EVT_RCV_Q_UNIT => ((s.rcv.queue[i]?.map (·.unit)).getD 0)
  | .EVT_RCV_Q_COUNT => ((s.rcv.queue[i]?.map (·.count)).getD 0)
  | .EVT_RCV_Q_TIME => ((s.rcv.queue[i]?.map (·.time)).getD 0)
  | .TIER_FREE_FRAMES_COUNT => s.freeCount i 0 + s.freeCount i 1
  | .DIR_CG_STAT_MEMBERS => ((List.range 64).filter (fun m => s.on .DIR_CG_MEMBER_VALID i m)).length
  | .DIR_ENTRIES_USED => (s.coh.dir.filter (fun e => s.homeOfPage (e.1 / 1024) == i)).length
  | .SCN_DIE_NEXT_EPOCH => s.dieScanNext i
  | .POOL_SLC_STAT_OVER => b2n (decide (s.rd .POOL_QUOTA_OASIS_MAX i < s.rd .POOL_USE_OASIS_USE i))
  | .POOL_SLC_STAT_NPORTS =>
      ((List.range 320).filter (fun p => s.rd .PRT_CFG_MODE p != 0 && s.rd .POOL_PORT_SLICE_ACTIVE p == i)).length
  | .POOL_SLC_STAT_NSLOTS => ((List.range 32).filter (fun n => (s.rd .POOL_SLC_SLOTS_ACT_MASK i).testBit n)).length
  | .TEL_SNAP_VALUE => tget 0 (if s.rd .TEL_STAT_BANK = 0 then s.tel.snapA else s.tel.snapB) i
  | f => s.rd f i j

/-- The value of the register at an offset; write-only fields read zero (R11). -/
def State.regVal (s : State) (o : Nat) : Nat :=
  ((slotsAt o).map (fun x =>
    if x.f.info.acc = .wo then 0 else (s.view x.f x.i x.j % 2 ^ x.f.width) * 2 ^ x.lsb)).sum

/-- Clear the RC counters of the register at an offset (R11, R485). -/
def State.clearRc (s : State) (o : Nat) : State :=
  (slotsAt o).foldl (fun s x => if x.f.info.acc = .rc then s.wr x.f 0 x.i x.j else s) s

/-! ### Byte windows -/

/-- Does an offset lie in a region. -/
def within (o base n : Nat) : Bool := decide (base ≤ o ∧ o < base + n)

/-- The bytes of a window that holds data of a byte string. -/
def winBytes (bs : List Byte) (o n : Nat) : Option (List Byte) := some (slice bs o n)

/-- What `n` bytes at an offset read in the byte windows: the report, the bundle, the event ring, the selected
repair-map record and journal entry, the failure log, the holding registers, the MSI-X table and its pending bits;
the two chunk windows are write-only. -/
def State.window (s : State) (o n : Nat) : Option (List Byte) :=
  if within o 0x8000 0x1000 then some ((List.range n).map (fun i => s.msixByte (o - 0x8000 + i)))
  else if within o 0x9000 0x20 then
    some ((List.range n).map (fun i =>
      BitVec.ofNat 8 (((List.range 8).map (fun b => if tget false s.host.pba ((o - 0x9000 + i) * 8 + b) then 2 ^ b else 0)).sum)))
  else if within o 0x18000 0x8000 ∨ within o 0x38000 0x8000 then some (List.replicate n 0)
  else if within o 0x32000 0x1E34 then winBytes s.boot.report.buf (o - 0x32000) n
  else if within o 0x58220 32 then winBytes (s.rmapAt (s.rd .EVT_RMAP_SEL_INDEX)) (o - 0x58220) n
  else if within o 0x90000 0x40000 then winBytes (tget [] s.tel.evRing ((o - 0x90000) / 64)) ((o - 0x90000) % 64) n
  else if within o 0x150000 bundleLen then winBytes s.tel.bundle (o - 0x150000) n
  else if within o 0x9003040 64 then
    let d := s.rd .SCN_JSEL_DIE
    if d < 36 ∨ 48 ≤ d then winBytes (s.journalAt d (s.rd .SCN_JSEL_INDEX)) (o - 0x9003040) n
    else some (List.replicate n 0)
  else if within o 0x9004000 0x1000 then winBytes (tget [] s.scn.flog ((o - 0x9004000) / 64)) ((o - 0x9004000) % 64) n
  else if within o 0x8000000 0x4000 && decide (0x80 ≤ o % 0x100) then
    winBytes ((s.chan ((o - 0x8000000) / 0x100)).hold.map (·.1)) (o % 0x100 - 0x80) n
  else none

/-! ### Reads (R471) -/

/-- The high half latched for the register at `o`. -/
def State.latched (s : State) (o : Nat) : Option Nat := tfind s.host.hiLatch o

/-- A 4-byte read: its value, and what it clears and latches. A read of a window, of a 32-bit register, or of a
half of a 64-bit register. -/
def State.read4 (s : State) (o : Nat) : Nat × State :=
  match s.window o 4 with
  | some bs => (leVal bs, s)
  | none =>
    if wide o then
      let v := s.regVal o
      let s := { s with host := { s.host with hiLatch := tins s.host.hiLatch o (v / 2 ^ 32) } }
      (v % 2 ^ 32, s.clearRc o)
    else if 4 ≤ o ∧ wide (o - 4) then
      match s.latched (o - 4) with
      | some v => (v, { s with host := { s.host with hiLatch := tdel s.host.hiLatch (o - 4) } })
      | none => (s.regVal (o - 4) / 2 ^ 32, s)
    else (s.regVal o, s.clearRc o)

/-- An 8-byte read: a 64-bit register at once, any other as two reads, the lower half first. -/
def State.read8 (s : State) (o : Nat) : Nat × State :=
  if (s.window o 8).isNone && wide o then (s.regVal o, s.clearRc o)
  else
    let a := s.read4 o
    let b := a.2.read4 (o + 4)
    (a.1 + 2 ^ 32 * b.1, b.2)

/-- What the FEC of a running port has counted in the register at an offset since it was last counted: no row reports single
codewords and symbols, so a free value each (Table 6.4; DESIGN CHOICE, log entry 79). -/
def State.fecSense (s : State) (o : Nat) : State :=
  (slotsAt o).foldl (fun s x =>
    if [Fld.PRT_FEC_CORR_COUNT, .PRT_FEC_UNCORR_COUNT, .PRT_LANE_SYM_COUNT].contains x.f ∧ s.lstate x.i = 2 then
      s.bumpFree x.f x.i x.j
    else s) s

/-- A read of `size` bytes, 4 or 8. -/
def State.readReg (s : State) (o size : Nat) : Nat × State :=
  if size = 8 then ((s.fecSense o).fecSense (o + 4)).read8 o else (s.fecSense o).read4 o

/-! ### Which blocks answer (R444) -/

/-- Does the host port answer BAR0: not in reset, in OFF or in DSLEEP, and from the end of step 4 (R444, R449);
in recovery boot the boot ROM serves it (R440). -/
def State.hostServes (s : State) : Bool :=
  !s.power.inReset && !s.power.offState && s.rd .PWR_STAT_STATE != 3
    && (s.power.stepsEnded.contains 4 || s.on .BOOT_STAT_RECOVERY)

/-- Is the block of an offset served: GLB, BOOT, PWR, SEC, TEL and EVT always, every block once step 8 has ended. -/
def State.blockServed (s : State) (o : Nat) : Bool := decide (o < 0x1000000) || s.power.stepsEnded.contains 8

/-- Is an access one that BAR0 accepts: naturally aligned, of 4 or 8 bytes, inside its 256 MiB (R471). -/
def accessOk (o size : Nat) : Bool := (size == 4 || size == 8) && o % size == 0 && decide (o + size ≤ 0x10000000)

/-! ### Ranges of writable fields (R10) -/

/-- The fewest credits the device may advertise for a pool of a port (Table 2.3). -/
def minLoc (mode pool : Nat) : Nat :=
  if mode = 1 then (if pool = 2 then 1 else if pool = 6 then 513 else if [0, 1, 3, 4, 8].contains pool then 5 else 0)
  else if mode = 2 then (if [10, 11, 13].contains pool then 5 else 0)
  else 0

/-- Does a value lie in the range its chapter states for the field, no reserved encoding. -/
def State.fieldOk (s : State) (f : Fld) (i j v : Nat) : Bool :=
  let btw (lo hi : Nat) : Bool := decide (lo ≤ v ∧ v ≤ hi)
  match f with
  | .PRT_PFTL_CTL_TMO_US => btw 4 256
  | .PRT_PFTL_CTL_TRAY_TMO_US => btw 2 128
  | .PRT_CRED_LOC_ADV => btw (minLoc (s.rd .PRT_CFG_MODE i) j) 2047
  | .SWC_EGR_CAP_CAP => btw 4096 524288
  | .SWC_FWD_MODE => btw 0 2
  | .POOL_EXT_ARG2_PLACE => btw 0 2
  | .SCN_JSEL_DIE => btw 0 35 || btw 48 63
  | .MIRR_CTL_LOG2SZ => btw 16 25
  | .MIRR_RULE_CTL_DIR => btw 1 3
  | .PRT_FLAP_CFG_LIMIT => btw 1 15
  | .PRT_FLAP_CFG_WIN_LOG2 => btw 10 30
  | .PRT_UPL_PFC_WD_WD => btw 1 65535
  | .POOL_SCRUB_CFG_PERIOD_LOG2 => btw 26 36
  | .TIER_CTL_MIG_MAX => btw 1 4
  | .TIER_CTL_DECAY_LOG2 => btw 6 20
  | .TIER_PROMO_THR => btw 1 255
  | .TIER_TRAY_QD_QD => btw 16 2048
  | .DIR_CTL_SNP_TMO_US => btw 2 128
  | .RGF_CTL_DEF_TMO => btw 1 65535
  | .RGF_CTL_ACC_MAX => v == 0 || btw 16 127
  | .RGF_CTL_SPLIT_MIN_LOG2 => btw 0 8
  | .CAR_CFG_TMO_US => btw 4 1023
  | .SCN_INT_NORM => btw 200 2000
  | .SCN_INT_OBS => btw 10 50
  | .SCN_THR1_OBS_MIN => btw 1 65535
  | .SCN_DECAY_LOG2 => btw 20 32
  | .SCN_RET_WIN_EPOCHS => btw 25920000000 (2 ^ 48)
  | .GLB_HOST_CTL_TMO_US => btw 4 256
  | .GLB_IRQ_CFG_EV_SEV => btw 0 4
  | .TEL_CTL_PERIOD_LOG2 => btw 0 20
  | _ => true

/-! ### Writes (R11) -/

/-- The bits of an instance that a masked write gives: its present bits where the mask is 0. -/
def Slot.merge (x : Slot) (old v m : Nat) : Nat :=
  let w := x.f.width
  let vm := bits m x.lsb w
  (old ^^^ (old &&& vm)) ||| (bits v x.lsb w &&& vm)

/-- What a masked write leaves in the fields of a register, as a list of RW instances and values. -/
def State.newVals (s : State) (o v m : Nat) : List (Slot × Nat) :=
  (slotsAt o).filterMap (fun x =>
    if x.f.info.acc = .rw ∧ bits m x.lsb x.f.width ≠ 0 then some (x, x.merge (s.rd x.f x.i x.j) v m) else none)

/-- The value a write would leave in a field of its register. -/
def newOf (l : List (Slot × Nat)) (f : Fld) : Nat := ((l.find? (fun e => e.1.f == f)).map (·.2)).getD 0

/-- Rules over several fields of one register; a write that breaks one is ignored whole. -/
def wholeOk (o : Nat) (l : List (Slot × Nat)) : Bool :=
  if o = 0x4000010 then
    let lo := newOf l .POOL_LEASE_CFG_MIN_LOG2
    let d := newOf l .POOL_LEASE_CFG_DEF_LOG2
    let hi := newOf l .POOL_LEASE_CFG_MAX_LOG2
    decide (10 ≤ lo ∧ lo ≤ d ∧ d ≤ hi ∧ hi ≤ 30)
  else if o = 0x20204 then
    let t1 := newOf l .PWR_THERM_CFG_T1
    let t2 := newOf l .PWR_THERM_CFG_T2
    decide (60 ≤ t1 ∧ t1 ≤ 104 ∧ t1 < t2 ∧ t2 ≤ 110)
  else if 0x1000000 ≤ o ∧ o < 0x1140000 ∧ o % 0x1000 = 0x10 then
    let b := newOf l .PRT_FLAP_CFG_BASE_LOG2
    let h := newOf l .PRT_FLAP_CFG_MAX_LOG2
    decide (b ≤ 15 ∧ b ≤ h ∧ h ≤ 24)
  else true

/-- May a field be written now: MIRR_BASE only while EN = 0 (R128), a channel's CAR_CFG only in IDLE, a group's members only while OFF or FAULTED, and
CAR_DNEXT through its own command. -/
def State.writableNow (s : State) (x : Slot) : Bool :=
  match x.f with
  | .CAR_CFG_AGV | .CAR_CFG_TMO_US | .CAR_CFG_AGENT => s.rd .CAR_STAT_STATE x.i == 0
  | .MIRR_BASE_BASE => !s.on .MIRR_CTL_EN
  | .CAR_DNEXT_ADDR => false
  | .DIR_CG_MEMBER_VALID | .DIR_CG_MEMBER_ID => s.rd .DIR_CG_STAT_STATE x.i != 1
  | .TEL_SEL_VALID | .TEL_SEL_OFFSET => false
  | _ => true

/-- The low bits a field keeps at zero: CAR_CMDADDR names a line. -/
def fieldMask (f : Fld) (v : Nat) : Nat :=
  match f with
  | .CAR_CMDADDR_ADDR => v / 64 * 64
  | _ => v

/-- A masked write of a register's RW and W1C fields. A W1C bit that an event of the same CCLK cycle sets stays 1 (R13): one
that came before the write in the queue is not cleared, one that comes behind it sets the bit again (log entry 82). -/
def State.putFields (s : State) (o v m : Nat) : State :=
  let l := s.newVals o v m
  let s :=
    if wholeOk o l then
      l.foldl (fun s e =>
        if s.fieldOk e.1.f e.1.i e.1.j e.2 && s.writableNow e.1 then s.wr e.1.f (fieldMask e.1.f e.2) e.1.i e.1.j else s) s
    else s
  (slotsAt o).foldl (fun s x =>
    if x.f.info.acc = .w1c then
      let old := s.rd x.f x.i x.j
      let clear := old &&& bits (v &&& m) x.lsb x.f.width
      s.wr x.f (old ^^^ (clear ^^^ (clear &&& s.freshBits x.f x.i x.j))) x.i x.j
    else s) s

/-- A write of bytes to the byte windows: the chunk windows and the MSI-X table. Unmasking a vector whose pending
bit is set sends its message (R480). -/
def State.putWindow (s : State) (o : Nat) (bs : List Byte) : State :=
  let put (c : List Host.Cell) (base : Nat) : List Host.Cell :=
    bs.zipIdx.foldl (fun c (b, i) => tset 0xFF c (o - base + i) b) c
  if within o 0x18000 0x8000 then { s with boot := { s.boot with calWin := put s.boot.calWin 0x18000 } }
  else if within o 0x38000 0x8000 then { s with boot := { s.boot with fwWin := put s.boot.fwWin 0x38000 } }
  else if within o 0x8000 0x1000 then
    let c := bs.zipIdx.foldl (fun c (b, i) =>
      let a := o - 0x8000 + i
      tset (msixReset a) c a (if a % 16 < 12 then b else if a % 16 = 12 then b &&& 1 else 0)) s.host.msix
    let s := { s with host := { s.host with msix := c } }
    let v := (o - 0x8000) / 16
    if tget false s.host.pba v && !s.masked v then
      { s with host := { s.host with pba := tset false s.host.pba v false } }.emit (.msix v)
    else s
  else s

end Sys2Proof.Machine
end

