-- ==== Sys2Proof/Machine/Image.lean ====
section
/-! DEFINITION. The Fiemo image (R429 to R440): commit records, the slot image and its checks, the configuration it
gives, the digests the report carries, and the calibration set (R446). -/

namespace Sys2Proof.Machine

/-! ### Commit records (R438) -/

/-- Where a slot begins in the flash: 0 slot A, 1 slot B. -/
def slotBase (b : Nat) : Nat := if b = 0 then flSlotA else flSlotB

/-- The bytes of a slot. -/
abbrev slotSize : Nat := 62914560

/-- The commit record of a slot. -/
def State.commitRec (s : State) (b : Nat) : List Byte := s.flashRead (4096 * b) 128

/-- ASCII "FCMT". -/
def magicFCMT : List Byte := [0x46, 0x43, 0x4D, 0x54]
/-- ASCII "FIEM". -/
def magicFIEM : List Byte := [0x46, 0x49, 0x45, 0x4D]
/-- ASCII "FWSC". -/
def magicFWSC : List Byte := [0x46, 0x57, 0x53, 0x43]
/-- ASCII "FCAL". -/
def magicFCAL : List Byte := [0x46, 0x43, 0x41, 0x4C]
/-- The context string "PL9200-FW-1". -/
def ctxFw : List Byte := [0x50, 0x4C, 0x39, 0x32, 0x30, 0x30, 0x2D, 0x46, 0x57, 0x2D, 0x31]
/-- The context string "PL9200-RPT-1". -/
def ctxRpt : List Byte := [0x50, 0x4C, 0x39, 0x32, 0x30, 0x30, 0x2D, 0x52, 0x50, 0x54, 0x2D, 0x31]

/-- Does a slot hold a committed commit record (R430, R438). -/
def State.committed (s : State) (b : Nat) : Bool :=
  leAt (s.commitRec b) 127 1 == 1 && slice (s.commitRec b) 0 4 == magicFCMT

/-- SEQ and LEN of a slot's commit record. -/
def State.slotSeq (s : State) (b : Nat) : Nat := leAt (s.commitRec b) 4 4
def State.slotLen (s : State) (b : Nat) : Nat := leAt (s.commitRec b) 8 4

/-- `n` bytes of a slot from an offset. -/
def State.img (s : State) (b o n : Nat) : List Byte := s.flashRead (slotBase b + o) n

/-- Are bytes all zero. -/
def zeros (bs : List Byte) : Bool := bs.all (· == 0)

/-! ### The section directory (R432, R433) -/

/-- A section: TYPE, OFFSET and LENGTH. -/
structure Sect where
  type : Nat
  off : Nat
  len : Nat
  deriving DecidableEq, Repr

/-- The directory's entries, as bytes. -/
def State.dirBytes (s : State) (b : Nat) : List (List Byte) :=
  (List.range (leAt (s.img b 0 128) 6 2)).map (fun i => s.img b (128 + 16 * i) 16)

/-- The sections in directory order. -/
def State.sects (s : State) (b : Nat) : List Sect :=
  (s.dirBytes b).map (fun e => ⟨leAt e 0 2, leAt e 4 4, leAt e 8 4⟩)

/-- The section of a type. -/
def State.sect (s : State) (b t : Nat) : Option Sect := (s.sects b).find? (fun x => x.type == t)

/-- The bytes of a section, none where it is absent. -/
def State.sectBytes (s : State) (b t : Nat) : List Byte :=
  match s.sect b t with
  | some x => s.img b x.off x.len
  | none => []

/-- Do two sections overlap. -/
def Sect.overlaps (x y : Sect) : Bool := decide (x.off < y.off + y.len ∧ y.off < x.off + x.len)

/-- The whole records of `n` bytes in a section. -/
def records (n : Nat) (bs : List Byte) : List (List Byte) := (List.range (bs.length / n)).map (fun i => slice bs (n * i) n)

/-- Check 0x3: the header and the directory (R432). -/
def State.checkHeader (s : State) (b : Nat) : Bool :=
  let h := s.img b 0 128
  let len := leAt h 8 4
  let es := s.sects b
  slice h 0 4 == magicFIEM && leAt h 4 2 == 1 && decide (2 ≤ leAt h 6 2 ∧ leAt h 6 2 ≤ 6)
    && decide (len ≤ slotSize) && len == s.slotLen b
    && decide (25000 ≤ leAt h 20 4 ∧ leAt h 20 4 ≤ 400000) && zeros (slice h 96 32)
    && (s.dirBytes b).all (fun e => zeros (slice e 2 2) && zeros (slice e 12 4))
    && es.all (fun x => x.off % 64 == 0 && decide (x.off + x.len ≤ len))
    && decide ((es.map (·.type)).Nodup) && decide (es.Pairwise (fun x y => x.overlaps y = false))
    && (s.sect b 1).isSome && (s.sect b 2).isSome

/-! ### The firmware section (R434) -/

/-- Check 0x4: the header of the firmware section, the public key's digest and the signature. -/
def State.checkFw (s : State) (b : Nat) : Bool :=
  let f := s.sectBytes b 1
  let c := leAt f 12 4
  let pk := slice f (64 + c) 2592
  let sig := slice f (64 + c + 2592) 4627
  slice f 0 4 == magicFWSC && zeros (slice f 16 48) && decide (64 + c + 2592 + 4627 ≤ f.length)
    && Config.sha3 pk == Config.keyDigest && Config.sigOk (pk ++ sig) (ctxFw ++ f.take (64 + c))

/-! ### The port map (R434, R147) -/

/-- An entry of the port map. -/
def pmapEntry (e : List Byte) : PMap :=
  { port := leAt e 0 2, die := leAt e 2 1, first := leAt e 3 1, width := leAt e 4 1, mode := leAt e 5 1,
    dyn := (leAt e 6 1).testBit 0, repair := (leAt e 6 1).testBit 1, extWired := (leAt e 6 1).testBit 2,
    pmd := leAt e 7 1, agent := leAt e 8 2, sub := leAt e 10 2, slice := leAt e 12 1,
    cred := (List.range 16).map (fun n => leAt e (16 + 2 * n) 2) }

/-- Is one entry well formed (Table 19.4, R147). -/
def PMap.ok (x : PMap) : Bool :=
  decide (x.port < 320 ∧ x.die < 36) && [1, 2, 4, 8].contains x.width && x.first % x.width == 0
    && decide (x.first + x.width ≤ 16) && decide (1 ≤ x.mode ∧ x.mode ≤ 3) && decide (x.pmd ≤ 2)
    && decide (x.agent < 4096) && (!(x.dyn || x.mode == 3) || x.agent == 0)
    && decide (x.sub ≤ 1021) && (x.mode != 2 || x.sub == 0) && decide (x.slice < 32)
    && (!x.extWired || x.repair)
    && x.cred.zipIdx.all (fun e => decide (minLoc x.mode e.2 ≤ e.1 ∧ e.1 ≤ 2047))

/-- Do two entries leave each other alone: other ports, other lanes, other static IDs, one repair port per die. -/
def PMap.apart (x y : PMap) : Bool :=
  x.port != y.port
    && (x.die != y.die || decide (x.first + x.width ≤ y.first ∨ y.first + y.width ≤ x.first))
    && (x.dyn || y.dyn || x.mode == 3 || y.mode == 3 || x.agent != y.agent)
    && (x.die != y.die || !(x.repair && y.repair))

/-- The entries of the port map. -/
def State.pmapList (s : State) (b : Nat) : List PMap := (records 64 (s.sectBytes b 2)).map pmapEntry

/-- Does the port map obey R147 and R434. -/
def State.checkPmap (s : State) (b : Nat) : Bool :=
  let bs := s.sectBytes b 2
  let l := s.pmapList b
  bs.length % 64 == 0 && decide (l.length ≤ 320)
    && (records 64 bs).all (fun e => decide (leAt e 6 1 < 8) && zeros (slice e 13 3) && zeros (slice e 48 16))
    && l.all PMap.ok && decide (l.Pairwise (fun x y => x.apart y = true))

/-! ### The uplink section (R436) -/

/-- An uplink record. -/
def uplOfBytes (e : List Byte) : Upl :=
  let w (o : Nat) : List Nat := (List.range 8).map (fun n => leAt e (o + 2 * n) 2)
  { port := leAt e 0 2, pfcEn := leAt e 2 1, mac := slice e 4 6, xoff := w 16, xon := w 32, res := w 48 }

/-- NUPL and NSW of the section. -/
def uplCount (bs : List Byte) : Nat := leAt bs 10 2
def swCount (bs : List Byte) : Nat := leAt bs 12 2

/-- The uplink records and the switch-table records, as bytes. -/
def uplRecs (bs : List Byte) : List (List Byte) := (List.range (uplCount bs)).map (fun i => slice bs (16 + 64 * i) 64)
def swRecs (bs : List Byte) : List (List Byte) :=
  (List.range (swCount bs)).map (fun i => slice bs (16 + 64 * uplCount bs + 16 * i) 16)

/-- Does the uplink section obey R436, or its absence; the switch table holds 4,096 records at most (R158). -/
def State.checkUpl (s : State) (b : Nat) : Bool :=
  let bs := s.sectBytes b 3
  let up := (s.pmapList b).filter (fun x => x.mode == 3)
  if (s.sect b 3).isNone then up.isEmpty
  else
    let us := (uplRecs bs).map uplOfBytes
    let ds := (swRecs bs).map (fun e => leAt e 0 2)
    bs.length == 16 + 64 * uplCount bs + 16 * swCount bs && decide (swCount bs ≤ 4096) && zeros (slice bs 14 2)
      && (slice bs 2 8).all (fun x => decide (x.toNat < 8))
      && (uplRecs bs).all (fun e => leAt e 3 1 == 0 && zeros (slice e 10 6))
      && us.all (fun u => up.any (fun x => x.port == u.port)
        && (List.range 8).all (fun n => !u.pfcEn.testBit n
          || decide (u.xon.getD n 0 < u.xoff.getD n 0 ∧ u.xoff.getD n 0 < u.res.getD n 0)))
      && decide ((us.map (·.port)).Nodup)
      && (swRecs bs).all (fun e => decide (leAt e 2 2 < 4096) && zeros (slice e 10 6))
      && decide (ds.Nodup) && ds.all (fun d => d != 0 && d != leAt bs 0 2)
      && up.all (fun x => us.any (fun u => u.port == x.port))

/-! ### REGS records (R435) -/

/-- The register a BAR0 offset names, with the bit its 32 bits begin at. -/
def regNamed (o : Nat) : Option (Nat × Nat) :=
  if !(slotsAt o).isEmpty then some (o, 0) else if 4 ≤ o ∧ wide (o - 4) then some (o - 4, 32) else none

/-- Command, argument and selector registers, which no record may name. -/
def regCommand (o : Nat) : Bool :=
  within o 0x4000020 0x14 || within o 0x6000020 0x10 || o == 0x6000010 || within o 0x5000004 8 || within o 0x5003000 0x18
    || o == 0x9000040 || o == 0x9003000

/-- Does a record obey R435. -/
def State.regRecOk (s : State) (o v : Nat) : Bool :=
  match regNamed o with
  | none => false
  | some (r, sh) =>
    let l := s.newVals r (v * 2 ^ sh) (0xFFFFFFFF * 2 ^ sh)
    let mask := ((slotsAt r).map (fun x => if x.f.info.acc = .rw then (2 ^ x.f.width - 1) * 2 ^ x.lsb else 0)).foldl (· ||| ·) 0
    (within o 0x1000000 0x7000000 || within o 0x9000000 0x2000000) && !regCommand r
      && (slotsAt r).any (fun x => x.f.info.acc == .rw)
      && decide ((v * 2 ^ sh) &&& mask = v * 2 ^ sh)
      && l.all (fun e => s.fieldOk e.1.f e.1.i e.1.j e.2 && tmRange e.1.f e.2) && wholeOk r l

/-- The REGS records: offset and value. -/
def State.regList (s : State) (b : Nat) : List (Nat × Nat) :=
  (records 8 (s.sectBytes b 4)).map (fun e => (leAt e 0 4, leAt e 4 4))

/-- Does the REGS section obey R435; a range that depends on a port's mode takes it from the port map. -/
def State.checkRegs (s : State) (b : Nat) : Bool :=
  let m := (s.pmapList b).foldl (fun s x => s.wr .PRT_CFG_MODE x.mode x.port) s
  (s.sectBytes b 4).length % 8 == 0 && decide ((s.regList b).length ≤ 16384)
    && (s.regList b).all (fun e => m.regRecOk e.1 e.2)

/-! ### Objects and the schedule (R433, R437) -/

/-- Do the OBJECTS and SCHEDULE sections obey Table 19.3. -/
def State.checkObjs (s : State) (b : Nat) : Bool :=
  let o := s.sectBytes b 5
  let q := s.sectBytes b 6
  o.length % 16 == 0 && decide (o.length ≤ 16 * 1024)
    && (records 16 o).all (fun e => decide (leAt e 0 2 < 1024) && zeros (slice e 12 4))
    && q.length % 8 == 0 && decide (q.length ≤ 8 * 4096)
    && (records 8 q).all (fun e => decide (leAt e 0 1 < 8 ∧ leAt e 1 1 < 2 ∧ leAt e 2 2 < 1024) && zeros (slice e 4 4))

/-! ### The checks in order (R439, Table 19.5) -/

/-- The bytes CFG_DIGEST covers: every section but FIRMWARE, in directory order. -/
def State.cfgBytes (s : State) (b : Nat) : List Byte :=
  ((s.sects b).filter (fun x => x.type != 1)).flatMap (fun x => s.img b x.off x.len)

/-- The code of the first check of Table 19.5 a slot fails; 0 if it passes every one. -/
def State.slotCode (s : State) (b : Nat) : Nat :=
  let h := s.img b 0 128
  let f := s.sectBytes b 1
  if !s.committed b then 1
  else if Config.sha3 (s.img b 0 (s.slotLen b)) % 2 ^ 512 ≠ leAt (s.commitRec b) 16 64 then 2
  else if !s.checkHeader b then 3
  else if !s.checkFw b then 4
  else if leAt h 12 4 < s.boot.fuses.minSvn ∨ leAt h 12 4 ≠ leAt f 4 4 then 5
  else if leAt h 16 4 ≠ s.rd .GLB_ID_PART_PART ∨ leAt f 8 4 ≠ s.rd .GLB_ID_PART_PART then 6
  else if Config.sha3 (s.cfgBytes b) % 2 ^ 512 ≠ leAt h 32 64 then 7
  else if (s.sects b).all (fun x => decide (1 ≤ x.type ∧ x.type ≤ 6)) && s.checkPmap b && s.checkUpl b && s.checkRegs b
      && s.checkObjs b then 0
  else 8

/-- The slots in the order they are tried: descending SEQ, compared as signed differences modulo 2^32, slot A first
on equal SEQ (R439). -/
def State.slotOrder (s : State) : List Nat :=
  let ahead := (s.slotSeq 1 + 2 ^ 32 - s.slotSeq 0) % 2 ^ 32
  if s.committed 0 && s.committed 1 then (if 0 < ahead ∧ ahead < 2 ^ 31 then [1, 0] else [0, 1])
  else (if s.committed 0 then [0] else []) ++ (if s.committed 1 then [1] else [])

/-- The image a slot holds, as the device keeps it. -/
def State.readImage (s : State) (b : Nat) : Image :=
  let h := s.img b 0 128
  let u := s.sectBytes b 3
  { loaded := false, nomHz := leAt h 20 4, svn := leAt h 12 4, switchNo := leAt u 0 2,
    pcp := if u.isEmpty then List.replicate 8 0 else (slice u 2 8).map (·.toNat), pmap := s.pmapList b,
    upl := (uplRecs u).map uplOfBytes,
    sw := (swRecs u).map (fun e => (leAt e 0 2, leAt e 2 2 % 4096, slice e 4 6)),
    regs := s.regList b,
    objs := (records 16 (s.sectBytes b 5)).map (fun e =>
      (leAt e 0 2, { state := 0, base := leAt e 4 4, pages := leAt e 8 4, layer := leAt e 2 2 })),
    sched := (records 8 (s.sectBytes b 6)).map (fun e => (leAt e 0 1, leAt e 2 2, leAt e 1 1)) }

/-! ### Digests (R418, R476) -/

/-- A digest as 64 bytes. -/
def digest (bs : List Byte) : List Byte := leBytes 64 (Config.sha3 bs)

/-- The digests of a slot's firmware section and of its configuration sections. -/
def State.fwDigest (s : State) (b : Nat) : List Byte := digest (s.sectBytes b 1)
def State.cfgDigest (s : State) (b : Nat) : List Byte := digest (s.cfgBytes b)

/-- The digest of the repair map records held in flash. -/
def State.rmapDigest (s : State) : List Byte := digest (s.rmapSlots.flatMap s.rmapAt)

/-! ### The calibration set (R446) -/

/-- The bytes of a calibration set. -/
abbrev calLen : Nat := 141120

/-- The header of a set for a serial number (Table 19.7). -/
def calHeader (serial : Nat) : List Byte :=
  magicFCAL ++ leBytes 2 1 ++ leBytes 2 0 ++ leBytes 8 serial ++ leBytes 4 calLen ++ leBytes 2 612 ++ leBytes 2 32
    ++ leBytes 2 4 ++ leBytes 38 0

/-- Is a set accepted, apart from its commit line (R446, R447). Bytes 8 to 15 of a lane entry, zeros in Table 19.7, are not among
what R446 looks at, and refuse no set (DESIGN CHOICE, log entry 104). -/
def State.calBodyOk (s : State) (bs : List Byte) : Bool :=
  slice bs 0 64 == calHeader s.boot.fuses.serial && leAt bs 140992 64 == Config.sha3 (bs.take 140992) % 2 ^ 512

/-- The set in the flash, accepted whole or not at all (R446). -/
def State.calHeld (s : State) : Option (List Byte) :=
  if s.flashByte (flCal + 141119) = 1 then
    let bs := s.flashRead flCal calLen
    if s.calBodyOk bs && zeros (slice bs 141056 63) then some bs else none
  else none

/-- The built-in default presets, as the body of a set. -/
def State.calDefault (s : State) : List Byte :=
  calHeader s.boot.fuses.serial ++ (List.range 140928).map (fun i => Config.calPreset (64 + i))

/-- The set in use, or the presets. -/
def State.calInUse (s : State) : List Byte := if s.boot.calSet.isEmpty then s.calDefault else s.boot.calSet

/-- The digest of the set in use, or of the presets under CAL_DEFAULT. -/
def State.calDigest (s : State) : List Byte := digest s.calInUse

end Sys2Proof.Machine
end

