-- ==== Sys2Proof/Machine/TenantRows.lean ====
section
/-! DEFINITION. Tenancy, keys, attestation and firmware update (R406 to R427). -/

namespace Sys2Proof.Machine

/-! ### The tenant state (R408 to R412) -/

/-- The tenant state changes; cause TENANT follows it (Table 18.1, Table 21.7). -/
def State.setTenant (s : State) (st : Nat) : State :=
  if s.rd .SEC_TEN_STAT_STATE = st then s else (s.wr .SEC_TEN_STAT_STATE st).irq 4

/-- A tenant command ends with a status (R409, R478). -/
def State.tenEnd (s : State) (st : Nat) : State := (s.wr .SEC_TEN_RES_STATUS st).cmdDone 1

/-- Indices of the tenant epoch log's committed records, with their EPOCH (R431). -/
def State.epochRecs (s : State) : List (Nat × Nat) :=
  s.boot.flash.filterMap (fun e =>
    if flEpoch ≤ e.1 ∧ e.1 < flEpoch + 16 * 3584 ∧ e.1 % 16 = 15 ∧ e.2 = 1 then
      some ((e.1 - flEpoch) / 16, leVal (s.flashRead (e.1 - 15) 4))
    else none)

/-- The newest committed record: the one of the highest EPOCH. -/
def State.epochNewest (s : State) : Option (Nat × Nat) :=
  s.epochRecs.foldl (fun (b : Option (Nat × Nat)) e =>
    match b with
    | none => some e
    | some c => if c.2 < e.2 then some e else b) none

/-- ASSIGN writes the next free record of the log (R431). -/
def State.writeEpoch (s : State) (v : Nat) : State :=
  let i := match s.epochNewest with | some e => (e.1 + 1) % 3584 | none => 0
  s.flashRecord flEpoch 16 i (leBytes 4 v ++ leBytes 11 0 ++ leBytes 1 1)

/-- A new lease under R179 for every bound agent, with LOST = 0. -/
def State.leaseAll (s : State) : State :=
  let e := s.epoch + 2 ^ s.rd .POOL_LEASE_CFG_DEF_LOG2
  let f (x : Nat × Agent) : Nat × Agent := (x.1, if x.2.port.isSome then { x.2 with valid := true, lost := false, expiry := e } else x.2)
  { s with agents := s.agents.map f }

/-- Change the key store. -/
def State.setKeys (s : State) (k : Keys) : State := { s with boot := { s.boot with keys := k } }

/-- ASSIGN (R409, R410): no condition of R409's table holds, and the device is in RUN (Table 24.3, row 1). -/
def State.doAssign (s : State) : State :=
  let e := s.rd .SEC_TEN_EPOCH_EPOCH
  if s.rd .SEC_TEN_STAT_STATE ≠ 0 ∨ s.boot.fuses.lifecycle ≠ 1 ∨ s.contained ∨ e = 0xFFFFFFFF ∨ !s.running then s.tenEnd stSTATE
  else
    let s := s.setKeys { s.boot.keys with cur := s.boot.keys.next, next := none }
    let s := ((s.writeEpoch (e + 1)).wr .SEC_TEN_EPOCH_EPOCH (e + 1)).leaseAll
    ((s.setTenant 1).event .tenantAssign).tenEnd stOK

/-- ASSIGN (R409). -/
def execAssign (s : State) : Host.Outcome State Fault Refusal :=
  hostRow .assign State.doAssign s

/-! ### Teardown, steps 1 and 2 (R413) -/

/-- Host commands that run and are not allowed by Table 18.1 end with STATE. -/
def State.endCommands (s : State) : State :=
  let s := if s.on .POOL_EXT_RES_BUSY then s.extEnd stSTATE else s
  let s := if s.on .DIR_CG_RES_BUSY then
      ({ s with busy := { s.busy with cgOp := 0 } }).cgEnd stSTATE else s
  let s := if s.on .DIR_PUB_RES_BUSY then s.pubCmdEnd stSTATE else s
  let s := if s.on .TIER_OBJ_RES_BUSY then
      ({ s with busy := { s.busy with objOp := 0, runQ := [], objStop := false } }.wr .TIER_SCHED_STAT_RUNNING 0).objEnd stSTATE
    else s
  if s.on .POOL_RCMP_STAT_BUSY then ({ s with busy := { s.busy with rcmpPages := [] } }).walkEnd stSTATE else s

/-- Every OPEN slot, by its key. -/
def State.openSlots (s : State) : List Nat := (s.rgf.slots.filter (fun e => e.2.isOpen)).map (·.1)

/-- TEARDOWN (R413): steps 1 and 2 of Table 18.2 at once. -/
def State.doTeardown (s : State) : State :=
  let st := s.rd .SEC_TEN_STAT_STATE
  if st = 2 then s.tenEnd stOK
  else if st ≠ 1 ∨ !s.running then s.tenEnd stSTATE
  else
    let s := (((s.wr .SEC_TEN_RES_STATUS stOK).wr .SEC_TEN_STAT_BUSY 1).wr .SEC_TEN_STAT_STEP 3).setTenant 2
    let s := s.event .tenantTeardown
    let s := s.openSlots.foldl (fun s k => s.abortOp k) s
    (s.endCommands.mirrExtentGone).carAbortAll (fun _ => true)

/-- TEARDOWN (R413). -/
def execTeardown (s : State) : Host.Outcome State Fault Refusal :=
  hostRow .teardown State.doTeardown s

/-! ### Steps 3 and 4 -/

/-- The requests of ports not yet answered, as port and message. -/
def State.openReqs (s : State) : List (Nat × Msg) :=
  s.ports.flatMap (fun e => (e.2.srcq.outst.filter (fun o => !o.answered)).map (fun o => (e.1, o.msg)))

/-- Snoops not yet answered. -/
def State.openSnoops (s : State) : Nat :=
  ((s.coh.dir.map (fun e => e.2.awaiting.length)).sum) + s.coh.inotes.length
    + (s.coh.engReads.filter (fun e => e.got.isNone)).length

/-- Operation parts, and near-memory operations, that have not ended. -/
def State.openParts (s : State) : Nat :=
  s.rgf.launchq.length + ((s.rgf.dieq.flatMap (fun e => e.2.map (fun x => (x.key, x.ix)))).dedup).length
    + (s.rgf.slots.filter (fun e => e.2.isOpen && !partOpc e.2.opc)).length

/-- Channels with a descriptor not yet written ABORTED. -/
def State.openChans (s : State) : List Nat :=
  (List.range 64).filter (fun c => s.carState c != carIDLE && s.carState c != carHALTED)

/-- Nothing is outstanding (Table 18.2, step 3). -/
def State.drained (s : State) : Bool :=
  s.openReqs.isEmpty && s.openSnoops == 0 && s.openParts == 0 && s.openChans.isEmpty && s.openSlots.isEmpty
    && s.tier.migs.isEmpty && s.home.tacc.isEmpty && s.host.reqs.isEmpty

/-- Step 4: every request, part, snoop, migration and tray access not yet ended is discarded. Requests are answered
FLUSHED and resolved; the answers of tray accesses still come (R414). -/
def State.discardAll (s : State) : State :=
  let rs := s.openReqs
  let own (o : Origin) : Bool := match o with | .chan _ => true | .mirror => true | .coll _ => true | .device => true | _ => false
  let n := rs.length + s.openParts + s.openSnoops + s.home.tacc.length + s.host.reqs.length + (s.heldReqs (fun r => own r.org)).length
  let s := rs.foldl (fun s e => s.flushOpen e.1 e.2) s
  let s := s.host.reqs.foldl (fun s h => s.hostComplete { h with worst := stSTATE, worstAddr := h.addr }) s
  let s := s.openChans.foldl (fun s c => s.carAborted c) s
  let gone := s.sw.ing.filter (·.req)
  let s := gone.foldl (fun s x => s.freeSlots x.port x.pool x.slots) s
  let late (t : TAcc) : TAcc := { t with kind := .late }
  let req (m : Msg) : Bool := decide (mOpc m < opDATA)
  -- a crossing that is discarded keeps its number, and goes to no port (R103)
  let off (c : Cross) : Cross := if req c.msg then { c with point := 400 } else c
  let s := (s.sw.egr.filter (fun x => req x.msg)).foldl (fun s x => s.fromEgress x) s
  let s := s.egrFree (s.sw.xhold.filter (fun c => req c.msg && decide (c.point < 320)))
  let s := { s with
    sw := { s.sw with
      ing := s.sw.ing.filter (fun x => !x.req)
      cross := s.sw.cross.map off
      voq := s.sw.voq.filter (fun c => !req c.msg)
      xhold := s.sw.xhold.map off }
    home := { s.home with waits := [], rdEnts := [], atGrps := [], runs := [], merged := [], tacc := s.home.tacc.map late }
    coh := { s.coh with inotes := [], engReads := [], hacks := [], awaits := [], fwds := [] }
    tier := { s.tier with migs := [], retry := [] }
    rgf := { s.rgf with dieq := [] } }
  let s := (List.range 36).foldl (fun s d => s.setDieq d []) (s.setLaunchq [])
  s.bump .SEC_TD_FLUSHED_COUNT 0 0 n

/-! ### Steps 5 and 6 (R411, R415) -/

/-- Draw the next key. -/
def State.drawKey (s : State) : State :=
  let r := s.free
  r.2.setKeys { r.2.boot.keys with next := some r.1 }

/-- The pages a scrub writes: the Oasis frames of stacks in service, and every page of every bound tray (R415). -/
def State.scrubPages (s : State) : Nat :=
  2 ^ 20 * s.stacksIn + ((List.range 24).map (fun t => s.trayCapacity t / 2 ^ 30 * 16384)).sum

/-- What an agent ID keeps when the control-window words are cleared: its serial and its port. -/
def Agent.cleared (a : Agent) : Agent := { Agent.init with serial := a.serial, port := a.port }

/-- Table 18.3: the on-die state takes its reset values. Groups that were not OFF count one generation more. -/
def State.clearOnDie (s : State) : State :=
  let s := (List.range 16).foldl (fun s g =>
    if s.rd .DIR_CG_STAT_STATE g = 0 then s
    else ((((s.wr .DIR_CG_STAT_STATE 0 g).wr .DIR_CG_STAT_WALKED 0 g).wr .DIR_CG_STAT_CAUSE 0 g).wr .DIR_CG_STAT_PCT 0 g).advance
      .DIR_CG_GEN_GEN g) s
  let s := (List.range 64).foldl (fun s c =>
    let s := s.setChan c { s.chan c with hold := [] }
    (s.wr .CAR_DNEXT_ADDR 0 c).wr .CAR_CMDADDR_ADDR 0 c) s
  let s := (List.range 64).foldl (fun s i =>
    (((s.wr .TIER_LATE_LOG_PAGE 0 i).wr .TIER_LATE_LOG_CAUSE 0 i).wr .TIER_LATE_LOG_LAYER 0 i).wr .TIER_LATE_LOG_TIME 0 i) s
  let s := ((s.wr .TIER_LATE_LOG_IDX_NEXT 0).wr .MIRR_WPTR_INDEX 0).wr .MIRR_RPTR_INDEX 0
  let s := (List.range 32).foldl (fun s n => (s.wr .POOL_USE_OASIS_USE 0 n).wr .POOL_USE_ERG_USE 0 n) s
  let s := (List.range 36).foldl (fun s d => s.setDieq d []) (s.setLaunchq [])
  let s := s.agents.foldl (fun s e => (e.2.held ++ e.2.writing).foldl (fun s m => s.rxDrain m) s) s
  let ag (e : Nat × Agent) : Nat × Agent := (e.1, e.2.cleared)
  let sc (e : Nat × Scan) : Nat × Scan := (e.1, { e.2 with journal := [] })
  let s := { s with
    agents := s.agents.map ag
    sw := { s.sw with lot := [], mcast := [], mirq := [] }
    home := { s.home with wbuf := [], owed := [], waits := [], rdEnts := [], atGrps := [], runs := [], merged := [] }
    pool := { s.pool with extents := [] }
    tier := { s.tier with pages := [], retry := [], heat := [], migs := [], objs := [], shadow := [] }
    coh := { s.coh with cgs := [], dir := [], regions := [], inotes := [], engReads := [], hacks := [], awaits := [],
                        fwds := [], dirErr := [] }
    rgf := { s.rgf with slots := [], colls := [], closed := [] }
    scn := { s.scn with scans := s.scn.scans.map sc, adders := s.scn.adders.map sc } }
  let s := (List.range 36).foldl (fun s d => s.wr .SCN_DIE_JCNT_ENTRIES 0 d) (s.wr .RGF_COLL_OPEN_COUNT 0)
  s.accRefresh.countNosub

/-- Step 6 begins: the on-die state is reset and the fills start. -/
def State.scrubStart (s : State) : State :=
  let s := (s.wr .SEC_TEN_STAT_STEP 6).clearOnDie
  (s.wr .SEC_TD_POS_POS 0).wr .SEC_TD_TOT_TOTAL s.scrubPages

/-- Step 5: the current key is erased and the next one drawn, and then step 6 begins. With an S4 cause of
containment the teardown stops here (Table 24.3, row 13). -/
def State.eraseKey (s : State) : State :=
  let k := s.boot.keys
  let s := (s.setKeys { cur := none, next := none, dead := k.dead ++ k.cur.toList }).drawKey
  let s := ((s.wr .SEC_TEN_STAT_STEP 5).setTenant 3).event .keyErased
  if s.contained ∧ s.rd .EVT_CONTAIN_CAUSE = 2 then s else s.scrubStart

/-- TEARDOWN_DRAIN_END (R413): nothing is outstanding. -/
def execTeardownDrainEnd (s : State) : Host.Outcome State Fault Refusal :=
  settled (if s.rd .SEC_TEN_STAT_STATE = 2 ∧ s.drained then s.eraseKey else s)

/-- TEARDOWN_LIMIT (R413): 2 ms after step 1 something is still outstanding. -/
def execTeardownLimit (s : State) : Host.Outcome State Fault Refusal :=
  settled (if s.rd .SEC_TEN_STAT_STATE = 2 then (s.wr .SEC_TEN_STAT_STEP 4).discardAll.eraseKey else s)

/-! ### Steps 6 and 7 -/

/-- Every line the scrub writes is zeros under the next key, with PSN 0 and suspect bits clear (R415); bound trays
are written with it. -/
def State.scrubbed (s : State) : State :=
  let pt (e : Nat × Port) : Nat × Port :=
    (e.1, if s.rd .PRT_CFG_MODE e.1 == 2 && s.on .PRT_PFTL_STAT_BOUND e.1 then { e.2 with written := true } else e.2)
  { s with pool := { s.pool with mem := [], psn := [], symErr := [], susp := [] }, ports := s.ports.map pt }

/-- The scrub has ended: POS meets TOT, and SCRUBBING becomes UNASSIGNED (R412). -/
def State.scrubOver (s : State) : State :=
  let s := s.scrubbed.wr .SEC_TD_POS_POS (s.rd .SEC_TD_TOT_TOTAL)
  ((s.wr .SEC_TEN_STAT_STEP 0).wr .SEC_TEN_STAT_BUSY 0).setTenant 0

/-- TEARDOWN_SCRUB_END (R415): every page is written, which no outstanding tray access holds back (R414). -/
def execTeardownScrubEnd (s : State) : Host.Outcome State Fault Refusal :=
  settled (
    if s.rd .SEC_TEN_STAT_STATE = 3 ∧ s.rd .SEC_TEN_STAT_STEP = 6 ∧ s.power.stepsEnded.contains 9 ∧ s.home.tacc.isEmpty
        ∧ !(s.contained ∧ s.rd .EVT_CONTAIN_CAUSE = 2) then
      let s := (List.range 8).foldl (fun s n => s.wr .SEC_TEN_ID_ID 0 n) s
      (s.scrubOver.event .tenantClean).cmdDone 1
    else s)

/-! ### The attestation report (R417 to R420) -/

/-- STATE of the report (R419). -/
def State.rptState (s : State) : Nat :=
  if (List.range 4).any (fun n => decide (s.rd .GLB_PRST_HELD_HELD n ≠ 0)) then 2
  else if 2 ≤ s.rd .SEC_TEN_STAT_STATE then 3
  else if s.on .SEC_FW_STAT_PEND then 1 else 0

/-- The slot the device runs from, and the inactive one (R421, R440). -/
def State.runSlot (s : State) : Nat := s.rd .SEC_FW_STAT_RUN_SLOT
def State.idleSlot (s : State) : Nat :=
  if s.on .BOOT_STAT_RECOVERY then (if !s.committed 0 then 0 else if !s.committed 1 then 1 else 0)
  else 1 - s.runSlot

/-- The registers of a 32-byte value, low word first. -/
def State.words8 (s : State) (f : Fld) : List Byte := (List.range 8).flatMap (fun n => leBytes 4 (s.rd f n))

/-- Bytes 0 to 511 of the report (Table 18.5). -/
def State.rptBody (s : State) : List Byte :=
  let rec_ := s.on .BOOT_STAT_RECOVERY
  let pend := s.on .SEC_FW_STAT_PEND
  let ten := s.rd .SEC_TEN_STAT_STATE
  leBytes 2 1 ++ leBytes 2 s.rptState ++ leBytes 1 s.boot.fuses.lifecycle ++ leBytes 1 ten
    ++ leBytes 2 (b2n (s.on .PWR_EP_STAT_HOLDOVER) + 2 * b2n s.contained + 4 * b2n (s.on .BOOT_STAT_CAL_DEFAULT)
        + 8 * b2n (decide (s.rd .EVT_DEGRADED_STATES ≠ 0)))
    ++ leBytes 4 (s.rd .GLB_ID_PART_PART) ++ leBytes 2 s.boot.fuses.stepping ++ leBytes 1 s.runSlot
    ++ leBytes 1 (if pend then s.idleSlot else 0xFF) ++ leBytes 8 s.boot.fuses.serial ++ leBytes 8 s.now
    ++ leBytes 4 (s.rd .SEC_TEN_EPOCH_EPOCH) ++ leBytes 4 (if rec_ then 0 else s.boot.image.svn)
    ++ leBytes 4 (if pend then leAt (s.img s.idleSlot 0 128) 12 4 else 0) ++ leBytes 4 s.boot.fuses.minSvn
    ++ (if ten = 1 ∨ ten = 2 then s.words8 .SEC_TEN_ID_ID else List.replicate 32 0) ++ s.words8 .SEC_ATT_NONCE_NONCE
    ++ (if rec_ then List.replicate 64 0 else s.fwDigest s.runSlot)
    ++ (if pend then s.fwDigest s.idleSlot else List.replicate 64 0)
    ++ (if rec_ then List.replicate 64 0 else s.cfgDigest s.runSlot) ++ s.calDigest ++ s.rmapDigest
    ++ (List.range 4).flatMap (fun n => leBytes 4 (s.rd .GLB_PRST_HELD_HELD n)) ++ leBytes 4 (s.rd .EVT_DEGRADED_STATES)
    ++ leBytes 4 (s.rd .SEC_TEN_STAT_STEP * 65536 + s.pctOf .SEC_TD_POS_POS .SEC_TD_TOT_TOTAL) ++ leBytes 56 0

/-- The device's public key (R420). -/
def State.devPk (s : State) : List Byte := (List.range 2592).map (fun i => Config.devicePk s.boot.fuses.resecures i)

/-- A write of GEN (R417): the snapshot is taken, or the command ignored while a report is being signed. -/
def State.doGen (s : State) : State :=
  if s.on .SEC_ATT_STAT_BUSY then s.raiseBits .SEC_ATT_STAT_CMD_IGN 1
  else
    let body := s.rptBody ++ s.devPk
    { (s.wr .SEC_ATT_STAT_BUSY 1) with boot := { s.boot with report := { s.boot.report with pending := some body } } }

/-- GEN (R417). -/
def execGen (s : State) : Host.Outcome State Fault Refusal :=
  hostRow .gen State.doGen s

/-- REPORT_SIGNED (R417, R420): the signature is made, and the report placed in SEC_ATT_BUF. -/
def execReportSigned (s : State) : Host.Outcome State Fault Refusal :=
  settled (
    match s.boot.report.pending with
    | none => s
    | some body =>
      let r := s.free
      let s := r.2
      let buf := body ++ slice (Config.sign r.1 ctxRpt body) 0 4627
      let s := { s with boot := { s.boot with report := { pending := none, buf := buf } } }
      (((s.wr .SEC_ATT_STAT_BUSY 0).wr .SEC_ATT_STAT_LEN 7731).bump .SEC_ATT_CNT_COUNT).cmdDone 2)

/-! ### Firmware update (R421 to R424) -/

/-- A firmware command ends; each is done when it is written (log entry 43). -/
def State.fwEnd (s : State) (st : Nat) : State := (s.wr .SEC_FW_STAT_STATUS st).cmdDone 3

/-- Has BEGIN been given. -/
def State.setBegun (s : State) (b : Bool) : State := { s with boot := { s.boot with fwBegun := b } }

/-- Invalidate the inactive slot's commit record: its commit byte is programmed to 0x00 (R430). -/
def State.dropCommit (s : State) : State := (s.flashWrite (4096 * s.idleSlot + 127) [0]).wr .SEC_FW_STAT_PEND 0

/-- BEGIN (Table 18.6). -/
def State.doBegin (s : State) : State :=
  let n := s.rd .SEC_FW_LEN_LEN
  if slotSize < n then s.fwEnd stREFUSED
  else (((s.dropCommit.wr .SEC_FW_TOT_TOTAL n).wr .SEC_FW_POS_POS 0).setBegun true).fwEnd stOK

/-- BEGIN (R421). -/
def execBegin (s : State) : Host.Outcome State Fault Refusal :=
  hostRow .begin State.doBegin s

/-- CHUNK (Table 18.6): the window's bytes are programmed at POS. A length of 0, the reset value of SEC_FW_CHLEN, or above 32,768
lies outside the register's range and is REFUSED (DESIGN CHOICE, log entry 112). -/
def State.doChunk (s : State) : State :=
  let n := s.rd .SEC_FW_CHLEN_LEN
  let pos := s.rd .SEC_FW_POS_POS
  if !s.boot.fwBegun then s.fwEnd stSTATE
  else if n = 0 ∨ 32768 < n ∨ s.rd .SEC_FW_TOT_TOTAL < pos + n then s.fwEnd stREFUSED
  else
    let bs := (List.range n).map (fun i => tget (0xFF : Byte) s.boot.fwWin i)
    ((s.flashWrite (slotBase s.idleSlot + pos) bs).wr .SEC_FW_POS_POS (pos + n)).fwEnd stOK

/-- CHUNK (R421). -/
def execChunk (s : State) : Host.Outcome State Fault Refusal :=
  hostRow .chunk State.doChunk s

/-- FINISH (R422): the slot is read back, its signature and security version checked, and only then its commit
record written, one sequence number above the running slot's. -/
def State.doFinish (s : State) : State :=
  let b := s.idleSlot
  let h := s.img b 0 128
  if s.rd .SEC_FW_POS_POS ≠ s.rd .SEC_FW_TOT_TOTAL then s.fwEnd stSTATE
  else if !s.checkFw b ∨ leAt h 12 4 < s.boot.fuses.minSvn then s.fwEnd stREFUSED
  else
    let len := leAt h 8 4
    let rec_ := magicFCMT ++ leBytes 4 (s.slotSeq (1 - b) + 1) ++ leBytes 4 len ++ leBytes 4 0
      ++ digest (s.img b 0 len) ++ leBytes 47 0 ++ leBytes 1 1
    let s := (s.flashErase (4096 * b) 4096).flashWrite (4096 * b) rec_
    ((s.wr .SEC_FW_STAT_PEND 1).setBegun false).fwEnd stOK

/-- FINISH (R422). -/
def execFinish (s : State) : Host.Outcome State Fault Refusal :=
  hostRow .finish State.doFinish s

/-- CANCEL (Table 18.6). -/
def State.doFwCancel (s : State) : State := (s.dropCommit.setBegun false).fwEnd stOK

/-- FIRMWARE_CANCEL (R421). -/
def execFirmwareCancel (s : State) : Host.Outcome State Fault Refusal :=
  hostRow .firmwareCancel State.doFwCancel s

/-- RAISE_SVN (R424). -/
def State.doRaise (s : State) : State :=
  let v := s.boot.image.svn
  if v ≤ s.boot.fuses.minSvn ∨ 63 < v then s.fwEnd stREFUSED
  else ({ s with boot := { s.boot with fuses := { s.boot.fuses with minSvn := v } } }).fwEnd stOK

/-- RAISE_SVN (R424). -/
def execRaiseSvn (s : State) : Host.Outcome State Fault Refusal :=
  hostRow .raiseSvn State.doRaise s

end Sys2Proof.Machine
end

