-- ==== Sys2Proof/Machine/BootRows.lean ====
section
/-! DEFINITION. Start-up and calibration (R438 to R447). -/

namespace Sys2Proof.Machine

/-! ### The sequence (R441 to R443) -/

/-- The step a start-up step depends on; 0 for the first (Table 19.6). -/
def stepDep (n : Nat) : Nat := if n = 9 then 7 else if n = 10 then 8 else n - 1

/-- Has a start-up step ended. -/
def State.stepDone (s : State) (n : Nat) : Bool := n == 0 || s.power.stepsEnded.contains n

/-- Does a start-up step run: its dependency has ended, and start-up has neither stopped nor entered recovery. -/
def State.stepRuns (s : State) (n : Nat) : Bool :=
  decide (1 ≤ n ∧ n ≤ 10) && !s.power.inReset && !s.power.offState && !s.stepDone n && s.stepDone (stepDep n)
    && !s.on .BOOT_STAT_HALT && !s.on .BOOT_STAT_RECOVERY

/-- What BOOT_TOT shows for a step, in the unit of Table 19.6. -/
def State.stepTotal (s : State) (n : Nat) : Nat :=
  if n = 3 then (match s.slotOrder with | b :: _ => s.slotLen b / 1024 | [] => 0)
  else if n = 5 then 96
  else if n = 6 then 100
  else if n = 7 then 32
  else if n = 8 then s.boot.image.pmap.length + s.boot.image.upl.length + s.boot.image.regs.length
  else if n = 9 then s.scrubPages
  else if n = 10 then s.boot.image.pmap.length
  else 0

/-- BOOT_STEP, BOOT_POS and BOOT_TOT show the lowest-numbered step that has not ended, at its beginning (R443; log
entry 44). -/
def State.bootShow (s : State) : State :=
  let n := (((List.range 10).map (· + 1)).find? (fun n => !s.stepDone n)).getD 0
  ((s.wr .BOOT_STAT_STEP n).wr .BOOT_POS_POS 0).wr .BOOT_TOT_TOTAL (s.stepTotal n)

/-- Start-up begins at step 1: the next key is drawn (R412, R441). -/
def State.startUp (s : State) : State :=
  let s := { s with power := { s.power with inReset := false, offState := false, relHeld := false, offWake := false } }
  s.drawKey.bootShow

/-- RESET_N_RELEASE (R441, R507): a release while PG_IN is low is held back. -/
def execResetNRelease (s : State) : Host.Outcome State Fault Refusal :=
  settled (
    if !s.power.inReset ∨ !s.power.vstby ∨ s.power.trips then s
    else if !s.power.pgIn ∨ !s.power.rails then { s with power := { s.power with relHeld := true } }
    else s.startUp)

/-! ### Steps 2 and 3: the flash is read and a slot chosen -/

/-- Sequence numbers of the committed records of the persistent event log, with their place (R491). -/
def State.flogRecs (s : State) : List (Nat × Nat) :=
  s.boot.flash.filterMap (fun e =>
    if flEvents ≤ e.1 ∧ e.1 < flEvents + 0x100000 ∧ e.1 % 64 = 63 ∧ e.2 = 1 then
      some ((e.1 - flEvents) / 64, leVal (s.flashRead (e.1 - 23) 4))
    else none)

/-- Places of the committed records of the health history, with their time (R391). -/
def State.healthRecs (s : State) : List (Nat × Nat) :=
  s.boot.flash.filterMap (fun e =>
    if flHealth ≤ e.1 ∧ e.1 < flHealth + 0x100000 ∧ e.1 % 256 = 255 ∧ e.2 = 1 then
      some ((e.1 - flHealth) / 256, leVal (s.flashRead (e.1 - 255) 8))
    else none)

/-- The place and value of the highest record of a list. -/
def highest (l : List (Nat × Nat)) : Option (Nat × Nat) :=
  l.foldl (fun (b : Option (Nat × Nat)) e =>
    match b with
    | none => some e
    | some c => if c.2 < e.2 then some e else b) none

/-- Records held in the repair map. -/
def State.rmapCount (s : State) : Nat := s.rmapSlots.length

/-- Step 2: commit records, tenant epoch log, repair map, event log and calibration set are read (Table 19.6, R431,
R446, R491). -/
def State.bootStep2 (s : State) : State :=
  let s := (s.wr .BOOT_SEQ_A_SEQ (if s.committed 0 then s.slotSeq 0 else 0)).wr .BOOT_SEQ_B_SEQ
    (if s.committed 1 then s.slotSeq 1 else 0)
  let s := s.wr .SEC_TEN_EPOCH_EPOCH (match s.epochNewest with | some e => e.2 | none => 0)
  let s := s.wr .EVT_RMAP_CNT_RECORDS s.rmapCount
  let ev := highest s.flogRecs
  let next := match ev with | some e => e.2 + 1 | none => 0
  let s := (s.wr .EVT_FLOG_IDX_NEXT next).wr .EVT_LOG_IDX_NEXT next
  let s := { s with tel := { s.tel with
    flogNext := (match ev with | some e => e.1 + 1 | none => 0)
    healthNext := (match highest s.healthRecs with | some e => e.1 + 1 | none => 0) } }
  match s.calHeld with
  | some bs => ({ s with boot := { s.boot with calSet := bs } }).wr .BOOT_CAL_STAT_VALID 1
  | none => (s.wr .BOOT_STAT_CAL_DEFAULT 1).event .calDefault

/-- The code a slot keeps in BOOT_STAT once the device runs from `run`, or from none (R439). -/
def State.refuseCode (s : State) (run : Option Nat) (b : Nat) : Nat :=
  if run = some b then 0
  else if !s.committed b then 1
  else
    let tried := match run with | none => true | some r => decide (s.slotOrder.idxOf b < s.slotOrder.idxOf r)
    if tried then s.slotCode b else 9

/-- The nominal period in 1/16 SYSCLK cycles, rounded down (R462, R463). -/
def State.nominal (s : State) : Nat := 1600000000 / s.boot.image.nomHz

/-- Step 3: the slots are checked in order; the first that passes runs, and with none the device enters recovery boot
(R439, R440). -/
def State.bootStep3 (s : State) : State :=
  let run := s.slotOrder.find? (fun b => s.slotCode b == 0)
  let s := (s.wr .BOOT_STAT_REFUSE_A (s.refuseCode run 0)).wr .BOOT_STAT_REFUSE_B (s.refuseCode run 1)
  match run with
  | none => s.wr .BOOT_STAT_RECOVERY 1
  | some b =>
    let pend := s.slotOrder.head? != some b
    let s := { s with boot := { s.boot with image := s.readImage b } }
    -- the holdover period of a device that has never locked (R463)
    let s := if s.clk.good.isEmpty then s.wr .PWR_EP_STAT_PERIOD s.nominal else s
    let s := ((s.wr .SEC_FW_STAT_RUN_SLOT b).wr .SEC_FW_STAT_PEND (b2n pend)).wr .BOOT_IMG_LEN_LEN (s.slotLen b)
    if pend then (s.wr .BOOT_STAT_FALLBACK 1).event .bootFallback else s

/-! ### Step 5: self-test and the repair map (R389) -/

/-- A die that the map records RETIRED or FAILED: a spare serves its slots, or the die in service that serves the
fewest (R260). -/
def State.startRetire (s : State) (d role : Nat) : State :=
  let s := s.wr .RGF_DIE_STAT_ROLE role d
  let mine := s.slotsOf d
  let pass (sp : Nat) (s : State) : State :=
    if mine = [] then s else (mine.foldl (fun (s : State) p => s.passSlot p sp) s).wr .RGF_DIE_STAT_ROLE 1 sp
  let share (s : State) (p : Nat) : State :=
    match s.leastServing (fun x => x != d) with
    | some x => s.passSlot p x
    | none => s
  let s := match s.firstSpare with
    | some sp => pass sp s
    | none => mine.foldl share s
  s.rgfSummary.lowCheck

/-- A record that carries PERSIST is applied without retest; a die that needs a ninth repair column has failed (R247). -/
def State.applyRmap (s : State) (r : List Byte) : State :=
  let kind := leAt r 0 1
  let u := leAt r 2 2
  if kind = 1 then (
    let n := s.rd .RGF_DIE_STAT_REPCOL u
    if 36 ≤ u then s else if n < 8 then s.wr .RGF_DIE_STAT_REPCOL (n + 1) u else s.startRetire u 5)
  else if kind = 4 then (if u < 36 then s.startRetire u (leAt r 16 8 % 8) else s)
  else if kind = 8 then
    { s with tier := { s.tier with retired := tset false s.tier.retired (frameKey (u / 2) (leAt r 4 4 % 2 ^ 21)) true } }
  else if kind = 9 then
    ((s.wr .POOL_STACKS_INSERV (setBit (s.rd .POOL_STACKS_INSERV) (u % 32) false)).wr .EVT_STACK_LOST_STACKS
      (setBit (s.rd .EVT_STACK_LOST_STACKS) (u % 32) true)).setDegraded 6 true
  else s

/-- Every record in force that carries PERSIST is applied. -/
def State.applyRmapAll (s : State) : State :=
  let recs := s.rmapSlots.map s.rmapAt
  ((recs.filter (fun r => rmapLive r && !rmapCleared r && (leAt r 1 1).testBit 0)).foldl (fun s r => s.applyRmap r) s).capRefresh

/-- Does a self-test stop start-up: a memory complex, or both dies of a control pair, failed (R441). -/
def haltFault (f : StandingFault) : Bool := f.cls == 0x0D || f.cls == 0x0E

/-! ### Step 8: the configuration is loaded (R435, R436) -/

/-- The registers of one port-map entry. -/
def State.loadPort (s : State) (x : PMap) : State :=
  let p := x.port
  let s := ((((s.wr .PRT_CFG_MODE x.mode p).wr .PRT_CFG_DYN (b2n x.dyn) p).wr .PRT_CFG_DIE x.die p).wr .PRT_CFG_FIRST x.first
    p).wr .PRT_CFG_WIDTH x.width p
  let s := (List.range x.width).foldl (fun s n =>
    (s.wr .PRT_LANE_MAP_LOGICAL (16 * x.die + x.first + n) p n).wr .PRT_LANE_MAP_PHYS
      (17 * x.die + x.first + n) p n) s
  let s := if x.repair then
      (s.wr .PRT_DIE_REPAIR_EXT_WIRED (b2n x.extWired) x.die).wr .PRT_DIE_REPAIR_EXT_PORT p x.die
    else s
  let s := x.cred.zipIdx.foldl (fun s e => s.wr .PRT_CRED_LOC_ADV e.1 p e.2) s
  ((s.wr .TM_PORT_SUB_SUB x.sub p).wr .POOL_PORT_SLICE_STAGED x.slice p).wr .POOL_PORT_SLICE_ACTIVE x.slice p

/-- One REGS record; the mirror's enable acts as a write of MIRR_CTL does. -/
def State.loadReg (s : State) (o v : Nat) : State :=
  match regNamed o with
  | none => s
  | some (r, sh) => if r = 0xA000000 then s.mirrCtl v else s.putFields r (v * 2 ^ sh) (0xFFFFFFFF * 2 ^ sh)

/-- Step 8 loads the port map, the uplink section and the REGS records, and applies the TM records together. -/
def State.loadConfig (s : State) : State :=
  let im := s.boot.image
  let s := im.pmap.foldl (fun s x => s.loadPort x) s
  let s := im.upl.foldl (fun s u => s.wr .PRT_UPL_CTL_PFC_EN u.pfcEn u.port) s
  let s := im.regs.foldl (fun s e => s.loadReg e.1 e.2) s
  let s := (List.range 32).foldl (fun s n => s.wr .POOL_SLC_SLOTS_ACT_MASK (s.rd .POOL_SLC_SLOTS_MASK n) n) s
  let s := { s with boot := { s.boot with image := { s.boot.image with loaded := true } } }
  s.tmApplyAll.capRefresh

/-- Enabled ports that are DOWN enter TRAIN (Table 19.6, step 8; R34, R458). -/
def State.trainAll (s : State) : State :=
  (List.range 320).foldl (fun s p => if s.mayTrain p && s.lstate p == 0 then s.setLstate p 1 else s) s

/-! ### A step ends -/

/-- A step ends: its time is kept, and the next step shown. -/
def State.stepEnded (s : State) (n : Nat) : State :=
  let s := { s with power := { s.power with stepsEnded := s.power.stepsEnded ++ [n] } }
  (s.wr .BOOT_STEP_T_TIME s.now n).bootShow

/-- READY, once steps 8 and 9 have both ended (R442). -/
def State.bootReady (s : State) : State :=
  if s.stepDone 8 && s.stepDone 9 && !s.on .BOOT_STAT_READY then ((s.wr .BOOT_STAT_READY 1).event .bootReady).irq 6 else s

/-- Units whose self-test or training failed are handled as their class is. -/
def State.raiseList (s : State) (l : List StandingFault) : State := l.foldl (fun s f => s.selfTestFail f.cls f.unit) s

/-- A start-up step that runs comes to its end. -/
def State.bootStep (s : State) (n : Nat) (ok : Bool) (failed : List StandingFault) : State :=
  if n = 2 then s.bootStep2.stepEnded n
  else if n = 3 then
    let s := s.bootStep3
    if s.on .BOOT_STAT_RECOVERY then s else s.stepEnded n
  else if n = 5 then
    if !ok ∨ failed.any haltFault then ((s.wr .BOOT_STAT_HALT 1).event .bootHalt).irq 6
    else (s.applyRmapAll.raiseList failed).stepEnded n
  else if n = 7 then
    let s := s.raiseList failed
    (s.wr .SEC_TD_TOT_TOTAL s.scrubPages).stepEnded n
  else if n = 8 then ((s.loadConfig.stepEnded n).trainAll).bootReady
  else if n = 9 then (s.scrubOver.stepEnded n).bootReady
  else (s.raiseList failed).stepEnded n

/-- STARTUP_STEP_END (R441): step `step` ends; `ok` is false where step 5 finds a memory complex or a control pair
failed, and `failed` names the other units that did not pass. -/
def execStartupStepEnd (step : Nat) (ok : Bool) (failed : List StandingFault) (s : State) :
    Host.Outcome State Fault Refusal :=
  settled (if s.stepRuns step then s.bootStep step ok failed else s)

/-! ### Calibration commands (R447) -/

/-- A calibration command ends; each is done when it is written (log entry 43). -/
def State.calEnd (s : State) (st : Nat) : State := (s.wr .BOOT_CAL_STAT_STATUS st).cmdDone 4

/-- The calibration section is erased: no set is held. -/
def State.calErase (s : State) : State := (s.flashErase flCal (1856 * 1024)).wr .BOOT_CAL_STAT_VALID 0

/-- Has BEGIN been given. -/
def State.setCalBegun (s : State) (b : Bool) : State := { s with boot := { s.boot with calBegun := b } }

/-- BEGIN (Table 19.8). -/
def State.doCalBegin (s : State) : State :=
  let n := s.rd .BOOT_CAL_LEN_LEN
  if !s.on .BOOT_STAT_READY then s.calEnd stSTATE
  else if n ≠ calLen then s.calEnd stREFUSED
  else (((s.calErase.wr .BOOT_CAL_TOT_TOTAL n).wr .BOOT_CAL_POS_POS 0).setCalBegun true).calEnd stOK

/-- CAL_BEGIN (R447). -/
def execCalBegin (s : State) : Host.Outcome State Fault Refusal :=
  hostRow .calBegin State.doCalBegin s

/-- CHUNK (Table 19.8): a length of 0, the reset value of BOOT_CAL_CHLEN, or above 32,768 lies outside the register's range and is
REFUSED (DESIGN CHOICE, log entry 112). -/
def State.doCalChunk (s : State) : State :=
  let n := s.rd .BOOT_CAL_CHLEN_LEN
  let pos := s.rd .BOOT_CAL_POS_POS
  if !s.on .BOOT_STAT_READY ∨ !s.boot.calBegun then s.calEnd stSTATE
  else if n = 0 ∨ 32768 < n ∨ s.rd .BOOT_CAL_TOT_TOTAL < pos + n then s.calEnd stREFUSED
  else
    let bs := (List.range n).map (fun i => tget (0xFF : Byte) s.boot.calWin i)
    ((s.flashWrite (flCal + pos) bs).wr .BOOT_CAL_POS_POS (pos + n)).calEnd stOK

/-- CAL_CHUNK (R447). -/
def execCalChunk (s : State) : Host.Outcome State Fault Refusal :=
  hostRow .calChunk State.doCalChunk s

/-- COMMIT (Table 19.8): the set is read back and checked, and its commit byte programmed last. -/
def State.doCalCommit (s : State) : State :=
  if !s.on .BOOT_STAT_READY ∨ s.rd .BOOT_CAL_POS_POS ≠ s.rd .BOOT_CAL_TOT_TOTAL then s.calEnd stSTATE
  else if !s.calBodyOk (s.flashRead flCal calLen) then s.calEnd stREFUSED
  else (((s.flashWrite (flCal + 141119) [1]).wr .BOOT_CAL_STAT_VALID 1).setCalBegun false).calEnd stOK

/-- CAL_COMMIT (R447). -/
def execCalCommit (s : State) : Host.Outcome State Fault Refusal :=
  hostRow .calCommit State.doCalCommit s

/-- Is a physical lane in service of a port that is UP. -/
def State.laneUp (s : State) (l : Nat) : Bool :=
  (List.range 320).any (fun p => s.lstate p == 2
    && (List.range (s.rd .PRT_CFG_WIDTH p)).any (fun n => s.rd .PRT_LANE_MAP_STATE p n == 1 && s.rd .PRT_LANE_MAP_PHYS p n == l))

/-- A lane entry of Table 19.7 from the trained settings of a lane: eight bytes of settings, and zeros. -/
def laneEntry (trained : List Byte) (o : Nat) : List Byte := slice trained o 8 ++ leBytes 8 0

/-- The entries of a captured set: trained settings for lanes that are UP, stacks in service and the host port's lanes,
and the set in use for the rest. `trained` holds the values in use, laid out as the set's entries. The entries of the host port's
lanes always come from the values in use (DESIGN CHOICE, log entry 115). -/
def State.captured (s : State) (trained : List Byte) : List Byte :=
  let old := s.calInUse
  (List.range 612).flatMap (fun l =>
      if s.laneUp l then laneEntry trained (16 * l) else slice old (64 + 16 * l) 16)
    ++ (List.range 32).flatMap (fun n =>
      if s.stackIn n then slice trained (9792 + 4096 * n) 4096 else slice old (9856 + 4096 * n) 4096)
    ++ (List.range 4).flatMap (fun l => laneEntry trained (140864 + 16 * l))

/-- CAPTURE (Table 19.8). -/
def State.doCapture (s : State) (trained : List Byte) : State :=
  if !s.on .BOOT_STAT_READY then s.calEnd stSTATE
  else
    let body := calHeader s.boot.fuses.serial ++ s.captured trained
    let set := body ++ digest body ++ leBytes 63 0 ++ leBytes 1 1
    ((s.calErase.flashWrite flCal set).wr .BOOT_CAL_STAT_VALID 1).calEnd stOK

/-- CAPTURE (R447). -/
def execCapture (trained : List Byte) (s : State) : Host.Outcome State Fault Refusal :=
  hostRow (.capture trained) (fun s => s.doCapture trained) s

end Sys2Proof.Machine
end

