-- ==== Sys2Proof/Machine/ClockRows.lean ====
section
/-! DEFINITION. The epoch unit: boundaries, subticks, lock and holdover (R461 to R467), and the reference clocks
(R460). -/

namespace Sys2Proof.Machine

/-! ### Boundaries -/

/-- CCLK cycles in a time in 1/16 SYSCLK cycles: 94 for 10 SYSCLK cycles (R144). -/
def cclkOf (len16 : Nat) : Nat := len16 * 47 / 80

/-- The CCLK count at `n` sixteenths of an epoch of a length in 1/16 SYSCLK cycles, or the count reached where that is later (R144,
R465). -/
def State.cycleAt (s : State) (n len16 : Nat) : Nat := max s.cycle (s.clk.epochBase + cclkOf (n * len16) / 16)

/-- Change the epoch unit. -/
def State.setClk (s : State) (c : Clock) : State := { s with clk := c }

/-- Does the epoch unit run: with VSTBY in range, outside reset and OFF (R454). -/
def State.epochRuns (s : State) : Bool := s.power.vstby && !s.power.inReset && !s.power.offState

/-- EPOCH_OUT is pulsed, while it is enabled (R467). -/
def State.pulse (s : State) : State := if s.on .PWR_EP_CTL_OUT_EN then s.emit .epochOut else s

/-- The hold-down times that are left fall by one epoch (R155); they stand still outside RUN and IDLE (R454) and in
containment (R385). -/
def State.holdDown (s : State) : State :=
  (List.range 320).foldl (fun s p => if s.lstate p = 4 then s.lower .PRT_HOLD_REMAIN p else s) s

/-- The downs within each port's window, as the window passes (R155, Table 6.4); the windows stand still in containment
(R385). -/
def State.flapWindows (s : State) : State :=
  (List.range 320).foldl (fun s p => if (s.port p).downs.isEmpty then s else s.wr .PRT_FLAPS_K (s.flaps p) p) s

/-- The epoch that ends is counted where a throttle was active in it, to its end or to an earlier moment (R511, R514; DEDUCED, log
entry 113). -/
def State.throttleCount (s : State) : State :=
  let s := if s.rd .PWR_THERM_STAT_LEVEL ≠ 0 ∨ s.tel.thrTemp then s.bump .PWR_THR_TEMP_COUNT else s
  let s := if s.on .PWR_THERM_STAT_LIMIT ∨ s.tel.thrLim then s.bump .PWR_THR_LIM_COUNT else s
  { s with tel := { s.tel with thrTemp := false, thrLim := false } }

/-- An epoch begins: the count rises by one, the subtick returns to 0, and what is due at an epoch boundary and at its
first subtick happens (R134, R144, R155, R197, R464 to R466). `hold` says whether the epoch began in holdover; `len` is the length
of the epoch that ends in 1/16 SYSCLK cycles, where an edge has ended it, and it had the period otherwise. -/
def State.newEpoch (s : State) (hold : Bool) (len : Option Nat := none) : State :=
  let c := s.cycleAt 16 (len.getD (s.rd .PWR_EP_STAT_PERIOD))
  let s := (s.advance .PWR_EPOCH_COUNT).setClk { s.clk with
    subtick := 0, cclk := 0, holdEpoch := hold, base := c, epochBase := c }
  let s := if s.rd .PWR_STAT_STATE ≤ 1 ∧ !s.contained then s.holdDown.flapWindows else s
  let s := s.halveHeat
  let s := s.throttleCount
  if s.running then s.tmBoundary.tmSample else s

/-- SUBTICK (R134, R465): the next subtick of the epoch begins; subtick 15 lasts until the boundary. -/
def execSubtick (s : State) : Host.Outcome State Fault Refusal :=
  settled (
    if !s.epochRuns ∨ 15 ≤ s.clk.subtick then s
    else
      let c := s.cycleAt (s.clk.subtick + 1) (s.rd .PWR_EP_STAT_PERIOD)
      let s := s.setClk { s.clk with subtick := s.clk.subtick + 1, cclk := 0, base := c }
      if s.running then s.tmBoundary else s)

/-! ### Lock (R462) -/

/-- Do sixteen intervals each lie within 0.5 % of their mean. -/
def steady (w : List Nat) : Bool :=
  w.length == 16 && w.all (fun g => decide (200 * (16 * g - w.sum) ≤ w.sum ∧ 200 * (w.sum - 16 * g) ≤ w.sum))

/-- Does the mean of sixteen intervals lie within 10 % of the nominal period. -/
def State.nearNominal (s : State) (w : List Nat) : Bool :=
  let a := w.sum * s.boot.image.nomHz
  let b := 16 * 1600000000
  decide (10 * (a - b) ≤ b ∧ 10 * (b - a) ≤ b)

/-- Holdover is entered: 0x1 loss of EPOCH_IN, 0x2 three hits (R463). -/
def State.enterHoldover (s : State) (cause : Nat) : State :=
  let s := ((s.wr .PWR_EP_STAT_HOLDOVER 1).wr .PWR_EP_STAT_LOCKED 0).bump .PWR_EP_LOSS_COUNT
  let s := s.setClk { s.clk with window := [], hits := 0, madeLast := false, relock := false, unlocked := false }
  (s.event .epochLost 0 0 cause).irq 7

/-- An accepted edge feeds the lock test (R462): `gap` is its distance from the last accepted edge. -/
def State.lockTest (s : State) (gap : Nat) : State :=
  let w := (s.clk.window ++ [gap]).drop (s.clk.window.length + 1 - 16)
  let seen := s.clk.rateSeen && decide (gap < 4 * s.nominal)
  let s := s.setClk { s.clk with window := w, rateSeen := seen }
  if !steady w then s
  else if s.nearNominal w then
    (s.setClk { s.clk with relock := true, good := w, rateSeen := false, hits := 0, window := [] }
      |>.wr .PWR_EP_STAT_LOCKED 1).wr .PWR_EP_STAT_PERIOD (w.sum / 16)
  else if seen then s
  else (s.setClk { s.clk with rateSeen := true }).event .epochRate

/-- The first accepted edge after lock is regained ends the holdover epoch, `int` after its boundary (R464). -/
def State.relockEdge (s : State) (int : Nat) : State :=
  let s := s.setClk { s.clk with relock := false, madeLast := false }
  let s := ((s.wr .PWR_EP_STAT_HOLDOVER 0).newEpoch false (some int)).event .epochLock
  (s.irq 7).pulse

/-- An accepted edge while locked (R462): `int` is its interval from the previous boundary, or from the late edge
after it. -/
def State.lockedEdge (s : State) (int : Nat) : State :=
  let per := s.rd .PWR_EP_STAT_PERIOD
  if s.clk.madeLast ∧ 2 * int < per then
    let s := (s.bump .PWR_EP_HIT_COUNT).setClk { s.clk with madeLast := false, hits := s.clk.hits + 1 }
    if s.clk.hits < 3 then s
    else (s.wr .PWR_EP_STAT_LOCKED 0).setClk { s.clk with unlocked := true, hits := 0, window := [] }
  else if 100 * (int - per) > per ∨ 100 * (per - int) > per then
    let s := (s.bump .PWR_EP_HIT_COUNT).setClk { s.clk with madeLast := false, hits := s.clk.hits + 1 }
    if s.clk.hits < 3 then (s.newEpoch false (some int)).pulse
    else ((s.newEpoch true (some int)).enterHoldover 2).pulse
  else
    let g := (s.clk.good ++ [int]).drop (s.clk.good.length + 1 - 16)
    let s := s.setClk { s.clk with madeLast := false, hits := 0, good := g }
    ((s.wr .PWR_EP_STAT_PERIOD (g.sum / g.length)).newEpoch false (some int)).pulse

/-- EPOCH_IN (R461 to R464): a rising edge that stays high for `highNs`, `gap16` after the last accepted edge and `int16`
after the previous boundary or later late edge, both in 1/16 SYSCLK cycles. -/
def execEpochIn (highNs gap16 int16 : Nat) (s : State) : Host.Outcome State Fault Refusal :=
  settled (
    if !s.epochRuns then s
    else if highNs < 200 then s.bump .PWR_EP_NARROW_COUNT
    else if gap16 < 4000 then s.bump .PWR_EP_FAST_COUNT
    else if s.clk.relock then s.relockEdge int16
    else if s.on .PWR_EP_STAT_LOCKED then s.lockedEdge int16
    else s.lockTest gap16)

/-- EPOCH_BOUNDARY (R462, R463): the device makes a boundary itself: in holdover, or while locked where no edge came
within 1 % of its time. -/
def execEpochBoundary (s : State) : Host.Outcome State Fault Refusal :=
  settled (
    if !s.epochRuns then s
    else if s.clk.unlocked then
      let s := (s.newEpoch true).enterHoldover 2
      if s.on .PWR_EP_CTL_OUT_HOLD then s.pulse else s
    else if s.on .PWR_EP_STAT_HOLDOVER then
      let s := s.newEpoch true
      if s.on .PWR_EP_CTL_OUT_HOLD then s.pulse else s
    else
      let s := (s.bump .PWR_EP_MISS_COUNT).newEpoch false
      (s.setClk { s.clk with madeLast := true }).pulse)

/-- EPOCH_LOSS (R463): no edge was accepted for four nominal periods; the boundary that falls then begins holdover. -/
def execEpochLoss (s : State) : Host.Outcome State Fault Refusal :=
  settled (
    if !s.epochRuns ∨ s.on .PWR_EP_STAT_HOLDOVER then s
    else
      let s := s.newEpoch true
      let s := (s.setClk { s.clk with rateSeen := false }).enterHoldover 1
      if s.on .PWR_EP_CTL_OUT_HOLD then s.pulse else s)

/-! ### Reference clocks (R460) -/

/-- REFCLK (R460): REFCLK_P/N[n] stops or returns; TRAINING_COMPLETE waits for it. -/
def execRefclk (n : Nat) (present : Bool) (s : State) : Host.Outcome State Fault Refusal :=
  settled (
    if 9 ≤ n then s
    else
      let l := s.power.refclkGone.filter (· != n)
      { s with power := { s.power with refclkGone := if present then l else l ++ [n] } })

end Sys2Proof.Machine
end

