-- ==== Sys2Proof/Machine/PowerRows.lean ====
section
/-! DEFINITION. Power states and waking (R449 to R459), and the resets of the whole device (R412, R445, R459). -/

namespace Sys2Proof.Machine

/-! ### The device resets -/

/-- What a reset leaves: the flash, the fuses, the pins and signals, TRIP (R514), the TAP, the commands that wait and
what has left the device; every register, table and key is as after reset (R12, R412, R445). -/
def State.toReset (s : State) : State :=
  let pt (e : Nat × Port) : Nat × Port := (e.1, { Port.init with signal := e.2.signal })
  let r : State := { State.reset with
    pending := s.pending
    ports := s.ports.map pt
    boot := { State.reset.boot with flash := s.boot.flash, fuses := s.boot.fuses }
    power := { State.reset.power with
      vstby := s.power.vstby
      pgIn := s.power.pgIn
      rails := s.power.rails
      wakeLow := s.power.wakeLow
      refclkGone := s.power.refclkGone
      trips := s.power.trips }
    tap := s.tap
    out := s.out
    nextId := s.nextId
    freeCtr := s.freeCtr }
  r.wr .PWR_THERM_STAT_TRIP (s.rd .PWR_THERM_STAT_TRIP)

/-- OFF: every rail made from VIN48 is off, and only the wake block is left (R459). -/
def State.toOff (s : State) : State :=
  let r := s.toReset
  { r with power := { r.power with inReset := false, offState := true, rails := false } }

/-! ### Conditions that refuse an entry (Table 20.2) -/

/-- Is a host command of reason 0x5 running. -/
def State.cmdBusy (s : State) : Bool :=
  s.on .POOL_EXT_RES_BUSY || s.on .DIR_CG_RES_BUSY || s.on .DIR_PUB_RES_BUSY || s.on .TIER_OBJ_RES_BUSY
    || s.on .POOL_RCMP_STAT_BUSY || s.on .SEC_FW_STAT_BUSY || s.on .BOOT_CAL_STAT_BUSY
    || s.rd .EVT_BUNDLE_POS_POS != s.rd .EVT_BUNDLE_TOT_TOTAL

/-- Is work of reason 0x8 open. -/
def State.workOpen (s : State) : Bool :=
  !s.openSlots.isEmpty || !s.openChans.isEmpty || !s.tier.migs.isEmpty || s.on .TIER_SCHED_STAT_RUNNING
    || s.on .POOL_RCMP_STAT_BUSY

/-- The first condition of Table 20.2 that refuses entry to a target; 0 for none. -/
def State.entryReason (s : State) (t : Nat) : Nat :=
  if t = 4 then 0
  else if !s.on .BOOT_STAT_READY then 1
  else if t ≠ 1 ∧ s.contained then 2
  else if 2 ≤ s.rd .SEC_TEN_STAT_STATE then 3
  else if t ≠ 1 ∧ (List.range 16).any (fun g => decide (s.rd .DIR_CG_STAT_STATE g ≠ 0)) then 4
  else if s.cmdBusy then 5
  else if s.power.wakeLow then 6
  else if (List.range 4).any (fun n => decide (s.rd .GLB_PRST_HELD_HELD n ≠ 0)) then 7
  else if t = 1 ∧ s.workOpen then 8
  else 0

/-! ### Entering (R450 to R453) -/

/-- A power command ends. -/
def State.pwrEnd (s : State) (st reason : Nat) : State :=
  ((s.wr .PWR_STAT_STATUS st).wr .PWR_STAT_REASON reason).cmdDone 0

/-- Change the power state machine. -/
def State.setPower (s : State) (p : Power) : State := { s with power := p }

/-- Steps 1 and 2 of Table 20.4: every port goes DOWN uncounted and is flushed, OPEN slots and channels are aborted,
and a schedule run is stopped. -/
def State.lanesDown (s : State) : State :=
  let s := (List.range 320).foldl (fun s p => if 1 ≤ s.lstate p ∧ s.lstate p ≤ 3 then s.downQuiet p else s) s
  let s := s.openSlots.foldl (fun s k => s.abortOp k) s
  (s.carAbortAll (fun c => s.carState c != carHALTED)).stopSchedule

/-- Step 4 of Table 20.4: every die, and every set of adders, that has run work since its last passing scan is to be
scanned. -/
def State.scanWorked (s : State) : State :=
  let s := (List.range 36).foldl (fun s d => if 0 < (s.scan d).since ∧ scannedRole (s.role d) then s.makeDue d else s) s
  (List.range 16).foldl (fun s k => if 0 < (s.scan (48 + k)).since then s.makeDue (48 + k) else s) s

/-- An entry begins. -/
def State.enterLow (s : State) (t : Nat) : State :=
  let s := ((s.wr .PWR_STAT_BUSY 1).wr .PWR_STAT_STATUS stOK).wr .PWR_STAT_REASON 0
  let s := s.setPower { s.power with entering := some t, heldEdge := false, heldLevels := 0, pme := false }
  let s := if t = 1 then s else s.lanesDown
  if t = 3 then s.scanWorked else s

/-- A write of TARGET to PWR_CMD (R450, R451). While BUSY is 1 it is ignored; a RUN written during an entry is also the
edge event of R456: held, or lost where it falls inside the entry window, which the free value decides (log entry 45). -/
def State.pwrCmd (s : State) (t : Nat) : State :=
  if s.power.inReset ∨ s.power.offState ∨ s.rd .PWR_STAT_STATE = 3 then s
  else if s.on .PWR_STAT_BUSY then
    let s := s.raiseBits .PWR_STAT_CMD_IGN 1
    if t = 0 ∧ s.power.entering.isSome then
      let f := s.free
      if f.1 % 2 = 0 then f.2.setPower { f.2.power with heldEdge := true } else f.2.bump .PWR_EDGE_LOST_COUNT
    else s
  else if 4 < t then s.pwrEnd stREFUSED 0
  else if t = s.rd .PWR_STAT_STATE then s.pwrEnd stOK 0
  else if s.rd .PWR_STAT_STATE ≠ 0 then
    (if t = 0 then ((s.wr .PWR_STAT_STATUS stOK).wr .PWR_STAT_REASON 0).wake 1 else s.pwrEnd stREFUSED 0)
  else if s.entryReason t ≠ 0 then s.pwrEnd stSTATE (s.entryReason t)
  else if t = 4 then s.toOff
  else s.enterLow t

/-- RUN (R450). -/
def execRun (s : State) : Host.Outcome State Fault Refusal :=
  hostRow .run (fun s => s.pwrCmd 0) s
/-- IDLE (R452). -/
def execIdle (s : State) : Host.Outcome State Fault Refusal :=
  hostRow .idle (fun s => s.pwrCmd 1) s
/-- SLEEP (R453). -/
def execSleep (s : State) : Host.Outcome State Fault Refusal :=
  hostRow .sleep (fun s => s.pwrCmd 2) s
/-- DSLEEP (R453). -/
def execDsleep (s : State) : Host.Outcome State Fault Refusal :=
  hostRow .dsleep (fun s => s.pwrCmd 3) s
/-- OFF (R459). -/
def execOff (s : State) : Host.Outcome State Fault Refusal :=
  hostRow .off (fun s => s.pwrCmd 4) s

/-- PME_TURN_OFF (R453): answered during an entry to DSLEEP. -/
def execPmeTurnOff (s : State) : Host.Outcome State Fault Refusal :=
  settled (
    if s.power.entering = some 3 ∧ !s.power.pme then (s.setPower { s.power with pme := true }).emit .pmeToAck else s)

/-! ### Entry complete (R456) -/

/-- Has the last step before the entry window ended: for IDLE every message past ingress is performed; for SLEEP and
DSLEEP migrations, flushes and aborts have ended; for DSLEEP also the scans, and PME_Turn_Off has come. -/
def State.entryReady (s : State) (t : Nat) : Bool :=
  if t = 1 then
    s.home.waits.all (fun w => w.cause == 9) && s.home.tacc.isEmpty && s.openSnoops == 0
      && s.home.runs.all (fun e => e.2.isEmpty) && s.home.atGrps.all (fun g => g.members.isEmpty)
      && s.sw.voq.isEmpty && s.sw.cross.isEmpty && s.sw.xhold.isEmpty && s.sw.egr.isEmpty
  else
    s.tier.migs.isEmpty && s.openSlots.isEmpty && s.openChans.isEmpty
      && (t != 3 || (s.power.pme && ((List.range 36) ++ (List.range 16).map (48 + ·)).all (fun d =>
        let x := s.scan d
        !(x.running || (x.due && decide (0 < x.since))) || (s.pickChecker [d]).isNone)))

/-- The level events of Table 20.3 that are present in a low-power state, by their bits of PWR_WAKE_SRC. In containment leases do
not advance, so that no lease wakes the device (Table 24.3, row 8). -/
def State.levels (s : State) (t : Nat) : Nat :=
  let msg := t = 1 ∧ (s.sw.ing.any (·.held) ∨ s.home.waits.any (fun w => w.cause == 9 && w.req.org.isPort))
  let lease := t = 1 ∧ !s.contained ∧ s.agents.any (fun e => e.2.valid && decide (e.2.expiry ≤ s.epoch))
  let timer := s.rd .PWR_TIMER_EPOCH ≠ 0 ∧ s.rd .PWR_TIMER_EPOCH ≤ s.epoch
  b2n s.power.wakeLow ||| 4 * b2n (decide msg) ||| 8 * b2n (decide lease) ||| 16 * b2n (decide timer)

/-- What DSLEEP loses: heat, scratchpads, journals and the late log (Table 20.1). -/
def State.loseVolatile (s : State) : State :=
  let cold (e : Nat × Page) : Nat × Page := (e.1, { e.2 with heat := 0 })
  let sc (e : Nat × Scan) : Nat × Scan := (e.1, { e.2 with journal := [] })
  let s := { s with
    tier := { s.tier with heat := [], pages := s.tier.pages.map cold }
    scn := { s.scn with scans := s.scn.scans.map sc, adders := s.scn.adders.map sc } }
  let s := (List.range 36).foldl (fun s d => s.wr .SCN_DIE_JCNT_ENTRIES 0 d) s
  let s := (List.range 64).foldl (fun s i =>
    (((s.wr .TIER_LATE_LOG_PAGE 0 i).wr .TIER_LATE_LOG_CAUSE 0 i).wr .TIER_LATE_LOG_LAYER 0 i).wr .TIER_LATE_LOG_TIME 0 i) s
  s.wr .TIER_LATE_LOG_IDX_NEXT 0

/-- An entry completes: the state is the target's, and events held during the entry wake the device at once. -/
def State.entryDoneAt (s : State) (t : Nat) : State :=
  let held := s.power.heldLevels
  let edge := s.power.heldEdge
  let s := s.setPower { s.power with entering := none, heldEdge := false, heldLevels := 0, lowStart := s.now / 4096 }
  let s := if t = 3 then s.loseVolatile else s
  let s := (((s.wr .PWR_STAT_STATE t).wr .PWR_STAT_BUSY 0).cmdDone 0).irq 5
  let lv := held ||| s.levels t ||| (if edge then 2 else 0)
  (List.range 5).foldl (fun s b => if lv.testBit b then s.wake b else s) s

/-- ENTRY_COMPLETE (R456). -/
def execEntryComplete (s : State) : Host.Outcome State Fault Refusal :=
  settled (
    match s.power.entering with
    | some t => if s.entryReady t then s.entryDoneAt t else s
    | none => s)

/-! ### Waking (R454 to R458) -/

/-- A level event during an entry is held; in a low-power state it wakes the device (R455, R456). -/
def State.levelEvent (s : State) (b : Nat) : State :=
  if s.power.entering.isSome then s.setPower { s.power with heldLevels := setBit s.power.heldLevels b true } else s.wake b

/-- A wake from OFF, once PG_IN is high, runs the rest of the power-up and then start-up (R459, R508). -/
def State.wakeOff (s : State) : State :=
  if s.power.pgIn then (s.setPower { s.power with rails := true }).startUp
  else s.setPower { s.power with offWake := true }

/-- A WAKE_N low that is taken (R457). -/
def State.wakeTaken (s : State) : State :=
  let s := s.setPower { s.power with wakeLow := true }
  if s.power.inReset then s else if s.power.offState then s.wakeOff else s.levelEvent 0

/-- WAKE_N (R457): a low of `ns`; between 1.6 µs and 2.4 µs the free value says whether it is taken. -/
def execWakeN (ns : Nat) (s : State) : Host.Outcome State Fault Refusal :=
  settled (
    if !s.power.vstby then s
    else if ns < 1600 then s.bump .PWR_WAKE_GLITCH_COUNT
    else if 2400 ≤ ns then s.wakeTaken
    else
      let f := s.free
      if f.1 % 2 = 0 then f.2 else f.2.wakeTaken)

/-- WAKE_N_HIGH (R457): WAKE_N has been high for `ns`. -/
def execWakeNHigh (ns : Nat) (s : State) : Host.Outcome State Fault Refusal :=
  settled (if ns < 2400 then s else s.setPower { s.power with wakeLow := false })

/-- TIMER_WAKE (R455). -/
def execTimerWake (s : State) : Host.Outcome State Fault Refusal :=
  settled (
    let t := s.rd .PWR_TIMER_EPOCH
    if t = 0 ∨ s.epoch < t ∨ !(s.asleep ∨ s.power.entering.isSome ∨ s.power.waking) then s else s.levelEvent 4)

/-- Epochs spent in SLEEP or DSLEEP count toward no lease, flap window, decay or schedule: every EXPIRY moves later
(R454). -/
def State.skipEpochs (s : State) (d : Nat) : State :=
  let ag (e : Nat × Agent) : Nat × Agent := (e.1, if e.2.valid then { e.2 with expiry := e.2.expiry + d } else e.2)
  let pt (e : Nat × Port) : Nat × Port := (e.1, { e.2 with downs := e.2.downs.map (· + d) })
  let sc (e : Nat × Scan) : Nat × Scan := (e.1, { e.2 with obsFrom := e.2.obsFrom + d })
  { s with
    agents := s.agents.map ag
    ports := s.ports.map pt
    scn := { s.scn with scans := s.scn.scans.map sc } }

/-- Halvings of heat missed in IDLE, one for each decay boundary passed (R454). -/
def State.coolMissed (s : State) (from_ : Nat) : State :=
  let n := s.epoch / 2 ^ s.rd .TIER_CTL_DECAY_LOG2 - from_ / 2 ^ s.rd .TIER_CTL_DECAY_LOG2
  let half (e : Nat × Nat) : Nat × Nat := (e.1, e.2 / 2 ^ n)
  let cool (e : Nat × Page) : Nat × Page := (e.1, { e.2 with heat := e.2.heat / 2 ^ n })
  { s with tier := { s.tier with
    heat := (s.tier.heat.map half).filter (fun e => e.2 != 0)
    pages := s.tier.pages.map cool
    decayed := if n = 0 then s.tier.decayed else some s.epoch } }

/-- The device is in RUN again (R454, R458; Table 24.3, row 6). -/
def State.awake (s : State) : State :=
  let t := s.rd .PWR_STAT_STATE
  let from_ := s.power.lowStart / 16
  let cmd := (s.rd .PWR_WAKE_SRC_SRC).testBit 1
  let s := s.setPower { s.power with waking := false }
  let s := (((s.wr .PWR_STAT_STATE 0).wr .PWR_STAT_BUSY 0).logHeld).irq 5
  let s := if cmd then s.cmdDone 0 else s
  let s :=
    if t = 1 then (s.refill (s.now / 4096 - s.power.lowStart)).coolMissed from_
    else
      -- an epoch spent in containment too counts once, toward the shift of R385 (Table 24.3, row 8)
      let d := s.rcv.containFrom.getD s.epoch - from_
      ((s.wr .PWR_LOWTIME_EPOCHS d).skipEpochs d).trainAll
  s.lateScans

/-- WAKE_COMPLETE (R458). -/
def execWakeComplete (s : State) : Host.Outcome State Fault Refusal :=
  settled (if s.power.waking ∧ !s.power.inReset ∧ !s.power.offState then s.awake else s)

end Sys2Proof.Machine
end

