-- ==== Sys2Proof/Machine/HostRows.lean ====
section
/-! DEFINITION. The host port beside BAR0: the BAR2 windows (R472 to R475), the resets of the port (R470), DOE and SPDM
(R476, R477), partial reset (R482), and board management over I3C (R483). -/

namespace Sys2Proof.Machine

/-! ### BAR2 (R472 to R474) -/

/-- The pool address of a BAR2 offset (R472). -/
def State.bar2Addr (s : State) (off : Nat) : Nat := s.rd .GLB_APER_BASE (off / 2 ^ 32) * 2 ^ 32 + off % 2 ^ 32

/-- Does a BAR2 request of `n` bytes complete with Unsupported Request before it reaches a home: outside BAR2 or
in two windows at once (log entry 14), its window not enabled, an address in the control window (R472), before step 8 or in recovery
boot (R440, R444), in containment (Table 16.4), or outside ASSIGNED (R408). -/
def State.bar2Refused (s : State) (off n : Nat) : Bool :=
  decide (2 ^ 36 < off + n ∨ 2 ^ 32 < off % 2 ^ 32 + max n 1) || !s.on .GLB_APER_EN (off / 2 ^ 32)
    || inWindow (s.bar2Addr off) || !s.stepDone 8 || s.on .BOOT_STAT_RECOVERY || s.contained || !s.assigned

/-- A request of a BAR2 request, of subscriber 1022 and of no agent; SRC and SEQ are zero (R473, Table 5.1). -/
def hostPool (tag opc sc addr sizeF : Nat) (more : List (Nat × Nat × Nat)) (pay : List Byte) : Req :=
  engReq (.host tag) 4096 0 1022 opc sc addr sizeF more pay

/-- A pool request of the host goes to its home; it waits behind earlier posted writes (R89), and while the core clocks
are gated. -/
def State.hostIssue (s : State) (r : Req) : State :=
  if s.postedBefore r || !s.portsTake then s.wait r 11 0 else s.engSend r

/-- Begin a BAR2 request that takes these pool requests. -/
def State.hostBegin (s : State) (isWrite isAtomic : Bool) (addr len : Nat) (rs : Nat → List Req) : State :=
  let tag := s.nextId
  let l := rs tag
  let h : HostReq :=
    { tag := tag, isWrite := isWrite, isAtomic := isAtomic, addr := addr, len := len, left := l.length, worst := stOK,
      worstAddr := 0, psn := false, bytes := [] }
  let s := { s with nextId := s.nextId + 1, host := { s.host with reqs := s.host.reqs ++ [h] } }
  l.foldl (fun s r => s.hostIssue r) s

/-- A read or AtomicOp that reaches no home (R472, R474). -/
def State.bar2NoRead (s : State) : State := (s.bump .GLB_HOST_RERR_COUNT).emit (.bar2 s.nextId 2 false [])

/-- BAR2_READ (R473): one NRD for each line touched. -/
def execBar2Read (off len : Nat) (s : State) : Host.Outcome State Fault Refusal :=
  settled (
    if !s.hostServes then s
    else if s.bar2Refused off len then s.bar2NoRead
    else
      let a := s.bar2Addr off
      let n := lineOf (a + max len 1 - 1) - lineOf a + 1
      s.hostBegin false false a len (fun tag =>
        (List.range n).map (fun i => hostPool tag opNRD 2 (64 * (lineOf a + i)) 6 [] [])))

/-- The largest naturally aligned power-of-two runs of enabled bytes within `2 ^ k` bytes at `a`, as address and log2
size (R473). -/
def alignedRuns (en : Nat → Bool) : Nat → Nat → List (Nat × Nat)
  | 0, a => if en a then [(a, 0)] else []
  | k + 1, a =>
    if (List.range (2 ^ (k + 1))).all (fun i => en (a + i)) then [(a, k + 1)]
    else alignedRuns en k a ++ alignedRuns en k (a + 2 ^ k)

/-- The stores of a BAR2 write: one NWR for each whole line, one ST for each remaining run. -/
def bar2Stores (tag a : Nat) (bytes : List (Option Byte)) : List Req :=
  let at_ (x : Nat) : Option Byte := if x < a then none else (bytes[x - a]?).join
  let n := lineOf (a + max bytes.length 1 - 1) - lineOf a + 1
  ((List.range n).flatMap (fun i => alignedRuns (fun x => (at_ x).isSome) 6 (64 * (lineOf a + i)))).map (fun e =>
    let bs := (List.range (2 ^ e.2)).map (fun i => (at_ (e.1 + i)).getD 0)
    if e.2 = 6 then hostPool tag opNWR 3 e.1 6 [] bs
    else hostPool tag opST 3 e.1 e.2 [] (bs ++ List.replicate (16 - bs.length) 0))

/-- BAR2_WRITE (R473): a posted write; one that reaches no home is discarded and reported by AER. -/
def execBar2Write (off : Nat) (bytes : List (Option Byte)) (s : State) : Host.Outcome State Fault Refusal :=
  settled (
    if !s.hostServes then s
    else if s.bar2Refused off bytes.length then s.emit (.aer 2)
    else if bytes.all (·.isNone) then s
    else
      let a := s.bar2Addr off
      s.hostBegin true false a bytes.length (fun tag => bar2Stores tag a bytes))

/-- ATOP of a PCI Express AtomicOp: FetchAdd is ADD, Swap is SWAP, CAS is CAS. -/
def hostAtop (op : Nat) : Option Nat := if op = 0 then some 0 else if op = 1 then some 6 else if op = 2 then some 7 else none

/-- ATOMICOP (R473, Table 21.1): one fetch AT; only FetchAdd, Swap and CAS of 4 and 8 bytes are supported. -/
def execAtomicOp (off size op a b : Nat) (s : State) : Host.Outcome State Fault Refusal :=
  settled (
    if !s.hostServes then s
    else
      match hostAtop op with
      | none => s.bar2NoRead
      | some t =>
        if s.bar2Refused off size ∨ (size ≠ 4 ∧ size ≠ 8) ∨ off % size ≠ 0 then s.bar2NoRead
        else
          let opd := if op = 2 then b else a
          let pay := leBytes 8 (opd % 2 ^ (8 * size)) ++ leBytes 8 (if op = 2 then a % 2 ^ (8 * size) else 0)
          s.hostBegin false true (s.bar2Addr off) size (fun tag =>
            [hostPool tag opAT 3 (s.bar2Addr off) (if size = 4 then 2 else 3) [(20, 4, t), (19, 1, 1)] pay]))

/-- Does a request belong to a BAR2 request, any or that of a tag. -/
def Origin.isHost : Origin → Bool
  | .host _ => true
  | _ => false

/-- BAR2_TIMEOUT (R475): the BAR2 request ends with TIMEOUT, and its unanswered pool requests are cancelled at their
homes. -/
def execBar2Timeout (tag : Nat) (s : State) : Host.Outcome State Fault Refusal :=
  settled (
    match s.host.reqs.find? (fun h => h.tag == tag) with
    | none => s
    | some h =>
      let d := s.dropHeld (fun r => r.org == .host tag)
      let worse := decide (hostRank h.worst < hostRank stTIMEOUT)
      (d.2.bump .POOL_CANCEL_COUNT 0 0 d.1).hostComplete
        { h with worst := if worse then stTIMEOUT else h.worst, worstAddr := if worse then h.addr else h.worstAddr })

/-! ### Resets of the host port (R470, R507) -/

/-- The host port is reset: the MSI-X table and its pending bits, and BAR2 requests not completed are discarded. -/
def State.hostPortReset (s : State) : State :=
  let s := (s.dropHeld (fun r => r.org.isHost)).2
  { s with host := { s.host with reqs := [], behind := [], msix := [], pba := [] } }

/-- FUNCTION_LEVEL_RESET (R470). -/
def execFunctionLevelReset (s : State) : Host.Outcome State Fault Refusal := settled s.hostPortReset

/-- PERST_N (R507). -/
def execPerstN (s : State) : Host.Outcome State Fault Refusal := settled s.hostPortReset

/-! ### DOE and SPDM (R476, R477)

An answer is the response's code and the content the spec gives it; the codes are those of DMTF and the PCI-SIG
(log entry 46). -/

/-- Answer a data object while the host port answers. -/
def State.doeAnswer (s : State) (code : Byte) (body : List Byte) : State :=
  if s.hostServes then s.emit (.doe (code :: body)) else s

/-- SPDM ERROR with an error code. -/
def State.spdmError (s : State) (code : Byte) : State := s.doeAnswer 0x7F [code, 0]

/-- DOE_DISCOVERY: the discovery protocol and CMA/SPDM, and none after them. -/
def execDoeDiscovery (idx : Nat) (s : State) : Host.Outcome State Fault Refusal :=
  settled (
    if idx = 0 then s.doeAnswer 0 [0x01, 0x00, 0x00, 0x01]
    else if idx = 1 then s.doeAnswer 0 [0x01, 0x00, 0x01, 0x00]
    else s.doeAnswer 0 [0xFF, 0xFF, 0xFF, 0x00])

/-- GET_VERSION: 1.3 only. -/
def execGetVersion (s : State) : Host.Outcome State Fault Refusal := settled (s.doeAnswer 0x04 [0x01, 0x00, 0x13])

/-- GET_CAPABILITIES: CERT_CAP, MEAS_CAP without signature, objects of up to 65,536 bytes. -/
def execGetCapabilities (s : State) : Host.Outcome State Fault Refusal :=
  settled (s.doeAnswer 0x61 (leBytes 4 0x0A ++ leBytes 4 65536))

/-- NEGOTIATE_ALGORITHMS: the base hash TPM_ALG_SHA3_512. -/
def execNegotiateAlgorithms (s : State) : Host.Outcome State Fault Refusal := settled (s.doeAnswer 0x63 (leBytes 4 0x20))

/-- Stavantesk's certificate chain in slot 0: `n` of its bytes. -/
def chainBytes (off n : Nat) : List Byte := (List.range n).map (fun i => Config.certByte 0 (off + i))

/-- GET_DIGESTS: the digest of slot 0's chain; other slots hold none. -/
def execGetDigests (s : State) : Host.Outcome State Fault Refusal :=
  settled (s.doeAnswer 0x01 (0x01 :: digest (chainBytes 0 Config.certLen)))

/-- GET_CERTIFICATE: part of slot 0's chain, with what remains after it; any other slot is an invalid request. -/
def execGetCertificate (slot off len : Nat) (s : State) : Host.Outcome State Fault Refusal :=
  settled (
    if slot ≠ 0 ∨ Config.certLen ≤ off then s.spdmError 0x01
    else
      let n := min (min len 65535) (Config.certLen - off)
      s.doeAnswer 0x02 (leBytes 2 n ++ leBytes 2 (Config.certLen - off - n) ++ chainBytes off n))

/-- The content of a measurement block, from one snapshot of the report's fields (Table 21.4). -/
def measContent (body : List Byte) (i : Nat) : List Byte :=
  if i = 1 then slice body 112 64
  else if i = 2 then slice body 176 64
  else if i = 3 then slice body 240 64
  else if i = 4 then slice body 304 64
  else if i = 5 then slice body 368 64
  else if i = 6 then slice body 0 16
  else slice body 36 12

/-- A block: index, form (bit 7 set for raw), size and content. -/
def measBlock (body : List Byte) (i : Nat) : List Byte :=
  let c := measContent body i
  leBytes 1 i ++ leBytes 1 (if 6 ≤ i then 0x80 else 0) ++ leBytes 2 c.length ++ c

/-- GET_MEASUREMENTS (R477): index 0 asks for the number of blocks, 0xFF for all of them. A request for a signature is
not supported. -/
def execGetMeasurements (idx : Nat) (sign : Bool) (s : State) : Host.Outcome State Fault Refusal :=
  settled (
    if sign then s.spdmError 0x07
    else if idx = 0 then s.doeAnswer 0x60 [7]
    else if idx = 0xFF then s.doeAnswer 0x60 (7 :: (List.range 7).flatMap (fun i => measBlock s.rptBody (i + 1)))
    else if idx ≤ 7 then s.doeAnswer 0x60 (1 :: measBlock s.rptBody idx)
    else s.spdmError 0x01)

/-- SPDM_UNSUPPORTED: every other request, named in the answer. -/
def execSpdmUnsupported (code : Nat) (s : State) : Host.Outcome State Fault Refusal :=
  settled (s.doeAnswer 0x7F [0x07, BitVec.ofNat 8 code])

/-! ### Partial reset (R482) -/

/-- Change the die of a running partial-reset command. -/
def State.prstBegin (s : State) (n : Nat) : State :=
  ({ s with busy := { s.busy with prstDie := n } }.wr .GLB_PRST_RES_BUSY 1).wr .GLB_PRST_RES_STATUS stOK

/-- Hold a die at once. -/
def State.prstHeld (s : State) (n : Nat) : State := (s.setHeld n true).prstEnd stOK

/-- The ports of a port die go DOWN uncounted and are flushed. -/
def State.portsStop (s : State) (n : Nat) : State :=
  (List.range 320).foldl (fun s p =>
    if s.pmode p ≠ 0 ∧ s.portDie p = n ∧ 1 ≤ s.lstate p ∧ s.lstate p ≤ 3 then s.downQuiet p else s) s

/-- HOLD of a die that is not held (Table 21.8). -/
def State.holdDie (s : State) (n : Nat) : State :=
  if n < 8 then
    if (List.range (s.rd .SWC_PLANE_STAT_N_ACTIVE)).any (fun h => s.planeIn h == n) then s.prstEnd stSTATE
    else
      let s := s.setHeld n true
      (s.wr .SWC_PLANE_STAT_SPARE_AVAIL (b2n s.sparePlane.isSome)).prstEnd stOK
  else if n < 44 then ((s.prstBegin n).portsStop n).prstFlushed
  else if n < 60 then s.prstEnd stREFUSED
  else if n < 96 then
    if [0, 4, 5].contains (s.role (n - 60)) then s.prstHeld n else s.prstEnd stSTATE
  else
    let c := n - 96
    if s.ctAlone c ∨ (c < 2 ∧ s.rcv.running.isSome) then s.prstEnd stSTATE else s.prstHeld n

/-- A write of HOLD (R478, R482). -/
def State.doHold (s : State) (n : Nat) : State :=
  if s.on .GLB_PRST_RES_BUSY then s
  else
    let s := s.wr .GLB_PRST_CMD_DIE n
    if !s.running then s.prstEnd stSTATE
    else if 100 ≤ n then s.prstEnd stREFUSED
    else if s.dieHeld n then s.prstEnd stOK
    else s.holdDie n

/-- HOLD (R482). -/
def execHold (die : Nat) (s : State) : Host.Outcome State Fault Refusal :=
  hostRow (.hold die) (fun s => s.doHold (die % 128)) s

/-- A write of RELEASE: the die's self-test begins. The spec does not say how many steps it has: TOT is a free value. -/
def State.doPrstRelease (s : State) (n : Nat) : State :=
  if s.on .GLB_PRST_RES_BUSY then s
  else
    let s := s.wr .GLB_PRST_CMD_DIE n
    if !s.running then s.prstEnd stSTATE
    else if 100 ≤ n then s.prstEnd stREFUSED
    else if !s.dieHeld n then s.prstEnd stOK
    else
      let f := s.free
      ((f.2.prstBegin n).wr .GLB_PRST_POS_POS 0).wr .GLB_PRST_TOT_TOTAL f.1

/-- RELEASE (R482). -/
def execPrstRelease (die : Nat) (s : State) : Host.Outcome State Fault Refusal :=
  hostRow (.prstRelease die) (fun s => s.doPrstRelease (die % 128)) s

/-- A released RGF die is SPARE with score 0, its scratchpad cleared, and the repair map records it. -/
def State.freshSpare (s : State) (d : Nat) : State :=
  (((s.setScan d Scan.init).wr .SCN_DIE_SCORE_SCORE 0 d).setRole d 0).rmap 0x04 d

/-- What a die that passed its self-test becomes (Table 21.8; Table 24.3, row 24). -/
def State.releasePass (s : State) (n : Nat) : State :=
  if n < 8 then
    let s := s.wr .SWC_PLANE_STAT_FAILED (setBit (s.rd .SWC_PLANE_STAT_FAILED) n false)
    s.wr .SWC_PLANE_STAT_SPARE_AVAIL (b2n s.sparePlane.isSome)
  else if n < 44 then
    (List.range 320).foldl (fun s p =>
      if s.portDie p == n && s.mayTrain p && s.lstate p == 0 then s.setLstate p 1 else s) s
  else if 60 ≤ n ∧ n < 96 then (s.freshSpare (n - 60)).lateScans
  else s

/-- PRST_SELF_TEST_END (R482). -/
def execPrstSelfTestEnd (pass : Bool) (s : State) : Host.Outcome State Fault Refusal :=
  settled (
    let n := s.busy.prstDie
    if !s.prstOn n || !s.dieHeld n then s
    else
      let s := (s.setHeld n false).wr .GLB_PRST_POS_POS (s.rd .GLB_PRST_TOT_TOTAL)
      if pass then (s.prstEnd stOK).releasePass n
      else (s.prstEnd stPOISON).selfTestFail (dieFault n).1 (dieFault n).2)

/-! ### I3C (R483) -/

/-- Is the target served: in every state but OFF and reset. -/
def State.i3cServes (s : State) : Bool := !s.power.inReset && !s.power.offState && s.power.vstby

/-- Is a BAR0 word one the target reads: the first six blocks, with the bundle window; in DSLEEP four registers. -/
def State.i3cReads (s : State) (o : Nat) : Bool :=
  if s.rd .PWR_STAT_STATE = 3 then [0x0, 0x4, 0x8, 0xC, 0x20004].contains o else decide (o < 0x1000000)

/-- I3C_WRITE: the first four bytes are the offset; four more, to EVT_BUNDLE_CMD, are the one write accepted. -/
def execI3cWrite (bytes : List Byte) (s : State) : Host.Outcome State Fault Refusal :=
  settled (
    if !s.i3cServes ∨ bytes.length < 4 then s
    else
      let o := leAt bytes 0 4
      let s := { s with host := { s.host with i3cOff := o } }
      if o = 0x58300 ∧ bytes.length = 8 ∧ s.rd .PWR_STAT_STATE ≠ 3 ∧ (leAt bytes 4 4).testBit 0 then s.doBuild else s)

/-- Read `n` words from an offset, each as a 4-byte read of BAR0. -/
def State.i3cWords (s : State) (o : Nat) : Nat → List Byte × State
  | 0 => ([], s)
  | n + 1 =>
    let r := if s.i3cReads o then s.read4 o else (0, s)
    let t := State.i3cWords r.2 (o + 4) n
    (leBytes 4 r.1 ++ t.1, t.2)

/-- I3C_READ: up to 256 bytes from the offset written; from an offset that is not a word's, no data. -/
def execI3cRead (len : Nat) (s : State) : Host.Outcome State Fault Refusal :=
  settled (
    if !s.i3cServes then s
    else if s.host.i3cOff % 4 ≠ 0 then s.emit (.i3c [])
    else
      let n := min len 256
      let r := s.i3cWords s.host.i3cOff ((n + 3) / 4)
      r.2.emit (.i3c (r.1.take n)))

/-- A dynamic address is assigned to a target that has none. -/
def State.i3cAssign (s : State) (addr : Nat) : State :=
  if s.i3cServes ∧ s.rd .GLB_I3C_STAT_DYNADDR = 0 then s.wr .GLB_I3C_STAT_DYNADDR addr else s

/-- SETDASA. -/
def execSetdasa (addr : Nat) (s : State) : Host.Outcome State Fault Refusal := settled (s.i3cAssign addr)

/-- ENTDAA. -/
def execEntdaa (addr : Nat) (s : State) : Host.Outcome State Fault Refusal := settled (s.i3cAssign addr)

end Sys2Proof.Machine
end

