-- ==== Sys2Proof/Machine/Flags.lean ====
section
/-! DEFINITION. The pins the device drives from its state: STBY_OK, FAULT_N, THERM_N and, in Ops.lean, ALERT_N
(R383, R481, R506, R510). The block has no arithmetic flags. -/

namespace Sys2Proof.Machine

/-! ### Pins the device drives -/

/-- STBY_OK is high while the standby logic runs (R506). -/
def State.stbyOk (s : State) : Bool := s.power.vstby

/-- FAULT_N is driven low in containment, at HALT, and by a thermal trip (R383, R441, R512). -/
def State.faultLow (s : State) : Bool := s.contained || s.on .BOOT_STAT_HALT || s.power.trips

/-- THERM_N is driven low at level 1 and above, and by a thermal trip (R510, R512). -/
def State.thermLow (s : State) : Bool := s.rd .PWR_THERM_STAT_LEVEL != 0 || s.power.trips

/-- Is RESET_N itself low: the device is in reset, not for a release held back nor for a trip. -/
def State.resetLow (s : State) : Bool := s.power.inReset && !s.power.relHeld && !s.power.trips

end Sys2Proof.Machine
end

