-- ==== Sys2Proof/Machine/PackageRows.lean ====
section
/-! DEFINITION. The package: supplies and reset pins (R506 to R508), temperature and power limit (R510 to R512), and
boundary scan (R513). -/

namespace Sys2Proof.Machine

/-! ### Supplies and RESET_N -/

/-- VSTBY_UP (R506): the standby logic starts with RESET_N and PG_IN low, and TRIP is 0. -/
def execVstbyUp (s : State) : Host.Outcome State Fault Refusal :=
  settled (
    if s.power.vstby then s
    else
      let r := s.toReset.wr .PWR_THERM_STAT_TRIP 0
      r.setPower { r.power with vstby := true, pgIn := false, rails := false, trips := false })

/-- VSTBY_LOSS (R506): STBY_OK falls, and nothing but flash and fuses is kept. -/
def execVstbyLoss (s : State) : Host.Outcome State Fault Refusal :=
  settled (
    let r := s.toReset.wr .PWR_THERM_STAT_TRIP 0
    { (r.setPower { r.power with vstby := false, pgIn := false, rails := false, trips := false }) with
      tap := { instr := 0x01, boundary := 0, driving := false } })

/-- PG_IN_HIGH (R506, R508): the rails come up, except after a trip; a release of RESET_N held back and a wake from OFF
go on. In OFF without a wake PG_IN is ignored. -/
def execPgInHigh (s : State) : Host.Outcome State Fault Refusal :=
  settled (
    if !s.power.vstby ∨ s.power.pgIn then s
    else if s.power.offState ∧ !s.power.offWake then s.setPower { s.power with pgIn := true }
    else
      let s := s.setPower { s.power with pgIn := true, rails := !s.power.trips }
      if s.power.rails ∧ (s.power.relHeld ∨ s.power.offWake) then s.startUp else s)

/-- PG_IN_LOW (R508): a low of `ns`; 1 µs or longer is a power failure, but in OFF it is ignored. -/
def execPgInLow (ns : Nat) (s : State) : Host.Outcome State Fault Refusal :=
  settled (
    if ns < 1000 ∨ !s.power.vstby then s
    else if s.power.offState then s.setPower { s.power with pgIn := false }
    else
      let held := s.power.relHeld || !s.power.inReset
      let r := s.toReset
      r.setPower { r.power with pgIn := false, rails := false, relHeld := held })

/-- A RESET_N low that is taken: the whole device is reset; a trip ends, and OFF (R412, R445, R459, R512). -/
def State.resetTaken (s : State) : State :=
  let r := s.toReset
  r.setPower { r.power with rails := r.power.pgIn, trips := false }

/-- RESET_N (R507): a low of `ns`; between 1 µs and 10 µs the free value says whether it is taken. -/
def execResetN (ns : Nat) (s : State) : Host.Outcome State Fault Refusal :=
  settled (
    if !s.power.vstby ∨ ns < 1000 then s
    else if 10000 ≤ ns then s.resetTaken
    else
      let f := s.free
      if f.1 % 2 = 0 then f.2 else f.2.resetTaken)

/-! ### Temperature and power -/

/-- A thermal trip (R512): a reset, every rail off, until RESET_N is next taken low. -/
def State.trip (s : State) : State :=
  let r := s.toReset.wr .PWR_THERM_STAT_TRIP 1
  r.setPower { r.power with rails := false, trips := true }

/-- THERMAL_SAMPLE (R510, R512): the temperature of each logic die, by die number. -/
def execThermalSample (temps : List Nat) (s : State) : Host.Outcome State Fault Refusal :=
  settled (
    if !s.power.vstby ∨ !s.power.rails ∨ s.power.inReset ∨ temps = [] then s
    else
      let t := temps.foldl max 0
      if 115 ≤ t then s.trip
      else
        let s := (s.wr .PWR_THERM_STAT_TMAX t).wr .PWR_THERM_STAT_HOTDIE (temps.idxOf t)
        let lv := if s.rd .PWR_THERM_CFG_T2 ≤ t then 2 else if s.rd .PWR_THERM_CFG_T1 ≤ t then 1 else 0
        if s.rd .PWR_THERM_STAT_LEVEL < lv then s.wr .PWR_THERM_STAT_LEVEL lv else s)

/-- THERMAL_LEVEL_EXIT (R510): the hottest reading has stayed below the threshold less 5 °C for 1 ms. -/
def execThermalLevelExit (s : State) : Host.Outcome State Fault Refusal :=
  settled (
    let lv := s.rd .PWR_THERM_STAT_LEVEL
    let t := s.rd .PWR_THERM_STAT_TMAX
    if lv = 2 ∧ t + 5 < s.rd .PWR_THERM_CFG_T2 then s.wr .PWR_THERM_STAT_LEVEL 1
    else if lv = 1 ∧ t + 5 < s.rd .PWR_THERM_CFG_T1 then
      { s.wr .PWR_THERM_STAT_LEVEL 0 with tel := { s.tel with thrTemp := true } }
    else s)

/-- POWER_LIMIT (R511): the epoch in which the throttle ends is one in which it was active. -/
def execPowerLimit (above : Bool) (s : State) : Host.Outcome State Fault Refusal :=
  settled (
    if s.power.inReset ∨ s.power.offState ∨ !s.power.rails then s
    else
      { s.wr .PWR_THERM_STAT_LIMIT (b2n above) with
        tel := { s.tel with thrLim := s.tel.thrLim || s.on .PWR_THERM_STAT_LIMIT } })

/-! ### Boundary scan (R513) -/

/-- Change the TAP, which runs whenever VSTBY is in range. -/
def State.withTap (s : State) (t : Tap) : State := if s.power.vstby then { s with tap := t } else s

/-- An instruction that drives the pins, while RESET_N is low; at any other time it acts as BYPASS. -/
def State.tapDrive (s : State) (opc : Nat) : State :=
  if s.resetLow then s.withTap { s.tap with instr := opc, driving := true } else s.withTap { s.tap with instr := 0xFF }

/-- What IDCODE shows: bits 31:28 carry the stepping digit. -/
def State.idcodeValue (s : State) : Nat := s.boot.fuses.stepping % 16 * 2 ^ 28 + 0x092006B7

/-- TAP_RESET. -/
def execTapReset (s : State) : Host.Outcome State Fault Refusal :=
  settled (s.withTap { s.tap with instr := 0x01, driving := false })

/-- EXTEST. -/
def execExtest (s : State) : Host.Outcome State Fault Refusal := settled (s.tapDrive 0x00)

/-- IDCODE. -/
def execIdcode (s : State) : Host.Outcome State Fault Refusal :=
  settled (if s.power.vstby then (s.withTap { s.tap with instr := 0x01 }).emit (.tdo s.idcodeValue) else s)

/-- SAMPLE/PRELOAD. -/
def execSamplePreload (v : Nat) (s : State) : Host.Outcome State Fault Refusal :=
  settled (s.withTap { s.tap with instr := 0x02, boundary := v })

/-- CLAMP. -/
def execClamp (s : State) : Host.Outcome State Fault Refusal := settled (s.tapDrive 0x04)

/-- HIGHZ. -/
def execHighz (s : State) : Host.Outcome State Fault Refusal := settled (s.tapDrive 0x05)

/-- EXTEST_PULSE. -/
def execExtestPulse (s : State) : Host.Outcome State Fault Refusal := settled (s.tapDrive 0x08)

/-- EXTEST_TRAIN. -/
def execExtestTrain (s : State) : Host.Outcome State Fault Refusal := settled (s.tapDrive 0x09)

/-- BYPASS, and every opcode that names no other instruction. -/
def execBypass (opcode : Nat) (s : State) : Host.Outcome State Fault Refusal :=
  settled (
    if [0x00, 0x01, 0x02, 0x04, 0x05, 0x08, 0x09].contains (opcode % 256) then s else s.withTap { s.tap with instr := 0xFF })

end Sys2Proof.Machine
end

