-- ==== Sys2Proof/Machine/RegRows.lean ====
section
/-! DEFINITION. Reads and writes of BAR0 (R11, R471, R478), telemetry snapshots (R486, R487) and the persistent event
log (R491). -/

namespace Sys2Proof.Machine

/-! ### Telemetry -/

/-- Does an offset name a register whose fields are all RO or RC (R486). -/
def selectable (o : Nat) : Bool :=
  let l := slotsAt o
  !l.isEmpty && l.all (fun x => x.f.info.acc == .ro || x.f.info.acc == .rc)

/-- A write of TEL_SEL (R486). -/
def State.telSel (s : State) (n v : Nat) : State :=
  if 256 ≤ n then s
  else if selectable (v % 2 ^ 28) then (s.wr .TEL_SEL_OFFSET v n).wr .TEL_SEL_VALID (bits v 31 1) n
  else s.raiseBits .TEL_STAT_SEL_ERR 1

/-- TEL_SEL (R486). -/
def execTelSel (n v : Nat) (s : State) : Host.Outcome State Fault Refusal :=
  hostRow (.telSel n v) (fun s => s.telSel n v) s

/-- Is a snapshot due: at an epoch boundary whose count is a multiple of 2^PERIOD_LOG2, in RUN, and not yet taken (R487). -/
def State.snapDue (s : State) : Bool :=
  s.on .TEL_CTL_EN && s.clk.subtick == 0 && s.clk.cclk == 0 && s.epoch % 2 ^ s.rd .TEL_CTL_PERIOD_LOG2 == 0
    && s.rd .PWR_STAT_STATE == 0 && !s.power.inReset && !s.power.offState
    && !(s.rd .TEL_TS_TIME == s.now && s.rd .TEL_SEQ_COUNT != 0)

/-- The copies of the selected registers. -/
def State.snapCopy (s : State) : List (Nat × Nat) :=
  (List.range 256).foldl (fun (t : List (Nat × Nat)) n =>
    if s.on .TEL_SEL_VALID n then tset 0 t n (s.regVal (s.rd .TEL_SEL_OFFSET n)) else t) []

/-- SNAPSHOT (R487): the copies go to the inactive bank, and the banks are exchanged. -/
def execSnapshot (s : State) : Host.Outcome State Fault Refusal :=
  settled (
    if !s.snapDue then s
    else
      let c := s.snapCopy
      let b := s.rd .TEL_STAT_BANK
      let s := if b = 0 then { s with tel := { s.tel with snapB := c } } else { s with tel := { s.tel with snapA := c } }
      ((s.wr .TEL_STAT_BANK (1 - b)).advance .TEL_SEQ_COUNT).wr .TEL_TS_TIME s.now)

/-- FLASH_LOG_WRITE (R491): the oldest queued record takes the next slot in cyclic order. -/
def execFlashLogWrite (s : State) : Host.Outcome State Fault Refusal :=
  settled (
    match s.tel.flashq with
    | [] => s
    | r :: q =>
      if s.power.inReset ∨ s.power.offState then s
      else
        let s := s.flashRecord flEvents 64 (s.tel.flogNext % 16384) r
        let s := { s with tel := { s.tel with flashq := q, flogNext := s.tel.flogNext % 16384 + 1 } }
        s.wr .EVT_FLOG_IDX_NEXT (leAt r 40 4 + 1))

/-! ### Command registers (R478) -/

/-- Offsets of the command registers of Table 21.5. -/
def cmdOffsets : List Nat :=
  [0x300, 0x10100, 0x20000, 0x3000C, 0x30120, 0x30204, 0x58014, 0x58208, 0x58300, 0x3000000, 0x4000030, 0x4002000, 0x5000008,
    0x5003014, 0x600002C, 0x6000010, 0x9000040]

/-- Commands the boot ROM serves: in recovery boot attestation and firmware (R440), at HALT attestation and the return
bundle (R441); OFF is never refused (R451), and BUILD is accepted in every state that the host port serves (R392). -/
def State.romServes (s : State) (o : Nat) : Bool :=
  if s.on .BOOT_STAT_RECOVERY then [0x20000, 0x30120, 0x30204, 0x58300].contains o
  else if s.on .BOOT_STAT_HALT then [0x20000, 0x30120, 0x58300].contains o
  else true

/-- Is the command register at an offset BUSY, so that a write is ignored whole. -/
def State.cmdHeld (s : State) (o v : Nat) : Bool :=
  if o = 0x300 then s.on .GLB_PRST_RES_BUSY
  else if o = 0x10100 then s.on .BOOT_CAL_STAT_BUSY
  else if o = 0x30204 then s.on .SEC_FW_STAT_BUSY
  else if o = 0x4000030 then s.on .POOL_EXT_RES_BUSY
  else if o = 0x4002000 then s.on .POOL_RCMP_STAT_BUSY
  else if o = 0x5000008 then s.on .DIR_CG_RES_BUSY
  else if o = 0x5003014 then s.on .DIR_PUB_RES_BUSY
  else if o = 0x600002C ∨ (o = 0x6000010 ∧ v % 4 ≠ 0) then s.on .TIER_OBJ_RES_BUSY
  else if o = 0x9000040 then s.on .SCN_DIE_RES_BUSY
  else false

/-- CMD_IGN of the registers that have one. -/
def State.cmdIgn (s : State) (o : Nat) : State :=
  if o = 0x10100 then s.raiseBits .BOOT_CAL_STAT_CMD_IGN 1
  else if o = 0x30204 then s.raiseBits .SEC_FW_STAT_CMD_IGN 1
  else s

/-- The tenancy, firmware and calibration commands; a reserved operation ends with REFUSED. The trained settings that a
CAPTURE reads are free values. -/
def State.cmdBoot (s : State) (o op : Nat) : State :=
  if o = 0x3000C then (if op = 1 then s.doAssign else if op = 2 then s.doTeardown else s.tenEnd stREFUSED)
  else if o = 0x30204 then
    if op = 1 then s.doBegin else if op = 2 then s.doChunk else if op = 3 then s.doFinish else if op = 4 then s.doFwCancel
    else if op = 5 then s.doRaise else s.fwEnd stREFUSED
  else
    if op = 1 then s.doCalBegin else if op = 2 then s.doCalChunk else if op = 3 then s.doCalCommit
    else if op = 4 then
      let f := s.free
      f.2.doCapture (leBytes 140928 f.1)
    else s.calEnd stREFUSED

/-- The commands of the pool, the groups and the regions. -/
def State.cmdPool (s : State) (o op v : Nat) : State :=
  if o = 0x4000030 then
    let i := bits v 16 12
    if op = 1 then s.doCreate else if op = 2 then s.doDelete i else if op = 3 then s.doSetAttr i else if op = 4 then s.doExtRead i
    else if op = 5 then s.doSetOwner i else s.extEnd stREFUSED
  else if o = 0x5000008 then
    if op = 1 then s.doForm else if op = 2 then s.doAdd else if op = 3 then s.doRemove else if op = 4 then s.doReform
    else if op = 5 then s.doDisband else s.cgEnd stREFUSED
  else
    let i := bits v 16 10
    if op = 1 then s.doRegionCreate else if op = 2 then s.doRegionDelete i else if op = 3 then s.doRegionRead i
    else s.pubCmdEnd stREFUSED

/-- The commands of objects and of dies. -/
def State.cmdUnit (s : State) (o op v : Nat) : State :=
  if o = 0x600002C then
    let i := bits v 16 10
    if op = 1 then s.doDefine else if op = 2 then s.doPlaceOasis i else if op = 3 then s.doPlaceErg i
    else if op = 4 then s.doObjDelete i else if op = 5 then s.doObjRead i else s.objEnd stREFUSED
  else
    let d := bits v 16 6
    if op = 1 then s.doObserve d else if op = 2 then s.doRelease d else if op = 3 then s.doRetire d else if op = 4 then s.doPair d
    else if op = 5 then s.doScanNow d else s.scnEnd stREFUSED

/-- What a write of a command register does (Table 21.5). Of ENTER and CLEAR together, ENTER acts (log entry 47). -/
def State.cmdAct (s : State) (o v : Nat) : State :=
  let op := v % 16
  if o = 0x300 then
    if v % 4 = 1 then s.doHold (bits v 16 7) else if v % 4 = 2 then s.doPrstRelease (bits v 16 7) else s.prstEnd stREFUSED
  else if o = 0x20000 then s.pwrCmd (v % 8)
  else if o = 0x3000C ∨ o = 0x30204 ∨ o = 0x10100 then s.cmdBoot o op
  else if o = 0x30120 then (if bit v 0 then s.doGen else s)
  else if o = 0x58014 then (if bit v 0 then s.doEnter else if bit v 1 then s.doClear s.standing else s)
  else if o = 0x58208 then (if bit v 0 then s.doClr else s)
  else if o = 0x58300 then (if bit v 0 then s.doBuild else s)
  else if o = 0x3000000 then (if bit v 0 then s.wr .TM_STAT_APPLY_PEND 1 else s)
  else if o = 0x4000030 ∨ o = 0x5000008 ∨ o = 0x5003014 then s.cmdPool o op v
  else if o = 0x4002000 then (if bit v 0 then s.doApply (bit v 1) else s)
  else if o = 0x6000010 then (if v % 4 = 0 then s.stopSchedule else s.doSchedule (v % 4))
  else s.cmdUnit o op v

/-! ### Writes (R11, R471) -/

/-- A write to one of a port's two control registers, or to a channel's registers. -/
def State.portAct (s : State) (p v : Nat) : State :=
  let s := s.portEnable p (bit v 0)
  let s := if bit v 4 then s.hostRetrain p else s
  if bit v 8 then s.clrPark p else s

/-- A masked write of the register at an offset, and what it triggers. -/
def State.writeReg (s : State) (o v m : Nat) : State :=
  if cmdOffsets.contains o then
    if !s.romServes o then s
    else if s.cmdHeld o v then s.cmdIgn o
    else (s.putFields o v m).cmdAct o v
  else if o = 0xA000000 then s.mirrCtl v
  else if o = 0x4000018 then s.setSusp (v % 2 ^ 32) false
  else if within o 0x40400 0x400 then s.telSel ((o - 0x40400) / 4) v
  else if within o 0x1000000 0x140000 && o % 0x1000 == 0 then (s.putFields o v m).portAct ((o - 0x1000000) / 0x1000) v
  else if within o 0x1000000 0x140000 && o % 0x1000 == 0x400 then
    let p := (o - 0x1000000) / 0x1000
    let old := s.on .PRT_PFTL_CTL_DISC_EN p
    let s := s.putFields o v m
    let s := if s.on .PRT_PFTL_CTL_DISC_EN p = old then s else s.discFollow p
    if bit v 1 then s.rebind p else s
  else if within o 0x8000000 0x4000 && o % 0x100 == 0 then
    (s.putFields o v m).carCommand ((o - 0x8000000) / 0x100) (bit v 0) (bit v 1) (bit v 2) false 0
  else if within o 0x8000000 0x4000 && o % 0x100 == 0x10 then
    let c := (o - 0x8000000) / 0x100
    let old := s.rd .CAR_DNEXT_ADDR c
    s.carDnext c (((old ^^^ (old &&& m)) ||| (v &&& m)) % 2 ^ 48)
  else s.putFields o v m

/-- A 4-byte write: a window, a register, or a half of a 64-bit register. -/
def State.write4 (s : State) (o v : Nat) : State :=
  let v := v % 2 ^ 32
  if (s.window o 4).isSome then s.putWindow o (leBytes 4 v)
  else if 4 ≤ o ∧ wide (o - 4) then s.writeReg (o - 4) (v * 2 ^ 32) (0xFFFFFFFF * 2 ^ 32)
  else s.writeReg o v 0xFFFFFFFF

/-- An 8-byte write: a window or a 64-bit register at once, any other as two writes, the lower half first. -/
def State.write8 (s : State) (o v : Nat) : State :=
  if (s.window o 8).isSome then s.putWindow o (leBytes 8 v)
  else if wide o then s.writeReg o (v % 2 ^ 64) (2 ^ 64 - 1)
  else (s.write4 o v).write4 (o + 4) (v / 2 ^ 32)

/-- A write of a BAR0 register (R11, R471): it takes effect once every earlier posted write is performed (R89). An access BAR0 does not
accept is discarded and reported by AER; a block not yet served ignores it (R444). -/
def State.hostWrite (s : State) (off size v : Nat) : State :=
  if !s.hostServes then s
  else if !accessOk off size then s.emit (.aer 2)
  else if !s.blockServed off then s
  else if size = 8 then s.write8 off v
  else s.write4 off v

/-- REGISTER_WRITE (R11, R89, R471). -/
def execRegisterWrite (off size v : Nat) (s : State) : Host.Outcome State Fault Refusal :=
  hostRow (.registerWrite off size v) (fun s => s.hostWrite off size v) s

/-- A read of a BAR0 register (R11, R471): it is answered once every earlier posted write is performed (R89); a block not yet served reads
zero (R444). -/
def State.hostRead (s : State) (off size : Nat) : State :=
  if !s.hostServes then s
  else if !accessOk off size then (s.emit (.unsupported off)).emit (.aer 2)
  else if !s.blockServed off then s.emit (.regData off size 0)
  else
    let r := s.readReg off size
    r.2.emit (.regData off size r.1)

/-- REGISTER_READ (R11, R89, R471). -/
def execRegisterRead (off size : Nat) (s : State) : Host.Outcome State Fault Refusal :=
  settled (s.inOrder true (.registerRead off size) (fun s => s.hostRead off size))

end Sys2Proof.Machine
end

