-- ==== Sys2Proof/Machine/Dispatch.lean ====
section
/-! DEFINITION. Which meaning each command has: one arm per row of the command table. -/

namespace Sys2Proof.Machine

def exec (i : Instr) (s : State) : Host.Outcome State Fault Refusal :=
  match i with
  | .protocolFlit p flit => Sys2Proof.Machine.execProtocolFlit p flit s
  | .idleFlit p flit => Sys2Proof.Machine.execIdleFlit p flit s
  | .nak p flit => Sys2Proof.Machine.execNak p flit s
  | .replayTimeout p => Sys2Proof.Machine.execReplayTimeout p s
  | .nakRepeat p => Sys2Proof.Machine.execNakRepeat p s
  | .ackDeadline p => Sys2Proof.Machine.execAckDeadline p s
  | .hello p rec => Sys2Proof.Machine.execHello p rec s
  | .credits p rec => Sys2Proof.Machine.execCredits p rec s
  | .discRepeat p => Sys2Proof.Machine.execDiscRepeat p s
  | .discoveryLimit p => Sys2Proof.Machine.execDiscoveryLimit p s
  | .rd p m => Sys2Proof.Machine.execRd p m s
  | .rdx p m => Sys2Proof.Machine.execRdx p m s
  | .upg p m => Sys2Proof.Machine.execUpg p m s
  | .wb p m => Sys2Proof.Machine.execWb p m s
  | .wbc p m => Sys2Proof.Machine.execWbc p m s
  | .nrd p m => Sys2Proof.Machine.execNrd p m s
  | .nwr p m => Sys2Proof.Machine.execNwr p m s
  | .ld p m => Sys2Proof.Machine.execLd p m s
  | .st p m => Sys2Proof.Machine.execSt p m s
  | .stRel p m => Sys2Proof.Machine.execStRel p m s
  | .at_ p m => Sys2Proof.Machine.execAt p m s
  | .inv p m => Sys2Proof.Machine.execInv p m s
  | .pub p m => Sys2Proof.Machine.execPub p m s
  | .subs p m => Sys2Proof.Machine.execSubs p m s
  | .msg p m => Sys2Proof.Machine.execMsg p m s
  | .hack p m => Sys2Proof.Machine.execHack p m s
  | .data p m => Sys2Proof.Machine.execData p m s
  | .cmp p m => Sys2Proof.Machine.execCmp p m s
  | .leaseWordStore p m => Sys2Proof.Machine.execLeaseWordStore p m s
  | .fenceWordStore p m => Sys2Proof.Machine.execFenceWordStore p m s
  | .rxaBaseStore p m => Sys2Proof.Machine.execRxaBaseStore p m s
  | .rxaBaseApply id => Sys2Proof.Machine.execRxaBaseApply id s
  | .rxaTailStore p m => Sys2Proof.Machine.execRxaTailStore p m s
  | .receiveAreaPost id => Sys2Proof.Machine.execReceiveAreaPost id s
  | .loadTimeout p seq => Sys2Proof.Machine.execLoadTimeout p seq s
  | .cancel p seq => Sys2Proof.Machine.execCancel p seq s
  | .cancelConfirm p seq => Sys2Proof.Machine.execCancelConfirm p seq s
  | .seqGapClose p => Sys2Proof.Machine.execSeqGapClose p s
  | .performedReport p seq => Sys2Proof.Machine.execPerformedReport p seq s
  | .frontierUpdate k p => Sys2Proof.Machine.execFrontierUpdate k p s
  | .trayTmo p seq => Sys2Proof.Machine.execTrayTmo p seq s
  | .trayWriteBack line => Sys2Proof.Machine.execTrayWriteBack line s
  | .xsnArrival o d x => Sys2Proof.Machine.execXsnArrival o d x s
  | .reorderGapTimeout o d => Sys2Proof.Machine.execReorderGapTimeout o d s
  | .acknowledge n => Sys2Proof.Machine.execAcknowledge n s
  | .lineEntryClose line => Sys2Proof.Machine.execLineEntryClose line s
  | .atomicGroupApply addr => Sys2Proof.Machine.execAtomicGroupApply addr s
  | .mergeWindowClose line => Sys2Proof.Machine.execMergeWindowClose line s
  | .select q => Sys2Proof.Machine.execSelect q s
  | .linkLoss p => Sys2Proof.Machine.execLinkLoss p s
  | .flushComplete p => Sys2Proof.Machine.execFlushComplete p s
  | .rebind p => Sys2Proof.Machine.execRebind p s
  | .prtCtlEn p en => Sys2Proof.Machine.execPrtCtlEn p en s
  | .planeFault n => Sys2Proof.Machine.execPlaneFault n s
  | .spareInService => Sys2Proof.Machine.execSpareInService s
  | .planeReduce => Sys2Proof.Machine.execPlaneReduce s
  | .mirrorRecordPerformed => Sys2Proof.Machine.execMirrorRecordPerformed s
  | .mirrCtl v => Sys2Proof.Machine.execMirrCtl v s
  | .subtick => Sys2Proof.Machine.execSubtick s
  | .tmApply => Sys2Proof.Machine.execTmApply s
  | .signalDetect p => Sys2Proof.Machine.execSignalDetect p s
  | .trainingComplete p => Sys2Proof.Machine.execTrainingComplete p s
  | .laneLoss p lane => Sys2Proof.Machine.execLaneLoss p lane s
  | .fecLimit p => Sys2Proof.Machine.execFecLimit p s
  | .retrain p => Sys2Proof.Machine.execRetrain p s
  | .retrainAttemptEnd p ok bad => Sys2Proof.Machine.execRetrainAttemptEnd p ok bad s
  | .loopbackEnd p pass => Sys2Proof.Machine.execLoopbackEnd p pass s
  | .repairRetrainEnd p ok => Sys2Proof.Machine.execRepairRetrainEnd p ok s
  | .holdExpiry p => Sys2Proof.Machine.execHoldExpiry p s
  | .clrPark p => Sys2Proof.Machine.execClrPark p s
  | .frame p bytes => Sys2Proof.Machine.execFrame p bytes s
  | .xoffRepeat p pcp => Sys2Proof.Machine.execXoffRepeat p pcp s
  | .pfcFrame p mask times => Sys2Proof.Machine.execPfcFrame p mask times s
  | .pfcPauseExpiry p pcp => Sys2Proof.Machine.execPfcPauseExpiry p pcp s
  | .pfcWatchdog p pcp => Sys2Proof.Machine.execPfcWatchdog p pcp s
  | .extentCreate => Sys2Proof.Machine.execExtentCreate s
  | .extentActive => Sys2Proof.Machine.execExtentActive s
  | .extentDelete idx => Sys2Proof.Machine.execExtentDelete idx s
  | .setAttr idx => Sys2Proof.Machine.execSetAttr idx s
  | .ergcRewriteEnd => Sys2Proof.Machine.execErgcRewriteEnd s
  | .extentRead idx => Sys2Proof.Machine.execExtentRead idx s
  | .setOwner idx => Sys2Proof.Machine.execSetOwner idx s
  | .reclaimFillEnd idx => Sys2Proof.Machine.execReclaimFillEnd idx s
  | .leaseExpiry id => Sys2Proof.Machine.execLeaseExpiry id s
  | .scrubRead k => Sys2Proof.Machine.execScrubRead k s
  | .poolSuspClr page => Sys2Proof.Machine.execPoolSuspClr page s
  | .migrationComplete page => Sys2Proof.Machine.execMigrationComplete page s
  | .ergcPromoteRetry page => Sys2Proof.Machine.execErgcPromoteRetry page s
  | .heatDecay => Sys2Proof.Machine.execHeatDecay s
  | .define => Sys2Proof.Machine.execDefine s
  | .placeOasis idx => Sys2Proof.Machine.execPlaceOasis idx s
  | .placeErg idx => Sys2Proof.Machine.execPlaceErg idx s
  | .objectDelete idx => Sys2Proof.Machine.execObjectDelete idx s
  | .objectRead idx => Sys2Proof.Machine.execObjectRead idx s
  | .scheduleRun phase => Sys2Proof.Machine.execScheduleRun phase s
  | .scheduleStop => Sys2Proof.Machine.execScheduleStop s
  | .form => Sys2Proof.Machine.execForm s
  | .add => Sys2Proof.Machine.execAdd s
  | .remove => Sys2Proof.Machine.execRemove s
  | .reform => Sys2Proof.Machine.execReform s
  | .disband => Sys2Proof.Machine.execDisband s
  | .groupWalkEnd => Sys2Proof.Machine.execGroupWalkEnd s
  | .faultWalkEnd g => Sys2Proof.Machine.execFaultWalkEnd g s
  | .snoopTimeout line id => Sys2Proof.Machine.execSnoopTimeout line id s
  | .sharerWalkEnd id => Sys2Proof.Machine.execSharerWalkEnd id s
  | .regionCreate => Sys2Proof.Machine.execRegionCreate s
  | .regionDelete idx => Sys2Proof.Machine.execRegionDelete idx s
  | .regionRead idx => Sys2Proof.Machine.execRegionRead idx s
  | .versionCommit idx => Sys2Proof.Machine.execVersionCommit idx s
  | .reduce p m => Sys2Proof.Machine.execReduce p m s
  | .gather p m => Sys2Proof.Machine.execGather p m s
  | .filter p m => Sys2Proof.Machine.execFilter p m s
  | .matmul p m => Sys2Proof.Machine.execMatmul p m s
  | .expand p m => Sys2Proof.Machine.execExpand p m s
  | .compress p m => Sys2Proof.Machine.execCompress p m s
  | .ownerOf p m => Sys2Proof.Machine.execOwnerOf p m s
  | .xferOwner p m => Sys2Proof.Machine.execXferOwner p m s
  | .fill p m => Sys2Proof.Machine.execFill p m s
  | .copy p m => Sys2Proof.Machine.execCopy p m s
  | .compare p m => Sys2Proof.Machine.execCompare p m s
  | .mreduce p m res => Sys2Proof.Machine.execMreduce p m res s
  | .abortWord p m => Sys2Proof.Machine.execAbortWord p m s
  | .launchQueuePlace => Sys2Proof.Machine.execLaunchQueuePlace s
  | .partStart d res pm => Sys2Proof.Machine.execPartStart d res pm s
  | .partEnd d => Sys2Proof.Machine.execPartEnd d s
  | .completionRecord id slot => Sys2Proof.Machine.execCompletionRecord id slot s
  | .operationTimeout id slot => Sys2Proof.Machine.execOperationTimeout id slot s
  | .contribution p m res => Sys2Proof.Machine.execContribution p m res s
  | .accumulatorGrant tag chunk => Sys2Proof.Machine.execAccumulatorGrant tag chunk s
  | .chunkEmitted tag chunk => Sys2Proof.Machine.execChunkEmitted tag chunk s
  | .scanDue d => Sys2Proof.Machine.execScanDue d s
  | .earlyScan d => Sys2Proof.Machine.execEarlyScan d s
  | .scanStart d => Sys2Proof.Machine.execScanStart d s
  | .verdict d dig chk => Sys2Proof.Machine.execVerdict d dig chk s
  | .arbitration d dig => Sys2Proof.Machine.execArbitration d dig s
  | .scoreDecay => Sys2Proof.Machine.execScoreDecay s
  | .observe d => Sys2Proof.Machine.execObserve d s
  | .release d => Sys2Proof.Machine.execRelease d s
  | .retire d => Sys2Proof.Machine.execRetire d s
  | .pair d => Sys2Proof.Machine.execPair d s
  | .scanNow d => Sys2Proof.Machine.execScanNow d s
  | .adderScanDue k => Sys2Proof.Machine.execAdderScanDue k s
  | .adderVerdict k dig chk arb => Sys2Proof.Machine.execAdderVerdict k dig chk arb s
  | .dieLinkError a b => Sys2Proof.Machine.execDieLinkError a b s
  | .dieLinkFail a b => Sys2Proof.Machine.execDieLinkFail a b s
  | .rgfHard d => Sys2Proof.Machine.execRgfHard d s
  | .stackFail n => Sys2Proof.Machine.execStackFail n s
  | .pdFail d => Sys2Proof.Machine.execPdFail d s
  | .mcFail k => Sys2Proof.Machine.execMcFail k s
  | .dirMismatch k => Sys2Proof.Machine.execDirMismatch k s
  | .sequencerStep ok => Sys2Proof.Machine.execSequencerStep ok s
  | .substituteRetry page => Sys2Proof.Machine.execSubstituteRetry page s
  | .lockstepMismatch pair => Sys2Proof.Machine.execLockstepMismatch pair s
  | .controlSelfTestEnd pair lowOk highOk => Sys2Proof.Machine.execControlSelfTestEnd pair lowOk highOk s
  | .enter => Sys2Proof.Machine.execEnter s
  | .clear standing => Sys2Proof.Machine.execClear standing s
  | .clr => Sys2Proof.Machine.execClr s
  | .build => Sys2Proof.Machine.execBuild s
  | .bundleComplete => Sys2Proof.Machine.execBundleComplete s
  | .healthRecord => Sys2Proof.Machine.execHealthRecord s
  | .apply => Sys2Proof.Machine.execApply s
  | .evict => Sys2Proof.Machine.execEvict s
  | .assign => Sys2Proof.Machine.execAssign s
  | .teardown => Sys2Proof.Machine.execTeardown s
  | .teardownDrainEnd => Sys2Proof.Machine.execTeardownDrainEnd s
  | .teardownLimit => Sys2Proof.Machine.execTeardownLimit s
  | .teardownScrubEnd => Sys2Proof.Machine.execTeardownScrubEnd s
  | .trayWritten t => Sys2Proof.Machine.execTrayWritten t s
  | .gen => Sys2Proof.Machine.execGen s
  | .reportSigned => Sys2Proof.Machine.execReportSigned s
  | .begin => Sys2Proof.Machine.execBegin s
  | .chunk => Sys2Proof.Machine.execChunk s
  | .finish => Sys2Proof.Machine.execFinish s
  | .raiseSvn => Sys2Proof.Machine.execRaiseSvn s
  | .resetNRelease => Sys2Proof.Machine.execResetNRelease s
  | .startupStepEnd step ok failed => Sys2Proof.Machine.execStartupStepEnd step ok failed s
  | .calBegin => Sys2Proof.Machine.execCalBegin s
  | .calChunk => Sys2Proof.Machine.execCalChunk s
  | .calCommit => Sys2Proof.Machine.execCalCommit s
  | .capture trained => Sys2Proof.Machine.execCapture trained s
  | .run => Sys2Proof.Machine.execRun s
  | .idle => Sys2Proof.Machine.execIdle s
  | .sleep => Sys2Proof.Machine.execSleep s
  | .dsleep => Sys2Proof.Machine.execDsleep s
  | .off => Sys2Proof.Machine.execOff s
  | .pmeTurnOff => Sys2Proof.Machine.execPmeTurnOff s
  | .entryComplete => Sys2Proof.Machine.execEntryComplete s
  | .wakeN ns => Sys2Proof.Machine.execWakeN ns s
  | .timerWake => Sys2Proof.Machine.execTimerWake s
  | .wakeComplete => Sys2Proof.Machine.execWakeComplete s
  | .epochIn highNs gap16 int16 => Sys2Proof.Machine.execEpochIn highNs gap16 int16 s
  | .epochBoundary => Sys2Proof.Machine.execEpochBoundary s
  | .epochLoss => Sys2Proof.Machine.execEpochLoss s
  | .snapshot => Sys2Proof.Machine.execSnapshot s
  | .telSel n v => Sys2Proof.Machine.execTelSel n v s
  | .flashLogWrite => Sys2Proof.Machine.execFlashLogWrite s
  | .registerWrite off size v => Sys2Proof.Machine.execRegisterWrite off size v s
  | .registerRead off size => Sys2Proof.Machine.execRegisterRead off size s
  | .carDnext c a => Sys2Proof.Machine.execCarDnext c a s
  | .go c => Sys2Proof.Machine.execGo c s
  | .pause c => Sys2Proof.Machine.execPause c s
  | .abort c => Sys2Proof.Machine.execAbort c s
  | .setd c a => Sys2Proof.Machine.execSetd c a s
  | .descriptorFetch c => Sys2Proof.Machine.execDescriptorFetch c s
  | .channelAccessTimeout c => Sys2Proof.Machine.execChannelAccessTimeout c s
  | .descriptorEnd c => Sys2Proof.Machine.execDescriptorEnd c s
  | .descriptorCommit c => Sys2Proof.Machine.execDescriptorCommit c s
  | .drainEnd c units => Sys2Proof.Machine.execDrainEnd c units s
  | .abortEnd c units => Sys2Proof.Machine.execAbortEnd c units s
  | .bar2Read off len => Sys2Proof.Machine.execBar2Read off len s
  | .bar2Write off bytes => Sys2Proof.Machine.execBar2Write off bytes s
  | .atomicOp off size op a b => Sys2Proof.Machine.execAtomicOp off size op a b s
  | .bar2Timeout tag => Sys2Proof.Machine.execBar2Timeout tag s
  | .functionLevelReset => Sys2Proof.Machine.execFunctionLevelReset s
  | .perstN => Sys2Proof.Machine.execPerstN s
  | .doeDiscovery idx => Sys2Proof.Machine.execDoeDiscovery idx s
  | .getVersion => Sys2Proof.Machine.execGetVersion s
  | .getCapabilities => Sys2Proof.Machine.execGetCapabilities s
  | .negotiateAlgorithms => Sys2Proof.Machine.execNegotiateAlgorithms s
  | .getDigests => Sys2Proof.Machine.execGetDigests s
  | .getCertificate slot off len => Sys2Proof.Machine.execGetCertificate slot off len s
  | .getMeasurements idx sign => Sys2Proof.Machine.execGetMeasurements idx sign s
  | .spdmUnsupported code => Sys2Proof.Machine.execSpdmUnsupported code s
  | .hold die => Sys2Proof.Machine.execHold die s
  | .prstRelease die => Sys2Proof.Machine.execPrstRelease die s
  | .prstSelfTestEnd pass => Sys2Proof.Machine.execPrstSelfTestEnd pass s
  | .i3cWrite bytes => Sys2Proof.Machine.execI3cWrite bytes s
  | .i3cRead len => Sys2Proof.Machine.execI3cRead len s
  | .setdasa addr => Sys2Proof.Machine.execSetdasa addr s
  | .entdaa addr => Sys2Proof.Machine.execEntdaa addr s
  | .vstbyUp => Sys2Proof.Machine.execVstbyUp s
  | .vstbyLoss => Sys2Proof.Machine.execVstbyLoss s
  | .pgInHigh => Sys2Proof.Machine.execPgInHigh s
  | .pgInLow ns => Sys2Proof.Machine.execPgInLow ns s
  | .resetN ns => Sys2Proof.Machine.execResetN ns s
  | .thermalSample temps => Sys2Proof.Machine.execThermalSample temps s
  | .thermalLevelExit => Sys2Proof.Machine.execThermalLevelExit s
  | .powerLimit above => Sys2Proof.Machine.execPowerLimit above s
  | .tapReset => Sys2Proof.Machine.execTapReset s
  | .extest => Sys2Proof.Machine.execExtest s
  | .idcode => Sys2Proof.Machine.execIdcode s
  | .samplePreload v => Sys2Proof.Machine.execSamplePreload v s
  | .clamp => Sys2Proof.Machine.execClamp s
  | .highz => Sys2Proof.Machine.execHighz s
  | .extestPulse => Sys2Proof.Machine.execExtestPulse s
  | .extestTrain => Sys2Proof.Machine.execExtestTrain s
  | .bypass opcode => Sys2Proof.Machine.execBypass opcode s
  | .crcFailure p => Sys2Proof.Machine.execCrcFailure p s
  | .undefinedOpcode p m => Sys2Proof.Machine.execUndefinedOpcode p m s
  | .firmwareCancel => Sys2Proof.Machine.execFirmwareCancel s
  | .wakeNHigh ns => Sys2Proof.Machine.execWakeNHigh ns s
  | .refclk n present => Sys2Proof.Machine.execRefclk n present s

end Sys2Proof.Machine
end

