-- ==== Sys2Proof/Machine/Step.lean ====
section
/-! DEFINITION. The step of the block: the command at the front of the queue is taken and run; with no command waiting
one CCLK cycle passes. -/

namespace Sys2Proof.Machine

/-- Nothing is commanded: one cycle of CCLK passes, which timestamps count within a subtick (R7, R466; log entry 12);
in reset and in OFF nothing counts. -/
def State.idle (s : State) : State :=
  if s.power.inReset || s.power.offState then s else { s with clk := { s.clk with cclk := s.clk.cclk + 1 } }

/-- The host's next access takes its turn in order again. -/
def State.drainOver (s : State) : State := { s with host := { s.host with draining := false } }

/-- With nothing commanded, the oldest BAR0 access that came behind a posted write is performed, once every posted write before
it is (R89; DESIGN CHOICE, log entry 90); else a cycle passes. -/
def State.quiet (s : State) : Host.Outcome State Fault Refusal :=
  match s.host.behind with
  | b :: rest =>
    if s.host.reqs.any (fun h => h.isWrite && decide (h.tag < b.ord)) then .next s.idle
    else match exec b.cmd { s with host := { s.host with behind := rest, draining := true } } with
      | .next t => .next t.drainOver
      | .fault f => .fault f
      | .refused r => .refused r
  | [] => .next s.idle

/-- One step. -/
def step (s : State) : Host.Outcome State Fault Refusal :=
  match s.pending with
  | [] => s.quiet
  | c :: rest => exec c { s with pending := rest }

/-- The state with the command a word spells put at the front of its queue; unchanged where the word spells none. -/
def State.withFetchWord (s : State) (nbits w : Nat) : State :=
  match decodeTableWord nbits w with
  | some c => { s with pending := c :: s.pending }
  | none => s

end Sys2Proof.Machine
end

