-- ==== Sys2Proof/Safety.lean ====
section
/-! DEFINITION. What claims about the block are stated with: work that waits, the effect a command has by itself, and the
invariant of the pool's memory. -/

namespace Sys2Proof.Machine

/-- Nothing waits to go on by itself: no error waits to be reported, no request waits, no crossing waits for egress
room, no object command or eviction walk is in progress, no message is held back at its ingress, no HACK is held, and no
directory read is to start again where its page has moved to; and no stack has lost a second data pin. -/
def State.Quiet (s : State) : Prop :=
  s.rcv.raised = [] ∧ s.home.waits = [] ∧ s.sw.voq = [] ∧ s.busy.objOp = 0 ∧ s.busy.rcmpEvict = false
    ∧ (∀ x ∈ s.sw.ing, x.held = false) ∧ s.coh.hacks = [] ∧ s.movedReads = []
    ∧ (∀ e ∈ s.rcv.pins, e.2 < 2)

/-- The command `c` at `s` answers a next state: `t` is its own effect, after which whatever was waiting goes on
(`settle`); where nothing waits, the next state is `t` itself. -/
def Runs (c : Instr) (s t : State) : Prop :=
  exec c s = .next t.settle ∧ (t.Quiet → exec c s = .next t)

/-! ### Requests on their way to their home -/

/-- The request of a command that is a request of an agent: its port, its message, and what the residue checks of its
operation will find (R317). -/
def requestOf (s : State) : Instr → Option (Nat × Msg × Nat)
  | .rd p m => some (p, withOpc m opRD, 0)
  | .rdx p m => some (p, withOpc m opRDX, 0)
  | .upg p m => some (p, withOpc m opUPG, 0)
  | .wb p m => some (p, withOpc m opWB, 0)
  | .wbc p m => some (p, withOpc m opWBC, 0)
  | .nrd p m => some (p, withOpc m opNRD, 0)
  | .nwr p m => some (p, withOpc m opNWR, 0)
  | .ld p m => some (p, withOpc m opLD, 0)
  | .st p m => some (p, withOpc m opST, 0)
  | .stRel p m => some (p, withOpc m opST_REL, 0)
  | .at_ p m => some (p, withOpc m opAT, 0)
  | .inv p m => some (p, withOpc m opINV, 0)
  | .pub p m => some (p, withOpc m opPUB, 0)
  | .subs p m => some (p, withOpc m opSUBS, 0)
  | .leaseWordStore p m => some (p, s.winMsg p m 0x8000 3, 0)
  | .fenceWordStore p m => some (p, s.winMsg p m 0x8100 0, 0)
  | .rxaBaseStore p m => some (p, s.winMsg p m 0x8200 3, 0)
  | .rxaTailStore p m => some (p, s.winMsg p m 0x8210 3, 0)
  | .reduce p m => some (p, s.launchMsg p m 0x01, 0)
  | .gather p m => some (p, s.launchMsg p m 0x02, 0)
  | .filter p m => some (p, s.launchMsg p m 0x03, 0)
  | .matmul p m => some (p, s.launchMsg p m 0x04, 0)
  | .expand p m => some (p, s.launchMsg p m 0x05, 0)
  | .compress p m => some (p, s.launchMsg p m 0x06, 0)
  | .ownerOf p m => some (p, s.launchMsg p m 0x07, 0)
  | .xferOwner p m => some (p, s.launchMsg p m 0x08, 0)
  | .fill p m => some (p, s.launchMsg p m 0x10, 0)
  | .copy p m => some (p, s.launchMsg p m 0x11, 0)
  | .compare p m => some (p, s.launchMsg p m 0x12, 0)
  | .mreduce p m res => some (p, s.launchMsg p m 0x13, res)
  | .abortWord p m => some (p, s.winMsg p m (0x800 * slotOfMsg m + 0x408) 3, 0)
  | .contribution p m res => some (p, withField (withOpc m opST) 119 3 4, res)
  | _ => none

/-- A message that port `p` accepts: the request, tagged with its line-order entry (R104), and the state in which it is
outstanding (R65). -/
def State.accepted (s : State) (p : Nat) (m : Msg) (res : Nat) : Req × State :=
  (s.open p m).tagged p { (s.open p m).mkReq p m with res := res }

/-- As `r` in state `u`, the request passes the point of its die as it comes, and `v` is the state then; a MSG toward an uplink
has its point there (R98, R131). -/
def State.Passes (u v : State) (r : Req) : Prop :=
  if mOpc r.msg = opMSG ∧ mDsw r.msg ≠ 0 then v = u
  else u.atPoint (u.queuePoint r) (u.candOf r (u.queuePoint r) u.nextId u.cycle) = (true, v)

/-- As `r` in state `u`, an access of an engine or of a channel passes the point of its line's die as it comes, and `v` is the
state then (R131, R272). -/
def State.EngPasses (u v : State) (r : Req) : Prop :=
  u.atPoint (320 + u.homeOf (mAddr r.msg) % 16)
    (u.candOf r (320 + u.homeOf (mAddr r.msg) % 16) u.nextId u.cycle) = (true, v)

/-- Port `p` is ACTIVE and no tray's, the message passes the checks of Table 2.11, and nothing holds it at ingress,
neither the line-order table nor a failed plane (R64, R104; Table 4.3). -/
def State.Admitted (s : State) (p : Nat) (m : Msg) : Prop :=
  p < 320 ∧ s.active p = true ∧ s.rd .PRT_PFTL_STAT_ROLE p ≠ 3 ∧ mOpc m ≠ opMSG ∧ s.ingressCheck p m = .accept
    ∧ s.ingressHeld p = false ∧ s.portsTake = true ∧ s.lotRoom p m = true ∧ s.planeUp m = true

/-- The message is admitted and passes its die's point, and as request `r` in state `v` no sequence number, tag, frontier, contribution window or
command line keeps its home from checking it (R80, R82, R105, R267, R335). -/
def State.AtHome (s v : State) (p : Nat) (m : Msg) (res : Nat) (r : Req) : Prop :=
  s.Admitted p m ∧ (∃ u, s.accepted p m res = (r, u) ∧ u.Passes v r) ∧ v.already r = false ∧ v.depDone r = true ∧ v.contribTo r = none
    ∧ v.carLine r = none ∧ (isRelease m = true → v.relReady r = true)

/-- The MSG passes every check and the policer of its port, and nothing holds it at ingress, at its die's point or
before its own earlier requests: as request `r` it goes its way in state `v` (R59, R64, R82, R131, R143). -/
def State.MsgAdmitted (s v : State) (p : Nat) (m : Msg) (r : Req) : Prop :=
  p < 320 ∧ s.active p = true ∧ s.rd .PRT_PFTL_STAT_ROLE p ≠ 3 ∧ s.ingressCheck p m = .accept
    ∧ (s.polMsg p (16 * mSlots m)).1 = true ∧ (∃ u, (s.polMsg p (16 * mSlots m)).2.accepted p m 0 = (r, u) ∧ u.Passes v r)
    ∧ s.ingressHeld p = false
    ∧ s.portsTake = true ∧ s.lotRoom p m = true ∧ s.planeUp m = true ∧ v.already r = false ∧ v.depDone r = true

/-- A page is in an Oasis frame that may be accessed. -/
def State.InOasis (s : State) (pg : Nat) : Prop :=
  (s.page pg).loc ≠ 2 ∧ (s.page pg).loc ≠ 3 ∧ s.busy.rewrite.contains pg = false ∧ ergPage pg = false
    ∧ ∃ st, s.stackOfPage pg = some st ∧ s.rcv.stackWait.contains st = false

/-- The message reaches, as `r` in state `v`, an address of the ACTIVE extent `x` outside the control window. -/
def State.AtExtent (s v : State) (p : Nat) (m : Msg) (r : Req) (x : Extent) : Prop :=
  s.AtHome v p m 0 r ∧ inWindow (mAddr m) = false ∧ (∃ i, v.extentAt (mAddr m) = some (i, x)) ∧ x.state = 1
    ∧ v.InOasis (pageOf (mAddr m))

/-- The message reaches the plain Oasis extent `x`. -/
def State.AtPlain (s v : State) (p : Nat) (m : Msg) (r : Req) (x : Extent) : Prop :=
  s.AtExtent v p m r x ∧ x.coh = false ∧ x.pub = false

/-- The message reaches the coherent Oasis extent `x`, of a group that has not failed, and its directory slice runs
and the entries of its set hold no error; no run of the line is open. -/
def State.AtCoherent (s v : State) (p : Nat) (m : Msg) (r : Req) (x : Extent) : Prop :=
  s.AtExtent v p m r x ∧ x.coh = true ∧ v.cgState x.cg ≠ 2 ∧ v.rcv.dirHold.contains (v.homeOf (mAddr m)) = false
    ∧ v.coh.dirErr = [] ∧ tfind v.home.runs (lineOf (mAddr m)) = none

/-- The message reaches region `i` of a published-region extent. -/
def State.AtRegion (s v : State) (p : Nat) (m : Msg) (r : Req) (i : Nat) (g : Region) : Prop :=
  s.AtHome v p m 0 r ∧ inWindow (mAddr m) = false
    ∧ (∃ k x, v.extentAt (mAddr m) = some (k, x) ∧ x.state = 1 ∧ x.coh = false ∧ x.pub = true)
    ∧ v.regionAt (mAddr m) = some (i, g)

/-- The message reaches offset `off` of the block of its own agent. -/
def State.AtBlock (s v : State) (p : Nat) (m : Msg) (res : Nat) (r : Req) : Prop :=
  s.AtHome v p m res r ∧ inWindow (mAddr m) = true

/-- The contribution reaches, as `r` in state `v`, the owner die of its chunk: it counts for rank `rank` of the collective `c`
(R105, R131, R267). -/
def State.AtOwner (s v : State) (p : Nat) (m : Msg) (res : Nat) (r : Req) (c : Coll) (rank : Nat) : Prop :=
  s.Admitted p m ∧ (∃ u, s.accepted p m res = (r, u) ∧ u.Passes v r) ∧ v.already r = false ∧ v.depDone r = true
    ∧ v.contribTo r = some (c, rank)

/-- The command `c` is a launch of opcode `opc`; `res` is what the residue checks find (Table 10.5, R317). -/
def Launch (c : Instr) (p : Nat) (m : Msg) (opc res : Nat) : Prop :=
  (c, opc, res) ∈ [(Instr.reduce p m, 0x01, 0), (.gather p m, 0x02, 0), (.filter p m, 0x03, 0), (.matmul p m, 0x04, 0),
    (.expand p m, 0x05, 0), (.compress p m, 0x06, 0), (.ownerOf p m, 0x07, 0), (.xferOwner p m, 0x08, 0),
    (.fill p m, 0x10, 0), (.copy p m, 0x11, 0), (.compare p m, 0x12, 0), (.mreduce p m res, 0x13, res)]

/-- The launch word reaches slot `k` of its sender's block as `r` in state `v` (R252). -/
def State.AtSlot (s v : State) (p : Nat) (m : Msg) (opc res : Nat) (r : Req) (k : Nat) : Prop :=
  s.AtBlock v p (s.launchMsg p m opc) res r ∧ mSize r.msg = 8 ∧ winOff (mAddr r.msg) < 0x8000
    ∧ winOff (mAddr r.msg) % 0x800 = 0x400 ∧ k = slotKey (winAgent (mAddr r.msg)) (winOff (mAddr r.msg) / 0x800)

/-- The launch word passes every check, and its DLINES is its operation's: in state `u` the slot is OPEN and the word is
answered OK (R252, R253, R274). -/
def State.Launched (s u : State) (p : Nat) (m : Msg) (opc res k : Nat) : Prop :=
  ∃ v r, s.AtSlot v p m opc res r k ∧ v.launchCheck k (leAt r.msg.payload 0 8) = none
    ∧ lwOpc (leAt r.msg.payload 0 8) = opc ∧ lwDlines (leAt r.msg.payload 0 8) = dlinesOf opc
    ∧ u = (((v.bump .RGF_LAUNCH_COUNT).openSlot k (leAt r.msg.payload 0 8)).launchAnswer r k).finishCmp r stOK

/-- Port `p` takes a message of a class and of `n` slots into egress at once: none of its class waits there, and its buffer
has room (R22, R99). -/
def State.Takes (s : State) (p cls n : Nat) : Prop :=
  s.sw.voq.any (fun c => c.org == s.portDie p && c.point == p && c.cls == cls) = false ∧ s.egrRoom p n = true

/-- From `s` to `t` a port's die answers its agent with `m`: into egress at once, or behind what waits for room there (R22,
R38, R64). -/
def Answers (s t : State) (p : Nat) (m : Msg) : Prop :=
  (s.Takes p (mSc m) (mSlots m) → t.sw.voq = s.sw.voq ∧
    t.sw.egr.map (fun q => (q.point, q.msg)) = s.sw.egr.map (fun q => (q.point, q.msg)) ++ [(p, m)]) ∧
  (¬ s.Takes p (mSc m) (mSlots m) → t.sw.egr = s.sw.egr ∧
    t.sw.voq.map (fun c => (c.point, c.msg)) = s.sw.voq.map (fun c => (c.point, c.msg)) ++ [(p, m)])

/-- Is a command a BAR0 access of the host: a write, or a read (R89, R471). -/
def barAccess : Instr → Option Bool
  | .abort _ | .add | .apply | .assign | .begin | .build | .calBegin | .calChunk | .calCommit | .capture _
  | .carDnext _ _ | .chunk | .clear _ | .clr | .clrPark _ | .define | .disband | .dsleep | .enter | .evict
  | .extentCreate | .extentDelete _ | .extentRead _ | .finish | .firmwareCancel | .form | .gen | .go _ | .hold _
  | .idle | .mirrCtl _ | .objectDelete _ | .objectRead _ | .observe _ | .off | .pair _ | .pause _ | .placeErg _
  | .placeOasis _ | .poolSuspClr _ | .prstRelease _ | .prtCtlEn _ _ | .raiseSvn | .rebind _ | .reform
  | .regionCreate | .regionDelete _ | .regionRead _ | .registerWrite _ _ _ | .release _ | .remove | .retire _
  | .retrain _ | .run | .scanNow _ | .scheduleRun _ | .scheduleStop | .setAttr _ | .setOwner _ | .sleep | .teardown
  | .telSel _ _ | .tmApply => some false
  | .registerRead _ _ => some true
  | _ => none

/-! ### Memory -/

/-- The pool's memory is in its canonical form. -/
def State.MemOk (s : State) : Prop := Memory.wf s.pool.mem

end Sys2Proof.Machine
end

