-- ==== Sys2Proof/Certificates/Slice0/Obligations.lean ====
section
/-! DEFINITION. The statements for the provers. `Runs c s t` says that the command `c` at `s` answers a next state, whose own
effect is `t` (Sys2Proof/Safety.lean); a clause without it is about one operation of the model. -/

open Sys2Proof Sys2Proof.Machine

/-- A PROTOCOL flit with the expected FSEQ is taken (its acknowledgement, then its messages in slot order), the next
one is expected, and the acknowledgement goes out at the latest after 32 flits; one with another FSEQ is discarded
and a NAK goes out unless one is waiting (R38, R40, R41). Completes: PROTOCOL_FLIT. -/
def Obligations.ProtocolFlitTaken : Prop :=
  (∀ (p : Nat) (f : List Byte) (s : State), p < 320 → s.flits p = true → flitOk f = true → flType f = 1 →
    flSeq f = ((s.takeAck p f).link p).rxNext →
    ∃ u t : State, Runs (.protocolFlit p f) s t ∧
      u.link p = { (s.takeAck p f).link p with
        rxNext := (((s.takeAck p f).link p).rxNext + 1) % 4096, nakWait := false, ackV := true,
        unacked := ((s.takeAck p f).link p).unacked + 1 } ∧
      (∀ q, q ≠ p → u.port q = s.port q) ∧ u.regs = s.regs ∧ u.pool = s.pool ∧
      t = (if 32 ≤ ((u.takeFlit p f).link p).unacked then (u.takeFlit p f).sendIdle p else u.takeFlit p f)) ∧
  (∀ (p : Nat) (f : List Byte) (s : State), p < 320 → s.flits p = true → flitOk f = true → flType f = 1 →
    flSeq f ≠ ((s.takeAck p f).link p).rxNext →
    ∃ t : State, Runs (.protocolFlit p f) s t ∧ (t.link p).nakWait = true ∧
      (t.link p).rxNext = ((s.takeAck p f).link p).rxNext ∧ t.regs = s.regs ∧ t.pool = s.pool ∧ t.sw = s.sw ∧
      (((s.takeAck p f).link p).nakWait = true → t.out = s.out) ∧
      (((s.takeAck p f).link p).nakWait = false →
        t.out = .flit p (mkFlit (Link.hdr { (s.takeAck p f).link p with nakWait := true } 2 0 0) []) :: s.out))

/-- The acknowledgement of a flit frees the replay buffer up to ACKSEQ, when ACKV is set and the buffer holds that
number, and the two returned pools take the counts the flit carries; nothing else changes (R40, R45). The other flits
and timers of a link: IDLE carries only its acknowledgement (R40); a NAK and a replay timeout send every
unacknowledged flit again (R41); a repeat, a deadline and a failed CRC (R37, R40, R41). Completes: IDLE_FLIT, NAK,
REPLAY_TIMEOUT, NAK_REPEAT, ACK_DEADLINE, CRC_FAILURE. -/
def Obligations.LinkAcksAndTimers : Prop :=
  (∀ (p : Nat) (f : List Byte) (s : State),
    ((s.takeAck p f).link p).returned
      = ((s.link p).returned.set (flCraPool f) (flCraCnt f)).set (flCrbPool f) (flCrbCnt f) ∧
    (flAckV f = false → ((s.takeAck p f).link p).replayBuf = (s.link p).replayBuf) ∧
    (∀ (pre post : List TxFlit) (x : TxFlit), flAckV f = true → (s.link p).replayBuf = pre ++ x :: post →
      x.fseq = flAckSeq f → (∀ y ∈ pre, y.fseq ≠ flAckSeq f) →
      ((s.takeAck p f).link p).replayBuf = post ∧ ((s.takeAck p f).link p).replays = 0) ∧
    (flAckV f = true → (∀ y ∈ (s.link p).replayBuf, y.fseq ≠ flAckSeq f) →
      ((s.takeAck p f).link p).replayBuf = (s.link p).replayBuf) ∧
    ((s.takeAck p f).link p).rxNext = (s.link p).rxNext ∧ ((s.takeAck p f).link p).spent = (s.link p).spent ∧
    (∀ q, q ≠ p → (s.takeAck p f).port q = s.port q) ∧
    (s.takeAck p f).regs = s.regs ∧ (s.takeAck p f).pool = s.pool ∧ (s.takeAck p f).sw = s.sw ∧
    (s.takeAck p f).out = s.out) ∧
  ((∀ (p : Nat) (f : List Byte) (s : State), p < 320 → s.flits p = true → flitOk f = true → flType f = 0 →
    Runs (.idleFlit p f) s (s.takeAck p f)) ∧
  (∀ (p : Nat) (f : List Byte) (s : State), p < 320 → s.flits p = true → flitOk f = true → flType f = 2 →
    Runs (.nak p f) s ((s.takeAck p f).replay p)) ∧
  (∀ (p : Nat) (s : State), p < 320 → s.flits p = true → (s.link p).replayBuf ≠ [] →
    Runs (.replayTimeout p) s (s.replay p)) ∧
  (∀ (p : Nat) (s : State), p < 320 → s.flits p = true → (s.link p).nakWait = true →
    ∃ t, Runs (.nakRepeat p) s t ∧ t.out = .flit p (mkFlit ((s.link p).hdr 2 0 0) []) :: s.out ∧
      (t.link p).unacked = 0 ∧ (t.link p).nakWait = true ∧ t.regs = s.regs ∧ t.pool = s.pool) ∧
  (∀ (p : Nat) (s : State), p < 320 → s.flits p = true → (s.link p).unacked ≠ 0 →
    ∃ t, Runs (.ackDeadline p) s t ∧ t.out = .flit p (mkFlit ((s.link p).hdr 0 0 0) []) :: s.out ∧
      (t.link p).unacked = 0 ∧ t.regs = s.regs ∧ t.pool = s.pool) ∧
  (∀ (p : Nat) (s : State), p < 320 → s.isPftl p = true → s.lstate p = 2 → s.active p = true →
    (s.link p).nakWait = false →
    ∃ t, Runs (.crcFailure p) s t ∧
      t.rd .PRT_CRC_ERR_COUNT p = min (s.rd .PRT_CRC_ERR_COUNT p + 1) (2 ^ 32 - 1) ∧
      (t.link p).nakWait = true ∧ (t.link p).rxNext = (s.link p).rxNext ∧
      t.out = .flit p (mkFlit (Link.hdr { s.link p with nakWait := true } 2 0 0) []) :: s.out ∧ t.pool = s.pool))

/-- Discovery (Table 2.14); the clauses say of HELLO, CREDITS, DISC_REPEAT and DISCOVERY_LIMIT that each completes,
and with what. A HELLO is answered with an ASSIGN of the ID chosen, and the port is ASSIGNED, or with a REJECT of
reason 2 (version), 3 (role) or 1 (no ID, with event ID_EXHAUSTED); from a bound agent it is first a counted down
(R73, R75, R154). Records leave in DISC flits (R72). CREDITS that reach every minimum of Table 2.3 bind the port with
the offered ID: it is ACTIVE, its credits are those the agent advertised (at most 2,047: the model's choice, log
entry 69), and its first flit leaves; CREDITS below a minimum are answered REJECT 5 (R46, R73). The last record is
repeated every 10 µs until the port is ACTIVE, and a port not ACTIVE after 10 ms goes down, counted, into HOLD or
PARKED (R73, R154, R156). Completes: HELLO, CREDITS, DISC_REPEAT, DISCOVERY_LIMIT. -/
def Obligations.DiscoveryBinds : Prop :=
  ((∀ (p : Nat) (r : List Byte) (s : State), s.discovers p = true → leAt r 0 1 = 1 →
    s.on .PRT_PFTL_STAT_BOUND p = false → leAt r 1 1 ≠ 1 →
    ∃ t, Runs (.hello p r) s t ∧ t.rd .PRT_PFTL_STAT_STATE p = 3 ∧ (t.port p).offered = none ∧
      t.out = .disc p (discFlit (slice (leBytes 1 4 ++ leBytes 1 1 ++ leBytes 1 0 ++ leBytes 1 2) 0 240)) :: s.out) ∧
  (∀ (p : Nat) (r : List Byte) (s : State), s.discovers p = true → leAt r 0 1 = 1 →
    s.on .PRT_PFTL_STAT_BOUND p = false → leAt r 1 1 = 1 →
    (if s.pmode p = 2 then leAt r 3 1 ≠ 3 else leAt r 3 1 ≠ 1 ∧ leAt r 3 1 ≠ 2) →
    ∃ t, Runs (.hello p r) s t ∧ t.rd .PRT_PFTL_STAT_STATE p = 3 ∧ (t.port p).offered = none ∧
      t.out = .disc p (discFlit (slice (leBytes 1 4 ++ leBytes 1 1 ++ leBytes 1 0 ++ leBytes 1 3) 0 240)) :: s.out) ∧
  (∀ (p : Nat) (r : List Byte) (s : State), s.discovers p = true → leAt r 0 1 = 1 →
    s.on .PRT_PFTL_STAT_BOUND p = false → leAt r 1 1 = 1 →
    (if s.pmode p = 2 then leAt r 3 1 = 3 else leAt r 3 1 = 1 ∨ leAt r 3 1 = 2) → s.chooseId p r = none →
    ∃ u t : State, Runs (.hello p r) s t ∧ t = u.event .idExhausted p ∧ u.rd .PRT_PFTL_STAT_STATE p = 3 ∧
      (u.port p).offered = none ∧
      u.out = .disc p (discFlit (slice (leBytes 1 4 ++ leBytes 1 1 ++ leBytes 1 0 ++ leBytes 1 1) 0 240)) :: s.out) ∧
  (∀ (p id : Nat) (r : List Byte) (s : State), s.discovers p = true → leAt r 0 1 = 1 →
    s.on .PRT_PFTL_STAT_BOUND p = false → leAt r 1 1 = 1 →
    (if s.pmode p = 2 then leAt r 3 1 = 3 else leAt r 3 1 = 1 ∨ leAt r 3 1 = 2) →
    s.chooseId p r = some id → (s.agent id).walking = false →
    ∃ t, Runs (.hello p r) s t ∧ t.rd .PRT_PFTL_STAT_STATE p = 1 ∧ (t.port p).offered = some id ∧
      (t.port p).serial = leAt r 8 8 ∧ (t.port p).role = leAt r 3 1 ∧ t.pool = s.pool ∧ t.agents = s.agents ∧
      t.out = .disc p (discFlit (slice (s.assignRecord p id) 0 240)) :: s.out) ∧
  (∀ (p : Nat) (r : List Byte) (s : State), s.discovers p = true → leAt r 0 1 = 1 →
    s.on .PRT_PFTL_STAT_BOUND p = true →
    ∃ u t : State, Runs (.hello p r) s t ∧ u = (s.countDown p).2 ∧
      u.rd .PRT_DOWN_CNT_COUNT p = min (s.rd .PRT_DOWN_CNT_COUNT p + 1) (2 ^ Fld.PRT_DOWN_CNT_COUNT.width - 1) ∧
      t = (if u.rd .PRT_FLAP_CFG_LIMIT p ≤ (s.countDown p).1 then u.park p
        else if ((u.unbind p).discFollow p).discovers p then ((u.unbind p).discFollow p).helloCheck p r
        else (u.unbind p).discFollow p))) ∧
  ((∀ (p id n : Nat) (r : List Byte) (s : State), s.discovers p = true → leAt r 0 1 = 3 → (s.port p).flushing = false →
    (s.port p).offered = some id → n < 16 → leAt r (3 + 2 * n) 2 < credMin (s.pmode p == 2) n →
    ∃ t, Runs (.credits p r) s t ∧ t.rd .PRT_PFTL_STAT_STATE p = 3 ∧ (t.port p).offered = none ∧
      t.rd .PRT_PFTL_STAT_BOUND p = s.rd .PRT_PFTL_STAT_BOUND p ∧
      t.out = .disc p (discFlit (slice (leBytes 1 4 ++ leBytes 1 1 ++ leBytes 1 0 ++ leBytes 1 5) 0 240)) :: s.out) ∧
  (∀ (p id : Nat) (r : List Byte) (s : State), s.discovers p = true → leAt r 0 1 = 3 → (s.port p).flushing = false →
    (s.port p).offered = some id → (∀ n, n < 16 → credMin (s.pmode p == 2) n ≤ leAt r (3 + 2 * n) 2) →
    ∃ u t : State, Runs (.credits p r) s t ∧ t = ((u.event .agentJoin p).sendIdle p).retryDemotions ∧
      u.rd .PRT_PFTL_STAT_STATE p = 2 ∧ u.rd .PRT_PFTL_STAT_BOUND p = 1 ∧
      u.rd .PRT_PFTL_STAT_AGENT_ID p = id % 4096 ∧ u.rd .PRT_PFTL_STAT_ROLE p = (s.port p).role % 8 ∧
      u.link p = Link.init ∧ u.source p = Source.init ∧ (u.port p).offered = none ∧
      (∀ n, n < 16 → u.rd .PRT_CRED_REM_ADV p n = min 2047 (leAt r (3 + 2 * n) 2)) ∧
      (u.agent id).port = some p ∧ (u.agent id).valid = true ∧ (u.agent id).serial = some (s.port p).serial) ∧
  (∀ (p : Nat) (s : State), s.discovers p = true → s.active p = false → (s.port p).lastDisc ≠ [] →
    ∃ t, Runs (.discRepeat p) s t ∧ t.out = .disc p (discFlit (s.port p).lastDisc) :: s.out ∧ t.regs = s.regs ∧
      t.ports = s.ports ∧ t.agents = s.agents ∧ t.sw = s.sw ∧ t.pool = s.pool) ∧
  (∀ (p : Nat) (s u : State), s.discovers p = true → s.active p = false → s.on .PRT_PFTL_STAT_BOUND p = false →
    u = (s.countDown p).2 →
    ∃ v t : State, Runs (.discoveryLimit p) s t ∧
      t = (if u.rd .PRT_FLAP_CFG_LIMIT p ≤ (s.countDown p).1 then v.event .portFlap p else v) ∧
      v.lstate p = (if u.rd .PRT_FLAP_CFG_LIMIT p ≤ (s.countDown p).1 then 5 else 4) ∧ v.lanes p = 0 ∧
      v.rd .PRT_DOWN_CNT_COUNT p = min (s.rd .PRT_DOWN_CNT_COUNT p + 1) (2 ^ Fld.PRT_DOWN_CNT_COUNT.width - 1) ∧
      v.rd .PRT_PFTL_STAT_STATE p = 0 ∧ (∀ q, q ≠ p → v.lstate q = s.lstate q) ∧ v.pool = s.pool))

/-- Ingress (Table 2.11): a request that passes every check is outstanding, enters the line-order table and
reaches the die that performs it as soon as that die's point selects it: at once, or it waits there (R98, R131); one that
fails a check is answered there with the status of that check and counted; a number that is outstanding is a counted
duplicate (R51), and one already performed is discarded and counted (R90).
Completes: UNDEFINED_OPCODE. -/
def Obligations.RequestChecks : Prop :=
  (∀ (c : Instr) (s : State) (p : Nat) (m : Msg) (res : Nat), requestOf s c = some (p, m, res) → s.Admitted p m →
    s.contained = false ∧
    (∀ v, (s.accepted p m res).2.Passes v (s.accepted p m res).1 → Runs c s (v.homeArrive (s.accepted p m res).1)) ∧
    (∀ (q : Nat) (v : State), q = (s.accepted p m res).2.queuePoint (s.accepted p m res).1 →
      (s.accepted p m res).2.atPoint q ((s.accepted p m res).2.candOf (s.accepted p m res).1 q
        (s.accepted p m res).2.nextId (s.accepted p m res).2.cycle) = (false, v) →
      Runs c s (v.queueAt q (s.accepted p m res).1))) ∧
  (∀ (c : Instr) (s : State) (p : Nat) (m : Msg) (res st : Nat) (f : Fld), requestOf s c = some (p, m, res) →
    p < 320 → s.active p = true → s.rd .PRT_PFTL_STAT_ROLE p ≠ 3 → s.ingressCheck p m = .refuse st f →
    ∃ t, Runs c s t ∧ t.rd f p = min (s.rd f p + 1) (2 ^ f.width - 1) ∧ t.pool = s.pool ∧ t.home = s.home ∧
      (t.source p).outst = (s.source p).outst ∧
      Answers s t p (respMsg (mSc m) (mSrc m) (s.agentId p) (mSeq m) { status := st })) ∧
  (∀ (c : Instr) (s : State) (p : Nat) (m : Msg) (res : Nat), requestOf s c = some (p, m, res) →
    p < 320 → s.active p = true → s.rd .PRT_PFTL_STAT_ROLE p ≠ 3 → s.ingressCheck p m = .duplicate →
    Runs c s (s.bump .PRT_DUP_SEQ_COUNT p)) ∧
  (∀ (c : Instr) (s : State) (p : Nat) (m : Msg) (res : Nat), requestOf s c = some (p, m, res) →
    p < 320 → s.active p = true → s.rd .PRT_PFTL_STAT_ROLE p ≠ 3 → s.ingressCheck p m = .performed →
    Runs c s (s.bump .POOL_DUP_DISCARD_COUNT)) ∧
  (∀ (p : Nat) (m : Msg) (s : State), p < 320 → s.active p = true → s.rd .PRT_PFTL_STAT_ROLE p ≠ 3 →
    isRequest (mOpc m) = false → mOpc m ≠ opHACK → mOpc m ≠ opDATA →
    ∃ t, Runs (.undefinedOpcode p m) s t ∧
      t.rd .PRT_REFUSED_COUNT p = min (s.rd .PRT_REFUSED_COUNT p + 1) (2 ^ Fld.PRT_REFUSED_COUNT.width - 1) ∧
      Answers s t p (respMsg (mSc m) (mSrc m) (s.agentId p) (mSeq m) { status := stREFUSED }) ∧
      t.pool = s.pool ∧ t.home = s.home ∧ (t.source p).outst = (s.source p).outst)

/-- LD and NRD of an Oasis line of a plain extent, with no window of the line open: the DATA carries the line's bytes
at their own offset, POISON and PSN where the line is poisoned; memory is unchanged (R57, R77, R185, R220).
Completes: NRD, LD. -/
def Obligations.PlainLoadReads : Prop :=
  ∀ (c : Instr) (s v : State) (p : Nat) (m : Msg) (r : Req) (x : Extent),
    (c = .ld p m ∧ s.AtPlain v p (withOpc m opLD) r x) ∨ (c = .nrd p m ∧ s.AtPlain v p (withOpc m opNRD) r x) →
    tfind v.home.runs (lineOf (mAddr r.msg)) = none → v.on .SWC_CTL_COMB_EN = false →
    v.badSyms (lineOf (mAddr r.msg)) = 0 →
    ∃ w t : State, Runs c s t ∧
      t = w.finish { r with hot := true }
        { status := if s.linePsn (lineOf (mAddr r.msg)) then stPOISON else stOK
          psn := s.linePsn (lineOf (mAddr r.msg)), susp := s.lineSusp (lineOf (mAddr r.msg)), grant := 0
          data := some (cutLine r.msg (s.lineBytes (lineOf (mAddr r.msg)))) } ∧
      w.rd .POOL_POISON_RD_COUNT = (if s.linePsn (lineOf (mAddr r.msg)) then
        min (s.rd .POOL_POISON_RD_COUNT + 1) (2 ^ 32 - 1) else s.rd .POOL_POISON_RD_COUNT) ∧
      w.pool = s.pool ∧ t.pool = s.pool ∧ (∀ a, memByte t.pool.mem a = memByte s.pool.mem a)

/-- ST, NWR and ST.REL to an Oasis line of a plain extent, with no window of the line open: exactly the bytes from
the message's address on become the payload's; the line is poisoned by a store that carries PSN and cleared by a
whole line without it; a partial store to a poisoned line is answered POISON (R57, R77, R82, R185, Table 7.9).
Completes: NWR, ST, ST_REL. -/
def Obligations.PlainStoreWrites : Prop :=
  ∀ (c : Instr) (s v : State) (p : Nat) (m : Msg) (r : Req) (x : Extent),
    (c = .st p m ∧ s.AtPlain v p (withOpc m opST) r x) ∨ (c = .nwr p m ∧ s.AtPlain v p (withOpc m opNWR) r x) ∨
      (c = .stRel p m ∧ s.AtPlain v p (withOpc m opST_REL) r x) →
    tfind v.home.runs (lineOf (mAddr r.msg)) = none → v.on .SWC_CTL_MRG_EN = false →
    v.badSyms (lineOf (mAddr r.msg)) = 0 →
    ∃ w t : State, Runs c s t ∧
      t = w.finishCmp { r with hot := true }
        (if mPsn r.msg = false ∧ mSize r.msg ≠ 64 ∧ s.linePsn (lineOf (mAddr r.msg)) = true then stPOISON else stOK) ∧
      (∀ a, memByte t.pool.mem a = if mAddr r.msg ≤ a ∧ a < mAddr r.msg + mSize r.msg
        then (storeBytes r.msg).getD (a - mAddr r.msg) 0 else memByte s.pool.mem a) ∧
      t.linePsn (lineOf (mAddr r.msg)) = (if mPsn r.msg then true else if mSize r.msg = 64 then false
        else s.linePsn (lineOf (mAddr r.msg))) ∧
      (∀ l, l ≠ lineOf (mAddr r.msg) → t.linePsn l = s.linePsn l) ∧ t.pool.extents = s.pool.extents

/-- AT on an Oasis word of a plain extent, with no window of the line open: the word becomes what Table 2.6 computes
from the old value and the operand, and no other byte changes; FETCH answers the old value; a poisoned line is not
written and is answered POISON (R56, R57, R185). Completes: AT. -/
def Obligations.PlainAtomicApplies : Prop :=
  ∀ (s v : State) (p : Nat) (m : Msg) (r : Req) (x : Extent), s.AtPlain v p (withOpc m opAT) r x →
    tfind v.home.runs (lineOf (mAddr r.msg)) = none → v.on .SWC_CTL_COMB_EN = false →
    v.badSyms (lineOf (mAddr r.msg)) = 0 →
    ∃ w t : State, Runs (.at_ p m) s t ∧
      t = w.finish { r with hot := true }
        { status := if s.linePsn (lineOf (mAddr r.msg)) then stPOISON else stOK
          psn := s.linePsn (lineOf (mAddr r.msg)) && mFetch r.msg
          susp := mFetch r.msg && s.lineSusp (lineOf (mAddr r.msg))
          data := if mFetch r.msg then
            some (atSlot r.msg (leVal (memRead s.pool.mem (mAddr r.msg) (mSize r.msg)))) else none } ∧
      (∀ a, memByte t.pool.mem a =
        if s.linePsn (lineOf (mAddr r.msg)) = false ∧ mAddr r.msg ≤ a ∧ a < mAddr r.msg + mSize r.msg then
          (leBytes (mSize r.msg) (Sys2Proof.Machine.atomicOp (mAtop r.msg) (mSigned r.msg) (8 * mSize r.msg)
            (leVal (memRead s.pool.mem (mAddr r.msg) (mSize r.msg))) (atOperand r.msg)
            (atCompare r.msg))).getD (a - mAddr r.msg) 0
        else memByte s.pool.mem a)

/-- RD and RDX by a member on a line in U, with a way free in its set: the line's data is granted, S with the
requester as sharer, or X with it as owner (R223, R227, Table 9.6). Completes: RD, RDX. -/
def Obligations.CoherentGrant : Prop :=
  ∀ (c : Instr) (s v : State) (p : Nat) (m : Msg) (r : Req) (x : Extent) (q way : Nat) (excl : Bool),
    (c = .rd p m ∧ excl = false ∧ s.AtCoherent v p (withOpc m opRD) r x) ∨
      (c = .rdx p m ∧ excl = true ∧ s.AtCoherent v p (withOpc m opRDX) r x) →
    v.memberSlot x.cg r.src = some q → v.dirEnt (lineOf (mAddr r.msg)) = none →
    v.freeWay (lineOf (mAddr r.msg)) = some way → v.linePsn (lineOf (mAddr r.msg)) = false →
    v.badSyms (lineOf (mAddr r.msg)) = 0 →
    ∃ t e, Runs c s t ∧ t.dirEnt (lineOf (mAddr r.msg)) = some e ∧ e.cg = x.cg ∧ e.way = way ∧
      (excl = false → e.st = .S ∧ e.own = none ∧ e.shr = [q]) ∧ (excl = true → e.st = .X ∧ e.own = some q ∧ e.shr = []) ∧
      (∀ l, l ≠ lineOf (mAddr r.msg) → t.dirEnt l = s.dirEnt l) ∧ t.pool = s.pool ∧
      t.sw = (v.finish { r with hot := true }
        { status := stOK, susp := s.lineSusp (lineOf (mAddr r.msg)), grant := if excl then 2 else 1
          data := some (cutLine r.msg (s.lineBytes (lineOf (mAddr r.msg)))) }).sw

/-- UPG, WB and WBC by the owner of a line in X: UPG is answered with GRANT X and keeps the entry; WB writes the
whole line with its PSN and WBC writes nothing, and both leave the line in U (R223, Table 9.6). Completes: UPG, WB,
WBC. -/
def Obligations.OwnerReturns : Prop :=
  (∀ (s v : State) (p : Nat) (m : Msg) (r : Req) (x : Extent) (e : DirEnt) (q : Nat),
    s.AtCoherent v p (withOpc m opUPG) r x → v.memberSlot x.cg r.src = some q →
    v.dirEnt (lineOf (mAddr r.msg)) = some e → e.st = .X → e.own = some q →
    ∃ t, Runs (.upg p m) s t ∧ t = v.finish { r with hot := true } { status := stOK, grant := 2 } ∧
      t.coh = s.coh ∧ t.pool = s.pool) ∧
  (∀ (s v : State) (p : Nat) (m : Msg) (r : Req) (x : Extent) (e : DirEnt) (q : Nat),
    s.AtCoherent v p (withOpc m opWB) r x → v.memberSlot x.cg r.src = some q →
    v.dirEnt (lineOf (mAddr r.msg)) = some e → e.st = .X → e.own = some q →
    ∃ t, Runs (.wb p m) s t ∧ t.dirEnt (lineOf (mAddr r.msg)) = none ∧
      t.linePsn (lineOf (mAddr r.msg)) = mPsn r.msg ∧
      (∀ a, memByte t.pool.mem a = if lineOf a = lineOf (mAddr r.msg) then (slice r.msg.payload 0 64).getD (a % 64) 0
        else memByte s.pool.mem a) ∧
      (∀ l, l ≠ lineOf (mAddr r.msg) → t.dirEnt l = s.dirEnt l ∧ t.linePsn l = s.linePsn l)) ∧
  (∀ (s v : State) (p : Nat) (m : Msg) (r : Req) (x : Extent) (e : DirEnt) (q : Nat),
    s.AtCoherent v p (withOpc m opWBC) r x → v.memberSlot x.cg r.src = some q →
    v.dirEnt (lineOf (mAddr r.msg)) = some e → e.st = .X → e.own = some q →
    ∃ t, Runs (.wbc p m) s t ∧ t = (v.finishCmp { r with hot := true } stOK).dropDir (lineOf (mAddr r.msg)) ∧
      t.dirEnt (lineOf (mAddr r.msg)) = none ∧ t.pool = s.pool)

/-- The published regions: SUBS adds its source to a region's subscribers or takes it out (R242); PUB whose BASE is
not the region's VERSION is answered VERSION_STALE with the VERSION and counted, and one that may go on sets BUSY and
the new BODY (R243); INV without subscribers is answered OK, and otherwise notes go to every subscriber (R244). The
answers HACK, DATA and CMP complete as follows. A HACK ends the note it answers, and the last one the INV or PUB; one
that is not as R244 asks ends the subscription, counted; a HACK of a recalled sharer takes it off its entry, which
stays while others are awaited; it waits while the slice holds its pipeline or the page moves (R224, R244, R372,
R202). A tray's DATA puts the deciphered line in its place and answers the load that waited for it (R70); a DATA
forwarded by an owner that was snooped for it goes to its requester's port, and one that answers no snoop is
discarded and counted, which is the model's reading (R61; log entry 81). A tray's CMP ends a write-back and empties
its buffer entry, unless another access of the line is out (R70). An accelerator may not send CMP (R64). Completes:
INV, PUB, SUBS, HACK, DATA, CMP. -/
def Obligations.RegionRequestsAndAnswers : Prop :=
  ((∀ (s v : State) (p : Nat) (m : Msg) (r : Req) (i : Nat) (g : Region), s.AtRegion v p (withOpc m opSUBS) r i g →
    mAddr r.msg < g.hdr + 64 →
    Runs (.subs p m) s ((v.setRegion i { g with
      subs := if mUnsub r.msg then g.subs.filter (· != r.src) else addSlot g.subs r.src }).finishCmp r stOK)) ∧
  (∀ (s v : State) (p : Nat) (m : Msg) (r : Req) (i : Nat) (g : Region), s.AtRegion v p (withOpc m opPUB) r i g →
    mAddr r.msg < g.hdr + 64 → v.region i = g → g.cur = none → leAt r.msg.payload 0 4 ≠ g.version →
    Runs (.pub p m) s ((v.finish r { status := stVERSION_STALE, curver := g.version }).bump .DIR_PUB_STALE_COUNT)) ∧
  (∀ (s v : State) (p : Nat) (m : Msg) (r : Req) (i : Nat) (g : Region), s.AtRegion v p (withOpc m opPUB) r i g →
    mAddr r.msg < g.hdr + 64 → v.region i = g → g.cur = none → leAt r.msg.payload 0 4 = g.version →
    (v.extentAt (leAt r.msg.payload 8 6)).isSome → (v.extentAt (leAt r.msg.payload 8 6 + 64 * g.lines - 1)).isSome →
    v.bodyOk (leAt r.msg.payload 8 6) g.lines = true →
    ∃ t, Runs (.pub p m) s t ∧ (t.region i).busy = true ∧ (t.region i).body = leAt r.msg.payload 8 6 ∧
      (t.region i).oldBody = g.body ∧ (t.region i).version = g.version ∧ (t.region i).cur = some r ∧
      (∀ j, j ≠ i → t.region j = s.region j) ∧ t.pool = s.pool ∧ t.regs = v.regs) ∧
  (∀ (s v : State) (p : Nat) (m : Msg) (r : Req) (i : Nat) (g : Region), s.AtRegion v p (withOpc m opINV) r i g →
    g.hdr + 64 ≤ mAddr r.msg → (mAddr r.msg - g.hdr - 64) / 64 + mNlines r.msg + 1 ≤ g.lines →
    Runs (.inv p m) s (if g.subs.isEmpty then v.finishCmp r stOK
      else v.sendNotes i g (mAddr r.msg) (mNlines r.msg + 1) r))) ∧
  ((∀ (p : Nat) (m : Msg) (s v : State), p < 320 → s.active p = true → s.rd .PRT_PFTL_STAT_ROLE p ≠ 3 →
    v = s.passAnswer p (withOpc m opHACK) (s.hackSub p (withOpc m opHACK)) → s.takesHack (withOpc m opHACK) = false →
    ∃ t, Runs (.hack p m) s t ∧ t.coh = { s.coh with hacks := s.coh.hacks ++ [(s.agentId p, withOpc m opHACK)] } ∧
      t.regs = v.regs ∧ t.home = s.home ∧ t.sw = v.sw ∧ t.pool = s.pool) ∧
  (∀ (p : Nat) (m : Msg) (s v : State) (n : Note), v = s.passAnswer p (withOpc m opHACK) (s.hackSub p (withOpc m opHACK)) → p < 320 → s.active p = true → s.rd .PRT_PFTL_STAT_ROLE p ≠ 3 →
    s.takesHack (withOpc m opHACK) = true → s.noteOf (s.agentId p) (withOpc m opHACK) = some n →
    mRspst (withOpc m opHACK) = 0 → mFwd (withOpc m opHACK) = false → mHdata (withOpc m opHACK) = false →
    ∃ u t : State, Runs (.hack p m) s t ∧ u.coh = { s.coh with inotes := s.coh.inotes.erase n } ∧ u.sw = v.sw ∧
      u.home = s.home ∧ u.regs = v.regs ∧ u.pool = s.pool ∧
      t = (if u.coh.inotes.any (fun y => y.req == n.req) then u
        else if mOpc n.req.msg = opPUB then u.pubEnd n.region else u.finishCmp n.req stOK)) ∧
  (∀ (p : Nat) (m : Msg) (s v : State) (n : Note), v = s.passAnswer p (withOpc m opHACK) (s.hackSub p (withOpc m opHACK)) →
    p < 320 → s.active p = true → s.rd .PRT_PFTL_STAT_ROLE p ≠ 3 →
    s.takesHack (withOpc m opHACK) = true → s.noteOf (s.agentId p) (withOpc m opHACK) = some n →
    mRspst (withOpc m opHACK) ≠ 0 ∨ mFwd (withOpc m opHACK) = true ∨ mHdata (withOpc m opHACK) = true →
    Runs (.hack p m) s (v.dropSub n .DIR_PROTO_ERR_COUNT)) ∧
  (∀ (p k : Nat) (m : Msg) (s v : State) (e : DirEnt), v = s.passAnswer p (withOpc m opHACK) (s.hackSub p (withOpc m opHACK)) →
    p < 320 → s.active p = true → s.rd .PRT_PFTL_STAT_ROLE p ≠ 3 → s.coh.dirErr = [] →
    s.takesHack (withOpc m opHACK) = true → s.noteOf (s.agentId p) (withOpc m opHACK) = none →
    mRspst (withOpc m opHACK) = 0 → mFwd (withOpc m opHACK) = false → mHdata (withOpc m opHACK) = false →
    s.dirEnt (lineOf (mAddr (withOpc m opHACK))) = some e → s.slotListed e.cg (s.agentId p) = some k → e.st = .SX_I →
    e.awaiting.contains k = true → s.cgState e.cg ≠ 2 → e.awaiting.filter (· != k) ≠ [] →
    ∃ t, Runs (.hack p m) s t ∧
      t.dirEnt (lineOf (mAddr (withOpc m opHACK))) = some { e with
        awaiting := e.awaiting.filter (· != k), own := if e.own == some k then none else e.own, shr := e.shr.filter (· != k) } ∧
      (∀ l, l ≠ lineOf (mAddr (withOpc m opHACK)) → t.dirEnt l = s.dirEnt l) ∧ t.regs = v.regs ∧ t.sw = v.sw ∧
      t.home = s.home ∧ t.pool = s.pool) ∧
  (∀ (p : Nat) (m : Msg) (s w : State) (t : TAcc) (r : Req), p < 320 → s.active p = true →
    w = s.passAnswer p (withOpc m opDATA) (s.taccSub p (withOpc m opDATA)) → s.rd .PRT_PFTL_STAT_ROLE p = 3 → s.taccAt p (mSeq (withOpc m opDATA)) = some t → t.kind = .load [r] →
    (∃ k, r.org = .port k) → mOpc r.msg ≠ opAT → lineOf (mAddr r.msg) = t.line → tfind s.home.wbuf t.line = none →
    s.owes t.line = false →
    ∃ v u : State, Runs (.data p m) s u ∧ u.pool = v.pool ∧
      u.sw = (v.finish r (v.dataResp r.msg (v.lineBytes t.line) (mRpsn (withOpc m opDATA)))).sw ∧
      v.home = { s.home with tacc := s.home.tacc.erase t } ∧ v.sw = w.sw ∧ v.ports = s.ports ∧
      v.linePsn t.line = mRpsn (withOpc m opDATA) ∧
      (∀ a, memByte v.pool.mem a = if lineOf a = t.line
        then (slice (s.decrypt t.line (slice (withOpc m opDATA).payload 0 64)) 0 64).getD (a % 64) 0
        else memByte s.pool.mem a) ∧
      v.rd .POOL_POISON_RD_COUNT = (if mRpsn (withOpc m opDATA) then min (s.rd .POOL_POISON_RD_COUNT + 1) (2 ^ 32 - 1)
        else s.rd .POOL_POISON_RD_COUNT)) ∧
  (∀ (p : Nat) (m : Msg) (s w : State) (t : TAcc) (rs : List Req), p < 320 → s.active p = true →
    w = s.passAnswer p (withOpc m opDATA) (s.taccSub p (withOpc m opDATA)) → s.rd .PRT_PFTL_STAT_ROLE p = 3 → s.taccAt p (mSeq (withOpc m opDATA)) = some t → t.kind = .load rs → rs ≠ [] →
    Runs (.data p m) s ((((((w.dropTacc t).learnLine t.line (s.decrypt t.line (slice (withOpc m opDATA).payload 0 64))
      (mRpsn (withOpc m opDATA))).notePsn t.line).serveLoads t.line rs t.ent).wbufSettle t.line))) ∧
  (∀ (p q : Nat) (m : Msg) (s : State) (f : Fwd), p < 320 → s.active p = true → s.rd .PRT_PFTL_STAT_ROLE p ≠ 3 →
    s.fwdOf p (withOpc m opDATA) = some f → fwdOk f (withOpc m opDATA) = true → s.coh.engReads = [] →
    s.portOfAgent (mDst (withOpc m opDATA)) = some q →
    ∃ v t : State, Runs (.data p m) s t ∧ v.coh = { s.coh with fwds := s.coh.fwds.erase f } ∧ v.sw = s.sw ∧
      v.regs = s.regs ∧ v.ports = s.ports ∧ v.pool = s.pool ∧
      t = v.send (v.portDie p) q (mSc (withOpc m opDATA)) (v.reqSub q (mSeq (withOpc m opDATA)))
        (v.fwdMsg q (withOpc m opDATA)) none (s.headCut p (withOpc m opDATA))) ∧
  (∀ (p : Nat) (m : Msg) (s : State), p < 320 → s.active p = true → s.rd .PRT_PFTL_STAT_ROLE p ≠ 3 →
    s.fwdOf p (withOpc m opDATA) = none → Runs (.data p m) s (s.bump .DIR_PROTO_ERR_COUNT)) ∧
  (∀ (p : Nat) (m : Msg) (s w : State) (t : TAcc) (e : WbEnt), p < 320 → s.active p = true →
    w = s.passAnswer p (withOpc m opCMP) (s.taccSub p (withOpc m opCMP)) →
    s.rd .PRT_PFTL_STAT_ROLE p = 3 → s.taccAt p (mSeq (withOpc m opCMP)) = some t → t.kind = .writeBack →
    tfind s.home.wbuf t.line = some e → e.issued = true →
    ∃ u, Runs (.cmp p m) s u ∧ u.home.tacc = s.home.tacc.erase t ∧
      u.home.wbuf = (if (s.home.tacc.erase t).any (fun x => x.line == t.line) then s.home.wbuf
        else tdel s.home.wbuf t.line) ∧ u.regs = w.regs ∧ u.sw = w.sw ∧ u.pool = s.pool) ∧
  (∀ (p : Nat) (m : Msg) (s : State), p < 320 → s.active p = true → s.rd .PRT_PFTL_STAT_ROLE p ≠ 3 →
    ∃ t, Runs (.cmp p m) s t ∧
      t.rd .PRT_REFUSED_COUNT p = min (s.rd .PRT_REFUSED_COUNT p + 1) (2 ^ Fld.PRT_REFUSED_COUNT.width - 1) ∧
      Answers s t p (respMsg (mSc m) (mSrc m) (s.agentId p) (mSeq m) { status := stREFUSED }) ∧
      t.home = s.home ∧ t.pool = s.pool))

/-- The stores of the control window (Table 7.2): the lease word renews the lease, or starts a new one and clears
LOST, answered LEASE_GONE (R171, R179); the fence word does nothing and is answered OK (R170); RXA_BASE is applied at
once when no message is being written and waits otherwise (R172, R174); RXA_TAIL moves forward up to RXA_HEAD (R172).
MSG and the receive areas, each with what completes it: a MSG that every check passes is written into its
destination's area behind those being written, is held while a store to RXA_BASE waits there, or goes to the uplink
of its DSW and MPRI (R59, R159, R172 to R174); one that its policer has no room for is answered QUOTA and counted
(R143). RXA_BASE_APPLY: a waiting RXA_BASE is applied once no message is being written: the area is the new one,
empty, and nothing waits (R174). RECEIVE_AREA_POST: a message whose lines are performed moves RXA_HEAD on and is
answered (R173). Completes: MSG, LEASE_WORD_STORE, FENCE_WORD_STORE, RXA_BASE_STORE, RXA_BASE_APPLY, RXA_TAIL_STORE,
RECEIVE_AREA_POST. -/
def Obligations.WindowAndReceiveArea : Prop :=
  ((∀ (s v : State) (p id : Nat) (m : Msg) (r : Req), s.AtBlock v p (s.winMsg p m 0x8000 3) 0 r →
    mAddr r.msg = winBase + 65536 * id + 0x8000 → mSize r.msg = 8 → leAt r.msg.payload 0 8 < 32 →
    (leAt r.msg.payload 0 8 = 0 ∨ (s.rd .POOL_LEASE_CFG_MIN_LOG2 ≤ leAt r.msg.payload 0 8
      ∧ leAt r.msg.payload 0 8 ≤ s.rd .POOL_LEASE_CFG_MAX_LOG2)) →
    ∃ t w : State, Runs (.leaseWordStore p m) s t ∧
      t = w.finishCmp r (if (s.agent id).lost then stLEASE_GONE else stOK) ∧
      t.agent id = { s.agent id with valid := true, lost := false
                                     expiry := s.epoch + 2 ^ (if leAt r.msg.payload 0 8 = 0
                                       then s.rd .POOL_LEASE_CFG_DEF_LOG2 else leAt r.msg.payload 0 8) } ∧
      (∀ j, j ≠ id → t.agent j = s.agent j) ∧ t.pool = s.pool) ∧
  (∀ (s v : State) (p id : Nat) (m : Msg) (r : Req), s.AtBlock v p (s.winMsg p m 0x8000 3) 0 r →
    mAddr r.msg = winBase + 65536 * id + 0x8000 → mSize r.msg = 8 → 32 ≤ leAt r.msg.payload 0 8 →
    ∃ t, Runs (.leaseWordStore p m) s t ∧ t = v.finishCmp r stREFUSED ∧ t.agents = s.agents) ∧
  (∀ (s v : State) (p id : Nat) (m : Msg) (r : Req), s.AtBlock v p (s.winMsg p m 0x8100 0) 0 r →
    mAddr r.msg = winBase + 65536 * id + 0x8100 → mSize r.msg = 1 →
    ∃ t, Runs (.fenceWordStore p m) s t ∧ t = v.finishCmp r stOK ∧ t.pool = s.pool ∧ t.agents = s.agents) ∧
  (∀ (s v : State) (p id : Nat) (m : Msg) (r : Req), s.AtBlock v p (s.winMsg p m 0x8200 3) 0 r →
    mAddr r.msg = winBase + 65536 * id + 0x8200 → mSize r.msg = 8 → s.rxBaseOk (leAt r.msg.payload 0 8) = true →
    (s.agent id).writing = [] → (s.agent id).rxaPend = none → (s.agent id).held = [] →
    ∃ t, Runs (.rxaBaseStore p m) s t ∧
      t.agent id = { s.agent id with
        rxaBase := if leAt r.msg.payload 0 8 % 32 = 0 then 0 else leAt r.msg.payload 0 8 / 4096 * 4096
        rxaLog2 := leAt r.msg.payload 0 8 % 32, rxaHead := 0, rxaTail := 0 } ∧
      (∀ j, j ≠ id → t.agent j = s.agent j) ∧ t.pool = s.pool) ∧
  (∀ (s v : State) (p id : Nat) (m : Msg) (r : Req), s.AtBlock v p (s.winMsg p m 0x8200 3) 0 r →
    mAddr r.msg = winBase + 65536 * id + 0x8200 → mSize r.msg = 8 → s.rxBaseOk (leAt r.msg.payload 0 8) = true →
    (s.agent id).writing ≠ [] →
    ∃ t, Runs (.rxaBaseStore p m) s t ∧ t.agent id = { s.agent id with rxaPend := some r } ∧ t.pool = s.pool) ∧
  (∀ (s v : State) (p id : Nat) (m : Msg) (r : Req), s.AtBlock v p (s.winMsg p m 0x8210 3) 0 r →
    mAddr r.msg = winBase + 65536 * id + 0x8210 → mSize r.msg = 8 → leAt r.msg.payload 0 8 < 2 ^ 32 →
    (leAt r.msg.payload 0 8 + 2 ^ 32 - (s.agent id).rxaTail) % 2 ^ 32
      ≤ ((s.agent id).rxaHead + 2 ^ 32 - (s.agent id).rxaTail) % 2 ^ 32 →
    ∃ t, Runs (.rxaTailStore p m) s t ∧ t.agent id = { s.agent id with rxaTail := leAt r.msg.payload 0 8 } ∧
      (∀ j, j ≠ id → t.agent j = s.agent j) ∧ t.pool = s.pool)) ∧
  ((∀ (p : Nat) (m : Msg) (s v : State) (r : Req), s.MsgAdmitted v p (withOpc m opMSG) r → mDsw r.msg = 0 →
    v.msgDestExists r.msg = true → (v.agent (mDst r.msg)).rxaPend = none → (v.agent (mDst r.msg)).rxaLog2 ≠ 0 →
    1 + cdiv (mLen r.msg) 64 ≤ (v.agent (mDst r.msg)).rxaFree →
    ∃ t, Runs (.msg p m) s t ∧ t = v.rxPlace (mDst r.msg)
      { msg := r.msg, fromPort := some p, uplink := none, srcSw := 0, time := s.now, base := 0, sub := r.sub, hdrSent := false }) ∧
  (∀ (p : Nat) (m : Msg) (s v : State) (r w : Req), s.MsgAdmitted v p (withOpc m opMSG) r → mDsw r.msg = 0 →
    v.msgDestExists r.msg = true → (v.agent (mDst r.msg)).rxaPend = some w →
    ∃ t, Runs (.msg p m) s t ∧ t.agent (mDst r.msg) = { s.agent (mDst r.msg) with
        held := (s.agent (mDst r.msg)).held ++ [{ msg := r.msg, fromPort := some p, uplink := none, srcSw := 0, time := s.now,
                                                  base := 0, sub := r.sub, hdrSent := false }] } ∧
      (∀ j, j ≠ mDst r.msg → t.agent j = s.agent j) ∧ t.pool = s.pool) ∧
  (∀ (p u : Nat) (m : Msg) (s v : State) (r : Req), s.MsgAdmitted v p (withOpc m opMSG) r → mDsw r.msg ≠ 0 →
    v.uplinkFor (mDsw r.msg) (mMpri r.msg) = some u →
    ∃ t, Runs (.msg p m) s t ∧ t = v.send (v.portDie p) u 6 r.sub r.msg none ∧ t.pool = s.pool ∧ t.agents = s.agents) ∧
  (∀ (p : Nat) (m : Msg) (s : State), p < 320 → s.active p = true → s.rd .PRT_PFTL_STAT_ROLE p ≠ 3 →
    s.ingressCheck p (withOpc m opMSG) = .accept → (s.polMsg p (16 * mSlots (withOpc m opMSG))).1 = false →
    ∃ t, Runs (.msg p m) s t ∧ t = ((s.polMsg p (16 * mSlots (withOpc m opMSG))).2).refuseAt p (withOpc m opMSG) stQUOTA ∧
      t.rd .TM_POL_DROP_COUNT p = min (s.rd .TM_POL_DROP_COUNT p + 1) (2 ^ Fld.TM_POL_DROP_COUNT.width - 1)) ∧
  (∀ (id : Nat) (r : Req) (s : State), id < 4096 → (s.agent id).rxaPend = some r → (s.agent id).writing = [] →
    (∃ p, r.org = .port p) → s.rxBaseOk (leAt r.msg.payload 0 8) = true → (s.agent id).held = [] →
    ∃ t, Runs (.rxaBaseApply id) s t ∧
      t.agent id = { s.agent id with
        rxaBase := if leAt r.msg.payload 0 8 % 32 = 0 then 0 else leAt r.msg.payload 0 8 / 4096 * 4096
        rxaLog2 := leAt r.msg.payload 0 8 % 32, rxaHead := 0, rxaTail := 0, rxaPend := none } ∧
      (∀ j, j ≠ id → t.agent j = s.agent j) ∧ t.sw = (s.finishCmp r stOK).sw ∧ t.pool = s.pool) ∧
  (∀ (id : Nat) (r : Req) (s : State), id < 4096 → (s.agent id).rxaPend = some r → (s.agent id).writing = [] →
    s.rxBaseOk (leAt r.msg.payload 0 8) = true →
    Runs (.rxaBaseApply id) s ((s.finishCmp r stOK).rxSetBase id
      (if leAt r.msg.payload 0 8 % 32 = 0 then 0 else leAt r.msg.payload 0 8 / 4096 * 4096)
      (leAt r.msg.payload 0 8 % 32))) ∧
  (∀ (id : Nat) (r : Req) (s : State), id < 4096 → (s.agent id).rxaPend = some r → (s.agent id).writing = [] →
    s.rxBaseOk (leAt r.msg.payload 0 8) = false →
    Runs (.rxaBaseApply id) s ((s.finishCmp r stREFUSED).rxRelease id)) ∧
  (∀ (id : Nat) (x : RxMsg) (l : List RxMsg) (s : State), id < 4096 → (s.agent id).writing = x :: l → x.hdrSent = true →
    s.engQuiet (.rxa id) = true →
    ∃ t u : State, Runs (.receiveAreaPost id) s t ∧ t = (u.rxDrain x).msgAnswer id x stOK ∧
      u.agent id = { s.agent id with writing := l, rxaHead := ((s.agent id).rxaHead + x.lines) % 2 ^ 32 } ∧
      u.pool = s.pool ∧ u.regs = s.regs))

/-- A launch word that passes the checks of R253 opens its slot with its LCNT, OPID and deadline, is answered OK and
starts its operation; one that fails a check is answered with that check's status and the slot keeps its state. Where the
checks of Table 11.2 pass, the operation runs: REDUCE opens the entry of its TAG or joins it (R266); GATHER, FILTER, MATMUL,
EXPAND and COMPRESS are cut into parts, which are placed (R262, R263); OWNER_OF answers the extent's owner in AUX (R294);
XFER_OWNER writes its record, or T_END and FLAG (R295, R296); FILL, COPY, COMPARE and MREDUCE are taken up by the engines of
the homes of their range, whose shares end with their last line, and FILL leaves its pattern in memory (R190, R297, R298). The
abort word ends the operation whose LCNT it names, FLUSHED, is counted, and is answered OK whatever it names (R254).
CONTRIBUTION: a line for a chunk that has or may have an accumulator is staged there, answered OK and delivered with its
frame (R267, R269, R270). ACCUMULATOR_GRANT: a chunk whose lines are held is granted and they are taken in turn, none where
none is held (R269). CHUNK_EMITTED: the result frame of a delivered chunk is written, and once it is performed the chunk is
emitted and its accumulator is free (R281). Completes: REDUCE, GATHER, FILTER, MATMUL, EXPAND, COMPRESS, OWNER_OF,
XFER_OWNER, FILL, COPY, COMPARE, MREDUCE, ABORT_WORD, CONTRIBUTION, ACCUMULATOR_GRANT, CHUNK_EMITTED. -/
def Obligations.LaunchesAndContributions : Prop :=
  (∀ (c : Instr) (s v : State) (p opc res : Nat) (m : Msg) (r : Req) (k : Nat), Launch c p m opc res →
    s.AtSlot v p m opc res r k →
    (v.launchCheck k (leAt r.msg.payload 0 8) = none →
      ∃ u t : State, Runs c s t ∧ t = (u.finishCmp r stOK).startOp k (leAt r.msg.payload 0 8) r.res ∧
        (u.slot k).isOpen = true ∧ (u.slot k).lcnt = lwLcnt (leAt r.msg.payload 0 8) ∧
        (u.slot k).opc = lwOpc (leAt r.msg.payload 0 8) ∧ (u.slot k).crec = List.replicate 64 0 ∧
        (u.slot k).deadline = s.epoch + (if lwTmo (leAt r.msg.payload 0 8) = 0 then s.rd .RGF_CTL_DEF_TMO
          else lwTmo (leAt r.msg.payload 0 8)) ∧ (u.slot k).ackSeq = some r.seq ∧
        (∀ j, j ≠ k → u.slot j = s.slot j) ∧ u.pool = s.pool ∧
        u.rd .RGF_LAUNCH_COUNT = min (s.rd .RGF_LAUNCH_COUNT + 1) (2 ^ Fld.RGF_LAUNCH_COUNT.width - 1)) ∧
    (∀ st, v.launchCheck k (leAt r.msg.payload 0 8) = some st →
      ∃ w t : State, Runs c s t ∧ t = w.finishCmp r st ∧ t.slot k = s.slot k ∧ t.pool = s.pool)) ∧
  ((∀ (s u : State) (p k : Nat) (m : Msg) (d : List Byte), s.Launched u p m 0x01 0 k → d = (s.slot k).descBytes 64 →
    u.planStatus (u.reduceExtra (reducePlan (redShared d))) = stOK → redRank d < redCount d →
    u.collAt (redTag d) = none → u.rgf.closed.contains (redTag d) = false →
    ∃ (t : State) (c : Coll), Runs (.reduce p m) s t ∧ t.rgf.colls = u.rgf.colls ++ [c] ∧ t.collAt (redTag d) = some c ∧
      c.desc = redShared d ∧ c.joins = [(redRank d, slotAgentId k, k % 16)] ∧ c.deadline = (u.slot k).deadline ∧
      c.rmode = (u.slot k).rmode ∧ c.chunks = [] ∧ c.ended = none ∧ (t.slot k).isOpen = true ∧ (t.slot k).tot = redK d ∧
      (t.slot k).parts = min 32 (redK d) ∧ (∀ j, j ≠ k → t.slot j = s.slot j) ∧ t.pool = s.pool) ∧
  (∀ (s u : State) (p k : Nat) (m : Msg) (d : List Byte) (c : Coll), s.Launched u p m 0x01 0 k →
    d = (s.slot k).descBytes 64 → u.planStatus (u.reduceExtra (reducePlan (redShared d))) = stOK →
    u.collAt (redTag d) = some c → c.tag = redTag d → redShared d = c.desc → (u.slot k).tmo = c.tmo → redRank d < redCount c.desc →
    c.ranks.contains (redRank d) = false → c.ended = none →
    ∃ (t : State) (e : Coll), Runs (.reduce p m) s t ∧ t.collAt (redTag d) = some e ∧
      e.joins = c.joins ++ [(redRank d, slotAgentId k, k % 16)] ∧ e.ranks = c.ranks ++ [redRank d] ∧ e.chunks = c.chunks ∧
      (t.slot k).deadline = c.deadline ∧ (t.slot k).rmode = c.rmode ∧ (t.slot k).tot = redK d ∧
      (∀ j, j ≠ k → t.slot j = s.slot j) ∧ t.pool = s.pool) ∧
  (∀ (c : Instr) (s u w : State) (p opc k n : Nat) (m : Msg) (a : Plan), Launch c p m opc 0 → 2 ≤ opc → opc ≤ 6 →
    s.Launched u p m opc 0 k → w = (u.planRead k opc).2 → w.engNoted (slotOrg k) = [] → a = (u.planOf k opc).1 →
    w.planStatus a = stOK → n = w.partCount a (w.slot k).nosplit →
    ∃ t, Runs c s t ∧
      t = (partsOf k opc n a).foldl (fun s x => s.placePart x)
        (w.modSlot k (fun x => { x with parts := n, left := n, tot := a.tot })) ∧
      (partsOf k opc n a).length = n ∧ 1 ≤ n ∧ (t.slot k).isOpen = true ∧ (t.slot k).parts = n ∧ (t.slot k).left = n ∧
      (t.slot k).tot = a.tot ∧ (t.slot k).ending = false ∧ t.pool = w.pool ∧
      (∀ q, n = 1 → w.rgf.launchq = [] → w.placeFor (slotAgentId k % 32) (w.slot k).mask = some q →
        w.partner (w.dieOf q) = none →
        t.dieq (w.dieOf q) = w.dieq (w.dieOf q) ++ [
          { key := k, ix := 0, opc := opc, lo := 0, hi := a.axis, work := a.share 0 a.axis, place := q, running := false,
            worked := false }])) ∧
  (∀ (s u : State) (p k i : Nat) (m : Msg) (d : List Byte) (x : Extent), s.Launched u p m 0x07 0 k →
    d = (s.slot k).descBytes 64 → u.ownBusy k = false → addrOk d 0 = true → zeroBetween d 8 64 = true →
    u.extentAt (leAt d 0 8) = some (i, x) → x.state = 1 ∨ x.state = 2 →
    ∃ t, Runs (.ownerOf p m) s t ∧ (t.slot k).aux = b2n x.owned * 2 ^ 63 + x.owner * 2 ^ 48 + x.gen ∧
      (t.slot k).status = (if x.state = 1 then stOK else stLEASE_GONE) ∧ (t.slot k).ending = true ∧ (t.slot k).left = 0 ∧
      (t.slot k).pos = 1 ∧ (∀ j, j ≠ k → t.slot j = s.slot j) ∧ t.pool = s.pool) ∧
  (∀ (s u w y : State) (p k i rec_ : Nat) (m : Msg) (d : List Byte) (x : Extent), s.Launched u p m 0x08 0 k →
    d = (s.slot k).descBytes 64 → u.ownBusy k = false → rec_ = leAt d 16 8 → addrOk d 0 = true → addrOk d 16 = true →
    zeroBetween d 24 64 = true → leAt d 15 1 = 0 → leAt d 12 2 < 4096 → leAt d 14 1 = 1 → rec_ % 64 = 0 →
    u.rangeStatus (Rng.mk (leAt d 0 8) 1) = stOK → u.rangeStatus (Rng.mk rec_ 64) = stOK →
    u.rangeIn (Rng.mk rec_ 64) (fun x => !x.coh && !x.pub) = true → u.extentAt (leAt d 0 8) = some (i, x) → x.owned = true →
    x.gen = leAt d 8 4 → u.hasLease (leAt d 12 2) = true → w = u.modSlot k (fun x => { x with tot := 1 }) →
    y = (w.engWriteLine (slotOrg k) (slotAgentId k) 0 (w.agentSub (slotAgentId k)) 4 (rec_ / 64)
      (leBytes 8 (x.base * 2 ^ 21) ++ leBytes 4 x.gen ++ leBytes 2 x.owner ++ leBytes 2 (leAt d 12 2) ++ leBytes 8 w.now
        ++ leBytes 8 0 ++ leBytes 32 0) false).opAnswer k stOK 0 → y.engNoted (slotOrg k) = [] →
    Runs (.xferOwner p m) s y ∧ (y.slot k).ending = true ∧ (y.slot k).pos = 1 ∧ (y.slot k).left = 0 ∧ (y.slot k).tot = 1) ∧
  (∀ (s u w y : State) (p k i rec_ : Nat) (m : Msg) (d : List Byte) (x : Extent) (b : List Byte) (ps : List Bool),
    s.Launched u p m 0x08 0 k → d = (s.slot k).descBytes 64 → u.ownBusy k = false → rec_ = leAt d 16 8 → addrOk d 0 = true →
    addrOk d 16 = true → zeroBetween d 24 64 = true → leAt d 15 1 = 0 → leAt d 12 2 < 4096 → leAt d 14 1 = 2 → rec_ % 64 = 0 →
    u.rangeStatus (Rng.mk (leAt d 0 8) 1) = stOK → u.rangeStatus (Rng.mk rec_ 64) = stOK →
    u.rangeIn (Rng.mk rec_ 64) (fun x => !x.coh && !x.pub) = true → u.extentAt (leAt d 0 8) = some (i, x) → x.owned = true →
    x.gen = leAt d 8 4 → u.hasLease (leAt d 12 2) = true →
    (u.modSlot k (fun x => { x with tot := 1 })).opRead k rec_ 64 = ((b, ps), w) → ps.any (fun p => p) = false →
    leAt b 0 8 = x.base * 2 ^ 21 → leAt b 8 4 = x.gen → leAt b 14 2 = leAt d 12 2 → leAt b 63 1 = 0 → w.hasLease (leAt d 12 2) = true →
    y = ((w.xferClose k rec_ 1).modSlot k (fun x => { x with pos := 1, ending := true, left := 1 })).xferOver k →
    y.engNoted (slotOrg k) = [] →
    Runs (.xferOwner p m) s y ∧ (y.slot k).ending = true ∧ (y.slot k).pos = 1) ∧
  (∀ (c : Instr) (s u : State) (p opc res k : Nat) (m : Msg) (a : Plan), Launch c p m opc res → 0x10 ≤ opc → opc ≤ 0x13 →
    s.Launched u p m opc res k → a = nearPlan opc ((s.slot k).descBytes 128) → u.planStatus a = stOK →
    (opc = 0x13 → ∀ h, h ∈ (a.outs ++ a.ins).flatMap u.nearHomes → (u.adderOf h).isSome) →
    ∃ w t : State, Runs c s t ∧ t = w.nearGo k ∧ (w.slot k).isOpen = true ∧ (w.slot k).nearLeft = u.nearHomes a.nearRng ∧
      (w.slot k).parts = (u.nearHomes a.nearRng).length ∧ (w.slot k).tot = a.tot ∧ (w.slot k).left = 1 ∧
      (w.slot k).nearRun = [] ∧ (w.slot k).nearRes = residueFind res ∧ (∀ j, j ≠ k → w.slot j = s.slot j) ∧ w.pool = s.pool ∧
      (∀ (h : Nat) (y : State), u.nearHomes a.nearRng = [h] → w.engineFree k h = true →
        y = (w.modSlot k (fun x => { x with nearRun := [h] })).nearShare k opc (residueFind res) h → y.engNoted (slotOrg k) = [] →
        t = y.nearDone k opc h ∧ (t.slot k).nearLeft = (y.slot k).nearLeft.filter (· != h) ∧
        ((y.slot k).nearLeft = [h] → (t.slot k).ending = true ∧ (t.slot k).left = 0))) ∧
  (∀ (s u z : State) (p k i l : Nat) (m : Msg) (x : Extent) (pat : List Byte) (q : Req),
    s.Launched u p m 0x10 0 k → 64 * l = leAt ((s.slot k).descBytes 128) 0 8 → leAt ((s.slot k).descBytes 128) 8 8 = 64 →
    u.planStatus (nearPlan 0x10 ((s.slot k).descBytes 128)) = stOK → u.extentAt (64 * l) = some (i, x) → x.state = 1 →
    x.coh = false → x.pub = false → u.InOasis (l / 1024) → tfind u.home.runs l = none → u.engineFree k (u.homeOfPage (l / 1024)) = true →
    u.engNoted (slotOrg k) = [] →
    pat = (List.range 8).flatMap (fun _ => (((s.slot k).descBytes 128).drop 16).take 8) →
    z = ((u.modSlot k (fun y => { y with parts := 1, tot := 1, left := 1, nearLeft := [u.homeOfPage (l / 1024)], nearRes := 0 })).modSlot k
      (fun y => { y with nearRun := [u.homeOfPage (l / 1024)] })).onShare k (u.homeOfPage (l / 1024)) →
    q = engReq (slotOrg k) (slotAgentId k) (u.homeOfPage (l / 1024)) (z.agentSub (slotAgentId k)) opNWR 5 (64 * l) 6 [(17, 1, 0)] pat →
    (z.atPoint (320 + z.homeOf (mAddr q.msg) % 16)
      (z.candOf q (320 + z.homeOf (mAddr q.msg) % 16) z.nextId z.cycle)).1 = true →
    ∃ t, Runs (.fill p m) s t ∧ (t.slot k).ending = true ∧ (t.slot k).left = 0 ∧ (t.slot k).outCount = 1 ∧
      (t.slot k).status = stOK ∧
      (∀ b, memByte t.pool.mem b = if lineOf b = l then pat.getD (b % 64) 0 else memByte s.pool.mem b) ∧
      t.linePsn l = false)) ∧
  ((∀ (s v : State) (p : Nat) (m : Msg) (r : Req) (k : Nat),
    s.AtBlock v p (s.winMsg p m (0x800 * slotOfMsg m + 0x408) 3) 0 r → mSize r.msg = 8 →
    winOff (mAddr r.msg) < 0x8000 → winOff (mAddr r.msg) % 0x800 = 0x408 →
    k = slotKey (winAgent (mAddr r.msg)) (winOff (mAddr r.msg) / 0x800) → leAt r.msg.payload 0 8 < 65536 →
    Runs (.abortWord p m) s (if (v.slot k).isOpen = true ∧ (v.slot k).lcnt = leAt r.msg.payload 0 8
      then (v.finishCmp r stOK).abortOp k else v.finishCmp r stOK) ∧
    ((v.slot k).isOpen = true → (v.slot k).lcnt = leAt r.msg.payload 0 8 → (v.slot k).rank < 7 → v.collOf k = none →
      (∀ e ∈ v.rgf.dieq, ∀ x ∈ e.2, x.key = k → x.pending = false) →
      ∃ t, Runs (.abortWord p m) s t ∧ (t.slot k).ending = true ∧ (t.slot k).status = stFLUSHED ∧ (t.slot k).left = 0 ∧
        (∀ j, j ≠ k → t.slot j = s.slot j) ∧ t.pool = s.pool ∧
        t.rd .RGF_ABORT_COUNT = min (s.rd .RGF_ABORT_COUNT + 1) (2 ^ Fld.RGF_ABORT_COUNT.width - 1)) ∧
    (∀ x, (v.slot k).isOpen = true → (v.slot k).lcnt = leAt r.msg.payload 0 8 → (v.slot k).rank < 7 → v.collOf k = some x →
      ∃ w t : State, Runs (.abortWord p m) s t ∧ t = w.collLeave k ∧ (w.slot k).ending = true ∧
        (w.slot k).status = stFLUSHED ∧ (w.slot k).left = 0 ∧ (∀ j, j ≠ k → w.slot j = s.slot j) ∧ w.pool = s.pool ∧
        w.rd .RGF_ABORT_COUNT = min (s.rd .RGF_ABORT_COUNT + 1) (2 ^ Fld.RGF_ABORT_COUNT.width - 1))) ∧
  (∀ (s v : State) (p : Nat) (m : Msg) (r : Req) (x : Coll) (rank res : Nat),
    s.AtOwner v p (withField (withOpc m opST) 119 3 4) res r x rank →
    Runs (.contribution p m res) s (v.contribute r x.tag rank res)) ∧
  (∀ (s v : State) (p : Nat) (m : Msg) (r : Req) (x : Coll) (rank res i ln : Nat),
    s.AtOwner v p (withField (withOpc m opST) 119 3 4) res r x rank → v.collAt x.tag = some x → x.ended = none →
    mSize r.msg = 64 → i = (mAddr r.msg - redTarget x.desc) / 65536 → ln = (mAddr r.msg - redTarget x.desc) % 65536 / 64 →
    (x.chunk i).done.find? (fun e => e.1 == rank) = none → flag x.desc 11 0 = true ∨ ln < x.rawLines i →
    (x.chunk i).lines.any (fun l => l.1 == rank && l.2.1 == ln) = false →
    x.held.any (fun h => h.chunk == i && h.req.src == r.src) = false → (x.chunk i).granted = true ∨ v.accRoom x i = true →
    v.chunkBusy x.tag i = false ∨ v.stageUsed (v.dieOf (chunkSlot x.tag i)) < 131072 →
    ∃ u t : State, Runs (.contribution p m res) s t ∧
      t = ((u.contribOk x.tag i r).deliver x.tag i rank).residueFound (v.dieOf (chunkSlot x.tag i)) (residueFind res) ∧
      (u.collAt x.tag).map (fun c => ((c.chunk i).granted, (c.chunk i).lines))
        = some (true, (x.chunk i).lines ++ [(rank, ln, slice r.msg.payload 0 64, mPsn r.msg)]) ∧ u.pool = s.pool ∧
      u.rd .RGF_ACC_USED_ACC (v.dieOf (chunkSlot x.tag i)) = (if (x.chunk i).granted then
        s.rd .RGF_ACC_USED_ACC (v.dieOf (chunkSlot x.tag i))
        else (s.rd .RGF_ACC_USED_ACC (v.dieOf (chunkSlot x.tag i)) + 1) % 2 ^ Fld.RGF_ACC_USED_ACC.width)) ∧
  (∀ (tag chunk : Nat) (s : State) (c : Coll), s.contained = false → s.collAt tag = some c → c.ended = none →
    s.chunkBusy tag chunk = false →
    c.held.filter (fun h => h.chunk == chunk) ≠ [] → (c.chunk chunk).granted = true ∨ s.accRoom c chunk = true →
    ∃ u t : State, Runs (.accumulatorGrant tag chunk) s t ∧
      (u.collAt tag).map (·.held) = some (c.held.filter (fun h => h.chunk != chunk)) ∧ u.regs = s.regs ∧ u.sw = s.sw ∧
      u.pool = s.pool ∧
      t = (c.held.filter (fun h => h.chunk == chunk)).foldl (fun s h =>
        match c.joins.find? (fun j => j.2.1 == h.req.src) with
        | some j => s.contribute h.req tag j.1 h.req.res
        | none => s.contribOk tag chunk h.req) u) ∧
  (∀ (tag chunk : Nat) (s : State), s.contained = false →
    (∀ c, s.collAt tag = some c → c.held.filter (fun h => h.chunk == chunk) = [] ∨ c.ended.isSome = true ∨
      s.chunkBusy tag chunk = true) →
    Runs (.accumulatorGrant tag chunk) s s) ∧
  (∀ (tag chunk : Nat) (s b y : State) (x c : Coll), s.contained = false → s.chunkBusy tag chunk = false →
    s.partner (s.dieOf (chunkSlot tag chunk)) = none → s.collAt tag = some x → (x.chunk chunk).writing = true →
    (x.chunk chunk).issued = false → b = s.updChunk tag chunk (fun x => { x with pm := 0 }) → b.collAt tag = some c → c.ended = none →
    (c.chunk chunk).writing = true → (c.chunk chunk).issued = false → (c.chunk chunk).emitted = false →
    c.stopped.contains (chunkSlot tag chunk) = false → extentCheck (b.extentAt (65536 * (redOut c.desc / 65536 + chunk))) = none →
    (b.frameGate (c.chunk chunk) (redOut c.desc / 65536 + chunk)).1 = .go →
    y = (b.frameGate (c.chunk chunk) (redOut c.desc / 65536 + chunk)).2.emitChunk c chunk →
    ∃ t : State, Runs (.chunkEmitted tag chunk) s t ∧
      ∀ (e : Coll) (u : State), y.collAt tag = some e → e.stopped.contains (chunkSlot tag chunk) = false →
        u = (if y.frameQuiet e chunk then y.chunkOut e chunk else y) →
        (u.collAt tag).any (fun c => (c.chunk chunk).issued) = true → u.partner (s.dieOf (chunkSlot tag chunk)) = none →
        t = u) ∧
  (∀ (tag chunk : Nat) (s : State) (c : Coll), s.contained = false → s.collAt tag = some c → c.tag = tag → c.ended = none →
    s.chunkBusy tag chunk = false → (c.chunk chunk).writing = true → (c.chunk chunk).issued = true →
    (c.chunk chunk).emitted = false → s.frameQuiet c chunk = true → c.stopped.contains (chunkSlot tag chunk) = false →
    flag c.desc 11 3 = false →
    ∃ u t : State, Runs (.chunkEmitted tag chunk) s t ∧ t = u.collSettle tag ∧
      (u.collAt tag).map (fun c => ((c.chunk chunk).emitted, (c.chunk chunk).lines)) = some (true, []) ∧
      u.rd .RGF_ACC_USED_ACC (s.dieOf (chunkSlot tag chunk))
        = (s.rd .RGF_ACC_USED_ACC (s.dieOf (chunkSlot tag chunk)) - 1) % 2 ^ Fld.RGF_ACC_USED_ACC.width ∧
      u.pool = s.pool) ∧
  (∀ (tag chunk : Nat) (s : State), s.contained = true → Runs (.chunkEmitted tag chunk) s s))

/-- Parts. LAUNCH_QUEUE_PLACE: parts of the launch queue are placed while a queue has room, and wait in order where
none has (R263). PART_START: a die starts the first part whose units are free, journals it and does its work (R250,
R364), or, where it reads lines that are not at hand, asks for them and does not do it yet (R210, R220, R258).
PART_END: the end of a part is counted and takes it off its operation (R250). COMPLETION_RECORD: once an operation
has ended and its writes are performed, its completion record is written and the slot is no longer OPEN, and a
TAINTED one is counted (R257). OPERATION_TIMEOUT: an operation whose deadline has come ends TIMEOUT, a
collective with all its contributors (R258, R271), and none does in containment (R385). Completes:
LAUNCH_QUEUE_PLACE, PART_START, PART_END, COMPLETION_RECORD, OPERATION_TIMEOUT. -/
def Obligations.OperationsRun : Prop :=
  ((∀ (s : State), Runs .launchQueuePlace s s.placeWaiting) ∧
  (∀ (s : State), (∀ n mask, s.placeFor n mask = none) →
    ∃ t, Runs .launchQueuePlace s t ∧ t.rgf.launchq = s.rgf.launchq ∧ (∀ d, t.dieq d = s.dieq d) ∧ t.pool = s.pool) ∧
  (∀ (s : State) (x : Part) (q : Nat), s.rgf.launchq = [x] → s.placeFor (slotAgentId x.key % 32) (s.slot x.key).mask = some q →
    s.partner (s.dieOf q) = none →
    ∃ t, Runs .launchQueuePlace s t ∧ t.rgf.launchq = [] ∧ t.rd .RGF_LAUNCHQ_COUNT = 0 ∧
      t.dieq (s.dieOf q) = s.dieq (s.dieOf q) ++ [{ x with place := q }] ∧
      t.rd .RGF_QDEPTH_PARTS (s.dieOf q) = ((s.dieq (s.dieOf q)).length + 1) % 2 ^ Fld.RGF_QDEPTH_PARTS.width ∧
      (∀ d, d ≠ s.dieOf q → t.dieq d = s.dieq d) ∧ t.pool = s.pool) ∧
  (∀ (d res pm : Nat) (s : State) (x : Part), d < 36 → s.pairMayStart d = true → startable (s.dieq d) = some x →
    let y : Part := { x with running := true, pm := if (s.partner d).isSome then min pm 3 else 0
                             res := if residueCovers x.opc ∧ x.lo < x.hi then residueFind res else 0 }
    let a := s.setDieq d ((s.dieq d).map (fun z => if z = x then y else z))
    let b := (a.planOf x.key x.opc).2.journalPart d y (a.planOf x.key x.opc).1
    let e := match s.partner d with
      | some q => b.journalPart q y (a.planOf x.key x.opc).1
      | none => b
    let u := e.doWork d y
    b.partner d = s.partner d → Runs (.partStart d res pm) s (if u.engNoted (slotOrg x.key) = [] then u
      else e.engAskLines (slotOrg x.key) (slotAgentId x.key) (e.agentSub (slotAgentId x.key)) 4
        (u.engNoted (slotOrg x.key))) ∧
      (s.partner d = none → y ∈ a.dieq d ∧ a.pool = s.pool)) ∧
  (∀ (d res pm : Nat) (s : State), d < 36 → s.pairMayStart d = false ∨ startable (s.dieq d) = none →
    Runs (.partStart d res pm) s s) ∧
  (∀ (d : Nat) (s : State) (x : Part), d < 36 → s.dieRuns d = true → s.engaged d = false →
    (s.dieq d).find? (fun x => x.running && (x.worked || !s.engWaiting (slotOrg x.key))) = some x → x.worked = true →
    s.partner d = none →
    ∃ u t : State, Runs (.partEnd d) s t ∧
      t = (u.journalEnd d (s.slot x.key).opid x.place).partOver x.key ∧
      u.dieq d = (s.dieq d).filter (fun y => !(y.key == x.key && y.ix == x.ix && y.running)) ∧
      u.rd .RGF_PARTS_RUN_COUNT d = min (s.rd .RGF_PARTS_RUN_COUNT d + 1) (2 ^ Fld.RGF_PARTS_RUN_COUNT.width - 1) ∧
      u.pool = s.pool)) ∧
  ((∀ (id n : Nat) (s : State), id < 4096 → n < 16 → (s.slot (slotKey id n)).isOpen = true →
    (s.slot (slotKey id n)).ending = true → (s.slot (slotKey id n)).left = 0 → s.opQuiet (slotKey id n) = true →
    (∀ c ∈ s.rgf.colls, c.slots.contains (slotKey id n) = false) →
    ∃ t, Runs (.completionRecord id n) s t ∧ (t.slot (slotKey id n)).isOpen = false ∧
      (t.slot (slotKey id n)).crec = (s.slot (slotKey id n)).record s.now ∧
      (∀ k, k ≠ slotKey id n → t.slot k = s.slot k) ∧ t.pool = s.pool ∧
      ((s.slot (slotKey id n)).status ≠ stTAINTED → t.regs = s.regs ∧ t.agents = s.agents) ∧
      ((s.slot (slotKey id n)).status = stTAINTED →
        (t.agent id).tainted = ((s.agent id).tainted + 1) % 2 ^ 32 ∧
        t.rd .SCN_TAINTED_OPS_COUNT = min (s.rd .SCN_TAINTED_OPS_COUNT + 1) (2 ^ Fld.SCN_TAINTED_OPS_COUNT.width - 1))) ∧
  (∀ (id n : Nat) (s u : State), id < 4096 → n < 16 → (s.slot (slotKey id n)).isOpen = true →
    (s.slot (slotKey id n)).ending = true → (s.slot (slotKey id n)).left = 0 → s.opQuiet (slotKey id n) = true →
    u = (((s.taintedOp id (s.slot (slotKey id n))).modSlot (slotKey id n) (fun y =>
      { y with isOpen := false, ending := false, tDone := s.now, crec := (s.slot (slotKey id n)).record s.now })).engForget
        (slotOrg (slotKey id n))) →
    Runs (.completionRecord id n) s (u.collDone (slotKey id n)) ∧ (u.slot (slotKey id n)).isOpen = false ∧ u.pool = s.pool) ∧
  (∀ (id n : Nat) (s u : State), id < 4096 → n < 16 →
    u = (if s.contained then s else
      ((s.partsResume (slotKey id n)).nearResume (slotKey id n)).ownResume (slotKey id n)).xferOver (slotKey id n) →
    (u.slot (slotKey id n)).ending = false ∨ (u.slot (slotKey id n)).left ≠ 0 ∨ u.opQuiet (slotKey id n) = false →
    Runs (.completionRecord id n) s u) ∧
  (∀ (id n : Nat) (s : State), id < 4096 → n < 16 → (s.slot (slotKey id n)).isOpen = true → s.contained = false →
    (s.slot (slotKey id n)).deadline ≤ s.epoch → (s.slot (slotKey id n)).ending = false ∨
      ((s.slot (slotKey id n)).rank < 4 ∧ ((s.slot (slotKey id n)).left ≠ 0 ∨ s.opQuiet (slotKey id n) = false)) →
    s.collOf (slotKey id n) = none → (∀ e ∈ s.rgf.dieq, ∀ x ∈ e.2, x.key = slotKey id n → x.pending = false) →
    ∃ t, Runs (.operationTimeout id n) s t ∧ t = s.stopOp (slotKey id n) 4 stTIMEOUT ∧
      (t.slot (slotKey id n)).ending = true ∧ (t.slot (slotKey id n)).left = 0 ∧
      ((s.slot (slotKey id n)).rank < 4 → (t.slot (slotKey id n)).status = stTIMEOUT) ∧
      (∀ k, k ≠ slotKey id n → t.slot k = s.slot k) ∧ t.pool = s.pool) ∧
  (∀ (id n : Nat) (s : State) (c : Coll), id < 4096 → n < 16 → (s.slot (slotKey id n)).isOpen = true → s.contained = false →
    (s.slot (slotKey id n)).deadline ≤ s.epoch → (s.slot (slotKey id n)).ending = false → s.collOf (slotKey id n) = some c →
    Runs (.operationTimeout id n) s (s.collEnd c.tag 4 stTIMEOUT true)) ∧
  (∀ (id n : Nat) (s : State), id < 4096 → n < 16 → s.contained = true ∨ s.epoch < (s.slot (slotKey id n)).deadline →
    Runs (.operationTimeout id n) s s))

/-- The performed frontier: a request without a final response in time, whose home has not stopped its timer with a
tray error, gets the error value and a cancel goes out (R66, R80); a cancel discards a request that is not performed
and marks its number as resolved, and leaves one that is performed alone (R80); the confirmation lets the frontier
pass (R80); a missing run of numbers is closed, counted and recorded (R52); a report settles its number (R79); a
change of the frontier reaches a memory complex (R81). Tray work: an access the tray did not answer in time is lost
and reported as a tray error, unless its port is in RETRAIN (R71, R151); a line of the write buffer that is whole is
written back and one that is partial is first read (R70, R77); none starts in a teardown, nor while the line's page
is on the move (Table 18.2, R202). Completes: LOAD_TIMEOUT, CANCEL, CANCEL_CONFIRM, SEQ_GAP_CLOSE, PERFORMED_REPORT,
FRONTIER_UPDATE, TRAY_TMO, TRAY_WRITE_BACK. -/
def Obligations.FrontiersAndTrays : Prop :=
  ((∀ (p seq : Nat) (s : State) (o : Outst),
    (s.source p).outst.find? (fun o => o.seq == seq && !o.answered && !o.stopped) = some o →
    ∃ t, Runs (.loadTimeout p seq) s t ∧ (t.source p).cancels = (s.source p).cancels ++ [seq] ∧
      (t.source p).pf = (s.source p).pf ∧ (t.source p).above = (s.source p).above ∧
      t.rd .PRT_TMO_COUNT p = min (s.rd .PRT_TMO_COUNT p + 1) (2 ^ Fld.PRT_TMO_COUNT.width - 1) ∧ t.pool = s.pool ∧
      Answers s t p (respMsg (mSc o.msg) (mSrc o.msg) (s.agentId p) seq (s.errorValue o.msg))) ∧
  (∀ (p seq : Nat) (s : State), (s.source p).cancels.contains seq = true → (s.source p).isDone seq = true →
    ∃ t, Runs (.cancel p seq) s t ∧ (t.source p).cancels = (s.source p).cancels.filter (· != seq) ∧
      (t.source p).canceled = (s.source p).canceled ∧ t.home = s.home ∧ t.coh = s.coh ∧ t.pool = s.pool ∧ t.regs = s.regs) ∧
  (∀ (p seq : Nat) (s : State), (s.source p).cancels.contains seq = true → (s.source p).isDone seq = false →
    ∃ u t : State, Runs (.cancel p seq) s t ∧ seq ∈ (t.source p).canceled ∧
      ((∀ e ∈ s.agents, ∀ r, e.2.rxaPend = some r → isSeq p seq r = false) → t.pool.mem = s.pool.mem) ∧
      t.rd .POOL_CANCEL_COUNT = min (s.rd .POOL_CANCEL_COUNT + 1) (2 ^ Fld.POOL_CANCEL_COUNT.width - 1) ∧
      t = ((u.discard p seq).updSource p (fun q => { q with canceled := q.canceled ++ [seq] })).bump .POOL_CANCEL_COUNT ∧
      u = s.updSource p (fun q => { q with cancels := q.cancels.filter (· != seq) })) ∧
  (∀ (p seq : Nat) (s : State), (s.source p).canceled.contains seq = true →
    ∃ u : State, Runs (.cancelConfirm p seq) s (u.settleSeq p seq) ∧
      (u.source p).canceled = (s.source p).canceled.filter (· != seq) ∧
      (u.source p).outst = (s.source p).outst.filter (fun o => o.seq != seq) ∧ (u.source p).pf = (s.source p).pf ∧
      u.regs = s.regs ∧ u.pool = s.pool) ∧
  (∀ (p : Nat) (s : State), (s.source p).gap ≠ [] →
    ∃ t u : State, Runs (.seqGapClose p) s t ∧ t = u.event .seqGap p ∧
      u.rd .PRT_SEQ_GAP_COUNT p
        = min (s.rd .PRT_SEQ_GAP_COUNT p + (s.source p).gap.length) (2 ^ Fld.PRT_SEQ_GAP_COUNT.width - 1) ∧
      (u.source p) = (s.source p).gap.foldl (fun q n => q.settle n) (s.source p)) ∧
  (∀ (p seq : Nat) (s : State), (s.source p).unreported.contains seq = true →
    ∃ t, Runs (.performedReport p seq) s t ∧
      t.source p = Source.settle { s.source p with unreported := (s.source p).unreported.erase seq } seq ∧
      (∀ q, q ≠ p → t.source q = s.source q) ∧ t.regs = s.regs ∧ t.pool = s.pool ∧ t.home = s.home) ∧
  (∀ (k p : Nat) (s : State), k < 16 → p < 320 → s.on .PRT_PFTL_STAT_BOUND p = true →
    ∃ t, Runs (.frontierUpdate k p) s t ∧ t.frontierAt k p = (s.source p).pf ∧
      (∀ j q, pfKey j q ≠ pfKey k p → t.frontierAt j q = s.frontierAt j q) ∧ t.regs = s.regs ∧ t.pool = s.pool)) ∧
  ((∀ (p seq : Nat) (s : State) (a : TAcc), s.taccAt p seq = some a → s.lstate p ≠ 3 →
    Runs (.trayTmo p seq) s ((s.trayLost a).raise 0x03 p)) ∧
  (∀ (p seq : Nat) (s : State) (a : TAcc) (r : Req), s.taccAt p seq = some a → s.lstate p ≠ 3 → a.kind = .load [r] →
    (∃ k, r.org = .port k) →
    ∃ u t : State, Runs (.trayTmo p seq) s t ∧ t = u.raise 0x03 p ∧
      u = ((s.dropTacc a).stopTimer r).finish r (s.errorValue r.msg) ∧ u.home.tacc = s.home.tacc.erase a ∧ u.pool = s.pool) ∧
  (∀ (p seq : Nat) (s : State) (a : TAcc), s.taccAt p seq = some a → s.lstate p = 3 → Runs (.trayTmo p seq) s s) ∧
  (∀ (line : Nat) (s : State) (e : WbEnt), s.rd .SEC_TEN_STAT_STATE ≠ 2 → (s.page (line / 1024)).loc ≠ 2 →
    s.owes line = false → tfind s.home.wbuf line = some e → e.issued = false →
    s.home.tacc.any (fun t => t.line == line) = false → s.trayGate line e.cls 5 = .tray → 64 ≤ e.bytes.length →
    ∃ u : State, Runs (.trayWriteBack line) s (u.traySend line true (e.bytes.map (·.2)) e.psn e.cls e.sub .writeBack) ∧
      u.home = { s.home with wbuf := tins s.home.wbuf line { e with issued := true } } ∧ u.regs = s.regs ∧ u.pool = s.pool) ∧
  (∀ (line : Nat) (s : State) (e : WbEnt), s.rd .SEC_TEN_STAT_STATE ≠ 2 → (s.page (line / 1024)).loc ≠ 2 →
    s.owes line = false → tfind s.home.wbuf line = some e → e.issued = false →
    s.home.tacc.any (fun t => t.line == line) = false → s.trayGate line e.cls 5 = .tray → e.bytes.length < 64 →
    Runs (.trayWriteBack line) s (s.traySend line false [] false (if e.cls = 5 then 5 else 2) e.sub .fill)) ∧
  (∀ (line : Nat) (s : State), s.rd .SEC_TEN_STAT_STATE ≠ 2 → (s.page (line / 1024)).loc ≠ 2 → s.owes line = true →
    Runs (.trayWriteBack line) s ((s.owedIn line).writeBack line)) ∧
  (∀ (line : Nat) (s : State), s.rd .SEC_TEN_STAT_STATE = 2 ∨ (s.page (line / 1024)).loc = 2 →
    Runs (.trayWriteBack line) s s))

/-- The frontier of a source passes only numbers that are performed or resolved, and passes all it can: settling a
number moves it over that number and over numbers recorded above it, and afterwards its own number is not recorded
(R79). -/
def Obligations.FrontierSettle : Prop :=
  ∀ (q : Source) (seq : Nat), q.pf < 2 ^ 20 → q.pf ∉ q.above →
    ∃ n, n ≤ q.above.length + 1 ∧ (q.settle seq).pf = (q.pf + n) % 2 ^ 20 ∧
      (∀ i, i < n → (q.pf + i) % 2 ^ 20 = seq ∨ (q.pf + i) % 2 ^ 20 ∈ q.above) ∧
      (q.settle seq).pf ∉ (q.settle seq).above ∧ (∀ x ∈ (q.settle seq).above, x = seq ∨ x ∈ q.above) ∧
      (q.settle seq).outst = q.outst ∧ (q.settle seq).unreported = q.unreported

/-- Crossings: a message that arrives with the number its port die expects is released into its egress, with those
held behind it, and one that is ahead is held (R103); a gap that stays open is a fault of the plane that carries the
missing message (R103, R120); an acknowledged message frees its ingress slots (R97). The windows of combining and
merging: a read entry closes (R113); a group of atomics is applied, its members one after the other (R114); the run of a
line is applied and its window opens again, or ends when it is empty (R116). Completes: XSN_ARRIVAL, REORDER_GAP_TIMEOUT,
ACKNOWLEDGE, LINE_ENTRY_CLOSE, ATOMIC_GROUP_APPLY, MERGE_WINDOW_CLOSE. -/
def Obligations.CrossingsAndWindows : Prop :=
  ((∀ (o d x : Nat) (s : State), s.sw.cross.filter (fun c => c.org == o && c.dst == d && c.xsn == x) ≠ [] →
    (∀ c ∈ s.sw.cross, c.org = o → c.dst = d → c.xsn = x → c.plane < 8 ∧ s.planeFailed c.plane = false ∧ s.linkNext c = true) →
    x < 65536 → tget 0 s.sw.xsnDone (Nat.pair o d) < 65536 → (x + 65536 - tget 0 s.sw.xsnDone (Nat.pair o d)) % 65536 < 4096 →
    s.sw.xhold.any (fun c => c.org == o && c.dst == d && c.xsn == x) = false →
    ∃ u t : State, Runs (.xsnArrival o d x) s t ∧ t = u.release o d u.sw.xhold.length ∧
      u.sw.cross = s.sw.cross.filter (fun c => !(c.org == o && c.dst == d && c.xsn == x)) ∧
      u.sw.xhold = s.sw.xhold ++ s.sw.cross.filter (fun c => c.org == o && c.dst == d && c.xsn == x) ∧
      u.sw.xsnDone = s.sw.xsnDone ∧ u.sw.egr = s.sw.egr ∧ u.pool = s.pool) ∧
  (∀ (o d x : Nat) (s : State), s.sw.cross.filter (fun c => c.org == o && c.dst == d && c.xsn == x) ≠ [] →
    (∀ c ∈ s.sw.cross, c.org = o → c.dst = d → c.xsn = x → c.plane < 8 ∧ s.planeFailed c.plane = false ∧ s.linkNext c = true) →
    4096 ≤ (x + 65536 - tget 0 s.sw.xsnDone (Nat.pair o d)) % 65536 ∨
      s.sw.xhold.any (fun c => c.org == o && c.dst == d && c.xsn == x) = true →
    ∃ t, Runs (.xsnArrival o d x) s t ∧
      t.sw.cross = s.sw.cross.filter (fun c => !(c.org == o && c.dst == d && c.xsn == x)) ∧ t.sw.xhold = s.sw.xhold ∧
      t.rd .SWC_REORDER_DUP_COUNT = min (s.rd .SWC_REORDER_DUP_COUNT
        + (s.sw.cross.filter (fun c => c.org == o && c.dst == d && c.xsn == x)).length)
        (2 ^ Fld.SWC_REORDER_DUP_COUNT.width - 1) ∧ t.pool = s.pool) ∧
  (∀ (o d : Nat) (s : State) (c : Cross), s.sw.xhold.any (fun c => c.org == o && c.dst == d) = true →
    s.sw.cross.find? (fun c => c.org == o && c.dst == d && c.xsn == tget 0 s.sw.xsnDone (Nat.pair o d)) = some c →
    c.plane < 8 → s.planeFailed c.plane = false →
    ∃ t, Runs (.reorderGapTimeout o d) s t ∧ t = s.planeFail c.plane ∧ t.planeFailed c.plane = true ∧
      t.rcv.raised = (s.raise 0x05 c.plane).rcv.raised ∧ t.pool = s.pool ∧ t.sw = s.sw) ∧
  (∀ (n : Nat) (s : State) (x : IngMsg), s.sw.ing.find? (fun x => x.n == n && x.taken) = some x → s.accHeld n = false →
    ∃ t, Runs (.acknowledge n) s t ∧ t.sw.ing = s.sw.ing.filter (fun y => y.n != n) ∧
      (t.link x.port).freed = (s.link x.port).freed.set x.pool (((s.link x.port).freed.getD x.pool 0 + x.slots) % 4096) ∧
      (∀ q, q ≠ x.port → t.port q = s.port q) ∧ t.pool = s.pool)) ∧
  ((∀ (line : Nat) (s : State), ∃ t, Runs (.lineEntryClose line) s t ∧ tfind t.home.rdEnts line = none ∧
    (∀ l, l ≠ line → tfind t.home.rdEnts l = tfind s.home.rdEnts l) ∧ t.home.runs = s.home.runs ∧ t.regs = s.regs ∧
    t.pool = s.pool ∧ t.sw = s.sw) ∧
  (∀ (addr : Nat) (s : State) (g : AtGrp) (r : Req) (l : List Req),
    s.home.atGrps.find? (fun g => g.addr == addr) = some g → g.members = r :: l → extentCheck (s.extentAt g.addr) = none →
    s.InOasis (pageOf g.addr) → s.onTray (lineOf g.addr) = false → s.heatCounted (pageOf g.addr) = false →
    ∃ u t : State, Runs (.atomicGroupApply addr) s t ∧ t = (r :: l).foldl (fun s r => s.doAtomic r) u ∧
      u.home = { s.home with atGrps := s.home.atGrps.filter (fun x => !(x == g)) } ∧ u.regs = s.regs ∧ u.pool = s.pool ∧
      u.sw = s.sw ∧ u.coh = s.coh) ∧
  (∀ (line : Nat) (s : State), tfind s.home.runs line = some [] →
    ∃ t, Runs (.mergeWindowClose line) s t ∧ tfind t.home.runs line = none ∧ t.regs = s.regs ∧ t.pool = s.pool) ∧
  (∀ (line : Nat) (s : State) (r : Req) (l : List Req), tfind s.home.runs line = some (r :: l) →
    extentCheck (s.extentAt (64 * line)) = none → s.InOasis (line / 1024) → s.heatCounted (line / 1024) = false →
    ∃ u t : State, Runs (.mergeWindowClose line) s t ∧ t = u.writeRun line (r :: l) ∧
      u.home = { s.home with runs := tins s.home.runs line [] } ∧ u.regs = s.regs ∧ u.pool = s.pool ∧ u.sw = s.sw ∧
      u.coh = s.coh) ∧
  (∀ (line : Nat) (s : State) (r : Req) (l : List Req) (st : Nat), tfind s.home.runs line = some (r :: l) →
    extentCheck (s.extentAt (64 * line)) = some st →
    ∃ u t : State, Runs (.mergeWindowClose line) s t ∧ t = (r :: l).foldl (fun s r => s.finishCmp r st) u ∧
      u.home = { s.home with runs := tins s.home.runs line [] } ∧ u.regs = s.regs ∧ t.pool = s.pool))

/-- Planes (Table 4.3): a plane that fails is FAILED and reported; the spare takes the failed plane's slot and
FAILOVER counts; with no spare N falls by one; the last plane lost is an S4 error (R120 to R123). The mirror ring: the
oldest record that waits passes its die's point, is written at its slot of the ring and MIRR_WPTR advances, or it is dropped
and counted; where the point does not take it, its write waits there (R127, R131); EN is set only when the ring lies in one suitable ACTIVE extent, else BADRING (R127, R128). Completes: PLANE_FAULT,
SPARE_IN_SERVICE, PLANE_REDUCE, MIRROR_RECORD_PERFORMED, MIRR_CTL. -/
def Obligations.PlanesAndMirror : Prop :=
  ((∀ (n : Nat) (s : State), n < 8 → s.planeFailed n = false →
    ∃ t, Runs (.planeFault n) s t ∧ t.planeFailed n = true ∧
      (∀ m, m < 8 → m ≠ n → t.planeFailed m = s.planeFailed m) ∧ t.rcv.raised = (s.raise 0x05 n).rcv.raised ∧
      t.pool = s.pool ∧ t.sw = s.sw) ∧
  (∀ (h q : Nat) (l : List Nat) (s : State), s.failedSlots = h :: l → s.sparePlane = some q →
    ∃ u : State, Runs .spareInService s ((u.bump .SWC_FAILOVER_COUNT).replane (s.planeIn h)) ∧
      u.planeIn h = q % 2 ^ Fld.SWC_PLANE_MAP_SLOT.width ∧ (∀ i, i ≠ h → u.planeIn i = s.planeIn i) ∧ u.pool = s.pool) ∧
  (∀ (h : Nat) (l : List Nat) (s : State), s.failedSlots = h :: l → s.sparePlane = none →
    2 ≤ s.rd .SWC_PLANE_STAT_N_ACTIVE →
    ∃ u : State, Runs .planeReduce s (u.replane (s.planeIn h)) ∧
      u.rd .SWC_PLANE_STAT_N_ACTIVE = (s.rd .SWC_PLANE_STAT_N_ACTIVE - 1) % 2 ^ Fld.SWC_PLANE_STAT_N_ACTIVE.width ∧
      u.pool = s.pool) ∧
  (∀ (h : Nat) (l : List Nat) (s : State), s.failedSlots = h :: l → s.sparePlane = none →
    s.rd .SWC_PLANE_STAT_N_ACTIVE ≤ 1 → s.contained = false →
    ∃ u : State, Runs .planeReduce s (((u.event .contain 0 0 2).irq 1).carAbortAll (fun _ => true)) ∧ u.contained = true ∧
      u.rd .EVT_CONTAIN_CAUSE = 2 ∧ u.rd .EVT_CONTAIN_CLASS = 0x0F ∧ u.pool = s.pool ∧ u.sw = s.sw)) ∧
  ((∀ (s u v : State) (r : MirRec) (l : List MirRec) (st : Nat), s.sw.mirq = r :: l → r.sent = false →
    u = { s with sw := { s.sw with mirq := { r with sent := true } :: l } } →
    u.EngPasses v (engReq .mirror 0 0 1023 opNWR 7 (s.mirrAddr r.index) 5 [] (slice r.bytes 0 32)) →
    s.mirrAddr r.index < 2 ^ 48 → extentCheck (s.extentAt (s.mirrAddr r.index)) = some st →
    ∃ t, Runs .mirrorRecordPerformed s t ∧ t.sw.mirq = l ∧
      t.rd .MIRR_WPTR_INDEX = (s.rd .MIRR_WPTR_INDEX + 1) % 2 ^ 32 ∧
      t.rd .MIRR_DROP_ERR_COUNT = min (s.rd .MIRR_DROP_ERR_COUNT + 1) (2 ^ Fld.MIRR_DROP_ERR_COUNT.width - 1) ∧
      t.pool = s.pool) ∧
  (∀ (s u : State) (r : MirRec) (l : List MirRec) (q : Req) (n : Nat), s.sw.mirq = r :: l → r.sent = false →
    u = { s with sw := { s.sw with mirq := { r with sent := true } :: l } } →
    q = engReq .mirror 0 0 1023 opNWR 7 (s.mirrAddr r.index) 5 [] (slice r.bytes 0 32) →
    n = 320 + u.homeOf (mAddr q.msg) % 16 → (u.atPoint n (u.candOf q n u.nextId u.cycle)).1 = false →
    Runs .mirrorRecordPerformed s ((u.atPoint n (u.candOf q n u.nextId u.cycle)).2.queueAt n q)) ∧
  (∀ (s u v : State) (r : MirRec) (l : List MirRec) (i : Nat) (x : Extent), s.sw.mirq = r :: l → r.sent = false →
    u = { s with sw := { s.sw with mirq := { r with sent := true } :: l } } →
    u.EngPasses v (engReq .mirror 0 0 1023 opNWR 7 (s.mirrAddr r.index) 5 [] (slice r.bytes 0 32)) →
    s.mirrAddr r.index < 2 ^ 48 → s.extentAt (s.mirrAddr r.index) = some (i, x) → x.state = 1 →
    x.coh = false → x.pub = false → s.InOasis (pageOf (s.mirrAddr r.index)) →
    tfind s.home.runs (lineOf (s.mirrAddr r.index)) = none → s.on .SWC_CTL_MRG_EN = false →
    s.badSyms (lineOf (s.mirrAddr r.index)) = 0 → s.linePsn (lineOf (s.mirrAddr r.index)) = false →
    ∃ t, Runs .mirrorRecordPerformed s t ∧ t.sw.mirq = l ∧
      t.rd .MIRR_WPTR_INDEX = (s.rd .MIRR_WPTR_INDEX + 1) % 2 ^ 32 ∧
      t.rd .MIRR_DROP_ERR_COUNT = s.rd .MIRR_DROP_ERR_COUNT ∧
      (∀ a, memByte t.pool.mem a = if s.mirrAddr r.index ≤ a ∧ a < s.mirrAddr r.index + 32
        then (slice r.bytes 0 32).getD (a - s.mirrAddr r.index) 0 else memByte s.pool.mem a)) ∧
  (∀ (v : Nat) (s : State), s.hostHeld = false → bit v 0 = true → s.on .MIRR_CTL_EN = false →
    ∃ t, Runs (.mirrCtl v) s t ∧ t.rd .MIRR_CTL_WRAP = bits v 1 1 ∧
      (16 ≤ bits v 8 5 → bits v 8 5 ≤ 25 → t.rd .MIRR_CTL_LOG2SZ = bits v 8 5) ∧
      (t.ringOk = true → t.rd .MIRR_CTL_EN = 1 ∧ t.rd .MIRR_STAT_BADRING = s.rd .MIRR_STAT_BADRING) ∧
      (t.ringOk = false → t.rd .MIRR_CTL_EN = 0 ∧ t.rd .MIRR_STAT_BADRING = 1) ∧ t.pool = s.pool) ∧
  (∀ (v : Nat) (s : State), s.hostHeld = false → bit v 0 = false → ∃ t, Runs (.mirrCtl v) s t ∧ t.rd .MIRR_CTL_EN = 0 ∧ t.pool = s.pool))

/-- The life of a port (R75, R119, R149, R154 to R156): a lost link is a counted down; a write of EN = 0 takes the
port down uncounted; a signal starts training; the end of training brings the port UP with its configured lanes and a
PFTL port starts discovery; a hold-down and a park end. A counted down (R154 to R156): DOWN_CNT and the history grow;
below the limit the port is in HOLD for 2^(BASE_LOG2 + k - 1) epochs, at most 2^MAX_LOG2, and at the limit it is
PARKED. Completes: LINK_LOSS, FLUSH_COMPLETE, REBIND, PRT_CTL_EN, SIGNAL_DETECT, TRAINING_COMPLETE, HOLD_EXPIRY,
CLR_PARK. -/
def Obligations.PortsComeAndGo : Prop :=
  ((∀ (p : Nat) (s : State), p < 320 → s.lstate p = 2 ∨ s.lstate p = 3 →
    Runs (.linkLoss p) s ((s.updPort p (fun x => { x with signal := false })).downCounted p)) ∧
  (∀ (p : Nat) (s : State), p < 320 → s.lstate p = 1 → ∃ t, Runs (.linkLoss p) s t ∧ t.lstate p = 0 ∧
    t.rd .PRT_DOWN_CNT_COUNT p = s.rd .PRT_DOWN_CNT_COUNT p ∧ t.pool = s.pool) ∧
  (∀ (p : Nat) (s : State), p < 320 → (s.port p).flushing = true →
    (s.sw.cross ++ s.sw.xhold ++ s.sw.voq).any (fun c => c.point == p) = false →
    s.agents.any (fun e => e.2.walking && e.2.port == some p) = false →
    ∃ u t : State, Runs (.flushComplete p) s t ∧ t = u.prstFlushed ∧ (u.port p).flushing = false ∧
      (∀ q, q ≠ p → u.port q = s.port q) ∧ u.regs = s.regs ∧ u.pool = s.pool ∧ (s.on .GLB_PRST_RES_BUSY = false → t = u)) ∧
  (∀ (p : Nat) (s : State), s.hostHeld = false → p < 320 → s.isPftl p = true → s.on .PRT_PFTL_STAT_BOUND p = true →
    s.lstate p ≠ 3 → ∃ u t : State, Runs (.rebind p) s t ∧ u = s.unbind p ∧ t = u.discFollow p ∧
      (u.lstate p = 2 → u.on .PRT_PFTL_STAT_BOUND p = false → u.isPftl p = true →
        t.rd .PRT_PFTL_STAT_STATE p = (if u.on .PRT_PFTL_CTL_DISC_EN p then 1 else 0) ∧ (t.port p).offered = none)) ∧
  (∀ (p : Nat) (s : State), s.hostHeld = false → p < 320 → s.isPftl p = true → s.on .PRT_PFTL_STAT_BOUND p = true →
    s.lstate p = 3 → Runs (.rebind p) s (if (s.downQuiet p).mayTrain p then (s.downQuiet p).startTrain p else s.downQuiet p)) ∧
  (∀ (p : Nat) (s : State), s.hostHeld = false → p < 320 → 1 ≤ s.lstate p → s.lstate p ≤ 3 →
    ∃ u, Runs (.prtCtlEn p false) s (u.downQuiet p) ∧ u = s.wr .PRT_CTL_EN 0 p) ∧
  (∀ (p : Nat) (s : State), s.hostHeld = false → p < 320 → s.lstate p = 0 ∨ 3 < s.lstate p →
    ∃ t, Runs (.prtCtlEn p false) s t ∧ t.rd .PRT_CTL_EN p = 0 ∧ t.lstate p = s.lstate p ∧ t.ports = s.ports ∧ t.sw = s.sw ∧
      t.pool = s.pool) ∧
  (∀ (p : Nat) (s u : State), s.hostHeld = false → p < 320 → u = s.wr .PRT_CTL_EN 1 p → u.mayTrain p = true → (s.port p).signal = true →
    s.lstate p = 0 →
    ∃ t, Runs (.prtCtlEn p true) s t ∧ t.lstate p = 1 ∧ t.rd .PRT_CTL_EN p = 1 ∧ (∀ q, q ≠ p → t.lstate q = s.lstate q) ∧
      t.pool = s.pool) ∧
  (∀ (p : Nat) (s : State), p < 320 → s.mayTrain p = true → s.lstate p = 0 →
    ∃ t, Runs (.signalDetect p) s t ∧ t.lstate p = 1 ∧ (t.port p).signal = true ∧
      (∀ q, q ≠ p → t.lstate q = s.lstate q ∧ t.port q = s.port q) ∧ t.pool = s.pool) ∧
  (∀ (p : Nat) (s : State), s.mayTrain p = true → s.lstate p = 1 →
    s.power.refclkGone.contains (s.rd .PRT_CFG_DIE p / 4) = false →
    ∃ u : State, Runs (.trainingComplete p) s u.retryDemotions ∧ u.lstate p = 2 ∧
      u.lanes p = s.width p % 2 ^ Fld.PRT_LINK_STAT_LANES.width ∧ (u.port p).badLanes = [] ∧
      (s.isPftl p = true → s.on .PRT_PFTL_STAT_BOUND p = false → u.rd .PRT_PFTL_STAT_STATE p
        = if s.on .PRT_PFTL_CTL_DISC_EN p then 1 else 0) ∧ u.pool = s.pool) ∧
  (∀ (p : Nat) (s : State), p < 320 → s.lstate p = 4 → s.rd .PRT_HOLD_REMAIN p = 0 → s.mayTrain p = true →
    ∃ t, Runs (.holdExpiry p) s t ∧ t.lstate p = (if (s.port p).signal then 1 else 0) ∧
      (∀ q, q ≠ p → t.lstate q = s.lstate q) ∧ t.pool = s.pool) ∧
  (∀ (p : Nat) (s : State), s.hostHeld = false → p < 320 → s.lstate p = 5 → s.mayTrain p = true →
    ∃ t, Runs (.clrPark p) s t ∧ t.lstate p = (if (s.port p).signal then 1 else 0) ∧ (t.port p).downs = [] ∧
      t.rd .PRT_FLAPS_K p = 0 ∧ t.pool = s.pool)) ∧
  (∀ (p : Nat) (s : State), s.lstate p = 2 → s.isPftl p = true → s.on .PRT_PFTL_STAT_BOUND p = false →
    let u := (s.countDown p).2
    let k := (s.countDown p).1
    u.rd .PRT_DOWN_CNT_COUNT p = min (s.rd .PRT_DOWN_CNT_COUNT p + 1) (2 ^ Fld.PRT_DOWN_CNT_COUNT.width - 1) ∧
    (u.port p).downs = (s.epoch :: (s.port p).downs).take 15 ∧
    (u.rd .PRT_FLAP_CFG_LIMIT p ≤ k → s.downCounted p = u.park p) ∧
    (¬ u.rd .PRT_FLAP_CFG_LIMIT p ≤ k → (s.downCounted p).rd .PRT_HOLD_REMAIN p
      = min (2 ^ (s.rd .PRT_FLAP_CFG_BASE_LOG2 p + k - 1)) (2 ^ s.rd .PRT_FLAP_CFG_MAX_LOG2 p)
        % 2 ^ Fld.PRT_HOLD_REMAIN.width))

/-- Retrain and repair (R150 to R153): lane loss, 17 uncorrectable codewords in an epoch and the host's write all
enter RETRAIN from UP; the first attempt that fails is followed by another, one that passes brings the port UP; after
two failures the lanes that failed both are tested in loopback, or the port goes DOWN; a lane is repaired or fails, and its
record is its queue entry's step where one waits (R373); a repair retrain that fails takes the port DOWN, and one that passes brings it UP at the width that fits. Uplinks (R160 to R162): a frame that carries no acceptable MSG is
discarded and counted; XOFF is repeated while the queue is above XON; a PFC frame pauses its priorities and their
pauses end; a priority paused beyond PFC_WD is flushed, counted and ignored for as long. Completes: LANE_LOSS, FEC_LIMIT,
RETRAIN, RETRAIN_ATTEMPT_END, LOOPBACK_END, REPAIR_RETRAIN_END, FRAME, XOFF_REPEAT, PFC_FRAME, PFC_PAUSE_EXPIRY,
PFC_WATCHDOG. -/
def Obligations.RetrainAndUplink : Prop :=
  ((∀ (p lane : Nat) (s : State), p < 320 → lane < s.width p → s.pmode p = 1 → s.lstate p = 2 →
    ∃ t, Runs (.laneLoss p lane) s t ∧ t.lstate p = 3 ∧ (t.port p).attempts = 0 ∧
      t.rd .PRT_RETRAIN_CNT_COUNT p = min (s.rd .PRT_RETRAIN_CNT_COUNT p + 1) (2 ^ Fld.PRT_RETRAIN_CNT_COUNT.width - 1) ∧
      t.link p = s.link p ∧ (∀ q, q ≠ p → t.lstate q = s.lstate q) ∧ t.pool = s.pool ∧ t.sw = s.sw) ∧
  (∀ (p lane : Nat) (s : State), p < 320 → lane < s.width p → 2 ≤ s.pmode p → s.lstate p = 2 →
    ∃ u : State, Runs (.laneLoss p lane) s (if s.pmode p = 3 then u.uplinkLeft p else if s.pmode p = 2
        then (u.retrainWaits p).abandonMoves p else u) ∧ u.lstate p = 3 ∧ u.link p = s.link p ∧ u.pool = s.pool ∧ u.sw = s.sw) ∧
  (∀ (p : Nat) (s : State), p < 320 → s.pmode p = 1 → s.lstate p = 2 →
    ∃ t corr unc, Runs (.fecLimit p) s t ∧ t.lstate p = 3 ∧ (t.port p).attempts = 0 ∧
      t.rd .PRT_FEC_CORR_COUNT p = min (s.rd .PRT_FEC_CORR_COUNT p + corr) (2 ^ Fld.PRT_FEC_CORR_COUNT.width - 1) ∧
      t.rd .PRT_FEC_UNCORR_COUNT p = min (s.rd .PRT_FEC_UNCORR_COUNT p + unc) (2 ^ Fld.PRT_FEC_UNCORR_COUNT.width - 1) ∧
      t.pool = s.pool) ∧
  (∀ (p : Nat) (s : State), s.hostHeld = false → p < 320 → s.pmode p = 1 → s.lstate p = 2 →
    ∃ t, Runs (.retrain p) s t ∧ t.lstate p = 3 ∧ t.link p = s.link p ∧ t.sw = s.sw ∧ t.pool = s.pool) ∧
  (∀ (p : Nat) (bad : List Nat) (s : State), p < 320 → s.lstate p = 3 → (s.port p).repairing = false →
    (s.port p).failedLane = none → (s.port p).attempts = 0 →
    Runs (.retrainAttemptEnd p true bad) s (s.retrained p) ∧
    ∃ t, Runs (.retrainAttemptEnd p false bad) s t ∧ t.lstate p = 3 ∧ (t.port p).attempts = 1 ∧ (t.port p).fastBad = bad ∧
      t.regs = s.regs ∧ t.pool = s.pool) ∧
  (∀ (p : Nat) (bad : List Nat) (s : State), p < 320 → s.lstate p = 3 → (s.port p).repairing = false →
    (s.port p).failedLane = none → (s.port p).attempts = 1 → (∀ i ∈ bad, s.width p ≤ i ∨ i ∉ (s.port p).fastBad) →
    ∃ u : State, Runs (.retrainAttemptEnd p false bad) s (u.downCounted p) ∧
      u = s.updPort p (fun x => { x with attempts := 2 })) ∧
  (∀ (p i : Nat) (s : State), p < 320 → s.lstate p = 3 → (s.port p).repairing = false →
    (s.port p).failedLane = none → (s.port p).attempts = 1 → i < s.width p → i ∈ (s.port p).fastBad →
    ∃ u : State, Runs (.retrainAttemptEnd p false [i]) s (u.laneReport p i) ∧
      u = s.updPort p (fun x => { x with attempts := 2 })) ∧
  (∀ (p n l : Nat) (pass : Bool) (s v u : State), p < 320 → s.lstate p = 3 → (s.port p).failedLane = some n →
    v = (if (s.tryRepair p n pass).1 then (s.tryRepair p n pass).2
      else ((s.tryRepair p n pass).2.wr .PRT_LANE_MAP_STATE 2 p n).showRepaired p) →
    l = 16 * s.rd .PRT_CFG_DIE p + s.laneIdx p n → u = (if v.laneQueued l then v else v.laneRecord l) →
    ((u.port p).testQ = [] → Runs (.loopbackEnd p pass) s (u.afterTests p)) ∧
    (∀ i l, (u.port p).testQ = i :: l → ∃ t, Runs (.loopbackEnd p pass) s t ∧ (t.port p).failedLane = some i ∧
      (t.port p).testQ = l ∧ (∀ q, q ≠ p → t.port q = u.port q) ∧ t.regs = u.regs)) ∧
  (∀ (p : Nat) (s : State), p < 320 → s.lstate p = 3 → (s.port p).repairing = true →
    Runs (.repairRetrainEnd p false) s (s.downCounted p)) ∧
  (∀ (p : Nat) (s : State), p < 320 → s.lstate p = 3 → (s.port p).repairing = true →
    ∃ u : State, u = (s.showLanes p ((s.soundLanes p).take (fitWidth (s.soundLanes p).length))).retrained p ∧
      Runs (.repairRetrainEnd p true) s (if fitWidth (s.soundLanes p).length < s.lanes p then (u.event .portNarrow p).narrowCheck
        else u))) ∧
  ((∀ (p : Nat) (b : List Byte) (s : State), p < 320 → s.pmode p = 3 → s.lstate p = 2 → s.contained = false →
    s.frameMsg p b = none → Runs (.frame p b) s (s.bump .PRT_UPL_RX_DISCARD_COUNT p)) ∧
  (∀ (p : Nat) (b : List Byte) (s u : State) (m : Msg), p < 320 → s.pmode p = 3 → s.lstate p = 2 → s.contained = false →
    s.frameMsg p b = some m → s.running = true → s.on .MIRR_CTL_EN = false →
    u = (s.polMsg p (16 * mSlots m)).2 → (s.polMsg p (16 * mSlots m)).1 = true → s.power.waking = false →
    Runs (.frame p b) s ((u.rxFill p (beAt b 14 2 / 8192) (40 + mLen m)).rxArrive (mDst m)
      { msg := m, fromPort := none, uplink := some (8 * p + beAt b 14 2 / 8192), srcSw := leAt b 20 2,
        time := (u.rxFill p (beAt b 14 2 / 8192) (40 + mLen m)).now, base := 0,
        sub := (u.rxFill p (beAt b 14 2 / 8192) (40 + mLen m)).subOf p, hdrSent := false })) ∧
  (∀ (p pcp : Nat) (s : State), p < 320 → s.pmode p = 3 → s.lstate p = 2 → (s.port p).xoff.contains pcp = true →
    ∃ t, Runs (.xoffRepeat p pcp) s t ∧ t.out = (if s.aboveXon p pcp then .pfc p pcp 0xFFFF :: s.out else s.out) ∧
      t.regs = s.regs ∧ t.ports = s.ports ∧ t.sw = s.sw ∧ t.pool = s.pool) ∧
  (∀ (p n t0 : Nat) (s : State), p < 320 → s.pmode p = 3 → s.lstate p = 2 → n < 8 → s.pfcOn p n = true →
    s.pfcIgnored p n = false → t0 ≠ 0 →
    ∃ t, Runs (.pfcFrame p (2 ^ n) ((List.replicate n 0) ++ [t0])) s t ∧ t.paused p n = true ∧
      (∀ k, k < 8 → k ≠ n → t.paused p k = s.paused p k) ∧ t.pool = s.pool ∧ t.sw = s.sw) ∧
  (∀ (p n : Nat) (s : State), p < 320 → n < 8 → s.paused p n = true →
    ∃ t, Runs (.pfcPauseExpiry p n) s t ∧ t.paused p n = false ∧ (∀ k, k < 8 → k ≠ n → t.paused p k = s.paused p k) ∧
      t.pool = s.pool ∧ t.sw = s.sw) ∧
  (∀ (p n e : Nat) (s : State), p < 320 → n < 8 → s.paused p n = true → tfind (s.port p).pauseStart n = some e →
    e + s.rd .PRT_UPL_PFC_WD_WD p ≤ s.epoch →
    ∃ u v t : State, Runs (.pfcWatchdog p n) s t ∧ t = (v.bump .PRT_UPL_PFC_STORM_COUNT p).event .pfcStorm p ∧
      v = (s.sw.egr.filter (fun x => x.point == p && u.pcpOf (mMpri x.msg) == n)).foldl
        (fun s x => (s.fromEgress x).msgEnd (s.portDie p) x.msg stFLUSHED) u ∧
      u.paused p n = false ∧ tfind (u.port p).pauseIgn n = some (s.epoch + s.rd .PRT_UPL_PFC_WD_WD p) ∧ u.sw = s.sw ∧
      u.pool = s.pool))

/-- Scheduling (R134, R137, R139): SC0 is served before SC1 and SC1 before the weighted classes; the message selected
is charged to its buckets and moved, and a request row, or an access of an engine, that waits at its die's point goes on
to its home; APPLY waits for the subtick boundary, where staged changes, capacities and refills act. Completes: SELECT, TM_APPLY, SUBTICK. -/
def Obligations.SelectServes : Prop :=
  (∀ (s : State) (cs : List Cand) (q : Nat), s.clsReady cs q 0 = true → ∃ k, s.pickCls cs q = some k ∧ k.id = 0) ∧
  (∀ (s : State) (cs : List Cand) (q : Nat), s.clsReady cs q 0 = false → s.clsReady cs q 1 = true →
    ∃ k, s.pickCls cs q = some k ∧ k.id = 1) ∧
  (∀ (s : State) (cs : List Cand) (q : Nat) (k : Pick), s.pickCls cs q = some k → 2 ≤ k.id →
    s.clsReady cs q 0 = false ∧ s.clsReady cs q 1 = false) ∧
  (∀ (q : Nat) (s : State) (k u : Pick) (x : Cand), q < 376 → s.pickCls (s.candsAt q) q = some k →
    s.pickSub (s.candsAt q) q k.id = some (u, x) →
    ∃ v : State, Runs (.select q) s ((v.charge q x).serve q x) ∧ v.sw.egr = s.sw.egr ∧ v.sw.ing = s.sw.ing ∧
      v.sw.buckets = s.sw.buckets ∧ v.ports = s.ports ∧ v.pool = s.pool ∧ v.home = s.home ∧
      (∀ c, c < 8 → depthOf (s.candsAt q) c < 2 ^ 20 →
        v.rd .TM_QS_MAX_DEPTH q c = max (s.rd .TM_QS_MAX_DEPTH q c) (depthOf (s.candsAt q) c))) ∧
  (∀ (q : Nat) (s : State) (k u : Pick) (x : Cand) (w : Wait), 320 ≤ q → q < 376 → s.pickCls (s.candsAt q) q = some k →
    s.pickSub (s.candsAt q) q k.id = some (u, x) → s.sw.ing.find? (fun y => y.n == x.n) = none →
    s.home.waits.find? (fun w => w.cause == 15 && w.key == q && w.req.pt == x.n) = some w →
    ∃ v : State, Runs (.select q) s
      (({ v.charge q x with home := { (v.charge q x).home with waits := (v.charge q x).home.waits.erase w } }).homeArrive w.req) ∧
      v.home = s.home ∧ v.sw.ing = s.sw.ing ∧ v.pool = s.pool ∧ v.ports = s.ports) ∧
  (∀ (q : Nat) (s : State), q < 376 → s.pickCls (s.candsAt q) q = none →
    ∃ t, Runs (.select q) s t ∧ t.sw = s.sw ∧ t.ports = s.ports ∧ t.pool = s.pool) ∧
  (∀ (s : State), s.hostHeld = false → ∃ t, Runs .tmApply s t ∧ t.on .TM_STAT_APPLY_PEND = true ∧ t.sw = s.sw ∧ t.pool = s.pool) ∧
  (∀ (s : State), s.epochRuns = true → s.clk.subtick < 15 → s.running = true →
    ∃ u : State, Runs .subtick s (u.tmApplyNow.rescale.refill) ∧ u.clk.subtick = s.clk.subtick + 1 ∧ u.clk.cclk = 0 ∧
      u.clk.base = s.cycleAt (s.clk.subtick + 1) (s.rd .PWR_EP_STAT_PERIOD) ∧
      u.regs = s.regs ∧ u.sw = s.sw ∧ u.pool = s.pool) ∧
  (∀ (s : State), s.epochRuns = true → s.clk.subtick < 15 → s.running = false →
    ∃ t, Runs .subtick s t ∧ t.clk.subtick = s.clk.subtick + 1 ∧ t.regs = s.regs ∧ t.sw = s.sw)

/-- The epoch unit (R461 to R467): edges too narrow or too close are counted and nothing else; an edge while the unit
is locked and near its time begins the next epoch with the period of the last sixteen good intervals; an edge missing
makes the unit begin the epoch itself; in holdover it makes every boundary, with HOLD in its times; loss begins
holdover. Completes: EPOCH_IN, EPOCH_BOUNDARY, EPOCH_LOSS, REFCLK. -/
def Obligations.EpochUnit : Prop :=
  (∀ (h g i : Nat) (s : State), s.epochRuns = true → h < 200 →
    Runs (.epochIn h g i) s (s.bump .PWR_EP_NARROW_COUNT)) ∧
  (∀ (h g i : Nat) (s : State), s.epochRuns = true → 200 ≤ h → g < 4000 →
    Runs (.epochIn h g i) s (s.bump .PWR_EP_FAST_COUNT)) ∧
  (∀ (h g i : Nat) (s : State), s.epochRuns = true → 200 ≤ h → 4000 ≤ g → s.clk.relock = false →
    s.on .PWR_EP_STAT_LOCKED = true → s.clk.madeLast = false → 100 * (i - s.rd .PWR_EP_STAT_PERIOD) ≤ s.rd .PWR_EP_STAT_PERIOD →
    100 * (s.rd .PWR_EP_STAT_PERIOD - i) ≤ s.rd .PWR_EP_STAT_PERIOD →
    ∃ u : State, Runs (.epochIn h g i) s ((u.newEpoch false (some i)).pulse) ∧ u.epoch = s.epoch ∧
      u.clk.good = (s.clk.good ++ [i]).drop (s.clk.good.length + 1 - 16) ∧ u.clk.hits = 0 ∧
      u.rd .PWR_EP_STAT_PERIOD = u.clk.good.sum / u.clk.good.length % 2 ^ Fld.PWR_EP_STAT_PERIOD.width ∧ u.pool = s.pool) ∧
  (∀ (s : State), s.epochRuns = true → s.clk.unlocked = true →
    ∃ u : State, u = (s.newEpoch true).enterHoldover 2 ∧
      Runs .epochBoundary s (if u.on .PWR_EP_CTL_OUT_HOLD then u.pulse else u)) ∧
  (∀ (s : State), s.epochRuns = true → s.clk.unlocked = false → s.on .PWR_EP_STAT_HOLDOVER = true →
    ∃ u : State, u = s.newEpoch true ∧ Runs .epochBoundary s (if u.on .PWR_EP_CTL_OUT_HOLD then u.pulse else u)) ∧
  (∀ (s : State), s.epochRuns = true → s.clk.unlocked = false → s.on .PWR_EP_STAT_HOLDOVER = false →
    ∃ u : State, Runs .epochBoundary s u.pulse ∧ u.clk.madeLast = true) ∧
  (∀ (s : State), s.epochRuns = true → s.on .PWR_EP_STAT_HOLDOVER = false →
    ∃ u v t : State, Runs .epochLoss s t ∧ u = v.enterHoldover 1 ∧ v.clk.holdEpoch = true ∧ v.clk.subtick = 0 ∧
      u.clk.hits = 0 ∧ u.clk.window = [] ∧ t = (if u.on .PWR_EP_CTL_OUT_HOLD then u.pulse else u)) ∧
  (∀ (hold : Bool) (len : Option Nat) (s : State), s.running = false → 2 ≤ s.rd .PWR_STAT_STATE →
    (s.newEpoch hold len).epoch = (s.epoch + 1) % 2 ^ Fld.PWR_EPOCH_COUNT.width ∧ (s.newEpoch hold len).clk.subtick = 0 ∧
    (s.newEpoch hold len).clk.cclk = 0 ∧ (s.newEpoch hold len).clk.holdEpoch = hold ∧
    (s.newEpoch hold len).clk.epochBase = s.cycleAt 16 (len.getD (s.rd .PWR_EP_STAT_PERIOD)) ∧
    (s.newEpoch hold len).clk.base = (s.newEpoch hold len).clk.epochBase ∧ (s.newEpoch hold len).pool = s.pool) ∧
  (∀ (n : Nat) (b : Bool) (s : State), n < 9 →
    ∃ t, Runs (.refclk n b) s t ∧ (t.power.refclkGone.contains n = !b) ∧
      (∀ k, k ≠ n → t.power.refclkGone.contains k = s.power.refclkGone.contains k) ∧ t.regs = s.regs ∧ t.pool = s.pool)

/-- The power commands (R450 to R459): each is refused with the first condition of Table 20.2 that holds, and
otherwise the entry begins, with BUSY set; OFF leaves only the wake block; RUN wakes the device from a low-power
state; while BUSY is 1 a command is ignored and CMD_IGN set. Entry and wake events (R453 to R458): PME_Turn_Off is
acknowledged once during an entry to DSLEEP; a complete entry sets the state and clears BUSY; WAKE_N wakes a low-power
state after 2.4 µs of low and is a counted glitch below 1.6 µs; the timer wakes it; when every block is awake the
device is in RUN. Completes: RUN, IDLE, SLEEP, DSLEEP, OFF, PME_TURN_OFF, ENTRY_COMPLETE, WAKE_N, WAKE_N_HIGH, TIMER_WAKE,
WAKE_COMPLETE. -/
def Obligations.PowerStates : Prop :=
  ((∀ (c : Instr) (n : Nat) (s : State), s.hostHeld = false → (c, n) ∈ [(Instr.idle, 1), (.sleep, 2), (.dsleep, 3), (.off, 4)] →
    s.power.inReset = false → s.power.offState = false → s.rd .PWR_STAT_STATE = 0 → s.on .PWR_STAT_BUSY = false →
    s.entryReason n ≠ 0 →
    ∃ t, Runs c s t ∧ t.rd .PWR_STAT_STATUS = stSTATE ∧ t.rd .PWR_STAT_REASON = s.entryReason n ∧
      t.rd .PWR_STAT_STATE = 0 ∧ t.power = s.power ∧ t.pool = s.pool) ∧
  (∀ (c : Instr) (n : Nat) (s : State), s.hostHeld = false → (c, n) ∈ [(Instr.idle, 1), (.sleep, 2), (.dsleep, 3)] →
    s.power.inReset = false → s.power.offState = false → s.rd .PWR_STAT_STATE = 0 → s.on .PWR_STAT_BUSY = false →
    s.entryReason n = 0 → ∃ u t : State, Runs c s t ∧
      t = (if n = 1 then u else if n = 2 then u.lanesDown else u.lanesDown.scanWorked) ∧
      u.power = { s.power with entering := some n, heldEdge := false, heldLevels := 0, pme := false } ∧
      u.on .PWR_STAT_BUSY = true ∧ u.rd .PWR_STAT_STATUS = stOK ∧ u.rd .PWR_STAT_REASON = 0 ∧ u.rd .PWR_STAT_STATE = 0 ∧
      u.sw = s.sw ∧ u.ports = s.ports ∧ u.pool = s.pool) ∧
  (∀ (s : State), s.hostHeld = false → s.power.inReset = false → s.power.offState = false → s.rd .PWR_STAT_STATE = 0 →
    s.on .PWR_STAT_BUSY = false → s.entryReason 4 = 0 →
    ∃ t, Runs .off s t ∧ t.power.offState = true ∧ t.power.rails = false ∧ t.pool = State.reset.pool ∧
      t.agents = State.reset.agents ∧ t.boot.flash = s.boot.flash ∧ t.boot.fuses = s.boot.fuses ∧
      t.boot.keys = State.reset.boot.keys) ∧
  (∀ (s : State), s.hostHeld = false → s.power.inReset = false → s.power.offState = false → s.rd .PWR_STAT_STATE = 0 →
    s.on .PWR_STAT_BUSY = false →
    ∃ t, Runs .run s t ∧ t.rd .PWR_STAT_STATUS = stOK ∧ t.rd .PWR_STAT_REASON = 0 ∧ t.rd .PWR_STAT_STATE = 0 ∧
      t.power = s.power ∧ t.pool = s.pool) ∧
  (∀ (s : State), s.hostHeld = false → s.rd .PWR_STAT_STATE = 1 ∨ s.rd .PWR_STAT_STATE = 2 → s.asleep = true → s.on .PWR_STAT_BUSY = false →
    ∃ t, Runs .run s t ∧ t.power.waking = true ∧ t.on .PWR_STAT_BUSY = true ∧ t.rd .PWR_WAKE_SRC_SRC = 2 ∧
      t.rd .PWR_STAT_STATE = s.rd .PWR_STAT_STATE ∧ t.pool = s.pool) ∧
  (∀ (c : Instr) (s : State), s.hostHeld = false → c ∈ [Instr.idle, .sleep, .dsleep, .off] → s.power.inReset = false →
    s.power.offState = false → s.rd .PWR_STAT_STATE ≠ 3 → s.on .PWR_STAT_BUSY = true →
    ∃ t, Runs c s t ∧ t.rd .PWR_STAT_CMD_IGN = 1 ∧ t.on .PWR_STAT_BUSY = true ∧ t.rd .PWR_STAT_STATE = s.rd .PWR_STAT_STATE ∧
      t.power = s.power ∧ t.pool = s.pool)) ∧
  ((∀ (s : State), s.power.entering = some 3 → s.power.pme = false →
    ∃ t, Runs .pmeTurnOff s t ∧ t.out = .pmeToAck :: s.out ∧ t.power.pme = true ∧ t.regs = s.regs ∧ t.pool = s.pool) ∧
  (∀ (n : Nat) (s : State), 1 ≤ n → n ≤ 3 → s.power.entering = some n → s.entryReady n = true → s.power.heldEdge = false →
    s.power.heldLevels = 0 →
    (s.setPower { s.power with entering := none, heldEdge := false, heldLevels := 0, lowStart := s.now / 4096 }).levels n = 0 →
    ∃ t, Runs .entryComplete s t ∧ t.rd .PWR_STAT_STATE = n ∧ t.rd .PWR_STAT_BUSY = 0 ∧
      t.power = { s.power with entering := none, heldEdge := false, heldLevels := 0, lowStart := s.now / 4096 } ∧
      (n = 3 → t.tier.heat = []) ∧ t.pool = s.pool) ∧
  (∀ (ns : Nat) (s : State), s.power.vstby = true → ns < 1600 →
    ∃ t, Runs (.wakeN ns) s t ∧ t.rd .PWR_WAKE_GLITCH_COUNT
        = min (s.rd .PWR_WAKE_GLITCH_COUNT + 1) (2 ^ Fld.PWR_WAKE_GLITCH_COUNT.width - 1) ∧
      t.power = s.power ∧ t.pool = s.pool) ∧
  (∀ (ns : Nat) (s : State), s.power.vstby = true → 1600 ≤ ns → ns < 2400 →
    Runs (.wakeN ns) s s.free.2 ∨ Runs (.wakeN ns) s s.free.2.wakeTaken) ∧
  (∀ (ns : Nat) (s : State), s.power.vstby = true → 2400 ≤ ns → s.asleep = true →
    ∃ t, Runs (.wakeN ns) s t ∧ t.power.waking = true ∧ t.power.wakeLow = true ∧ t.rd .PWR_WAKE_SRC_SRC = 1 ∧
      t.on .PWR_STAT_BUSY = true ∧ t.pool = s.pool) ∧
  (∀ (ns : Nat) (s : State), 2400 ≤ ns →
    ∃ t, Runs (.wakeNHigh ns) s t ∧ t.power = { s.power with wakeLow := false } ∧ t.regs = s.regs) ∧
  (∀ (s : State), s.rd .PWR_TIMER_EPOCH ≠ 0 → s.rd .PWR_TIMER_EPOCH ≤ s.epoch → s.asleep = true →
    ∃ t, Runs .timerWake s t ∧ t.power.waking = true ∧ t.rd .PWR_WAKE_SRC_SRC = 16 ∧ t.pool = s.pool) ∧
  (∀ (s : State), s.power.waking = true → s.power.inReset = false → s.power.offState = false →
    ∃ u : State, Runs .wakeComplete s u.lateScans ∧ u.rd .PWR_STAT_STATE = 0 ∧ u.rd .PWR_STAT_BUSY = 0 ∧
      u.power = { s.power with waking := false } ∧ u.pool = s.pool))

/-- Extent commands (R176, R195, R198): outside ASSIGNED or RUN each ends STATE; a create that fails a check ends with
that check's status and creates nothing; one that passes charges its slice, and its range reads zero; nothing left in
the way makes it ACTIVE and the command ends OK. Completes: EXTENT_CREATE, EXTENT_ACTIVE. -/
def Obligations.ExtentCreate : Prop :=
  (∀ (c : Instr) (i : Nat) (s : State), s.hostHeld = false → c ∈ [Instr.extentCreate, .extentDelete i, .setAttr i, .extentRead i, .setOwner i] →
    s.on .POOL_EXT_RES_BUSY = false → s.poolCmdOk = false →
    ∃ t, Runs c s t ∧ t.rd .POOL_EXT_RES_STATUS = stSTATE ∧ t.rd .POOL_EXT_RES_BUSY = 0 ∧ t.pool = s.pool ∧
      t.tier = s.tier ∧ t.home = s.home) ∧
  (∀ (s : State), s.hostHeld = false → s.on .POOL_EXT_RES_BUSY = false → s.poolCmdOk = true → s.createStatus s.extArgs ≠ stOK →
    ∃ t, Runs .extentCreate s t ∧ t.rd .POOL_EXT_RES_STATUS = s.createStatus s.extArgs ∧ t.rd .POOL_EXT_RES_BUSY = 0 ∧
      t.pool = s.pool ∧ t.tier = s.tier) ∧
  (∀ (s : State), s.hostHeld = false → s.on .POOL_EXT_RES_BUSY = false → s.poolCmdOk = true → s.createStatus s.extArgs = stOK →
    s.extArgs.isOasis = false →
    ∃ t, Runs .extentCreate s t ∧ t.on .POOL_EXT_RES_BUSY = true ∧ t.rd .POOL_EXT_RES_INDEX = s.freeExtent % 4096 ∧
      t.extent s.freeExtent = s.extArgs ∧ (∀ i, i ≠ s.freeExtent → t.extent i = s.extent i) ∧
      t.rd .POOL_USE_ERG_USE s.extArgs.slice
        = (s.rd .POOL_USE_ERG_USE s.extArgs.slice + s.extArgs.len) % 2 ^ Fld.POOL_USE_ERG_USE.width ∧
      (∀ a, memByte t.pool.mem a = if s.extArgs.lo ≤ a ∧ a < s.extArgs.lo + s.extArgs.bytes then 0
        else memByte s.pool.mem a)) ∧
  (∀ (s : State), s.hostHeld = false → s.on .POOL_EXT_RES_BUSY = false → s.poolCmdOk = true → s.createStatus s.extArgs = stOK →
    s.extArgs.isOasis = true →
    ∃ u : State, Runs .extentCreate s (if (u.clearWay s.extArgs).1 then (u.clearWay s.extArgs).2
        else (u.clearWay s.extArgs).2.createFails s.freeExtent s.extArgs) ∧
      u.on .POOL_EXT_RES_BUSY = true ∧ u.rd .POOL_EXT_RES_INDEX = s.freeExtent % 4096 ∧
      u.extent s.freeExtent = s.extArgs ∧ (∀ i, i ≠ s.freeExtent → u.extent i = s.extent i) ∧
      (∀ a, memByte u.pool.mem a = if s.extArgs.lo ≤ a ∧ a < s.extArgs.lo + s.extArgs.bytes then 0
        else memByte s.pool.mem a)) ∧
  (∀ (s : State) (x : Extent), s.busy.extOp = 1 → s.extent s.busy.extIdx = x →
    (x.isOasis = true → s.inTheWay x = [] ∧ s.frameless x = []) → s.wayClear x = true →
    ∃ t, Runs .extentActive s t ∧ t.extent s.busy.extIdx = { x with state := 1 } ∧ t.rd .POOL_EXT_RES_STATUS = stOK ∧
      t.rd .POOL_EXT_RES_BUSY = 0 ∧ (∀ i, i ≠ s.busy.extIdx → t.extent i = s.extent i) ∧ t.pool.mem = s.pool.mem)

/-- The other extent commands (R176, R178, R198, R206): DELETE of an ACTIVE extent ends its service and runs until its
range is filled; SET_ATTR changes PLACE and ERGC; READ copies the record into the argument registers and changes no
record; SET_OWNER sets the owner and raises GEN; once nothing of the range is under way it is filled, so that it reads zero,
and the fill's end, when every line of it is written, frees the extent. Completes:
EXTENT_DELETE, SET_ATTR, ERGC_REWRITE_END, EXTENT_READ, SET_OWNER, RECLAIM_FILL_END. -/
def Obligations.ExtentCommands : Prop :=
  (∀ (i : Nat) (s u : State), s.hostHeld = false → i < 4096 → s.on .POOL_EXT_RES_BUSY = false → s.poolCmdOk = true →
    u = s.wr .POOL_EXT_CMD_INDEX i → (s.extent i).state = 1 →
    ∃ t, Runs (.extentDelete i) s t ∧ t = (u.endExtent i 3).extRun 2 i ∧ t.on .POOL_EXT_RES_BUSY = true ∧
      t.busy.extOp = 2 ∧ t.busy.extIdx = i) ∧
  (∀ (i : Nat) (s : State), s.hostHeld = false → i < 4096 → s.on .POOL_EXT_RES_BUSY = false → s.poolCmdOk = true →
    2 ≤ (s.extent i).state →
    ∃ t, Runs (.extentDelete i) s t ∧ t.on .POOL_EXT_RES_BUSY = true ∧ t.busy.extOp = 2 ∧ t.busy.extIdx = i ∧
      t.pool = s.pool) ∧
  (∀ (i : Nat) (s : State), s.hostHeld = false → i < 4096 → s.on .POOL_EXT_RES_BUSY = false → s.poolCmdOk = true → (s.extent i).state = 1 →
    s.rd .POOL_EXT_ARG2_PLACE = (s.extent i).place → (s.extent i).place ≠ 3 →
    s.on .POOL_EXT_ARG2_ERGC = (s.extent i).ergc → ((s.extent i).ergc = true → (s.extent i).place ≠ 1) →
    ∃ t, Runs (.setAttr i) s t ∧ t.rd .POOL_EXT_RES_STATUS = stOK ∧ t.extent i = s.extent i ∧ t.tier = s.tier ∧
      t.pool.mem = s.pool.mem) ∧
  (∀ (i : Nat) (s : State), s.hostHeld = false → i < 4096 → s.on .POOL_EXT_RES_BUSY = false → s.poolCmdOk = true → (s.extent i).state = 1 →
    (s.extent i).isOasis = true → s.rd .POOL_EXT_ARG2_PLACE ≠ 3 →
    (s.on .POOL_EXT_ARG2_ERGC = true → s.rd .POOL_EXT_ARG2_PLACE ≠ 1) →
    ∃ t, Runs (.setAttr i) s t ∧ t.rd .POOL_EXT_RES_STATUS = stOK ∧
      t.extent i = { s.extent i with place := s.rd .POOL_EXT_ARG2_PLACE, ergc := s.on .POOL_EXT_ARG2_ERGC } ∧
      (∀ j, j ≠ i → t.extent j = s.extent j)) ∧
  (∀ (s : State), s.busy.extOp = 3 → s.owesIn (s.extent s.busy.extIdx) = false →
    ∃ t, Runs .ergcRewriteEnd s t ∧ t.busy.rewrite = [] ∧ t.rd .POOL_EXT_RES_STATUS = stOK ∧ t.rd .POOL_EXT_RES_BUSY = 0 ∧
      t.pool = s.pool) ∧
  (∀ (i : Nat) (s : State), s.hostHeld = false → i < 4096 → s.on .POOL_EXT_RES_BUSY = false → s.poolCmdOk = true →
    ∃ t, Runs (.extentRead i) s t ∧ t.rd .POOL_EXT_RES_STATUS = stOK ∧
      t.rd .POOL_EXT_ARG0_BASE = (s.extent i).base % 2 ^ 27 ∧ t.rd .POOL_EXT_ARG1_LEN = (s.extent i).len % 2 ^ 26 ∧
      t.rd .POOL_EXT_ARG2_SLICE = (s.extent i).slice % 32 ∧ t.rd .POOL_EXT_ARG2_PLACE = (s.extent i).place % 4 ∧
      t.on .POOL_EXT_ARG2_COH = (s.extent i).coh ∧ t.on .POOL_EXT_ARG2_PUB = (s.extent i).pub ∧
      t.on .POOL_EXT_ARG3_OWNED = (s.extent i).owned ∧ t.rd .POOL_EXT_ARG3_OWNER = (s.extent i).owner % 4096 ∧
      t.rd .POOL_EXT_RES_STATE = (s.extent i).state % 4 ∧ t.rd .POOL_EXT_GEN_GEN = (s.extent i).gen % 2 ^ 32 ∧
      t.pool = s.pool) ∧
  (∀ (i : Nat) (s : State), s.hostHeld = false → i < 4096 → s.on .POOL_EXT_RES_BUSY = false → s.poolCmdOk = true → (s.extent i).state = 1 →
    ∃ t, Runs (.setOwner i) s t ∧ t.rd .POOL_EXT_RES_STATUS = stOK ∧
      t.extent i = { s.extent i with owned := s.on .POOL_EXT_ARG3_OWNED, owner := s.rd .POOL_EXT_ARG3_OWNER
                                     gen := ((s.extent i).gen + 1) % 2 ^ 32 } ∧
      (∀ j, j ≠ i → t.extent j = s.extent j) ∧ t.pool.mem = s.pool.mem) ∧
  (∀ (i : Nat) (s v : State) (x : Extent), x = s.extent i → x.state = 2 ∨ x.state = 3 →
    ¬(s.busy.extOp = 1 ∧ s.busy.extIdx = i) → s.mayFill x = true → v = s.beginFill i →
    (x.filling = true → v = s) ∧
    (x.filling = false → v.extent i = { x with filling := true } ∧
      (∀ a, memByte v.pool.mem a = if x.lo ≤ a ∧ a < x.lo + x.bytes then 0 else memByte s.pool.mem a)) ∧
    (v.owesIn x = true → Runs (.reclaimFillEnd i) s v) ∧
    (v.owesIn x = false → ∃ t, Runs (.reclaimFillEnd i) s t ∧ t.extent i = Extent.free ∧ (∀ j, j ≠ i → t.extent j = s.extent j) ∧
      t.pool.mem = v.pool.mem))

/-- Leases, scrub, suspect bits and trays (R180, R187, R189, R385, R416): a lease whose EXPIRY has come ends and its
extents are reclaimed, except in containment; patrol scrub moves on frame by frame; POOL_SUSP_CLR clears one page's
bit; a tray that was just written reads zero. Migrations and heat (R197, R202, R206): a migration whose lines are all
performed ends; a waiting ERGC access tries again; at a multiple of 2^DECAY_LOG2 epochs every heat is halved, once, in
RUN alone (that the row finds something to halve only where no boundary has halved it is the model's reading, log entry
86). Completes: LEASE_EXPIRY, SCRUB_READ, POOL_SUSP_CLR, TRAY_WRITTEN, MIGRATION_COMPLETE, ERGC_PROMOTE_RETRY,
HEAT_DECAY. -/
def Obligations.LeasesScrubAndHeat : Prop :=
  ((∀ (id : Nat) (s : State), id < 4096 → (s.agent id).valid = true → (s.agent id).expiry ≤ s.epoch →
    s.contained = false → s.running = true →
    s.pool.extents.filter (fun e => e.2.state == 1 && e.2.owned && e.2.owner == id) = [] →
    ∃ t, Runs (.leaseExpiry id) s t ∧ t.agent id = { s.agent id with valid := false, lost := true } ∧
      (∀ j, j ≠ id → t.agent j = s.agent j) ∧
      t.rd .POOL_LEASE_EXP_COUNT = min (s.rd .POOL_LEASE_EXP_COUNT + 1) (2 ^ Fld.POOL_LEASE_EXP_COUNT.width - 1) ∧
      t.pool = s.pool) ∧
  (∀ (id : Nat) (s : State), s.contained = true → Runs (.leaseExpiry id) s s) ∧
  (∀ (k f : Nat) (s : State), k < 16 → s.on .POOL_CTL_SCRUB_EN = true → s.running = true → s.contained = false →
    s.rd .SEC_TEN_STAT_STATE ≠ 2 → s.pool.symErr = [] → s.scrubNext k = some f →
    ∃ t, Runs (.scrubRead k) s t ∧ t.rd .POOL_SCRUB_POS_POS = (s.rd .POOL_SCRUB_POS_POS + 1) % 2 ^ Fld.POOL_SCRUB_POS_POS.width ∧
      t.rd .POOL_SCRUB_TOT_TOTAL = s.rd .POOL_SCRUB_TOT_TOTAL ∧ tget 0 t.pool.scrubAt k = f + 1 ∧
      (∀ j, j ≠ k → tget 0 t.pool.scrubAt j = tget 0 s.pool.scrubAt j) ∧ t.pool.mem = s.pool.mem ∧ t.pool.psn = s.pool.psn) ∧
  (∀ (pg : Nat) (s : State), s.hostHeld = false → ∃ t, Runs (.poolSuspClr pg) s t ∧ tget false t.pool.susp (pg % 2 ^ 32) = false ∧
    (∀ k, k ≠ pg % 2 ^ 32 → tget false t.pool.susp k = tget false s.pool.susp k) ∧ t.pool.mem = s.pool.mem ∧
    t.regs = s.regs) ∧
  (∀ (n p : Nat) (s : State), n < 24 → s.trayPort n = some p → s.on .PRT_PFTL_STAT_BOUND p = true →
    (s.port p).written = false → (∀ pg, (s.page pg).loc = 0) → s.home.wbuf = [] → s.tier.retry = [] →
    ∃ t, Runs (.trayWritten n) s t ∧ (t.port p).written = true ∧
      (∀ a, memByte t.pool.mem a = if ergPage (a / 65536) && trayOf (a / 65536) == n then 0 else memByte s.pool.mem a))) ∧
  ((∀ (pg : Nat) (s : State) (m : Mig), s.tier.migs.find? (fun m => m.page == pg) = some m → m.need ≤ m.done →
    ∃ u t : State, Runs (.migrationComplete pg) s t ∧ u = s.endMig m ∧
      t = (if m.kind = 2 ∧ u.wantsSub pg = true then (u.findSub pg).2 else u).retryDemotions ∧
      (m.kind = 0 → s.ergOnlyAt pg = true ∨ s.frameGone m.home m.frame = true → ∃ v : State, u = v.demoteSoon pg ∧
        (v.page pg).loc = 1 ∧ (v.page pg).frame = m.frame) ∧
      (m.kind = 0 → s.ergOnlyAt pg = false → s.frameGone m.home m.frame = false →
        (u.page pg).loc = 1 ∧ (u.page pg).frame = m.frame ∧ (u.page pg).dirty = false ∧
        u.rd .TIER_PROMO_CNT_COUNT = min (s.rd .TIER_PROMO_CNT_COUNT + 1) (2 ^ Fld.TIER_PROMO_CNT_COUNT.width - 1)) ∧
      (2 ≤ m.kind → (u.page pg).loc = 1 ∧ (u.page pg).frame = m.frame) ∧
      (m.kind = 1 → m.want = none → (u.page pg).loc = 0)) ∧
  (∀ (pg : Nat) (s : State), s.home.waits.any (fun w => decide (w.cause ≤ 3) && w.key == pg) = true →
    s.mayStartPages = true → ergPage pg = true → (s.page pg).loc = 0 → s.ergcAt pg = true →
    s.activeAt (pg * 65536) = true → s.busy.rewrite.contains pg = false →
    (∀ f, s.trayUp pg = true → s.migRoom (s.homeOfPage pg) = true → s.oasisOver (s.sliceOf pg) 1 = false →
      s.pickFree (s.homeOfPage pg) = some f → Runs (.ergcPromoteRetry pg) s ((s.startPromotion pg f).recause pg 0)) ∧
    ((s.ergcGate pg).1 = .started → Runs (.ergcPromoteRetry pg) s ((s.ergcGate pg).2.recause pg 0)) ∧
    (∀ c, (s.ergcGate pg).1 = .wait c → Runs (.ergcPromoteRetry pg) s ((s.ergcGate pg).2.recause pg c))) ∧
  (∀ (s : State), s.rd .PWR_STAT_STATE = 0 → s.epoch % 2 ^ s.rd .TIER_CTL_DECAY_LOG2 = 0 → s.tier.decayed ≠ some s.epoch →
    ∃ t, Runs .heatDecay s t ∧ t.tier.decayed = some s.epoch ∧
      t.tier.pages = s.tier.pages.map (fun e => (e.1, { e.2 with heat := e.2.heat / 2 })) ∧
      (∀ e ∈ t.tier.heat, e.2 ≠ 0 ∧ ∃ h, (e.1, h) ∈ s.tier.heat ∧ e.2 = h / 2) ∧ t.regs = s.regs ∧ t.pool = s.pool) ∧
  (∀ (s : State), s.tier.decayed = some s.epoch → Runs .heatDecay s s))

/-- Object commands and the prefetch schedule (R207 to R209): a run takes the image's entries of its phase in order; one with
no entry ends at once. Completes: DEFINE, PLACE_OASIS, PLACE_ERG, OBJECT_DELETE,
OBJECT_READ, SCHEDULE_RUN, SCHEDULE_STOP. -/
def Obligations.ObjectCommands : Prop :=
  (∀ (c : Instr) (i : Nat) (s : State), s.hostHeld = false → c ∈ [Instr.define, .placeOasis i, .placeErg i, .objectDelete i, .objectRead i] →
    s.on .TIER_OBJ_RES_BUSY = false → s.poolCmdOk = false →
    ∃ t, Runs c s t ∧ t.rd .TIER_OBJ_RES_STATUS = stSTATE ∧ t.rd .TIER_OBJ_RES_BUSY = 0 ∧ t.tier = s.tier ∧
      t.pool = s.pool) ∧
  (∀ (i : Nat) (s : State), s.hostHeld = false → s.on .TIER_OBJ_RES_BUSY = false → s.poolCmdOk = true →
    s.objOk (s.rd .TIER_OBJ_ARG0_BASE) (s.rd .TIER_OBJ_ARG1_PAGES) = true →
    (List.range 1024).find? (fun i => (s.object i).state == 0) = some i →
    ∃ t, Runs .define s t ∧ t.object i = { state := 1, base := s.rd .TIER_OBJ_ARG0_BASE
                                           pages := s.rd .TIER_OBJ_ARG1_PAGES, layer := s.rd .TIER_OBJ_ARG2_LAYER } ∧
      (∀ j, j ≠ i → t.object j = s.object j) ∧ t.rd .TIER_OBJ_RES_STATUS = stOK ∧ t.rd .TIER_OBJ_RES_INDEX = i ∧
      t.rd .TIER_OBJ_RES_STATE = 1 ∧ t.pool = s.pool) ∧
  (∀ (i k : Nat) (s : State) (x : Extent), s.hostHeld = false → i < 1024 → s.on .TIER_OBJ_RES_BUSY = false → s.poolCmdOk = true →
    (s.object i).state ≠ 0 → s.extentAt ((s.object i).base * 65536) = some (k, x) → x.place ≠ 1 →
    ∃ t, Runs (.placeOasis i) s t ∧ t.on .TIER_OBJ_RES_BUSY = true ∧ t.busy.objOp = 2 ∧ t.busy.objIdx = i ∧
      t.rd .TIER_PROG_POS_POS = 0 ∧ t.tier = s.tier ∧ t.pool = s.pool) ∧
  (∀ (i : Nat) (s : State), s.hostHeld = false → i < 1024 → s.on .TIER_OBJ_RES_BUSY = false → s.poolCmdOk = true → (s.object i).state ≠ 0 →
    ∃ t, Runs (.placeErg i) s t ∧ t.on .TIER_OBJ_RES_BUSY = true ∧ t.busy.objOp = 3 ∧ t.busy.objIdx = i ∧
      t.tier = s.tier ∧ t.pool = s.pool) ∧
  (∀ (i : Nat) (s : State), s.hostHeld = false → i < 1024 → s.on .TIER_OBJ_RES_BUSY = false → s.poolCmdOk = true → (s.object i).state ≠ 0 →
    ∃ t, Runs (.objectDelete i) s t ∧ t.object i = Obj.free ∧ (∀ j, j ≠ i → t.object j = s.object j) ∧
      t.rd .TIER_OBJ_RES_STATUS = stOK ∧ t.rd .TIER_OBJ_RES_STATE = 0 ∧ t.pool = s.pool) ∧
  (∀ (i : Nat) (s : State), s.hostHeld = false → i < 1024 → s.on .TIER_OBJ_RES_BUSY = false → s.poolCmdOk = true →
    ∃ t, Runs (.objectRead i) s t ∧ t.rd .TIER_OBJ_RES_STATUS = stOK ∧
      t.rd .TIER_OBJ_ARG0_BASE = (s.object i).base % 2 ^ Fld.TIER_OBJ_ARG0_BASE.width ∧
      t.rd .TIER_OBJ_ARG1_PAGES = (s.object i).pages % 2 ^ Fld.TIER_OBJ_ARG1_PAGES.width ∧
      t.rd .TIER_OBJ_RES_STATE = (s.object i).state % 2 ^ Fld.TIER_OBJ_RES_STATE.width ∧ t.tier = s.tier ∧ t.pool = s.pool) ∧
  (∀ (ph : Nat) (s : State), s.hostHeld = false → 1 ≤ ph → ph ≤ 3 → s.on .TIER_OBJ_RES_BUSY = false → s.poolCmdOk = true →
    ∃ (q : List (Nat × Nat)) (u : State), Runs (.scheduleRun ph) s (u.nextEntry q) ∧
      q = s.boot.image.sched.zipIdx.filterMap (fun (e, n) =>
        if bit e.1 (ph - 1) then some (e.2.1, 2 * n + e.2.2 % 2) else none) ∧
      u.busy.runQ = q ∧ u.rd .TIER_SCHED_STAT_PHASE = ph ∧ u.on .TIER_SCHED_STAT_RUNNING = true ∧
      u.rd .TIER_OBJ_RES_STATUS = stOK ∧ u.on .TIER_OBJ_RES_BUSY = true ∧ u.rd .TIER_PROG_POS_POS = 0 ∧
      u.rd .TIER_PROG_PCT_PCT = 0 ∧ u.pool = s.pool ∧ u.sw = s.sw ∧ u.home = s.home ∧
      (q = [] → (u.nextEntry q).rd .TIER_SCHED_STAT_RUNNING = 0 ∧ (u.nextEntry q).rd .TIER_OBJ_RES_BUSY = 0)) ∧
  (∀ (ph : Nat) (s : State), s.hostHeld = false → 1 ≤ ph → ph ≤ 3 → s.on .TIER_OBJ_RES_BUSY = false → s.poolCmdOk = false →
    ∃ t, Runs (.scheduleRun ph) s t ∧ t.rd .TIER_OBJ_RES_STATUS = stSTATE ∧ t.rd .TIER_OBJ_RES_BUSY = 0 ∧ t.tier = s.tier ∧
      t.pool = s.pool) ∧
  (∀ (ph : Nat) (s : State), s.hostHeld = false → 1 ≤ ph → ph ≤ 3 → s.on .TIER_OBJ_RES_BUSY = false → s.poolCmdOk = true →
    s.boot.image.objs = [] → s.boot.image.sched = [] →
    ∃ t, Runs (.scheduleRun ph) s t ∧ t.rd .TIER_SCHED_STAT_PHASE = ph ∧ t.rd .TIER_SCHED_STAT_RUNNING = 0 ∧
      t.rd .TIER_OBJ_RES_STATUS = stOK ∧ t.rd .TIER_OBJ_RES_BUSY = 0 ∧ t.rd .TIER_PROG_TOT_TOTAL = 0 ∧
      t.tier = s.tier ∧ t.pool = s.pool) ∧
  (∀ (s : State), s.hostHeld = false → s.on .TIER_SCHED_STAT_RUNNING = true →
    ∃ t, Runs .scheduleStop s t ∧ t.busy.objStop = true ∧ t.tier = s.tier ∧ t.regs = s.regs ∧ t.pool = s.pool)

/-- Group commands (R214): outside ASSIGNED or RUN each ends STATE. FORM of an OFF group makes it UP with the listed
slots and raises GEN, and is refused where an ID appears twice; ADD fills an empty slot at once; REMOVE starts a walk
that recalls every entry naming the slot; DISBAND of a faulted group starts its walk; REFORM of a group that is UP
changes nothing. Completes: FORM, ADD, REMOVE, DISBAND, REFORM. -/
def Obligations.GroupCommands : Prop :=
  (∀ (c : Instr) (s : State), s.hostHeld = false → c ∈ [Instr.form, .add, .remove, .reform, .disband] → s.on .DIR_CG_RES_BUSY = false →
    s.poolCmdOk = false →
    ∃ t, Runs c s t ∧ t.rd .DIR_CG_RES_STATUS = stSTATE ∧ t.rd .DIR_CG_RES_BUSY = 0 ∧ t.coh = s.coh ∧ t.pool = s.pool) ∧
  (∀ (g : Nat) (s : State), s.hostHeld = false → s.on .DIR_CG_RES_BUSY = false → s.poolCmdOk = true → s.rcv.dirOff = [] →
    s.rd .DIR_CG_ARG_GROUP = g → g < 16 → s.cgState g = 0 → idsOnce (s.cgListed g) = true →
    ∃ t, Runs .form s t ∧ t.cgState g = 1 ∧ t.cg g = { Cg.init with slots := s.cgListed g } ∧
      (∀ h, h ≠ g → t.cg h = s.cg h) ∧ t.rd .DIR_CG_GEN_GEN g = (s.rd .DIR_CG_GEN_GEN g + 1) % 2 ^ 32 ∧
      t.rd .DIR_CG_RES_STATUS = stOK ∧ t.coh.dir = s.coh.dir ∧ t.pool = s.pool) ∧
  (∀ (g : Nat) (s : State), s.hostHeld = false → s.on .DIR_CG_RES_BUSY = false → s.poolCmdOk = true → s.rcv.dirOff = [] →
    s.rd .DIR_CG_ARG_GROUP = g → g < 16 → s.cgState g = 0 → idsOnce (s.cgListed g) = false →
    ∃ t, Runs .form s t ∧ t.rd .DIR_CG_RES_STATUS = stREFUSED ∧ t.cgState g = 0 ∧ t.coh = s.coh) ∧
  (∀ (g m id : Nat) (s : State), s.hostHeld = false → s.on .DIR_CG_RES_BUSY = false → s.poolCmdOk = true → s.rcv.dirOff = [] →
    s.rd .DIR_CG_ARG_GROUP = g → g < 16 → s.rd .DIR_CG_ARG_SLOT = m → m < 64 → s.rd .DIR_CG_ARG_ID = id → id < 4096 →
    s.cgState g = 1 → s.slotAgent g m = none → s.slotListed g id = none →
    ∃ t, Runs .add s t ∧ (t.cg g).slots = (s.cg g).slots ++ [(m, id)] ∧ (∀ h, h ≠ g → t.cg h = s.cg h) ∧
      t.rd .DIR_CG_MEMBER_VALID g m = 1 ∧ t.rd .DIR_CG_MEMBER_ID g m = id ∧ t.rd .DIR_CG_RES_STATUS = stOK ∧
      t.coh.dir = s.coh.dir ∧ t.pool = s.pool) ∧
  (∀ (g m : Nat) (s : State), s.hostHeld = false → s.on .DIR_CG_RES_BUSY = false → s.poolCmdOk = true → s.contained = false → s.rcv.dirOff = [] →
    s.rd .DIR_CG_ARG_GROUP = g → g < 16 → s.rd .DIR_CG_ARG_SLOT = m → s.cgState g = 1 → (s.slotAgent g m).isSome = true →
    ∃ u : State, Runs .remove s (u.recallAll g (fun e => e.names m)) ∧ (u.cg g).removing = some m ∧ (u.cg g).walk = 1 ∧
      u.on .DIR_CG_RES_BUSY = true ∧ u.rd .DIR_CG_POS_POS g = 0 ∧ u.coh.dir = s.coh.dir ∧ u.pool = s.pool) ∧
  (∀ (g : Nat) (s : State), s.hostHeld = false → s.on .DIR_CG_RES_BUSY = false → s.poolCmdOk = true → s.rcv.dirOff = [] →
    s.rd .DIR_CG_ARG_GROUP = g → g < 16 → s.cgState g = 2 →
    ∃ t, Runs .disband s t ∧ (t.cg g).walk = 3 ∧ t.on .DIR_CG_RES_BUSY = true ∧ t.cgState g = 2 ∧
      t.coh.dir = s.coh.dir ∧ t.pool = s.pool) ∧
  (∀ (g : Nat) (s : State), s.hostHeld = false → s.on .DIR_CG_RES_BUSY = false → s.poolCmdOk = true → s.rcv.dirOff = [] →
    s.rd .DIR_CG_ARG_GROUP = g → g < 16 → s.cgState g = 1 →
    ∃ t, Runs .reform s t ∧ t.rd .DIR_CG_RES_STATUS = stOK ∧ t.rd .DIR_CG_RES_BUSY = 0 ∧ t.coh = s.coh ∧
      t.pool = s.pool) ∧
  (∀ (g : Nat) (s : State), s.hostHeld = false → s.on .DIR_CG_RES_BUSY = false → s.poolCmdOk = true → s.rcv.dirOff = [] →
    s.rd .DIR_CG_ARG_GROUP = g → g < 16 → s.cgState g = 2 → (s.cg g).faultWalk = false → idsOnce (s.cgListed g) = true →
    ∃ t, Runs .reform s t ∧ (t.cg g).walk = 4 ∧ (t.cg g).slots = s.cgListed g ∧ t.on .DIR_CG_RES_BUSY = true ∧
      t.coh.dir = s.coh.dir ∧ t.pool = s.pool)

/-- The walks of groups (R214, R233, R236, R237, R226, R244): the walk of a REMOVE empties the slot once no entry
names it; that of a DISBAND makes the group OFF; that of a REFORM removes the P entries and makes it UP; the fault
walk sets every entry of an ACTIVE line to P and sets WALKED; a snoop not answered in time counts and is taken as
unanswered; a walk checks every entry that it reads, and one with two symbols in error is dropped, reported and fails every
group (R217); the sharer walk ends for its agent alone. Completes: GROUP_WALK_END, FAULT_WALK_END, SNOOP_TIMEOUT,
SHARER_WALK_END. -/
def Obligations.GroupWalks : Prop :=
  (∀ (g m : Nat) (s : State), s.on .DIR_CG_RES_BUSY = true → s.rd .DIR_CG_RES_GROUP = g → g < 16 → m < 64 →
    (s.cg g).walk = 1 → (s.cg g).removing = some m → s.coh.dirErr = [] → (∀ e ∈ s.coh.dir, e.2.cg = g → e.2.names m = false ∧
      ∀ r, e.2.st.transient = true → e.2.req = some r → s.slotListed g r.src ≠ some m) →
    ∃ t, Runs .groupWalkEnd s t ∧ (t.cg g).slots = (s.cg g).slots.filter (fun e => e.1 != m) ∧
      (t.cg g).removing = none ∧ (t.cg g).walk = 0 ∧ t.rd .DIR_CG_MEMBER_VALID g m = 0 ∧
      t.rd .DIR_CG_STAT_PCT g = 10000 ∧ t.rd .DIR_CG_RES_STATUS = stOK ∧ t.rd .DIR_CG_RES_BUSY = 0 ∧
      t.coh.dir = s.coh.dir ∧ t.pool = s.pool) ∧
  (∀ (g : Nat) (s : State), s.on .DIR_CG_RES_BUSY = true → s.rd .DIR_CG_RES_GROUP = g → g < 16 → (s.cg g).walk = 3 →
    (s.cg g).faultWalk = false → s.coh.dirErr = [] → (∀ e ∈ s.coh.dir, e.2.cg = g → e.2.st = .P) →
    ∃ t, Runs .groupWalkEnd s t ∧ t.cgState g = 0 ∧ t.cg g = Cg.init ∧ (∀ h, h ≠ g → t.cg h = s.cg h) ∧
      (∀ e ∈ t.coh.dir, e.2.cg ≠ g ∧ e ∈ s.coh.dir) ∧ t.rd .DIR_CG_GEN_GEN g = (s.rd .DIR_CG_GEN_GEN g + 1) % 2 ^ 32 ∧
      t.rd .DIR_CG_RES_STATUS = stOK ∧ t.pool = s.pool) ∧
  (∀ (g : Nat) (s : State), s.on .DIR_CG_RES_BUSY = true → s.rd .DIR_CG_RES_GROUP = g → g < 16 → (s.cg g).walk = 4 → s.coh.dirErr = [] →
    ∃ t, Runs .groupWalkEnd s t ∧ t.cgState g = 1 ∧ t.cg g = { s.cg g with walk := 0, removing := none } ∧
      t.coh.dir = s.coh.dir.filter (fun e => !(e.2.cg == g && e.2.st == .P)) ∧
      t.rd .DIR_CG_GEN_GEN g = (s.rd .DIR_CG_GEN_GEN g + 1) % 2 ^ 32 ∧ t.rd .DIR_CG_RES_STATUS = stOK ∧ t.pool = s.pool) ∧
  (∀ (g : Nat) (s : State), g < 16 → (s.cg g).faultWalk = true → (s.cg g).walk ≠ 2 → s.coh.dirErr = [] →
    ∃ t, Runs (.faultWalkEnd g) s t ∧ t.cg g = { s.cg g with faultWalk := false } ∧ t.rd .DIR_CG_STAT_WALKED g = 1 ∧
      t.rd .DIR_CG_STAT_PCT g = 10000 ∧ t.pool.mem = s.pool.mem ∧ t.pool.extents = s.pool.extents ∧
      (∀ l e, s.dirEnt l = some e → e.cg = g → s.activeAt (64 * l) = true → (t.dirEnt l).map (·.st) = some .P)) ∧
  (∀ (line id m : Nat) (s : State) (e : DirEnt), s.coh.inotes = [] → s.dirEnt line = some e →
    s.slotListed e.cg id = some m → e.st.transient = true → e.awaiting.contains m = true →
    s.coh.hacks.any (fun h => h.1 == id && lineOf (mAddr h.2) == line) = false →
    ∃ u : State, Runs (.snoopTimeout line id) s (u.flushedSnoop line m) ∧ u.coh = s.coh ∧ u.pool = s.pool ∧
      u.rd .DIR_SNP_TMO_COUNT = min (s.rd .DIR_SNP_TMO_COUNT + 1) (2 ^ 32 - 1)) ∧
  (∀ (line id : Nat) (s : State) (n : Note), s.coh.inotes.find? (fun n => n.id == id && n.addr == 64 * line) = some n →
    Runs (.snoopTimeout line id) s (s.dropSub n .DIR_SNP_TMO_COUNT)) ∧
  (∀ (l n : Nat) (s : State), s.coh.dirErr = [(l, n)] → n = 2 →
    s.dirCheckAll (fun _ => true) =
      ((({ s with coh := { s.coh with dirErr := [] } }).dropDir l).raise 0x0B (s.homeOfPage (l / 1024))).allGroupsFault) ∧
  (∀ (id : Nat) (s : State), (s.agent id).walking = true → s.coh.dirErr = [] →
    ∃ t, Runs (.sharerWalkEnd id) s t ∧ t.agent id = { s.agent id with walking := false } ∧
      (∀ j, j ≠ id → t.agent j = s.agent j) ∧ t.regs = s.regs ∧ t.pool = s.pool ∧
      (∀ l e m, s.dirEnt l = some e → s.slotListed e.cg id = some m → e.shr.contains m = false →
        (s.coh.dir.map (·.1)).Nodup → t.dirEnt l = some e))

/-- Published regions (R239, R243, R246): CREATE checks its arguments in order and makes a region at VERSION 1; DELETE
ends the region; READ copies its record; a commit waits for the reads of the old body and raises VERSION. Completes:
REGION_CREATE, REGION_DELETE, REGION_READ, VERSION_COMMIT. -/
def Obligations.RegionCommands : Prop :=
  (∀ (c : Instr) (i : Nat) (s : State), s.hostHeld = false → c ∈ [Instr.regionCreate, .regionDelete i, .regionRead i] →
    s.on .DIR_PUB_RES_BUSY = false → s.poolCmdOk = false →
    ∃ t, Runs c s t ∧ t.rd .DIR_PUB_RES_STATUS = stSTATE ∧ t.rd .DIR_PUB_RES_BUSY = 0 ∧ t.coh = s.coh) ∧
  (∀ (st : Nat) (s : State), s.hostHeld = false → s.on .DIR_PUB_RES_BUSY = false → s.poolCmdOk = true → st ≠ stOK → st < 16 →
    s.regionStatus (s.rd .DIR_PUB_ARG0_HDR) (s.rd .DIR_PUB_ARG1_BODY) (s.rd .DIR_PUB_ARG2_LINES) = st →
    ∃ t, Runs .regionCreate s t ∧ t.rd .DIR_PUB_RES_STATUS = st ∧ t.coh = s.coh ∧ t.pool = s.pool) ∧
  (∀ (i : Nat) (s : State), s.hostHeld = false → s.on .DIR_PUB_RES_BUSY = false → s.poolCmdOk = true →
    s.regionStatus (s.rd .DIR_PUB_ARG0_HDR) (s.rd .DIR_PUB_ARG1_BODY) (s.rd .DIR_PUB_ARG2_LINES) = stOK →
    (List.range 1024).find? (fun i => !(s.region i).used) = some i →
    ∃ t, Runs .regionCreate s t ∧ (t.region i).used = true ∧ (t.region i).version = 1 ∧
      (t.region i).hdr = s.rd .DIR_PUB_ARG0_HDR ∧ (t.region i).body = s.rd .DIR_PUB_ARG1_BODY ∧
      (t.region i).lines = s.rd .DIR_PUB_ARG2_LINES ∧ (t.region i).subs = [] ∧
      (∀ j, j ≠ i → t.region j = s.region j) ∧ t.rd .DIR_PUB_RES_INDEX = i ∧ t.rd .DIR_PUB_RES_STATUS = stOK ∧
      t.pool = s.pool) ∧
  (∀ (i : Nat) (s : State), s.hostHeld = false → i < 1024 → s.on .DIR_PUB_RES_BUSY = false → s.poolCmdOk = true → (s.region i).used = true →
    (s.region i).cur = none → (s.region i).queue = [] →
    ∃ t, Runs (.regionDelete i) s t ∧ t.region i = Region.none ∧ (∀ j, j ≠ i → t.region j = s.region j) ∧
      t.rd .DIR_PUB_RES_STATUS = stOK ∧ t.pool = s.pool) ∧
  (∀ (i : Nat) (s : State), s.hostHeld = false → i < 1024 → s.on .DIR_PUB_RES_BUSY = false → s.poolCmdOk = true → (s.region i).used = true →
    ∃ t, Runs (.regionRead i) s t ∧ t.rd .DIR_PUB_VER_VERSION = (s.region i).version % 2 ^ 32 ∧
      t.rd .DIR_PUB_ARG0_HDR = (s.region i).hdr % 2 ^ 48 ∧ t.rd .DIR_PUB_ARG1_BODY = (s.region i).body % 2 ^ 48 ∧
      t.rd .DIR_PUB_ARG2_LINES = (s.region i).lines % 2 ^ 21 ∧ t.rd .DIR_PUB_RES_STATUS = stOK ∧ t.coh = s.coh ∧
      t.pool = s.pool) ∧
  (∀ (i : Nat) (s : State), s.hostHeld = false → i < 1024 → s.on .DIR_PUB_RES_BUSY = false → s.poolCmdOk = true → (s.region i).used = false →
    ∃ t, Runs (.regionDelete i) s t ∧ t.rd .DIR_PUB_RES_STATUS = stSTATE ∧ t.coh = s.coh) ∧
  (∀ (i : Nat) (s : State) (x : Region) (r : Req), s.region i = x → x.cur = some r → x.busy = true →
    s.oldReads i x = false →
    ∃ u : State, Runs (.versionCommit i) s
        (if x.invall && !x.subs.isEmpty then
          u.sendNotes i { x with version := (x.version + 1) % 2 ^ 32, time := s.now, busy := false } (x.hdr + 64) x.lines r
         else u.pubEnd i) ∧
      u.region i = { x with version := (x.version + 1) % 2 ^ 32, time := s.now, busy := false } ∧
      u.rd .DIR_PUB_OK_COUNT = min (s.rd .DIR_PUB_OK_COUNT + 1) (2 ^ 32 - 1) ∧ u.pool.mem = s.pool.mem) ∧
  (∀ (i : Nat) (s : State), (s.region i).cur = none → Runs (.versionCommit i) s s)

/-- Scans of RGF dies (R351 to R356, R363): a scheduled or early scan makes the die's scan due; a due scan starts
with a checker, at the time it starts, and waits where no die can check; equal digests pass both dies, unequal ones go to an arbiter, whose digest
decides; scores are halved once at their epoch, and the roles checked. Scans of near-memory adders (R369): the scan
of a complex starts at its epoch; equal digests pass it and its checker; unequal ones are arbitrated by MC(k XOR 2),
which is scanned itself where its digest is a third one.
Completes: SCAN_DUE, EARLY_SCAN, SCAN_START, VERDICT, ARBITRATION, SCORE_DECAY, ADDER_SCAN_DUE, ADDER_VERDICT. -/
def Obligations.ScansAndAdders : Prop :=
  ((∀ (d : Nat) (s : State), d < 36 → scannedRole (s.role d) = true → s.rd .PWR_STAT_STATE ≤ 1 →
    (s.scan d).startedAt s.epoch = false → s.dieScanAt d s.epoch = true →
    ∃ t, Runs (.scanDue d) s t ∧ t.scan d = { s.scan d with due := true } ∧ (∀ k, k ≠ d → t.scan k = s.scan k) ∧
      t.pool = s.pool ∧ t.rgf = s.rgf) ∧
  (∀ (d : Nat) (s : State), d < 36 → scannedRole (s.role d) = true → (s.scan d).due = false → (s.scan d).running = false →
    4096 ≤ (s.scan d).since →
    ∃ t, Runs (.earlyScan d) s t ∧ t.scan d = { s.scan d with due := true } ∧ (∀ k, k ≠ d → t.scan k = s.scan k) ∧
      t.rd .SCN_EARLY_COUNT = min (s.rd .SCN_EARLY_COUNT + 1) (2 ^ 32 - 1) ∧ t.pool = s.pool ∧ t.rgf = s.rgf) ∧
  (∀ (d c : Nat) (s : State), d < 36 → scannedRole (s.role d) = true → (s.scan d).due = true →
    (s.scan d).running = false → s.engaged d = false → s.dieRuns d = true → s.scansAllowed = true →
    s.pickChecker [d] = some c →
    ∃ t, Runs (.scanStart d) s t ∧ (t.scan d).running = true ∧ (t.scan d).due = false ∧ (t.scan d).start = s.now ∧
      (t.scan d).checker = c ∧ (t.scan d).arbiting = none ∧ (t.scan d).journal = (s.scan d).journal ∧
      (∀ k, k ≠ d → t.scan k = s.scan k) ∧ t.scn.lastDie = c ∧ t.freeCtr = s.freeCtr + 1 ∧ t.pool = s.pool) ∧
  (∀ (d : Nat) (s : State), s.pickChecker [d] = none → Runs (.scanStart d) s s) ∧
  (∀ (d dig chk : Nat) (s : State), dig ≠ chk → s.pickChecker [d, (s.scan d).checker] = none → Runs (.verdict d dig chk) s s) ∧
  (∀ (d dig : Nat) (s : State), d < 36 → (s.scan d).running = true → (s.scan d).arbiting = none → s.dieRuns d = true →
    Runs (.verdict d dig dig) s
      (((s.scanOver d).diePass d (s.scan d).start).diePass (s.scan d).checker (s.scan d).start)) ∧
  (∀ (d dig chk a : Nat) (s : State), d < 36 → (s.scan d).running = true → (s.scan d).arbiting = none →
    s.dieRuns d = true → dig ≠ chk → s.pickChecker [d, (s.scan d).checker] = some a →
    ∃ t, Runs (.verdict d dig chk) s t ∧ t.scan d = { s.scan d with arbiting := some (dig, chk, a) } ∧
      (∀ k, k ≠ d → t.scan k = s.scan k) ∧ t.scn.lastDie = a ∧
      t.rd .SCN_ARB_COUNT = min (s.rd .SCN_ARB_COUNT + 1) (2 ^ 32 - 1) ∧ t.pool = s.pool) ∧
  (∀ (d dig own chk a : Nat) (s u : State), d < 36 → (s.scan d).running = true →
    (s.scan d).arbiting = some (own, chk, a) → s.dieRuns d = true → u = s.scanOver d →
    Runs (.arbitration d dig) s
      (if dig = own then ((u.diePass d (s.scan d).start).diePass a (s.scan d).start).dieFail (s.scan d).checker
       else if dig = chk then ((u.diePass (s.scan d).checker (s.scan d).start).diePass a (s.scan d).start).dieFail d
       else ((u.dieFail d).dieFail (s.scan d).checker).makeDue a)) ∧
  (∀ (s : State), s.epoch % 2 ^ s.rd .SCN_DECAY_LOG2 = 0 → s.scn.decayed ≠ some s.epoch →
    ∃ u : State, Runs .scoreDecay s ((List.range 36).foldl (fun s d => s.roleCheck d) u) ∧
      (∀ d, d < 36 → s.score d < 65536 → u.score d = s.score d / 2) ∧ u.scn.decayed = some s.epoch ∧ u.pool = s.pool ∧
      u.rgf = s.rgf) ∧
  (∀ (s : State), s.scn.decayed = some s.epoch → Runs .scoreDecay s s)) ∧
  ((∀ (k : Nat) (s : State), k < 16 → s.addersRun k = true → (s.scan (48 + k)).running = false →
    (s.scan (48 + k)).startedAt s.epoch = false → s.scanAt k 16 s.epoch = true →
    ∃ t, Runs (.adderScanDue k) s t ∧ (t.scan (48 + k)).running = true ∧ (t.scan (48 + k)).start = s.now ∧
      (t.scan (48 + k)).checker = k ^^^ 1 ∧ (∀ j, j ≠ 48 + k → t.scan j = s.scan j) ∧ t.regs = s.regs ∧ t.pool = s.pool) ∧
  (∀ (k dig chk arb : Nat) (s : State), k < 16 → s.addersRun k = true → (s.scan (48 + k)).running = true →
    ∃ u : State, u.scan (48 + k) = { s.scan (48 + k) with running := false } ∧ u.pool = s.pool ∧
      u.rd .SCN_SCANS_COUNT = min (s.rd .SCN_SCANS_COUNT + 1) (2 ^ Fld.SCN_SCANS_COUNT.width - 1) ∧
      (dig = chk → Runs (.adderVerdict k dig chk arb) s
        ((u.adderPass k (s.scan (48 + k)).start).adderPass (k ^^^ 1) (s.scan (48 + k)).start)) ∧
      (dig ≠ chk → arb = chk → Runs (.adderVerdict k dig chk arb) s
        ((((u.bump .SCN_ARB_COUNT).adderPass (k ^^^ 1) (s.scan (48 + k)).start).adderPass (k ^^^ 2)
          (s.scan (48 + k)).start).adderFail k)) ∧
      (dig ≠ chk → arb = dig → Runs (.adderVerdict k dig chk arb) s
        ((((u.bump .SCN_ARB_COUNT).adderPass k (s.scan (48 + k)).start).adderPass (k ^^^ 2)
          (s.scan (48 + k)).start).adderFail (k ^^^ 1))) ∧
      (dig ≠ chk → arb ≠ dig → arb ≠ chk → ∃ v : State,
        v = (((u.bump .SCN_ARB_COUNT).adderFail k).adderFail (k ^^^ 1)) ∧
        ((v.scan (48 + (k ^^^ 2))).running = true → Runs (.adderVerdict k dig chk arb) s v) ∧
        ((v.scan (48 + (k ^^^ 2))).running = false → ∃ t, Runs (.adderVerdict k dig chk arb) s t ∧
          (t.scan (48 + (k ^^^ 2))).running = true ∧ (t.scan (48 + (k ^^^ 2))).checker = k ^^^ 3 ∧
          (t.scan (48 + (k ^^^ 2))).start = v.now ∧ t.pool = v.pool))) ∧
  (∀ (k : Nat) (s : State), k < 16 → s.on .SCN_MC_STAT_MOVED k = false →
    ∃ t, t = s.moveAdders k ∧ t.on .SCN_MC_STAT_MOVED k = true ∧ t.pool = s.pool ∧ t.scn = s.scn) ∧
  (∀ (k dig chk arb : Nat) (s : State), s.addersRun k = false → Runs (.adderVerdict k dig chk arb) s s))

/-- The host's die commands (R367, R368): outside RUN each ends STATE; OBSERVE, RELEASE, RETIRE, PAIR and SCAN_NOW
set the roles, partners and slots that Table 15.7 gives; a RETIRE with no spare ends STATE; a SCAN_NOW of a die whose scan is
due changes nothing and counts no early scan (R356). Completes: OBSERVE,
RELEASE, RETIRE, PAIR, SCAN_NOW. -/
def Obligations.DieCommands : Prop :=
  (∀ (c : Instr) (d : Nat) (s : State), s.hostHeld = false → c ∈ [Instr.observe d, .release d, .retire d, .pair d, .scanNow d] →
    s.on .SCN_DIE_RES_BUSY = false → s.running = false ∨ 36 ≤ d →
    ∃ t, Runs c s t ∧ t.rd .SCN_DIE_RES_STATUS = stSTATE ∧ t.rd .SCN_DIE_RES_BUSY = 0 ∧ t.scn = s.scn ∧ t.rgf = s.rgf ∧
      (∀ k, k < 36 → t.role k = s.role k)) ∧
  (∀ (d : Nat) (s : State), s.hostHeld = false → d < 36 → s.on .SCN_DIE_RES_BUSY = false → s.running = true → s.role d = 1 →
    ∃ t, Runs (.observe d) s t ∧ t.role d = 2 ∧ (t.scan d).obsFrom = s.epoch ∧
      (∀ k, k < 36 → k ≠ d → t.role k = s.role k) ∧ t.rd .SCN_DIE_RES_STATUS = stOK ∧ t.pool = s.pool) ∧
  (∀ (d : Nat) (s : State), s.hostHeld = false → d < 36 → s.on .SCN_DIE_RES_BUSY = false → s.running = true → s.role d = 2 →
    ∃ t, Runs (.release d) s t ∧ t.role d = 1 ∧ t.score d = 0 ∧ (∀ k, k < 36 → k ≠ d → t.role k = s.role k) ∧
      t.rd .SCN_DIE_RES_STATUS = stOK ∧ t.pool = s.pool) ∧
  (∀ (d : Nat) (s : State), s.hostHeld = false → d < 36 → s.on .SCN_DIE_RES_BUSY = false → s.running = true →
    s.role d = 1 ∨ s.role d = 2 → s.firstSpare.isSome = true →
    ∃ t, Runs (.retire d) s t ∧ t.role d = 4 ∧ (∀ p, p < 32 → t.dieOf p ≠ d) ∧ t.rd .SCN_DIE_RES_STATUS = stOK ∧
      t.pool = s.pool) ∧
  (∀ (d : Nat) (s : State), s.hostHeld = false → d < 36 → s.on .SCN_DIE_RES_BUSY = false → s.firstSpare = none →
    ∃ t, Runs (.retire d) s t ∧ t.rd .SCN_DIE_RES_STATUS = stSTATE ∧ (∀ k, k < 36 → t.role k = s.role k)) ∧
  (∀ (d q : Nat) (s : State), s.hostHeld = false → d < 36 → s.on .SCN_DIE_RES_BUSY = false → s.running = true → s.role d = 1 ∨ s.role d = 2 →
    s.partnerFor d = some q →
    ∃ t, Runs (.pair d) s t ∧ t.role d = 3 ∧ t.role q = 3 ∧ t.rd .RGF_DIE_STAT_PARTNER d = q ∧
      t.rd .RGF_DIE_STAT_PARTNER q = d ∧ (t.scan d).suspect = true ∧ t.rd .SCN_DIE_RES_STATUS = stOK ∧
      t.pool = s.pool) ∧
  (∀ (d : Nat) (s : State), s.hostHeld = false → d < 36 → s.on .SCN_DIE_RES_BUSY = false → s.running = true → s.assigned = true →
    scannedRole (s.role d) = true →
    ∃ t, Runs (.scanNow d) s t ∧ (t.scan d).due = true ∧ (∀ k, k ≠ d → t.scan k = s.scan k) ∧
      t.rd .SCN_DIE_RES_STATUS = stOK ∧ t.rd .SCN_DIE_RES_BUSY = 0 ∧
      t.rd .SCN_EARLY_COUNT = (if (s.scan d).due then s.rd .SCN_EARLY_COUNT else min (s.rd .SCN_EARLY_COUNT + 1) (2 ^ 32 - 1)) ∧
      t.pool = s.pool) ∧
  (∀ (d : Nat) (s : State), s.hostHeld = false → d < 36 → s.on .SCN_DIE_RES_BUSY = false → s.assigned = false →
    ∃ t, Runs (.scanNow d) s t ∧ t.rd .SCN_DIE_RES_STATUS = stSTATE ∧ t.scn = s.scn)

/-- Recomposition (R396 to R398) and the return bundle (R392): APPLY puts the staged port slices and slot masks in
force and counts; EVICT also starts the eviction walk, whose total is what the slices hold in excess; outside
ASSIGNED or RUN either ends STATE; BUILD begins a bundle, which is 2,293,888 bytes when it is complete. Completes:
BUILD, BUNDLE_COMPLETE, APPLY, EVICT. -/
def Obligations.RecompositionAndBundle : Prop :=
  (∀ (s : State), s.hostHeld = false → s.on .POOL_RCMP_STAT_BUSY = false → s.poolCmdOk = true →
    ∃ t, Runs .apply s t ∧
      (∀ p, p < 320 → t.rd .POOL_PORT_SLICE_ACTIVE p = s.rd .POOL_PORT_SLICE_STAGED p % 32) ∧
      (∀ n, n < 32 → t.rd .POOL_SLC_SLOTS_ACT_MASK n = s.rd .POOL_SLC_SLOTS_MASK n % 2 ^ 32) ∧
      t.rd .POOL_RCMP_CNT_COUNT = min (s.rd .POOL_RCMP_CNT_COUNT + 1) (2 ^ 32 - 1) ∧ t.rd .POOL_RCMP_STAT_STATUS = stOK ∧
      t.rd .POOL_RCMP_PCT_PCT = 10000 ∧ t.pool = s.pool ∧ t.tier = s.tier) ∧
  (∀ (s : State), s.hostHeld = false → s.on .POOL_RCMP_STAT_BUSY = false → s.poolCmdOk = true →
    ∃ t, Runs .evict s t ∧
      (∀ p, p < 320 → t.rd .POOL_PORT_SLICE_ACTIVE p = s.rd .POOL_PORT_SLICE_STAGED p % 32) ∧
      (∀ n, n < 32 → t.rd .POOL_SLC_SLOTS_ACT_MASK n = s.rd .POOL_SLC_SLOTS_MASK n % 2 ^ 32) ∧
      t.on .POOL_RCMP_STAT_BUSY = true ∧ t.busy.rcmpEvict = true ∧ t.rd .POOL_RCMP_TOT_TOTAL = s.excess % 2 ^ 32 ∧
      t.rd .POOL_RCMP_POS_POS = 0 ∧ t.pool = s.pool ∧ t.tier = s.tier) ∧
  (∀ (c : Instr) (s : State), s.hostHeld = false → c ∈ [Instr.apply, .evict] → s.on .POOL_RCMP_STAT_BUSY = false → s.poolCmdOk = false →
    ∃ t, Runs c s t ∧ t.rd .POOL_RCMP_STAT_STATUS = stSTATE ∧
      (∀ p, p < 320 → t.rd .POOL_PORT_SLICE_ACTIVE p = s.rd .POOL_PORT_SLICE_ACTIVE p) ∧ t.pool = s.pool) ∧
  (∀ (c : Instr) (s : State), s.hostHeld = false → c ∈ [Instr.apply, .evict] → s.on .POOL_RCMP_STAT_BUSY = true → Runs c s s) ∧
  (∀ (s : State), s.hostHeld = false → ∃ t, Runs .build s t ∧ t.rd .EVT_BUNDLE_TOT_TOTAL = 2293888 ∧ t.rd .EVT_BUNDLE_POS_POS = 0 ∧
    t.rd .EVT_BUNDLE_PCT_PCT = 0 ∧ t.boot = s.boot ∧ t.pool = s.pool) ∧
  (∀ (s : State), s.rd .EVT_BUNDLE_TOT_TOTAL = 2293888 → s.rd .EVT_BUNDLE_POS_POS ≠ 2293888 →
    ∃ t body, Runs .bundleComplete s t ∧ t.tel.bundle = body ++ leBytes 64 (Config.sha3 body) ∧
      body = s.bundleHeader ++ s.flashRead flRmap 0x20000 ++ s.flashRead flHealth 0x100000 ++ s.flashRead flEvents 0x100000
        ++ s.rcSnapshot ∧
      t.rd .EVT_BUNDLE_POS_POS = 2293888 ∧ t.rd .EVT_BUNDLE_PCT_PCT = 10000 ∧ t.boot = s.boot ∧ t.pool = s.pool)

/-- Errors of units (R20, R21, R118, R260, R372, R374, R380, R382, R383, Table 16.2): a die link error is not seen; a
failed unit gets its immediate action and its report; a port die's ports go DOWN; a failed memory complex is
containment. Completes: DIE_LINK_ERROR, DIE_LINK_FAIL, RGF_HARD, STACK_FAIL, PD_FAIL, MC_FAIL, DIR_MISMATCH,
LOCKSTEP_MISMATCH. -/
def Obligations.UnitErrors : Prop :=
  (∀ (a b : Nat) (s : State), Runs (.dieLinkError a b) s s) ∧
  (∀ (a b : Nat) (s : State), a < 100 → b < 100 →
    Runs (.dieLinkFail a b) s ((s.fault (dieFault a).1 (dieFault a).2).fault (dieFault b).1 (dieFault b).2)) ∧
  (∀ (d : Nat) (s : State), d < 36 → s.role d ≠ 5 → s.partner d ≠ some d →
    ∃ t, Runs (.rgfHard d) s t ∧ t = (s.dieHard d).raise 0x06 d ∧ t.role d = 5 ∧ StandingFault.mk 0x06 d ∈ t.rcv.raised) ∧
  (∀ (n : Nat) (s : State), n < 32 → s.stackIn n = true → s.rcv.stackWait.contains n = false →
    ∃ t, Runs (.stackFail n) s t ∧ t.rcv.stackWait = s.rcv.stackWait ++ [n] ∧
      t.rcv.raised = s.rcv.raised ++ [StandingFault.mk 0x08 n] ∧ t.regs = s.regs ∧ t.pool = s.pool) ∧
  (∀ (d : Nat) (s : State), d < 36 → s.rcv.pdOut.contains d = false →
    Runs (.pdFail d) s ((s.portDieLost d).raise 0x09 d) ∧ (s.portDieLost d).rcv.pdOut.contains d = true) ∧
  (∀ (k : Nat) (s : State), k < 16 →
    ∃ t, Runs (.mcFail k) s t ∧ t.rcv.raised = s.rcv.raised ++ [StandingFault.mk 0x0D k] ∧ t.regs = s.regs ∧
      t.pool = s.pool) ∧
  (∀ (s : State) (f : StandingFault), f.cls ≠ 0 → f.cls < 0x100 → sevOf f.cls = 4 → s.contained = false →
    ∃ u : State, s.report f = u.carAbortAll (fun _ => true) ∧ u.contained = true ∧ u.rd .EVT_CONTAIN_CAUSE = 2 ∧
      u.rd .EVT_CONTAIN_CLASS = f.cls ∧ u.pool = s.pool) ∧
  (∀ (k : Nat) (s : State), k < 16 → s.rcv.dirOff.contains k = false → s.rcv.dirHold.contains k = false →
    ∃ t, Runs (.dirMismatch k) s t ∧ t.rcv.dirHold = s.rcv.dirHold ++ [k] ∧
      t.rcv.raised = s.rcv.raised ++ [StandingFault.mk 0x0A k] ∧ t.regs = s.regs ∧ t.coh = s.coh ∧ t.pool = s.pool) ∧
  (∀ (pr : Nat) (s : State), pr < 2 → s.lockstep pr = true → s.rcv.ctHold.contains pr = false →
    ∃ t, Runs (.lockstepMismatch pr) s t ∧ t.rcv.ctHold = s.rcv.ctHold ++ [pr] ∧
      t.rcv.raised = s.rcv.raised ++ [StandingFault.mk 0x0C (2 * pr + 1)] ∧ t.regs = s.regs ∧ t.pool = s.pool)

/-- The sequencer (R374 to R377, R379, R382): its queue takes a new error, counts one more of an error that waits,
and runs the most severe first; a step of the running entry acts and completes it, and waits while its lane is tested or its
plane's slot is empty; a failed die's slots pass at its step; a full queue is a storm; a
self-test of control dies retires those that fail it. Completes: SEQUENCER_STEP, SUBSTITUTE_RETRY,
CONTROL_SELF_TEST_END. -/
def Obligations.SequencerWorks : Prop :=
  (∀ (s : State) (f : StandingFault), 1 ≤ sevOf f.cls → sevOf f.cls ≤ 3 → f.cls ≠ 0 → s.rcv.queue = [] → s.rcv.running = none →
    ∃ t, t = s.report f ∧ t.rcv.queue = [] ∧ t.regs = s.regs ∧ t.pool = s.pool ∧
      t.rcv.running = some { cls := f.cls, unit := f.unit, sev := sevOf f.cls, time := s.now, count := 0, step := 1
                             started := true }) ∧
  (∀ (s : State) (f : StandingFault) (r : RcvEnt), 1 ≤ sevOf f.cls → f.cls ≠ 0 → sevOf f.cls ≤ 3 → s.rcv.queue = [] →
    s.rcv.running = some r → (sameUnit r.cls f.cls && r.unit == f.unit) = false → r.sev < sevOf f.cls →
    ∃ t, t = s.report f ∧ t.rcv.queue = [{ r with step := 1 }] ∧ (t.rcv.running.map (·.cls)) = some f.cls ∧
      t.rd .EVT_RCV_PREEMPT_COUNT = min (s.rd .EVT_RCV_PREEMPT_COUNT + 1) (2 ^ Fld.EVT_RCV_PREEMPT_COUNT.width - 1) ∧
      t.pool = s.pool) ∧
  (∀ (s : State) (f : StandingFault), 1 ≤ sevOf f.cls → sevOf f.cls ≤ 3 → f.cls ≠ 0 → s.rcv.queue.length = 64 →
    s.rcv.running = none → (∀ e ∈ s.rcv.queue, e.unit ≠ f.unit) →
    ∃ u : State, s.report f = u.enterContain 1 0 ∧
      u.rd .EVT_STORMS_COUNT = min (s.rd .EVT_STORMS_COUNT + 1) (2 ^ Fld.EVT_STORMS_COUNT.width - 1) ∧
      u.rd .EVT_RCV_DROPPED_COUNT = min (s.rd .EVT_RCV_DROPPED_COUNT + 1) (2 ^ Fld.EVT_RCV_DROPPED_COUNT.width - 1)) ∧
  (∀ (ok : Bool) (s u : State) (e : RcvEnt), s.rcv.running = some e → s.rcv.ctHold = [] → s.stepReady e = true →
    u = s.stepEntry e ok → Runs (.sequencerStep ok) s (if u.rcv.running = some e then u.entryDone else u)) ∧
  (∀ (ok : Bool) (s : State) (e : RcvEnt), s.rcv.running = some e → s.stepReady e = false → Runs (.sequencerStep ok) s s) ∧
  (∀ (s : State) (e : RcvEnt), e.cls = 0x09 → ∃ u : State, s.stepEntry e true = u.rmap 0x0A e.unit ∧ u = s.setDegraded 3 true) ∧
  (∀ (s : State) (e : RcvEnt), e.cls = 0x06 → e.unit < 48 → s.role e.unit = 5 → ∃ u : State,
    u = ((s.leaveService e.unit).rgfSummary.lowCheck) ∧ s.stepEntry e true = u.rmap 0x04 e.unit 0 (u.role e.unit)) ∧
  (∀ (s : State) (e : RcvEnt), e.cls = 0x08 →
    ∃ t, t = s.stepEntry e true ∧ t.rcv.stackWait = s.rcv.stackWait.filter (· != e.unit) ∧ t.pool = s.pool ∧
      t.regs = s.regs) ∧
  (∀ (s : State), s.rcv.running = none → ∀ ok, Runs (.sequencerStep ok) s s) ∧
  (∀ (pg : Nat) (s : State), s.wantsSub pg = true → ∃ t, Runs (.substituteRetry pg) s t ∧ t = (s.findSub pg).2 ∧
    (∀ f, s.pickFree (s.homeOfPage pg) = some f → s.findSub pg = (true, s.takeSub pg f) ∧ t = s.takeSub pg f)) ∧
  (∀ (pg : Nat) (s : State), s.wantsSub pg = false → Runs (.substituteRetry pg) s s) ∧
  (∀ (pr : Nat) (s : State), s.rcv.ctHold.contains pr = true → tfind s.rcv.ctMis pr = none →
    ∃ t, Runs (.controlSelfTestEnd pr true true) s t ∧ t.rcv.ctHold.contains pr = false ∧
      tfind t.rcv.ctMis pr = some s.epoch ∧ t.rcv.ctOut = s.rcv.ctOut ∧ t.regs = s.regs ∧ t.pool = s.pool) ∧
  (∀ (pr : Nat) (s : State), s.rcv.ctHold.contains pr = true →
    ∃ u : State, Runs (.controlSelfTestEnd pr false true) s (u.ctRetire (2 * pr)) ∧ u.rcv.ctHold.contains pr = false ∧
      u.rcv.ctOut = s.rcv.ctOut ∧ u.regs = s.regs ∧ u.pool = s.pool) ∧
  (∀ (pr e : Nat) (s : State), s.rcv.ctHold.contains pr = true → tfind s.rcv.ctMis pr = some e → s.epoch < e + 2 ^ 20 →
    ∃ u : State, Runs (.controlSelfTestEnd pr true true) s (u.ctRetire (2 * pr + 1)) ∧ u.rcv.ctHold.contains pr = false ∧
      u.rcv.ctOut = s.rcv.ctOut ∧ u.regs = s.regs)

/-- Containment by the host, and the records (R383, R385, R386, R389, R391, R518): ENTER contains with cause 3; CLEAR
ends STATE outside RUN and where an S4 error caused it or an S3 error waits, ends OK where the device is not
contained, and otherwise moves leases and deadlines later by what containment lasted; CLR marks the selected record
CLEARED. A record that the map holds already is not written again, and another takes the lowest free slot (R376, R388); one
for a full repair map takes the place of the oldest CLEARED record; with none, FULL is set,
EV_RMAP_FULL raised, and the flash is left as it was (R390). Completes: ENTER, CLEAR, CLR, HEALTH_RECORD. -/
def Obligations.ContainmentAndRepairMap : Prop :=
  ((∀ (s : State), s.hostHeld = false → s.contained = false →
    ∃ u : State, Runs .enter s ((u.carAbortAll (fun _ => true)).cmdDone 11) ∧ u.contained = true ∧
      u.rd .EVT_CONTAIN_CAUSE = 3 ∧ u.rd .EVT_CONTAIN_CLASS = 0 ∧ u.rcv.containFrom = some s.epoch ∧ u.pool = s.pool ∧
      u.agents = s.agents ∧ u.chans = s.chans) ∧
  (∀ (l : List StandingFault) (s : State), s.hostHeld = false → s.running = false →
    ∃ t, Runs (.clear l) s t ∧ t.rd .EVT_CONTAIN_RES_STATUS = stSTATE ∧ t.contained = s.contained ∧ t.rcv = s.rcv) ∧
  (∀ (l : List StandingFault) (s : State), s.hostHeld = false → s.running = true → s.contained = false →
    ∃ t, Runs (.clear l) s t ∧ t.rd .EVT_CONTAIN_RES_STATUS = stOK ∧ t.contained = false ∧ t.rcv = s.rcv) ∧
  (∀ (l : List StandingFault) (s : State), s.hostHeld = false → s.running = true → s.contained = true →
    s.rd .EVT_CONTAIN_CAUSE = 2 ∨ s.s3Waits = true →
    ∃ t, Runs (.clear l) s t ∧ t.rd .EVT_CONTAIN_RES_STATUS = stSTATE ∧ t.contained = true ∧ t.rcv = s.rcv) ∧
  (∀ (s : State) (e : Nat), s.hostHeld = false → s.running = true → s.contained = true → s.rd .EVT_CONTAIN_CAUSE ≠ 2 → s.s3Waits = false →
    s.rcv.queue.length < 16 → s.rcv.containFrom = some e → s.tier.retry = [] →
    ∃ t, Runs (.clear []) s t ∧ t.rd .EVT_CONTAIN_RES_STATUS = stOK ∧ t.contained = false ∧ t.rd .EVT_CONTAIN_CAUSE = 0 ∧
      t.rcv.containFrom = none ∧ t.pool = s.pool ∧
      t.agents = s.agents.map (fun a => (a.1, if a.2.valid then { a.2 with expiry := a.2.expiry + (s.epoch - e) } else a.2))) ∧
  (∀ (i : Nat) (s : State), s.hostHeld = false → s.rd .EVT_RMAP_SEL_INDEX = i → rmapLive (s.rmapAt i) = true →
    Runs .clr s ((s.flashWrite (flRmap + 32 * i + 1) [(s.rmapAt i).getD 1 0 ||| 2]).cmdDone 13) ∧
    rmapCleared ((s.flashWrite (flRmap + 32 * i + 1) [(s.rmapAt i).getD 1 0 ||| 2]).rmapAt i) = true) ∧
  (∀ (i : Nat) (s : State), s.hostHeld = false → s.rd .EVT_RMAP_SEL_INDEX = i → rmapLive (s.rmapAt i) = false →
    ∃ t, Runs .clr s t ∧ t.boot = s.boot) ∧
  (∀ (s : State), s.power.inReset = false →
    ∃ t, Runs .healthRecord s t ∧ t = s.healthLog ∧ t.tel.healthNext = s.tel.healthNext + 1 ∧ t.tel.healthFails = [] ∧
      t.pool = s.pool ∧ t.regs = s.regs)) ∧
  ((∀ (s : State) (k u x d : Nat), s.rmapHas k u x d = true → s.rmap k u x d = s) ∧
  (∀ (s : State) (k u x d i : Nat), s.rmapHas k u x d = false → firstGap 0 s.rmapSlots = i → i < 4096 →
    ∃ t, t = s.rmap k u x d ∧ t.rmapAt i = rmapRecord k u x s.now d ∧
      t.rd .EVT_RMAP_CNT_RECORDS = (s.rmapSlots.length + 1) % 2 ^ Fld.EVT_RMAP_CNT_RECORDS.width ∧
      (∀ a, a < flRmap + 32 * i ∨ flRmap + 32 * i + 32 ≤ a → t.flashByte a = s.flashByte a)) ∧
  (∀ (s : State) (k u x d i : Nat), s.rmapHas k u x d = false → 4096 ≤ firstGap 0 s.rmapSlots → s.rmapOldest = some i →
    ∃ t, t = s.rmap k u x d ∧ t.rmapAt i = rmapRecord k u x s.now d ∧ t.regs = s.regs ∧
      (∀ a, a < flRmap + 32 * i ∨ flRmap + 32 * i + 32 ≤ a → t.flashByte a = s.flashByte a)) ∧
  (∀ (s : State) (k u x d : Nat), s.rmapHas k u x d = false → 4096 ≤ firstGap 0 s.rmapSlots → s.rmapOldest = none →
    s.rmap k u x d = (s.wr .EVT_RMAP_CNT_FULL 1).event .rmapFull ∧ (s.rmap k u x d).rd .EVT_RMAP_CNT_FULL = 1 ∧
      (s.rmap k u x d).boot = s.boot) ∧
  (∀ (s : State) (i : Nat), s.rmapOldest = some i →
    i < 4096 ∧ rmapLive (s.rmapAt i) = true ∧ rmapCleared (s.rmapAt i) = true ∧
    ∀ j, j < 4096 → rmapLive (s.rmapAt j) = true → rmapCleared (s.rmapAt j) = true →
      leAt (s.rmapAt i) 8 8 ≤ leAt (s.rmapAt j) 8 8) ∧
  (∀ (s : State), s.rmapOldest = none →
    ∀ j, j < 4096 → rmapLive (s.rmapAt j) = true → rmapCleared (s.rmapAt j) = false))

/-- Channel commands (R335, R336, R408, R518, Tables 14.1 and 16.4): a command waits while an earlier posted write of the
host does; GO starts an IDLE or HALTED channel at CAR_DNEXT and resumes a PAUSED one, and is ignored
outside ASSIGNED, outside RUN and in containment; PAUSE drains a running channel; ABORT ends what runs; CAR_DNEXT is
taken in IDLE and HALTED alone; what is ignored sets CMD_IGN. Completes: CAR_DNEXT, GO, PAUSE, ABORT, SETD. -/
def Obligations.ChannelCommands : Prop :=
  (∀ (c a : Nat) (i : Instr) (s : State), i ∈ [Instr.carDnext c a, .go c, .pause c, .abort c] → s.hostHeld = true →
    ∃ t, Runs i s t ∧ t.host = { s.host with behind := s.host.behind ++ [Behind.mk s.nextId false i] } ∧ t.regs = s.regs ∧
      t.chans = s.chans ∧ t.pool = s.pool) ∧
  (∀ (c a : Nat) (s : State), c < 64 → s.hostHeld = false → s.carState c = 0 ∨ s.carState c = 5 →
    ∃ t, Runs (.carDnext c a) s t ∧ t.rd .CAR_DNEXT_ADDR c = a % 2 ^ 48 ∧ t.carState c = s.carState c ∧
      (∀ k, k < 64 → k ≠ c → t.rd .CAR_DNEXT_ADDR k = s.rd .CAR_DNEXT_ADDR k) ∧ t.chans = s.chans ∧ t.pool = s.pool) ∧
  (∀ (c a : Nat) (s : State), c < 64 → s.carAgent c ≠ none → s.carState c = 0 ∨ s.carState c = 5 →
    ∃ t, Runs (.setd c a) s t ∧ t.rd .CAR_DNEXT_ADDR c = a % 2 ^ 48 ∧ t.carState c = s.carState c ∧ t.chans = s.chans ∧
      t.pool = s.pool) ∧
  (∀ (c a : Nat) (s : State), c < 64 → s.carAgent c = none → Runs (.setd c a) s s) ∧
  (∀ (c : Nat) (s : State), c < 64 → s.hostHeld = false → s.on .CAR_CFG_AGV c = false → s.assigned = true →
    s.contained = false → s.running = true → s.carState c = 0 ∨ s.carState c = 5 → s.rd .CAR_DNEXT_ADDR c ≠ 0 →
    s.rd .CAR_DNEXT_ADDR c < 2 ^ 48 →
    ∃ t, Runs (.go c) s t ∧ t.carState c = 1 ∧ t.rd .CAR_CUR_ADDR c = s.rd .CAR_DNEXT_ADDR c ∧ t.chan c = Chan.init ∧
      (∀ k, k < 64 → k ≠ c → t.carState k = s.carState k ∧ t.chan k = s.chan k) ∧ t.pool = s.pool) ∧
  (∀ (c : Nat) (s : State), c < 64 → s.hostHeld = false → s.on .CAR_CFG_AGV c = false → s.assigned = true →
    s.contained = false → s.running = true → s.carState c = 3 →
    ∃ t, Runs (.go c) s t ∧ t.carState c = 1 ∧ t.chans = s.chans ∧ t.pool = s.pool) ∧
  (∀ (c : Nat) (s : State), c < 64 → s.hostHeld = false →
    s.assigned = false ∨ s.contained = true ∨ s.running = false ∨ (s.carState c = 0 ∧ s.rd .CAR_DNEXT_ADDR c = 0) ∨ s.carState c = 1 →
    ∃ t, Runs (.go c) s t ∧ t.rd .CAR_STAT_CMD_IGN c = 1 ∧ t.carState c = s.carState c ∧ t.chans = s.chans ∧
      t.pool = s.pool) ∧
  (∀ (c : Nat) (s : State), c < 64 → s.hostHeld = false → s.on .CAR_CFG_AGV c = false → s.carState c = 1 →
    ∃ t, Runs (.pause c) s t ∧ t.carState c = 2 ∧ t.chans = s.chans ∧ t.pool = s.pool) ∧
  (∀ (c : Nat) (s : State), c < 64 → s.hostHeld = false → s.carState c ≠ 1 →
    ∃ t, Runs (.pause c) s t ∧ t.rd .CAR_STAT_CMD_IGN c = 1 ∧ t.carState c = s.carState c ∧ t.chans = s.chans) ∧
  (∀ (c : Nat) (s : State), c < 64 → s.hostHeld = false → s.on .CAR_CFG_AGV c = false →
    s.carState c = 1 ∨ s.carState c = 3 →
    ∃ t, Runs (.abort c) s t ∧ t.carState c = 4 ∧ t.chans = s.chans ∧ t.pool = s.pool) ∧
  (∀ (c : Nat) (s : State), c < 64 → s.hostHeld = false → s.carState c = 2 →
    ∃ t, Runs (.abort c) s t ∧ t.carState c = 2 ∧ t.chan c = { s.chan c with abortAfter := true } ∧
      (∀ k, k ≠ c → t.chan k = s.chan k) ∧ t.pool = s.pool) ∧
  (∀ (c : Nat) (s : State), c < 64 → s.hostHeld = false → s.on .CAR_CFG_AGV c = false → s.carState c = 5 →
    ∃ t, Runs (.abort c) s t ∧ t.carState c = 0 ∧ t.chans = s.chans ∧ t.pool = s.pool)

/-- Descriptors (R338 to R346): a fetched descriptor that passes its checks sets TOT and starts at offset 0, one that
fails them halts the channel, and one that could not be read halts it with the status of the read; a descriptor ends
once its data is moved and every access answered; its commit tells LASTST and goes on to NEXT or ends the list, and tells it
too in PAUSING and PAUSED; a failed status store halts; a drained channel is PAUSED; an aborted one is IDLE with its address in CAR_DNEXT; an access not answered in time is cancelled
and counted, and is a TIMEOUT. Completes: DESCRIPTOR_FETCH, CHANNEL_ACCESS_TIMEOUT, DESCRIPTOR_END, DESCRIPTOR_COMMIT, DRAIN_END,
ABORT_END. -/
def Obligations.DescriptorsRun : Prop :=
  (∀ (c : Nat) (s u v : State) (d : List Byte) (susp : Bool), c < 64 → s.carState c = 1 → (s.chan c).fetched = false →
    s.running = true → (s.chan c).err = none →
    u = s.engAskRanges (.chan c) (s.carSrc c) (s.carSub c) 5 [(lineOf (s.rd .CAR_CUR_ADDR c), 1)] →
    (u.chan c).err = none → u.carQuiet c = true → u.carRead c (s.rd .CAR_CUR_ADDR c) 64 = ((stOK, d, false, susp), v) → carCheck d = true →
    cdLen d < 2 ^ Fld.CAR_TOT_TOT.width →
    ∃ t : State, Runs (.descriptorFetch c) s (t.carAsk c) ∧ t.chan c = { Chan.init with desc := d, fetched := true } ∧
      t.rd .CAR_TOT_TOT c = cdLen d ∧ t.rd .CAR_POS_POS c = 0 ∧ t.rd .CAR_OFS_BYTES c = 0 ∧ t.pool = v.pool) ∧
  (∀ (c st : Nat) (s u v : State) (d : List Byte) (psn susp : Bool), c < 64 → s.carState c = 1 →
    (s.chan c).fetched = false → s.running = true → (s.chan c).err = none →
    u = s.engAskRanges (.chan c) (s.carSrc c) (s.carSub c) 5 [(lineOf (s.rd .CAR_CUR_ADDR c), 1)] →
    (u.chan c).err = none → u.carQuiet c = true → u.carRead c (s.rd .CAR_CUR_ADDR c) 64 = ((st, d, psn, susp), v) → st ≠ stOK ∨ psn = true →
    Runs (.descriptorFetch c) s ((v.engForget (.chan c)).carHalt c (if st = stOK then stPOISON else st))) ∧
  (∀ (c st a : Nat) (s : State), c < 64 → s.carState c = 1 → (s.chan c).fetched = false → s.running = true →
    (s.chan c).err = some (st, a) → s.carQuiet c = true →
    Runs (.descriptorFetch c) s (((s.carRead c (s.rd .CAR_CUR_ADDR c) 64).2.engForget (.chan c)).carHalt c st)) ∧
  (∀ (c st : Nat) (s : State), c < 64 → s.on .CAR_CFG_AGV c = false → st < 16 → s.rd .CAR_CUR_ADDR c < 2 ^ 48 →
    ∃ t, t = s.carHalt c st ∧ t.carState c = 5 ∧ t.rd .CAR_STAT_LASTST c = st ∧
      t.rd .CAR_DNEXT_ADDR c = s.rd .CAR_CUR_ADDR c ∧ t.pool = s.pool) ∧
  (∀ (c : Nat) (s : State) (q : Req) (l : List Req), c < 64 → s.heldReqs (fun r => r.org == Origin.chan c) = q :: l →
    (s.chan c).err = none →
    ∃ t, Runs (.channelAccessTimeout c) s t ∧ (t.chan c).err = some (stTIMEOUT, mAddr q.msg) ∧
      (t.chan c).errOfs = s.rd .CAR_OFS_BYTES c ∧ (∀ k, k ≠ c → t.chan k = s.chan k) ∧
      t.rd .POOL_CANCEL_COUNT = min (s.rd .POOL_CANCEL_COUNT + 1) (2 ^ Fld.POOL_CANCEL_COUNT.width - 1) ∧ t.pool = s.pool) ∧
  (∀ (c : Nat) (s : State), s.heldReqs (fun r => r.org == Origin.chan c) = [] → Runs (.channelAccessTimeout c) s s) ∧
  (∀ (c : Nat) (s u : State), c < 64 → s.carState c = 1 → (s.chan c).live = true → s.engWaiting (.chan c) = false →
    s.running = true → u = s.carRun c (s.chan c).total ((s.chan c).total + 1) →
    Runs (.descriptorEnd c) s (if u.carQuiet c then (u.engForget (.chan c)).carEndDesc c else u)) ∧
  (∀ (c : Nat) (s : State) (e : Nat × Nat), (s.chan c).err = some e →
    s.carEndDesc c = (s.carStatus c 2 e.1 (s.chan c).errOfs).bump .CAR_DESC_BAD_COUNT c) ∧
  (∀ (c : Nat) (s : State), c < 64 → s.carState c = 1 → (s.chan c).ended = true → s.carQuiet c = true →
    (s.chan c).err = none → s.on .CAR_CFG_AGV c = false → (s.chan c).bad = false → cdNext (s.chan c).desc = 0 →
    (s.chan c).told = false →
    ∃ t, Runs (.descriptorCommit c) s t ∧ t.carState c = 0 ∧ t.rd .CAR_DNEXT_ADDR c = 0 ∧
      t.rd .CAR_STAT_LASTST c = (s.chan c).fin % 16 ∧ t.pool = s.pool) ∧
  (∀ (c : Nat) (s : State), c < 64 → s.carState c = 1 → (s.chan c).ended = true → s.carQuiet c = true →
    (s.chan c).err = none → (s.chan c).bad = false → cdNext (s.chan c).desc ≠ 0 →
    cdNext (s.chan c).desc < 2 ^ 48 →
    ∃ t, Runs (.descriptorCommit c) s t ∧ t.carState c = 1 ∧ t.rd .CAR_CUR_ADDR c = cdNext (s.chan c).desc ∧
      t.chan c = Chan.init ∧ t.pool = s.pool) ∧
  (∀ (c : Nat) (s : State), c < 64 → s.carState c = 2 ∨ s.carState c = 3 → (s.chan c).ended = true → s.carQuiet c = true →
    (s.chan c).told = false → (s.chan c).err = none →
    ∃ t, Runs (.descriptorCommit c) s t ∧ t = s.carTell c ∧ (t.chan c).told = true ∧
      t.rd .CAR_STAT_LASTST c = (s.chan c).fin % 16 ∧ t.carState c = s.carState c ∧ t.pool = s.pool) ∧
  (∀ (c : Nat) (s : State) (e : Nat × Nat), c < 64 → s.carState c = 1 ∨ ((s.carState c = 2 ∨ s.carState c = 3) ∧
    (s.chan c).told = false) → (s.chan c).ended = true → s.carQuiet c = true → (s.chan c).err = some e →
    Runs (.descriptorCommit c) s (s.carHalt c e.1)) ∧
  (∀ (c n : Nat) (s u : State), c < 64 → s.carState c = 2 → (s.chan c).ended = true → s.carQuiet c = true →
    (s.chan c).abortAfter = false → (s.chan c).err = none → u = (s.carTell c).engForget (.chan c) →
    Runs (.drainEnd c n) s (u.setCarState c 3)) ∧
  (∀ (c n : Nat) (s : State), c < 64 → s.carState c = 2 → s.engWaiting (.chan c) = false → (s.chan c).live = false →
    (s.chan c).ended = false → s.carQuiet c = true → (s.chan c).abortAfter = false → s.on .CAR_CFG_AGV c = false →
    ∃ t, Runs (.drainEnd c n) s t ∧ t.carState c = 3 ∧ t.chans = s.chans ∧ t.pool = s.pool) ∧
  (∀ (c n : Nat) (s u : State), c < 64 → s.carState c = 2 → s.engWaiting (.chan c) = false → (s.chan c).live = true →
    u = s.carMove c (min n (s.chan c).total - (s.chan c).units) → u.carQuiet c = true → (u.chan c).err = none →
    (u.chan c).ended = false → (u.chan c).abortAfter = false →
    Runs (.drainEnd c n) s ((u.engForget (.chan c)).setCarState c 3)) ∧
  (∀ (c n : Nat) (s : State), c < 64 → s.carState c = 4 → s.engQuiet (.chan c) = true → s.engWaiting (.chan c) = false →
    (s.chan c).fetched = false →
    Runs (.abortEnd c n) s (s.carAborted c)) ∧
  (∀ (c : Nat) (s u : State), (s.chan c).ended = true →
    u = ((s.engForget (.chan c)).carTell c).wr .CAR_DNEXT_ADDR (cdNext (s.chan c).desc) c →
    s.carAborted c = (u.setChan c Chan.init).setCarState c 0)

/-- The tenant's life (R408 to R416): ASSIGN ends STATE where a condition of R409 holds, and otherwise takes the next
key, counts the tenant epoch and gives every bound agent a lease; TEARDOWN begins with steps 1 and 2; once nothing is
outstanding, or at its limit, the key is erased and the on-die state reset; the scrub's end leaves zeros and
UNASSIGNED. Completes: ASSIGN, TEARDOWN, TEARDOWN_DRAIN_END, TEARDOWN_LIMIT, TEARDOWN_SCRUB_END. -/
def Obligations.TenantLife : Prop :=
  (∀ (s : State), s.hostHeld = false → s.rd .SEC_TEN_STAT_STATE ≠ 0 ∨ s.boot.fuses.lifecycle ≠ 1 ∨ s.contained = true ∨
      s.rd .SEC_TEN_EPOCH_EPOCH = 0xFFFFFFFF ∨ s.running = false →
    ∃ t, Runs .assign s t ∧ t.rd .SEC_TEN_RES_STATUS = stSTATE ∧ t.rd .SEC_TEN_STAT_STATE = s.rd .SEC_TEN_STAT_STATE ∧
      t.rd .SEC_TEN_EPOCH_EPOCH = s.rd .SEC_TEN_EPOCH_EPOCH ∧ t.boot = s.boot ∧ t.agents = s.agents ∧ t.pool = s.pool) ∧
  (∀ (s : State), s.hostHeld = false → s.rd .SEC_TEN_STAT_STATE = 0 → s.boot.fuses.lifecycle = 1 → s.contained = false →
    s.rd .SEC_TEN_EPOCH_EPOCH < 0xFFFFFFFF → s.running = true →
    ∃ t, Runs .assign s t ∧ t.rd .SEC_TEN_RES_STATUS = stOK ∧ t.assigned = true ∧
      t.rd .SEC_TEN_EPOCH_EPOCH = s.rd .SEC_TEN_EPOCH_EPOCH + 1 ∧ t.boot.keys.cur = s.boot.keys.next ∧
      t.boot.keys.next = none ∧ t.boot.fuses = s.boot.fuses ∧ t.pool = s.pool ∧
      (∀ e ∈ t.agents, e.2.port.isSome = true →
        e.2.valid = true ∧ e.2.lost = false ∧ e.2.expiry = s.epoch + 2 ^ s.rd .POOL_LEASE_CFG_DEF_LOG2)) ∧
  (∀ (s : State), s.hostHeld = false → s.rd .SEC_TEN_STAT_STATE = 2 →
    ∃ t, Runs .teardown s t ∧ t.rd .SEC_TEN_RES_STATUS = stOK ∧ t.rd .SEC_TEN_STAT_STATE = 2 ∧
      t.rd .SEC_TEN_STAT_STEP = s.rd .SEC_TEN_STAT_STEP ∧ t.pool = s.pool) ∧
  (∀ (s : State), s.hostHeld = false → s.rd .SEC_TEN_STAT_STATE ≠ 2 → s.rd .SEC_TEN_STAT_STATE ≠ 1 ∨ s.running = false →
    ∃ t, Runs .teardown s t ∧ t.rd .SEC_TEN_RES_STATUS = stSTATE ∧ t.rd .SEC_TEN_STAT_STATE = s.rd .SEC_TEN_STAT_STATE ∧
      t.pool = s.pool) ∧
  (∀ (s : State), s.hostHeld = false → s.rd .SEC_TEN_STAT_STATE = 1 → s.running = true →
    ∃ u : State, Runs .teardown s
        (((u.openSlots.foldl (fun s k => s.abortOp k) u).endCommands.mirrExtentGone).carAbortAll (fun _ => true)) ∧
      u.rd .SEC_TEN_STAT_STATE = 2 ∧ u.rd .SEC_TEN_STAT_STEP = 3 ∧ u.rd .SEC_TEN_STAT_BUSY = 1 ∧
      u.rd .SEC_TEN_RES_STATUS = stOK ∧ u.pool = s.pool ∧ u.rgf = s.rgf ∧ u.boot.keys = s.boot.keys) ∧
  (∀ (s : State), s.rd .SEC_TEN_STAT_STATE = 2 → s.drained = true → s.contained = false →
    ∃ t, Runs .teardownDrainEnd s t ∧ t.rd .SEC_TEN_STAT_STATE = 3 ∧ t.rd .SEC_TEN_STAT_STEP = 6 ∧
      t.boot.keys.cur = none ∧ t.boot.keys.dead = s.boot.keys.dead ++ s.boot.keys.cur.toList ∧
      t.boot.keys.next.isSome = true ∧ t.pool.extents = [] ∧ t.pool.mem = s.pool.mem ∧ t.coh.dir = [] ∧
      t.rgf.slots = [] ∧ t.tier.pages = [] ∧ (∀ c, c < 64 → t.rd .CAR_DNEXT_ADDR c = 0)) ∧
  (∀ (s : State), s.rd .SEC_TEN_STAT_STATE = 2 → s.drained = false → Runs .teardownDrainEnd s s) ∧
  (∀ (s : State), s.rd .SEC_TEN_STAT_STATE = 2 →
    Runs .teardownLimit s ((s.wr .SEC_TEN_STAT_STEP 4).discardAll.eraseKey)) ∧
  (∀ (s : State), s.rd .SEC_TEN_STAT_STATE = 3 → s.rd .SEC_TEN_STAT_STEP = 6 → s.power.stepsEnded.contains 9 = true →
    s.home.tacc = [] → s.contained = false →
    ∃ t, Runs .teardownScrubEnd s t ∧ t.rd .SEC_TEN_STAT_STATE = 0 ∧ t.rd .SEC_TEN_STAT_BUSY = 0 ∧ t.pool.mem = [] ∧
      t.pool.psn = [] ∧ t.pool.susp = [] ∧ (∀ a, memByte t.pool.mem a = 0) ∧ (∀ n, n < 8 → t.rd .SEC_TEN_ID_ID n = 0) ∧
      t.boot = s.boot)

/-- Attestation and firmware (R417 to R424, R430): GEN takes the snapshot, and is ignored while a report is signed; a
signed report is 7,731 bytes; BEGIN invalidates the inactive slot's record; CHUNK programs the window at POS and
changes no other byte; FINISH checks before it commits; CANCEL and BEGIN drop what was pending; RAISE_SVN raises the
fuse to the running image's version and never lowers it. Completes: GEN, REPORT_SIGNED, BEGIN, CHUNK, FINISH,
RAISE_SVN, FIRMWARE_CANCEL. -/
def Obligations.AttestationAndFirmware : Prop :=
  (∀ (s : State), s.hostHeld = false → s.on .SEC_ATT_STAT_BUSY = false →
    ∃ t, Runs .gen s t ∧ t.on .SEC_ATT_STAT_BUSY = true ∧ t.boot.report.pending = some (s.rptBody ++ s.devPk) ∧
      t.boot.report.buf = s.boot.report.buf ∧ t.boot.flash = s.boot.flash ∧ t.pool = s.pool) ∧
  (∀ (s : State), s.hostHeld = false → s.on .SEC_ATT_STAT_BUSY = true →
    ∃ t, Runs .gen s t ∧ t.rd .SEC_ATT_STAT_CMD_IGN = 1 ∧ t.boot = s.boot ∧ t.pool = s.pool) ∧
  (∀ (s : State) (body : List Byte), s.boot.report.pending = some body →
    ∃ t, Runs .reportSigned s t ∧ t.boot.report.pending = none ∧
      t.boot.report.buf = body ++ slice (Config.sign s.free.1 ctxRpt body) 0 4627 ∧ t.rd .SEC_ATT_STAT_LEN = 7731 ∧
      t.rd .SEC_ATT_STAT_BUSY = 0 ∧ t.rd .SEC_ATT_CNT_COUNT = min (s.rd .SEC_ATT_CNT_COUNT + 1) (2 ^ 32 - 1) ∧
      t.boot.flash = s.boot.flash ∧ t.pool = s.pool) ∧
  (∀ (s : State), s.hostHeld = false → slotSize < s.rd .SEC_FW_LEN_LEN →
    ∃ t, Runs .begin s t ∧ t.rd .SEC_FW_STAT_STATUS = stREFUSED ∧ t.boot = s.boot) ∧
  (∀ (s : State), s.hostHeld = false → s.rd .SEC_FW_LEN_LEN ≤ slotSize →
    ∃ t, Runs .begin s t ∧ t.rd .SEC_FW_STAT_STATUS = stOK ∧ t.rd .SEC_FW_STAT_PEND = 0 ∧
      t.rd .SEC_FW_TOT_TOTAL = s.rd .SEC_FW_LEN_LEN ∧ t.rd .SEC_FW_POS_POS = 0 ∧ t.boot.fwBegun = true ∧
      t.flashByte (4096 * s.idleSlot + 127) = 0 ∧
      (∀ a, a ≠ 4096 * s.idleSlot + 127 → t.flashByte a = s.flashByte a)) ∧
  (∀ (s : State), s.hostHeld = false → s.boot.fwBegun = false →
    ∃ t, Runs .chunk s t ∧ t.rd .SEC_FW_STAT_STATUS = stSTATE ∧ t.boot = s.boot) ∧
  (∀ (s : State) (n pos : Nat), s.hostHeld = false → s.boot.fwBegun = true → s.rd .SEC_FW_CHLEN_LEN = n → s.rd .SEC_FW_POS_POS = pos → 1 ≤ n →
    n ≤ 32768 → pos + n ≤ s.rd .SEC_FW_TOT_TOTAL → s.rd .SEC_FW_TOT_TOTAL ≤ slotSize →
    ∃ t, Runs .chunk s t ∧ t.rd .SEC_FW_STAT_STATUS = stOK ∧ t.rd .SEC_FW_POS_POS = pos + n ∧
      (∀ i, i < n → t.flashByte (slotBase s.idleSlot + pos + i) = tget (0xFF : Byte) s.boot.fwWin i) ∧
      (∀ a, a < slotBase s.idleSlot + pos ∨ slotBase s.idleSlot + pos + n ≤ a → t.flashByte a = s.flashByte a)) ∧
  (∀ (s : State), s.hostHeld = false → s.boot.fwBegun = true → s.rd .SEC_FW_TOT_TOTAL < s.rd .SEC_FW_POS_POS + s.rd .SEC_FW_CHLEN_LEN →
    ∃ t, Runs .chunk s t ∧ t.rd .SEC_FW_STAT_STATUS = stREFUSED ∧ t.boot = s.boot) ∧
  (∀ (s : State), s.hostHeld = false → s.rd .SEC_FW_POS_POS ≠ s.rd .SEC_FW_TOT_TOTAL →
    ∃ t, Runs .finish s t ∧ t.rd .SEC_FW_STAT_STATUS = stSTATE ∧ t.boot = s.boot) ∧
  (∀ (s : State), s.hostHeld = false → s.rd .SEC_FW_POS_POS = s.rd .SEC_FW_TOT_TOTAL → s.idleSlot < 2 →
    ∃ t, Runs .finish s t ∧
      (if s.checkFw s.idleSlot = false ∨ leAt (s.img s.idleSlot 0 128) 12 4 < s.boot.fuses.minSvn then
        t.rd .SEC_FW_STAT_STATUS = stREFUSED ∧ t.boot = s.boot
      else
        t.rd .SEC_FW_STAT_STATUS = stOK ∧ t.rd .SEC_FW_STAT_PEND = 1 ∧ t.boot.fwBegun = false ∧
        t.flashRead (4096 * s.idleSlot) 8 = magicFCMT ++ leBytes 4 (s.slotSeq (1 - s.idleSlot) + 1) ∧
        t.flashByte (4096 * s.idleSlot + 127) = 1 ∧
        (∀ a, a < 4096 * s.idleSlot ∨ 4096 * s.idleSlot + 4096 ≤ a → t.flashByte a = s.flashByte a))) ∧
  (∀ (s : State), s.hostHeld = false → ∃ t, Runs .firmwareCancel s t ∧ t.rd .SEC_FW_STAT_STATUS = stOK ∧ t.rd .SEC_FW_STAT_PEND = 0 ∧
    t.boot.fwBegun = false ∧ (∀ a, a ≠ 4096 * s.idleSlot + 127 → t.flashByte a = s.flashByte a)) ∧
  (∀ (s : State), s.hostHeld = false → s.boot.fuses.minSvn < s.boot.image.svn → s.boot.image.svn ≤ 63 →
    ∃ t, Runs .raiseSvn s t ∧ t.rd .SEC_FW_STAT_STATUS = stOK ∧
      t.boot.fuses = { s.boot.fuses with minSvn := s.boot.image.svn } ∧ t.boot.flash = s.boot.flash) ∧
  (∀ (s : State), s.hostHeld = false → s.boot.image.svn ≤ s.boot.fuses.minSvn ∨ 63 < s.boot.image.svn →
    ∃ t, Runs .raiseSvn s t ∧ t.rd .SEC_FW_STAT_STATUS = stREFUSED ∧ t.boot = s.boot)

/-- Start-up (R412, R439 to R443): a release of RESET_N begins it and draws the next key, or is held while power is
not good; a step that does not run has no effect; a step that ends is kept with its time; step 3 without a good slot
is recovery boot; step 5 with a memory complex or a control pair failed stops start-up; step 9 ends the scrub.
Completes: RESET_N_RELEASE, STARTUP_STEP_END. -/
def Obligations.StartUpSteps : Prop :=
  (∀ (s : State), s.power.inReset = true → s.power.vstby = true → s.power.trips = false → s.power.pgIn = true →
    s.power.rails = true → s.power.stepsEnded = [] →
    ∃ t, Runs .resetNRelease s t ∧ t.power.inReset = false ∧ t.rd .BOOT_STAT_STEP = 1 ∧ t.boot.keys.next = some s.free.1 ∧
      t.boot.keys.cur = s.boot.keys.cur ∧ t.pool = s.pool) ∧
  (∀ (s : State), s.power.inReset = true → s.power.vstby = true → s.power.trips = false → s.power.pgIn = false →
    ∃ t, Runs .resetNRelease s t ∧ t.power = { s.power with relHeld := true } ∧ t.regs = s.regs ∧ t.boot = s.boot) ∧
  (∀ (n : Nat) (ok : Bool) (l : List StandingFault) (s : State), s.stepRuns n = false → Runs (.startupStepEnd n ok l) s s) ∧
  (∀ (n : Nat) (ok : Bool) (s : State), n ∈ [1, 4, 6, 10] → s.stepRuns n = true →
    ∃ t, Runs (.startupStepEnd n ok []) s t ∧ t.power.stepsEnded = s.power.stepsEnded ++ [n] ∧
      t.rd .BOOT_STEP_T_TIME n = s.now % 2 ^ 64 ∧ t.boot = s.boot ∧ t.pool = s.pool) ∧
  (∀ (ok : Bool) (l : List StandingFault) (s : State), s.stepRuns 2 = true →
    ∃ t, Runs (.startupStepEnd 2 ok l) s t ∧ t.power.stepsEnded = s.power.stepsEnded ++ [2] ∧
      t.rd .SEC_TEN_EPOCH_EPOCH = (match s.epochNewest with | some e => e.2 | none => 0) % 2 ^ 32 ∧
      t.rd .EVT_RMAP_CNT_RECORDS = s.rmapCount % 2 ^ Fld.EVT_RMAP_CNT_RECORDS.width ∧ t.boot.flash = s.boot.flash ∧
      t.boot.keys = s.boot.keys ∧ t.pool = s.pool) ∧
  (∀ (ok : Bool) (l : List StandingFault) (s : State), s.stepRuns 3 = true →
    ∃ t, Runs (.startupStepEnd 3 ok l) s t ∧
      (match s.slotOrder.find? (fun b => s.slotCode b == 0) with
       | none => t.rd .BOOT_STAT_RECOVERY = 1 ∧ t.power.stepsEnded = s.power.stepsEnded ∧ t.boot = s.boot
       | some b => t.rd .SEC_FW_STAT_RUN_SLOT = b % 2 ∧ t.boot.image = s.readImage b ∧
          t.rd .SEC_FW_STAT_PEND = b2n (s.slotOrder.head? != some b) ∧
          t.power.stepsEnded = s.power.stepsEnded ++ [3])) ∧
  (∀ (l : List StandingFault) (s : State), s.stepRuns 5 = true →
    ∃ t, Runs (.startupStepEnd 5 false l) s t ∧ t.rd .BOOT_STAT_HALT = 1 ∧ t.power.stepsEnded = s.power.stepsEnded ∧
      t.pool = s.pool) ∧
  (∀ (l : List StandingFault) (s : State), s.stepRuns 5 = true → l.any haltFault = true →
    ∃ t, Runs (.startupStepEnd 5 true l) s t ∧ t.rd .BOOT_STAT_HALT = 1 ∧ t.power.stepsEnded = s.power.stepsEnded) ∧
  (∀ (l : List StandingFault) (s : State), s.stepRuns 5 = true → l.any haltFault = false →
    Runs (.startupStepEnd 5 true l) s ((s.applyRmapAll.raiseList l).stepEnded 5)) ∧
  (∀ (ok : Bool) (l : List StandingFault) (s : State), s.stepRuns 7 = true →
    ∃ u : State, Runs (.startupStepEnd 7 ok l) s (u.stepEnded 7) ∧
      u = (s.raiseList l).wr .SEC_TD_TOT_TOTAL (s.raiseList l).scrubPages) ∧
  (∀ (ok : Bool) (l : List StandingFault) (s : State), s.stepRuns 8 = true →
    Runs (.startupStepEnd 8 ok l) s ((s.loadConfig.stepEnded 8).trainAll).bootReady) ∧
  (∀ (ok : Bool) (l : List StandingFault) (s : State), s.stepRuns 9 = true →
    ∃ t, Runs (.startupStepEnd 9 ok l) s t ∧ t.pool.mem = [] ∧ t.rd .SEC_TEN_STAT_STATE = 0 ∧ t.rd .SEC_TEN_STAT_BUSY = 0 ∧
      t.power.stepsEnded = s.power.stepsEnded ++ [9] ∧ (s.stepDone 8 = true → t.on .BOOT_STAT_READY = true))

/-- Calibration (R446, R447): before READY each command ends STATE; BEGIN erases the section; CHUNK programs the
window at POS and no other byte; COMMIT checks the whole set, and only then programs its last byte; CAPTURE writes a
whole set. Completes: CAL_BEGIN, CAL_CHUNK, CAL_COMMIT, CAPTURE. -/
def Obligations.CalibrationCommands : Prop :=
  (∀ (c : Instr) (tr : List Byte) (s : State), s.hostHeld = false → c ∈ [Instr.calBegin, .calChunk, .calCommit, .capture tr] →
    s.on .BOOT_STAT_READY = false →
    ∃ t, Runs c s t ∧ t.rd .BOOT_CAL_STAT_STATUS = stSTATE ∧ t.boot = s.boot ∧ t.pool = s.pool) ∧
  (∀ (s : State), s.hostHeld = false → s.on .BOOT_STAT_READY = true → s.rd .BOOT_CAL_LEN_LEN ≠ 141120 →
    ∃ t, Runs .calBegin s t ∧ t.rd .BOOT_CAL_STAT_STATUS = stREFUSED ∧ t.boot = s.boot) ∧
  (∀ (s : State), s.hostHeld = false → s.on .BOOT_STAT_READY = true → s.rd .BOOT_CAL_LEN_LEN = 141120 →
    ∃ t, Runs .calBegin s t ∧ t.rd .BOOT_CAL_STAT_STATUS = stOK ∧ t.rd .BOOT_CAL_TOT_TOTAL = 141120 ∧
      t.rd .BOOT_CAL_POS_POS = 0 ∧ t.rd .BOOT_CAL_STAT_VALID = 0 ∧ t.boot.calBegun = true ∧
      (∀ a, flCal ≤ a → a < flCal + 1856 * 1024 → t.flashByte a = 0xFF) ∧
      (∀ a, a < flCal ∨ flCal + 1856 * 1024 ≤ a → t.flashByte a = s.flashByte a)) ∧
  (∀ (s : State) (n pos : Nat), s.hostHeld = false → s.on .BOOT_STAT_READY = true → s.boot.calBegun = true → s.rd .BOOT_CAL_CHLEN_LEN = n →
    s.rd .BOOT_CAL_POS_POS = pos → 1 ≤ n → n ≤ 32768 → pos + n ≤ s.rd .BOOT_CAL_TOT_TOTAL → s.rd .BOOT_CAL_TOT_TOTAL ≤ 141120 →
    ∃ t, Runs .calChunk s t ∧ t.rd .BOOT_CAL_STAT_STATUS = stOK ∧ t.rd .BOOT_CAL_POS_POS = pos + n ∧
      (∀ i, i < n → t.flashByte (flCal + pos + i) = tget (0xFF : Byte) s.boot.calWin i) ∧
      (∀ a, a < flCal + pos ∨ flCal + pos + n ≤ a → t.flashByte a = s.flashByte a)) ∧
  (∀ (s : State), s.hostHeld = false → s.on .BOOT_STAT_READY = true → s.rd .BOOT_CAL_POS_POS = s.rd .BOOT_CAL_TOT_TOTAL →
    ∃ t, Runs .calCommit s t ∧
      (if s.calBodyOk (s.flashRead flCal calLen) = true then
        t.rd .BOOT_CAL_STAT_STATUS = stOK ∧ t.rd .BOOT_CAL_STAT_VALID = 1 ∧
        t.flashByte (flCal + 141119) = 1 ∧ (∀ a, a ≠ flCal + 141119 → t.flashByte a = s.flashByte a)
      else t.rd .BOOT_CAL_STAT_STATUS = stREFUSED ∧ t.boot = s.boot)) ∧
  (∀ (tr : List Byte) (s : State), s.hostHeld = false → s.on .BOOT_STAT_READY = true →
    ∃ t body, Runs (.capture tr) s t ∧ t.rd .BOOT_CAL_STAT_STATUS = stOK ∧ t.rd .BOOT_CAL_STAT_VALID = 1 ∧
      body = calHeader s.boot.fuses.serial ++ s.captured tr ∧
      (∀ i, i < body.length → t.flashByte (flCal + i) = body.getD i 0) ∧
      (∀ a, a < flCal ∨ flCal + 1856 * 1024 ≤ a → t.flashByte a = s.flashByte a))

/-- BAR2 (R89, R408, R440, R444, R472 to R475): a request that may reach no home completes with Unsupported Request
and is counted; a write is discarded and reported by AER; otherwise a read takes one NRD for each line, a write its
stores, an AtomicOp one fetch AT; a pool request behind a posted write waits; an unanswered request ends with
TIMEOUT. Completes: BAR2_READ, BAR2_WRITE, ATOMICOP, BAR2_TIMEOUT, FUNCTION_LEVEL_RESET, PERST_N. -/
def Obligations.HostMemory : Prop :=
  (∀ (off n : Nat) (s : State), s.hostServes = true → s.bar2Refused off n = true →
    ∃ t, Runs (.bar2Read off n) s t ∧ t.out = .bar2 s.nextId 2 false [] :: s.out ∧
      t.rd .GLB_HOST_RERR_COUNT = min (s.rd .GLB_HOST_RERR_COUNT + 1) (2 ^ 32 - 1) ∧ t.host = s.host ∧ t.pool = s.pool) ∧
  (∀ (off : Nat) (bs : List (Option Byte)) (s : State), s.hostServes = true → s.bar2Refused off bs.length = true →
    ∃ t, Runs (.bar2Write off bs) s t ∧ t.out = .aer 2 :: s.out ∧ t.regs = s.regs ∧ t.host = s.host ∧ t.pool = s.pool) ∧
  (∀ (off size op a b : Nat) (s : State), s.hostServes = true →
    2 < op ∨ (size ≠ 4 ∧ size ≠ 8) ∨ off % size ≠ 0 ∨ s.bar2Refused off size = true →
    ∃ t, Runs (.atomicOp off size op a b) s t ∧ t.out = .bar2 s.nextId 2 false [] :: s.out ∧ t.host = s.host ∧
      t.pool = s.pool) ∧
  (∀ (s : State), s.bar2Refused 0 4 = false → s.assigned = true ∧ s.contained = false ∧ s.on .GLB_APER_EN 0 = true) ∧
  (∀ (off len n : Nat) (s : State), s.hostServes = true → s.bar2Refused off len = false →
    n = lineOf (s.bar2Addr off + max len 1 - 1) - lineOf (s.bar2Addr off) + 1 →
    Runs (.bar2Read off len) s (s.hostBegin false false (s.bar2Addr off) len (fun tag =>
      (List.range n).map (fun i => hostPool tag opNRD 2 (64 * (lineOf (s.bar2Addr off) + i)) 6 [] [])))) ∧
  (∀ (off : Nat) (bs : List (Option Byte)) (s : State), s.hostServes = true → s.bar2Refused off bs.length = false →
    bs.all (·.isNone) = false →
    Runs (.bar2Write off bs) s
      (s.hostBegin true false (s.bar2Addr off) bs.length (fun tag => bar2Stores tag (s.bar2Addr off) bs))) ∧
  (∀ (tag a : Nat) (bs : List Byte), a % 64 = 0 → bs.length = 64 →
    bar2Stores tag a (bs.map some) = [hostPool tag opNWR 3 a 6 [] bs]) ∧
  (∀ (off a b : Nat) (s : State), s.hostServes = true → s.bar2Refused off 8 = false → off % 8 = 0 →
    Runs (.atomicOp off 8 0 a b) s (s.hostBegin false true (s.bar2Addr off) 8 (fun tag =>
      [hostPool tag opAT 3 (s.bar2Addr off) 3 [(20, 4, 0), (19, 1, 1)] (leBytes 8 (a % 2 ^ 64) ++ leBytes 8 0)]))) ∧
  (∀ (w at_ : Bool) (a len : Nat) (rs : Nat → List Req) (s : State),
    ∃ u : State, s.hostBegin w at_ a len rs = (rs s.nextId).foldl (fun s r => s.hostIssue r) u ∧
      u.nextId = s.nextId + 1 ∧ u.host.reqs.map (·.tag) = s.host.reqs.map (·.tag) ++ [s.nextId] ∧ u.pool = s.pool) ∧
  (∀ (r : Req) (s : State), s.postedBefore r = true →
    ∃ t, t = s.hostIssue r ∧ t.home.waits = s.home.waits ++ [{ req := r, cause := 11, key := 0 }] ∧ t.pool = s.pool) ∧
  (∀ (tag : Nat) (s : State) (h : HostReq), s.host.reqs.find? (fun h => h.tag == tag) = some h → h.isWrite = false →
    h.worst = stOK →
    ∃ t, Runs (.bar2Timeout tag) s t ∧ t.out = .bar2 h.tag 1 false [] :: s.out ∧ t.host.reqs = s.host.reqs.filter (fun x => x.tag != h.tag) ∧
      (∀ w ∈ t.home.waits, w.req.org ≠ .host tag) ∧ t.pool.mem = s.pool.mem) ∧
  (∀ (c : Instr) (s : State), c ∈ [Instr.functionLevelReset, .perstN] →
    ∃ t, Runs c s t ∧ t.host.reqs = [] ∧ t.host.behind = [] ∧ t.host.msix = [] ∧ t.host.pba = [] ∧ t.regs = s.regs ∧
      t.pool.mem = s.pool.mem)

/-- DOE and SPDM (R476, R477): each request is answered with the content the spec gives it while the host port
answers, and with nothing otherwise; answering changes nothing else. The response codes are the model's reading (log
entry 46). Completes: DOE_DISCOVERY, GET_VERSION, GET_CAPABILITIES, NEGOTIATE_ALGORITHMS, GET_DIGESTS,
GET_CERTIFICATE, GET_MEASUREMENTS, SPDM_UNSUPPORTED. -/
def Obligations.MeasurementsAnswered : Prop :=
  (∀ (c : Instr) (i o n k : Nat) (g : Bool) (s : State), c ∈ [Instr.doeDiscovery i, .getVersion, .getCapabilities,
      .negotiateAlgorithms, .getDigests, .getCertificate i o n, .getMeasurements i g, .spdmUnsupported k] →
    s.hostServes = false → Runs c s s) ∧
  (∀ (c : Instr) (i o n k : Nat) (g : Bool) (s : State), c ∈ [Instr.doeDiscovery i, .getVersion, .getCapabilities,
      .negotiateAlgorithms, .getDigests, .getCertificate i o n, .getMeasurements i g, .spdmUnsupported k] →
    s.hostServes = true → ∃ b, Runs c s (s.emit (.doe b))) ∧
  (∀ (s : State), s.hostServes = true → Runs .getVersion s (s.emit (.doe [0x04, 0x01, 0x00, 0x13]))) ∧
  (∀ (s : State), s.hostServes = true →
    Runs .getCapabilities s (s.emit (.doe (0x61 :: leBytes 4 0x0A ++ leBytes 4 65536)))) ∧
  (∀ (s : State), s.hostServes = true → Runs .negotiateAlgorithms s (s.emit (.doe (0x63 :: leBytes 4 0x20)))) ∧
  (∀ (s : State), s.hostServes = true →
    Runs .getDigests s (s.emit (.doe (0x01 :: 0x01 :: digest (chainBytes 0 Config.certLen))))) ∧
  (∀ (i : Nat) (s : State), s.hostServes = true → 2 ≤ i →
    Runs (.doeDiscovery i) s (s.emit (.doe [0, 0xFF, 0xFF, 0xFF, 0x00]))) ∧
  (∀ (i o n : Nat) (s : State), s.hostServes = true → i ≠ 0 →
    Runs (.getCertificate i o n) s (s.emit (.doe [0x7F, 0x01, 0]))) ∧
  (∀ (o n k : Nat) (s : State), s.hostServes = true → n < 65536 → k = min n (Config.certLen - o) →
    Runs (.getCertificate 0 o n) s
      (s.emit (.doe (if o < Config.certLen then 0x02 :: (leBytes 2 k ++ leBytes 2 (Config.certLen - o - k) ++ chainBytes o k)
        else [0x7F, 0x01, 0])))) ∧
  (∀ (s : State), s.hostServes = true → Runs (.getMeasurements 0 false) s (s.emit (.doe [0x60, 7]))) ∧
  (∀ (i : Nat) (s : State), s.hostServes = true → 1 ≤ i → i ≤ 7 →
    Runs (.getMeasurements i false) s (s.emit (.doe (0x60 :: 1 :: measBlock s.rptBody i)))) ∧
  (∀ (i : Nat) (s : State), s.hostServes = true → Runs (.getMeasurements i true) s (s.emit (.doe [0x7F, 0x07, 0]))) ∧
  (∀ (k : Nat) (s : State), s.hostServes = true →
    Runs (.spdmUnsupported k) s (s.emit (.doe [0x7F, 0x07, BitVec.ofNat 8 k])))

/-- Partial reset and I3C (R482, R483): HOLD ends STATE outside RUN and for a die in use, REFUSED for a memory
complex or a die that does not exist, OK for a die already held, and holds a spare; RELEASE begins the die's
self-test, whose pass makes an RGF die SPARE with score 0; I3C sets its offset, reads words and takes one write.
Completes: HOLD, PRST_RELEASE, PRST_SELF_TEST_END, I3C_WRITE, I3C_READ, SETDASA, ENTDAA. -/
def Obligations.PartialResetAndI3c : Prop :=
  (∀ (c : Instr) (n : Nat) (s : State), s.hostHeld = false → c ∈ [Instr.hold n, .prstRelease n] → s.on .GLB_PRST_RES_BUSY = true → Runs c s s) ∧
  (∀ (c : Instr) (n : Nat) (s : State), s.hostHeld = false → c ∈ [Instr.hold n, .prstRelease n] → s.on .GLB_PRST_RES_BUSY = false →
    s.running = false →
    ∃ t, Runs c s t ∧ t.rd .GLB_PRST_RES_STATUS = stSTATE ∧ (∀ k, k < 128 → t.dieHeld k = s.dieHeld k) ∧ t.pool = s.pool) ∧
  (∀ (n : Nat) (s : State), s.hostHeld = false → (44 ≤ n ∧ n < 60) ∨ (100 ≤ n ∧ n < 128) → s.on .GLB_PRST_RES_BUSY = false → s.running = true →
    s.dieHeld n = false →
    ∃ t, Runs (.hold n) s t ∧ t.rd .GLB_PRST_RES_STATUS = stREFUSED ∧ (∀ k, k < 128 → t.dieHeld k = s.dieHeld k)) ∧
  (∀ (n : Nat) (s : State), s.hostHeld = false → 60 ≤ n → n < 96 → s.on .GLB_PRST_RES_BUSY = false → s.running = true → s.dieHeld n = false →
    s.role (n - 60) = 0 →
    ∃ t, Runs (.hold n) s t ∧ t.rd .GLB_PRST_RES_STATUS = stOK ∧ t.dieHeld n = true ∧
      (∀ k, k < 128 → k ≠ n → t.dieHeld k = s.dieHeld k) ∧ t.pool = s.pool) ∧
  (∀ (n : Nat) (s : State), s.hostHeld = false → 60 ≤ n → n < 96 → s.on .GLB_PRST_RES_BUSY = false → s.running = true → s.dieHeld n = false →
    s.role (n - 60) ∈ [1, 2, 3] →
    ∃ t, Runs (.hold n) s t ∧ t.rd .GLB_PRST_RES_STATUS = stSTATE ∧ (∀ k, k < 128 → t.dieHeld k = s.dieHeld k)) ∧
  (∀ (n : Nat) (s : State), s.hostHeld = false → n < 100 → s.on .GLB_PRST_RES_BUSY = false → s.running = true → s.dieHeld n = false →
    ∃ t, Runs (.prstRelease n) s t ∧ t.rd .GLB_PRST_RES_STATUS = stOK ∧ t.rd .GLB_PRST_RES_BUSY = 0 ∧ t.pool = s.pool) ∧
  (∀ (n : Nat) (s : State), s.hostHeld = false → n < 100 → s.on .GLB_PRST_RES_BUSY = false → s.running = true → s.dieHeld n = true →
    ∃ t, Runs (.prstRelease n) s t ∧ t.on .GLB_PRST_RES_BUSY = true ∧ t.busy.prstDie = n ∧ t.rd .GLB_PRST_POS_POS = 0 ∧
      t.dieHeld n = true ∧ t.pool = s.pool) ∧
  (∀ (n : Nat) (s : State), 60 ≤ n → n < 96 → s.busy.prstDie = n → s.prstOn n = true → s.dieHeld n = true →
    ∃ t, Runs (.prstSelfTestEnd true) s t ∧ t.dieHeld n = false ∧ t.role (n - 60) = 0 ∧ t.score (n - 60) = 0 ∧
      t.rd .GLB_PRST_RES_STATUS = stOK ∧ t.rd .GLB_PRST_RES_BUSY = 0 ∧ t.pool = s.pool) ∧
  (∀ (n : Nat) (s : State), n < 100 → s.busy.prstDie = n → s.prstOn n = true → s.dieHeld n = true →
    ∃ u : State, Runs (.prstSelfTestEnd false) s (u.selfTestFail (dieFault n).1 (dieFault n).2) ∧ u.dieHeld n = false ∧
      u.rd .GLB_PRST_RES_STATUS = stPOISON ∧ u.pool = s.pool) ∧
  (∀ (bs : List Byte) (s : State), s.i3cServes = true → bs.length = 4 →
    ∃ t, Runs (.i3cWrite bs) s t ∧ t.host = { s.host with i3cOff := leAt bs 0 4 } ∧ t.regs = s.regs ∧ t.pool = s.pool) ∧
  (∀ (bs : List Byte) (s : State), s.i3cServes = true → bs.length = 8 → leAt bs 0 4 = 0x58300 → leAt bs 4 4 = 1 →
    s.rd .PWR_STAT_STATE ≠ 3 →
    ∃ t, Runs (.i3cWrite bs) s t ∧ t.rd .EVT_BUNDLE_TOT_TOTAL = 2293888 ∧ t.rd .EVT_BUNDLE_POS_POS = 0 ∧ t.pool = s.pool) ∧
  (∀ (bs : List Byte) (s : State), s.i3cServes = true → bs.length = 8 → leAt bs 0 4 ≠ 0x58300 →
    ∃ t, Runs (.i3cWrite bs) s t ∧ t.regs = s.regs ∧ t.pool = s.pool) ∧
  (∀ (s : State), s.i3cServes = true → s.host.i3cOff % 4 = 0 → s.i3cReads s.host.i3cOff = true →
    Runs (.i3cRead 4) s ((s.read4 s.host.i3cOff).2.emit (.i3c (leBytes 4 (s.read4 s.host.i3cOff).1)))) ∧
  (∀ (c : Instr) (a : Nat) (s : State), c ∈ [Instr.setdasa a, .entdaa a] → s.i3cServes = true →
    s.rd .GLB_I3C_STAT_DYNADDR = 0 → a < 128 →
    ∃ t, Runs c s t ∧ t.rd .GLB_I3C_STAT_DYNADDR = a ∧ t.pool = s.pool ∧ t.host = s.host)

/-- Supplies and reset (R412, R445, R506 to R508, R512): a taken RESET_N low puts the device into reset and keeps
flash and fuses alone; a low shorter than 1 µs does nothing; power failure and a trip are resets with the rails off;
OFF ignores PG_IN; power good lets a held release go on. Temperature and power (R510, R511): a sample shows the
hottest die and raises the level by the thresholds; the level falls once the reading is 5 °C below them; LIMIT
follows the power. Completes: VSTBY_UP, VSTBY_LOSS, PG_IN_HIGH, PG_IN_LOW, RESET_N, THERMAL_SAMPLE,
THERMAL_LEVEL_EXIT, POWER_LIMIT. -/
def Obligations.SuppliesResetAndHeat : Prop :=
  ((∀ (s : State), s.power.vstby = false →
    ∃ t, Runs .vstbyUp s t ∧ t.power.vstby = true ∧ t.power.inReset = true ∧ t.power.rails = false ∧ t.power.trips = false ∧
      t.rd .PWR_THERM_STAT_TRIP = 0 ∧ t.boot.flash = s.boot.flash ∧ t.boot.fuses = s.boot.fuses) ∧
  (∀ (s : State), s.power.vstby = true → Runs .vstbyUp s s) ∧
  (∀ (s : State), ∃ t, Runs .vstbyLoss s t ∧ t.stbyOk = false ∧ t.power.inReset = true ∧ t.pool = State.reset.pool ∧
    t.boot.flash = s.boot.flash ∧ t.boot.fuses = s.boot.fuses ∧ t.tap.driving = false) ∧
  (∀ (s : State), s.power.vstby = true → s.power.pgIn = false → s.power.offState = true → s.power.offWake = false →
    ∃ t, Runs .pgInHigh s t ∧ t.power = { s.power with pgIn := true } ∧ t.regs = s.regs ∧ t.pool = s.pool) ∧
  (∀ (s : State), s.power.vstby = true → s.power.pgIn = false → s.power.offState = false → s.power.trips = false →
    s.power.relHeld = true →
    ∃ u : State, Runs .pgInHigh s u.startUp ∧ u.power = { s.power with pgIn := true, rails := true } ∧ u.regs = s.regs ∧
      u.pool = s.pool) ∧
  (∀ (ns : Nat) (s : State), ns < 1000 → Runs (.pgInLow ns) s s) ∧
  (∀ (ns : Nat) (s : State), 1000 ≤ ns → s.power.vstby = true → s.power.offState = true →
    ∃ t, Runs (.pgInLow ns) s t ∧ t.power = { s.power with pgIn := false } ∧ t.regs = s.regs ∧ t.pool = s.pool) ∧
  (∀ (ns : Nat) (s : State), 1000 ≤ ns → s.power.vstby = true → s.power.offState = false →
    ∃ t, Runs (.pgInLow ns) s t ∧ t.power.inReset = true ∧ t.power.rails = false ∧ t.power.pgIn = false ∧
      t.power.relHeld = (s.power.relHeld || !s.power.inReset) ∧ t.pool = State.reset.pool ∧
      t.boot.flash = s.boot.flash ∧ t.boot.fuses = s.boot.fuses) ∧
  (∀ (ns : Nat) (s : State), ns < 1000 → Runs (.resetN ns) s s) ∧
  (∀ (ns : Nat) (s : State), 10000 ≤ ns → s.power.vstby = true →
    ∃ t, Runs (.resetN ns) s t ∧ t.power.inReset = true ∧ t.power.offState = false ∧ t.power.trips = false ∧
      t.power.rails = s.power.pgIn ∧ t.pool = State.reset.pool ∧ t.agents = State.reset.agents ∧
      t.boot.keys = State.reset.boot.keys ∧ t.boot.flash = s.boot.flash ∧ t.boot.fuses = s.boot.fuses) ∧
  (∀ (l : List Nat) (s : State), s.power.vstby = true → s.power.rails = true → s.power.inReset = false → l ≠ [] →
    115 ≤ l.foldl max 0 →
    ∃ t, Runs (.thermalSample l) s t ∧ t.rd .PWR_THERM_STAT_TRIP = 1 ∧ t.faultLow = true ∧ t.power.inReset = true ∧
      t.power.rails = false ∧ t.boot.flash = s.boot.flash ∧ t.boot.fuses = s.boot.fuses)) ∧
  ((∀ (l : List Nat) (m : Nat) (s : State), s.power.vstby = true → s.power.rails = true → s.power.inReset = false → l ≠ [] →
    l.foldl max 0 = m → m < 115 → l.length ≤ 100 →
    ∃ t, Runs (.thermalSample l) s t ∧ t.rd .PWR_THERM_STAT_TMAX = m ∧ t.rd .PWR_THERM_STAT_HOTDIE = l.idxOf m ∧
      t.rd .PWR_THERM_STAT_LEVEL = (if s.rd .PWR_THERM_STAT_LEVEL < (if s.rd .PWR_THERM_CFG_T2 ≤ m then 2
          else if s.rd .PWR_THERM_CFG_T1 ≤ m then 1 else 0)
        then (if s.rd .PWR_THERM_CFG_T2 ≤ m then 2 else if s.rd .PWR_THERM_CFG_T1 ≤ m then 1 else 0)
        else s.rd .PWR_THERM_STAT_LEVEL) ∧ t.power = s.power ∧ t.pool = s.pool) ∧
  (∀ (s : State), s.rd .PWR_THERM_STAT_LEVEL = 2 → s.rd .PWR_THERM_STAT_TMAX + 5 < s.rd .PWR_THERM_CFG_T2 →
    ∃ t, Runs .thermalLevelExit s t ∧ t.rd .PWR_THERM_STAT_LEVEL = 1 ∧ t.pool = s.pool) ∧
  (∀ (s : State), s.rd .PWR_THERM_STAT_LEVEL = 1 → s.rd .PWR_THERM_STAT_TMAX + 5 < s.rd .PWR_THERM_CFG_T1 →
    ∃ t, Runs .thermalLevelExit s t ∧ t.thermLow = s.power.trips ∧ t.pool = s.pool) ∧
  (∀ (a : Bool) (s : State), s.power.inReset = false → s.power.offState = false → s.power.rails = true →
    ∃ t, Runs (.powerLimit a) s t ∧ t.on .PWR_THERM_STAT_LIMIT = a ∧ t.power = s.power ∧ t.pool = s.pool))

/-- Boundary scan (R513): while VSTBY is in range each instruction is taken; the five that drive pins do so only
while RESET_N is low, and act as BYPASS otherwise; IDCODE shows the stepping; the device's own state is untouched.
Completes: TAP_RESET, EXTEST, IDCODE, SAMPLE_PRELOAD, CLAMP, HIGHZ, EXTEST_PULSE, EXTEST_TRAIN, BYPASS. -/
def Obligations.BoundaryScan : Prop :=
  (∀ (c : Instr) (n : Nat) (s : State), (c, n) ∈ [(Instr.extest, 0x00), (.clamp, 0x04), (.highz, 0x05), (.extestPulse, 0x08),
      (.extestTrain, 0x09)] → s.power.vstby = true →
    ∃ t, Runs c s t ∧ t.tap = (if s.resetLow then { s.tap with instr := n, driving := true } else { s.tap with instr := 0xFF }) ∧
      t.regs = s.regs ∧ t.power = s.power ∧ t.pool = s.pool) ∧
  (∀ (s : State), s.power.vstby = true →
    ∃ t, Runs .tapReset s t ∧ t.tap = { s.tap with instr := 0x01, driving := false } ∧ t.regs = s.regs ∧ t.pool = s.pool) ∧
  (∀ (s : State), s.power.vstby = true →
    ∃ t, Runs .idcode s t ∧ t.tap = { s.tap with instr := 0x01 } ∧ t.regs = s.regs ∧
      t.out = .tdo (s.boot.fuses.stepping % 16 * 2 ^ 28 + 0x092006B7) :: s.out) ∧
  (∀ (v : Nat) (s : State), s.power.vstby = true →
    ∃ t, Runs (.samplePreload v) s t ∧ t.tap = { s.tap with instr := 0x02, boundary := v } ∧ t.regs = s.regs ∧
      t.pool = s.pool) ∧
  (∀ (n : Nat) (s : State), s.power.vstby = true → [0x00, 0x01, 0x02, 0x04, 0x05, 0x08, 0x09].contains (n % 256) = false →
    ∃ t, Runs (.bypass n) s t ∧ t.tap = { s.tap with instr := 0xFF } ∧ t.regs = s.regs ∧ t.pool = s.pool) ∧
  (∀ (c : Instr) (v : Nat) (s : State), c ∈ [Instr.extest, .clamp, .highz, .extestPulse, .extestTrain, .tapReset, .idcode,
      .samplePreload v, .bypass v] → s.power.vstby = false → Runs c s s)

/-- Access to BAR0 (R11, R89, R440, R441, R444, R471, R478): a register read, and every command that is a register write,
waits while an earlier posted write is not performed, and nothing of it happens before; an access BAR0 does not accept is answered Unsupported Request or discarded, with an AER; a block not served reads zero
and ignores writes; a served read shows the register and clears what a read clears; a 4-byte read of a 64-bit
register's low half keeps its high half for the next; a write to a command register that is not BUSY acts as its
command. Telemetry and the persistent log (R486, R487, R491): TEL_SEL selects a register that is read-only or counts,
and sets SEL_ERR otherwise; a snapshot that is due exchanges the banks, counts and keeps its time; the oldest queued
record is written to the next slot of the flash log. Completes: REGISTER_WRITE, REGISTER_READ, TEL_SEL, SNAPSHOT,
FLASH_LOG_WRITE. -/
def Obligations.RegistersAndTelemetry : Prop :=
  ((∀ (c : Instr) (b : Bool) (s : State), barAccess c = some b → s.hostHeld = true →
    ∃ t, Runs c s t ∧ t.host = { s.host with behind := s.host.behind ++ [Behind.mk s.nextId b c] } ∧ t.nextId = s.nextId + 1 ∧
      t.regs = s.regs ∧ t.out = s.out ∧ t.ports = s.ports ∧ t.agents = s.agents ∧ t.sw = s.sw ∧ t.home = s.home ∧
      t.tier = s.tier ∧ t.coh = s.coh ∧ t.rgf = s.rgf ∧ t.chans = s.chans ∧ t.rcv = s.rcv ∧ t.boot = s.boot ∧ t.pool = s.pool) ∧
  (∀ (c : Instr) (o n v : Nat) (s : State), c ∈ [Instr.registerWrite o n v, .registerRead o n] →
    s.hostServes = false → s.hostHeld = false → Runs c s s) ∧
  (∀ (o n v : Nat) (s : State), s.hostServes = true → s.hostHeld = false → accessOk o n = false →
    Runs (.registerWrite o n v) s (s.emit (.aer 2)) ∧
    Runs (.registerRead o n) s ((s.emit (.unsupported o)).emit (.aer 2))) ∧
  (∀ (o n v : Nat) (s : State), s.hostServes = true → s.hostHeld = false → accessOk o n = true →
    s.blockServed o = false →
    Runs (.registerWrite o n v) s s ∧ Runs (.registerRead o n) s (s.emit (.regData o n 0))) ∧
  (∀ (o n : Nat) (s : State), s.hostServes = true → s.hostHeld = false → accessOk o n = true →
    s.blockServed o = true →
    Runs (.registerRead o n) s ((s.readReg o n).2.emit (.regData o n (s.readReg o n).1))) ∧
  (∀ (o v : Nat) (s : State), s.hostServes = true → s.hostHeld = false → accessOk o 8 = true → s.blockServed o = true →
    s.window o 8 = none → wide o = false →
    Runs (.registerWrite o 8 v) s ((s.write4 o v).write4 (o + 4) (v / 2 ^ 32))) ∧
  (∀ (o v : Nat) (s : State), o ∈ cmdOffsets → s.hostServes = true → s.hostHeld = false → s.blockServed o = true →
    s.romServes o = true → s.cmdHeld o (v % 2 ^ 32) = false →
    Runs (.registerWrite o 4 v) s ((s.putFields o (v % 2 ^ 32) 0xFFFFFFFF).cmdAct o (v % 2 ^ 32))) ∧
  (∀ (o v : Nat) (s : State), o ∈ cmdOffsets → s.hostServes = true → s.hostHeld = false → s.blockServed o = true →
    s.romServes o = false → Runs (.registerWrite o 4 v) s s) ∧
  (∀ (o : Nat) (s : State), s.window o 4 = none → (s.read4 o).2.window (o + 4) 4 = none → wide o = true →
    wide (o + 4) = false →
    (s.read4 o).1 = s.regVal o % 2 ^ 32 ∧ ((s.read4 o).2.read4 (o + 4)).1 = s.regVal o / 2 ^ 32) ∧
  (∀ (v : Nat) (s : State), s.hostServes = true → s.hostHeld = false → s.power.stepsEnded.contains 8 = true →
    ∃ t, Runs (.registerWrite 0x4000024 4 v) s t ∧ t.rd .POOL_EXT_ARG1_LEN = v % 2 ^ 26 ∧
      t.rd .POOL_EXT_ARG0_BASE = s.rd .POOL_EXT_ARG0_BASE ∧ t.pool = s.pool) ∧
  (∀ (c v : Nat) (s : State), c < 64 → s.hostServes = true → s.hostHeld = false →
    s.power.stepsEnded.contains 8 = true → s.carState c = 1 →
    ∃ t, Runs (.registerWrite (0x8000000 + 256 * c + 0x10) 8 v) s t ∧ t.rd .CAR_STAT_CMD_IGN c = 1 ∧
      t.rd .CAR_DNEXT_ADDR c = s.rd .CAR_DNEXT_ADDR c ∧ t.pool = s.pool)) ∧
  ((∀ (n v : Nat) (s : State), s.hostHeld = false → n < 256 → selectable (v % 2 ^ 28) = true →
    ∃ t, Runs (.telSel n v) s t ∧ t.rd .TEL_SEL_OFFSET n = v % 2 ^ 28 ∧ t.rd .TEL_SEL_VALID n = bits v 31 1 ∧
      (∀ k, k < 256 → k ≠ n → t.rd .TEL_SEL_OFFSET k = s.rd .TEL_SEL_OFFSET k) ∧ t.tel = s.tel ∧ t.pool = s.pool) ∧
  (∀ (n v : Nat) (s : State), s.hostHeld = false → n < 256 → selectable (v % 2 ^ 28) = false →
    ∃ t, Runs (.telSel n v) s t ∧ t.rd .TEL_STAT_SEL_ERR = 1 ∧ t.rd .TEL_SEL_OFFSET n = s.rd .TEL_SEL_OFFSET n) ∧
  (∀ (s : State), s.snapDue = true → s.rd .TEL_STAT_BANK ≤ 1 →
    ∃ t, Runs .snapshot s t ∧ t.rd .TEL_STAT_BANK = 1 - s.rd .TEL_STAT_BANK ∧
      (if s.rd .TEL_STAT_BANK = 0 then t.tel.snapB = s.snapCopy ∧ t.tel.snapA = s.tel.snapA
       else t.tel.snapA = s.snapCopy ∧ t.tel.snapB = s.tel.snapB) ∧
      t.rd .TEL_SEQ_COUNT = (s.rd .TEL_SEQ_COUNT + 1) % 2 ^ 32 ∧ t.rd .TEL_TS_TIME = s.now % 2 ^ 64 ∧ t.pool = s.pool) ∧
  (∀ (s : State), s.snapDue = false → Runs .snapshot s s) ∧
  (∀ (s : State) (r : List Byte) (q : List (List Byte)), s.tel.flashq = r :: q → r.length = 64 → s.power.inReset = false →
    s.power.offState = false →
    ∃ t, Runs .flashLogWrite s t ∧ t.tel.flashq = q ∧ t.flashRead (flEvents + 64 * (s.tel.flogNext % 16384)) 64 = r ∧
      t.tel.flogNext = s.tel.flogNext % 16384 + 1 ∧ t.rd .EVT_FLOG_IDX_NEXT = (leAt r 40 4 + 1) % 2 ^ 32 ∧ t.pool = s.pool) ∧
  (∀ (s : State), s.tel.flashq = [] → Runs .flashLogWrite s s))

/-- A step takes the command at the front of the queue and runs it on the state with the queue's rest. With no command
waiting the oldest BAR0 access that came behind a posted write is performed, once that write is (R89), and else one cycle
of CCLK passes; both are the model's choice (log entries 12 and 90). -/
def Obligations.StepRunsFront : Prop :=
  (∀ (c : Instr) (rest : List Instr) (s : State), s.pending = c :: rest → step s = exec c { s with pending := rest }) ∧
  (∀ (c : Instr) (s : State), step { s with pending := c :: s.pending } = exec c s) ∧
  (∀ (s : State), s.pending = [] → s.host.behind = [] ∨ (∃ b l h, s.host.behind = b :: l ∧ h ∈ s.host.reqs ∧ h.isWrite = true ∧
    h.tag < b.ord) → step s = .next s.idle ∧ s.idle.regs = s.regs ∧ s.idle.pool = s.pool) ∧
  (∀ (s : State) (b : Behind) (l : List Behind), s.pending = [] → s.host.behind = b :: l →
    (∀ h ∈ s.host.reqs, h.isWrite = true → b.ord ≤ h.tag) →
    step s = (match exec b.cmd { s with host := { s.host with behind := l, draining := true } } with
      | .next t => .next { t with host := { t.host with draining := false } }
      | .fault f => .fault f
      | .refused r => .refused r)) ∧
  (∀ (n w : Nat) (s : State), decodeTableWord n w = none ∧ s.withFetchWord n w = s)

/-- Every command answers a next state, at every state: none faults and none is refused. -/
def Obligations.EveryCommandAnswers : Prop :=
  ∀ (c : Instr) (s : State), ∃ t, exec c s = .next t

/-- ALERT_N is driven low while any bit is set in both GLB_IRQ_STAT and GLB_ALERT_EN, and is released otherwise;
FAULT_N is low in containment (R481, R383). -/
def Obligations.AlertLine : Prop :=
  (∀ (s : State), s.alertLow = true ↔
    ∃ b, (s.rd .GLB_IRQ_STAT_CAUSE).testBit b = true ∧ (s.rd .GLB_ALERT_EN_EN).testBit b = true) ∧
  (∀ (s : State), s.contained = true → s.faultLow = true)

/-- A timestamp is the epoch count above a 4-bit subtick above a 12-bit fraction, whose top bit says that the epoch
began in holdover (R7, R466). -/
def Obligations.TimestampLayout : Prop :=
  (∀ (s : State), s.clk.subtick < 16 → s.now / 2 ^ 16 = s.epoch ∧ s.now / 2 ^ 12 % 2 ^ 4 = s.clk.subtick) ∧
  (∀ (s : State), (s.now % 2 ^ 12).testBit 11 = s.clk.holdEpoch ∧ s.now % 2 ^ 11 = min (s.clk.cclk / 2) 0x7FF) ∧
  (∀ (s : State), s.clk.subtick < 16 → s.epoch < 2 ^ 48 → s.now < 2 ^ 64) ∧
  (∀ (s t : State), s.clk.subtick < 16 → t.clk.subtick < 16 → s.epoch < t.epoch → s.now < t.now)

/-- A request that an unanswered request of its source is more than 65,536 numbers away from, counted modulo 2^20, is
answered REFUSED and performs nothing; one within that distance of every unanswered request passes the check (R50). -/
def Obligations.DistanceLimit : Prop :=
  (∀ (c : Instr) (s : State) (p : Nat) (m : Msg) (res : Nat) (o : Outst), requestOf s c = some (p, m, res) → p < 320 →
    s.active p = true → s.rd .PRT_PFTL_STAT_ROLE p ≠ 3 → check1 m (ownBlock m (s.agentId p)) = true → mSrc m = s.agentId p →
    (s.source p).isOpen (mSeq m) = false → o ∈ (s.source p).outst → o.answered = false → 65536 < (mSeq m + 2 ^ 20 - o.seq % 2 ^ 20) % 2 ^ 20 →
    (mSeq m + 2 ^ 20 - o.seq % 2 ^ 20) % 2 ^ 20 < 2 ^ 20 - 65536 →
    ∃ t, Runs c s t ∧ t.pool = s.pool ∧ t.home = s.home ∧ t.coh = s.coh ∧ (t.source p).outst = (s.source p).outst ∧
      Answers s t p (respMsg (mSc m) (mSrc m) (s.agentId p) (mSeq m) { status := stREFUSED })) ∧
  (∀ (q : Source) (n : Nat), (∀ o ∈ q.outst, o.answered = false → (n + 2 ^ 20 - o.seq % 2 ^ 20) % 2 ^ 20 ≤ 65536 ∨
    2 ^ 20 - 65536 ≤ (n + 2 ^ 20 - o.seq % 2 ^ 20) % 2 ^ 20) → q.inWindow n = true)

/-- Subnormal inputs are read at their value, and a value of a format is written as its own encoding, subnormals too,
in every rounding mode (R302, R308). -/
def Obligations.SubnormalsKept : Prop :=
  (∀ (f : Fmt) (v : Nat), f ∈ [fmtBF16, fmtFP16, fmtFP32, fmtE4M3, fmtE5M2] → 1 ≤ v → v < 2 ^ f.mb →
    widenF f v = .fin false v (1 - (f.bias : Int) - f.mb)) ∧
  (∀ (f : Fmt) (mode v : Nat), f ∈ [fmtBF16, fmtFP16, fmtFP32, fmtE4M3, fmtE5M2] → v < 2 ^ (1 + f.eb + f.mb) →
    widenF f v ≠ .nan → narrow f mode false (widenF f v) = (v, false))

/-- An FP32 sum of finite values that is exactly zero is +0, except under RDN, where it is −0; a sum whose terms are
all −0 is −0. In a pass as in an addition (R311). -/
def Obligations.ZeroSums : Prop :=
  (∀ (mode : Nat) (a b : Fp) (n k : Bool) (x y : Nat) (e f : Int), a.num = .fin n x e → b.num = .fin k y f →
    Sys2Proof.Machine.Num.at x e (min e f) n + Sys2Proof.Machine.Num.at y f (min e f) k = 0 → ¬(n = true ∧ k = true ∧ x = 0 ∧ y = 0) →
    (fpAdd mode a b).num = .zero (mode == 3)) ∧
  (∀ (mode : Nat) (a b : Fp) (e f : Int), a.num = .fin true 0 e → b.num = .fin true 0 f →
    (fpAdd mode a b).num = .zero true) ∧
  (∀ (mode : Nat) (ps : List Sys2Proof.Machine.Num), ps ≠ [] → (∀ p ∈ ps, ∃ e, p = .fin true 0 e) → (passSum mode ps).num = .zero true) ∧
  (∀ (mode m : Nat) (e : Int), windowExp ≤ e → m ≠ 0 →
    (passSum mode [.fin false m e, .fin true m e]).num = .zero (mode == 3))

/-- In IDLE and SLEEP the host commands that R518 does not list end STATE and change nothing, a GO is ignored and sets
CMD_IGN, a CLEAR ends STATE, and ENTER takes effect without changing the power state (R518). -/
def Obligations.LowPowerCommands : Prop :=
  (∀ (c : Instr) (i : Nat) (f : Fld) (s : State), s.hostHeld = false → (c, f) ∈ [(Instr.assign, Fld.SEC_TEN_RES_STATUS),
      (.extentCreate, .POOL_EXT_RES_STATUS), (.extentDelete i, .POOL_EXT_RES_STATUS), (.setAttr i, .POOL_EXT_RES_STATUS),
      (.extentRead i, .POOL_EXT_RES_STATUS), (.setOwner i, .POOL_EXT_RES_STATUS), (.apply, .POOL_RCMP_STAT_STATUS),
      (.evict, .POOL_RCMP_STAT_STATUS), (.form, .DIR_CG_RES_STATUS), (.add, .DIR_CG_RES_STATUS), (.remove, .DIR_CG_RES_STATUS),
      (.reform, .DIR_CG_RES_STATUS), (.disband, .DIR_CG_RES_STATUS), (.regionCreate, .DIR_PUB_RES_STATUS),
      (.regionDelete i, .DIR_PUB_RES_STATUS), (.regionRead i, .DIR_PUB_RES_STATUS), (.define, .TIER_OBJ_RES_STATUS),
      (.placeOasis i, .TIER_OBJ_RES_STATUS), (.placeErg i, .TIER_OBJ_RES_STATUS), (.objectDelete i, .TIER_OBJ_RES_STATUS),
      (.objectRead i, .TIER_OBJ_RES_STATUS), (.observe i, .SCN_DIE_RES_STATUS), (.release i, .SCN_DIE_RES_STATUS),
      (.retire i, .SCN_DIE_RES_STATUS), (.pair i, .SCN_DIE_RES_STATUS), (.scanNow i, .SCN_DIE_RES_STATUS),
      (.hold i, .GLB_PRST_RES_STATUS), (.prstRelease i, .GLB_PRST_RES_STATUS)] →
    s.running = false → s.on .POOL_EXT_RES_BUSY = false → s.on .POOL_RCMP_STAT_BUSY = false → s.on .DIR_CG_RES_BUSY = false →
    s.on .DIR_PUB_RES_BUSY = false → s.on .TIER_OBJ_RES_BUSY = false → s.on .SCN_DIE_RES_BUSY = false →
    s.on .GLB_PRST_RES_BUSY = false →
    ∃ t, Runs c s t ∧ t.rd f = stSTATE ∧ t.pool = s.pool ∧ t.tier = s.tier ∧ t.coh = s.coh ∧ t.scn = s.scn ∧ t.rgf = s.rgf ∧
      t.power = s.power ∧ t.rd .PWR_STAT_STATE = s.rd .PWR_STAT_STATE) ∧
  (∀ (c : Nat) (s : State), c < 64 → s.running = false → s.hostHeld = false →
    ∃ t, Runs (.go c) s t ∧ t.rd .CAR_STAT_CMD_IGN c = 1 ∧ t.carState c = s.carState c ∧ t.pool = s.pool)

/-- What commands leave alone: each of these changes only the fields named with it, GLB_CMD_DONE and GLB_IRQ_STAT;
every byte of the pool, every port, agent, operation and directory entry is as it was (R11, R478). -/
def Obligations.CommandFrames : Prop :=
  ∀ (c : Instr) (fs : List Fld) (i v : Nat) (b : Bool) (s : State), (c, fs) ∈ [
      (Instr.build, [Fld.EVT_BUNDLE_TOT_TOTAL, .EVT_BUNDLE_POS_POS, .EVT_BUNDLE_PCT_PCT]),
      (.tmApply, [.TM_STAT_APPLY_PEND]), (.poolSuspClr i, []), (.gen, [.SEC_ATT_STAT_BUSY, .SEC_ATT_STAT_CMD_IGN]),
      (.begin, [.SEC_FW_STAT_STATUS, .SEC_FW_STAT_PEND, .SEC_FW_TOT_TOTAL, .SEC_FW_POS_POS]),
      (.chunk, [.SEC_FW_STAT_STATUS, .SEC_FW_POS_POS]), (.finish, [.SEC_FW_STAT_STATUS, .SEC_FW_STAT_PEND]),
      (.firmwareCancel, [.SEC_FW_STAT_STATUS, .SEC_FW_STAT_PEND]), (.raiseSvn, [.SEC_FW_STAT_STATUS]),
      (.reportSigned, [.SEC_ATT_STAT_BUSY, .SEC_ATT_STAT_LEN, .SEC_ATT_CNT_COUNT]),
      (.calBegin, [.BOOT_CAL_STAT_STATUS, .BOOT_CAL_STAT_VALID, .BOOT_CAL_TOT_TOTAL, .BOOT_CAL_POS_POS]),
      (.calChunk, [.BOOT_CAL_STAT_STATUS, .BOOT_CAL_POS_POS]), (.calCommit, [.BOOT_CAL_STAT_STATUS, .BOOT_CAL_STAT_VALID]),
      (.regionRead i, [.DIR_PUB_CMD_INDEX, .DIR_PUB_RES_STATUS, .DIR_PUB_RES_BUSY, .DIR_PUB_RES_INDEX, .DIR_PUB_ARG0_HDR,
        .DIR_PUB_ARG1_BODY, .DIR_PUB_ARG2_LINES, .DIR_PUB_VER_VERSION]),
      (.telSel i v, [.TEL_SEL_OFFSET, .TEL_SEL_VALID, .TEL_STAT_SEL_ERR]),
      (.snapshot, [.TEL_STAT_BANK, .TEL_SEQ_COUNT, .TEL_TS_TIME]), (.flashLogWrite, [.EVT_FLOG_IDX_NEXT]),
      (.powerLimit b, [.PWR_THERM_STAT_LIMIT]), (.thermalLevelExit, [.PWR_THERM_STAT_LEVEL]),
      (.setdasa v, [.GLB_I3C_STAT_DYNADDR]), (.entdaa v, [.GLB_I3C_STAT_DYNADDR]),
      (.carDnext i v, [.CAR_DNEXT_ADDR, .CAR_STAT_CMD_IGN]), (.setd i v, [.CAR_DNEXT_ADDR, .CAR_STAT_CMD_IGN]),
      (.extest, []), (.idcode, []), (.samplePreload v, []), (.bypass v, []), (.tapReset, []), (.clr, []),
      (.getMeasurements i b, []), (.dieLinkError i v, [])] →
    s.hostHeld = false ∨ barAccess c = none →
    ∃ t, Runs c s t ∧
      (∀ f i j, f ∉ fs → f ≠ .GLB_CMD_DONE_DONE → f ≠ .GLB_IRQ_STAT_CAUSE → t.rd f i j = s.rd f i j) ∧
      (∀ a, memByte t.pool.mem a = memByte s.pool.mem a) ∧ t.pool.psn = s.pool.psn ∧ t.pool.extents = s.pool.extents ∧
      t.ports = s.ports ∧ t.agents = s.agents ∧ t.sw = s.sw ∧ t.home = s.home ∧ t.tier = s.tier ∧ t.coh = s.coh ∧
      t.rgf = s.rgf ∧ t.chans = s.chans ∧ t.rcv = s.rcv ∧ t.power = s.power ∧ t.clk = s.clk

/-- What reset leaves (R12, R412, R428, R448): the tables' reset values, the tenant state SCRUBBING at step 6 and
busy, no key, nothing waiting, and the pool's memory in its canonical form, listing nothing. -/
def Obligations.ResetLeaves : Prop :=
  State.reset.MemOk ∧ State.reset.pool.mem = [] ∧ State.reset.pending = [] ∧ State.reset.pool.extents = [] ∧
  State.reset.boot.keys.cur = none ∧ State.reset.boot.keys.next = none ∧ State.reset.power.inReset = true ∧
  State.reset.rd .SEC_TEN_STAT_STATE = 3 ∧ State.reset.rd .SEC_TEN_STAT_STEP = 6 ∧ State.reset.rd .SEC_TEN_STAT_BUSY = 1 ∧
  State.reset.rd .BOOT_STAT_STEP = 1 ∧ State.reset.rd .BOOT_STAT_READY = 0 ∧ State.reset.contained = false ∧
  (∀ g, g < 16 → State.reset.cgState g = 0) ∧ (∀ c, c < 64 → State.reset.carState c = 0) ∧
  (∀ f i j, State.reset.rd f i j = f.resetVal i j) ∧
  (∀ e ∈ [(Fld.CAR_CFG_TMO_US, 256), (.PWR_THERM_CFG_T1, 102), (.PWR_THERM_CFG_T2, 106), (.TEL_CTL_EN, 1),
    (.GLB_HOST_CTL_TMO_US, 32), (.DIR_CG_TOT_TOTAL, 16777216), (.RGF_DIE_STAT_PARTNER, 63)],
    State.reset.rd e.1 = e.2)

/-- The security version (R424): RAISE_SVN sets the fused minimum to the running image's version and is refused when
that version is not above it or is above 63; no step lowers the minimum or changes another fuse; and no image of a
lower version is committed or started. -/
def Obligations.SecurityVersionHolds : Prop :=
  (∀ (s : State), s.hostHeld = false → s.boot.fuses.minSvn < s.boot.image.svn → s.boot.image.svn ≤ 63 →
    ∃ t, Runs .raiseSvn s t ∧ t.boot.fuses.minSvn = s.boot.image.svn) ∧
  (∀ (s : State), s.hostHeld = false → s.boot.image.svn ≤ s.boot.fuses.minSvn ∨ 63 < s.boot.image.svn →
    ∃ t, Runs .raiseSvn s t ∧ t.rd .SEC_FW_STAT_STATUS = stREFUSED ∧ t.boot = s.boot) ∧
  (∀ (s t : State), step s = .next t → s.boot.fuses.minSvn ≤ t.boot.fuses.minSvn ∧
    t.boot.fuses = { s.boot.fuses with minSvn := t.boot.fuses.minSvn }) ∧
  (∀ (s : State), s.hostHeld = false → s.rd .SEC_FW_POS_POS = s.rd .SEC_FW_TOT_TOTAL → leAt (s.img s.idleSlot 0 128) 12 4 < s.boot.fuses.minSvn →
    ∃ t, Runs .finish s t ∧ t.rd .SEC_FW_STAT_STATUS = stREFUSED ∧ t.boot.flash = s.boot.flash) ∧
  (∀ (b : Nat) (s : State), leAt (s.img b 0 128) 12 4 < s.boot.fuses.minSvn → s.slotCode b ≠ 0)

/-- The pool's memory keeps its canonical form at every step: addresses rising, and no byte listed that reads as an
unlisted one does. -/
def Obligations.MemoryStaysCanonical : Prop :=
  ∀ (s t : State), s.MemOk → step s = .next t → t.MemOk

/-- A step takes the front of the queue and changes nothing else of it: no command is dropped, reordered or invented.
-/
def Obligations.QueueIsTheSenders : Prop :=
  ∀ (s t : State), step s = .next t → t.pending = s.pending.tail
end

