-- ==== Sys2Proof/Laws/Flash.lean ====
section
/-! SUPPORT. Laws of the flash and of the repair map: a byte of a read, and the record a full map gives up. -/

namespace Sys2Proof.Laws
open Sys2Proof Sys2Proof.Machine

/-- One byte of a read of the flash. -/
theorem leAt_flashRead (s : State) (a n k : Nat) (h : k < n) :
    leAt (s.flashRead a n) k 1 = (s.flashByte (a + k)).toNat := by
  have : ((s.flashRead a n).drop k).take 1 = [s.flashByte (a + k)] := by
    rw [List.take_one, List.head?_drop]
    simp [State.flashRead, h]
  simp [leAt, this, leVal]

theorem rmapLive_rmapAt (s : State) (i : Nat) :
    rmapLive (s.rmapAt i) = ((s.flashByte (flRmap + 32 * i + 31)).toNat == 1) := by
  simp [rmapLive, State.rmapAt, leAt_flashRead]

theorem rmapCleared_rmapAt (s : State) (i : Nat) :
    rmapCleared (s.rmapAt i) = (s.flashByte (flRmap + 32 * i + 1)).toNat.testBit 1 := by
  simp [rmapCleared, State.rmapAt, leAt_flashRead]

theorem rmapOldest_none (s : State)
    (h : ∀ i, (rmapLive (s.rmapAt i) && rmapCleared (s.rmapAt i)) = false) : s.rmapOldest = none := by
  have : s.rmapSlots.filter (fun i => rmapLive (s.rmapAt i) && rmapCleared (s.rmapAt i)) = [] := by
    rw [List.filter_eq_nil_iff]; intro i _; simp [h i]
  rw [State.rmapOldest, this]; rfl

/-- A live slot is among the slots the records are looked for in. -/
theorem mem_rmapSlots (s : State) (j : Nat) (hj : j < 4096) (h : rmapLive (s.rmapAt j) = true) : j ∈ s.rmapSlots := by
  rw [rmapLive_rmapAt, beq_iff_eq] at h
  have hb : s.flashByte (flRmap + 32 * j + 31) = 1 := BitVec.eq_of_toNat_eq (by simpa using h)
  have hm : (flRmap + 32 * j + 31, (1 : Byte)) ∈ s.boot.flash := by
    revert hb
    simp only [State.flashByte, tget]
    generalize s.boot.flash = l
    induction l with
    | nil => intro hb; simp [tfind] at hb
    | cons e l ih =>
      intro hb
      unfold tfind at hb
      split at hb
      · rename_i he; rw [← he]; simp at hb; simp [← hb]
      · exact List.mem_cons_of_mem _ (ih hb)
  exact List.mem_filterMap.2 ⟨_, hm, by
    have h1 : flRmap ≤ flRmap + 32 * j + 31 := by omega
    have h2 : flRmap + 32 * j + 31 < flRmap + 0x20000 := by omega
    have h3 : (flRmap + 32 * j + 31) % 32 = 31 := by simp [flRmap]; omega
    have h4 : (flRmap + 32 * j + 31 - flRmap) / 32 = j := by omega
    simp [h1, h3, h4]; omega⟩
end Sys2Proof.Laws
end

