-- ==== Sys2Proof/Laws/Tables.lean ====
section
/-! SUPPORT. Laws of the sparse tables: a read after a write to the same key gives the value written, a write leaves
every other key alone, and every operation keeps the canonical form. -/

namespace Sys2Proof.Machine

variable {α : Type}

@[simp] theorem tfind_tins_same (t : List (Nat × α)) (k : Nat) (v : α) : tfind (tins t k v) k = some v := by
  induction t with
  | nil => simp [tins, tfind]
  | cons e t ih =>
    simp only [tins]
    split
    · simp [tfind]
    · split
      · simp [tfind]
      · rename_i h1 h2
        simp [tfind, Ne.symm h2, ih]

theorem tfind_tins_ne (t : List (Nat × α)) {k k' : Nat} (v : α) (h : k ≠ k') : tfind (tins t k v) k' = tfind t k' := by
  induction t with
  | nil => simp [tins, tfind, h]
  | cons e t ih =>
    simp only [tins]
    split
    · simp [tfind, h]
    · split
      · rename_i h1 h2
        simp [tfind, h, ← h2]
      · simp only [tfind, ih]

theorem tfind_filter_pos (t : List (Nat × α)) (k : Nat) (p : Nat → Bool) (h : p k = true) :
    tfind (t.filter (fun e => p e.1)) k = tfind t k := by
  induction t with
  | nil => rfl
  | cons e t ih =>
    by_cases hk : e.1 = k
    · simp [h, tfind, hk]
    · simp only [List.filter_cons]
      split <;> simp [tfind, hk, ih]

theorem tfind_filter_neg (t : List (Nat × α)) (k : Nat) (p : Nat → Bool) (h : p k = false) :
    tfind (t.filter (fun e => p e.1)) k = none := by
  induction t with
  | nil => rfl
  | cons e t ih =>
    by_cases hk : e.1 = k
    · have : p e.1 = false := by rw [hk]; exact h
      simp [this, ih]
    · simp only [List.filter_cons]
      split <;> simp [tfind, hk, ih]

@[simp] theorem tfind_tdel_same (t : List (Nat × α)) (k : Nat) : tfind (tdel t k) k = none :=
  tfind_filter_neg t k (fun x => decide (x ≠ k)) (by simp)

theorem tfind_tdel_ne (t : List (Nat × α)) {k k' : Nat} (h : k ≠ k') : tfind (tdel t k) k' = tfind t k' :=
  tfind_filter_pos t k' (fun x => decide (x ≠ k)) (by simp [Ne.symm h])

theorem tfind_tclear_in (t : List (Nat × α)) {lo hi k : Nat} (h : lo ≤ k) (h' : k < hi) :
    tfind (tclear t lo hi) k = none :=
  tfind_filter_neg t k (fun x => decide (x < lo ∨ hi ≤ x)) (by simp; omega)

theorem tfind_tclear_out (t : List (Nat × α)) {lo hi k : Nat} (h : k < lo ∨ hi ≤ k) :
    tfind (tclear t lo hi) k = tfind t k :=
  tfind_filter_pos t k (fun x => decide (x < lo ∨ hi ≤ x)) (by simpa using h)

/-- A read after a write to the same key gives the value written. -/
@[simp] theorem tget_tset_same [DecidableEq α] (d : α) (t : List (Nat × α)) (k : Nat) (v : α) :
    tget d (tset d t k v) k = v := by
  unfold tget tset
  split <;> simp_all

/-- A write leaves every other key alone. -/
theorem tget_tset_ne [DecidableEq α] (d d' : α) (t : List (Nat × α)) {k k' : Nat} (v : α) (h : k ≠ k') :
    tget d (tset d' t k v) k' = tget d t k' := by
  unfold tget tset
  split
  · rw [tfind_tdel_ne t h]
  · rw [tfind_tins_ne t v h]

@[simp] theorem tget_tins_same (d : α) (t : List (Nat × α)) (k : Nat) (v : α) : tget d (tins t k v) k = v := by
  simp [tget]

theorem tget_tins_ne (d : α) (t : List (Nat × α)) {k k' : Nat} (v : α) (h : k ≠ k') :
    tget d (tins t k v) k' = tget d t k' := by
  simp [tget, tfind_tins_ne t v h]

/-! ### Canonical form -/

theorem mem_tins (t : List (Nat × α)) (k : Nat) (v : α) {e : Nat × α} (h : e ∈ tins t k v) : e = (k, v) ∨ e ∈ t := by
  induction t with
  | nil => simpa [tins] using h
  | cons a t ih =>
    simp only [tins] at h
    split at h
    · simpa using h
    · split at h
      · simp only [List.mem_cons] at h ⊢; tauto
      · simp only [List.mem_cons] at h ⊢
        rcases h with h | h
        · exact .inr (.inl h)
        · rcases ih h with h | h
          · exact .inl h
          · exact .inr (.inr h)

theorem tins_sorted (t : List (Nat × α)) (k : Nat) (v : α) (h : t.Pairwise (fun a b => a.1 < b.1)) :
    (tins t k v).Pairwise (fun a b => a.1 < b.1) := by
  induction t with
  | nil => simp [tins]
  | cons e t ih =>
    rw [List.pairwise_cons] at h
    simp only [tins]
    split
    · rename_i hk
      refine List.pairwise_cons.2 ⟨?_, List.pairwise_cons.2 h⟩
      intro a ha
      rcases List.mem_cons.1 ha with rfl | ha
      · exact hk
      · exact lt_trans hk (h.1 a ha)
    · split
      · rename_i hk
        refine List.pairwise_cons.2 ⟨?_, h.2⟩
        intro a ha
        show k < a.1
        rw [hk]; exact h.1 a ha
      · rename_i h1 h2
        refine List.pairwise_cons.2 ⟨?_, ih h.2⟩
        intro a ha
        rcases mem_tins t k v ha with rfl | ha
        · show e.1 < k; omega
        · exact h.1 a ha

/-- Making a key read as a value keeps the canonical form. -/
theorem tset_wf [DecidableEq α] (d : α) (t : List (Nat × α)) (k : Nat) (v : α) (h : twf d t) : twf d (tset d t k v) := by
  unfold tset
  split
  · exact ⟨h.1.filter _, fun e he => h.2 e (List.mem_of_mem_filter he)⟩
  · rename_i hv
    refine ⟨tins_sorted t k v h.1, fun e he => ?_⟩
    rcases mem_tins t k v he with rfl | he
    · exact hv
    · exact h.2 e he

/-- Removing a range of keys keeps the canonical form. -/
theorem tclear_wf (d : α) (t : List (Nat × α)) (lo hi : Nat) (h : twf d t) : twf d (tclear t lo hi) :=
  ⟨h.1.filter _, fun e he => h.2 e (List.mem_of_mem_filter he)⟩

/-! ### Memory -/

theorem memSet_wf (m : List Host.Cell) (a : Nat) (b : Byte) (h : Memory.wf m) : Memory.wf (memSet m a b) :=
  tset_wf 0 m a b h

/-- A write of bytes keeps memory canonical. -/
theorem memWrite_wf (m : List Host.Cell) (a : Nat) (bs : List Byte) (h : Memory.wf m) : Memory.wf (memWrite m a bs) := by
  induction bs generalizing m a with
  | nil => exact h
  | cons b t ih => exact ih _ _ (memSet_wf m a b h)

@[simp] theorem memByte_memSet_same (m : List Host.Cell) (a : Nat) (b : Byte) : memByte (memSet m a b) a = b :=
  tget_tset_same 0 m a b

theorem memByte_memSet_ne (m : List Host.Cell) {a a' : Nat} (b : Byte) (h : a ≠ a') :
    memByte (memSet m a b) a' = memByte m a' :=
  tget_tset_ne 0 0 m b h

/-- A write of bytes leaves every address outside them alone. -/
theorem memByte_memWrite_out (m : List Host.Cell) (a : Nat) (bs : List Byte) {x : Nat} (h : x < a ∨ a + bs.length ≤ x) :
    memByte (memWrite m a bs) x = memByte m x := by
  induction bs generalizing m a with
  | nil => rfl
  | cons b t ih =>
    simp only [List.length_cons] at h
    simp only [memWrite]
    rw [ih (memSet m a b) (a + 1) (by omega), memByte_memSet_ne m b (by omega)]

/-- A read after a write of bytes gives the byte written. -/
theorem memByte_memWrite_in (m : List Host.Cell) (a : Nat) (bs : List Byte) (i : Nat) (h : i < bs.length) :
    memByte (memWrite m a bs) (a + i) = bs[i] := by
  induction bs generalizing m a i with
  | nil => simp at h
  | cons b t ih =>
    simp only [memWrite]
    cases i with
    | zero =>
      rw [memByte_memWrite_out _ _ _ (by omega)]
      simp
    | succ i =>
      have := ih (memSet m a b) (a + 1) i (by simpa using h)
      simpa [Nat.add_assoc, Nat.add_comm 1 i] using this

end Sys2Proof.Machine
end

