-- ==== Sys2Proof/Laws/State.lean ====
section
/-! SUPPORT. Laws of the state: for each named update, one lemma for each field it leaves alone; a register field read after
a write. No later proof unfolds a record update. -/

namespace Sys2Proof.Machine

/-! ### wr -/

@[simp] theorem wr_pending (s : State) (f : Fld) (v i j : Nat) : (s.wr f v i j).pending = s.pending := rfl
@[simp] theorem wr_ports (s : State) (f : Fld) (v i j : Nat) : (s.wr f v i j).ports = s.ports := rfl
@[simp] theorem wr_agents (s : State) (f : Fld) (v i j : Nat) : (s.wr f v i j).agents = s.agents := rfl
@[simp] theorem wr_sw (s : State) (f : Fld) (v i j : Nat) : (s.wr f v i j).sw = s.sw := rfl
@[simp] theorem wr_home (s : State) (f : Fld) (v i j : Nat) : (s.wr f v i j).home = s.home := rfl
@[simp] theorem wr_pool (s : State) (f : Fld) (v i j : Nat) : (s.wr f v i j).pool = s.pool := rfl
@[simp] theorem wr_tier (s : State) (f : Fld) (v i j : Nat) : (s.wr f v i j).tier = s.tier := rfl
@[simp] theorem wr_coh (s : State) (f : Fld) (v i j : Nat) : (s.wr f v i j).coh = s.coh := rfl
@[simp] theorem wr_rgf (s : State) (f : Fld) (v i j : Nat) : (s.wr f v i j).rgf = s.rgf := rfl
@[simp] theorem wr_chans (s : State) (f : Fld) (v i j : Nat) : (s.wr f v i j).chans = s.chans := rfl
@[simp] theorem wr_scn (s : State) (f : Fld) (v i j : Nat) : (s.wr f v i j).scn = s.scn := rfl
@[simp] theorem wr_rcv (s : State) (f : Fld) (v i j : Nat) : (s.wr f v i j).rcv = s.rcv := rfl
@[simp] theorem wr_boot (s : State) (f : Fld) (v i j : Nat) : (s.wr f v i j).boot = s.boot := rfl
@[simp] theorem wr_power (s : State) (f : Fld) (v i j : Nat) : (s.wr f v i j).power = s.power := rfl
@[simp] theorem wr_clk (s : State) (f : Fld) (v i j : Nat) : (s.wr f v i j).clk = s.clk := rfl
@[simp] theorem wr_busy (s : State) (f : Fld) (v i j : Nat) : (s.wr f v i j).busy = s.busy := rfl
@[simp] theorem wr_host (s : State) (f : Fld) (v i j : Nat) : (s.wr f v i j).host = s.host := rfl
@[simp] theorem wr_tel (s : State) (f : Fld) (v i j : Nat) : (s.wr f v i j).tel = s.tel := rfl
@[simp] theorem wr_tap (s : State) (f : Fld) (v i j : Nat) : (s.wr f v i j).tap = s.tap := rfl
@[simp] theorem wr_out (s : State) (f : Fld) (v i j : Nat) : (s.wr f v i j).out = s.out := rfl
@[simp] theorem wr_nextId (s : State) (f : Fld) (v i j : Nat) : (s.wr f v i j).nextId = s.nextId := rfl
@[simp] theorem wr_freeCtr (s : State) (f : Fld) (v i j : Nat) : (s.wr f v i j).freeCtr = s.freeCtr := rfl

/-! ### bump -/

@[simp] theorem bump_pending (s : State) (f : Fld) (i j n : Nat) : (s.bump f i j n).pending = s.pending := rfl
@[simp] theorem bump_ports (s : State) (f : Fld) (i j n : Nat) : (s.bump f i j n).ports = s.ports := rfl
@[simp] theorem bump_agents (s : State) (f : Fld) (i j n : Nat) : (s.bump f i j n).agents = s.agents := rfl
@[simp] theorem bump_sw (s : State) (f : Fld) (i j n : Nat) : (s.bump f i j n).sw = s.sw := rfl
@[simp] theorem bump_home (s : State) (f : Fld) (i j n : Nat) : (s.bump f i j n).home = s.home := rfl
@[simp] theorem bump_pool (s : State) (f : Fld) (i j n : Nat) : (s.bump f i j n).pool = s.pool := rfl
@[simp] theorem bump_tier (s : State) (f : Fld) (i j n : Nat) : (s.bump f i j n).tier = s.tier := rfl
@[simp] theorem bump_coh (s : State) (f : Fld) (i j n : Nat) : (s.bump f i j n).coh = s.coh := rfl
@[simp] theorem bump_rgf (s : State) (f : Fld) (i j n : Nat) : (s.bump f i j n).rgf = s.rgf := rfl
@[simp] theorem bump_chans (s : State) (f : Fld) (i j n : Nat) : (s.bump f i j n).chans = s.chans := rfl
@[simp] theorem bump_scn (s : State) (f : Fld) (i j n : Nat) : (s.bump f i j n).scn = s.scn := rfl
@[simp] theorem bump_rcv (s : State) (f : Fld) (i j n : Nat) : (s.bump f i j n).rcv = s.rcv := rfl
@[simp] theorem bump_boot (s : State) (f : Fld) (i j n : Nat) : (s.bump f i j n).boot = s.boot := rfl
@[simp] theorem bump_power (s : State) (f : Fld) (i j n : Nat) : (s.bump f i j n).power = s.power := rfl
@[simp] theorem bump_clk (s : State) (f : Fld) (i j n : Nat) : (s.bump f i j n).clk = s.clk := rfl
@[simp] theorem bump_busy (s : State) (f : Fld) (i j n : Nat) : (s.bump f i j n).busy = s.busy := rfl
@[simp] theorem bump_host (s : State) (f : Fld) (i j n : Nat) : (s.bump f i j n).host = s.host := rfl
@[simp] theorem bump_tel (s : State) (f : Fld) (i j n : Nat) : (s.bump f i j n).tel = s.tel := rfl
@[simp] theorem bump_tap (s : State) (f : Fld) (i j n : Nat) : (s.bump f i j n).tap = s.tap := rfl
@[simp] theorem bump_out (s : State) (f : Fld) (i j n : Nat) : (s.bump f i j n).out = s.out := rfl
@[simp] theorem bump_nextId (s : State) (f : Fld) (i j n : Nat) : (s.bump f i j n).nextId = s.nextId := rfl
@[simp] theorem bump_freeCtr (s : State) (f : Fld) (i j n : Nat) : (s.bump f i j n).freeCtr = s.freeCtr := rfl

/-! ### advance -/

@[simp] theorem advance_pending (s : State) (f : Fld) (i j n : Nat) : (s.advance f i j n).pending = s.pending := rfl
@[simp] theorem advance_ports (s : State) (f : Fld) (i j n : Nat) : (s.advance f i j n).ports = s.ports := rfl
@[simp] theorem advance_agents (s : State) (f : Fld) (i j n : Nat) : (s.advance f i j n).agents = s.agents := rfl
@[simp] theorem advance_sw (s : State) (f : Fld) (i j n : Nat) : (s.advance f i j n).sw = s.sw := rfl
@[simp] theorem advance_home (s : State) (f : Fld) (i j n : Nat) : (s.advance f i j n).home = s.home := rfl
@[simp] theorem advance_pool (s : State) (f : Fld) (i j n : Nat) : (s.advance f i j n).pool = s.pool := rfl
@[simp] theorem advance_tier (s : State) (f : Fld) (i j n : Nat) : (s.advance f i j n).tier = s.tier := rfl
@[simp] theorem advance_coh (s : State) (f : Fld) (i j n : Nat) : (s.advance f i j n).coh = s.coh := rfl
@[simp] theorem advance_rgf (s : State) (f : Fld) (i j n : Nat) : (s.advance f i j n).rgf = s.rgf := rfl
@[simp] theorem advance_chans (s : State) (f : Fld) (i j n : Nat) : (s.advance f i j n).chans = s.chans := rfl
@[simp] theorem advance_scn (s : State) (f : Fld) (i j n : Nat) : (s.advance f i j n).scn = s.scn := rfl
@[simp] theorem advance_rcv (s : State) (f : Fld) (i j n : Nat) : (s.advance f i j n).rcv = s.rcv := rfl
@[simp] theorem advance_boot (s : State) (f : Fld) (i j n : Nat) : (s.advance f i j n).boot = s.boot := rfl
@[simp] theorem advance_power (s : State) (f : Fld) (i j n : Nat) : (s.advance f i j n).power = s.power := rfl
@[simp] theorem advance_clk (s : State) (f : Fld) (i j n : Nat) : (s.advance f i j n).clk = s.clk := rfl
@[simp] theorem advance_busy (s : State) (f : Fld) (i j n : Nat) : (s.advance f i j n).busy = s.busy := rfl
@[simp] theorem advance_host (s : State) (f : Fld) (i j n : Nat) : (s.advance f i j n).host = s.host := rfl
@[simp] theorem advance_tel (s : State) (f : Fld) (i j n : Nat) : (s.advance f i j n).tel = s.tel := rfl
@[simp] theorem advance_tap (s : State) (f : Fld) (i j n : Nat) : (s.advance f i j n).tap = s.tap := rfl
@[simp] theorem advance_out (s : State) (f : Fld) (i j n : Nat) : (s.advance f i j n).out = s.out := rfl
@[simp] theorem advance_nextId (s : State) (f : Fld) (i j n : Nat) : (s.advance f i j n).nextId = s.nextId := rfl
@[simp] theorem advance_freeCtr (s : State) (f : Fld) (i j n : Nat) : (s.advance f i j n).freeCtr = s.freeCtr := rfl

/-! ### lower -/

@[simp] theorem lower_pending (s : State) (f : Fld) (i j n : Nat) : (s.lower f i j n).pending = s.pending := rfl
@[simp] theorem lower_ports (s : State) (f : Fld) (i j n : Nat) : (s.lower f i j n).ports = s.ports := rfl
@[simp] theorem lower_agents (s : State) (f : Fld) (i j n : Nat) : (s.lower f i j n).agents = s.agents := rfl
@[simp] theorem lower_sw (s : State) (f : Fld) (i j n : Nat) : (s.lower f i j n).sw = s.sw := rfl
@[simp] theorem lower_home (s : State) (f : Fld) (i j n : Nat) : (s.lower f i j n).home = s.home := rfl
@[simp] theorem lower_pool (s : State) (f : Fld) (i j n : Nat) : (s.lower f i j n).pool = s.pool := rfl
@[simp] theorem lower_tier (s : State) (f : Fld) (i j n : Nat) : (s.lower f i j n).tier = s.tier := rfl
@[simp] theorem lower_coh (s : State) (f : Fld) (i j n : Nat) : (s.lower f i j n).coh = s.coh := rfl
@[simp] theorem lower_rgf (s : State) (f : Fld) (i j n : Nat) : (s.lower f i j n).rgf = s.rgf := rfl
@[simp] theorem lower_chans (s : State) (f : Fld) (i j n : Nat) : (s.lower f i j n).chans = s.chans := rfl
@[simp] theorem lower_scn (s : State) (f : Fld) (i j n : Nat) : (s.lower f i j n).scn = s.scn := rfl
@[simp] theorem lower_rcv (s : State) (f : Fld) (i j n : Nat) : (s.lower f i j n).rcv = s.rcv := rfl
@[simp] theorem lower_boot (s : State) (f : Fld) (i j n : Nat) : (s.lower f i j n).boot = s.boot := rfl
@[simp] theorem lower_power (s : State) (f : Fld) (i j n : Nat) : (s.lower f i j n).power = s.power := rfl
@[simp] theorem lower_clk (s : State) (f : Fld) (i j n : Nat) : (s.lower f i j n).clk = s.clk := rfl
@[simp] theorem lower_busy (s : State) (f : Fld) (i j n : Nat) : (s.lower f i j n).busy = s.busy := rfl
@[simp] theorem lower_host (s : State) (f : Fld) (i j n : Nat) : (s.lower f i j n).host = s.host := rfl
@[simp] theorem lower_tel (s : State) (f : Fld) (i j n : Nat) : (s.lower f i j n).tel = s.tel := rfl
@[simp] theorem lower_tap (s : State) (f : Fld) (i j n : Nat) : (s.lower f i j n).tap = s.tap := rfl
@[simp] theorem lower_out (s : State) (f : Fld) (i j n : Nat) : (s.lower f i j n).out = s.out := rfl
@[simp] theorem lower_nextId (s : State) (f : Fld) (i j n : Nat) : (s.lower f i j n).nextId = s.nextId := rfl
@[simp] theorem lower_freeCtr (s : State) (f : Fld) (i j n : Nat) : (s.lower f i j n).freeCtr = s.freeCtr := rfl

/-! ### emit -/

@[simp] theorem emit_pending (s : State) (w : Wire) : (s.emit w).pending = s.pending := rfl
@[simp] theorem emit_regs (s : State) (w : Wire) : (s.emit w).regs = s.regs := rfl
@[simp] theorem emit_ports (s : State) (w : Wire) : (s.emit w).ports = s.ports := rfl
@[simp] theorem emit_agents (s : State) (w : Wire) : (s.emit w).agents = s.agents := rfl
@[simp] theorem emit_sw (s : State) (w : Wire) : (s.emit w).sw = s.sw := rfl
@[simp] theorem emit_home (s : State) (w : Wire) : (s.emit w).home = s.home := rfl
@[simp] theorem emit_pool (s : State) (w : Wire) : (s.emit w).pool = s.pool := rfl
@[simp] theorem emit_tier (s : State) (w : Wire) : (s.emit w).tier = s.tier := rfl
@[simp] theorem emit_coh (s : State) (w : Wire) : (s.emit w).coh = s.coh := rfl
@[simp] theorem emit_rgf (s : State) (w : Wire) : (s.emit w).rgf = s.rgf := rfl
@[simp] theorem emit_chans (s : State) (w : Wire) : (s.emit w).chans = s.chans := rfl
@[simp] theorem emit_scn (s : State) (w : Wire) : (s.emit w).scn = s.scn := rfl
@[simp] theorem emit_rcv (s : State) (w : Wire) : (s.emit w).rcv = s.rcv := rfl
@[simp] theorem emit_boot (s : State) (w : Wire) : (s.emit w).boot = s.boot := rfl
@[simp] theorem emit_power (s : State) (w : Wire) : (s.emit w).power = s.power := rfl
@[simp] theorem emit_clk (s : State) (w : Wire) : (s.emit w).clk = s.clk := rfl
@[simp] theorem emit_busy (s : State) (w : Wire) : (s.emit w).busy = s.busy := rfl
@[simp] theorem emit_host (s : State) (w : Wire) : (s.emit w).host = s.host := rfl
@[simp] theorem emit_tel (s : State) (w : Wire) : (s.emit w).tel = s.tel := rfl
@[simp] theorem emit_tap (s : State) (w : Wire) : (s.emit w).tap = s.tap := rfl
@[simp] theorem emit_nextId (s : State) (w : Wire) : (s.emit w).nextId = s.nextId := rfl
@[simp] theorem emit_freeCtr (s : State) (w : Wire) : (s.emit w).freeCtr = s.freeCtr := rfl

/-! ### free -/

@[simp] theorem free_pending (s : State) : (s.free.2).pending = s.pending := rfl
@[simp] theorem free_regs (s : State) : (s.free.2).regs = s.regs := rfl
@[simp] theorem free_ports (s : State) : (s.free.2).ports = s.ports := rfl
@[simp] theorem free_agents (s : State) : (s.free.2).agents = s.agents := rfl
@[simp] theorem free_sw (s : State) : (s.free.2).sw = s.sw := rfl
@[simp] theorem free_home (s : State) : (s.free.2).home = s.home := rfl
@[simp] theorem free_pool (s : State) : (s.free.2).pool = s.pool := rfl
@[simp] theorem free_tier (s : State) : (s.free.2).tier = s.tier := rfl
@[simp] theorem free_coh (s : State) : (s.free.2).coh = s.coh := rfl
@[simp] theorem free_rgf (s : State) : (s.free.2).rgf = s.rgf := rfl
@[simp] theorem free_chans (s : State) : (s.free.2).chans = s.chans := rfl
@[simp] theorem free_scn (s : State) : (s.free.2).scn = s.scn := rfl
@[simp] theorem free_rcv (s : State) : (s.free.2).rcv = s.rcv := rfl
@[simp] theorem free_boot (s : State) : (s.free.2).boot = s.boot := rfl
@[simp] theorem free_power (s : State) : (s.free.2).power = s.power := rfl
@[simp] theorem free_clk (s : State) : (s.free.2).clk = s.clk := rfl
@[simp] theorem free_busy (s : State) : (s.free.2).busy = s.busy := rfl
@[simp] theorem free_host (s : State) : (s.free.2).host = s.host := rfl
@[simp] theorem free_tel (s : State) : (s.free.2).tel = s.tel := rfl
@[simp] theorem free_tap (s : State) : (s.free.2).tap = s.tap := rfl
@[simp] theorem free_out (s : State) : (s.free.2).out = s.out := rfl
@[simp] theorem free_nextId (s : State) : (s.free.2).nextId = s.nextId := rfl

/-! ### applyStaged -/

@[simp] theorem applyStaged_pending (s : State) (f : Fld) (i j : Nat) : (s.applyStaged f i j).pending = s.pending := rfl
@[simp] theorem applyStaged_regs (s : State) (f : Fld) (i j : Nat) : (s.applyStaged f i j).regs = s.regs := rfl
@[simp] theorem applyStaged_ports (s : State) (f : Fld) (i j : Nat) : (s.applyStaged f i j).ports = s.ports := rfl
@[simp] theorem applyStaged_agents (s : State) (f : Fld) (i j : Nat) : (s.applyStaged f i j).agents = s.agents := rfl
@[simp] theorem applyStaged_home (s : State) (f : Fld) (i j : Nat) : (s.applyStaged f i j).home = s.home := rfl
@[simp] theorem applyStaged_pool (s : State) (f : Fld) (i j : Nat) : (s.applyStaged f i j).pool = s.pool := rfl
@[simp] theorem applyStaged_tier (s : State) (f : Fld) (i j : Nat) : (s.applyStaged f i j).tier = s.tier := rfl
@[simp] theorem applyStaged_coh (s : State) (f : Fld) (i j : Nat) : (s.applyStaged f i j).coh = s.coh := rfl
@[simp] theorem applyStaged_rgf (s : State) (f : Fld) (i j : Nat) : (s.applyStaged f i j).rgf = s.rgf := rfl
@[simp] theorem applyStaged_chans (s : State) (f : Fld) (i j : Nat) : (s.applyStaged f i j).chans = s.chans := rfl
@[simp] theorem applyStaged_scn (s : State) (f : Fld) (i j : Nat) : (s.applyStaged f i j).scn = s.scn := rfl
@[simp] theorem applyStaged_rcv (s : State) (f : Fld) (i j : Nat) : (s.applyStaged f i j).rcv = s.rcv := rfl
@[simp] theorem applyStaged_boot (s : State) (f : Fld) (i j : Nat) : (s.applyStaged f i j).boot = s.boot := rfl
@[simp] theorem applyStaged_power (s : State) (f : Fld) (i j : Nat) : (s.applyStaged f i j).power = s.power := rfl
@[simp] theorem applyStaged_clk (s : State) (f : Fld) (i j : Nat) : (s.applyStaged f i j).clk = s.clk := rfl
@[simp] theorem applyStaged_busy (s : State) (f : Fld) (i j : Nat) : (s.applyStaged f i j).busy = s.busy := rfl
@[simp] theorem applyStaged_host (s : State) (f : Fld) (i j : Nat) : (s.applyStaged f i j).host = s.host := rfl
@[simp] theorem applyStaged_tel (s : State) (f : Fld) (i j : Nat) : (s.applyStaged f i j).tel = s.tel := rfl
@[simp] theorem applyStaged_tap (s : State) (f : Fld) (i j : Nat) : (s.applyStaged f i j).tap = s.tap := rfl
@[simp] theorem applyStaged_out (s : State) (f : Fld) (i j : Nat) : (s.applyStaged f i j).out = s.out := rfl
@[simp] theorem applyStaged_nextId (s : State) (f : Fld) (i j : Nat) : (s.applyStaged f i j).nextId = s.nextId := rfl
@[simp] theorem applyStaged_freeCtr (s : State) (f : Fld) (i j : Nat) : (s.applyStaged f i j).freeCtr = s.freeCtr := rfl

/-! ### withMem -/

@[simp] theorem withMem_pending (s : State) (m : List Host.Cell) : (s.withMem m).pending = s.pending := rfl
@[simp] theorem withMem_regs (s : State) (m : List Host.Cell) : (s.withMem m).regs = s.regs := rfl
@[simp] theorem withMem_ports (s : State) (m : List Host.Cell) : (s.withMem m).ports = s.ports := rfl
@[simp] theorem withMem_agents (s : State) (m : List Host.Cell) : (s.withMem m).agents = s.agents := rfl
@[simp] theorem withMem_sw (s : State) (m : List Host.Cell) : (s.withMem m).sw = s.sw := rfl
@[simp] theorem withMem_home (s : State) (m : List Host.Cell) : (s.withMem m).home = s.home := rfl
@[simp] theorem withMem_tier (s : State) (m : List Host.Cell) : (s.withMem m).tier = s.tier := rfl
@[simp] theorem withMem_coh (s : State) (m : List Host.Cell) : (s.withMem m).coh = s.coh := rfl
@[simp] theorem withMem_rgf (s : State) (m : List Host.Cell) : (s.withMem m).rgf = s.rgf := rfl
@[simp] theorem withMem_chans (s : State) (m : List Host.Cell) : (s.withMem m).chans = s.chans := rfl
@[simp] theorem withMem_scn (s : State) (m : List Host.Cell) : (s.withMem m).scn = s.scn := rfl
@[simp] theorem withMem_rcv (s : State) (m : List Host.Cell) : (s.withMem m).rcv = s.rcv := rfl
@[simp] theorem withMem_boot (s : State) (m : List Host.Cell) : (s.withMem m).boot = s.boot := rfl
@[simp] theorem withMem_power (s : State) (m : List Host.Cell) : (s.withMem m).power = s.power := rfl
@[simp] theorem withMem_clk (s : State) (m : List Host.Cell) : (s.withMem m).clk = s.clk := rfl
@[simp] theorem withMem_busy (s : State) (m : List Host.Cell) : (s.withMem m).busy = s.busy := rfl
@[simp] theorem withMem_host (s : State) (m : List Host.Cell) : (s.withMem m).host = s.host := rfl
@[simp] theorem withMem_tel (s : State) (m : List Host.Cell) : (s.withMem m).tel = s.tel := rfl
@[simp] theorem withMem_tap (s : State) (m : List Host.Cell) : (s.withMem m).tap = s.tap := rfl
@[simp] theorem withMem_out (s : State) (m : List Host.Cell) : (s.withMem m).out = s.out := rfl
@[simp] theorem withMem_nextId (s : State) (m : List Host.Cell) : (s.withMem m).nextId = s.nextId := rfl
@[simp] theorem withMem_freeCtr (s : State) (m : List Host.Cell) : (s.withMem m).freeCtr = s.freeCtr := rfl

/-! ### updPort -/

@[simp] theorem updPort_pending (s : State) (p : Nat) (f : Port → Port) : (s.updPort p f).pending = s.pending := rfl
@[simp] theorem updPort_regs (s : State) (p : Nat) (f : Port → Port) : (s.updPort p f).regs = s.regs := rfl
@[simp] theorem updPort_agents (s : State) (p : Nat) (f : Port → Port) : (s.updPort p f).agents = s.agents := rfl
@[simp] theorem updPort_sw (s : State) (p : Nat) (f : Port → Port) : (s.updPort p f).sw = s.sw := rfl
@[simp] theorem updPort_home (s : State) (p : Nat) (f : Port → Port) : (s.updPort p f).home = s.home := rfl
@[simp] theorem updPort_pool (s : State) (p : Nat) (f : Port → Port) : (s.updPort p f).pool = s.pool := rfl
@[simp] theorem updPort_tier (s : State) (p : Nat) (f : Port → Port) : (s.updPort p f).tier = s.tier := rfl
@[simp] theorem updPort_coh (s : State) (p : Nat) (f : Port → Port) : (s.updPort p f).coh = s.coh := rfl
@[simp] theorem updPort_rgf (s : State) (p : Nat) (f : Port → Port) : (s.updPort p f).rgf = s.rgf := rfl
@[simp] theorem updPort_chans (s : State) (p : Nat) (f : Port → Port) : (s.updPort p f).chans = s.chans := rfl
@[simp] theorem updPort_scn (s : State) (p : Nat) (f : Port → Port) : (s.updPort p f).scn = s.scn := rfl
@[simp] theorem updPort_rcv (s : State) (p : Nat) (f : Port → Port) : (s.updPort p f).rcv = s.rcv := rfl
@[simp] theorem updPort_boot (s : State) (p : Nat) (f : Port → Port) : (s.updPort p f).boot = s.boot := rfl
@[simp] theorem updPort_power (s : State) (p : Nat) (f : Port → Port) : (s.updPort p f).power = s.power := rfl
@[simp] theorem updPort_clk (s : State) (p : Nat) (f : Port → Port) : (s.updPort p f).clk = s.clk := rfl
@[simp] theorem updPort_busy (s : State) (p : Nat) (f : Port → Port) : (s.updPort p f).busy = s.busy := rfl
@[simp] theorem updPort_host (s : State) (p : Nat) (f : Port → Port) : (s.updPort p f).host = s.host := rfl
@[simp] theorem updPort_tel (s : State) (p : Nat) (f : Port → Port) : (s.updPort p f).tel = s.tel := rfl
@[simp] theorem updPort_tap (s : State) (p : Nat) (f : Port → Port) : (s.updPort p f).tap = s.tap := rfl
@[simp] theorem updPort_out (s : State) (p : Nat) (f : Port → Port) : (s.updPort p f).out = s.out := rfl
@[simp] theorem updPort_nextId (s : State) (p : Nat) (f : Port → Port) : (s.updPort p f).nextId = s.nextId := rfl
@[simp] theorem updPort_freeCtr (s : State) (p : Nat) (f : Port → Port) : (s.updPort p f).freeCtr = s.freeCtr := rfl

/-! ### updAgent -/

@[simp] theorem updAgent_pending (s : State) (id : Nat) (f : Agent → Agent) : (s.updAgent id f).pending = s.pending := rfl
@[simp] theorem updAgent_regs (s : State) (id : Nat) (f : Agent → Agent) : (s.updAgent id f).regs = s.regs := rfl
@[simp] theorem updAgent_ports (s : State) (id : Nat) (f : Agent → Agent) : (s.updAgent id f).ports = s.ports := rfl
@[simp] theorem updAgent_sw (s : State) (id : Nat) (f : Agent → Agent) : (s.updAgent id f).sw = s.sw := rfl
@[simp] theorem updAgent_home (s : State) (id : Nat) (f : Agent → Agent) : (s.updAgent id f).home = s.home := rfl
@[simp] theorem updAgent_pool (s : State) (id : Nat) (f : Agent → Agent) : (s.updAgent id f).pool = s.pool := rfl
@[simp] theorem updAgent_tier (s : State) (id : Nat) (f : Agent → Agent) : (s.updAgent id f).tier = s.tier := rfl
@[simp] theorem updAgent_coh (s : State) (id : Nat) (f : Agent → Agent) : (s.updAgent id f).coh = s.coh := rfl
@[simp] theorem updAgent_rgf (s : State) (id : Nat) (f : Agent → Agent) : (s.updAgent id f).rgf = s.rgf := rfl
@[simp] theorem updAgent_chans (s : State) (id : Nat) (f : Agent → Agent) : (s.updAgent id f).chans = s.chans := rfl
@[simp] theorem updAgent_scn (s : State) (id : Nat) (f : Agent → Agent) : (s.updAgent id f).scn = s.scn := rfl
@[simp] theorem updAgent_rcv (s : State) (id : Nat) (f : Agent → Agent) : (s.updAgent id f).rcv = s.rcv := rfl
@[simp] theorem updAgent_boot (s : State) (id : Nat) (f : Agent → Agent) : (s.updAgent id f).boot = s.boot := rfl
@[simp] theorem updAgent_power (s : State) (id : Nat) (f : Agent → Agent) : (s.updAgent id f).power = s.power := rfl
@[simp] theorem updAgent_clk (s : State) (id : Nat) (f : Agent → Agent) : (s.updAgent id f).clk = s.clk := rfl
@[simp] theorem updAgent_busy (s : State) (id : Nat) (f : Agent → Agent) : (s.updAgent id f).busy = s.busy := rfl
@[simp] theorem updAgent_host (s : State) (id : Nat) (f : Agent → Agent) : (s.updAgent id f).host = s.host := rfl
@[simp] theorem updAgent_tel (s : State) (id : Nat) (f : Agent → Agent) : (s.updAgent id f).tel = s.tel := rfl
@[simp] theorem updAgent_tap (s : State) (id : Nat) (f : Agent → Agent) : (s.updAgent id f).tap = s.tap := rfl
@[simp] theorem updAgent_out (s : State) (id : Nat) (f : Agent → Agent) : (s.updAgent id f).out = s.out := rfl
@[simp] theorem updAgent_nextId (s : State) (id : Nat) (f : Agent → Agent) : (s.updAgent id f).nextId = s.nextId := rfl
@[simp] theorem updAgent_freeCtr (s : State) (id : Nat) (f : Agent → Agent) : (s.updAgent id f).freeCtr = s.freeCtr := rfl

/-! ### setExtent -/

@[simp] theorem setExtent_pending (s : State) (i : Nat) (x : Extent) : (s.setExtent i x).pending = s.pending := rfl
@[simp] theorem setExtent_regs (s : State) (i : Nat) (x : Extent) : (s.setExtent i x).regs = s.regs := rfl
@[simp] theorem setExtent_ports (s : State) (i : Nat) (x : Extent) : (s.setExtent i x).ports = s.ports := rfl
@[simp] theorem setExtent_agents (s : State) (i : Nat) (x : Extent) : (s.setExtent i x).agents = s.agents := rfl
@[simp] theorem setExtent_sw (s : State) (i : Nat) (x : Extent) : (s.setExtent i x).sw = s.sw := rfl
@[simp] theorem setExtent_home (s : State) (i : Nat) (x : Extent) : (s.setExtent i x).home = s.home := rfl
@[simp] theorem setExtent_tier (s : State) (i : Nat) (x : Extent) : (s.setExtent i x).tier = s.tier := rfl
@[simp] theorem setExtent_coh (s : State) (i : Nat) (x : Extent) : (s.setExtent i x).coh = s.coh := rfl
@[simp] theorem setExtent_rgf (s : State) (i : Nat) (x : Extent) : (s.setExtent i x).rgf = s.rgf := rfl
@[simp] theorem setExtent_chans (s : State) (i : Nat) (x : Extent) : (s.setExtent i x).chans = s.chans := rfl
@[simp] theorem setExtent_scn (s : State) (i : Nat) (x : Extent) : (s.setExtent i x).scn = s.scn := rfl
@[simp] theorem setExtent_rcv (s : State) (i : Nat) (x : Extent) : (s.setExtent i x).rcv = s.rcv := rfl
@[simp] theorem setExtent_boot (s : State) (i : Nat) (x : Extent) : (s.setExtent i x).boot = s.boot := rfl
@[simp] theorem setExtent_power (s : State) (i : Nat) (x : Extent) : (s.setExtent i x).power = s.power := rfl
@[simp] theorem setExtent_clk (s : State) (i : Nat) (x : Extent) : (s.setExtent i x).clk = s.clk := rfl
@[simp] theorem setExtent_busy (s : State) (i : Nat) (x : Extent) : (s.setExtent i x).busy = s.busy := rfl
@[simp] theorem setExtent_host (s : State) (i : Nat) (x : Extent) : (s.setExtent i x).host = s.host := rfl
@[simp] theorem setExtent_tel (s : State) (i : Nat) (x : Extent) : (s.setExtent i x).tel = s.tel := rfl
@[simp] theorem setExtent_tap (s : State) (i : Nat) (x : Extent) : (s.setExtent i x).tap = s.tap := rfl
@[simp] theorem setExtent_out (s : State) (i : Nat) (x : Extent) : (s.setExtent i x).out = s.out := rfl
@[simp] theorem setExtent_nextId (s : State) (i : Nat) (x : Extent) : (s.setExtent i x).nextId = s.nextId := rfl
@[simp] theorem setExtent_freeCtr (s : State) (i : Nat) (x : Extent) : (s.setExtent i x).freeCtr = s.freeCtr := rfl

/-! ### setPsn -/

@[simp] theorem setPsn_pending (s : State) (l : Nat) (v : Bool) : (s.setPsn l v).pending = s.pending := rfl
@[simp] theorem setPsn_regs (s : State) (l : Nat) (v : Bool) : (s.setPsn l v).regs = s.regs := rfl
@[simp] theorem setPsn_ports (s : State) (l : Nat) (v : Bool) : (s.setPsn l v).ports = s.ports := rfl
@[simp] theorem setPsn_agents (s : State) (l : Nat) (v : Bool) : (s.setPsn l v).agents = s.agents := rfl
@[simp] theorem setPsn_sw (s : State) (l : Nat) (v : Bool) : (s.setPsn l v).sw = s.sw := rfl
@[simp] theorem setPsn_home (s : State) (l : Nat) (v : Bool) : (s.setPsn l v).home = s.home := rfl
@[simp] theorem setPsn_tier (s : State) (l : Nat) (v : Bool) : (s.setPsn l v).tier = s.tier := rfl
@[simp] theorem setPsn_coh (s : State) (l : Nat) (v : Bool) : (s.setPsn l v).coh = s.coh := rfl
@[simp] theorem setPsn_rgf (s : State) (l : Nat) (v : Bool) : (s.setPsn l v).rgf = s.rgf := rfl
@[simp] theorem setPsn_chans (s : State) (l : Nat) (v : Bool) : (s.setPsn l v).chans = s.chans := rfl
@[simp] theorem setPsn_scn (s : State) (l : Nat) (v : Bool) : (s.setPsn l v).scn = s.scn := rfl
@[simp] theorem setPsn_rcv (s : State) (l : Nat) (v : Bool) : (s.setPsn l v).rcv = s.rcv := rfl
@[simp] theorem setPsn_boot (s : State) (l : Nat) (v : Bool) : (s.setPsn l v).boot = s.boot := rfl
@[simp] theorem setPsn_power (s : State) (l : Nat) (v : Bool) : (s.setPsn l v).power = s.power := rfl
@[simp] theorem setPsn_clk (s : State) (l : Nat) (v : Bool) : (s.setPsn l v).clk = s.clk := rfl
@[simp] theorem setPsn_busy (s : State) (l : Nat) (v : Bool) : (s.setPsn l v).busy = s.busy := rfl
@[simp] theorem setPsn_host (s : State) (l : Nat) (v : Bool) : (s.setPsn l v).host = s.host := rfl
@[simp] theorem setPsn_tel (s : State) (l : Nat) (v : Bool) : (s.setPsn l v).tel = s.tel := rfl
@[simp] theorem setPsn_tap (s : State) (l : Nat) (v : Bool) : (s.setPsn l v).tap = s.tap := rfl
@[simp] theorem setPsn_out (s : State) (l : Nat) (v : Bool) : (s.setPsn l v).out = s.out := rfl
@[simp] theorem setPsn_nextId (s : State) (l : Nat) (v : Bool) : (s.setPsn l v).nextId = s.nextId := rfl
@[simp] theorem setPsn_freeCtr (s : State) (l : Nat) (v : Bool) : (s.setPsn l v).freeCtr = s.freeCtr := rfl

/-! ### setSusp -/

@[simp] theorem setSusp_pending (s : State) (l : Nat) (v : Bool) : (s.setSusp l v).pending = s.pending := rfl
@[simp] theorem setSusp_regs (s : State) (l : Nat) (v : Bool) : (s.setSusp l v).regs = s.regs := rfl
@[simp] theorem setSusp_ports (s : State) (l : Nat) (v : Bool) : (s.setSusp l v).ports = s.ports := rfl
@[simp] theorem setSusp_agents (s : State) (l : Nat) (v : Bool) : (s.setSusp l v).agents = s.agents := rfl
@[simp] theorem setSusp_sw (s : State) (l : Nat) (v : Bool) : (s.setSusp l v).sw = s.sw := rfl
@[simp] theorem setSusp_home (s : State) (l : Nat) (v : Bool) : (s.setSusp l v).home = s.home := rfl
@[simp] theorem setSusp_tier (s : State) (l : Nat) (v : Bool) : (s.setSusp l v).tier = s.tier := rfl
@[simp] theorem setSusp_coh (s : State) (l : Nat) (v : Bool) : (s.setSusp l v).coh = s.coh := rfl
@[simp] theorem setSusp_rgf (s : State) (l : Nat) (v : Bool) : (s.setSusp l v).rgf = s.rgf := rfl
@[simp] theorem setSusp_chans (s : State) (l : Nat) (v : Bool) : (s.setSusp l v).chans = s.chans := rfl
@[simp] theorem setSusp_scn (s : State) (l : Nat) (v : Bool) : (s.setSusp l v).scn = s.scn := rfl
@[simp] theorem setSusp_rcv (s : State) (l : Nat) (v : Bool) : (s.setSusp l v).rcv = s.rcv := rfl
@[simp] theorem setSusp_boot (s : State) (l : Nat) (v : Bool) : (s.setSusp l v).boot = s.boot := rfl
@[simp] theorem setSusp_power (s : State) (l : Nat) (v : Bool) : (s.setSusp l v).power = s.power := rfl
@[simp] theorem setSusp_clk (s : State) (l : Nat) (v : Bool) : (s.setSusp l v).clk = s.clk := rfl
@[simp] theorem setSusp_busy (s : State) (l : Nat) (v : Bool) : (s.setSusp l v).busy = s.busy := rfl
@[simp] theorem setSusp_host (s : State) (l : Nat) (v : Bool) : (s.setSusp l v).host = s.host := rfl
@[simp] theorem setSusp_tel (s : State) (l : Nat) (v : Bool) : (s.setSusp l v).tel = s.tel := rfl
@[simp] theorem setSusp_tap (s : State) (l : Nat) (v : Bool) : (s.setSusp l v).tap = s.tap := rfl
@[simp] theorem setSusp_out (s : State) (l : Nat) (v : Bool) : (s.setSusp l v).out = s.out := rfl
@[simp] theorem setSusp_nextId (s : State) (l : Nat) (v : Bool) : (s.setSusp l v).nextId = s.nextId := rfl
@[simp] theorem setSusp_freeCtr (s : State) (l : Nat) (v : Bool) : (s.setSusp l v).freeCtr = s.freeCtr := rfl

/-! ### raise -/

@[simp] theorem raise_pending (s : State) (c u : Nat) : (s.raise c u).pending = s.pending := rfl
@[simp] theorem raise_regs (s : State) (c u : Nat) : (s.raise c u).regs = s.regs := rfl
@[simp] theorem raise_ports (s : State) (c u : Nat) : (s.raise c u).ports = s.ports := rfl
@[simp] theorem raise_agents (s : State) (c u : Nat) : (s.raise c u).agents = s.agents := rfl
@[simp] theorem raise_sw (s : State) (c u : Nat) : (s.raise c u).sw = s.sw := rfl
@[simp] theorem raise_home (s : State) (c u : Nat) : (s.raise c u).home = s.home := rfl
@[simp] theorem raise_pool (s : State) (c u : Nat) : (s.raise c u).pool = s.pool := rfl
@[simp] theorem raise_tier (s : State) (c u : Nat) : (s.raise c u).tier = s.tier := rfl
@[simp] theorem raise_coh (s : State) (c u : Nat) : (s.raise c u).coh = s.coh := rfl
@[simp] theorem raise_rgf (s : State) (c u : Nat) : (s.raise c u).rgf = s.rgf := rfl
@[simp] theorem raise_chans (s : State) (c u : Nat) : (s.raise c u).chans = s.chans := rfl
@[simp] theorem raise_scn (s : State) (c u : Nat) : (s.raise c u).scn = s.scn := rfl
@[simp] theorem raise_boot (s : State) (c u : Nat) : (s.raise c u).boot = s.boot := rfl
@[simp] theorem raise_power (s : State) (c u : Nat) : (s.raise c u).power = s.power := rfl
@[simp] theorem raise_clk (s : State) (c u : Nat) : (s.raise c u).clk = s.clk := rfl
@[simp] theorem raise_busy (s : State) (c u : Nat) : (s.raise c u).busy = s.busy := rfl
@[simp] theorem raise_host (s : State) (c u : Nat) : (s.raise c u).host = s.host := rfl
@[simp] theorem raise_tel (s : State) (c u : Nat) : (s.raise c u).tel = s.tel := rfl
@[simp] theorem raise_tap (s : State) (c u : Nat) : (s.raise c u).tap = s.tap := rfl
@[simp] theorem raise_out (s : State) (c u : Nat) : (s.raise c u).out = s.out := rfl
@[simp] theorem raise_nextId (s : State) (c u : Nat) : (s.raise c u).nextId = s.nextId := rfl
@[simp] theorem raise_freeCtr (s : State) (c u : Nat) : (s.raise c u).freeCtr = s.freeCtr := rfl

/-! ### stamp -/

@[simp] theorem stamp_pending (s : State) (r : Req) : (s.stamp r).2.pending = s.pending := by unfold State.stamp; split <;> rfl
@[simp] theorem stamp_regs (s : State) (r : Req) : (s.stamp r).2.regs = s.regs := by unfold State.stamp; split <;> rfl
@[simp] theorem stamp_ports (s : State) (r : Req) : (s.stamp r).2.ports = s.ports := by unfold State.stamp; split <;> rfl
@[simp] theorem stamp_agents (s : State) (r : Req) : (s.stamp r).2.agents = s.agents := by unfold State.stamp; split <;> rfl
@[simp] theorem stamp_sw (s : State) (r : Req) : (s.stamp r).2.sw = s.sw := by unfold State.stamp; split <;> rfl
@[simp] theorem stamp_pool (s : State) (r : Req) : (s.stamp r).2.pool = s.pool := by unfold State.stamp; split <;> rfl
@[simp] theorem stamp_tier (s : State) (r : Req) : (s.stamp r).2.tier = s.tier := by unfold State.stamp; split <;> rfl
@[simp] theorem stamp_coh (s : State) (r : Req) : (s.stamp r).2.coh = s.coh := by unfold State.stamp; split <;> rfl
@[simp] theorem stamp_rgf (s : State) (r : Req) : (s.stamp r).2.rgf = s.rgf := by unfold State.stamp; split <;> rfl
@[simp] theorem stamp_chans (s : State) (r : Req) : (s.stamp r).2.chans = s.chans := by unfold State.stamp; split <;> rfl
@[simp] theorem stamp_scn (s : State) (r : Req) : (s.stamp r).2.scn = s.scn := by unfold State.stamp; split <;> rfl
@[simp] theorem stamp_rcv (s : State) (r : Req) : (s.stamp r).2.rcv = s.rcv := by unfold State.stamp; split <;> rfl
@[simp] theorem stamp_boot (s : State) (r : Req) : (s.stamp r).2.boot = s.boot := by unfold State.stamp; split <;> rfl
@[simp] theorem stamp_power (s : State) (r : Req) : (s.stamp r).2.power = s.power := by unfold State.stamp; split <;> rfl
@[simp] theorem stamp_clk (s : State) (r : Req) : (s.stamp r).2.clk = s.clk := by unfold State.stamp; split <;> rfl
@[simp] theorem stamp_busy (s : State) (r : Req) : (s.stamp r).2.busy = s.busy := by unfold State.stamp; split <;> rfl
@[simp] theorem stamp_host (s : State) (r : Req) : (s.stamp r).2.host = s.host := by unfold State.stamp; split <;> rfl
@[simp] theorem stamp_tel (s : State) (r : Req) : (s.stamp r).2.tel = s.tel := by unfold State.stamp; split <;> rfl
@[simp] theorem stamp_tap (s : State) (r : Req) : (s.stamp r).2.tap = s.tap := by unfold State.stamp; split <;> rfl
@[simp] theorem stamp_out (s : State) (r : Req) : (s.stamp r).2.out = s.out := by unfold State.stamp; split <;> rfl
@[simp] theorem stamp_nextId (s : State) (r : Req) : (s.stamp r).2.nextId = s.nextId := by unfold State.stamp; split <;> rfl
@[simp] theorem stamp_freeCtr (s : State) (r : Req) : (s.stamp r).2.freeCtr = s.freeCtr := by unfold State.stamp; split <;> rfl

/-- The request that waits is the request itself, numbered when it came. -/
@[simp] theorem stamp_req (s : State) (r : Req) : { (s.stamp r).1 with arr := r.arr } = r := by
  unfold State.stamp; split <;> rfl

/-! ### wait -/

@[simp] theorem wait_pending (s : State) (r : Req) (c k : Nat) : (s.wait r c k).pending = s.pending := by unfold State.wait; dsimp only; split <;> simp
@[simp] theorem wait_regs (s : State) (r : Req) (c k : Nat) : (s.wait r c k).regs = s.regs := by unfold State.wait; dsimp only; split <;> simp
@[simp] theorem wait_ports (s : State) (r : Req) (c k : Nat) : (s.wait r c k).ports = s.ports := by unfold State.wait; dsimp only; split <;> simp
@[simp] theorem wait_agents (s : State) (r : Req) (c k : Nat) : (s.wait r c k).agents = s.agents := by unfold State.wait; dsimp only; split <;> simp
@[simp] theorem wait_sw (s : State) (r : Req) (c k : Nat) : (s.wait r c k).sw = s.sw := by unfold State.wait; dsimp only; split <;> simp
@[simp] theorem wait_pool (s : State) (r : Req) (c k : Nat) : (s.wait r c k).pool = s.pool := by unfold State.wait; dsimp only; split <;> simp
@[simp] theorem wait_tier (s : State) (r : Req) (c k : Nat) : (s.wait r c k).tier = s.tier := by unfold State.wait; dsimp only; split <;> simp
@[simp] theorem wait_coh (s : State) (r : Req) (c k : Nat) : (s.wait r c k).coh = s.coh := by unfold State.wait; dsimp only; split <;> simp
@[simp] theorem wait_rgf (s : State) (r : Req) (c k : Nat) : (s.wait r c k).rgf = s.rgf := by unfold State.wait; dsimp only; split <;> simp
@[simp] theorem wait_chans (s : State) (r : Req) (c k : Nat) : (s.wait r c k).chans = s.chans := by unfold State.wait; dsimp only; split <;> simp
@[simp] theorem wait_scn (s : State) (r : Req) (c k : Nat) : (s.wait r c k).scn = s.scn := by unfold State.wait; dsimp only; split <;> simp
@[simp] theorem wait_rcv (s : State) (r : Req) (c k : Nat) : (s.wait r c k).rcv = s.rcv := by unfold State.wait; dsimp only; split <;> simp
@[simp] theorem wait_boot (s : State) (r : Req) (c k : Nat) : (s.wait r c k).boot = s.boot := by unfold State.wait; dsimp only; split <;> simp
@[simp] theorem wait_power (s : State) (r : Req) (c k : Nat) : (s.wait r c k).power = s.power := by unfold State.wait; dsimp only; split <;> simp
@[simp] theorem wait_clk (s : State) (r : Req) (c k : Nat) : (s.wait r c k).clk = s.clk := by unfold State.wait; dsimp only; split <;> simp
@[simp] theorem wait_busy (s : State) (r : Req) (c k : Nat) : (s.wait r c k).busy = s.busy := by unfold State.wait; dsimp only; split <;> simp
@[simp] theorem wait_host (s : State) (r : Req) (c k : Nat) : (s.wait r c k).host = s.host := by unfold State.wait; dsimp only; split <;> simp
@[simp] theorem wait_tel (s : State) (r : Req) (c k : Nat) : (s.wait r c k).tel = s.tel := by unfold State.wait; dsimp only; split <;> simp
@[simp] theorem wait_tap (s : State) (r : Req) (c k : Nat) : (s.wait r c k).tap = s.tap := by unfold State.wait; dsimp only; split <;> simp
@[simp] theorem wait_out (s : State) (r : Req) (c k : Nat) : (s.wait r c k).out = s.out := by unfold State.wait; dsimp only; split <;> simp
@[simp] theorem wait_nextId (s : State) (r : Req) (c k : Nat) : (s.wait r c k).nextId = s.nextId := by unfold State.wait; dsimp only; split <;> simp
@[simp] theorem wait_freeCtr (s : State) (r : Req) (c k : Nat) : (s.wait r c k).freeCtr = s.freeCtr := by unfold State.wait; dsimp only; split <;> simp

/-! ### setSlot -/

@[simp] theorem setSlot_pending (s : State) (k : Nat) (x : OpSlot) : (s.setSlot k x).pending = s.pending := rfl
@[simp] theorem setSlot_regs (s : State) (k : Nat) (x : OpSlot) : (s.setSlot k x).regs = s.regs := rfl
@[simp] theorem setSlot_ports (s : State) (k : Nat) (x : OpSlot) : (s.setSlot k x).ports = s.ports := rfl
@[simp] theorem setSlot_agents (s : State) (k : Nat) (x : OpSlot) : (s.setSlot k x).agents = s.agents := rfl
@[simp] theorem setSlot_sw (s : State) (k : Nat) (x : OpSlot) : (s.setSlot k x).sw = s.sw := rfl
@[simp] theorem setSlot_home (s : State) (k : Nat) (x : OpSlot) : (s.setSlot k x).home = s.home := rfl
@[simp] theorem setSlot_pool (s : State) (k : Nat) (x : OpSlot) : (s.setSlot k x).pool = s.pool := rfl
@[simp] theorem setSlot_tier (s : State) (k : Nat) (x : OpSlot) : (s.setSlot k x).tier = s.tier := rfl
@[simp] theorem setSlot_coh (s : State) (k : Nat) (x : OpSlot) : (s.setSlot k x).coh = s.coh := rfl
@[simp] theorem setSlot_chans (s : State) (k : Nat) (x : OpSlot) : (s.setSlot k x).chans = s.chans := rfl
@[simp] theorem setSlot_scn (s : State) (k : Nat) (x : OpSlot) : (s.setSlot k x).scn = s.scn := rfl
@[simp] theorem setSlot_rcv (s : State) (k : Nat) (x : OpSlot) : (s.setSlot k x).rcv = s.rcv := rfl
@[simp] theorem setSlot_boot (s : State) (k : Nat) (x : OpSlot) : (s.setSlot k x).boot = s.boot := rfl
@[simp] theorem setSlot_power (s : State) (k : Nat) (x : OpSlot) : (s.setSlot k x).power = s.power := rfl
@[simp] theorem setSlot_clk (s : State) (k : Nat) (x : OpSlot) : (s.setSlot k x).clk = s.clk := rfl
@[simp] theorem setSlot_busy (s : State) (k : Nat) (x : OpSlot) : (s.setSlot k x).busy = s.busy := rfl
@[simp] theorem setSlot_host (s : State) (k : Nat) (x : OpSlot) : (s.setSlot k x).host = s.host := rfl
@[simp] theorem setSlot_tel (s : State) (k : Nat) (x : OpSlot) : (s.setSlot k x).tel = s.tel := rfl
@[simp] theorem setSlot_tap (s : State) (k : Nat) (x : OpSlot) : (s.setSlot k x).tap = s.tap := rfl
@[simp] theorem setSlot_out (s : State) (k : Nat) (x : OpSlot) : (s.setSlot k x).out = s.out := rfl
@[simp] theorem setSlot_nextId (s : State) (k : Nat) (x : OpSlot) : (s.setSlot k x).nextId = s.nextId := rfl
@[simp] theorem setSlot_freeCtr (s : State) (k : Nat) (x : OpSlot) : (s.setSlot k x).freeCtr = s.freeCtr := rfl

/-! ### setPower -/

@[simp] theorem setPower_pending (s : State) (x : Power) : (s.setPower x).pending = s.pending := rfl
@[simp] theorem setPower_regs (s : State) (x : Power) : (s.setPower x).regs = s.regs := rfl
@[simp] theorem setPower_ports (s : State) (x : Power) : (s.setPower x).ports = s.ports := rfl
@[simp] theorem setPower_agents (s : State) (x : Power) : (s.setPower x).agents = s.agents := rfl
@[simp] theorem setPower_sw (s : State) (x : Power) : (s.setPower x).sw = s.sw := rfl
@[simp] theorem setPower_home (s : State) (x : Power) : (s.setPower x).home = s.home := rfl
@[simp] theorem setPower_pool (s : State) (x : Power) : (s.setPower x).pool = s.pool := rfl
@[simp] theorem setPower_tier (s : State) (x : Power) : (s.setPower x).tier = s.tier := rfl
@[simp] theorem setPower_coh (s : State) (x : Power) : (s.setPower x).coh = s.coh := rfl
@[simp] theorem setPower_rgf (s : State) (x : Power) : (s.setPower x).rgf = s.rgf := rfl
@[simp] theorem setPower_chans (s : State) (x : Power) : (s.setPower x).chans = s.chans := rfl
@[simp] theorem setPower_scn (s : State) (x : Power) : (s.setPower x).scn = s.scn := rfl
@[simp] theorem setPower_rcv (s : State) (x : Power) : (s.setPower x).rcv = s.rcv := rfl
@[simp] theorem setPower_boot (s : State) (x : Power) : (s.setPower x).boot = s.boot := rfl
@[simp] theorem setPower_clk (s : State) (x : Power) : (s.setPower x).clk = s.clk := rfl
@[simp] theorem setPower_busy (s : State) (x : Power) : (s.setPower x).busy = s.busy := rfl
@[simp] theorem setPower_host (s : State) (x : Power) : (s.setPower x).host = s.host := rfl
@[simp] theorem setPower_tel (s : State) (x : Power) : (s.setPower x).tel = s.tel := rfl
@[simp] theorem setPower_tap (s : State) (x : Power) : (s.setPower x).tap = s.tap := rfl
@[simp] theorem setPower_out (s : State) (x : Power) : (s.setPower x).out = s.out := rfl
@[simp] theorem setPower_nextId (s : State) (x : Power) : (s.setPower x).nextId = s.nextId := rfl
@[simp] theorem setPower_freeCtr (s : State) (x : Power) : (s.setPower x).freeCtr = s.freeCtr := rfl

/-! ### setKeys -/

@[simp] theorem setKeys_pending (s : State) (k : Keys) : (s.setKeys k).pending = s.pending := rfl
@[simp] theorem setKeys_regs (s : State) (k : Keys) : (s.setKeys k).regs = s.regs := rfl
@[simp] theorem setKeys_ports (s : State) (k : Keys) : (s.setKeys k).ports = s.ports := rfl
@[simp] theorem setKeys_agents (s : State) (k : Keys) : (s.setKeys k).agents = s.agents := rfl
@[simp] theorem setKeys_sw (s : State) (k : Keys) : (s.setKeys k).sw = s.sw := rfl
@[simp] theorem setKeys_home (s : State) (k : Keys) : (s.setKeys k).home = s.home := rfl
@[simp] theorem setKeys_pool (s : State) (k : Keys) : (s.setKeys k).pool = s.pool := rfl
@[simp] theorem setKeys_tier (s : State) (k : Keys) : (s.setKeys k).tier = s.tier := rfl
@[simp] theorem setKeys_coh (s : State) (k : Keys) : (s.setKeys k).coh = s.coh := rfl
@[simp] theorem setKeys_rgf (s : State) (k : Keys) : (s.setKeys k).rgf = s.rgf := rfl
@[simp] theorem setKeys_chans (s : State) (k : Keys) : (s.setKeys k).chans = s.chans := rfl
@[simp] theorem setKeys_scn (s : State) (k : Keys) : (s.setKeys k).scn = s.scn := rfl
@[simp] theorem setKeys_rcv (s : State) (k : Keys) : (s.setKeys k).rcv = s.rcv := rfl
@[simp] theorem setKeys_power (s : State) (k : Keys) : (s.setKeys k).power = s.power := rfl
@[simp] theorem setKeys_clk (s : State) (k : Keys) : (s.setKeys k).clk = s.clk := rfl
@[simp] theorem setKeys_busy (s : State) (k : Keys) : (s.setKeys k).busy = s.busy := rfl
@[simp] theorem setKeys_host (s : State) (k : Keys) : (s.setKeys k).host = s.host := rfl
@[simp] theorem setKeys_tel (s : State) (k : Keys) : (s.setKeys k).tel = s.tel := rfl
@[simp] theorem setKeys_tap (s : State) (k : Keys) : (s.setKeys k).tap = s.tap := rfl
@[simp] theorem setKeys_out (s : State) (k : Keys) : (s.setKeys k).out = s.out := rfl
@[simp] theorem setKeys_nextId (s : State) (k : Keys) : (s.setKeys k).nextId = s.nextId := rfl
@[simp] theorem setKeys_freeCtr (s : State) (k : Keys) : (s.setKeys k).freeCtr = s.freeCtr := rfl

/-! ### withTap -/

@[simp] theorem withTap_pending (s : State) (t : Tap) : (s.withTap t).pending = s.pending := by unfold State.withTap; split <;> rfl
@[simp] theorem withTap_regs (s : State) (t : Tap) : (s.withTap t).regs = s.regs := by unfold State.withTap; split <;> rfl
@[simp] theorem withTap_ports (s : State) (t : Tap) : (s.withTap t).ports = s.ports := by unfold State.withTap; split <;> rfl
@[simp] theorem withTap_agents (s : State) (t : Tap) : (s.withTap t).agents = s.agents := by unfold State.withTap; split <;> rfl
@[simp] theorem withTap_sw (s : State) (t : Tap) : (s.withTap t).sw = s.sw := by unfold State.withTap; split <;> rfl
@[simp] theorem withTap_home (s : State) (t : Tap) : (s.withTap t).home = s.home := by unfold State.withTap; split <;> rfl
@[simp] theorem withTap_pool (s : State) (t : Tap) : (s.withTap t).pool = s.pool := by unfold State.withTap; split <;> rfl
@[simp] theorem withTap_tier (s : State) (t : Tap) : (s.withTap t).tier = s.tier := by unfold State.withTap; split <;> rfl
@[simp] theorem withTap_coh (s : State) (t : Tap) : (s.withTap t).coh = s.coh := by unfold State.withTap; split <;> rfl
@[simp] theorem withTap_rgf (s : State) (t : Tap) : (s.withTap t).rgf = s.rgf := by unfold State.withTap; split <;> rfl
@[simp] theorem withTap_chans (s : State) (t : Tap) : (s.withTap t).chans = s.chans := by unfold State.withTap; split <;> rfl
@[simp] theorem withTap_scn (s : State) (t : Tap) : (s.withTap t).scn = s.scn := by unfold State.withTap; split <;> rfl
@[simp] theorem withTap_rcv (s : State) (t : Tap) : (s.withTap t).rcv = s.rcv := by unfold State.withTap; split <;> rfl
@[simp] theorem withTap_boot (s : State) (t : Tap) : (s.withTap t).boot = s.boot := by unfold State.withTap; split <;> rfl
@[simp] theorem withTap_power (s : State) (t : Tap) : (s.withTap t).power = s.power := by unfold State.withTap; split <;> rfl
@[simp] theorem withTap_clk (s : State) (t : Tap) : (s.withTap t).clk = s.clk := by unfold State.withTap; split <;> rfl
@[simp] theorem withTap_busy (s : State) (t : Tap) : (s.withTap t).busy = s.busy := by unfold State.withTap; split <;> rfl
@[simp] theorem withTap_host (s : State) (t : Tap) : (s.withTap t).host = s.host := by unfold State.withTap; split <;> rfl
@[simp] theorem withTap_tel (s : State) (t : Tap) : (s.withTap t).tel = s.tel := by unfold State.withTap; split <;> rfl
@[simp] theorem withTap_out (s : State) (t : Tap) : (s.withTap t).out = s.out := by unfold State.withTap; split <;> rfl
@[simp] theorem withTap_nextId (s : State) (t : Tap) : (s.withTap t).nextId = s.nextId := by unfold State.withTap; split <;> rfl
@[simp] theorem withTap_freeCtr (s : State) (t : Tap) : (s.withTap t).freeCtr = s.freeCtr := by unfold State.withTap; split <;> rfl

/-! ### sendVector -/

@[simp] theorem sendVector_pending (s : State) (v : Nat) : (s.sendVector v).pending = s.pending := by unfold State.sendVector; split <;> rfl
@[simp] theorem sendVector_regs (s : State) (v : Nat) : (s.sendVector v).regs = s.regs := by unfold State.sendVector; split <;> rfl
@[simp] theorem sendVector_ports (s : State) (v : Nat) : (s.sendVector v).ports = s.ports := by unfold State.sendVector; split <;> rfl
@[simp] theorem sendVector_agents (s : State) (v : Nat) : (s.sendVector v).agents = s.agents := by unfold State.sendVector; split <;> rfl
@[simp] theorem sendVector_sw (s : State) (v : Nat) : (s.sendVector v).sw = s.sw := by unfold State.sendVector; split <;> rfl
@[simp] theorem sendVector_home (s : State) (v : Nat) : (s.sendVector v).home = s.home := by unfold State.sendVector; split <;> rfl
@[simp] theorem sendVector_pool (s : State) (v : Nat) : (s.sendVector v).pool = s.pool := by unfold State.sendVector; split <;> rfl
@[simp] theorem sendVector_tier (s : State) (v : Nat) : (s.sendVector v).tier = s.tier := by unfold State.sendVector; split <;> rfl
@[simp] theorem sendVector_coh (s : State) (v : Nat) : (s.sendVector v).coh = s.coh := by unfold State.sendVector; split <;> rfl
@[simp] theorem sendVector_rgf (s : State) (v : Nat) : (s.sendVector v).rgf = s.rgf := by unfold State.sendVector; split <;> rfl
@[simp] theorem sendVector_chans (s : State) (v : Nat) : (s.sendVector v).chans = s.chans := by unfold State.sendVector; split <;> rfl
@[simp] theorem sendVector_scn (s : State) (v : Nat) : (s.sendVector v).scn = s.scn := by unfold State.sendVector; split <;> rfl
@[simp] theorem sendVector_rcv (s : State) (v : Nat) : (s.sendVector v).rcv = s.rcv := by unfold State.sendVector; split <;> rfl
@[simp] theorem sendVector_boot (s : State) (v : Nat) : (s.sendVector v).boot = s.boot := by unfold State.sendVector; split <;> rfl
@[simp] theorem sendVector_power (s : State) (v : Nat) : (s.sendVector v).power = s.power := by unfold State.sendVector; split <;> rfl
@[simp] theorem sendVector_clk (s : State) (v : Nat) : (s.sendVector v).clk = s.clk := by unfold State.sendVector; split <;> rfl
@[simp] theorem sendVector_busy (s : State) (v : Nat) : (s.sendVector v).busy = s.busy := by unfold State.sendVector; split <;> rfl
@[simp] theorem sendVector_tel (s : State) (v : Nat) : (s.sendVector v).tel = s.tel := by unfold State.sendVector; split <;> rfl
@[simp] theorem sendVector_tap (s : State) (v : Nat) : (s.sendVector v).tap = s.tap := by unfold State.sendVector; split <;> rfl
@[simp] theorem sendVector_nextId (s : State) (v : Nat) : (s.sendVector v).nextId = s.nextId := by unfold State.sendVector; split <;> rfl
@[simp] theorem sendVector_freeCtr (s : State) (v : Nat) : (s.sendVector v).freeCtr = s.freeCtr := by unfold State.sendVector; split <;> rfl

/-! ### raiseBits -/

@[simp] theorem raiseBits_pending (s : State) (f : Fld) (v i j : Nat) : (s.raiseBits f v i j).pending = s.pending := rfl
@[simp] theorem raiseBits_ports (s : State) (f : Fld) (v i j : Nat) : (s.raiseBits f v i j).ports = s.ports := rfl
@[simp] theorem raiseBits_agents (s : State) (f : Fld) (v i j : Nat) : (s.raiseBits f v i j).agents = s.agents := rfl
@[simp] theorem raiseBits_sw (s : State) (f : Fld) (v i j : Nat) : (s.raiseBits f v i j).sw = s.sw := rfl
@[simp] theorem raiseBits_home (s : State) (f : Fld) (v i j : Nat) : (s.raiseBits f v i j).home = s.home := rfl
@[simp] theorem raiseBits_pool (s : State) (f : Fld) (v i j : Nat) : (s.raiseBits f v i j).pool = s.pool := rfl
@[simp] theorem raiseBits_tier (s : State) (f : Fld) (v i j : Nat) : (s.raiseBits f v i j).tier = s.tier := rfl
@[simp] theorem raiseBits_coh (s : State) (f : Fld) (v i j : Nat) : (s.raiseBits f v i j).coh = s.coh := rfl
@[simp] theorem raiseBits_rgf (s : State) (f : Fld) (v i j : Nat) : (s.raiseBits f v i j).rgf = s.rgf := rfl
@[simp] theorem raiseBits_chans (s : State) (f : Fld) (v i j : Nat) : (s.raiseBits f v i j).chans = s.chans := rfl
@[simp] theorem raiseBits_scn (s : State) (f : Fld) (v i j : Nat) : (s.raiseBits f v i j).scn = s.scn := rfl
@[simp] theorem raiseBits_rcv (s : State) (f : Fld) (v i j : Nat) : (s.raiseBits f v i j).rcv = s.rcv := rfl
@[simp] theorem raiseBits_boot (s : State) (f : Fld) (v i j : Nat) : (s.raiseBits f v i j).boot = s.boot := rfl
@[simp] theorem raiseBits_power (s : State) (f : Fld) (v i j : Nat) : (s.raiseBits f v i j).power = s.power := rfl
@[simp] theorem raiseBits_clk (s : State) (f : Fld) (v i j : Nat) : (s.raiseBits f v i j).clk = s.clk := rfl
@[simp] theorem raiseBits_busy (s : State) (f : Fld) (v i j : Nat) : (s.raiseBits f v i j).busy = s.busy := rfl
@[simp] theorem raiseBits_tel (s : State) (f : Fld) (v i j : Nat) : (s.raiseBits f v i j).tel = s.tel := rfl
@[simp] theorem raiseBits_tap (s : State) (f : Fld) (v i j : Nat) : (s.raiseBits f v i j).tap = s.tap := rfl
@[simp] theorem raiseBits_out (s : State) (f : Fld) (v i j : Nat) : (s.raiseBits f v i j).out = s.out := rfl
@[simp] theorem raiseBits_nextId (s : State) (f : Fld) (v i j : Nat) : (s.raiseBits f v i j).nextId = s.nextId := rfl
@[simp] theorem raiseBits_freeCtr (s : State) (f : Fld) (v i j : Nat) : (s.raiseBits f v i j).freeCtr = s.freeCtr := rfl

@[simp] theorem raiseBits_regs (s : State) (f : Fld) (v i j : Nat) :
    (s.raiseBits f v i j).regs = (s.wr f (s.rd f i j ||| v) i j).regs := rfl

/-! ### irq -/

@[simp] theorem irq_pending (s : State) (c : Nat) : (s.irq c).pending = s.pending := by unfold State.irq; dsimp only; split <;> [simp; (split <;> simp)]
@[simp] theorem irq_ports (s : State) (c : Nat) : (s.irq c).ports = s.ports := by unfold State.irq; dsimp only; split <;> [simp; (split <;> simp)]
@[simp] theorem irq_agents (s : State) (c : Nat) : (s.irq c).agents = s.agents := by unfold State.irq; dsimp only; split <;> [simp; (split <;> simp)]
@[simp] theorem irq_sw (s : State) (c : Nat) : (s.irq c).sw = s.sw := by unfold State.irq; dsimp only; split <;> [simp; (split <;> simp)]
@[simp] theorem irq_home (s : State) (c : Nat) : (s.irq c).home = s.home := by unfold State.irq; dsimp only; split <;> [simp; (split <;> simp)]
@[simp] theorem irq_pool (s : State) (c : Nat) : (s.irq c).pool = s.pool := by unfold State.irq; dsimp only; split <;> [simp; (split <;> simp)]
@[simp] theorem irq_tier (s : State) (c : Nat) : (s.irq c).tier = s.tier := by unfold State.irq; dsimp only; split <;> [simp; (split <;> simp)]
@[simp] theorem irq_coh (s : State) (c : Nat) : (s.irq c).coh = s.coh := by unfold State.irq; dsimp only; split <;> [simp; (split <;> simp)]
@[simp] theorem irq_rgf (s : State) (c : Nat) : (s.irq c).rgf = s.rgf := by unfold State.irq; dsimp only; split <;> [simp; (split <;> simp)]
@[simp] theorem irq_chans (s : State) (c : Nat) : (s.irq c).chans = s.chans := by unfold State.irq; dsimp only; split <;> [simp; (split <;> simp)]
@[simp] theorem irq_scn (s : State) (c : Nat) : (s.irq c).scn = s.scn := by unfold State.irq; dsimp only; split <;> [simp; (split <;> simp)]
@[simp] theorem irq_rcv (s : State) (c : Nat) : (s.irq c).rcv = s.rcv := by unfold State.irq; dsimp only; split <;> [simp; (split <;> simp)]
@[simp] theorem irq_boot (s : State) (c : Nat) : (s.irq c).boot = s.boot := by unfold State.irq; dsimp only; split <;> [simp; (split <;> simp)]
@[simp] theorem irq_power (s : State) (c : Nat) : (s.irq c).power = s.power := by unfold State.irq; dsimp only; split <;> [simp; (split <;> simp)]
@[simp] theorem irq_clk (s : State) (c : Nat) : (s.irq c).clk = s.clk := by unfold State.irq; dsimp only; split <;> [simp; (split <;> simp)]
@[simp] theorem irq_busy (s : State) (c : Nat) : (s.irq c).busy = s.busy := by unfold State.irq; dsimp only; split <;> [simp; (split <;> simp)]
@[simp] theorem irq_tel (s : State) (c : Nat) : (s.irq c).tel = s.tel := by unfold State.irq; dsimp only; split <;> [simp; (split <;> simp)]
@[simp] theorem irq_tap (s : State) (c : Nat) : (s.irq c).tap = s.tap := by unfold State.irq; dsimp only; split <;> [simp; (split <;> simp)]
@[simp] theorem irq_nextId (s : State) (c : Nat) : (s.irq c).nextId = s.nextId := by unfold State.irq; dsimp only; split <;> [simp; (split <;> simp)]
@[simp] theorem irq_freeCtr (s : State) (c : Nat) : (s.irq c).freeCtr = s.freeCtr := by unfold State.irq; dsimp only; split <;> [simp; (split <;> simp)]

/-! ### cmdDone -/

@[simp] theorem cmdDone_pending (s : State) (b : Nat) : (s.cmdDone b).pending = s.pending := by simp [State.cmdDone]
@[simp] theorem cmdDone_ports (s : State) (b : Nat) : (s.cmdDone b).ports = s.ports := by simp [State.cmdDone]
@[simp] theorem cmdDone_agents (s : State) (b : Nat) : (s.cmdDone b).agents = s.agents := by simp [State.cmdDone]
@[simp] theorem cmdDone_sw (s : State) (b : Nat) : (s.cmdDone b).sw = s.sw := by simp [State.cmdDone]
@[simp] theorem cmdDone_home (s : State) (b : Nat) : (s.cmdDone b).home = s.home := by simp [State.cmdDone]
@[simp] theorem cmdDone_pool (s : State) (b : Nat) : (s.cmdDone b).pool = s.pool := by simp [State.cmdDone]
@[simp] theorem cmdDone_tier (s : State) (b : Nat) : (s.cmdDone b).tier = s.tier := by simp [State.cmdDone]
@[simp] theorem cmdDone_coh (s : State) (b : Nat) : (s.cmdDone b).coh = s.coh := by simp [State.cmdDone]
@[simp] theorem cmdDone_rgf (s : State) (b : Nat) : (s.cmdDone b).rgf = s.rgf := by simp [State.cmdDone]
@[simp] theorem cmdDone_chans (s : State) (b : Nat) : (s.cmdDone b).chans = s.chans := by simp [State.cmdDone]
@[simp] theorem cmdDone_scn (s : State) (b : Nat) : (s.cmdDone b).scn = s.scn := by simp [State.cmdDone]
@[simp] theorem cmdDone_rcv (s : State) (b : Nat) : (s.cmdDone b).rcv = s.rcv := by simp [State.cmdDone]
@[simp] theorem cmdDone_boot (s : State) (b : Nat) : (s.cmdDone b).boot = s.boot := by simp [State.cmdDone]
@[simp] theorem cmdDone_power (s : State) (b : Nat) : (s.cmdDone b).power = s.power := by simp [State.cmdDone]
@[simp] theorem cmdDone_clk (s : State) (b : Nat) : (s.cmdDone b).clk = s.clk := by simp [State.cmdDone]
@[simp] theorem cmdDone_busy (s : State) (b : Nat) : (s.cmdDone b).busy = s.busy := by simp [State.cmdDone]
@[simp] theorem cmdDone_tel (s : State) (b : Nat) : (s.cmdDone b).tel = s.tel := by simp [State.cmdDone]
@[simp] theorem cmdDone_tap (s : State) (b : Nat) : (s.cmdDone b).tap = s.tap := by simp [State.cmdDone]
@[simp] theorem cmdDone_nextId (s : State) (b : Nat) : (s.cmdDone b).nextId = s.nextId := by simp [State.cmdDone]
@[simp] theorem cmdDone_freeCtr (s : State) (b : Nat) : (s.cmdDone b).freeCtr = s.freeCtr := by simp [State.cmdDone]

/-! ### queueFlash -/

@[simp] theorem queueFlash_pending (s : State) (r : List Byte) (o m : List (List Byte)) : (s.queueFlash r o m).pending = s.pending := by unfold State.queueFlash; dsimp only; split <;> rfl
@[simp] theorem queueFlash_ports (s : State) (r : List Byte) (o m : List (List Byte)) : (s.queueFlash r o m).ports = s.ports := by unfold State.queueFlash; dsimp only; split <;> rfl
@[simp] theorem queueFlash_agents (s : State) (r : List Byte) (o m : List (List Byte)) : (s.queueFlash r o m).agents = s.agents := by unfold State.queueFlash; dsimp only; split <;> rfl
@[simp] theorem queueFlash_sw (s : State) (r : List Byte) (o m : List (List Byte)) : (s.queueFlash r o m).sw = s.sw := by unfold State.queueFlash; dsimp only; split <;> rfl
@[simp] theorem queueFlash_home (s : State) (r : List Byte) (o m : List (List Byte)) : (s.queueFlash r o m).home = s.home := by unfold State.queueFlash; dsimp only; split <;> rfl
@[simp] theorem queueFlash_pool (s : State) (r : List Byte) (o m : List (List Byte)) : (s.queueFlash r o m).pool = s.pool := by unfold State.queueFlash; dsimp only; split <;> rfl
@[simp] theorem queueFlash_tier (s : State) (r : List Byte) (o m : List (List Byte)) : (s.queueFlash r o m).tier = s.tier := by unfold State.queueFlash; dsimp only; split <;> rfl
@[simp] theorem queueFlash_coh (s : State) (r : List Byte) (o m : List (List Byte)) : (s.queueFlash r o m).coh = s.coh := by unfold State.queueFlash; dsimp only; split <;> rfl
@[simp] theorem queueFlash_rgf (s : State) (r : List Byte) (o m : List (List Byte)) : (s.queueFlash r o m).rgf = s.rgf := by unfold State.queueFlash; dsimp only; split <;> rfl
@[simp] theorem queueFlash_chans (s : State) (r : List Byte) (o m : List (List Byte)) : (s.queueFlash r o m).chans = s.chans := by unfold State.queueFlash; dsimp only; split <;> rfl
@[simp] theorem queueFlash_scn (s : State) (r : List Byte) (o m : List (List Byte)) : (s.queueFlash r o m).scn = s.scn := by unfold State.queueFlash; dsimp only; split <;> rfl
@[simp] theorem queueFlash_rcv (s : State) (r : List Byte) (o m : List (List Byte)) : (s.queueFlash r o m).rcv = s.rcv := by unfold State.queueFlash; dsimp only; split <;> rfl
@[simp] theorem queueFlash_boot (s : State) (r : List Byte) (o m : List (List Byte)) : (s.queueFlash r o m).boot = s.boot := by unfold State.queueFlash; dsimp only; split <;> rfl
@[simp] theorem queueFlash_power (s : State) (r : List Byte) (o m : List (List Byte)) : (s.queueFlash r o m).power = s.power := by unfold State.queueFlash; dsimp only; split <;> rfl
@[simp] theorem queueFlash_clk (s : State) (r : List Byte) (o m : List (List Byte)) : (s.queueFlash r o m).clk = s.clk := by unfold State.queueFlash; dsimp only; split <;> rfl
@[simp] theorem queueFlash_busy (s : State) (r : List Byte) (o m : List (List Byte)) : (s.queueFlash r o m).busy = s.busy := by unfold State.queueFlash; dsimp only; split <;> rfl
@[simp] theorem queueFlash_host (s : State) (r : List Byte) (o m : List (List Byte)) : (s.queueFlash r o m).host = s.host := by unfold State.queueFlash; dsimp only; split <;> rfl
@[simp] theorem queueFlash_tap (s : State) (r : List Byte) (o m : List (List Byte)) : (s.queueFlash r o m).tap = s.tap := by unfold State.queueFlash; dsimp only; split <;> rfl
@[simp] theorem queueFlash_out (s : State) (r : List Byte) (o m : List (List Byte)) : (s.queueFlash r o m).out = s.out := by unfold State.queueFlash; dsimp only; split <;> rfl
@[simp] theorem queueFlash_nextId (s : State) (r : List Byte) (o m : List (List Byte)) : (s.queueFlash r o m).nextId = s.nextId := by unfold State.queueFlash; dsimp only; split <;> rfl
@[simp] theorem queueFlash_freeCtr (s : State) (r : List Byte) (o m : List (List Byte)) : (s.queueFlash r o m).freeCtr = s.freeCtr := by unfold State.queueFlash; dsimp only; split <;> rfl

/-! ### logEvent and event -/

@[simp] theorem logEvent_pending (s : State) (n o v : Nat) (mk : Nat → List Byte) : (s.logEvent n o v mk).pending = s.pending := by unfold State.logEvent; dsimp only; split <;> split <;> simp
@[simp] theorem logEvent_ports (s : State) (n o v : Nat) (mk : Nat → List Byte) : (s.logEvent n o v mk).ports = s.ports := by unfold State.logEvent; dsimp only; split <;> split <;> simp
@[simp] theorem logEvent_agents (s : State) (n o v : Nat) (mk : Nat → List Byte) : (s.logEvent n o v mk).agents = s.agents := by unfold State.logEvent; dsimp only; split <;> split <;> simp
@[simp] theorem logEvent_sw (s : State) (n o v : Nat) (mk : Nat → List Byte) : (s.logEvent n o v mk).sw = s.sw := by unfold State.logEvent; dsimp only; split <;> split <;> simp
@[simp] theorem logEvent_home (s : State) (n o v : Nat) (mk : Nat → List Byte) : (s.logEvent n o v mk).home = s.home := by unfold State.logEvent; dsimp only; split <;> split <;> simp
@[simp] theorem logEvent_pool (s : State) (n o v : Nat) (mk : Nat → List Byte) : (s.logEvent n o v mk).pool = s.pool := by unfold State.logEvent; dsimp only; split <;> split <;> simp
@[simp] theorem logEvent_tier (s : State) (n o v : Nat) (mk : Nat → List Byte) : (s.logEvent n o v mk).tier = s.tier := by unfold State.logEvent; dsimp only; split <;> split <;> simp
@[simp] theorem logEvent_coh (s : State) (n o v : Nat) (mk : Nat → List Byte) : (s.logEvent n o v mk).coh = s.coh := by unfold State.logEvent; dsimp only; split <;> split <;> simp
@[simp] theorem logEvent_rgf (s : State) (n o v : Nat) (mk : Nat → List Byte) : (s.logEvent n o v mk).rgf = s.rgf := by unfold State.logEvent; dsimp only; split <;> split <;> simp
@[simp] theorem logEvent_chans (s : State) (n o v : Nat) (mk : Nat → List Byte) : (s.logEvent n o v mk).chans = s.chans := by unfold State.logEvent; dsimp only; split <;> split <;> simp
@[simp] theorem logEvent_scn (s : State) (n o v : Nat) (mk : Nat → List Byte) : (s.logEvent n o v mk).scn = s.scn := by unfold State.logEvent; dsimp only; split <;> split <;> simp
@[simp] theorem logEvent_rcv (s : State) (n o v : Nat) (mk : Nat → List Byte) : (s.logEvent n o v mk).rcv = s.rcv := by unfold State.logEvent; dsimp only; split <;> split <;> simp
@[simp] theorem logEvent_boot (s : State) (n o v : Nat) (mk : Nat → List Byte) : (s.logEvent n o v mk).boot = s.boot := by unfold State.logEvent; dsimp only; split <;> split <;> simp
@[simp] theorem logEvent_power (s : State) (n o v : Nat) (mk : Nat → List Byte) : (s.logEvent n o v mk).power = s.power := by unfold State.logEvent; dsimp only; split <;> split <;> simp
@[simp] theorem logEvent_clk (s : State) (n o v : Nat) (mk : Nat → List Byte) : (s.logEvent n o v mk).clk = s.clk := by unfold State.logEvent; dsimp only; split <;> split <;> simp
@[simp] theorem logEvent_busy (s : State) (n o v : Nat) (mk : Nat → List Byte) : (s.logEvent n o v mk).busy = s.busy := by unfold State.logEvent; dsimp only; split <;> split <;> simp
@[simp] theorem logEvent_tap (s : State) (n o v : Nat) (mk : Nat → List Byte) : (s.logEvent n o v mk).tap = s.tap := by unfold State.logEvent; dsimp only; split <;> split <;> simp
@[simp] theorem logEvent_nextId (s : State) (n o v : Nat) (mk : Nat → List Byte) : (s.logEvent n o v mk).nextId = s.nextId := by unfold State.logEvent; dsimp only; split <;> split <;> simp
@[simp] theorem logEvent_freeCtr (s : State) (n o v : Nat) (mk : Nat → List Byte) : (s.logEvent n o v mk).freeCtr = s.freeCtr := by unfold State.logEvent; dsimp only; split <;> split <;> simp
@[simp] theorem event_pending (s : State) (e : Ev) (u a b : Nat) : (s.event e u a b).pending = s.pending := by unfold State.event; split <;> simp
@[simp] theorem event_ports (s : State) (e : Ev) (u a b : Nat) : (s.event e u a b).ports = s.ports := by unfold State.event; split <;> simp
@[simp] theorem event_agents (s : State) (e : Ev) (u a b : Nat) : (s.event e u a b).agents = s.agents := by unfold State.event; split <;> simp
@[simp] theorem event_sw (s : State) (e : Ev) (u a b : Nat) : (s.event e u a b).sw = s.sw := by unfold State.event; split <;> simp
@[simp] theorem event_home (s : State) (e : Ev) (u a b : Nat) : (s.event e u a b).home = s.home := by unfold State.event; split <;> simp
@[simp] theorem event_pool (s : State) (e : Ev) (u a b : Nat) : (s.event e u a b).pool = s.pool := by unfold State.event; split <;> simp
@[simp] theorem event_tier (s : State) (e : Ev) (u a b : Nat) : (s.event e u a b).tier = s.tier := by unfold State.event; split <;> simp
@[simp] theorem event_coh (s : State) (e : Ev) (u a b : Nat) : (s.event e u a b).coh = s.coh := by unfold State.event; split <;> simp
@[simp] theorem event_rgf (s : State) (e : Ev) (u a b : Nat) : (s.event e u a b).rgf = s.rgf := by unfold State.event; split <;> simp
@[simp] theorem event_chans (s : State) (e : Ev) (u a b : Nat) : (s.event e u a b).chans = s.chans := by unfold State.event; split <;> simp
@[simp] theorem event_scn (s : State) (e : Ev) (u a b : Nat) : (s.event e u a b).scn = s.scn := by unfold State.event; split <;> simp
@[simp] theorem event_rcv (s : State) (e : Ev) (u a b : Nat) : (s.event e u a b).rcv = s.rcv := by unfold State.event; split <;> simp
@[simp] theorem event_boot (s : State) (e : Ev) (u a b : Nat) : (s.event e u a b).boot = s.boot := by unfold State.event; split <;> simp
@[simp] theorem event_power (s : State) (e : Ev) (u a b : Nat) : (s.event e u a b).power = s.power := by unfold State.event; split <;> simp
@[simp] theorem event_clk (s : State) (e : Ev) (u a b : Nat) : (s.event e u a b).clk = s.clk := by unfold State.event; split <;> simp
@[simp] theorem event_busy (s : State) (e : Ev) (u a b : Nat) : (s.event e u a b).busy = s.busy := by unfold State.event; split <;> simp
@[simp] theorem event_tap (s : State) (e : Ev) (u a b : Nat) : (s.event e u a b).tap = s.tap := by unfold State.event; split <;> simp
@[simp] theorem event_nextId (s : State) (e : Ev) (u a b : Nat) : (s.event e u a b).nextId = s.nextId := by unfold State.event; split <;> simp
@[simp] theorem event_freeCtr (s : State) (e : Ev) (u a b : Nat) : (s.event e u a b).freeCtr = s.freeCtr := by unfold State.event; split <;> simp

/-! ### setTenant -/

@[simp] theorem setTenant_pending (s : State) (st : Nat) : (s.setTenant st).pending = s.pending := by unfold State.setTenant; split <;> simp
@[simp] theorem setTenant_ports (s : State) (st : Nat) : (s.setTenant st).ports = s.ports := by unfold State.setTenant; split <;> simp
@[simp] theorem setTenant_agents (s : State) (st : Nat) : (s.setTenant st).agents = s.agents := by unfold State.setTenant; split <;> simp
@[simp] theorem setTenant_sw (s : State) (st : Nat) : (s.setTenant st).sw = s.sw := by unfold State.setTenant; split <;> simp
@[simp] theorem setTenant_home (s : State) (st : Nat) : (s.setTenant st).home = s.home := by unfold State.setTenant; split <;> simp
@[simp] theorem setTenant_pool (s : State) (st : Nat) : (s.setTenant st).pool = s.pool := by unfold State.setTenant; split <;> simp
@[simp] theorem setTenant_tier (s : State) (st : Nat) : (s.setTenant st).tier = s.tier := by unfold State.setTenant; split <;> simp
@[simp] theorem setTenant_coh (s : State) (st : Nat) : (s.setTenant st).coh = s.coh := by unfold State.setTenant; split <;> simp
@[simp] theorem setTenant_rgf (s : State) (st : Nat) : (s.setTenant st).rgf = s.rgf := by unfold State.setTenant; split <;> simp
@[simp] theorem setTenant_chans (s : State) (st : Nat) : (s.setTenant st).chans = s.chans := by unfold State.setTenant; split <;> simp
@[simp] theorem setTenant_scn (s : State) (st : Nat) : (s.setTenant st).scn = s.scn := by unfold State.setTenant; split <;> simp
@[simp] theorem setTenant_rcv (s : State) (st : Nat) : (s.setTenant st).rcv = s.rcv := by unfold State.setTenant; split <;> simp
@[simp] theorem setTenant_boot (s : State) (st : Nat) : (s.setTenant st).boot = s.boot := by unfold State.setTenant; split <;> simp
@[simp] theorem setTenant_power (s : State) (st : Nat) : (s.setTenant st).power = s.power := by unfold State.setTenant; split <;> simp
@[simp] theorem setTenant_clk (s : State) (st : Nat) : (s.setTenant st).clk = s.clk := by unfold State.setTenant; split <;> simp
@[simp] theorem setTenant_busy (s : State) (st : Nat) : (s.setTenant st).busy = s.busy := by unfold State.setTenant; split <;> simp
@[simp] theorem setTenant_tel (s : State) (st : Nat) : (s.setTenant st).tel = s.tel := by unfold State.setTenant; split <;> simp
@[simp] theorem setTenant_tap (s : State) (st : Nat) : (s.setTenant st).tap = s.tap := by unfold State.setTenant; split <;> simp
@[simp] theorem setTenant_nextId (s : State) (st : Nat) : (s.setTenant st).nextId = s.nextId := by unfold State.setTenant; split <;> simp
@[simp] theorem setTenant_freeCtr (s : State) (st : Nat) : (s.setTenant st).freeCtr = s.freeCtr := by unfold State.setTenant; split <;> simp

/-! ### flashWrite -/

@[simp] theorem flashWrite_pending (s : State) (a : Nat) (bs : List Byte) : (s.flashWrite a bs).pending = s.pending := rfl
@[simp] theorem flashWrite_regs (s : State) (a : Nat) (bs : List Byte) : (s.flashWrite a bs).regs = s.regs := rfl
@[simp] theorem flashWrite_ports (s : State) (a : Nat) (bs : List Byte) : (s.flashWrite a bs).ports = s.ports := rfl
@[simp] theorem flashWrite_agents (s : State) (a : Nat) (bs : List Byte) : (s.flashWrite a bs).agents = s.agents := rfl
@[simp] theorem flashWrite_sw (s : State) (a : Nat) (bs : List Byte) : (s.flashWrite a bs).sw = s.sw := rfl
@[simp] theorem flashWrite_home (s : State) (a : Nat) (bs : List Byte) : (s.flashWrite a bs).home = s.home := rfl
@[simp] theorem flashWrite_pool (s : State) (a : Nat) (bs : List Byte) : (s.flashWrite a bs).pool = s.pool := rfl
@[simp] theorem flashWrite_tier (s : State) (a : Nat) (bs : List Byte) : (s.flashWrite a bs).tier = s.tier := rfl
@[simp] theorem flashWrite_coh (s : State) (a : Nat) (bs : List Byte) : (s.flashWrite a bs).coh = s.coh := rfl
@[simp] theorem flashWrite_rgf (s : State) (a : Nat) (bs : List Byte) : (s.flashWrite a bs).rgf = s.rgf := rfl
@[simp] theorem flashWrite_chans (s : State) (a : Nat) (bs : List Byte) : (s.flashWrite a bs).chans = s.chans := rfl
@[simp] theorem flashWrite_scn (s : State) (a : Nat) (bs : List Byte) : (s.flashWrite a bs).scn = s.scn := rfl
@[simp] theorem flashWrite_rcv (s : State) (a : Nat) (bs : List Byte) : (s.flashWrite a bs).rcv = s.rcv := rfl
@[simp] theorem flashWrite_power (s : State) (a : Nat) (bs : List Byte) : (s.flashWrite a bs).power = s.power := rfl
@[simp] theorem flashWrite_clk (s : State) (a : Nat) (bs : List Byte) : (s.flashWrite a bs).clk = s.clk := rfl
@[simp] theorem flashWrite_busy (s : State) (a : Nat) (bs : List Byte) : (s.flashWrite a bs).busy = s.busy := rfl
@[simp] theorem flashWrite_host (s : State) (a : Nat) (bs : List Byte) : (s.flashWrite a bs).host = s.host := rfl
@[simp] theorem flashWrite_tel (s : State) (a : Nat) (bs : List Byte) : (s.flashWrite a bs).tel = s.tel := rfl
@[simp] theorem flashWrite_tap (s : State) (a : Nat) (bs : List Byte) : (s.flashWrite a bs).tap = s.tap := rfl
@[simp] theorem flashWrite_out (s : State) (a : Nat) (bs : List Byte) : (s.flashWrite a bs).out = s.out := rfl
@[simp] theorem flashWrite_nextId (s : State) (a : Nat) (bs : List Byte) : (s.flashWrite a bs).nextId = s.nextId := rfl
@[simp] theorem flashWrite_freeCtr (s : State) (a : Nat) (bs : List Byte) : (s.flashWrite a bs).freeCtr = s.freeCtr := rfl

/-! ### flashErase -/

@[simp] theorem flashErase_pending (s : State) (a n : Nat) : (s.flashErase a n).pending = s.pending := rfl
@[simp] theorem flashErase_regs (s : State) (a n : Nat) : (s.flashErase a n).regs = s.regs := rfl
@[simp] theorem flashErase_ports (s : State) (a n : Nat) : (s.flashErase a n).ports = s.ports := rfl
@[simp] theorem flashErase_agents (s : State) (a n : Nat) : (s.flashErase a n).agents = s.agents := rfl
@[simp] theorem flashErase_sw (s : State) (a n : Nat) : (s.flashErase a n).sw = s.sw := rfl
@[simp] theorem flashErase_home (s : State) (a n : Nat) : (s.flashErase a n).home = s.home := rfl
@[simp] theorem flashErase_pool (s : State) (a n : Nat) : (s.flashErase a n).pool = s.pool := rfl
@[simp] theorem flashErase_tier (s : State) (a n : Nat) : (s.flashErase a n).tier = s.tier := rfl
@[simp] theorem flashErase_coh (s : State) (a n : Nat) : (s.flashErase a n).coh = s.coh := rfl
@[simp] theorem flashErase_rgf (s : State) (a n : Nat) : (s.flashErase a n).rgf = s.rgf := rfl
@[simp] theorem flashErase_chans (s : State) (a n : Nat) : (s.flashErase a n).chans = s.chans := rfl
@[simp] theorem flashErase_scn (s : State) (a n : Nat) : (s.flashErase a n).scn = s.scn := rfl
@[simp] theorem flashErase_rcv (s : State) (a n : Nat) : (s.flashErase a n).rcv = s.rcv := rfl
@[simp] theorem flashErase_power (s : State) (a n : Nat) : (s.flashErase a n).power = s.power := rfl
@[simp] theorem flashErase_clk (s : State) (a n : Nat) : (s.flashErase a n).clk = s.clk := rfl
@[simp] theorem flashErase_busy (s : State) (a n : Nat) : (s.flashErase a n).busy = s.busy := rfl
@[simp] theorem flashErase_host (s : State) (a n : Nat) : (s.flashErase a n).host = s.host := rfl
@[simp] theorem flashErase_tel (s : State) (a n : Nat) : (s.flashErase a n).tel = s.tel := rfl
@[simp] theorem flashErase_tap (s : State) (a n : Nat) : (s.flashErase a n).tap = s.tap := rfl
@[simp] theorem flashErase_out (s : State) (a n : Nat) : (s.flashErase a n).out = s.out := rfl
@[simp] theorem flashErase_nextId (s : State) (a n : Nat) : (s.flashErase a n).nextId = s.nextId := rfl
@[simp] theorem flashErase_freeCtr (s : State) (a n : Nat) : (s.flashErase a n).freeCtr = s.freeCtr := rfl

/-! ### Register fields -/

theorem fld_ctorIdx_inj {f g : Fld} (h : f.ctorIdx = g.ctorIdx) : f = g := by
  rw [← Fld.ofNat_ctorIdx f, ← Fld.ofNat_ctorIdx g, h]

/-- Every instance of every field has a key of its own. -/
theorem key_inj {f g : Fld} {i j i' j' : Nat} (h : f.key i j = g.key i' j') : f = g ∧ i = i' ∧ j = j' := by
  unfold Fld.key at h
  obtain ⟨h1, h2⟩ := Nat.pair_eq_pair.1 h
  obtain ⟨h3, h4⟩ := Nat.pair_eq_pair.1 h2
  exact ⟨fld_ctorIdx_inj h1, h3, h4⟩

/-- A field read after a write of the same instance gives the value written, cut to the field's width. -/
@[simp] theorem rd_wr_same (s : State) (f : Fld) (v i j : Nat) : (s.wr f v i j).rd f i j = v % 2 ^ f.width := by
  simp [State.rd, State.wr]

/-- A write leaves every other instance alone. -/
theorem rd_wr_ne (s : State) {f g : Fld} (v : Nat) {i j i' j' : Nat} (h : ¬(f = g ∧ i = i' ∧ j = j')) :
    (s.wr f v i j).rd g i' j' = s.rd g i' j' := by
  unfold State.rd State.wr
  exact tget_tset_ne _ _ _ _ (fun e => h (key_inj e))

/-- A write of one field leaves every other field alone. -/
@[simp] theorem rd_wr_fld (s : State) {f g : Fld} (v i j i' j' : Nat) (h : f ≠ g) :
    (s.wr f v i j).rd g i' j' = s.rd g i' j' := rd_wr_ne s v (fun e => h e.1)

/-- A field depends on the registers alone. -/
theorem rd_congr {s t : State} (h : s.regs = t.regs) (f : Fld) (i j : Nat) : s.rd f i j = t.rd f i j := by
  unfold State.rd; rw [h]

@[simp] theorem rd_emit (s : State) (w : Wire) (h : Fld) (i₁ j₁ : Nat) : (s.emit w).rd h i₁ j₁ = s.rd h i₁ j₁ := rd_congr (emit_regs s w) h i₁ j₁
@[simp] theorem rd_free (s : State) (h : Fld) (i₁ j₁ : Nat) : (s.free.2).rd h i₁ j₁ = s.rd h i₁ j₁ := rd_congr (free_regs s) h i₁ j₁
@[simp] theorem rd_applyStaged (s : State) (f : Fld) (i j : Nat) (h : Fld) (i₁ j₁ : Nat) : (s.applyStaged f i j).rd h i₁ j₁ = s.rd h i₁ j₁ := rd_congr (applyStaged_regs s f i j) h i₁ j₁
@[simp] theorem rd_withMem (s : State) (m : List Host.Cell) (h : Fld) (i₁ j₁ : Nat) : (s.withMem m).rd h i₁ j₁ = s.rd h i₁ j₁ := rd_congr (withMem_regs s m) h i₁ j₁
@[simp] theorem rd_updPort (s : State) (p : Nat) (f : Port → Port) (h : Fld) (i₁ j₁ : Nat) : (s.updPort p f).rd h i₁ j₁ = s.rd h i₁ j₁ := rd_congr (updPort_regs s p f) h i₁ j₁
@[simp] theorem rd_updAgent (s : State) (id : Nat) (f : Agent → Agent) (h : Fld) (i₁ j₁ : Nat) : (s.updAgent id f).rd h i₁ j₁ = s.rd h i₁ j₁ := rd_congr (updAgent_regs s id f) h i₁ j₁
@[simp] theorem rd_setExtent (s : State) (i : Nat) (x : Extent) (h : Fld) (i₁ j₁ : Nat) : (s.setExtent i x).rd h i₁ j₁ = s.rd h i₁ j₁ := rd_congr (setExtent_regs s i x) h i₁ j₁
@[simp] theorem rd_setPsn (s : State) (l : Nat) (v : Bool) (h : Fld) (i₁ j₁ : Nat) : (s.setPsn l v).rd h i₁ j₁ = s.rd h i₁ j₁ := rd_congr (setPsn_regs s l v) h i₁ j₁
@[simp] theorem rd_setSusp (s : State) (l : Nat) (v : Bool) (h : Fld) (i₁ j₁ : Nat) : (s.setSusp l v).rd h i₁ j₁ = s.rd h i₁ j₁ := rd_congr (setSusp_regs s l v) h i₁ j₁
@[simp] theorem rd_raise (s : State) (c u : Nat) (h : Fld) (i₁ j₁ : Nat) : (s.raise c u).rd h i₁ j₁ = s.rd h i₁ j₁ := rd_congr (raise_regs s c u) h i₁ j₁
@[simp] theorem rd_wait (s : State) (r : Req) (c k : Nat) (h : Fld) (i₁ j₁ : Nat) : (s.wait r c k).rd h i₁ j₁ = s.rd h i₁ j₁ := rd_congr (wait_regs s r c k) h i₁ j₁
@[simp] theorem rd_setSlot (s : State) (k : Nat) (x : OpSlot) (h : Fld) (i₁ j₁ : Nat) : (s.setSlot k x).rd h i₁ j₁ = s.rd h i₁ j₁ := rd_congr (setSlot_regs s k x) h i₁ j₁
@[simp] theorem rd_setPower (s : State) (x : Power) (h : Fld) (i₁ j₁ : Nat) : (s.setPower x).rd h i₁ j₁ = s.rd h i₁ j₁ := rd_congr (setPower_regs s x) h i₁ j₁
@[simp] theorem rd_setKeys (s : State) (k : Keys) (h : Fld) (i₁ j₁ : Nat) : (s.setKeys k).rd h i₁ j₁ = s.rd h i₁ j₁ := rd_congr (setKeys_regs s k) h i₁ j₁
@[simp] theorem rd_withTap (s : State) (t : Tap) (h : Fld) (i₁ j₁ : Nat) : (s.withTap t).rd h i₁ j₁ = s.rd h i₁ j₁ := rd_congr (withTap_regs s t) h i₁ j₁
@[simp] theorem rd_sendVector (s : State) (v : Nat) (h : Fld) (i₁ j₁ : Nat) : (s.sendVector v).rd h i₁ j₁ = s.rd h i₁ j₁ := rd_congr (sendVector_regs s v) h i₁ j₁
@[simp] theorem rd_flashWrite (s : State) (a : Nat) (bs : List Byte) (h : Fld) (i₁ j₁ : Nat) : (s.flashWrite a bs).rd h i₁ j₁ = s.rd h i₁ j₁ := rd_congr (flashWrite_regs s a bs) h i₁ j₁
@[simp] theorem rd_flashErase (s : State) (a n : Nat) (h : Fld) (i₁ j₁ : Nat) : (s.flashErase a n).rd h i₁ j₁ = s.rd h i₁ j₁ := rd_congr (flashErase_regs s a n) h i₁ j₁

@[simp] theorem rd_raiseBits (s : State) (f : Fld) (v i j : Nat) (h : Fld) (i₁ j₁ : Nat) :
    (s.raiseBits f v i j).rd h i₁ j₁ = (s.wr f (s.rd f i j ||| v) i j).rd h i₁ j₁ := rd_congr rfl h i₁ j₁

/-- Setting a cause touches GLB_IRQ_STAT alone. -/
@[simp] theorem rd_irq (s : State) (c : Nat) {g : Fld} (i j : Nat) (h : g ≠ .GLB_IRQ_STAT_CAUSE) :
    (s.irq c).rd g i j = s.rd g i j := by
  unfold State.irq; dsimp only
  split
  · simp [Ne.symm h]
  · split <;> simp [Ne.symm h]

/-- A host command's end touches GLB_CMD_DONE and GLB_IRQ_STAT alone. -/
@[simp] theorem rd_cmdDone (s : State) (b : Nat) {g : Fld} (i j : Nat) (h : g ≠ .GLB_IRQ_STAT_CAUSE)
    (h' : g ≠ .GLB_CMD_DONE_DONE) : (s.cmdDone b).rd g i j = s.rd g i j := by
  simp [State.cmdDone, h, Ne.symm h']

/-- A record for the flash touches EVT_FLOG_DROP alone. -/
@[simp] theorem rd_queueFlash (s : State) (r : List Byte) (o m : List (List Byte)) {g : Fld} (i j : Nat)
    (h : g ≠ .EVT_FLOG_DROP_COUNT) : (s.queueFlash r o m).rd g i j = s.rd g i j := by
  unfold State.queueFlash; dsimp only
  split
  · rfl
  · unfold State.bump; rw [rd_wr_fld _ _ _ _ _ _ (Ne.symm h)]; rfl

/-- Logging an event touches EVT_LOG_IDX, EVT_FLOG_DROP and GLB_IRQ_STAT alone. -/
@[simp] theorem rd_logEvent (s : State) (n o v : Nat) (mk : Nat → List Byte) {g : Fld} (i j : Nat) (h : g ≠ .EVT_LOG_IDX_NEXT)
    (h' : g ≠ .EVT_FLOG_DROP_COUNT) (h'' : g ≠ .GLB_IRQ_STAT_CAUSE) : (s.logEvent n o v mk).rd g i j = s.rd g i j := by
  have key : ∀ r, (({ s with tel := r } : State).advance .EVT_LOG_IDX_NEXT).rd g i j = s.rd g i j := by
    intro r; unfold State.advance; rw [rd_wr_fld _ _ _ _ _ _ (Ne.symm h)]; rfl
  unfold State.logEvent; dsimp only
  split <;> split
  · rw [rd_irq _ _ _ _ h'', rd_queueFlash _ _ _ _ _ _ h', key]
  · rw [rd_queueFlash _ _ _ _ _ _ h', key]
  · rw [rd_irq _ _ _ _ h'']; exact key _
  · exact key _

/-- An event touches EVT_LOG_IDX, EVT_FLOG_DROP and GLB_IRQ_STAT alone. -/
@[simp] theorem rd_event (s : State) (e : Ev) (u a b : Nat) {g : Fld} (i j : Nat) (h : g ≠ .EVT_LOG_IDX_NEXT)
    (h' : g ≠ .EVT_FLOG_DROP_COUNT) (h'' : g ≠ .GLB_IRQ_STAT_CAUSE) : (s.event e u a b).rd g i j = s.rd g i j := by
  unfold State.event
  split
  · rfl
  · exact rd_logEvent _ _ _ _ _ _ _ h h' h''

/-- What becomes of an event: in DSLEEP its record is held, and otherwise logged at once (R489; Table 24.3, row 6). -/
theorem event_cases (s : State) (e : Ev) (u a b : Nat) :
    (s.rd .PWR_STAT_STATE = 3 ∧
      s.event e u a b = { s with tel := { s.tel with heldRecs := s.tel.heldRecs ++ [evRecord s.now e u a b 0] } }) ∨
    (s.rd .PWR_STAT_STATE ≠ 3 ∧ s.event e u a b = s.logEvent s.now (e.code * 65536 + u % 65536) e.sev (evRecord s.now e u a b)) := by
  unfold State.event
  split <;> simp [*]

/-- The tenant state changes with the TENANT cause. -/
@[simp] theorem rd_setTenant (s : State) (st : Nat) {g : Fld} (i j : Nat) (h : g ≠ .SEC_TEN_STAT_STATE)
    (h' : g ≠ .GLB_IRQ_STAT_CAUSE) : (s.setTenant st).rd g i j = s.rd g i j := by
  unfold State.setTenant
  split
  · rfl
  · rw [rd_irq _ _ _ _ h', rd_wr_fld _ _ _ _ _ _ (Ne.symm h)]

end Sys2Proof.Machine
end

