-- ==== Sys2Proof/Laws/Settle.lean ====
section
/-! SUPPORT. The end of every command: with nothing waiting, settling changes nothing. -/

namespace Sys2Proof.Machine

theorem reportAll_nil (s : State) (n : Nat) (h : s.rcv.raised = []) : s.reportAll n = s := by
  cases n with
  | zero => rfl
  | succ n => simp [State.reportAll, h]

theorem queueHeld_none (s : State) (h : ∀ x ∈ s.sw.ing, x.held = false) : s.queueHeld = s := by
  have e : s.sw.ing.filter (·.held) = [] := by
    rw [List.filter_eq_nil_iff]; intro x hx; simp [h x hx]
  simp [State.queueHeld, e]

theorem tasks_none (s : State) (ho : s.busy.objOp = 0) (hr : s.busy.rcmpEvict = false) : s.tasks = s := by
  simp [State.tasks, State.objRun, State.objAdvance, State.walk, ho, hr]

theorem resume_none (s : State) (h : s.home.waits = []) : s.resume = s := by
  simp [State.resume, State.resumeN, h]

theorem grantVoq_none (s : State) (n : Nat) (h : s.sw.voq = []) : s.grantVoq n = s := by
  cases n <;> simp [State.grantVoq, State.nextVoq, h]

theorem takeHacks_none (s : State) (h : s.coh.hacks = []) : s.takeHacks = s := by
  have e : ({ s.coh with hacks := [] } : Coh) = s.coh := by rw [← h]
  simp [State.takeHacks, h, e]

theorem grantAgain_none (s : State) (h : s.movedReads = []) : s.grantAgain = s := by simp [State.grantAgain, h]

theorem losePins_none (s : State) (h : ∀ e ∈ s.rcv.pins, e.2 < 2) : s.losePins = s := by
  have e : s.rcv.pins.filter (fun e => decide (2 ≤ e.2)) = [] := by
    rw [List.filter_eq_nil_iff]; intro x hx; have := h x hx; simp; omega
  simp [State.losePins, e]

/-- With nothing waiting, settling changes nothing. -/
theorem settle_quiet (s : State) (h : s.Quiet) : s.settle = s := by
  obtain ⟨h1, h2, h3, h4, h5, h6, h7, h8, h9⟩ := h
  simp only [State.settle, losePins_none s h9, reportAll_nil s _ h1, queueHeld_none s h6, tasks_none s h4 h5, resume_none s h2,
    grantAgain_none s h8, takeHacks_none s h7, grantVoq_none s _ h3]

/-- A command that answers `t.settle` runs to `t`. -/
theorem runs_of {c : Instr} {s t : State} (h : exec c s = .next t.settle) : Runs c s t :=
  ⟨h, fun hq => by rw [h, settle_quiet t hq]⟩

end Sys2Proof.Machine
end

