-- ==== Sys2Proof/Laws/Keeps.lean ====
section
/-! SUPPORT. What every operation of the device keeps: the queue of waiting commands, the fuses, and the canonical form of the
pool's memory. Here the relation and how it goes through choices, folds and records; the files KeepsPool to KeepsDeviceRows
hold one lemma for each operation and command, in the order of the model's files. -/

namespace Sys2Proof.Laws


open Sys2Proof Sys2Proof.Machine

/-- The later state has the earlier one's queue, its fuses but for a minimum security version that may be higher, and a
memory in canonical form if the earlier one's was. -/
structure Keeps (s₀ s : State) : Prop where
  pending : s.pending = s₀.pending
  svn : s₀.boot.fuses.minSvn ≤ s.boot.fuses.minSvn
  fuses : s.boot.fuses = { s₀.boot.fuses with minSvn := s.boot.fuses.minSvn }
  mem : s₀.MemOk → s.MemOk

theorem Keeps.refl (s : State) : Keeps s s := ⟨rfl, le_refl _, rfl, id⟩

/-- A change of other fields. -/
theorem Keeps.upd {s₀ s t : State} (h : Keeps s₀ s) (h1 : t.pending = s.pending) (h2 : t.boot.fuses = s.boot.fuses)
    (h3 : t.pool.mem = s.pool.mem) : Keeps s₀ t :=
  ⟨h1.trans h.pending, by rw [h2]; exact h.svn, by rw [h2]; exact h.fuses,
    fun k => by have := h.mem k; unfold State.MemOk at *; rw [h3]; exact this⟩

/-- Through a choice. -/
theorem Keeps.ite {s₀ s t : State} {c : Prop} [Decidable c] (hs : Keeps s₀ s) (ht : Keeps s₀ t) :
    Keeps s₀ (if c then s else t) := by split <;> assumption

theorem Keeps.ite2 {α : Type} {s₀ : State} {a b : α × State} {c : Prop} [Decidable c] (hs : Keeps s₀ a.2) (ht : Keeps s₀ b.2) :
    Keeps s₀ (if c then a else b).2 := by split <;> assumption

/-- Through a fold. -/
theorem Keeps.foldl {α : Type} {s₀ : State} {f : State → α → State} (l : List α) {s : State} (h : Keeps s₀ s)
    (hf : ∀ s a, Keeps s₀ s → Keeps s₀ (f s a)) : Keeps s₀ (l.foldl f s) := by
  induction l generalizing s with
  | nil => exact h
  | cons a l ih => exact ih (hf s a h)

theorem Keeps.foldl2 {α β : Type} {s₀ : State} {f : β × State → α → β × State} (l : List α) {s : β × State} (h : Keeps s₀ s.2)
    (hf : ∀ (s : β × State) a, Keeps s₀ s.2 → Keeps s₀ (f s a).2) : Keeps s₀ (l.foldl f s).2 := by
  induction l generalizing s with
  | nil => exact h
  | cons a l ih => exact ih (hf s a h)

theorem Keeps.foldl3 {α β γ : Type} {s₀ : State} {f : β × γ × State → α → β × γ × State} (l : List α) {s : β × γ × State}
    (h : Keeps s₀ s.2.2) (hf : ∀ (s : β × γ × State) a, Keeps s₀ s.2.2 → Keeps s₀ (f s a).2.2) :
    Keeps s₀ (l.foldl f s).2.2 := by
  induction l generalizing s with
  | nil => exact h
  | cons a l ih => exact ih (hf s a h)

theorem Keeps.foldl1 {α β : Type} {s₀ : State} {f : State × β → α → State × β} (l : List α) {s : State × β} (h : Keeps s₀ s.1)
    (hf : ∀ (s : State × β) a, Keeps s₀ s.1 → Keeps s₀ (f s a).1) : Keeps s₀ (l.foldl f s).1 := by
  induction l generalizing s with
  | nil => exact h
  | cons a l ih => exact ih (hf s a h)

/-- The memory changed to one in canonical form. -/
theorem Keeps.withMem {s₀ s : State} (h : Keeps s₀ s) (m : List Host.Cell) (hm : Memory.wf s.pool.mem → Memory.wf m) :
    Keeps s₀ (s.withMem m) := ⟨h.pending, h.svn, h.fuses, fun k => hm (h.mem k)⟩

/-- A record of a state with its queue, fuses and memory. -/
theorem Keeps.lit {s₀ s : State} (h : Keeps s₀ s) {regs ports agents sw home tier coh rgf chans scn rcv power clk busy host tel
    tap out nextId freeCtr} {pool : Pool} {boot : Boot} (hb : boot.fuses = s.boot.fuses) (hp : pool.mem = s.pool.mem) :
    Keeps s₀ ⟨s.pending, regs, ports, agents, sw, home, pool, tier, coh, rgf, chans, scn, rcv, boot, power, clk, busy, host,
      tel, tap, out, nextId, freeCtr⟩ := h.upd rfl hb hp

/-- A record of a state with its queue and fuses, its memory changed to one in canonical form. -/
theorem Keeps.litMem {s₀ s : State} (h : Keeps s₀ s) {regs ports agents sw home tier coh rgf chans scn rcv power clk busy host tel
    tap out nextId freeCtr} {pool : Pool} {boot : Boot} (hb : boot.fuses = s.boot.fuses)
    (hp : Memory.wf s.pool.mem → Memory.wf pool.mem) :
    Keeps s₀ ⟨s.pending, regs, ports, agents, sw, home, pool, tier, coh, rgf, chans, scn, rcv, boot, power, clk, busy, host,
      tel, tap, out, nextId, freeCtr⟩ :=
  ⟨h.pending, by show _ ≤ boot.fuses.minSvn; rw [hb]; exact h.svn, by show boot.fuses = _; rw [hb]; exact h.fuses,
    fun k => hp (h.mem k)⟩

end Sys2Proof.Laws
end

