-- ==== Sys2Proof/Laws/KeepsPool.lean ====
section
/-! SUPPORT. What operations keep:
the registers, the flash, the pool, the fabric, the tiers and the homes. -/

namespace Sys2Proof.Laws

open Sys2Proof Sys2Proof.Machine

/-! ### Sys2Proof/Machine/Ops.lean -/

theorem Keeps.wr {s₀ s : State} (hk : Keeps s₀ s) (f : Fld) (v : Nat) (i : Nat) (j : Nat) :
    Keeps s₀ (State.wr s f v i j) := by
  unfold State.wr
  exact Keeps.lit hk rfl rfl

theorem Keeps.bump {s₀ s : State} (hk : Keeps s₀ s) (f : Fld) (i : Nat) (j : Nat) (n : Nat) :
    Keeps s₀ (State.bump s f i j n) := by
  unfold State.bump
  repeat' first
    | with_reducible assumption
    | with_reducible apply Keeps.wr

theorem Keeps.advance {s₀ s : State} (hk : Keeps s₀ s) (f : Fld) (i : Nat) (j : Nat) (n : Nat) :
    Keeps s₀ (State.advance s f i j n) := by
  unfold State.advance
  repeat' first
    | with_reducible assumption
    | with_reducible apply Keeps.wr

theorem Keeps.lower {s₀ s : State} (hk : Keeps s₀ s) (f : Fld) (i : Nat) (j : Nat) (n : Nat) :
    Keeps s₀ (State.lower s f i j n) := by
  unfold State.lower
  repeat' first
    | with_reducible assumption
    | with_reducible apply Keeps.wr

theorem Keeps.applyStaged {s₀ s : State} (hk : Keeps s₀ s) (f : Fld) (i : Nat) (j : Nat) :
    Keeps s₀ (State.applyStaged s f i j) := by
  unfold State.applyStaged
  exact Keeps.lit hk rfl rfl

theorem Keeps.free {s₀ s : State} (hk : Keeps s₀ s) : Keeps s₀ (State.free s).2 := by
  unfold State.free
  repeat' first
    | with_reducible assumption
    | with_reducible rfl
    | ((conv => arg 2; arg 23); with_reducible apply Keeps.lit)
    | (dsimp -zeta only)

theorem Keeps.bumpFree {s₀ s : State} (hk : Keeps s₀ s) (f : Fld) (i : Nat) (j : Nat) :
    Keeps s₀ (State.bumpFree s f i j) := by
  unfold State.bumpFree
  repeat' first
    | with_reducible assumption
    | with_reducible apply Keeps.free
    | with_reducible apply Keeps.bump

theorem Keeps.emit {s₀ s : State} (hk : Keeps s₀ s) (w : Wire) : Keeps s₀ (State.emit s w) := by
  unfold State.emit
  exact Keeps.lit hk rfl rfl

theorem Keeps.raiseBits {s₀ s : State} (hk : Keeps s₀ s) (f : Fld) (v : Nat) (i : Nat) (j : Nat) :
    Keeps s₀ (State.raiseBits s f v i j) := by
  unfold State.raiseBits
  repeat' first
    | with_reducible assumption
    | with_reducible apply Keeps.wr
    | with_reducible rfl
    | ((conv => arg 2; arg 23); with_reducible apply Keeps.lit)
    | (extract_lets +onlyGivenNames x; refine (fun (hx : Keeps s₀ x) => ?_) ?_;
       (on_goal 2 => (unfold x; clear x)); (on_goal 1 => ((try clear_value x); revert x; intro w hw)))
    | (extract_lets +onlyGivenNames x; clear_value x; revert x; intro w)

theorem Keeps.sendVector {s₀ s : State} (hk : Keeps s₀ s) (v : Nat) : Keeps s₀ (State.sendVector s v) := by
  unfold State.sendVector
  repeat' first
    | with_reducible assumption
    | with_reducible apply Keeps.emit
    | with_reducible rfl
    | ((conv => arg 2; arg 23); with_reducible apply Keeps.lit)
    | with_reducible apply Keeps.ite

theorem Keeps.irq {s₀ s : State} (hk : Keeps s₀ s) (c : Nat) : Keeps s₀ (State.irq s c) := by
  unfold State.irq
  repeat' first
    | with_reducible assumption
    | with_reducible apply Keeps.raiseBits
    | with_reducible apply Keeps.sendVector
    | with_reducible apply Keeps.ite

theorem Keeps.cmdDone {s₀ s : State} (hk : Keeps s₀ s) (b : Nat) : Keeps s₀ (State.cmdDone s b) := by
  unfold State.cmdDone
  repeat' first
    | with_reducible assumption
    | with_reducible apply Keeps.irq
    | with_reducible apply Keeps.raiseBits

theorem Keeps.queueFlash {s₀ s : State} (hk : Keeps s₀ s) (r : List Byte) (old : List (List Byte)) (moved : List (List Byte)) :
    Keeps s₀ (State.queueFlash s r old moved) := by
  unfold State.queueFlash
  repeat' first
    | with_reducible assumption
    | with_reducible apply Keeps.bump
    | with_reducible rfl
    | ((conv => arg 2; arg 23); with_reducible apply Keeps.lit)
    | with_reducible apply Keeps.ite

theorem Keeps.logEvent {s₀ s : State} (hk : Keeps s₀ s) (time : Nat) (ord : Nat) (sev : Nat) (mk : Nat → List Byte) :
    Keeps s₀ (State.logEvent s time ord sev mk) := by
  unfold State.logEvent
  repeat' first
    | with_reducible assumption
    | with_reducible apply Keeps.advance
    | with_reducible apply Keeps.queueFlash
    | with_reducible apply Keeps.irq
    | with_reducible rfl
    | ((conv => arg 2; arg 23); with_reducible apply Keeps.lit)
    | with_reducible apply Keeps.ite

theorem Keeps.event {s₀ s : State} (hk : Keeps s₀ s) (e : Ev) (unit : Nat) (arg0 : Nat) (arg1 : Nat) :
    Keeps s₀ (State.event s e unit arg0 arg1) := by
  unfold State.event
  repeat' first
    | with_reducible assumption
    | with_reducible apply Keeps.logEvent
    | with_reducible rfl
    | ((conv => arg 2; arg 23); with_reducible apply Keeps.lit)
    | with_reducible apply Keeps.ite

theorem Keeps.logHeld {s₀ s : State} (hk : Keeps s₀ s) : Keeps s₀ (State.logHeld s) := by
  unfold State.logHeld
  repeat' first
    | with_reducible assumption
    | (intro a)
    | with_reducible apply Keeps.logEvent
    | with_reducible rfl
    | ((conv => arg 2; arg 23); with_reducible apply Keeps.lit)
    | with_reducible apply Keeps.foldl

theorem Keeps.updPort {s₀ s : State} (hk : Keeps s₀ s) (p : Nat) (f : Port → Port) : Keeps s₀ (State.updPort s p f) := by
  unfold State.updPort
  exact Keeps.lit hk rfl rfl

theorem Keeps.updAgent {s₀ s : State} (hk : Keeps s₀ s) (id : Nat) (f : Agent → Agent) :
    Keeps s₀ (State.updAgent s id f) := by
  unfold State.updAgent
  exact Keeps.lit hk rfl rfl

/-! ### Sys2Proof/Machine/Flash.lean -/

theorem Keeps.flashWrite {s₀ s : State} (hk : Keeps s₀ s) (a : Nat) (bs : List Byte) :
    Keeps s₀ (State.flashWrite s a bs) := by
  unfold State.flashWrite
  repeat' first
    | with_reducible assumption
    | with_reducible rfl
    | ((conv => arg 2; arg 23); with_reducible apply Keeps.lit)
    | (extract_lets +onlyGivenNames x; clear_value x; revert x; intro w)

theorem Keeps.flashErase {s₀ s : State} (hk : Keeps s₀ s) (a : Nat) (n : Nat) : Keeps s₀ (State.flashErase s a n) := by
  unfold State.flashErase
  exact Keeps.lit hk rfl rfl

theorem Keeps.flashRecord {s₀ s : State} (hk : Keeps s₀ s) (base : Nat) (size : Nat) (i : Nat) (bs : List Byte) :
    Keeps s₀ (State.flashRecord s base size i bs) := by
  unfold State.flashRecord
  repeat' first
    | with_reducible assumption
    | with_reducible apply Keeps.flashErase
    | with_reducible apply Keeps.flashWrite
    | with_reducible apply Keeps.ite

theorem Keeps.rmap {s₀ s : State} (hk : Keeps s₀ s) (kind : Nat) (unit : Nat) (index : Nat) (detail : Nat) :
    Keeps s₀ (State.rmap s kind unit index detail) := by
  unfold State.rmap
  repeat' first
    | with_reducible assumption
    | with_reducible apply Keeps.wr
    | with_reducible apply Keeps.flashWrite
    | with_reducible apply Keeps.event
    | with_reducible apply Keeps.ite
    | split

theorem Keeps.healthLog {s₀ s : State} (hk : Keeps s₀ s) : Keeps s₀ (State.healthLog s) := by
  unfold State.healthLog
  repeat' first
    | with_reducible assumption
    | with_reducible apply Keeps.flashRecord
    | with_reducible rfl
    | ((conv => arg 2; arg 23); with_reducible apply Keeps.lit)
    | (extract_lets +onlyGivenNames x; refine (fun (hx : Keeps s₀ x) => ?_) ?_;
       (on_goal 2 => (unfold x; clear x)); (on_goal 1 => ((try clear_value x); revert x; intro w hw)))

theorem Keeps.setDegraded {s₀ s : State} (hk : Keeps s₀ s) (b : Nat) (v : Bool) : Keeps s₀ (State.setDegraded s b v) := by
  unfold State.setDegraded
  repeat' first
    | with_reducible assumption
    | with_reducible apply Keeps.healthLog
    | with_reducible apply Keeps.event
    | with_reducible apply Keeps.irq
    | with_reducible apply Keeps.wr
    | with_reducible apply Keeps.ite

/-! ### Sys2Proof/Machine/Pool.lean -/

theorem Keeps.wake {s₀ s : State} (hk : Keeps s₀ s) (b : Nat) : Keeps s₀ (State.wake s b) := by
  unfold State.wake
  repeat' first
    | with_reducible assumption
    | with_reducible apply Keeps.wr
    | with_reducible rfl
    | ((conv => arg 2; arg 23); with_reducible apply Keeps.lit)
    | with_reducible apply Keeps.ite
    | (extract_lets +onlyGivenNames x; refine (fun (hx : Keeps s₀ x) => ?_) ?_;
       (on_goal 2 => (unfold x; clear x)); (on_goal 1 => ((try clear_value x); revert x; intro w hw)))

theorem Keeps.setExtent {s₀ s : State} (hk : Keeps s₀ s) (i : Nat) (x : Extent) : Keeps s₀ (State.setExtent s i x) := by
  unfold State.setExtent
  exact Keeps.lit hk rfl rfl

theorem Keeps.setPsn {s₀ s : State} (hk : Keeps s₀ s) (l : Nat) (v : Bool) : Keeps s₀ (State.setPsn s l v) := by
  unfold State.setPsn
  exact Keeps.lit hk rfl rfl

theorem Keeps.setSusp {s₀ s : State} (hk : Keeps s₀ s) (pg : Nat) (v : Bool) : Keeps s₀ (State.setSusp s pg v) := by
  unfold State.setSusp
  exact Keeps.lit hk rfl rfl

theorem Keeps.clearSym {s₀ s : State} (hk : Keeps s₀ s) (l : Nat) : Keeps s₀ (State.clearSym s l) := by
  unfold State.clearSym
  exact Keeps.lit hk rfl rfl

theorem Keeps.putLine {s₀ s : State} (hk : Keeps s₀ s) (l : Nat) (off : Nat) (bs : List Byte) :
    Keeps s₀ (State.putLine s l off bs) := by
  unfold State.putLine
  repeat' first
    | with_reducible assumption
    | (intro a)
    | with_reducible apply Keeps.withMem
    | exact memWrite_wf _ _ _ (by assumption)

theorem Keeps.raise {s₀ s : State} (hk : Keeps s₀ s) (cls : Nat) (unit : Nat) : Keeps s₀ (State.raise s cls unit) := by
  unfold State.raise
  exact Keeps.lit hk rfl rfl

theorem Keeps.raiseRow {s₀ s : State} (hk : Keeps s₀ s) (l : Nat) : Keeps s₀ (State.raiseRow s l) := by
  unfold State.raiseRow
  repeat' first
    | with_reducible assumption
    | with_reducible apply Keeps.raise
    | with_reducible rfl
    | ((conv => arg 2; arg 23); with_reducible apply Keeps.lit)

theorem Keeps.countCe {s₀ s : State} (hk : Keeps s₀ s) (l : Nat) : Keeps s₀ (State.countCe s l) := by
  unfold State.countCe
  repeat' first
    | with_reducible assumption
    | with_reducible apply Keeps.bump
    | with_reducible apply Keeps.raiseRow
    | with_reducible rfl
    | ((conv => arg 2; arg 23); with_reducible apply Keeps.lit)
    | with_reducible apply Keeps.ite
    | (dsimp -zeta only)

theorem Keeps.keepCopy {s₀ s : State} (hk : Keeps s₀ s) (l : Nat) : Keeps s₀ (State.keepCopy s l) := by
  unfold State.keepCopy
  repeat' first
    | with_reducible assumption
    | with_reducible rfl
    | ((conv => arg 2; arg 23); with_reducible apply Keeps.lit)
    | with_reducible apply Keeps.ite
    | (extract_lets +onlyGivenNames x; clear_value x; revert x; intro w)
    | split

theorem Keeps.poisonUe {s₀ s : State} (hk : Keeps s₀ s) (l : Nat) : Keeps s₀ (State.poisonUe s l) := by
  unfold State.poisonUe
  repeat' first
    | with_reducible assumption
    | with_reducible apply Keeps.setPsn
    | with_reducible apply Keeps.putLine
    | with_reducible apply Keeps.clearSym
    | with_reducible apply Keeps.keepCopy
    | with_reducible apply Keeps.raiseRow
    | with_reducible apply Keeps.event
    | with_reducible apply Keeps.bump
    | with_reducible rfl
    | ((conv => arg 2; arg 23); with_reducible apply Keeps.lit)

theorem Keeps.freeLine {s₀ s : State} (hk : Keeps s₀ s) : Keeps s₀ (State.freeLine s).2 := by
  unfold State.freeLine
  repeat' first
    | with_reducible assumption
    | with_reducible apply Keeps.free

theorem Keeps.checkLine {s₀ s : State} (hk : Keeps s₀ s) (l : Nat) : Keeps s₀ (State.checkLine s l).2 := by
  unfold State.checkLine
  repeat' first
    | with_reducible assumption
    | with_reducible apply Keeps.countCe
    | with_reducible apply Keeps.clearSym
    | with_reducible apply Keeps.poisonUe
    | with_reducible apply Keeps.free
    | with_reducible apply Keeps.freeLine
    | with_reducible apply Keeps.putLine
    | with_reducible apply Keeps.keepCopy
    | with_reducible apply Keeps.ite2
    | (extract_lets +onlyGivenNames x; refine (fun (hx : Keeps s₀ x.2) => ?_) ?_;
       (on_goal 2 => (unfold x; clear x)); (on_goal 1 => ((try clear_value x); revert x; intro w hw)))
    | split

theorem Keeps.readLine {s₀ s : State} (hk : Keeps s₀ s) (l : Nat) : Keeps s₀ (State.readLine s l).2 := by
  unfold State.readLine
  repeat' first
    | with_reducible assumption
    | with_reducible apply Keeps.checkLine
    | with_reducible apply Keeps.bump
    | with_reducible apply Keeps.ite

theorem Keeps.writeLine {s₀ s : State} (hk : Keeps s₀ s) (l : Nat) (off : Nat) (bs : List Byte) (psn : Bool) :
    Keeps s₀ (State.writeLine s l off bs psn).2 := by
  unfold State.writeLine
  repeat' first
    | with_reducible assumption
    | with_reducible apply Keeps.setPsn
    | with_reducible apply Keeps.putLine
    | with_reducible apply Keeps.clearSym
    | with_reducible apply Keeps.checkLine
    | with_reducible apply Keeps.ite2

theorem Keeps.chargeOasis {s₀ s : State} (hk : Keeps s₀ s) (slc : Nat) (n : Nat) : Keeps s₀ (State.chargeOasis s slc n) := by
  unfold State.chargeOasis
  repeat' first
    | with_reducible assumption
    | with_reducible apply Keeps.advance

theorem Keeps.creditOasis {s₀ s : State} (hk : Keeps s₀ s) (slc : Nat) (n : Nat) : Keeps s₀ (State.creditOasis s slc n) := by
  unfold State.creditOasis
  repeat' first
    | with_reducible assumption
    | with_reducible apply Keeps.lower

/-! ### Sys2Proof/Machine/Fabric.lean -/

theorem Keeps.cross {s₀ s : State} (hk : Keeps s₀ s) (org : Nat) (p : Nat) (cls : Nat) (sub : Nat) (m : Msg)
    (ing : Option Nat) (cut : Bool) :
    Keeps s₀ (State.cross s org p cls sub m ing cut) := by
  unfold State.cross
  repeat' first
    | with_reducible assumption
    | with_reducible rfl
    | ((conv => arg 2; arg 23); with_reducible apply Keeps.lit)
    | (extract_lets +onlyGivenNames x; clear_value x; revert x; intro w)

theorem Keeps.crossCopies {s₀ s : State} (hk : Keeps s₀ s) (cs : List Cross) : Keeps s₀ (State.crossCopies s cs) := by
  unfold State.crossCopies
  repeat' first
    | with_reducible assumption
    | with_reducible rfl
    | ((conv => arg 2; arg 23); with_reducible apply Keeps.lit)
    | (extract_lets +onlyGivenNames x; clear_value x; revert x; intro w)
    | split

theorem Keeps.send {s₀ s : State} (hk : Keeps s₀ s) (org : Nat) (p : Nat) (cls : Nat) (sub : Nat) (m : Msg)
    (ing : Option Nat) (cut : Bool) :
    Keeps s₀ (State.send s org p cls sub m ing cut) := by
  unfold State.send
  repeat' first
    | with_reducible assumption
    | with_reducible apply Keeps.cross
    | with_reducible rfl
    | ((conv => arg 2; arg 23); with_reducible apply Keeps.lit)
    | with_reducible apply Keeps.ite
    | (extract_lets +onlyGivenNames x; clear_value x; revert x; intro w)

theorem Keeps.toEgress {s₀ s : State} (hk : Keeps s₀ s) (p : Nat) (cls : Nat) (sub : Nat) (m : Msg) (mcast : Option Nat)
    (plane : Nat) (cut : Bool) :
    Keeps s₀ (State.toEgress s p cls sub m mcast plane cut) := by
  unfold State.toEgress
  repeat' first
    | with_reducible assumption
    | with_reducible apply Keeps.advance
    | with_reducible rfl
    | ((conv => arg 2; arg 23); with_reducible apply Keeps.lit)

theorem Keeps.sendLocal {s₀ s : State} (hk : Keeps s₀ s) (p : Nat) (cls : Nat) (sub : Nat) (m : Msg) :
    Keeps s₀ (State.sendLocal s p cls sub m) := by
  unfold State.sendLocal
  repeat' first
    | with_reducible assumption
    | with_reducible apply Keeps.toEgress
    | with_reducible rfl
    | ((conv => arg 2; arg 23); with_reducible apply Keeps.lit)
    | with_reducible apply Keeps.ite
    | (extract_lets +onlyGivenNames x; clear_value x; revert x; intro w)

theorem Keeps.grantVoq {s₀ s : State} (hk : Keeps s₀ s) (n : Nat) : Keeps s₀ (State.grantVoq s n) := by
  induction n generalizing s  with
  | zero =>
    unfold State.grantVoq
    repeat' first
      | with_reducible assumption
  | succ n ih =>
    unfold State.grantVoq
    repeat' first
      | with_reducible assumption
      | with_reducible apply ih
      | with_reducible apply Keeps.toEgress
      | with_reducible apply Keeps.cross
      | with_reducible apply Keeps.crossCopies
      | with_reducible rfl
      | ((conv => arg 2; arg 23); with_reducible apply Keeps.lit)
      | with_reducible apply Keeps.ite
      | (extract_lets +onlyGivenNames x; refine (fun (hx : Keeps s₀ x) => ?_) ?_;
         (on_goal 2 => (unfold x; clear x)); (on_goal 1 => ((try clear_value x); revert x; intro w hw)))
      | (extract_lets +onlyGivenNames x; clear_value x; revert x; intro w)
      | split

theorem Keeps.sendLegs {s₀ s : State} (hk : Keeps s₀ s) (org : Nat) (ls : List Leg) : Keeps s₀ (State.sendLegs s org ls) := by
  unfold State.sendLegs
  repeat' first
    | with_reducible assumption
    | (intro a)
    | with_reducible apply Keeps.bump
    | with_reducible apply Keeps.crossCopies
    | with_reducible rfl
    | ((conv => arg 2; arg 23); with_reducible apply Keeps.lit)
    | with_reducible apply Keeps.ite
    | with_reducible apply Keeps.foldl
    | (extract_lets +onlyGivenNames x; clear_value x; revert x; intro w)
    | split

theorem Keeps.sendMulti {s₀ s : State} (hk : Keeps s₀ s) (org : Nat) (ps : List Nat) (cls : Nat) (sub : Nat) (m : Msg) :
    Keeps s₀ (State.sendMulti s org ps cls sub m) := by
  unfold State.sendMulti
  repeat' first
    | with_reducible assumption
    | with_reducible apply Keeps.sendLegs

theorem Keeps.mcastFill {s₀ s : State} (hk : Keeps s₀ s) : Keeps s₀ (State.mcastFill s) := by
  unfold State.mcastFill
  repeat' first
    | with_reducible assumption
    | (intro a)
    | with_reducible rfl
    | ((conv => arg 2; arg 23); with_reducible apply Keeps.lit)
    | with_reducible apply Keeps.ite
    | with_reducible apply Keeps.foldl
    | (extract_lets +onlyGivenNames x; clear_value x; revert x; intro w)
    | split

theorem Keeps.mcastDone {s₀ s : State} (hk : Keeps s₀ s) (n : Option Nat) : Keeps s₀ (State.mcastDone s n) := by
  unfold State.mcastDone
  repeat' first
    | with_reducible assumption
    | with_reducible apply Keeps.mcastFill
    | with_reducible rfl
    | ((conv => arg 2; arg 23); with_reducible apply Keeps.lit)
    | (extract_lets +onlyGivenNames x; clear_value x; revert x; intro w)
    | split

theorem Keeps.egrTake {s₀ s : State} (hk : Keeps s₀ s) (cs : List Cross) : Keeps s₀ (State.egrTake s cs) := by
  unfold State.egrTake
  repeat' first
    | with_reducible assumption
    | with_reducible apply Keeps.advance
    | split

theorem Keeps.egrFree {s₀ s : State} (hk : Keeps s₀ s) (cs : List Cross) : Keeps s₀ (State.egrFree s cs) := by
  unfold State.egrFree
  repeat' first
    | with_reducible assumption
    | (intro a)
    | with_reducible apply Keeps.lower
    | with_reducible apply Keeps.foldl

theorem Keeps.egrGive {s₀ s : State} (hk : Keeps s₀ s) (cs : List Cross) : Keeps s₀ (State.egrGive s cs) := by
  unfold State.egrGive
  repeat' first
    | with_reducible assumption
    | with_reducible apply Keeps.lower
    | split

theorem Keeps.fromEgress {s₀ s : State} (hk : Keeps s₀ s) (x : QMsg) : Keeps s₀ (State.fromEgress s x) := by
  unfold State.fromEgress
  repeat' first
    | with_reducible assumption
    | with_reducible apply Keeps.mcastDone
    | with_reducible apply Keeps.lower
    | with_reducible rfl
    | ((conv => arg 2; arg 23); with_reducible apply Keeps.lit)

theorem Keeps.ingPlaced {s₀ s : State} (hk : Keeps s₀ s) (i : Option Nat) : Keeps s₀ (State.ingPlaced s i) := by
  unfold State.ingPlaced
  exact Keeps.lit hk rfl rfl

theorem Keeps.updSource {s₀ s : State} (hk : Keeps s₀ s) (p : Nat) (f : Source → Source) :
    Keeps s₀ (State.updSource s p f) := by
  unfold State.updSource
  repeat' first
    | with_reducible assumption
    | with_reducible apply Keeps.updPort

theorem Keeps.lotDrop {s₀ s : State} (hk : Keeps s₀ s) (p : Nat) (seq : Nat) : Keeps s₀ (State.lotDrop s p seq) := by
  unfold State.lotDrop
  exact Keeps.lit hk rfl rfl

theorem Keeps.settleSeq {s₀ s : State} (hk : Keeps s₀ s) (p : Nat) (seq : Nat) : Keeps s₀ (State.settleSeq s p seq) := by
  unfold State.settleSeq
  repeat' first
    | with_reducible assumption
    | with_reducible apply Keeps.lotDrop
    | with_reducible apply Keeps.updSource

theorem Keeps.markDone {s₀ s : State} (hk : Keeps s₀ s) (r : Req) : Keeps s₀ (State.markDone s r) := by
  unfold State.markDone
  repeat' first
    | with_reducible assumption
    | with_reducible apply Keeps.updSource
    | split

theorem Keeps.dropMerged {s₀ s : State} (hk : Keeps s₀ s) (r : Req) : Keeps s₀ (State.dropMerged s r) := by
  unfold State.dropMerged
  repeat' first
    | with_reducible assumption
    | with_reducible rfl
    | ((conv => arg 2; arg 23); with_reducible apply Keeps.lit)
    | (extract_lets +onlyGivenNames x; clear_value x; revert x; intro w)
    | split

theorem Keeps.hostComplete {s₀ s : State} (hk : Keeps s₀ s) (h : HostReq) : Keeps s₀ (State.hostComplete s h) := by
  unfold State.hostComplete
  repeat' first
    | with_reducible assumption
    | with_reducible apply Keeps.wr
    | with_reducible apply Keeps.bump
    | with_reducible apply Keeps.emit
    | with_reducible rfl
    | ((conv => arg 2; arg 23); with_reducible apply Keeps.lit)
    | with_reducible apply Keeps.ite

theorem Keeps.hostPart {s₀ s : State} (hk : Keeps s₀ s) (tag : Nat) (addr : Nat) (x : Resp) :
    Keeps s₀ (State.hostPart s tag addr x) := by
  unfold State.hostPart
  repeat' first
    | with_reducible assumption
    | with_reducible apply Keeps.hostComplete
    | with_reducible rfl
    | ((conv => arg 2; arg 23); with_reducible apply Keeps.lit)
    | with_reducible apply Keeps.ite
    | (extract_lets +onlyGivenNames x; clear_value x; revert x; intro w)
    | (dsimp -zeta only)
    | split

theorem Keeps.setSlot {s₀ s : State} (hk : Keeps s₀ s) (k : Nat) (x : OpSlot) : Keeps s₀ (State.setSlot s k x) := by
  unfold State.setSlot
  exact Keeps.lit hk rfl rfl

theorem Keeps.xferTake {s₀ s : State} (hk : Keeps s₀ s) (x : OpSlot) (r : Req) : Keeps s₀ (State.xferTake s x r) := by
  unfold State.xferTake
  repeat' first
    | with_reducible assumption
    | with_reducible apply Keeps.bump
    | with_reducible apply Keeps.setExtent
    | with_reducible apply Keeps.ite
    | (extract_lets +onlyGivenNames x; revert x; intro w)
    | split

theorem Keeps.slotAnswer {s₀ s : State} (hk : Keeps s₀ s) (id : Nat) (n : Nat) (r : Req) (x : Resp) :
    Keeps s₀ (State.slotAnswer s id n r x) := by
  unfold State.slotAnswer
  repeat' first
    | with_reducible assumption
    | with_reducible apply Keeps.setSlot
    | with_reducible apply Keeps.xferTake
    | with_reducible rfl
    | ((conv => arg 2; arg 23); with_reducible apply Keeps.lit)
    | with_reducible apply Keeps.ite

theorem Keeps.chanErr {s₀ s : State} (hk : Keeps s₀ s) (c : Nat) (st : Nat) (a : Nat) :
    Keeps s₀ (State.chanErr s c st a) := by
  unfold State.chanErr
  repeat' first
    | with_reducible assumption
    | with_reducible rfl
    | ((conv => arg 2; arg 23); with_reducible apply Keeps.lit)
    | with_reducible apply Keeps.ite

theorem Keeps.chanAnswer {s₀ s : State} (hk : Keeps s₀ s) (c : Nat) (r : Req) (x : Resp) :
    Keeps s₀ (State.chanAnswer s c r x) := by
  unfold State.chanAnswer
  repeat' first
    | with_reducible assumption
    | with_reducible apply Keeps.chanErr
    | with_reducible apply Keeps.advance
    | with_reducible rfl
    | ((conv => arg 2; arg 23); with_reducible apply Keeps.lit)
    | with_reducible apply Keeps.ite

theorem Keeps.collAnswer {s₀ s : State} (hk : Keeps s₀ s) (tag : Nat) (r : Req) (x : Resp) :
    Keeps s₀ (State.collAnswer s tag r x) := by
  unfold State.collAnswer
  repeat' first
    | with_reducible assumption
    | with_reducible rfl
    | ((conv => arg 2; arg 23); with_reducible apply Keeps.lit)
    | with_reducible apply Keeps.ite
    | (extract_lets +onlyGivenNames x; clear_value x; revert x; intro w)

theorem Keeps.mirrorDone {s₀ s : State} (hk : Keeps s₀ s) (st : Nat) : Keeps s₀ (State.mirrorDone s st) := by
  unfold State.mirrorDone
  repeat' first
    | with_reducible assumption
    | with_reducible apply Keeps.advance
    | with_reducible apply Keeps.bump
    | with_reducible rfl
    | ((conv => arg 2; arg 23); with_reducible apply Keeps.lit)
    | with_reducible apply Keeps.ite

theorem Keeps.answerFrom {s₀ s : State} (hk : Keeps s₀ s) (die : Nat) (r : Req) (x : Resp) :
    Keeps s₀ (State.answerFrom s die r x) := by
  unfold State.answerFrom
  repeat' first
    | with_reducible assumption
    | with_reducible apply Keeps.send
    | with_reducible apply Keeps.bump
    | with_reducible apply Keeps.hostPart
    | with_reducible apply Keeps.slotAnswer
    | with_reducible apply Keeps.chanAnswer
    | with_reducible apply Keeps.collAnswer
    | with_reducible apply Keeps.mirrorDone
    | with_reducible apply Keeps.ite
    | split

theorem Keeps.answer {s₀ s : State} (hk : Keeps s₀ s) (home : Nat) (r : Req) (x : Resp) :
    Keeps s₀ (State.answer s home r x) := by
  unfold State.answer
  repeat' first
    | with_reducible assumption
    | with_reducible apply Keeps.answerFrom

theorem Keeps.sendTogether {s₀ s : State} (hk : Keeps s₀ s) (org : Nat) (ls : List Leg) :
    Keeps s₀ (State.sendTogether s org ls) := by
  unfold State.sendTogether
  repeat' first
    | with_reducible assumption
    | with_reducible apply Keeps.send
    | with_reducible apply Keeps.sendLegs
    | split

theorem Keeps.answerAll {s₀ s : State} (hk : Keeps s₀ s) (home : Nat) (xs : List (Req × Resp)) :
    Keeps s₀ (State.answerAll s home xs) := by
  unfold State.answerAll
  repeat' first
    | with_reducible assumption
    | (intro a)
    | with_reducible apply Keeps.markDone
    | with_reducible apply Keeps.bump
    | with_reducible apply Keeps.sendTogether
    | with_reducible apply Keeps.foldl

theorem Keeps.finish {s₀ s : State} (hk : Keeps s₀ s) (r : Req) (x : Resp) : Keeps s₀ (State.finish s r x) := by
  unfold State.finish
  repeat' first
    | with_reducible assumption
    | with_reducible apply Keeps.answerAll
    | with_reducible apply Keeps.dropMerged
    | with_reducible apply Keeps.answer
    | with_reducible apply Keeps.markDone
    | split

theorem Keeps.finishCmp {s₀ s : State} (hk : Keeps s₀ s) (r : Req) (st : Nat) : Keeps s₀ (State.finishCmp s r st) := by
  unfold State.finishCmp
  repeat' first
    | with_reducible assumption
    | with_reducible apply Keeps.finish

theorem Keeps.refuseAs {s₀ s : State} (hk : Keeps s₀ s) (p : Nat) (m : Msg) (st : Nat) (held : Bool) :
    Keeps s₀ (State.refuseAs s p m st held) := by
  unfold State.refuseAs
  repeat' first
    | with_reducible assumption
    | with_reducible apply Keeps.updSource
    | with_reducible apply Keeps.sendLocal
    | with_reducible apply Keeps.settleSeq
    | with_reducible apply Keeps.ite

theorem Keeps.refuseAt {s₀ s : State} (hk : Keeps s₀ s) (p : Nat) (m : Msg) (st : Nat) :
    Keeps s₀ (State.refuseAt s p m st) := by
  unfold State.refuseAt
  repeat' first
    | with_reducible assumption
    | with_reducible apply Keeps.refuseAs

theorem Keeps.flushOpen {s₀ s : State} (hk : Keeps s₀ s) (p : Nat) (m : Msg) : Keeps s₀ (State.flushOpen s p m) := by
  unfold State.flushOpen
  repeat' first
    | with_reducible assumption
    | with_reducible apply Keeps.updSource
    | with_reducible apply Keeps.refuseAs

theorem Keeps.reject {s₀ s : State} (hk : Keeps s₀ s) (p : Nat) (m : Msg) (st : Nat) (c : Fld) :
    Keeps s₀ (State.reject s p m st c) := by
  unfold State.reject
  repeat' first
    | with_reducible assumption
    | with_reducible apply Keeps.refuseAt
    | with_reducible apply Keeps.bump

theorem Keeps.lotPut {s₀ s : State} (hk : Keeps s₀ s) (p : Nat) (m : Msg) : Keeps s₀ (State.lotPut s p m) := by
  unfold State.lotPut
  repeat' first
    | with_reducible assumption
    | with_reducible rfl
    | ((conv => arg 2; arg 23); with_reducible apply Keeps.lit)
    | (extract_lets +onlyGivenNames x; clear_value x; revert x; intro w)

theorem Keeps.open {s₀ s : State} (hk : Keeps s₀ s) (p : Nat) (m : Msg) : Keeps s₀ (State.open s p m) := by
  unfold State.open
  repeat' first
    | with_reducible assumption
    | with_reducible apply Keeps.updSource

theorem Keeps.stamp {s₀ s : State} (hk : Keeps s₀ s) (r : Req) : Keeps s₀ (State.stamp s r).2 := by
  unfold State.stamp
  repeat' first
    | with_reducible assumption
    | with_reducible rfl
    | ((conv => arg 2; arg 23); with_reducible apply Keeps.lit)
    | with_reducible apply Keeps.ite2
    | (extract_lets +onlyGivenNames x; clear_value x; revert x; intro w)
    | (dsimp -zeta only)

theorem Keeps.wait {s₀ s : State} (hk : Keeps s₀ s) (r : Req) (cause : Nat) (key : Nat) :
    Keeps s₀ (State.wait s r cause key) := by
  unfold State.wait
  repeat' first
    | with_reducible assumption
    | with_reducible apply Keeps.stamp
    | with_reducible rfl
    | ((conv => arg 2; arg 23); with_reducible apply Keeps.lit)
    | with_reducible apply Keeps.ite2
    | (extract_lets +onlyGivenNames x; refine (fun (hx : Keeps s₀ x) => ?_) ?_;
       (on_goal 2 => (unfold x; clear x)); (on_goal 1 => ((try clear_value x); revert x; intro w hw)))
    | (extract_lets +onlyGivenNames x; refine (fun (hx : Keeps s₀ x.2) => ?_) ?_;
       (on_goal 2 => (unfold x; clear x)); (on_goal 1 => ((try clear_value x); revert x; intro w hw)))

/-! ### Sys2Proof/Machine/Tiers.lean -/

theorem Keeps.setPage {s₀ s : State} (hk : Keeps s₀ s) (pg : Nat) (x : Page) : Keeps s₀ (State.setPage s pg x) := by
  unfold State.setPage
  exact Keeps.lit hk rfl rfl

theorem Keeps.traySend {s₀ s : State} (hk : Keeps s₀ s) (l : Nat) (isWrite : Bool) (bytes : List Byte) (psn : Bool)
    (cls : Nat) (sub : Nat) (kind : TKind) (ent : Bool) :
    Keeps s₀ (State.traySend s l isWrite bytes psn cls sub kind ent) := by
  unfold State.traySend
  repeat' first
    | with_reducible assumption
    | with_reducible apply Keeps.send
    | with_reducible apply Keeps.updPort
    | with_reducible rfl
    | ((conv => arg 2; arg 23); with_reducible apply Keeps.lit)
    | (extract_lets +onlyGivenNames x; refine (fun (hx : Keeps s₀ x) => ?_) ?_;
       (on_goal 2 => (unfold x; clear x)); (on_goal 1 => ((try clear_value x); revert x; intro w hw)))
    | (extract_lets +onlyGivenNames x; clear_value x; revert x; intro w)
    | split

theorem Keeps.lateLog {s₀ s : State} (hk : Keeps s₀ s) (pg : Nat) (cause : Nat) : Keeps s₀ (State.lateLog s pg cause) := by
  unfold State.lateLog
  repeat' first
    | with_reducible assumption
    | with_reducible apply Keeps.advance
    | with_reducible apply Keeps.wr
    | with_reducible apply Keeps.ite
    | (extract_lets +onlyGivenNames x; clear_value x; revert x; intro w)
    | split

theorem Keeps.lateWait {s₀ s : State} (hk : Keeps s₀ s) (r : Req) (cause : Nat) (pg : Nat) :
    Keeps s₀ (State.lateWait s r cause pg) := by
  unfold State.lateWait
  repeat' first
    | with_reducible assumption
    | with_reducible apply Keeps.bump
    | with_reducible apply Keeps.lateLog
    | with_reducible apply Keeps.wait
    | with_reducible apply Keeps.ite

theorem Keeps.recause {s₀ s : State} (hk : Keeps s₀ s) (pg : Nat) (c : Nat) : Keeps s₀ (State.recause s pg c) := by
  unfold State.recause
  repeat' first
    | with_reducible assumption
    | (intro a)
    | with_reducible apply Keeps.lateLog
    | with_reducible apply Keeps.bump
    | with_reducible rfl
    | ((conv => arg 2; arg 23); with_reducible apply Keeps.lit)
    | with_reducible apply Keeps.ite
    | with_reducible apply Keeps.foldl
    | (extract_lets +onlyGivenNames x; refine (fun (hx : Keeps s₀ x) => ?_) ?_;
       (on_goal 2 => (unfold x; clear x)); (on_goal 1 => ((try clear_value x); revert x; intro w hw)))
    | (extract_lets +onlyGivenNames x; clear_value x; revert x; intro w)

theorem Keeps.holdPage {s₀ s : State} (hk : Keeps s₀ s) (pg : Nat) : Keeps s₀ (State.holdPage s pg) := by
  unfold State.holdPage
  repeat' first
    | with_reducible assumption
    | (intro a)
    | with_reducible apply Keeps.lateWait
    | with_reducible apply Keeps.recause
    | with_reducible rfl
    | ((conv => arg 2; arg 23); with_reducible apply Keeps.lit)
    | with_reducible apply Keeps.foldl
    | (extract_lets +onlyGivenNames x; refine (fun (hx : Keeps s₀ x) => ?_) ?_;
       (on_goal 2 => (unfold x; clear x)); (on_goal 1 => ((try clear_value x); revert x; intro w hw)))
    | (extract_lets +onlyGivenNames x; clear_value x; revert x; intro w)

theorem Keeps.dropOwed {s₀ s : State} (hk : Keeps s₀ s) (lo : Nat) (hi : Nat) : Keeps s₀ (State.dropOwed s lo hi) := by
  unfold State.dropOwed
  exact Keeps.lit hk rfl rfl

theorem Keeps.addOwed {s₀ s : State} (hk : Keeps s₀ s) (lo : Nat) (hi : Nat) : Keeps s₀ (State.addOwed s lo hi) := by
  unfold State.addOwed
  repeat' first
    | with_reducible assumption
    | with_reducible apply Keeps.dropOwed
    | with_reducible rfl
    | ((conv => arg 2; arg 23); with_reducible apply Keeps.lit)
    | (extract_lets +onlyGivenNames x; refine (fun (hx : Keeps s₀ x) => ?_) ?_;
       (on_goal 2 => (unfold x; clear x)); (on_goal 1 => ((try clear_value x); revert x; intro w hw)))

theorem Keeps.setHeat {s₀ s : State} (hk : Keeps s₀ s) (pg : Nat) (h : Nat) : Keeps s₀ (State.setHeat s pg h) := by
  unfold State.setHeat
  exact Keeps.lit hk rfl rfl

theorem Keeps.countHeat {s₀ s : State} (hk : Keeps s₀ s) (pg : Nat) : Keeps s₀ (State.countHeat s pg) := by
  unfold State.countHeat
  repeat' first
    | with_reducible assumption
    | with_reducible apply Keeps.setPage
    | with_reducible apply Keeps.setHeat
    | with_reducible apply Keeps.bump
    | with_reducible apply Keeps.ite

theorem Keeps.readPage {s₀ s : State} (hk : Keeps s₀ s) (pg : Nat) : Keeps s₀ (State.readPage s pg) := by
  unfold State.readPage
  repeat' first
    | with_reducible assumption
    | (intro a)
    | with_reducible apply Keeps.readLine
    | with_reducible apply Keeps.ite
    | with_reducible apply Keeps.foldl

theorem Keeps.rewritePages {s₀ s : State} (hk : Keeps s₀ s) (pg : Nat) (n : Nat) : Keeps s₀ (State.rewritePages s pg n) := by
  unfold State.rewritePages
  repeat' first
    | with_reducible assumption
    | with_reducible apply Keeps.addOwed
    | with_reducible rfl
    | ((conv => arg 2; arg 23); with_reducible apply Keeps.lit)

theorem Keeps.rewriteImage {s₀ s : State} (hk : Keeps s₀ s) (pg : Nat) : Keeps s₀ (State.rewriteImage s pg) := by
  unfold State.rewriteImage
  repeat' first
    | with_reducible assumption
    | with_reducible apply Keeps.dropOwed
    | with_reducible apply Keeps.addOwed
    | with_reducible rfl
    | ((conv => arg 2; arg 23); with_reducible apply Keeps.lit)

theorem Keeps.reform {s₀ s : State} (hk : Keeps s₀ s) (m : Mig) : Keeps s₀ (State.reform s m) := by
  unfold State.reform
  repeat' first
    | with_reducible assumption
    | with_reducible apply Keeps.rewriteImage
    | with_reducible apply Keeps.rewritePages
    | with_reducible apply Keeps.ite

theorem Keeps.migIssue {s₀ s : State} (hk : Keeps s₀ s) (m : Mig) : Keeps s₀ (State.migIssue s m) := by
  unfold State.migIssue
  repeat' first
    | with_reducible assumption
    | with_reducible apply Keeps.traySend
    | with_reducible apply Keeps.readLine
    | with_reducible apply Keeps.ite

theorem Keeps.startPromotion {s₀ s : State} (hk : Keeps s₀ s) (pg : Nat) (frame : Nat) :
    Keeps s₀ (State.startPromotion s pg frame) := by
  unfold State.startPromotion
  repeat' first
    | with_reducible assumption
    | with_reducible apply Keeps.holdPage
    | with_reducible apply Keeps.setPage
    | with_reducible apply Keeps.setHeat
    | with_reducible apply Keeps.chargeOasis
    | with_reducible apply Keeps.migIssue
    | with_reducible rfl
    | ((conv => arg 2; arg 23); with_reducible apply Keeps.lit)

theorem Keeps.trayCopy {s₀ s : State} (hk : Keeps s₀ s) (pg : Nat) : Keeps s₀ (State.trayCopy s pg) := by
  unfold State.trayCopy
  repeat' first
    | with_reducible assumption
    | (intro a)
    | with_reducible apply Keeps.setPsn
    | with_reducible apply Keeps.putLine
    | with_reducible rfl
    | ((conv => arg 2; arg 23); with_reducible apply Keeps.lit)
    | with_reducible apply Keeps.foldl
    | (extract_lets +onlyGivenNames x; refine (fun (hx : Keeps s₀ x) => ?_) ?_;
       (on_goal 2 => (unfold x; clear x)); (on_goal 1 => ((try clear_value x); revert x; intro w hw)))
    | (extract_lets +onlyGivenNames x; clear_value x; revert x; intro w)

theorem Keeps.toTray {s₀ s : State} (hk : Keeps s₀ s) (pg : Nat) : Keeps s₀ (State.toTray s pg) := by
  unfold State.toTray
  repeat' first
    | with_reducible assumption
    | with_reducible apply Keeps.creditOasis
    | with_reducible apply Keeps.setPage
    | with_reducible apply Keeps.trayCopy
    | with_reducible apply Keeps.setHeat
    | with_reducible apply Keeps.bump
    | with_reducible apply Keeps.ite

theorem Keeps.demote {s₀ s : State} (hk : Keeps s₀ s) (pg : Nat) (want : Option Nat) :
    Keeps s₀ (State.demote s pg want).2 := by
  unfold State.demote
  repeat' first
    | with_reducible assumption
    | with_reducible apply Keeps.toTray
    | with_reducible apply Keeps.readPage
    | with_reducible apply Keeps.bump
    | with_reducible apply Keeps.setPage
    | with_reducible apply Keeps.holdPage
    | with_reducible apply Keeps.migIssue
    | with_reducible rfl
    | ((conv => arg 2; arg 23); with_reducible apply Keeps.lit)
    | with_reducible apply Keeps.ite
    | with_reducible apply Keeps.ite2

theorem Keeps.demoteSoon {s₀ s : State} (hk : Keeps s₀ s) (pg : Nat) : Keeps s₀ (State.demoteSoon s pg) := by
  unfold State.demoteSoon
  repeat' first
    | with_reducible assumption
    | with_reducible apply Keeps.demote
    | with_reducible rfl
    | ((conv => arg 2; arg 23); with_reducible apply Keeps.lit)
    | with_reducible apply Keeps.ite
    | (extract_lets +onlyGivenNames x; refine (fun (hx : Keeps s₀ x) => ?_) ?_;
       (on_goal 2 => (unfold x; clear x)); (on_goal 1 => ((try clear_value x); revert x; intro w hw)))

theorem Keeps.demoteFor {s₀ s : State} (hk : Keeps s₀ s) (pg : Nat) (pick : State → Option (Nat × Page)) (a : Nat) :
    Keeps s₀ (State.demoteFor s pg pick a).2 := by
  induction a generalizing s pg pick with
  | zero =>
    unfold State.demoteFor
    repeat' first
      | with_reducible assumption
  | succ n ih =>
    unfold State.demoteFor
    repeat' first
      | with_reducible assumption
      | with_reducible apply ih
      | with_reducible apply Keeps.demote
      | with_reducible apply Keeps.ite2
      | split

theorem Keeps.awaitFrame {s₀ s : State} (hk : Keeps s₀ s) (pg : Nat) : Keeps s₀ (State.awaitFrame s pg) := by
  unfold State.awaitFrame
  repeat' first
    | with_reducible assumption
    | with_reducible apply Keeps.setPage
    | with_reducible apply Keeps.holdPage

theorem Keeps.promoteOver {s₀ s : State} (hk : Keeps s₀ s) (pg : Nat) (pick : State → Option (Nat × Page)) :
    Keeps s₀ (State.promoteOver s pg pick).2 := by
  unfold State.promoteOver
  repeat' first
    | with_reducible assumption
    | with_reducible apply Keeps.demoteFor
    | with_reducible apply Keeps.awaitFrame
    | with_reducible apply Keeps.startPromotion
    | with_reducible apply Keeps.ite2
    | (extract_lets +onlyGivenNames x; refine (fun (hx : Keeps s₀ x.2) => ?_) ?_;
       (on_goal 2 => (unfold x; clear x)); (on_goal 1 => ((try clear_value x); revert x; intro w hw)))
    | split

theorem Keeps.ergcFrame {s₀ s : State} (hk : Keeps s₀ s) (pg : Nat) : Keeps s₀ (State.ergcFrame s pg).2 := by
  unfold State.ergcFrame
  repeat' first
    | with_reducible assumption
    | with_reducible apply Keeps.startPromotion
    | with_reducible apply Keeps.promoteOver
    | (extract_lets +onlyGivenNames x; clear_value x; revert x; intro w)
    | split

theorem Keeps.ergcGate {s₀ s : State} (hk : Keeps s₀ s) (pg : Nat) : Keeps s₀ (State.ergcGate s pg).2 := by
  unfold State.ergcGate
  repeat' first
    | with_reducible assumption
    | with_reducible apply Keeps.demoteFor
    | with_reducible apply Keeps.awaitFrame
    | with_reducible apply Keeps.ergcFrame
    | with_reducible apply Keeps.ite2
    | (extract_lets +onlyGivenNames x; refine (fun (hx : Keeps s₀ x.2) => ?_) ?_;
       (on_goal 2 => (unfold x; clear x)); (on_goal 1 => ((try clear_value x); revert x; intro w hw)))
    | (extract_lets +onlyGivenNames x; clear_value x; revert x; intro w)
    | split

theorem Keeps.heatPromote {s₀ s : State} (h : Keeps s₀ s) (pg : Nat) : ∀ t, State.heatPromote s pg = some t → Keeps s₀ t := by
  intro t e
  unfold State.heatPromote at e
  dsimp only at e
  repeat' split at e
  all_goals first
    | (cases e; done)
    | (cases e; first | exact h.bump .. | exact h.startPromotion .. | exact h.promoteOver ..)

theorem Keeps.gate {s₀ s : State} (hk : Keeps s₀ s) (pg : Nat) (count : Bool) : Keeps s₀ (State.gate s pg count).2 := by
  unfold State.gate
  repeat' first
    | (extract_lets +onlyGivenNames x; refine (fun (hx : ∀ t, x = some t → Keeps s₀ t) => ?_) ?_;
       (on_goal 2 => (unfold x; clear x)); (on_goal 1 => (clear_value x; revert x; intro w hw)))
    | exact ‹∀ t, some _ = some t → Keeps s₀ t› _ rfl
    | (intro t e; split at e; exact Keeps.heatPromote (by assumption) _ _ e; cases e)
    | with_reducible assumption
    | with_reducible apply Keeps.countHeat
    | with_reducible apply Keeps.ergcGate
    | with_reducible apply Keeps.ite
    | with_reducible apply Keeps.ite2
    | (extract_lets +onlyGivenNames x; refine (fun (hx : Keeps s₀ x) => ?_) ?_;
       (on_goal 2 => (unfold x; clear x)); (on_goal 1 => ((try clear_value x); revert x; intro w hw)))
    | split

theorem Keeps.touch {s₀ s : State} (hk : Keeps s₀ s) (pg : Nat) : Keeps s₀ (State.touch s pg) := by
  unfold State.touch
  repeat' first
    | with_reducible assumption
    | with_reducible apply Keeps.dropOwed
    | with_reducible apply Keeps.setPage
    | with_reducible rfl
    | ((conv => arg 2; arg 23); with_reducible apply Keeps.lit)
    | with_reducible apply Keeps.ite
    | (extract_lets +onlyGivenNames x; refine (fun (hx : Keeps s₀ x) => ?_) ?_;
       (on_goal 2 => (unfold x; clear x)); (on_goal 1 => ((try clear_value x); revert x; intro w hw)))

theorem Keeps.dropMig {s₀ s : State} (hk : Keeps s₀ s) (pg : Nat) : Keeps s₀ (State.dropMig s pg) := by
  unfold State.dropMig
  exact Keeps.lit hk rfl rfl

theorem Keeps.startMove {s₀ s : State} (hk : Keeps s₀ s) (pg : Nat) (frame : Nat) :
    Keeps s₀ (State.startMove s pg frame) := by
  unfold State.startMove
  repeat' first
    | with_reducible assumption
    | with_reducible apply Keeps.setPage
    | with_reducible apply Keeps.holdPage
    | with_reducible rfl
    | ((conv => arg 2; arg 23); with_reducible apply Keeps.lit)
    | (extract_lets +onlyGivenNames x; refine (fun (hx : Keeps s₀ x) => ?_) ?_;
       (on_goal 2 => (unfold x; clear x)); (on_goal 1 => ((try clear_value x); revert x; intro w hw)))
    | (extract_lets +onlyGivenNames x; clear_value x; revert x; intro w)

theorem Keeps.countNosub {s₀ s : State} (hk : Keeps s₀ s) : Keeps s₀ (State.countNosub s) := by
  unfold State.countNosub
  repeat' first
    | with_reducible assumption
    | with_reducible apply Keeps.wr

theorem Keeps.poisonPage {s₀ s : State} (hk : Keeps s₀ s) (pg : Nat) : Keeps s₀ (State.poisonPage s pg) := by
  unfold State.poisonPage
  repeat' first
    | with_reducible assumption
    | (intro a)
    | with_reducible apply Keeps.setPsn
    | with_reducible apply Keeps.withMem
    | exact memWrite_wf _ _ _ (by assumption)
    | with_reducible apply Keeps.foldl

theorem Keeps.takeSub {s₀ s : State} (hk : Keeps s₀ s) (pg : Nat) (frame : Nat) : Keeps s₀ (State.takeSub s pg frame) := by
  unfold State.takeSub
  repeat' first
    | with_reducible assumption
    | with_reducible apply Keeps.countNosub
    | with_reducible apply Keeps.poisonPage
    | with_reducible apply Keeps.setPage
    | with_reducible apply Keeps.startMove
    | with_reducible apply Keeps.ite

theorem Keeps.wantPage {s₀ s : State} (hk : Keeps s₀ s) (pg : Nat) : Keeps s₀ (State.wantPage s pg) := by
  unfold State.wantPage
  repeat' first
    | with_reducible assumption
    | with_reducible apply Keeps.takeSub
    | with_reducible apply Keeps.setPage
    | with_reducible apply Keeps.ergcGate
    | with_reducible apply Keeps.startPromotion
    | with_reducible apply Keeps.ite
    | (extract_lets +onlyGivenNames x; clear_value x; revert x; intro w)
    | split

theorem Keeps.putPage {s₀ s : State} (hk : Keeps s₀ s) (pg : Nat) (bytes : List Byte) (psns : List Bool) :
    Keeps s₀ (State.putPage s pg bytes psns) := by
  unfold State.putPage
  repeat' first
    | with_reducible assumption
    | (intro a)
    | with_reducible apply Keeps.setPsn
    | with_reducible apply Keeps.withMem
    | exact memWrite_wf _ _ _ (by assumption)
    | with_reducible apply Keeps.foldl

theorem Keeps.endMig {s₀ s : State} (hk : Keeps s₀ s) (m : Mig) : Keeps s₀ (State.endMig s m) := by
  unfold State.endMig
  repeat' first
    | with_reducible assumption
    | with_reducible apply Keeps.dropMig
    | with_reducible apply Keeps.putPage
    | with_reducible apply Keeps.event
    | with_reducible apply Keeps.bump
    | with_reducible apply Keeps.setPage
    | with_reducible apply Keeps.demoteSoon
    | with_reducible apply Keeps.reform
    | with_reducible apply Keeps.toTray
    | with_reducible apply Keeps.wantPage
    | with_reducible rfl
    | ((conv => arg 2; arg 23); with_reducible apply Keeps.lit)
    | with_reducible apply Keeps.ite
    | (extract_lets +onlyGivenNames x; refine (fun (hx : Keeps s₀ x) => ?_) ?_;
       (on_goal 2 => (unfold x; clear x)); (on_goal 1 => ((try clear_value x); revert x; intro w hw)))
    | split

theorem Keeps.abandonMig {s₀ s : State} (hk : Keeps s₀ s) (m : Mig) : Keeps s₀ (State.abandonMig s m) := by
  unfold State.abandonMig
  repeat' first
    | with_reducible assumption
    | with_reducible apply Keeps.bump
    | with_reducible apply Keeps.dropMig
    | with_reducible apply Keeps.reform
    | with_reducible apply Keeps.creditOasis
    | with_reducible apply Keeps.setPage
    | with_reducible apply Keeps.setHeat
    | with_reducible apply Keeps.wantPage
    | with_reducible rfl
    | ((conv => arg 2; arg 23); with_reducible apply Keeps.lit)
    | with_reducible apply Keeps.ite
    | (extract_lets +onlyGivenNames x; refine (fun (hx : Keeps s₀ x) => ?_) ?_;
       (on_goal 2 => (unfold x; clear x)); (on_goal 1 => ((try clear_value x); revert x; intro w hw)))
    | (extract_lets +onlyGivenNames x; clear_value x; revert x; intro w)
    | split

theorem Keeps.retryDemotions {s₀ s : State} (hk : Keeps s₀ s) : Keeps s₀ (State.retryDemotions s) := by
  unfold State.retryDemotions
  repeat' first
    | with_reducible assumption
    | (intro a)
    | with_reducible apply Keeps.demote
    | with_reducible rfl
    | ((conv => arg 2; arg 23); with_reducible apply Keeps.lit)
    | with_reducible apply Keeps.ite
    | with_reducible apply Keeps.foldl
    | (extract_lets +onlyGivenNames x; refine (fun (hx : Keeps s₀ x) => ?_) ?_;
       (on_goal 2 => (unfold x; clear x)); (on_goal 1 => ((try clear_value x); revert x; intro w hw)))

/-! ### Sys2Proof/Machine/Home.lean -/

theorem Keeps.wbufPut {s₀ s : State} (hk : Keeps s₀ s) (l : Nat) (off : Nat) (bs : List Byte) (psn : Bool) (v : Via) :
    Keeps s₀ (State.wbufPut s l off bs psn v) := by
  unfold State.wbufPut
  repeat' first
    | with_reducible assumption
    | with_reducible rfl
    | ((conv => arg 2; arg 23); with_reducible apply Keeps.lit)
    | (extract_lets +onlyGivenNames x; clear_value x; revert x; intro w)

theorem Keeps.owedIn {s₀ s : State} (hk : Keeps s₀ s) (l : Nat) : Keeps s₀ (State.owedIn s l) := by
  unfold State.owedIn
  repeat' first
    | with_reducible assumption
    | with_reducible apply Keeps.dropOwed
    | with_reducible apply Keeps.wbufPut
    | with_reducible apply Keeps.ite
    | (extract_lets +onlyGivenNames x; refine (fun (hx : Keeps s₀ x) => ?_) ?_;
       (on_goal 2 => (unfold x; clear x)); (on_goal 1 => ((try clear_value x); revert x; intro w hw)))
    | (extract_lets +onlyGivenNames x; clear_value x; revert x; intro w)
    | split

theorem Keeps.wbufSettle {s₀ s : State} (hk : Keeps s₀ s) (l : Nat) : Keeps s₀ (State.wbufSettle s l) := by
  unfold State.wbufSettle
  repeat' first
    | with_reducible assumption
    | with_reducible rfl
    | ((conv => arg 2; arg 23); with_reducible apply Keeps.lit)
    | with_reducible apply Keeps.ite
    | (extract_lets +onlyGivenNames x; clear_value x; revert x; intro w)
    | split

theorem Keeps.closeRead {s₀ s : State} (hk : Keeps s₀ s) (l : Nat) : Keeps s₀ (State.closeRead s l) := by
  unfold State.closeRead
  exact Keeps.lit hk rfl rfl

theorem Keeps.storeLine {s₀ s : State} (hk : Keeps s₀ s) (l : Nat) (off : Nat) (bs : List Byte) (psn : Bool) (v : Via) :
    Keeps s₀ (State.storeLine s l off bs psn v).2 := by
  unfold State.storeLine
  repeat' first
    | with_reducible assumption
    | with_reducible apply Keeps.writeLine
    | with_reducible apply Keeps.closeRead
    | with_reducible apply Keeps.touch
    | with_reducible apply Keeps.wbufPut
    | with_reducible apply Keeps.ite2

theorem Keeps.writeRun {s₀ s : State} (hk : Keeps s₀ s) (l : Nat) (rs : List Req) : Keeps s₀ (State.writeRun s l rs) := by
  unfold State.writeRun
  repeat' first
    | with_reducible assumption
    | (intro a)
    | with_reducible apply Keeps.storeLine
    | with_reducible apply Keeps.finishCmp
    | with_reducible apply Keeps.ite2
    | with_reducible apply Keeps.foldl
    | with_reducible apply Keeps.foldl2

theorem Keeps.doStore {s₀ s : State} (hk : Keeps s₀ s) (r : Req) : Keeps s₀ (State.doStore s r) := by
  unfold State.doStore
  repeat' first
    | with_reducible assumption
    | with_reducible apply Keeps.writeRun
    | with_reducible apply Keeps.storeLine
    | with_reducible apply Keeps.finishCmp
    | (extract_lets +onlyGivenNames x; refine (fun (hx : Keeps s₀ x.2) => ?_) ?_;
       (on_goal 2 => (unfold x; clear x)); (on_goal 1 => ((try clear_value x); revert x; intro w hw)))
    | (extract_lets +onlyGivenNames x; clear_value x; revert x; intro w)
    | split

theorem Keeps.doRead {s₀ s : State} (hk : Keeps s₀ s) (r : Req) (grant : Nat) : Keeps s₀ (State.doRead s r grant) := by
  unfold State.doRead
  repeat' first
    | with_reducible assumption
    | with_reducible apply Keeps.readLine
    | with_reducible apply Keeps.finish

theorem Keeps.atomicDone {s₀ s : State} (hk : Keeps s₀ s) (r : Req) : Keeps s₀ (State.atomicDone s r).2 := by
  unfold State.atomicDone
  repeat' first
    | with_reducible assumption
    | with_reducible apply Keeps.checkLine
    | with_reducible apply Keeps.storeLine
    | with_reducible apply Keeps.ite2

theorem Keeps.doAtomic {s₀ s : State} (hk : Keeps s₀ s) (r : Req) : Keeps s₀ (State.doAtomic s r) := by
  unfold State.doAtomic
  repeat' first
    | with_reducible assumption
    | (intro a)
    | with_reducible apply Keeps.atomicDone
    | with_reducible apply Keeps.answerAll
    | with_reducible apply Keeps.dropMerged
    | with_reducible apply Keeps.finish
    | with_reducible apply Keeps.foldl2
    | (extract_lets +onlyGivenNames x; refine (fun (hx : Keeps s₀ x.2) => ?_) ?_;
       (on_goal 2 => (unfold x; clear x)); (on_goal 1 => ((try clear_value x); revert x; intro w hw)))
    | split

theorem Keeps.trayRead {s₀ s : State} (hk : Keeps s₀ s) (r : Req) (comb : Bool) : Keeps s₀ (State.trayRead s r comb) := by
  unfold State.trayRead
  repeat' first
    | with_reducible assumption
    | with_reducible apply Keeps.stamp
    | with_reducible apply Keeps.bump
    | with_reducible apply Keeps.traySend
    | with_reducible rfl
    | ((conv => arg 2; arg 23); with_reducible apply Keeps.lit)
    | with_reducible apply Keeps.ite

theorem Keeps.noFrameAnswer {s₀ s : State} (hk : Keeps s₀ s) (r : Req) : Keeps s₀ (State.noFrameAnswer s r) := by
  unfold State.noFrameAnswer
  repeat' first
    | with_reducible assumption
    | with_reducible apply Keeps.finish
    | with_reducible apply Keeps.finishCmp
    | with_reducible apply Keeps.ite

theorem Keeps.together {s₀ s : State} (hk : Keeps s₀ s) (pg : Nat) (rs : List Req) (act : State → State)
    (hact : ∀ x, Keeps s₀ x → Keeps s₀ (act x)) :
    Keeps s₀ (State.together s pg rs act) := by
  unfold State.together
  repeat' first
    | (extract_lets +onlyGivenNames x; refine (fun (hx : ∀ a, Keeps s₀ (x a)) => ?_) ?_;
       (on_goal 2 => (unfold x; clear x)); (on_goal 1 => (clear_value x; revert x; intro wf hwf)))
    | with_reducible apply hwf
    | with_reducible assumption
    | (intro a)
    | with_reducible apply hact
    | with_reducible apply Keeps.gate
    | with_reducible apply Keeps.lateWait
    | with_reducible apply Keeps.noFrameAnswer
    | with_reducible apply Keeps.ite
    | with_reducible apply Keeps.foldl
    | (extract_lets +onlyGivenNames x; refine (fun (hx : Keeps s₀ x.2) => ?_) ?_;
       (on_goal 2 => (unfold x; clear x)); (on_goal 1 => ((try clear_value x); revert x; intro w hw)))
    | split

theorem Keeps.applyRun {s₀ s : State} (hk : Keeps s₀ s) (l : Nat) : Keeps s₀ (State.applyRun s l) := by
  unfold State.applyRun
  repeat' first
    | with_reducible assumption
    | (intro a)
    | with_reducible apply Keeps.finishCmp
    | with_reducible apply Keeps.together
    | with_reducible apply Keeps.writeRun
    | with_reducible rfl
    | ((conv => arg 2; arg 23); with_reducible apply Keeps.lit)
    | with_reducible apply Keeps.foldl
    | (extract_lets +onlyGivenNames x; refine (fun (hx : Keeps s₀ x) => ?_) ?_;
       (on_goal 2 => (unfold x; clear x)); (on_goal 1 => ((try clear_value x); revert x; intro w hw)))
    | (extract_lets +onlyGivenNames x; clear_value x; revert x; intro w)
    | split

theorem Keeps.applyGroup {s₀ s : State} (hk : Keeps s₀ s) (g : AtGrp) : Keeps s₀ (State.applyGroup s g) := by
  unfold State.applyGroup
  repeat' first
    | with_reducible assumption
    | (intro a)
    | with_reducible apply Keeps.finishCmp
    | with_reducible apply Keeps.together
    | with_reducible apply Keeps.doAtomic
    | with_reducible apply Keeps.lateWait
    | with_reducible apply Keeps.traySend
    | with_reducible rfl
    | ((conv => arg 2; arg 23); with_reducible apply Keeps.lit)
    | with_reducible apply Keeps.ite
    | with_reducible apply Keeps.foldl
    | (extract_lets +onlyGivenNames x; refine (fun (hx : Keeps s₀ x) => ?_) ?_;
       (on_goal 2 => (unfold x; clear x)); (on_goal 1 => ((try clear_value x); revert x; intro w hw)))
    | (extract_lets +onlyGivenNames x; clear_value x; revert x; intro w)
    | split

theorem Keeps.endRun {s₀ s : State} (hk : Keeps s₀ s) (m : Msg) (x : Extent) : Keeps s₀ (State.endRun s m x) := by
  unfold State.endRun
  repeat' first
    | with_reducible assumption
    | with_reducible apply Keeps.applyRun
    | with_reducible apply Keeps.ite

theorem Keeps.openEntry {s₀ s : State} (hk : Keeps s₀ s) (l : Nat) (bytes : List Byte) (psn : Bool) (known : Option
    (List Nat)) :
    Keeps s₀ (State.openEntry s l bytes psn known) := by
  unfold State.openEntry
  repeat' first
    | with_reducible assumption
    | with_reducible apply Keeps.bump
    | with_reducible rfl
    | ((conv => arg 2; arg 23); with_reducible apply Keeps.lit)
    | with_reducible apply Keeps.ite

theorem Keeps.plainRead {s₀ s : State} (hk : Keeps s₀ s) (r : Req) (x : Extent) : Keeps s₀ (State.plainRead s r x) := by
  unfold State.plainRead
  repeat' first
    | with_reducible assumption
    | with_reducible apply Keeps.finish
    | with_reducible apply Keeps.bump
    | with_reducible apply Keeps.trayRead
    | with_reducible apply Keeps.readLine
    | with_reducible apply Keeps.openEntry
    | with_reducible apply Keeps.ite
    | (extract_lets +onlyGivenNames x; refine (fun (hx : Keeps s₀ x) => ?_) ?_;
       (on_goal 2 => (unfold x; clear x)); (on_goal 1 => ((try clear_value x); revert x; intro w hw)))
    | (extract_lets +onlyGivenNames x; refine (fun (hx : Keeps s₀ x.2) => ?_) ?_;
       (on_goal 2 => (unfold x; clear x)); (on_goal 1 => ((try clear_value x); revert x; intro w hw)))
    | (extract_lets +onlyGivenNames x; clear_value x; revert x; intro w)
    | split

theorem Keeps.plainStore {s₀ s : State} (hk : Keeps s₀ s) (r : Req) (x : Extent) : Keeps s₀ (State.plainStore s r x) := by
  unfold State.plainStore
  repeat' first
    | with_reducible assumption
    | with_reducible apply Keeps.stamp
    | with_reducible apply Keeps.bump
    | with_reducible apply Keeps.doStore
    | with_reducible rfl
    | ((conv => arg 2; arg 23); with_reducible apply Keeps.lit)
    | with_reducible apply Keeps.ite
    | (extract_lets +onlyGivenNames x; refine (fun (hx : Keeps s₀ x) => ?_) ?_;
       (on_goal 2 => (unfold x; clear x)); (on_goal 1 => ((try clear_value x); revert x; intro w hw)))
    | (extract_lets +onlyGivenNames x; refine (fun (hx : Keeps s₀ x.2) => ?_) ?_;
       (on_goal 2 => (unfold x; clear x)); (on_goal 1 => ((try clear_value x); revert x; intro w hw)))
    | (extract_lets +onlyGivenNames x; clear_value x; revert x; intro w)
    | split

theorem Keeps.plainAtomic {s₀ s : State} (hk : Keeps s₀ s) (r : Req) (x : Extent) : Keeps s₀ (State.plainAtomic s r x) := by
  unfold State.plainAtomic
  repeat' first
    | with_reducible assumption
    | with_reducible apply Keeps.stamp
    | with_reducible apply Keeps.bump
    | with_reducible apply Keeps.doAtomic
    | with_reducible apply Keeps.trayRead
    | with_reducible rfl
    | ((conv => arg 2; arg 23); with_reducible apply Keeps.lit)
    | with_reducible apply Keeps.ite
    | (extract_lets +onlyGivenNames x; refine (fun (hx : Keeps s₀ x) => ?_) ?_;
       (on_goal 2 => (unfold x; clear x)); (on_goal 1 => ((try clear_value x); revert x; intro w hw)))
    | (extract_lets +onlyGivenNames x; refine (fun (hx : Keeps s₀ x.2) => ?_) ?_;
       (on_goal 2 => (unfold x; clear x)); (on_goal 1 => ((try clear_value x); revert x; intro w hw)))
    | (extract_lets +onlyGivenNames x; clear_value x; revert x; intro w)
    | split

theorem Keeps.learnLine {s₀ s : State} (hk : Keeps s₀ s) (l : Nat) (bytes : List Byte) (psn : Bool) :
    Keeps s₀ (State.learnLine s l bytes psn) := by
  unfold State.learnLine
  repeat' first
    | with_reducible assumption
    | with_reducible apply Keeps.putLine
    | with_reducible apply Keeps.setPsn
    | with_reducible apply Keeps.ite

theorem Keeps.notePsn {s₀ s : State} (hk : Keeps s₀ s) (l : Nat) : Keeps s₀ (State.notePsn s l) := by
  unfold State.notePsn
  repeat' first
    | with_reducible assumption
    | with_reducible apply Keeps.bump
    | with_reducible apply Keeps.ite

theorem Keeps.serveTray {s₀ s : State} (hk : Keeps s₀ s) (r : Req) : Keeps s₀ (State.serveTray s r) := by
  unfold State.serveTray
  repeat' first
    | with_reducible assumption
    | with_reducible apply Keeps.doAtomic
    | with_reducible apply Keeps.finish
    | with_reducible apply Keeps.ite

theorem Keeps.serveLoads {s₀ s : State} (hk : Keeps s₀ s) (l : Nat) (rs : List Req) (ent : Bool) :
    Keeps s₀ (State.serveLoads s l rs ent) := by
  unfold State.serveLoads
  repeat' first
    | with_reducible assumption
    | (intro a)
    | with_reducible apply Keeps.serveTray
    | with_reducible rfl
    | ((conv => arg 2; arg 23); with_reducible apply Keeps.lit)
    | with_reducible apply Keeps.ite
    | with_reducible apply Keeps.foldl

end Sys2Proof.Laws
end

