-- ==== Sys2Proof/Laws/KeepsWork.lean ====
section
/-! SUPPORT. What operations keep:
coherence, regions, accesses, and operations on the RGF dies. -/

namespace Sys2Proof.Laws

open Sys2Proof Sys2Proof.Machine

/-! ### Sys2Proof/Machine/Coherence.lean -/

theorem Keeps.setCg {s₀ s : State} (hk : Keeps s₀ s) (g : Nat) (c : Cg) : Keeps s₀ (State.setCg s g c) := by
  unfold State.setCg
  exact Keeps.lit hk rfl rfl

theorem Keeps.setDir {s₀ s : State} (hk : Keeps s₀ s) (l : Nat) (e : DirEnt) : Keeps s₀ (State.setDir s l e) := by
  unfold State.setDir
  exact Keeps.lit hk rfl rfl

theorem Keeps.dropDir {s₀ s : State} (hk : Keeps s₀ s) (l : Nat) : Keeps s₀ (State.dropDir s l) := by
  unfold State.dropDir
  exact Keeps.lit hk rfl rfl

theorem Keeps.stable {s₀ s : State} (hk : Keeps s₀ s) (l : Nat) (e : DirEnt) (st : DSt) (own : Option Nat) (shr : List Nat) :
    Keeps s₀ (State.stable s l e st own shr) := by
  unfold State.stable
  repeat' first
    | with_reducible assumption
    | with_reducible apply Keeps.dropDir
    | with_reducible apply Keeps.setDir
    | with_reducible apply Keeps.ite

theorem Keeps.sendSnoop {s₀ s : State} (hk : Keeps s₀ s) (l : Nat) (opc : Nat) (g : Nat) (f : SnoopFor) (slot : Nat) :
    Keeps s₀ (State.sendSnoop s l opc g f slot).2 := by
  unfold State.sendSnoop
  repeat' first
    | with_reducible assumption
    | with_reducible apply Keeps.bump
    | with_reducible apply Keeps.send
    | with_reducible rfl
    | ((conv => arg 2; arg 23); with_reducible apply Keeps.lit)
    | with_reducible apply Keeps.ite
    | (extract_lets +onlyGivenNames x; refine (fun (hx : Keeps s₀ x) => ?_) ?_;
       (on_goal 2 => (unfold x; clear x)); (on_goal 1 => ((try clear_value x); revert x; intro w hw)))
    | (extract_lets +onlyGivenNames x; clear_value x; revert x; intro w)
    | split

theorem Keeps.fwdGone {s₀ s : State} (hk : Keeps s₀ s) (l : Nat) (id : Nat) : Keeps s₀ (State.fwdGone s l id) := by
  unfold State.fwdGone
  exact Keeps.lit hk rfl rfl

theorem Keeps.sendSnoops {s₀ s : State} (hk : Keeps s₀ s) (l : Nat) (opc : Nat) (g : Nat) (f : SnoopFor) (slots : List Nat) :
    Keeps s₀ (State.sendSnoops s l opc g f slots).2 := by
  unfold State.sendSnoops
  repeat' first
    | with_reducible assumption
    | (intro a)
    | with_reducible apply Keeps.sendSnoop
    | with_reducible apply Keeps.foldl2

theorem Keeps.faultedAnswer {s₀ s : State} (hk : Keeps s₀ s) (r : Req) : Keeps s₀ (State.faultedAnswer s r) := by
  unfold State.faultedAnswer
  repeat' first
    | with_reducible assumption
    | with_reducible apply Keeps.finish
    | with_reducible apply Keeps.finishCmp
    | with_reducible apply Keeps.ite

theorem Keeps.grantNow {s₀ s : State} (hk : Keeps s₀ s) (l : Nat) (e : DirEnt) (r : Req) (x : Bool) :
    Keeps s₀ (State.grantNow s l e r x) := by
  unfold State.grantNow
  repeat' first
    | with_reducible assumption
    | with_reducible apply Keeps.readLine
    | with_reducible apply Keeps.finish
    | with_reducible apply Keeps.stable
    | with_reducible apply Keeps.dropDir
    | with_reducible apply Keeps.ite

theorem Keeps.noteLate {s₀ s : State} (hk : Keeps s₀ s) (r : Req) (c : Nat) (pg : Nat) :
    Keeps s₀ (State.noteLate s r c pg).2 := by
  unfold State.noteLate
  repeat' first
    | with_reducible assumption
    | with_reducible apply Keeps.lateLog
    | with_reducible apply Keeps.bump
    | with_reducible apply Keeps.ite2

theorem Keeps.grant {s₀ s : State} (hk : Keeps s₀ s) (l : Nat) (e : DirEnt) (r : Req) (x : Bool) :
    Keeps s₀ (State.grant s l e r x) := by
  unfold State.grant
  repeat' first
    | with_reducible assumption
    | with_reducible apply Keeps.noteLate
    | with_reducible apply Keeps.setDir
    | with_reducible apply Keeps.traySend
    | with_reducible apply Keeps.grantNow
    | with_reducible apply Keeps.ite
    | (extract_lets +onlyGivenNames x; clear_value x; revert x; intro w)
    | split

theorem Keeps.trayAsk {s₀ s : State} (hk : Keeps s₀ s) (r : Req) : Keeps s₀ (State.trayAsk s r) := by
  unfold State.trayAsk
  repeat' first
    | with_reducible assumption
    | with_reducible apply Keeps.lateWait
    | with_reducible apply Keeps.trayRead
    | (extract_lets +onlyGivenNames x; clear_value x; revert x; intro w)
    | split

theorem Keeps.recallDone {s₀ s : State} (hk : Keeps s₀ s) (l : Nat) (e : DirEnt) : Keeps s₀ (State.recallDone s l e) := by
  unfold State.recallDone
  repeat' first
    | with_reducible assumption
    | with_reducible apply Keeps.dropDir
    | with_reducible apply Keeps.doStore
    | with_reducible apply Keeps.doAtomic
    | with_reducible apply Keeps.trayAsk
    | with_reducible apply Keeps.ite
    | (extract_lets +onlyGivenNames x; refine (fun (hx : Keeps s₀ x) => ?_) ?_;
       (on_goal 2 => (unfold x; clear x)); (on_goal 1 => ((try clear_value x); revert x; intro w hw)))
    | split

theorem Keeps.recall {s₀ s : State} (hk : Keeps s₀ s) (l : Nat) (e : DirEnt) (f : SnoopFor) (r : Option Req) (aft : After) :
    Keeps s₀ (State.recall s l e f r aft) := by
  unfold State.recall
  repeat' first
    | with_reducible assumption
    | with_reducible apply Keeps.sendSnoops
    | with_reducible apply Keeps.recallDone
    | with_reducible apply Keeps.setDir
    | with_reducible apply Keeps.ite

theorem Keeps.askOwner {s₀ s : State} (hk : Keeps s₀ s) (l : Nat) (e : DirEnt) (r : Req) (excl : Bool) (aft : After) :
    Keeps s₀ (State.askOwner s l e r excl aft) := by
  unfold State.askOwner
  repeat' first
    | with_reducible assumption
    | with_reducible apply Keeps.sendSnoops
    | with_reducible apply Keeps.setDir
    | (extract_lets +onlyGivenNames x; clear_value x; revert x; intro w)
    | split

theorem Keeps.invalidate {s₀ s : State} (hk : Keeps s₀ s) (l : Nat) (e : DirEnt) (r : Req) (who : List Nat) (aft : After) :
    Keeps s₀ (State.invalidate s l e r who aft) := by
  unfold State.invalidate
  repeat' first
    | with_reducible assumption
    | with_reducible apply Keeps.sendSnoops
    | with_reducible apply Keeps.setDir

theorem Keeps.giveUp {s₀ s : State} (hk : Keeps s₀ s) (l : Nat) (e : DirEnt) : Keeps s₀ (State.giveUp s l e) := by
  unfold State.giveUp
  repeat' first
    | with_reducible assumption
    | with_reducible apply Keeps.dropDir
    | with_reducible apply Keeps.recall
    | with_reducible apply Keeps.ite

theorem Keeps.transitionDone {s₀ s : State} (hk : Keeps s₀ s) (l : Nat) (e : DirEnt) :
    Keeps s₀ (State.transitionDone s l e) := by
  unfold State.transitionDone
  repeat' first
    | with_reducible assumption
    | with_reducible apply Keeps.stable
    | with_reducible apply Keeps.askOwner
    | with_reducible apply Keeps.grant
    | with_reducible apply Keeps.finish
    | with_reducible apply Keeps.dropDir
    | with_reducible apply Keeps.bump
    | with_reducible apply Keeps.giveUp
    | with_reducible apply Keeps.recallDone
    | with_reducible apply Keeps.ite
    | split

theorem Keeps.wbStale {s₀ s : State} (hk : Keeps s₀ s) (r : Req) : Keeps s₀ (State.wbStale s r) := by
  unfold State.wbStale
  repeat' first
    | with_reducible assumption
    | with_reducible apply Keeps.bump
    | with_reducible apply Keeps.finishCmp

theorem Keeps.upgLost {s₀ s : State} (hk : Keeps s₀ s) (r : Req) : Keeps s₀ (State.upgLost s r) := by
  unfold State.upgLost
  repeat' first
    | with_reducible assumption
    | with_reducible apply Keeps.bump
    | with_reducible apply Keeps.finish

theorem Keeps.protoErr {s₀ s : State} (hk : Keeps s₀ s) (r : Req) : Keeps s₀ (State.protoErr s r) := by
  unfold State.protoErr
  repeat' first
    | with_reducible assumption
    | with_reducible apply Keeps.bump
    | with_reducible apply Keeps.finishCmp

theorem Keeps.ownerWrite {s₀ s : State} (hk : Keeps s₀ s) (r : Req) : Keeps s₀ (State.ownerWrite s r) := by
  unfold State.ownerWrite
  repeat' first
    | with_reducible assumption
    | with_reducible apply Keeps.storeLine
    | with_reducible apply Keeps.finishCmp

theorem Keeps.readNow {s₀ s : State} (hk : Keeps s₀ s) (r : Req) : Keeps s₀ (State.readNow s r) := by
  unfold State.readNow
  repeat' first
    | with_reducible assumption
    | with_reducible apply Keeps.trayAsk
    | with_reducible apply Keeps.doRead
    | with_reducible apply Keeps.ite

theorem Keeps.dirU {s₀ s : State} (hk : Keeps s₀ s) (l : Nat) (g : Nat) (r : Req) (a : CohKind) :
    Keeps s₀ (State.dirU s l g r a) := by
  unfold State.dirU
  repeat' first
    | with_reducible assumption
    | with_reducible apply Keeps.grant
    | with_reducible apply Keeps.bump
    | with_reducible apply Keeps.dropDir
    | with_reducible apply Keeps.recall
    | with_reducible apply Keeps.wait
    | with_reducible apply Keeps.upgLost
    | with_reducible apply Keeps.wbStale
    | with_reducible apply Keeps.readNow
    | with_reducible apply Keeps.doStore
    | with_reducible apply Keeps.doAtomic
    | with_reducible apply Keeps.trayAsk
    | with_reducible apply Keeps.finishCmp
    | with_reducible apply Keeps.ite
    | (extract_lets +onlyGivenNames x; refine (fun (hx : Keeps s₀ x) => ?_) ?_;
       (on_goal 2 => (unfold x; clear x)); (on_goal 1 => ((try clear_value x); revert x; intro w hw)))
    | (extract_lets +onlyGivenNames x; clear_value x; revert x; intro w)
    | split

theorem Keeps.dirS {s₀ s : State} (hk : Keeps s₀ s) (l : Nat) (e : DirEnt) (r : Req) (q : Nat) (a : CohKind) :
    Keeps s₀ (State.dirS s l e r q a) := by
  unfold State.dirS
  repeat' first
    | with_reducible assumption
    | with_reducible apply Keeps.protoErr
    | with_reducible apply Keeps.grant
    | with_reducible apply Keeps.invalidate
    | with_reducible apply Keeps.upgLost
    | with_reducible apply Keeps.wbStale
    | with_reducible apply Keeps.stable
    | with_reducible apply Keeps.finishCmp
    | with_reducible apply Keeps.readNow
    | with_reducible apply Keeps.recall
    | with_reducible apply Keeps.ite
    | split

theorem Keeps.dirX {s₀ s : State} (hk : Keeps s₀ s) (l : Nat) (e : DirEnt) (r : Req) (q : Nat) (a : CohKind) :
    Keeps s₀ (State.dirX s l e r q a) := by
  unfold State.dirX
  repeat' first
    | with_reducible assumption
    | with_reducible apply Keeps.protoErr
    | with_reducible apply Keeps.askOwner
    | with_reducible apply Keeps.finish
    | with_reducible apply Keeps.upgLost
    | with_reducible apply Keeps.dropDir
    | with_reducible apply Keeps.ownerWrite
    | with_reducible apply Keeps.wbStale
    | with_reducible apply Keeps.finishCmp
    | with_reducible apply Keeps.recall
    | with_reducible apply Keeps.ite
    | split

theorem Keeps.dirO {s₀ s : State} (hk : Keeps s₀ s) (l : Nat) (e : DirEnt) (r : Req) (q : Nat) (a : CohKind) :
    Keeps s₀ (State.dirO s l e r q a) := by
  unfold State.dirO
  repeat' first
    | with_reducible assumption
    | with_reducible apply Keeps.protoErr
    | with_reducible apply Keeps.askOwner
    | with_reducible apply Keeps.invalidate
    | with_reducible apply Keeps.upgLost
    | with_reducible apply Keeps.stable
    | with_reducible apply Keeps.ownerWrite
    | with_reducible apply Keeps.wbStale
    | with_reducible apply Keeps.finishCmp
    | with_reducible apply Keeps.recall
    | with_reducible apply Keeps.ite
    | split

theorem Keeps.wbDuring {s₀ s : State} (hk : Keeps s₀ s) (l : Nat) (e : DirEnt) (r : Req) (q : Nat) :
    Keeps s₀ (State.wbDuring s l e r q) := by
  unfold State.wbDuring
  repeat' first
    | with_reducible assumption
    | with_reducible apply Keeps.ownerWrite
    | with_reducible apply Keeps.setDir
    | with_reducible apply Keeps.wbStale
    | with_reducible apply Keeps.finishCmp
    | with_reducible apply Keeps.ite

theorem Keeps.sendGroupFault {s₀ s : State} (hk : Keeps s₀ s) (g : Nat) (cause : Nat) :
    Keeps s₀ (State.sendGroupFault s g cause) := by
  unfold State.sendGroupFault
  repeat' first
    | with_reducible assumption
    | with_reducible apply Keeps.sendMulti

theorem Keeps.groupFault {s₀ s : State} (hk : Keeps s₀ s) (g : Nat) (cause : Nat) :
    Keeps s₀ (State.groupFault s g cause) := by
  unfold State.groupFault
  repeat' first
    | with_reducible assumption
    | (intro a)
    | with_reducible apply Keeps.wr
    | with_reducible apply Keeps.event
    | with_reducible apply Keeps.advance
    | with_reducible apply Keeps.faultedAnswer
    | with_reducible apply Keeps.sendGroupFault
    | with_reducible apply Keeps.setCg
    | with_reducible rfl
    | ((conv => arg 2; arg 23); with_reducible apply Keeps.lit)
    | with_reducible apply Keeps.ite
    | with_reducible apply Keeps.foldl
    | split

theorem Keeps.allGroupsFault {s₀ s : State} (hk : Keeps s₀ s) : Keeps s₀ (State.allGroupsFault s) := by
  unfold State.allGroupsFault
  repeat' first
    | with_reducible assumption
    | (intro a)
    | with_reducible apply Keeps.groupFault
    | with_reducible apply Keeps.ite
    | with_reducible apply Keeps.foldl

theorem Keeps.dirCheckOne {s₀ s : State} (hk : Keeps s₀ s) (l : Nat) : Keeps s₀ (State.dirCheckOne s l) := by
  unfold State.dirCheckOne
  repeat' first
    | with_reducible assumption
    | with_reducible apply Keeps.allGroupsFault
    | with_reducible apply Keeps.raise
    | with_reducible apply Keeps.dropDir
    | with_reducible apply Keeps.free
    | with_reducible apply Keeps.setDir
    | with_reducible rfl
    | ((conv => arg 2; arg 23); with_reducible apply Keeps.lit)
    | with_reducible apply Keeps.ite
    | (extract_lets +onlyGivenNames x; clear_value x; revert x; intro w)
    | (dsimp -zeta only)
    | split

theorem Keeps.dirCheck {s₀ s : State} (hk : Keeps s₀ s) (l : Nat) : Keeps s₀ (State.dirCheck s l) := by
  unfold State.dirCheck
  repeat' first
    | with_reducible assumption
    | (intro a)
    | with_reducible apply Keeps.dirCheckOne
    | with_reducible apply Keeps.ite
    | with_reducible apply Keeps.foldl

theorem Keeps.dirCheckAll {s₀ s : State} (hk : Keeps s₀ s) (ok : Nat → Bool) : Keeps s₀ (State.dirCheckAll s ok) := by
  unfold State.dirCheckAll
  repeat' first
    | with_reducible assumption
    | (intro a)
    | with_reducible apply Keeps.dirCheckOne
    | with_reducible apply Keeps.foldl

theorem Keeps.settleLine {s₀ s : State} (hk : Keeps s₀ s) (l : Nat) : Keeps s₀ (State.settleLine s l) := by
  unfold State.settleLine
  repeat' first
    | with_reducible assumption
    | with_reducible apply Keeps.transitionDone
    | with_reducible apply Keeps.ite
    | split

theorem Keeps.dirAccess {s₀ s : State} (hk : Keeps s₀ s) (r : Req) (g : Nat) : Keeps s₀ (State.dirAccess s r g) := by
  unfold State.dirAccess
  repeat' first
    | with_reducible assumption
    | with_reducible apply Keeps.dirCheck
    | with_reducible apply Keeps.faultedAnswer
    | with_reducible apply Keeps.bump
    | with_reducible apply Keeps.finishCmp
    | with_reducible apply Keeps.dirU
    | with_reducible apply Keeps.wbDuring
    | with_reducible apply Keeps.wait
    | with_reducible apply Keeps.settleLine
    | with_reducible apply Keeps.dirS
    | with_reducible apply Keeps.dirX
    | with_reducible apply Keeps.dirO
    | with_reducible apply Keeps.ite
    | (extract_lets +onlyGivenNames x; refine (fun (hx : Keeps s₀ x) => ?_) ?_;
       (on_goal 2 => (unfold x; clear x)); (on_goal 1 => ((try clear_value x); revert x; intro w hw)))
    | (extract_lets +onlyGivenNames x; clear_value x; revert x; intro w)
    | split

theorem Keeps.afterShare {s₀ s : State} (hk : Keeps s₀ s) (l : Nat) (e : DirEnt) (keep : Nat) (q : Option Nat) :
    Keeps s₀ (State.afterShare s l e keep q) := by
  unfold State.afterShare
  repeat' first
    | with_reducible assumption
    | with_reducible apply Keeps.stable
    | with_reducible apply Keeps.ite
    | (extract_lets +onlyGivenNames x; clear_value x; revert x; intro w)
    | split

theorem Keeps.ownerHack {s₀ s : State} (hk : Keeps s₀ s) (l : Nat) (e : DirEnt) (m : Msg) :
    Keeps s₀ (State.ownerHack s l e m) := by
  unfold State.ownerHack
  repeat' first
    | with_reducible assumption
    | with_reducible apply Keeps.storeLine
    | with_reducible apply Keeps.giveUp
    | with_reducible apply Keeps.bump
    | with_reducible apply Keeps.dropDir
    | with_reducible apply Keeps.markDone
    | with_reducible apply Keeps.stable
    | with_reducible apply Keeps.grant
    | with_reducible apply Keeps.afterShare
    | with_reducible apply Keeps.trayAsk
    | with_reducible apply Keeps.readLine
    | with_reducible apply Keeps.finish
    | with_reducible rfl
    | ((conv => arg 2; arg 23); with_reducible apply Keeps.lit)
    | with_reducible apply Keeps.ite
    | (extract_lets +onlyGivenNames x; refine (fun (hx : Keeps s₀ x) => ?_) ?_;
       (on_goal 2 => (unfold x; clear x)); (on_goal 1 => ((try clear_value x); revert x; intro w hw)))
    | (extract_lets +onlyGivenNames x; refine (fun (hx : Keeps s₀ x.2) => ?_) ?_;
       (on_goal 2 => (unfold x; clear x)); (on_goal 1 => ((try clear_value x); revert x; intro w hw)))
    | (extract_lets +onlyGivenNames x; clear_value x; revert x; intro w)
    | split

theorem Keeps.recallHack {s₀ s : State} (hk : Keeps s₀ s) (l : Nat) (e : DirEnt) (slot : Nat) (m : Msg) :
    Keeps s₀ (State.recallHack s l e slot m) := by
  unfold State.recallHack
  repeat' first
    | with_reducible assumption
    | with_reducible apply Keeps.storeLine
    | with_reducible apply Keeps.transitionDone
    | with_reducible apply Keeps.setDir
    | with_reducible apply Keeps.ite

theorem Keeps.flushedSnoop {s₀ s : State} (hk : Keeps s₀ s) (l : Nat) (slot : Nat) :
    Keeps s₀ (State.flushedSnoop s l slot) := by
  unfold State.flushedSnoop
  repeat' first
    | with_reducible assumption
    | with_reducible apply Keeps.dirCheck
    | with_reducible apply Keeps.fwdGone
    | with_reducible apply Keeps.groupFault
    | with_reducible apply Keeps.recallHack
    | with_reducible apply Keeps.ite
    | (extract_lets +onlyGivenNames x; refine (fun (hx : Keeps s₀ x) => ?_) ?_;
       (on_goal 2 => (unfold x; clear x)); (on_goal 1 => ((try clear_value x); revert x; intro w hw)))
    | split

theorem Keeps.snoopHack {s₀ s : State} (hk : Keeps s₀ s) (l : Nat) (id : Nat) (m : Msg) :
    Keeps s₀ (State.snoopHack s l id m) := by
  unfold State.snoopHack
  repeat' first
    | with_reducible assumption
    | with_reducible apply Keeps.dirCheck
    | with_reducible apply Keeps.fwdGone
    | with_reducible apply Keeps.bump
    | with_reducible apply Keeps.recallHack
    | with_reducible apply Keeps.flushedSnoop
    | with_reducible apply Keeps.ownerHack
    | with_reducible apply Keeps.ite
    | (extract_lets +onlyGivenNames x; refine (fun (hx : Keeps s₀ x) => ?_) ?_;
       (on_goal 2 => (unfold x; clear x)); (on_goal 1 => ((try clear_value x); revert x; intro w hw)))
    | split

theorem Keeps.grantData {s₀ s : State} (hk : Keeps s₀ s) (l : Nat) : Keeps s₀ (State.grantData s l) := by
  unfold State.grantData
  repeat' first
    | with_reducible assumption
    | with_reducible apply Keeps.grantNow
    | with_reducible apply Keeps.ite
    | split

theorem Keeps.grantLost {s₀ s : State} (hk : Keeps s₀ s) (l : Nat) : Keeps s₀ (State.grantLost s l) := by
  unfold State.grantLost
  repeat' first
    | with_reducible assumption
    | with_reducible apply Keeps.finish
    | with_reducible apply Keeps.stable
    | with_reducible apply Keeps.dropDir
    | with_reducible apply Keeps.ite
    | split

theorem Keeps.grantAgain {s₀ s : State} (hk : Keeps s₀ s) : Keeps s₀ (State.grantAgain s) := by
  unfold State.grantAgain
  repeat' first
    | with_reducible assumption
    | (intro a)
    | with_reducible apply Keeps.grant
    | with_reducible apply Keeps.foldl
    | split

theorem Keeps.endLine {s₀ s : State} (hk : Keeps s₀ s) (l : Nat) (e : DirEnt) (st : Nat) :
    Keeps s₀ (State.endLine s l e st) := by
  unfold State.endLine
  repeat' first
    | with_reducible assumption
    | with_reducible apply Keeps.finishCmp
    | with_reducible apply Keeps.dropDir
    | with_reducible apply Keeps.giveUp
    | with_reducible apply Keeps.setDir
    | with_reducible rfl
    | ((conv => arg 2; arg 23); with_reducible apply Keeps.lit)
    | with_reducible apply Keeps.ite
    | split

/-! ### Sys2Proof/Machine/Regions.lean -/

theorem Keeps.setRegion {s₀ s : State} (hk : Keeps s₀ s) (i : Nat) (x : Region) : Keeps s₀ (State.setRegion s i x) := by
  unfold State.setRegion
  exact Keeps.lit hk rfl rfl

theorem Keeps.sendNote {s₀ s : State} (hk : Keeps s₀ s) (i : Nat) (id : Nat) (addr : Nat) (nl : Nat) (r : Req) :
    Keeps s₀ (State.sendNote s i id addr nl r) := by
  unfold State.sendNote
  repeat' first
    | with_reducible assumption
    | with_reducible apply Keeps.bump
    | with_reducible apply Keeps.send
    | with_reducible rfl
    | ((conv => arg 2; arg 23); with_reducible apply Keeps.lit)
    | (extract_lets +onlyGivenNames x; refine (fun (hx : Keeps s₀ x) => ?_) ?_;
       (on_goal 2 => (unfold x; clear x)); (on_goal 1 => ((try clear_value x); revert x; intro w hw)))
    | (extract_lets +onlyGivenNames x; clear_value x; revert x; intro w)
    | split

theorem Keeps.sendNotes {s₀ s : State} (hk : Keeps s₀ s) (i : Nat) (x : Region) (addr : Nat) (nlines : Nat) (r : Req) :
    Keeps s₀ (State.sendNotes s i x addr nlines r) := by
  unfold State.sendNotes
  repeat' first
    | with_reducible assumption
    | (intro a)
    | with_reducible apply Keeps.sendNote
    | with_reducible apply Keeps.foldl

theorem Keeps.pubAnswer {s₀ s : State} (hk : Keeps s₀ s) (r : Req) (ver : Nat) : Keeps s₀ (State.pubAnswer s r ver) := by
  unfold State.pubAnswer
  repeat' first
    | with_reducible assumption
    | with_reducible apply Keeps.answer

theorem Keeps.pubBegin {s₀ s : State} (hk : Keeps s₀ s) (i : Nat) (r : Req) : Keeps s₀ (State.pubBegin s i r) := by
  unfold State.pubBegin
  repeat' first
    | with_reducible assumption
    | with_reducible apply Keeps.bump
    | with_reducible apply Keeps.finish
    | with_reducible apply Keeps.finishCmp
    | with_reducible apply Keeps.setRegion
    | with_reducible apply Keeps.ite

theorem Keeps.pubNext {s₀ s : State} (hk : Keeps s₀ s) (i : Nat) (a : Nat) : Keeps s₀ (State.pubNext s i a) := by
  induction a generalizing s i with
  | zero =>
    unfold State.pubNext
    repeat' first
      | with_reducible assumption
  | succ n ih =>
    unfold State.pubNext
    repeat' first
      | with_reducible assumption
      | with_reducible apply ih
      | with_reducible apply Keeps.setRegion
      | with_reducible apply Keeps.pubBegin
      | with_reducible apply Keeps.ite
      | (extract_lets +onlyGivenNames x; clear_value x; revert x; intro w)
      | split

theorem Keeps.pubEnd {s₀ s : State} (hk : Keeps s₀ s) (i : Nat) : Keeps s₀ (State.pubEnd s i) := by
  unfold State.pubEnd
  repeat' first
    | with_reducible assumption
    | with_reducible apply Keeps.setRegion
    | with_reducible apply Keeps.pubAnswer
    | with_reducible apply Keeps.pubNext
    | (extract_lets +onlyGivenNames x; clear_value x; revert x; intro w)
    | split

theorem Keeps.pubDrop {s₀ s : State} (hk : Keeps s₀ s) (i : Nat) : Keeps s₀ (State.pubDrop s i) := by
  unfold State.pubDrop
  repeat' first
    | with_reducible assumption
    | with_reducible apply Keeps.pubNext
    | with_reducible apply Keeps.setRegion
    | with_reducible apply Keeps.ite

theorem Keeps.pubCommit {s₀ s : State} (hk : Keeps s₀ s) (i : Nat) : Keeps s₀ (State.pubCommit s i) := by
  unfold State.pubCommit
  repeat' first
    | with_reducible assumption
    | with_reducible apply Keeps.bump
    | with_reducible apply Keeps.markDone
    | with_reducible apply Keeps.setRegion
    | with_reducible apply Keeps.sendNotes
    | with_reducible apply Keeps.pubEnd
    | with_reducible apply Keeps.ite
    | (extract_lets +onlyGivenNames x; clear_value x; revert x; intro w)
    | split

theorem Keeps.noteDone {s₀ s : State} (hk : Keeps s₀ s) (n : Note) : Keeps s₀ (State.noteDone s n) := by
  unfold State.noteDone
  repeat' first
    | with_reducible assumption
    | with_reducible apply Keeps.pubEnd
    | with_reducible apply Keeps.finishCmp
    | with_reducible rfl
    | ((conv => arg 2; arg 23); with_reducible apply Keeps.lit)
    | with_reducible apply Keeps.ite

theorem Keeps.dropSub {s₀ s : State} (hk : Keeps s₀ s) (n : Note) (c : Fld) : Keeps s₀ (State.dropSub s n c) := by
  unfold State.dropSub
  repeat' first
    | with_reducible assumption
    | with_reducible apply Keeps.bump
    | with_reducible apply Keeps.setRegion
    | with_reducible apply Keeps.noteDone
    | with_reducible apply Keeps.event

theorem Keeps.unsubscribe {s₀ s : State} (hk : Keeps s₀ s) (id : Nat) : Keeps s₀ (State.unsubscribe s id) := by
  unfold State.unsubscribe
  repeat' first
    | with_reducible assumption
    | (intro a)
    | with_reducible apply Keeps.noteDone
    | with_reducible rfl
    | ((conv => arg 2; arg 23); with_reducible apply Keeps.lit)
    | with_reducible apply Keeps.foldl

theorem Keeps.endRegion {s₀ s : State} (hk : Keeps s₀ s) (i : Nat) : Keeps s₀ (State.endRegion s i) := by
  unfold State.endRegion
  repeat' first
    | with_reducible assumption
    | (intro a)
    | with_reducible apply Keeps.setRegion
    | with_reducible apply Keeps.finishCmp
    | with_reducible apply Keeps.pubAnswer
    | with_reducible apply Keeps.noteDone
    | with_reducible rfl
    | ((conv => arg 2; arg 23); with_reducible apply Keeps.lit)
    | with_reducible apply Keeps.ite
    | with_reducible apply Keeps.foldl
    | (extract_lets +onlyGivenNames x; clear_value x; revert x; intro w)
    | split

/-! ### Sys2Proof/Machine/Points.lean -/

theorem Keeps.setBucket {s₀ s : State} (hk : Keeps s₀ s) (k : Nat) (v : ℤ) : Keeps s₀ (State.setBucket s k v) := by
  unfold State.setBucket
  exact Keeps.lit hk rfl rfl

theorem Keeps.chargeTok {s₀ s : State} (hk : Keeps s₀ s) (k : Nat) (refill : Nat) (cost : Nat) :
    Keeps s₀ (State.chargeTok s k refill cost) := by
  unfold State.chargeTok
  repeat' first
    | with_reducible assumption
    | with_reducible apply Keeps.setBucket
    | with_reducible apply Keeps.ite

theorem Keeps.setSched {s₀ s : State} (hk : Keeps s₀ s) (k : Nat) (x : Sched) : Keeps s₀ (State.setSched s k x) := by
  unfold State.setSched
  exact Keeps.lit hk rfl rfl

theorem Keeps.remember {s₀ s : State} (hk : Keeps s₀ s) (level : Nat) (node : Nat → Nat) (k : Pick) (cost : Nat)
    (more : Nat → Bool) :
    Keeps s₀ (State.remember s level node k cost more) := by
  unfold State.remember
  repeat' first
    | with_reducible assumption
    | (intro a)
    | with_reducible apply Keeps.setSched
    | with_reducible apply Keeps.foldl

theorem Keeps.charge {s₀ s : State} (hk : Keeps s₀ s) (q : Nat) (x : Cand) : Keeps s₀ (State.charge s q x) := by
  unfold State.charge
  repeat' first
    | with_reducible assumption
    | with_reducible apply Keeps.chargeTok
    | with_reducible apply Keeps.ite

theorem Keeps.selectAt {s₀ s : State} (hk : Keeps s₀ s) (cs : List Cand) (q : Nat) : Keeps s₀ (State.selectAt s cs q).2 := by
  unfold State.selectAt
  repeat' first
    | with_reducible assumption
    | (intro a)
    | with_reducible apply Keeps.wr
    | with_reducible apply Keeps.remember
    | with_reducible apply Keeps.charge
    | with_reducible apply Keeps.ite
    | with_reducible apply Keeps.foldl
    | (extract_lets +onlyGivenNames x; refine (fun (hx : Keeps s₀ x) => ?_) ?_;
       (on_goal 2 => (unfold x; clear x)); (on_goal 1 => ((try clear_value x); revert x; intro w hw)))
    | split

theorem Keeps.atPoint {s₀ s : State} (hk : Keeps s₀ s) (q : Nat) (x : Cand) : Keeps s₀ (State.atPoint s q x).2 := by
  unfold State.atPoint
  repeat' first
    | with_reducible assumption
    | with_reducible apply Keeps.selectAt
    | with_reducible apply Keeps.ite2

theorem Keeps.queueAt {s₀ s : State} (hk : Keeps s₀ s) (q : Nat) (r : Req) : Keeps s₀ (State.queueAt s q r) := by
  unfold State.queueAt
  repeat' first
    | with_reducible assumption
    | with_reducible rfl
    | ((conv => arg 2; arg 23); with_reducible apply Keeps.lit)
    | (extract_lets +onlyGivenNames x; clear_value x; revert x; intro w)

theorem Keeps.passPoint {s₀ s : State} (hk : Keeps s₀ s) (q : Nat) (r : Req) (act : State → Req → State)
    (hact : ∀ x x1, Keeps s₀ x → Keeps s₀ (act x x1)) :
    Keeps s₀ (State.passPoint s q r act) := by
  unfold State.passPoint
  repeat' first
    | with_reducible assumption
    | with_reducible apply hact
    | with_reducible apply Keeps.atPoint
    | with_reducible apply Keeps.queueAt
    | with_reducible apply Keeps.ite

/-! ### Sys2Proof/Machine/Access.lean -/

theorem Keeps.pubAccess {s₀ s : State} (h : Keeps s₀ s) (r : Req) : ∀ t, State.pubAccess s r = .done t → Keeps s₀ t := by
  intro t e
  unfold State.pubAccess at e
  dsimp only at e
  repeat' split at e
  all_goals first
    | (cases e; done)
    | (cases e; with_reducible first | exact h.finish .. | exact (h.setRegion ..).finishCmp .. | exact h.setRegion .. | exact h.pubBegin .. | exact h.finishCmp .. | exact h.sendNotes ..)

theorem Keeps.holdRelease {s₀ s : State} (hk : Keeps s₀ s) (r : Req) : Keeps s₀ (State.holdRelease s r) := by
  unfold State.holdRelease
  repeat' first
    | with_reducible assumption
    | with_reducible apply Keeps.bump
    | with_reducible apply Keeps.wait
    | with_reducible apply Keeps.ite

theorem Keeps.viaTier {s₀ s : State} (hk : Keeps s₀ s) (r : Req) (x : Extent) (act : State → Req → State)
    (hact : ∀ x x1, Keeps s₀ x → Keeps s₀ (act x x1)) :
    Keeps s₀ (State.viaTier s r x act) := by
  unfold State.viaTier
  repeat' first
    | with_reducible assumption
    | with_reducible apply hact
    | with_reducible apply Keeps.endRun
    | with_reducible apply Keeps.gate
    | with_reducible apply Keeps.lateWait
    | with_reducible apply Keeps.noFrameAnswer
    | with_reducible apply Keeps.ite
    | (extract_lets +onlyGivenNames x; refine (fun (hx : Keeps s₀ x) => ?_) ?_;
       (on_goal 2 => (unfold x; clear x)); (on_goal 1 => ((try clear_value x); revert x; intro w hw)))
    | (extract_lets +onlyGivenNames x; refine (fun (hx : Keeps s₀ x.2) => ?_) ?_;
       (on_goal 2 => (unfold x; clear x)); (on_goal 1 => ((try clear_value x); revert x; intro w hw)))
    | (extract_lets +onlyGivenNames x; clear_value x; revert x; intro w)
    | (extract_lets +onlyGivenNames x; revert x; intro w)
    | split

theorem Keeps.plainAct {s₀ s : State} (hk : Keeps s₀ s) (r : Req) (x : Extent) : Keeps s₀ (State.plainAct s r x) := by
  unfold State.plainAct
  repeat' first
    | with_reducible assumption
    | with_reducible apply Keeps.plainRead
    | with_reducible apply Keeps.plainStore
    | with_reducible apply Keeps.plainAtomic
    | with_reducible apply Keeps.finishCmp
    | with_reducible apply Keeps.ite

theorem Keeps.plainPath {s₀ s : State} (hk : Keeps s₀ s) (r : Req) (x : Extent) : Keeps s₀ (State.plainPath s r x) := by
  unfold State.plainPath
  repeat' first
    | with_reducible assumption
    | (intro a)
    | with_reducible apply Keeps.viaTier
    | with_reducible apply Keeps.plainAct
    | with_reducible apply Keeps.finishCmp
    | with_reducible apply Keeps.ite

theorem Keeps.poolAccess {s₀ s : State} (hk : Keeps s₀ s) (r : Req) : Keeps s₀ (State.poolAccess s r) := by
  unfold State.poolAccess
  repeat' first
    | exact Keeps.pubAccess (by assumption) _ _ (by assumption)
    | with_reducible assumption
    | (intro a)
    | with_reducible apply Keeps.finishCmp
    | with_reducible apply Keeps.wait
    | with_reducible apply Keeps.dirAccess
    | with_reducible apply Keeps.viaTier
    | with_reducible apply Keeps.plainPath
    | with_reducible apply Keeps.ite
    | (extract_lets +onlyGivenNames x; clear_value x; revert x; intro w)
    | split

theorem Keeps.engSend {s₀ s : State} (hk : Keeps s₀ s) (r : Req) : Keeps s₀ (State.engSend s r) := by
  unfold State.engSend
  repeat' first
    | with_reducible assumption
    | (intro a)
    | with_reducible apply Keeps.passPoint
    | with_reducible apply Keeps.poolAccess

theorem Keeps.engAsk {s₀ s : State} (hk : Keeps s₀ s) (o : Origin) (src : Nat) (sub : Nat) (sc : Nat) (l : Nat) :
    Keeps s₀ (State.engAsk s o src sub sc l) := by
  unfold State.engAsk
  repeat' first
    | with_reducible assumption
    | with_reducible apply Keeps.engSend
    | with_reducible rfl
    | ((conv => arg 2; arg 23); with_reducible apply Keeps.lit)

theorem Keeps.engAskLines {s₀ s : State} (hk : Keeps s₀ s) (o : Origin) (src : Nat) (sub : Nat) (sc : Nat) (ls : List Nat) :
    Keeps s₀ (State.engAskLines s o src sub sc ls) := by
  unfold State.engAskLines
  repeat' first
    | with_reducible assumption
    | (intro a)
    | with_reducible apply Keeps.engAsk
    | with_reducible apply Keeps.ite
    | with_reducible apply Keeps.foldl

theorem Keeps.engAskWhere {s₀ s : State} (hk : Keeps s₀ s) (o : Origin) (src : Nat) (sub : Nat) (sc : Nat) (rs : List
    (Nat × Nat)) (ok : Nat → Bool) :
    Keeps s₀ (State.engAskWhere s o src sub sc rs ok) := by
  unfold State.engAskWhere
  repeat' first
    | with_reducible assumption
    | with_reducible apply Keeps.engAskLines

theorem Keeps.engAskRanges {s₀ s : State} (hk : Keeps s₀ s) (o : Origin) (src : Nat) (sub : Nat) (sc : Nat) (rs : List
    (Nat × Nat)) :
    Keeps s₀ (State.engAskRanges s o src sub sc rs) := by
  unfold State.engAskRanges
  repeat' first
    | with_reducible assumption
    | with_reducible apply Keeps.engAskWhere

theorem Keeps.engNote {s₀ s : State} (hk : Keeps s₀ s) (o : Origin) (l : Nat) : Keeps s₀ (State.engNote s o l) := by
  unfold State.engNote
  exact Keeps.lit hk rfl rfl

theorem Keeps.engUnnote {s₀ s : State} (hk : Keeps s₀ s) (o : Origin) : Keeps s₀ (State.engUnnote s o) := by
  unfold State.engUnnote
  exact Keeps.lit hk rfl rfl

theorem Keeps.engTry {s₀ s : State} (hk : Keeps s₀ s) (o : Origin) (src : Nat) (sub : Nat) (sc : Nat) (f : State → State)
    (hf : ∀ x, Keeps s₀ x → Keeps s₀ (f x)) :
    Keeps s₀ (State.engTry s o src sub sc f).2 := by
  unfold State.engTry
  repeat' first
    | with_reducible assumption
    | with_reducible apply hf
    | with_reducible apply Keeps.engAskLines
    | with_reducible apply Keeps.ite2

theorem Keeps.engForget {s₀ s : State} (hk : Keeps s₀ s) (o : Origin) : Keeps s₀ (State.engForget s o) := by
  unfold State.engForget
  exact Keeps.lit hk rfl rfl

theorem Keeps.engLine {s₀ s : State} (hk : Keeps s₀ s) (o : Origin) (l : Nat) : Keeps s₀ (State.engLine s o l).2 := by
  unfold State.engLine
  repeat' first
    | with_reducible assumption
    | with_reducible apply Keeps.applyRun
    | with_reducible apply Keeps.gate
    | with_reducible apply Keeps.bump
    | with_reducible apply Keeps.readLine
    | with_reducible apply Keeps.ite
    | with_reducible apply Keeps.ite2
    | (extract_lets +onlyGivenNames x; refine (fun (hx : Keeps s₀ x) => ?_) ?_;
       (on_goal 2 => (unfold x; clear x)); (on_goal 1 => ((try clear_value x); revert x; intro w hw)))
    | (extract_lets +onlyGivenNames x; clear_value x; revert x; intro w)
    | split

theorem Keeps.engWriteLine {s₀ s : State} (hk : Keeps s₀ s) (o : Origin) (src : Nat) (share : Nat) (sub : Nat) (sc : Nat)
    (l : Nat) (bs : List Byte) (psn : Bool) :
    Keeps s₀ (State.engWriteLine s o src share sub sc l bs psn) := by
  unfold State.engWriteLine
  repeat' first
    | with_reducible assumption
    | with_reducible apply Keeps.engSend

theorem Keeps.engWriteWord {s₀ s : State} (hk : Keeps s₀ s) (o : Origin) (src : Nat) (share : Nat) (sub : Nat) (sc : Nat)
    (a : Nat) (bs : List Byte) (psn : Bool) :
    Keeps s₀ (State.engWriteWord s o src share sub sc a bs psn) := by
  unfold State.engWriteWord
  repeat' first
    | with_reducible assumption
    | with_reducible apply Keeps.engSend

theorem Keeps.engOr {s₀ s : State} (hk : Keeps s₀ s) (o : Origin) (src : Nat) (sub : Nat) (sc : Nat) (a : Nat) (v : Nat) :
    Keeps s₀ (State.engOr s o src sub sc a v) := by
  unfold State.engOr
  repeat' first
    | with_reducible assumption
    | with_reducible apply Keeps.engSend

theorem Keeps.engDropReqs {s₀ s : State} (hk : Keeps s₀ s) (here : Req → Bool) : Keeps s₀ (State.engDropReqs s here) := by
  unfold State.engDropReqs
  repeat' first
    | with_reducible assumption
    | with_reducible rfl
    | ((conv => arg 2; arg 23); with_reducible apply Keeps.lit)
    | (extract_lets +onlyGivenNames x; refine (fun (hx : Keeps s₀ x) => ?_) ?_;
       (on_goal 2 => (unfold x; clear x)); (on_goal 1 => ((try clear_value x); revert x; intro w hw)))
    | (extract_lets +onlyGivenNames x; clear_value x; revert x; intro w)

theorem Keeps.engDrop {s₀ s : State} (hk : Keeps s₀ s) (o : Origin) : Keeps s₀ (State.engDrop s o) := by
  unfold State.engDrop
  repeat' first
    | with_reducible assumption
    | with_reducible apply Keeps.engForget
    | with_reducible apply Keeps.engDropReqs

/-! ### Sys2Proof/Machine/Rgf.lean -/

theorem Keeps.modSlot {s₀ s : State} (hk : Keeps s₀ s) (k : Nat) (f : OpSlot → OpSlot) : Keeps s₀ (State.modSlot s k f) := by
  unfold State.modSlot
  repeat' first
    | with_reducible assumption
    | with_reducible apply Keeps.setSlot

theorem Keeps.opOutcome {s₀ s : State} (hk : Keeps s₀ s) (k : Nat) (rank : Nat) (st : Nat) :
    Keeps s₀ (State.opOutcome s k rank st) := by
  unfold State.opOutcome
  repeat' first
    | with_reducible assumption
    | with_reducible apply Keeps.modSlot

theorem Keeps.opEnd {s₀ s : State} (hk : Keeps s₀ s) (k : Nat) (rank : Nat) (st : Nat) :
    Keeps s₀ (State.opEnd s k rank st) := by
  unfold State.opEnd
  repeat' first
    | with_reducible assumption
    | with_reducible apply Keeps.modSlot

theorem Keeps.opOwn {s₀ s : State} (hk : Keeps s₀ s) (k : Nat) (rank : Nat) (st : Nat) :
    Keeps s₀ (State.opOwn s k rank st) := by
  unfold State.opOwn
  repeat' first
    | with_reducible assumption
    | with_reducible apply Keeps.modSlot

theorem Keeps.opRefuse {s₀ s : State} (hk : Keeps s₀ s) (k : Nat) (st : Nat) : Keeps s₀ (State.opRefuse s k st) := by
  unfold State.opRefuse
  repeat' first
    | with_reducible assumption
    | with_reducible apply Keeps.modSlot

theorem Keeps.opRead {s₀ s : State} (hk : Keeps s₀ s) (k : Nat) (a : Nat) (n : Nat) : Keeps s₀ (State.opRead s k a n).2 := by
  unfold State.opRead
  repeat' first
    | with_reducible assumption
    | (intro a)
    | with_reducible apply Keeps.engNote
    | with_reducible apply Keeps.engLine
    | with_reducible apply Keeps.modSlot
    | with_reducible apply Keeps.ite
    | with_reducible apply Keeps.foldl2

theorem Keeps.opWord {s₀ s : State} (hk : Keeps s₀ s) (k : Nat) (a : Nat) (n : Nat) : Keeps s₀ (State.opWord s k a n).2 := by
  unfold State.opWord
  repeat' first
    | with_reducible assumption
    | with_reducible apply Keeps.opRead

theorem Keeps.onShare {s₀ s : State} (hk : Keeps s₀ s) (k : Nat) (i : Nat) : Keeps s₀ (State.onShare s k i) := by
  unfold State.onShare
  repeat' first
    | with_reducible assumption
    | with_reducible apply Keeps.modSlot

theorem Keeps.opWritePiece {s₀ s : State} (hk : Keeps s₀ s) (k : Nat) (sc : Nat) (sub : Nat) (a : Nat) (bs : List Byte)
    (psn : Bool) :
    Keeps s₀ (State.opWritePiece s k sc sub a bs psn) := by
  unfold State.opWritePiece
  repeat' first
    | with_reducible assumption
    | (intro a)
    | with_reducible apply Keeps.opOutcome
    | with_reducible apply Keeps.modSlot
    | with_reducible apply Keeps.engWriteLine
    | with_reducible apply Keeps.engWriteWord
    | with_reducible apply Keeps.ite
    | with_reducible apply Keeps.foldl

theorem Keeps.opWriteN {s₀ s : State} (hk : Keeps s₀ s) (k : Nat) (sc : Nat) (a : Nat) (bs : List Byte) (psn : Nat → Bool) :
    Keeps s₀ (State.opWriteN s k sc a bs psn).2 := by
  unfold State.opWriteN
  repeat' first
    | with_reducible assumption
    | (intro a)
    | with_reducible apply Keeps.opWritePiece
    | with_reducible apply Keeps.ite2
    | with_reducible apply Keeps.foldl2

theorem Keeps.opWrite {s₀ s : State} (hk : Keeps s₀ s) (k : Nat) (sc : Nat) (a : Nat) (bs : List Byte) (psn : Nat → Bool) :
    Keeps s₀ (State.opWrite s k sc a bs psn) := by
  unfold State.opWrite
  repeat' first
    | with_reducible assumption
    | with_reducible apply Keeps.opWriteN

theorem Keeps.opPoison {s₀ s : State} (hk : Keeps s₀ s) (k : Nat) (pos : Nat) : Keeps s₀ (State.opPoison s k pos) := by
  unfold State.opPoison
  repeat' first
    | with_reducible assumption
    | with_reducible apply Keeps.modSlot

theorem Keeps.opHalt {s₀ s : State} (hk : Keeps s₀ s) (k : Nat) (st : Nat) (pos : Nat) :
    Keeps s₀ (State.opHalt s k st pos) := by
  unfold State.opHalt
  repeat' first
    | with_reducible assumption
    | with_reducible apply Keeps.modSlot

theorem Keeps.setOwnq {s₀ s : State} (hk : Keeps s₀ s) (d : Nat) (q : List Part) : Keeps s₀ (State.setOwnq s d q) := by
  unfold State.setOwnq
  repeat' first
    | with_reducible assumption
    | with_reducible apply Keeps.wr
    | with_reducible rfl
    | ((conv => arg 2; arg 23); with_reducible apply Keeps.lit)

theorem Keeps.setDieq {s₀ s : State} (hk : Keeps s₀ s) (d : Nat) (q : List Part) : Keeps s₀ (State.setDieq s d q) := by
  unfold State.setDieq
  repeat' first
    | with_reducible assumption
    | with_reducible apply Keeps.setOwnq
    | split

theorem Keeps.bumpPair {s₀ s : State} (hk : Keeps s₀ s) (f : Fld) (d : Nat) (n : Nat) :
    Keeps s₀ (State.bumpPair s f d n) := by
  unfold State.bumpPair
  repeat' first
    | with_reducible assumption
    | with_reducible apply Keeps.bump
    | split

theorem Keeps.setLaunchq {s₀ s : State} (hk : Keeps s₀ s) (q : List Part) : Keeps s₀ (State.setLaunchq s q) := by
  unfold State.setLaunchq
  repeat' first
    | with_reducible assumption
    | with_reducible apply Keeps.wr
    | with_reducible rfl
    | ((conv => arg 2; arg 23); with_reducible apply Keeps.lit)

theorem Keeps.placeWaiting {s₀ s : State} (hk : Keeps s₀ s) : Keeps s₀ (State.placeWaiting s) := by
  unfold State.placeWaiting
  repeat' first
    | with_reducible assumption
    | (intro a)
    | with_reducible apply Keeps.setDieq
    | with_reducible apply Keeps.setLaunchq
    | with_reducible apply Keeps.foldl
    | split

theorem Keeps.placePart {s₀ s : State} (hk : Keeps s₀ s) (x : Part) : Keeps s₀ (State.placePart s x) := by
  unfold State.placePart
  repeat' first
    | with_reducible assumption
    | with_reducible apply Keeps.placeWaiting
    | with_reducible apply Keeps.setLaunchq

theorem Keeps.dropParts {s₀ s : State} (hk : Keeps s₀ s) (k : Nat) : Keeps s₀ (State.dropParts s k) := by
  unfold State.dropParts
  repeat' first
    | with_reducible assumption
    | (intro a)
    | with_reducible apply Keeps.setLaunchq
    | with_reducible apply Keeps.setDieq
    | with_reducible apply Keeps.foldl

/-! ### Sys2Proof/Machine/Work.lean -/

theorem Keeps.countWr {s₀ s : State} (hk : Keeps s₀ s) (d : Nat) (c : WrCount) : Keeps s₀ (State.countWr s d c) := by
  unfold State.countWr
  repeat' first
    | with_reducible assumption
    | with_reducible apply Keeps.bump

theorem Keeps.countBlocks {s₀ s : State} (hk : Keeps s₀ s) (d : Nat) (bs : List (Block × Nat)) :
    Keeps s₀ (State.countBlocks s d bs) := by
  unfold State.countBlocks
  repeat' first
    | with_reducible assumption
    | (intro a)
    | with_reducible apply Keeps.bumpPair
    | with_reducible apply Keeps.ite
    | with_reducible apply Keeps.foldl
    | split

theorem Keeps.expanded {s₀ s : State} (hk : Keeps s₀ s) (d : Nat) (f16 : Bool) (bs : List (Block × Nat)) :
    Keeps s₀ (State.expanded s d f16 bs) := by
  unfold State.expanded
  repeat' first
    | with_reducible assumption
    | with_reducible apply Keeps.bumpPair
    | with_reducible apply Keeps.countBlocks

theorem Keeps.freeRow {s₀ s : State} (hk : Keeps s₀ s) (n : Nat) : Keeps s₀ (State.freeRow s n).2 := by
  unfold State.freeRow
  repeat' first
    | with_reducible assumption
    | with_reducible rfl
    | ((conv => arg 2; arg 23); with_reducible apply Keeps.lit)
    | (dsimp -zeta only)

theorem Keeps.gatherRow {s₀ s : State} (hk : Keeps s₀ s) (k : Nat) (d : Nat) (r : Nat) (ds : List Byte) :
    Keeps s₀ (State.gatherRow s k d r ds).2 := by
  unfold State.gatherRow
  repeat' first
    | with_reducible assumption
    | with_reducible apply Keeps.freeRow
    | with_reducible apply Keeps.opRead
    | with_reducible apply Keeps.expanded
    | with_reducible apply Keeps.ite2

theorem Keeps.gatherW {s₀ s : State} (hk : Keeps s₀ s) (k : Nat) (ds : List Byte) : Keeps s₀ (State.gatherW s k ds).2 := by
  unfold State.gatherW
  repeat' first
    | with_reducible assumption
    | with_reducible apply Keeps.opRead
    | with_reducible apply Keeps.ite2

theorem Keeps.gatherSeg {s₀ s : State} (hk : Keeps s₀ s) (k : Nat) (d : Nat) (ds : List Byte) (w : List
    (List Sys2Proof.Machine.Num) × Bool) (h : Harm) (sg : Nat) :
    Keeps s₀ (State.gatherSeg s k d ds w h sg) := by
  unfold State.gatherSeg
  repeat' first
    | with_reducible assumption
    | (intro a)
    | with_reducible apply Keeps.opWord
    | with_reducible apply Keeps.modSlot
    | with_reducible apply Keeps.opOutcome
    | with_reducible apply Keeps.gatherRow
    | with_reducible apply Keeps.bumpPair
    | with_reducible apply Keeps.countWr
    | with_reducible apply Keeps.opWrite
    | with_reducible rfl
    | ((conv => arg 2; arg 23); with_reducible apply Keeps.lit)
    | with_reducible apply Keeps.ite
    | with_reducible apply Keeps.ite2
    | with_reducible apply Keeps.foldl2

theorem Keeps.gatherPart {s₀ s : State} (hk : Keeps s₀ s) (k : Nat) (d : Nat) (lo : Nat) (hi : Nat) (h : Harm) :
    Keeps s₀ (State.gatherPart s k d lo hi h) := by
  unfold State.gatherPart
  repeat' first
    | with_reducible assumption
    | (intro a)
    | with_reducible apply Keeps.gatherW
    | with_reducible apply Keeps.opPoison
    | with_reducible apply Keeps.gatherSeg
    | with_reducible apply Keeps.ite
    | with_reducible apply Keeps.foldl

theorem Keeps.filterKeys {s₀ s : State} (hk : Keeps s₀ s) (k : Nat) (a : Nat) (n : Nat) :
    Keeps s₀ (State.filterKeys s k a n).2 := by
  unfold State.filterKeys
  repeat' first
    | with_reducible assumption
    | with_reducible apply Keeps.opRead

theorem Keeps.filterPart {s₀ s : State} (hk : Keeps s₀ s) (k : Nat) (h : Harm) : Keeps s₀ (State.filterPart s k h) := by
  unfold State.filterPart
  repeat' first
    | with_reducible assumption
    | (intro a)
    | with_reducible apply Keeps.filterKeys
    | with_reducible apply Keeps.opRead
    | with_reducible apply Keeps.modSlot
    | with_reducible apply Keeps.opPoison
    | with_reducible apply Keeps.opWriteN
    | with_reducible apply Keeps.engOr
    | with_reducible apply Keeps.opHalt
    | with_reducible apply Keeps.opOwn
    | with_reducible apply Keeps.ite
    | with_reducible apply Keeps.ite2
    | with_reducible apply Keeps.foldl

theorem Keeps.matmulB {s₀ s : State} (hk : Keeps s₀ s) (k : Nat) (ds : List Byte) : Keeps s₀ (State.matmulB s k ds).2 := by
  unfold State.matmulB
  repeat' first
    | with_reducible assumption
    | (intro a)
    | with_reducible apply Keeps.opRead
    | with_reducible apply Keeps.ite2
    | with_reducible apply Keeps.foldl2

theorem Keeps.matmulRow {s₀ s : State} (hk : Keeps s₀ s) (k : Nat) (d : Nat) (ds : List Byte) (b : List
    (List Sys2Proof.Machine.Num) × Bool) (h : Harm) (i : Nat) :
    Keeps s₀ (State.matmulRow s k d ds b h i) := by
  unfold State.matmulRow
  repeat' first
    | with_reducible assumption
    | with_reducible apply Keeps.opRead
    | with_reducible apply Keeps.opWrite
    | with_reducible apply Keeps.modSlot
    | with_reducible apply Keeps.countWr
    | with_reducible rfl
    | ((conv => arg 2; arg 23); with_reducible apply Keeps.lit)
    | with_reducible apply Keeps.ite
    | with_reducible apply Keeps.ite2

theorem Keeps.matmulPart {s₀ s : State} (hk : Keeps s₀ s) (k : Nat) (d : Nat) (lo : Nat) (hi : Nat) (h : Harm) :
    Keeps s₀ (State.matmulPart s k d lo hi h) := by
  unfold State.matmulPart
  repeat' first
    | with_reducible assumption
    | (intro a)
    | with_reducible apply Keeps.matmulB
    | with_reducible apply Keeps.matmulRow
    | with_reducible apply Keeps.foldl

theorem Keeps.expandPart {s₀ s : State} (hk : Keeps s₀ s) (k : Nat) (d : Nat) (h : Harm) :
    Keeps s₀ (State.expandPart s k d h) := by
  unfold State.expandPart
  repeat' first
    | with_reducible assumption
    | with_reducible apply Keeps.opRead
    | with_reducible apply Keeps.expanded
    | with_reducible apply Keeps.modSlot
    | with_reducible apply Keeps.opPoison
    | with_reducible apply Keeps.opWriteN
    | with_reducible apply Keeps.bump
    | with_reducible apply Keeps.opHalt
    | with_reducible apply Keeps.ite
    | split

theorem Keeps.compressPart {s₀ s : State} (hk : Keeps s₀ s) (k : Nat) (d : Nat) (h : Harm) :
    Keeps s₀ (State.compressPart s k d h) := by
  unfold State.compressPart
  repeat' first
    | with_reducible assumption
    | with_reducible apply Keeps.opRead
    | with_reducible apply Keeps.bumpPair
    | with_reducible apply Keeps.modSlot
    | with_reducible apply Keeps.opPoison
    | with_reducible apply Keeps.opWriteN
    | with_reducible apply Keeps.opWrite
    | with_reducible apply Keeps.opOwn
    | with_reducible apply Keeps.ite
    | split

theorem Keeps.planRead {s₀ s : State} (hk : Keeps s₀ s) (k : Nat) (opc : Nat) : Keeps s₀ (State.planRead s k opc).2 := by
  unfold State.planRead
  repeat' first
    | with_reducible assumption
    | with_reducible apply Keeps.opWord
    | with_reducible apply Keeps.ite2

theorem Keeps.planOf {s₀ s : State} (hk : Keeps s₀ s) (k : Nat) (opc : Nat) : Keeps s₀ (State.planOf s k opc).2 := by
  unfold State.planOf
  repeat' first
    | with_reducible assumption
    | with_reducible apply Keeps.planRead
    | with_reducible apply Keeps.engUnnote

theorem Keeps.workPart {s₀ s : State} (hk : Keeps s₀ s) (d : Nat) (x : Part) (h : Harm) :
    Keeps s₀ (State.workPart s d x h) := by
  unfold State.workPart
  repeat' first
    | with_reducible assumption
    | with_reducible apply Keeps.onShare
    | with_reducible apply Keeps.gatherPart
    | with_reducible apply Keeps.filterPart
    | with_reducible apply Keeps.matmulPart
    | with_reducible apply Keeps.expandPart
    | with_reducible apply Keeps.compressPart
    | with_reducible apply Keeps.ite

/-! ### Sys2Proof/Machine/Journal.lean -/

theorem Keeps.setScan {s₀ s : State} (hk : Keeps s₀ s) (d : Nat) (x : Scan) : Keeps s₀ (State.setScan s d x) := by
  unfold State.setScan
  repeat' first
    | with_reducible assumption
    | with_reducible apply Keeps.wr
    | with_reducible rfl
    | ((conv => arg 2; arg 23); with_reducible apply Keeps.lit)
    | with_reducible apply Keeps.ite

theorem Keeps.journalAdd {s₀ s : State} (hk : Keeps s₀ s) (d : Nat) (e : JEnt) : Keeps s₀ (State.journalAdd s d e) := by
  unfold State.journalAdd
  repeat' first
    | with_reducible assumption
    | with_reducible apply Keeps.setScan
    | with_reducible apply Keeps.advance
    | with_reducible apply Keeps.ite

theorem Keeps.journalMap {s₀ s : State} (hk : Keeps s₀ s) (d : Nat) (ok : JEnt → Bool) (f : JEnt → JEnt) :
    Keeps s₀ (State.journalMap s d ok f) := by
  unfold State.journalMap
  repeat' first
    | with_reducible assumption
    | with_reducible apply Keeps.setScan

theorem Keeps.journalEnd {s₀ s : State} (hk : Keeps s₀ s) (d : Nat) (opid : Nat) (slot : Nat) :
    Keeps s₀ (State.journalEnd s d opid slot) := by
  unfold State.journalEnd
  repeat' first
    | with_reducible assumption
    | with_reducible apply Keeps.journalMap

theorem Keeps.journalPart {s₀ s : State} (hk : Keeps s₀ s) (d : Nat) (x : Part) (p : Plan) :
    Keeps s₀ (State.journalPart s d x p) := by
  unfold State.journalPart
  repeat' first
    | with_reducible assumption
    | with_reducible apply Keeps.journalAdd

/-! ### Sys2Proof/Machine/Collective.lean -/

theorem Keeps.updColl {s₀ s : State} (hk : Keeps s₀ s) (tag : Nat) (f : Coll → Coll) : Keeps s₀ (State.updColl s tag f) := by
  unfold State.updColl
  exact Keeps.lit hk rfl rfl

theorem Keeps.updChunk {s₀ s : State} (hk : Keeps s₀ s) (tag : Nat) (i : Nat) (f : Chunk → Chunk) :
    Keeps s₀ (State.updChunk s tag i f) := by
  unfold State.updChunk
  repeat' first
    | with_reducible assumption
    | with_reducible apply Keeps.updColl

theorem Keeps.closeTag {s₀ s : State} (hk : Keeps s₀ s) (tag : Nat) : Keeps s₀ (State.closeTag s tag) := by
  unfold State.closeTag
  exact Keeps.lit hk rfl rfl

theorem Keeps.freeAccs {s₀ s : State} (hk : Keeps s₀ s) (c : Coll) : Keeps s₀ (State.freeAccs s c) := by
  unfold State.freeAccs
  repeat' first
    | with_reducible assumption
    | (intro a)
    | with_reducible apply Keeps.lower
    | with_reducible apply Keeps.foldl

theorem Keeps.collJournalEnd {s₀ s : State} (hk : Keeps s₀ s) (c : Coll) (d : Nat) :
    Keeps s₀ (State.collJournalEnd s c d) := by
  unfold State.collJournalEnd
  repeat' first
    | with_reducible assumption
    | with_reducible apply Keeps.journalMap

theorem Keeps.collOver {s₀ s : State} (hk : Keeps s₀ s) (tag : Nat) (rank : Nat) (st : Nat) :
    Keeps s₀ (State.collOver s tag rank st) := by
  unfold State.collOver
  repeat' first
    | with_reducible assumption
    | (intro a)
    | with_reducible apply Keeps.freeAccs
    | with_reducible apply Keeps.collJournalEnd
    | with_reducible apply Keeps.updColl
    | with_reducible apply Keeps.ite
    | with_reducible apply Keeps.foldl
    | split

theorem Keeps.collClose {s₀ s : State} (hk : Keeps s₀ s) (tag : Nat) : Keeps s₀ (State.collClose s tag) := by
  unfold State.collClose
  repeat' first
    | with_reducible assumption
    | (intro a)
    | with_reducible apply Keeps.collOver
    | with_reducible apply Keeps.wr
    | with_reducible apply Keeps.closeTag
    | with_reducible apply Keeps.poolAccess
    | with_reducible rfl
    | ((conv => arg 2; arg 23); with_reducible apply Keeps.lit)
    | with_reducible apply Keeps.ite
    | with_reducible apply Keeps.foldl
    | (extract_lets +onlyGivenNames x; refine (fun (hx : Keeps s₀ x) => ?_) ?_;
       (on_goal 2 => (unfold x; clear x)); (on_goal 1 => ((try clear_value x); revert x; intro w hw)))
    | (extract_lets +onlyGivenNames x; clear_value x; revert x; intro w)
    | split

theorem Keeps.collDone {s₀ s : State} (hk : Keeps s₀ s) (k : Nat) : Keeps s₀ (State.collDone s k) := by
  unfold State.collDone
  repeat' first
    | with_reducible assumption
    | with_reducible apply Keeps.collClose
    | with_reducible apply Keeps.updColl
    | split

theorem Keeps.collSlotEnd {s₀ s : State} (hk : Keeps s₀ s) (c : Coll) (k : Nat) (rank : Nat) (st : Nat) (bitmap : Bool) :
    Keeps s₀ (State.collSlotEnd s c k rank st bitmap) := by
  unfold State.collSlotEnd
  repeat' first
    | with_reducible assumption
    | with_reducible apply Keeps.modSlot

theorem Keeps.collEnd {s₀ s : State} (hk : Keeps s₀ s) (tag : Nat) (rank : Nat) (st : Nat) (bitmap : Bool) :
    Keeps s₀ (State.collEnd s tag rank st bitmap) := by
  unfold State.collEnd
  repeat' first
    | with_reducible assumption
    | (intro a)
    | with_reducible apply Keeps.collSlotEnd
    | with_reducible apply Keeps.engDrop
    | with_reducible apply Keeps.collOver
    | with_reducible apply Keeps.ite
    | with_reducible apply Keeps.foldl
    | split

theorem Keeps.collSettle {s₀ s : State} (hk : Keeps s₀ s) (tag : Nat) : Keeps s₀ (State.collSettle s tag) := by
  unfold State.collSettle
  repeat' first
    | with_reducible assumption
    | with_reducible apply Keeps.collEnd
    | with_reducible apply Keeps.ite
    | split

theorem Keeps.collLeave {s₀ s : State} (hk : Keeps s₀ s) (k : Nat) : Keeps s₀ (State.collLeave s k) := by
  unfold State.collLeave
  repeat' first
    | with_reducible assumption
    | (intro a)
    | with_reducible apply Keeps.updColl
    | with_reducible apply Keeps.engDrop
    | with_reducible apply Keeps.poolAccess
    | with_reducible apply Keeps.ite
    | with_reducible apply Keeps.foldl
    | split

theorem Keeps.collLaunch {s₀ s : State} (hk : Keeps s₀ s) (k : Nat) : Keeps s₀ (State.collLaunch s k) := by
  unfold State.collLaunch
  repeat' first
    | with_reducible assumption
    | (intro a)
    | with_reducible apply Keeps.opRefuse
    | with_reducible apply Keeps.updColl
    | with_reducible apply Keeps.journalMap
    | with_reducible apply Keeps.modSlot
    | with_reducible apply Keeps.collSlotEnd
    | with_reducible apply Keeps.bump
    | with_reducible apply Keeps.wr
    | with_reducible rfl
    | ((conv => arg 2; arg 23); with_reducible apply Keeps.lit)
    | with_reducible apply Keeps.ite
    | with_reducible apply Keeps.foldl
    | (extract_lets +onlyGivenNames x; refine (fun (hx : Keeps s₀ x) => ?_) ?_;
       (on_goal 2 => (unfold x; clear x)); (on_goal 1 => ((try clear_value x); revert x; intro w hw)))
    | (extract_lets +onlyGivenNames x; clear_value x; revert x; intro w)
    | split

theorem Keeps.contribOk {s₀ s : State} (hk : Keeps s₀ s) (tag : Nat) (i : Nat) (r : Req) :
    Keeps s₀ (State.contribOk s tag i r) := by
  unfold State.contribOk
  repeat' first
    | with_reducible assumption
    | with_reducible apply Keeps.answerFrom
    | with_reducible apply Keeps.ingPlaced
    | with_reducible apply Keeps.markDone

theorem Keeps.collEnter {s₀ s : State} (hk : Keeps s₀ s) (c : Coll) (d : Nat) (slot : Nat) :
    Keeps s₀ (State.collEnter s c d slot) := by
  unfold State.collEnter
  repeat' first
    | with_reducible assumption
    | with_reducible apply Keeps.journalAdd
    | with_reducible apply Keeps.ite

theorem Keeps.collJournal {s₀ s : State} (hk : Keeps s₀ s) (c : Coll) (i : Nat) : Keeps s₀ (State.collJournal s c i) := by
  unfold State.collJournal
  repeat' first
    | with_reducible assumption
    | (intro a)
    | with_reducible apply Keeps.collEnter
    | with_reducible apply Keeps.foldl

theorem Keeps.deliver {s₀ s : State} (hk : Keeps s₀ s) (tag : Nat) (i : Nat) (rank : Nat) :
    Keeps s₀ (State.deliver s tag i rank) := by
  unfold State.deliver
  repeat' first
    | with_reducible assumption
    | with_reducible apply Keeps.bumpPair
    | with_reducible apply Keeps.countBlocks
    | with_reducible apply Keeps.updChunk
    | with_reducible apply Keeps.bump
    | with_reducible rfl
    | ((conv => arg 2; arg 23); with_reducible apply Keeps.lit)
    | with_reducible apply Keeps.ite
    | (extract_lets +onlyGivenNames x; clear_value x; revert x; intro w)
    | split

theorem Keeps.stageRun {s₀ s : State} (hk : Keeps s₀ s) (d : Nat) : Keeps s₀ (State.stageRun s d) := by
  unfold State.stageRun
  repeat' first
    | with_reducible assumption
    | (intro a)
    | with_reducible apply Keeps.deliver
    | with_reducible apply Keeps.foldl

theorem Keeps.contribLine {s₀ s : State} (hk : Keeps s₀ s) (r : Req) (tag : Nat) (rank : Nat) (res : Nat) :
    Keeps s₀ (State.contribLine s r tag rank res).2 := by
  unfold State.contribLine
  repeat' first
    | (extract_lets +onlyGivenNames x; refine (fun (hx : ∀ s, Keeps s₀ s → Keeps s₀ (x s)) => ?_) ?_;
       (on_goal 2 => (unfold x; clear x)); (on_goal 1 => (clear_value x; revert x; intro wf hwf)))
    | with_reducible apply hwf
    | with_reducible assumption
    | (intro a)
    | with_reducible apply Keeps.finishCmp
    | with_reducible apply Keeps.updColl
    | with_reducible apply Keeps.bump
    | with_reducible apply Keeps.contribOk
    | with_reducible apply Keeps.collJournal
    | with_reducible apply Keeps.advance
    | with_reducible apply Keeps.updChunk
    | with_reducible apply Keeps.deliver
    | with_reducible apply Keeps.ite
    | with_reducible apply Keeps.ite2
    | (extract_lets +onlyGivenNames x; refine (fun (hx : Keeps s₀ x) => ?_) ?_;
       (on_goal 2 => (unfold x; clear x)); (on_goal 1 => ((try clear_value x); revert x; intro w hw)))
    | (extract_lets +onlyGivenNames x; clear_value x; revert x; intro w)
    | split

theorem Keeps.frameGate {s₀ s : State} (hk : Keeps s₀ s) (x : Chunk) (pg : Nat) : Keeps s₀ (State.frameGate s x pg).2 := by
  unfold State.frameGate
  repeat' first
    | with_reducible assumption
    | (intro a)
    | with_reducible apply Keeps.gate
    | with_reducible apply Keeps.ite2
    | with_reducible apply Keeps.foldl2
    | (extract_lets +onlyGivenNames x; revert x; intro w)
    | split

theorem Keeps.frameWait {s₀ s : State} (hk : Keeps s₀ s) (c : Coll) (i : Nat) (cause : Nat) (pg : Nat) :
    Keeps s₀ (State.frameWait s c i cause pg) := by
  unfold State.frameWait
  repeat' first
    | with_reducible assumption
    | with_reducible apply Keeps.lateWait
    | with_reducible apply Keeps.updChunk
    | with_reducible apply Keeps.engDropReqs

theorem Keeps.emitChunk {s₀ s : State} (hk : Keeps s₀ s) (c : Coll) (i : Nat) : Keeps s₀ (State.emitChunk s c i) := by
  unfold State.emitChunk
  repeat' first
    | with_reducible assumption
    | (intro a)
    | with_reducible apply Keeps.countWr
    | with_reducible apply Keeps.bumpPair
    | with_reducible apply Keeps.updColl
    | with_reducible apply Keeps.updChunk
    | with_reducible apply Keeps.engSend
    | with_reducible rfl
    | ((conv => arg 2; arg 23); with_reducible apply Keeps.lit)
    | with_reducible apply Keeps.ite
    | with_reducible apply Keeps.foldl

theorem Keeps.chunkOut {s₀ s : State} (hk : Keeps s₀ s) (c : Coll) (i : Nat) : Keeps s₀ (State.chunkOut s c i) := by
  unfold State.chunkOut
  repeat' first
    | with_reducible assumption
    | (intro a)
    | with_reducible apply Keeps.lower
    | with_reducible apply Keeps.updChunk
    | with_reducible apply Keeps.journalMap
    | with_reducible apply Keeps.engOr
    | with_reducible apply Keeps.modSlot
    | with_reducible apply Keeps.collSettle
    | with_reducible apply Keeps.ite
    | with_reducible apply Keeps.foldl

theorem Keeps.chunkEmit {s₀ s : State} (hk : Keeps s₀ s) (tag : Nat) (i : Nat) : Keeps s₀ (State.chunkEmit s tag i) := by
  unfold State.chunkEmit
  repeat' first
    | with_reducible assumption
    | with_reducible apply Keeps.collSettle
    | with_reducible apply Keeps.chunkOut
    | with_reducible apply Keeps.frameGate
    | with_reducible apply Keeps.frameWait
    | with_reducible apply Keeps.emitChunk
    | with_reducible apply Keeps.ite
    | with_reducible apply Keeps.ite2
    | (extract_lets +onlyGivenNames x; refine (fun (hx : Keeps s₀ x) => ?_) ?_;
       (on_goal 2 => (unfold x; clear x)); (on_goal 1 => ((try clear_value x); revert x; intro w hw)))
    | (extract_lets +onlyGivenNames x; refine (fun (hx : Keeps s₀ x.2) => ?_) ?_;
       (on_goal 2 => (unfold x; clear x)); (on_goal 1 => ((try clear_value x); revert x; intro w hw)))
    | split

theorem Keeps.collStop {s₀ s : State} (hk : Keeps s₀ s) (tag : Nat) (slot : Nat) (st : Nat) :
    Keeps s₀ (State.collStop s tag slot st) := by
  unfold State.collStop
  repeat' first
    | with_reducible assumption
    | with_reducible apply Keeps.engDropReqs
    | with_reducible apply Keeps.collSettle
    | with_reducible apply Keeps.updColl
    | split

/-! ### Sys2Proof/Machine/Mirage.lean -/

theorem Keeps.rgfSummary {s₀ s : State} (hk : Keeps s₀ s) : Keeps s₀ (State.rgfSummary s) := by
  unfold State.rgfSummary
  repeat' first
    | with_reducible assumption
    | (intro a)
    | with_reducible apply Keeps.wr
    | with_reducible apply Keeps.setDegraded
    | with_reducible apply Keeps.ite
    | with_reducible apply Keeps.foldl

theorem Keeps.fillq {s₀ s : State} (hk : Keeps s₀ s) (d : Nat) (q : List Part) : Keeps s₀ (State.fillq s d q) := by
  unfold State.fillq
  repeat' first
    | with_reducible assumption
    | with_reducible apply Keeps.setDieq
    | with_reducible apply Keeps.setLaunchq

theorem Keeps.setRole {s₀ s : State} (hk : Keeps s₀ s) (d : Nat) (r : Nat) : Keeps s₀ (State.setRole s d r) := by
  unfold State.setRole
  repeat' first
    | with_reducible assumption
    | with_reducible apply Keeps.wr
    | with_reducible apply Keeps.setOwnq
    | with_reducible apply Keeps.setScan
    | with_reducible apply Keeps.healthLog
    | with_reducible apply Keeps.rgfSummary
    | with_reducible apply Keeps.ite

theorem Keeps.accRefresh {s₀ s : State} (hk : Keeps s₀ s) : Keeps s₀ (State.accRefresh s) := by
  unfold State.accRefresh
  repeat' first
    | with_reducible assumption
    | (intro a)
    | with_reducible apply Keeps.wr
    | with_reducible apply Keeps.foldl

theorem Keeps.journalMove {s₀ s : State} (hk : Keeps s₀ s) (d : Nat) (new : Nat) (slot : Nat) :
    Keeps s₀ (State.journalMove s d new slot) := by
  unfold State.journalMove
  repeat' first
    | with_reducible assumption
    | (intro a)
    | with_reducible apply Keeps.journalMap
    | with_reducible apply Keeps.journalAdd
    | with_reducible apply Keeps.collEnter
    | with_reducible apply Keeps.collJournalEnd
    | with_reducible apply Keeps.ite
    | with_reducible apply Keeps.foldl

theorem Keeps.passSlot {s₀ s : State} (hk : Keeps s₀ s) (p : Nat) (new : Nat) : Keeps s₀ (State.passSlot s p new) := by
  unfold State.passSlot
  repeat' first
    | with_reducible assumption
    | (intro a)
    | with_reducible apply Keeps.wr
    | with_reducible apply Keeps.setDieq
    | with_reducible apply Keeps.setLaunchq
    | with_reducible apply Keeps.accRefresh
    | with_reducible apply Keeps.journalMove
    | with_reducible apply Keeps.ite
    | with_reducible apply Keeps.foldl

theorem Keeps.leaveService {s₀ s : State} (hk : Keeps s₀ s) (d : Nat) : Keeps s₀ (State.leaveService s d) := by
  unfold State.leaveService
  repeat' first
    | with_reducible assumption
    | (intro a)
    | with_reducible apply Keeps.setRole
    | with_reducible apply Keeps.passSlot
    | with_reducible apply Keeps.rgfSummary
    | with_reducible apply Keeps.ite
    | with_reducible apply Keeps.foldl
    | split

theorem Keeps.splitq {s₀ s : State} (hk : Keeps s₀ s) (d : Nat) : Keeps s₀ (State.splitq s d) := by
  unfold State.splitq
  repeat' first
    | with_reducible assumption
    | with_reducible apply Keeps.setOwnq
    | (extract_lets +onlyGivenNames x; clear_value x; revert x; intro w)
    | split

theorem Keeps.unpair {s₀ s : State} (hk : Keeps s₀ s) (d : Nat) : Keeps s₀ (State.unpair s d) := by
  unfold State.unpair
  repeat' first
    | with_reducible assumption
    | with_reducible apply Keeps.splitq
    | with_reducible apply Keeps.setScan
    | with_reducible apply Keeps.wr

theorem Keeps.pairDie {s₀ s : State} (hk : Keeps s₀ s) (d : Nat) (ev : Bool) : Keeps s₀ (State.pairDie s d ev) := by
  unfold State.pairDie
  repeat' first
    | with_reducible assumption
    | with_reducible apply Keeps.wr
    | with_reducible apply Keeps.setScan
    | with_reducible apply Keeps.fillq
    | with_reducible apply Keeps.setRole
    | with_reducible apply Keeps.event
    | with_reducible apply Keeps.leaveService
    | with_reducible apply Keeps.unpair
    | with_reducible apply Keeps.ite
    | split

theorem Keeps.retireDie {s₀ s : State} (hk : Keeps s₀ s) (d : Nat) (auto : Bool) : Keeps s₀ (State.retireDie s d auto) := by
  unfold State.retireDie
  repeat' first
    | with_reducible assumption
    | with_reducible apply Keeps.setRole
    | with_reducible apply Keeps.leaveService
    | with_reducible apply Keeps.unpair
    | with_reducible apply Keeps.event
    | with_reducible apply Keeps.wr
    | with_reducible apply Keeps.pairDie
    | with_reducible apply Keeps.ite
    | (extract_lets +onlyGivenNames x; refine (fun (hx : Keeps s₀ x) => ?_) ?_;
       (on_goal 2 => (unfold x; clear x)); (on_goal 1 => ((try clear_value x); revert x; intro w hw)))
    | (extract_lets +onlyGivenNames x; clear_value x; revert x; intro w)
    | split

theorem Keeps.checkPairs {s₀ s : State} (hk : Keeps s₀ s) : Keeps s₀ (State.checkPairs s) := by
  unfold State.checkPairs
  repeat' first
    | with_reducible assumption
    | with_reducible apply Keeps.retireDie
    | with_reducible apply Keeps.ite
    | split

theorem Keeps.roleCheck {s₀ s : State} (hk : Keeps s₀ s) (d : Nat) : Keeps s₀ (State.roleCheck s d) := by
  unfold State.roleCheck
  repeat' first
    | with_reducible assumption
    | with_reducible apply Keeps.rgfSummary
    | with_reducible apply Keeps.setScan
    | with_reducible apply Keeps.retireDie
    | with_reducible apply Keeps.pairDie
    | with_reducible apply Keeps.event
    | with_reducible apply Keeps.setRole
    | with_reducible apply Keeps.checkPairs
    | with_reducible apply Keeps.ite

theorem Keeps.addScore {s₀ s : State} (hk : Keeps s₀ s) (d : Nat) (n : Nat) : Keeps s₀ (State.addScore s d n) := by
  unfold State.addScore
  repeat' first
    | with_reducible assumption
    | with_reducible apply Keeps.roleCheck
    | with_reducible apply Keeps.wr
    | with_reducible apply Keeps.ite

theorem Keeps.partOver {s₀ s : State} (hk : Keeps s₀ s) (k : Nat) : Keeps s₀ (State.partOver s k) := by
  unfold State.partOver
  repeat' first
    | with_reducible assumption
    | with_reducible apply Keeps.modSlot

theorem Keeps.taintedOp {s₀ s : State} (hk : Keeps s₀ s) (id : Nat) (x : OpSlot) : Keeps s₀ (State.taintedOp s id x) := by
  unfold State.taintedOp
  repeat' first
    | with_reducible assumption
    | with_reducible apply Keeps.updAgent
    | with_reducible apply Keeps.bump
    | with_reducible apply Keeps.ite

theorem Keeps.taintRecord {s₀ s : State} (hk : Keeps s₀ s) (k : Nat) : Keeps s₀ (State.taintRecord s k) := by
  unfold State.taintRecord
  repeat' first
    | with_reducible assumption
    | with_reducible apply Keeps.modSlot
    | with_reducible apply Keeps.taintedOp
    | with_reducible apply Keeps.ite

theorem Keeps.taintNote {s₀ s : State} (hk : Keeps s₀ s) (id : Nat) (opid : Nat) (addr : Nat) (time : Nat) :
    Keeps s₀ (State.taintNote s id opid addr time) := by
  unfold State.taintNote
  repeat' first
    | with_reducible assumption
    | with_reducible apply Keeps.updAgent
    | with_reducible apply Keeps.bump
    | with_reducible apply Keeps.send
    | (extract_lets +onlyGivenNames x; refine (fun (hx : Keeps s₀ x) => ?_) ?_;
       (on_goal 2 => (unfold x; clear x)); (on_goal 1 => ((try clear_value x); revert x; intro w hw)))
    | (extract_lets +onlyGivenNames x; clear_value x; revert x; intro w)
    | split

theorem Keeps.taintOp {s₀ s : State} (hk : Keeps s₀ s) (e : JEnt) (time : Nat) (id : Nat) (opid : Nat) :
    Keeps s₀ (State.taintOp s e time id opid).2 := by
  unfold State.taintOp
  repeat' first
    | with_reducible assumption
    | with_reducible apply Keeps.opOutcome
    | with_reducible apply Keeps.taintRecord
    | with_reducible apply Keeps.taintNote
    | with_reducible apply Keeps.ite2

theorem Keeps.taintWindow {s₀ s : State} (hk : Keeps s₀ s) (d : Nat) : Keeps s₀ (State.taintWindow s d) := by
  unfold State.taintWindow
  repeat' first
    | with_reducible assumption
    | (intro a)
    | with_reducible apply Keeps.setSusp
    | with_reducible apply Keeps.bump
    | with_reducible apply Keeps.taintOp
    | with_reducible apply Keeps.collEnd
    | with_reducible apply Keeps.advance
    | with_reducible rfl
    | ((conv => arg 2; arg 23); with_reducible apply Keeps.lit)
    | with_reducible apply Keeps.foldl
    | with_reducible apply Keeps.foldl2

theorem Keeps.residueFound {s₀ s : State} (hk : Keeps s₀ s) (d : Nat) (res : Nat) :
    Keeps s₀ (State.residueFound s d res) := by
  unfold State.residueFound
  repeat' first
    | with_reducible assumption
    | with_reducible apply Keeps.bump
    | with_reducible apply Keeps.event
    | with_reducible apply Keeps.addScore
    | with_reducible apply Keeps.ite

theorem Keeps.pendingFound {s₀ s : State} (hk : Keeps s₀ s) (d : Nat) (x : Part) : Keeps s₀ (State.pendingFound s d x) := by
  unfold State.pendingFound
  repeat' first
    | with_reducible assumption
    | with_reducible apply Keeps.residueFound
    | with_reducible apply Keeps.ite

theorem Keeps.pendingAll {s₀ s : State} (hk : Keeps s₀ s) (k : Nat) : Keeps s₀ (State.pendingAll s k) := by
  unfold State.pendingAll
  repeat' first
    | with_reducible assumption
    | (intro a)
    | with_reducible apply Keeps.pendingFound
    | with_reducible apply Keeps.foldl

theorem Keeps.stopRunning {s₀ s : State} (hk : Keeps s₀ s) (d : Nat) : Keeps s₀ (State.stopRunning s d) := by
  unfold State.stopRunning
  repeat' first
    | with_reducible assumption
    | (intro a)
    | with_reducible apply Keeps.setDieq
    | with_reducible apply Keeps.partOver
    | with_reducible apply Keeps.journalEnd
    | with_reducible apply Keeps.pendingFound
    | with_reducible apply Keeps.engDropReqs
    | with_reducible apply Keeps.foldl

theorem Keeps.dieFail {s₀ s : State} (hk : Keeps s₀ s) (d : Nat) : Keeps s₀ (State.dieFail s d) := by
  unfold State.dieFail
  repeat' first
    | with_reducible assumption
    | with_reducible apply Keeps.setScan
    | with_reducible apply Keeps.addScore
    | with_reducible apply Keeps.healthLog
    | with_reducible apply Keeps.bump
    | with_reducible apply Keeps.event
    | with_reducible apply Keeps.stopRunning
    | with_reducible apply Keeps.taintWindow
    | with_reducible apply Keeps.roleCheck
    | with_reducible apply Keeps.wr
    | with_reducible apply Keeps.raise
    | with_reducible apply Keeps.setRole
    | with_reducible rfl
    | ((conv => arg 2; arg 23); with_reducible apply Keeps.lit)
    | with_reducible apply Keeps.ite

theorem Keeps.diePass {s₀ s : State} (hk : Keeps s₀ s) (d : Nat) (start : Nat) : Keeps s₀ (State.diePass s d start) := by
  unfold State.diePass
  repeat' first
    | with_reducible assumption
    | with_reducible apply Keeps.setScan
    | with_reducible apply Keeps.roleCheck
    | with_reducible apply Keeps.wr

theorem Keeps.makeDue {s₀ s : State} (hk : Keeps s₀ s) (d : Nat) : Keeps s₀ (State.makeDue s d) := by
  unfold State.makeDue
  repeat' first
    | with_reducible assumption
    | with_reducible apply Keeps.setScan

theorem Keeps.lateScans {s₀ s : State} (hk : Keeps s₀ s) : Keeps s₀ (State.lateScans s) := by
  unfold State.lateScans
  repeat' first
    | with_reducible assumption
    | (intro a)
    | with_reducible apply Keeps.makeDue
    | with_reducible apply Keeps.ite
    | with_reducible apply Keeps.foldl

theorem Keeps.scanOver {s₀ s : State} (hk : Keeps s₀ s) (d : Nat) : Keeps s₀ (State.scanOver s d) := by
  unfold State.scanOver
  repeat' first
    | with_reducible assumption
    | (intro a)
    | with_reducible apply Keeps.bump
    | with_reducible apply Keeps.setScan
    | with_reducible apply Keeps.stageRun
    | with_reducible apply Keeps.foldl

theorem Keeps.lowCheck {s₀ s : State} (hk : Keeps s₀ s) : Keeps s₀ (State.lowCheck s) := by
  unfold State.lowCheck
  repeat' first
    | with_reducible assumption
    | with_reducible apply Keeps.setDegraded
    | with_reducible apply Keeps.event
    | with_reducible apply Keeps.wr
    | with_reducible apply Keeps.ite

theorem Keeps.collLost {s₀ s : State} (hk : Keeps s₀ s) (d : Nat) : Keeps s₀ (State.collLost s d) := by
  unfold State.collLost
  repeat' first
    | with_reducible assumption
    | (intro a)
    | with_reducible apply Keeps.opOutcome
    | with_reducible apply Keeps.collStop
    | with_reducible apply Keeps.foldl

theorem Keeps.dieHard {s₀ s : State} (hk : Keeps s₀ s) (d : Nat) : Keeps s₀ (State.dieHard s d) := by
  unfold State.dieHard
  repeat' first
    | with_reducible assumption
    | (intro a)
    | with_reducible apply Keeps.setRole
    | with_reducible apply Keeps.opOutcome
    | with_reducible apply Keeps.stopRunning
    | with_reducible apply Keeps.collLost
    | with_reducible apply Keeps.stageRun
    | with_reducible apply Keeps.setScan
    | with_reducible apply Keeps.unpair
    | with_reducible apply Keeps.pairDie
    | with_reducible apply Keeps.rgfSummary
    | with_reducible apply Keeps.ite
    | with_reducible apply Keeps.foldl
    | split

theorem Keeps.dieHardPass {s₀ s : State} (hk : Keeps s₀ s) (d : Nat) : Keeps s₀ (State.dieHardPass s d) := by
  unfold State.dieHardPass
  repeat' first
    | with_reducible assumption
    | with_reducible apply Keeps.lowCheck
    | with_reducible apply Keeps.rgfSummary
    | with_reducible apply Keeps.leaveService
    | with_reducible apply Keeps.ite

/-! ### Sys2Proof/Machine/NearMem.lean -/

theorem Keeps.opAnswer {s₀ s : State} (hk : Keeps s₀ s) (k : Nat) (st : Nat) (aux : Nat) :
    Keeps s₀ (State.opAnswer s k st aux) := by
  unfold State.opAnswer
  repeat' first
    | with_reducible assumption
    | with_reducible apply Keeps.modSlot

theorem Keeps.runOwnerOf {s₀ s : State} (hk : Keeps s₀ s) (k : Nat) : Keeps s₀ (State.runOwnerOf s k) := by
  unfold State.runOwnerOf
  repeat' first
    | with_reducible assumption
    | with_reducible apply Keeps.opRefuse
    | with_reducible apply Keeps.modSlot
    | with_reducible apply Keeps.opAnswer
    | with_reducible apply Keeps.ite
    | (extract_lets +onlyGivenNames x; refine (fun (hx : Keeps s₀ x) => ?_) ?_;
       (on_goal 2 => (unfold x; clear x)); (on_goal 1 => ((try clear_value x); revert x; intro w hw)))
    | split

theorem Keeps.xferClose {s₀ s : State} (hk : Keeps s₀ s) (k : Nat) (rec_ : Nat) (fl : Nat) :
    Keeps s₀ (State.xferClose s k rec_ fl) := by
  unfold State.xferClose
  repeat' first
    | with_reducible assumption
    | with_reducible apply Keeps.engSend

theorem Keeps.xferOver {s₀ s : State} (hk : Keeps s₀ s) (k : Nat) : Keeps s₀ (State.xferOver s k) := by
  unfold State.xferOver
  repeat' first
    | with_reducible assumption
    | with_reducible apply Keeps.modSlot
    | with_reducible apply Keeps.ite

theorem Keeps.runXfer {s₀ s : State} (hk : Keeps s₀ s) (k : Nat) : Keeps s₀ (State.runXfer s k) := by
  unfold State.runXfer
  repeat' first
    | with_reducible assumption
    | with_reducible apply Keeps.opRefuse
    | with_reducible apply Keeps.modSlot
    | with_reducible apply Keeps.opAnswer
    | with_reducible apply Keeps.bump
    | with_reducible apply Keeps.engWriteLine
    | with_reducible apply Keeps.opRead
    | with_reducible apply Keeps.opOutcome
    | with_reducible apply Keeps.xferClose
    | with_reducible apply Keeps.xferOver
    | with_reducible apply Keeps.ite
    | (extract_lets +onlyGivenNames x; refine (fun (hx : Keeps s₀ x) => ?_) ?_;
       (on_goal 2 => (unfold x; clear x)); (on_goal 1 => ((try clear_value x); revert x; intro w hw)))
    | (extract_lets +onlyGivenNames x; refine (fun (hx : Keeps s₀ x.2) => ?_) ?_;
       (on_goal 2 => (unfold x; clear x)); (on_goal 1 => ((try clear_value x); revert x; intro w hw)))
    | (extract_lets +onlyGivenNames x; clear_value x; revert x; intro w)
    | split

theorem Keeps.ownStart {s₀ s : State} (hk : Keeps s₀ s) (k : Nat) : Keeps s₀ (State.ownStart s k) := by
  unfold State.ownStart
  repeat' first
    | with_reducible assumption
    | (intro a)
    | with_reducible apply Keeps.modSlot
    | with_reducible apply Keeps.runOwnerOf
    | with_reducible apply Keeps.engTry
    | with_reducible apply Keeps.runXfer
    | with_reducible apply Keeps.ite

theorem Keeps.ownResume {s₀ s : State} (hk : Keeps s₀ s) (k : Nat) : Keeps s₀ (State.ownResume s k) := by
  unfold State.ownResume
  repeat' first
    | with_reducible assumption
    | with_reducible apply Keeps.ownStart
    | with_reducible apply Keeps.modSlot
    | with_reducible apply Keeps.ite

theorem Keeps.nearLine {s₀ s : State} (hk : Keeps s₀ s) (k : Nat) (l : Nat) : Keeps s₀ (State.nearLine s k l).2 := by
  unfold State.nearLine
  repeat' first
    | with_reducible assumption
    | with_reducible apply Keeps.opRead

theorem Keeps.nearWrite {s₀ s : State} (hk : Keeps s₀ s) (k : Nat) (l : Nat) (bs : List Byte) (psn : Bool) :
    Keeps s₀ (State.nearWrite s k l bs psn) := by
  unfold State.nearWrite
  repeat' first
    | with_reducible assumption
    | with_reducible apply Keeps.opWritePiece
    | with_reducible apply Keeps.modSlot
    | with_reducible apply Keeps.ite

theorem Keeps.nearCopy {s₀ s : State} (hk : Keeps s₀ s) (k : Nat) (r : Rng) (i : Nat) (bs : List Byte) (psn : Bool) :
    Keeps s₀ (State.nearCopy s k r i bs psn) := by
  unfold State.nearCopy
  repeat' first
    | with_reducible assumption
    | with_reducible apply Keeps.nearWrite
    | with_reducible apply Keeps.setSusp
    | with_reducible apply Keeps.ite

theorem Keeps.nearShare {s₀ s : State} (hk : Keeps s₀ s) (k : Nat) (opc : Nat) (res : Nat) (h : Nat) :
    Keeps s₀ (State.nearShare s k opc res h) := by
  unfold State.nearShare
  repeat' first
    | with_reducible assumption
    | (intro a)
    | with_reducible apply Keeps.onShare
    | with_reducible apply Keeps.nearCopy
    | with_reducible apply Keeps.nearLine
    | with_reducible apply Keeps.opOutcome
    | with_reducible apply Keeps.modSlot
    | with_reducible apply Keeps.free
    | with_reducible apply Keeps.event
    | with_reducible apply Keeps.nearWrite
    | with_reducible rfl
    | ((conv => arg 2; arg 23); with_reducible apply Keeps.lit)
    | with_reducible apply Keeps.ite
    | with_reducible apply Keeps.foldl
    | with_reducible apply Keeps.foldl3
    | (extract_lets +onlyGivenNames x; refine (fun (hx : Keeps s₀ x) => ?_) ?_;
       (on_goal 2 => (unfold x; clear x)); (on_goal 1 => ((try clear_value x); revert x; intro w hw)))

theorem Keeps.adderEnd {s₀ s : State} (hk : Keeps s₀ s) (opid : Nat) (h : Nat) : Keeps s₀ (State.adderEnd s opid h) := by
  unfold State.adderEnd
  repeat' first
    | with_reducible assumption
    | (intro a)
    | with_reducible apply Keeps.journalMap
    | with_reducible apply Keeps.foldl

theorem Keeps.nearDone {s₀ s : State} (hk : Keeps s₀ s) (k : Nat) (opc : Nat) (h : Nat) :
    Keeps s₀ (State.nearDone s k opc h) := by
  unfold State.nearDone
  repeat' first
    | with_reducible assumption
    | with_reducible apply Keeps.adderEnd
    | with_reducible apply Keeps.modSlot
    | with_reducible apply Keeps.ite

theorem Keeps.nearGo {s₀ s : State} (hk : Keeps s₀ s) (k : Nat) : Keeps s₀ (State.nearGo s k) := by
  unfold State.nearGo
  repeat' first
    | with_reducible assumption
    | (intro a)
    | with_reducible apply Keeps.modSlot
    | with_reducible apply Keeps.engTry
    | with_reducible apply Keeps.nearShare
    | with_reducible apply Keeps.nearDone
    | with_reducible apply Keeps.ite
    | with_reducible apply Keeps.foldl

theorem Keeps.runNear {s₀ s : State} (hk : Keeps s₀ s) (k : Nat) (opc : Nat) (res : Nat) :
    Keeps s₀ (State.runNear s k opc res) := by
  unfold State.runNear
  repeat' first
    | with_reducible assumption
    | (intro a)
    | with_reducible apply Keeps.opRefuse
    | with_reducible apply Keeps.modSlot
    | with_reducible apply Keeps.journalAdd
    | with_reducible apply Keeps.nearGo
    | with_reducible apply Keeps.ite
    | with_reducible apply Keeps.foldl
    | (extract_lets +onlyGivenNames x; clear_value x; revert x; intro w)
    | split

theorem Keeps.addersStop {s₀ s : State} (hk : Keeps s₀ s) (a : Nat) : Keeps s₀ (State.addersStop s a) := by
  unfold State.addersStop
  repeat' first
    | with_reducible assumption
    | (intro a)
    | with_reducible apply Keeps.nearDone
    | with_reducible apply Keeps.engDropReqs
    | with_reducible apply Keeps.foldl

theorem Keeps.nearResume {s₀ s : State} (hk : Keeps s₀ s) (k : Nat) : Keeps s₀ (State.nearResume s k) := by
  unfold State.nearResume
  repeat' first
    | with_reducible assumption
    | with_reducible apply Keeps.nearGo
    | with_reducible apply Keeps.ite

/-! ### Sys2Proof/Machine/Launch.lean -/

theorem Keeps.startParts {s₀ s : State} (hk : Keeps s₀ s) (k : Nat) (opc : Nat) : Keeps s₀ (State.startParts s k opc) := by
  unfold State.startParts
  repeat' first
    | with_reducible assumption
    | (intro a)
    | with_reducible apply Keeps.engTry
    | with_reducible apply Keeps.planRead
    | with_reducible apply Keeps.opRefuse
    | with_reducible apply Keeps.modSlot
    | with_reducible apply Keeps.placePart
    | with_reducible apply Keeps.ite
    | with_reducible apply Keeps.foldl

theorem Keeps.partsResume {s₀ s : State} (hk : Keeps s₀ s) (k : Nat) : Keeps s₀ (State.partsResume s k) := by
  unfold State.partsResume
  repeat' first
    | with_reducible assumption
    | with_reducible apply Keeps.startParts
    | with_reducible apply Keeps.ite

theorem Keeps.openSlot {s₀ s : State} (hk : Keeps s₀ s) (k : Nat) (w : Nat) : Keeps s₀ (State.openSlot s k w) := by
  unfold State.openSlot
  repeat' first
    | with_reducible assumption
    | with_reducible apply Keeps.modSlot
    | with_reducible rfl
    | ((conv => arg 2; arg 23); with_reducible apply Keeps.lit)

theorem Keeps.startOp {s₀ s : State} (hk : Keeps s₀ s) (k : Nat) (w : Nat) (res : Nat) :
    Keeps s₀ (State.startOp s k w res) := by
  unfold State.startOp
  repeat' first
    | with_reducible assumption
    | with_reducible apply Keeps.opRefuse
    | with_reducible apply Keeps.collLaunch
    | with_reducible apply Keeps.ownStart
    | with_reducible apply Keeps.startParts
    | with_reducible apply Keeps.runNear
    | with_reducible apply Keeps.ite

theorem Keeps.launchAnswer {s₀ s : State} (hk : Keeps s₀ s) (r : Req) (k : Nat) : Keeps s₀ (State.launchAnswer s r k) := by
  unfold State.launchAnswer
  repeat' first
    | with_reducible assumption
    | with_reducible apply Keeps.modSlot
    | split

theorem Keeps.applyLaunch {s₀ s : State} (hk : Keeps s₀ s) (r : Req) (k : Nat) : Keeps s₀ (State.applyLaunch s r k) := by
  unfold State.applyLaunch
  repeat' first
    | with_reducible assumption
    | with_reducible apply Keeps.finishCmp
    | with_reducible apply Keeps.bump
    | with_reducible apply Keeps.startOp
    | with_reducible apply Keeps.launchAnswer
    | with_reducible apply Keeps.openSlot
    | with_reducible apply Keeps.ite
    | (extract_lets +onlyGivenNames x; clear_value x; revert x; intro w)
    | split

theorem Keeps.stopOp {s₀ s : State} (hk : Keeps s₀ s) (k : Nat) (rank : Nat) (st : Nat) :
    Keeps s₀ (State.stopOp s k rank st) := by
  unfold State.stopOp
  repeat' first
    | with_reducible assumption
    | (intro a)
    | with_reducible apply Keeps.pendingAll
    | with_reducible apply Keeps.journalMap
    | with_reducible apply Keeps.opEnd
    | with_reducible apply Keeps.engDrop
    | with_reducible apply Keeps.dropParts
    | with_reducible apply Keeps.foldl

theorem Keeps.abortOp {s₀ s : State} (hk : Keeps s₀ s) (k : Nat) : Keeps s₀ (State.abortOp s k) := by
  unfold State.abortOp
  repeat' first
    | with_reducible assumption
    | with_reducible apply Keeps.bump
    | with_reducible apply Keeps.collLeave
    | with_reducible apply Keeps.collSlotEnd
    | with_reducible apply Keeps.stopOp
    | with_reducible apply Keeps.ite
    | (extract_lets +onlyGivenNames x; refine (fun (hx : Keeps s₀ x) => ?_) ?_;
       (on_goal 2 => (unfold x; clear x)); (on_goal 1 => ((try clear_value x); revert x; intro w hw)))
    | split

theorem Keeps.abortAll {s₀ s : State} (hk : Keeps s₀ s) (id : Nat) : Keeps s₀ (State.abortAll s id) := by
  unfold State.abortAll
  repeat' first
    | with_reducible assumption
    | (intro a)
    | with_reducible apply Keeps.abortOp
    | with_reducible apply Keeps.foldl

theorem Keeps.freshSlots {s₀ s : State} (hk : Keeps s₀ s) (id : Nat) : Keeps s₀ (State.freshSlots s id) := by
  unfold State.freshSlots
  repeat' first
    | with_reducible assumption
    | (intro a)
    | with_reducible apply Keeps.collDone
    | with_reducible apply Keeps.modSlot
    | with_reducible apply Keeps.foldl

theorem Keeps.applyAbort {s₀ s : State} (hk : Keeps s₀ s) (r : Req) (k : Nat) : Keeps s₀ (State.applyAbort s r k) := by
  unfold State.applyAbort
  repeat' first
    | with_reducible assumption
    | with_reducible apply Keeps.finishCmp
    | with_reducible apply Keeps.abortOp
    | with_reducible apply Keeps.ite

theorem Keeps.contribute {s₀ s : State} (hk : Keeps s₀ s) (r : Req) (tag : Nat) (rank : Nat) (res : Nat) :
    Keeps s₀ (State.contribute s r tag rank res) := by
  have h := hk.contribLine r tag rank res
  unfold State.contribute
  split
  · rename_i e; rw [e] at h; exact h.residueFound _ _
  · rename_i e; rw [e] at h; exact h

theorem Keeps.grantAcc {s₀ s : State} (hk : Keeps s₀ s) (tag : Nat) (i : Nat) : Keeps s₀ (State.grantAcc s tag i) := by
  unfold State.grantAcc
  repeat' first
    | with_reducible assumption
    | (intro a)
    | with_reducible apply Keeps.updColl
    | with_reducible apply Keeps.contribute
    | with_reducible apply Keeps.contribOk
    | with_reducible apply Keeps.ite
    | with_reducible apply Keeps.foldl
    | (extract_lets +onlyGivenNames x; refine (fun (hx : Keeps s₀ x) => ?_) ?_;
       (on_goal 2 => (unfold x; clear x)); (on_goal 1 => ((try clear_value x); revert x; intro w hw)))
    | split

theorem Keeps.pairFind {s₀ s : State} (hk : Keeps s₀ s) (d : Nat) (pm : Nat) : Keeps s₀ (State.pairFind s d pm).2 := by
  unfold State.pairFind
  repeat' first
    | with_reducible assumption
    | with_reducible rfl
    | ((conv => arg 2; arg 23); with_reducible apply Keeps.lit)
    | with_reducible apply Keeps.ite2
    | (extract_lets +onlyGivenNames x; clear_value x; revert x; intro w)
    | (dsimp -zeta only)
    | split

theorem Keeps.pairScore {s₀ s : State} (hk : Keeps s₀ s) (d : Nat) (pm : Nat) : Keeps s₀ (State.pairScore s d pm) := by
  unfold State.pairScore
  repeat' first
    | with_reducible assumption
    | with_reducible apply Keeps.bump
    | with_reducible apply Keeps.addScore
    | with_reducible apply Keeps.ite
    | (extract_lets +onlyGivenNames x; refine (fun (hx : Keeps s₀ x) => ?_) ?_;
       (on_goal 2 => (unfold x; clear x)); (on_goal 1 => ((try clear_value x); revert x; intro w hw)))
    | split

theorem Keeps.doWork {s₀ s : State} (hk : Keeps s₀ s) (d : Nat) (x : Part) : Keeps s₀ (State.doWork s d x) := by
  unfold State.doWork
  repeat' first
    | with_reducible assumption
    | with_reducible apply Keeps.free
    | with_reducible apply Keeps.pairFind
    | with_reducible apply Keeps.workPart
    | with_reducible apply Keeps.setDieq
    | with_reducible apply Keeps.bumpPair
    | with_reducible apply Keeps.pairScore
    | with_reducible apply Keeps.residueFound

theorem Keeps.doPartStart {s₀ s : State} (hk : Keeps s₀ s) (d : Nat) (res : Nat) (pm : Nat) :
    Keeps s₀ (State.doPartStart s d res pm) := by
  unfold State.doPartStart
  repeat' first
    | with_reducible assumption
    | (intro a)
    | with_reducible apply Keeps.setDieq
    | with_reducible apply Keeps.planOf
    | with_reducible apply Keeps.journalPart
    | with_reducible apply Keeps.engTry
    | with_reducible apply Keeps.doWork
    | with_reducible apply Keeps.ite
    | split

theorem Keeps.partEnds {s₀ s : State} (hk : Keeps s₀ s) (d : Nat) (x : Part) : Keeps s₀ (State.partEnds s d x) := by
  unfold State.partEnds
  repeat' first
    | with_reducible assumption
    | with_reducible apply Keeps.setDieq
    | with_reducible apply Keeps.bumpPair
    | with_reducible apply Keeps.journalEnd
    | with_reducible apply Keeps.partOver
    | (extract_lets +onlyGivenNames x; revert x; intro w)
    | split

theorem Keeps.doPartEnd {s₀ s : State} (hk : Keeps s₀ s) (d : Nat) : Keeps s₀ (State.doPartEnd s d) := by
  unfold State.doPartEnd
  repeat' first
    | with_reducible assumption
    | (intro a)
    | with_reducible apply Keeps.engTry
    | with_reducible apply Keeps.doWork
    | with_reducible apply Keeps.partEnds
    | with_reducible apply Keeps.ite
    | with_reducible apply Keeps.ite2
    | split

theorem Keeps.doLaunchQueuePlace {s₀ s : State} (hk : Keeps s₀ s) : Keeps s₀ (State.doLaunchQueuePlace s) := by
  unfold State.doLaunchQueuePlace
  repeat' first
    | with_reducible assumption
    | with_reducible apply Keeps.placeWaiting

theorem Keeps.doCompletionRecord {s₀ s : State} (hk : Keeps s₀ s) (id : Nat) (slot : Nat) :
    Keeps s₀ (State.doCompletionRecord s id slot) := by
  unfold State.doCompletionRecord
  repeat' first
    | with_reducible assumption
    | with_reducible apply Keeps.ownResume
    | with_reducible apply Keeps.nearResume
    | with_reducible apply Keeps.partsResume
    | with_reducible apply Keeps.xferOver
    | with_reducible apply Keeps.taintedOp
    | with_reducible apply Keeps.collDone
    | with_reducible apply Keeps.engForget
    | with_reducible apply Keeps.modSlot
    | with_reducible apply Keeps.ite

theorem Keeps.doOperationTimeout {s₀ s : State} (hk : Keeps s₀ s) (id : Nat) (slot : Nat) :
    Keeps s₀ (State.doOperationTimeout s id slot) := by
  unfold State.doOperationTimeout
  repeat' first
    | with_reducible assumption
    | with_reducible apply Keeps.collEnd
    | with_reducible apply Keeps.stopOp
    | with_reducible apply Keeps.ite
    | split

theorem Keeps.doAccumulatorGrant {s₀ s : State} (hk : Keeps s₀ s) (tag : Nat) (chunk : Nat) :
    Keeps s₀ (State.doAccumulatorGrant s tag chunk) := by
  unfold State.doAccumulatorGrant
  repeat' first
    | with_reducible assumption
    | with_reducible apply Keeps.grantAcc
    | with_reducible apply Keeps.ite

theorem Keeps.doChunkEmitted {s₀ s : State} (hk : Keeps s₀ s) (tag : Nat) (chunk : Nat) :
    Keeps s₀ (State.doChunkEmitted s tag chunk) := by
  unfold State.doChunkEmitted
  repeat' first
    | with_reducible assumption
    | with_reducible apply Keeps.pairFind
    | with_reducible apply Keeps.chunkEmit
    | with_reducible apply Keeps.updChunk
    | with_reducible apply Keeps.pairScore
    | with_reducible apply Keeps.ite
    | with_reducible apply Keeps.ite2
    | (extract_lets +onlyGivenNames x; clear_value x; revert x; intro w)
    | split

end Sys2Proof.Laws
end

