-- ==== Sys2Proof/Laws/KeepsPorts.lean ====
section
/-! SUPPORT. What operations keep:
messages, the control window, channels, requests, ports, tasks and recovery. -/

namespace Sys2Proof.Laws

open Sys2Proof Sys2Proof.Machine

/-! ### Sys2Proof/Machine/Messages.lean -/

theorem Keeps.police {s₀ s : State} (hk : Keeps s₀ s) (k : Nat) (refill : Nat) (cost : Nat) :
    Keeps s₀ (State.police s k refill cost).2 := by
  unfold State.police
  repeat' first
    | with_reducible assumption
    | with_reducible apply Keeps.setBucket
    | with_reducible apply Keeps.ite2

theorem Keeps.polMsg {s₀ s : State} (hk : Keeps s₀ s) (p : Nat) (cost : Nat) : Keeps s₀ (State.polMsg s p cost).2 := by
  unfold State.polMsg
  repeat' first
    | with_reducible assumption
    | with_reducible apply Keeps.police
    | with_reducible apply Keeps.bump
    | with_reducible apply Keeps.ite2

theorem Keeps.rxWrite {s₀ s : State} (hk : Keeps s₀ s) (id : Nat) (sub : Nat) (n : Nat) (bs : List Byte) :
    Keeps s₀ (State.rxWrite s id sub n bs) := by
  unfold State.rxWrite
  repeat' first
    | with_reducible assumption
    | with_reducible apply Keeps.engSend

theorem Keeps.msgAnswer {s₀ s : State} (hk : Keeps s₀ s) (id : Nat) (m : RxMsg) (st : Nat) :
    Keeps s₀ (State.msgAnswer s id m st) := by
  unfold State.msgAnswer
  repeat' first
    | with_reducible assumption
    | with_reducible apply Keeps.answerFrom
    | with_reducible apply Keeps.markDone
    | split

theorem Keeps.rxDrop {s₀ s : State} (hk : Keeps s₀ s) (id : Nat) (m : RxMsg) : Keeps s₀ (State.rxDrop s id m) := by
  unfold State.rxDrop
  repeat' first
    | with_reducible assumption
    | with_reducible apply Keeps.msgAnswer
    | with_reducible apply Keeps.updAgent

theorem Keeps.rxFill {s₀ s : State} (hk : Keeps s₀ s) (p : Nat) (pcp : Nat) (n : Nat) :
    Keeps s₀ (State.rxFill s p pcp n) := by
  unfold State.rxFill
  repeat' first
    | with_reducible assumption
    | with_reducible apply Keeps.updPort
    | with_reducible apply Keeps.emit
    | with_reducible apply Keeps.ite

theorem Keeps.rxDrain {s₀ s : State} (hk : Keeps s₀ s) (m : RxMsg) : Keeps s₀ (State.rxDrain s m) := by
  unfold State.rxDrain
  repeat' first
    | with_reducible assumption
    | with_reducible apply Keeps.updPort
    | with_reducible apply Keeps.emit
    | with_reducible apply Keeps.ite
    | split

theorem Keeps.rxPlace {s₀ s : State} (hk : Keeps s₀ s) (id : Nat) (m : RxMsg) : Keeps s₀ (State.rxPlace s id m) := by
  unfold State.rxPlace
  repeat' first
    | with_reducible assumption
    | (intro a)
    | with_reducible apply Keeps.updAgent
    | with_reducible apply Keeps.rxWrite
    | with_reducible apply Keeps.foldl

theorem Keeps.rxArrive {s₀ s : State} (hk : Keeps s₀ s) (id : Nat) (m : RxMsg) : Keeps s₀ (State.rxArrive s id m) := by
  unfold State.rxArrive
  repeat' first
    | with_reducible assumption
    | with_reducible apply Keeps.updAgent
    | with_reducible apply Keeps.rxDrop
    | with_reducible apply Keeps.rxDrain
    | with_reducible apply Keeps.rxPlace
    | with_reducible apply Keeps.ite

theorem Keeps.rxDiscard {s₀ s : State} (hk : Keeps s₀ s) (id : Nat) (here : RxMsg → Bool) :
    Keeps s₀ (State.rxDiscard s id here) := by
  unfold State.rxDiscard
  repeat' first
    | with_reducible assumption
    | (intro a)
    | with_reducible apply Keeps.rxDrain
    | with_reducible apply Keeps.updAgent
    | with_reducible apply Keeps.engDrop
    | with_reducible apply Keeps.rxPlace
    | with_reducible apply Keeps.ite
    | with_reducible apply Keeps.foldl

theorem Keeps.rxRelease {s₀ s : State} (hk : Keeps s₀ s) (id : Nat) : Keeps s₀ (State.rxRelease s id) := by
  unfold State.rxRelease
  repeat' first
    | with_reducible assumption
    | (intro a)
    | with_reducible apply Keeps.updAgent
    | with_reducible apply Keeps.rxArrive
    | with_reducible apply Keeps.foldl

theorem Keeps.rxSetBase {s₀ s : State} (hk : Keeps s₀ s) (id : Nat) (base : Nat) (log2 : Nat) :
    Keeps s₀ (State.rxSetBase s id base log2) := by
  unfold State.rxSetBase
  repeat' first
    | with_reducible assumption
    | with_reducible apply Keeps.rxRelease
    | with_reducible apply Keeps.updAgent

theorem Keeps.rxExtentGone {s₀ s : State} (hk : Keeps s₀ s) (lo : Nat) (len : Nat) :
    Keeps s₀ (State.rxExtentGone s lo len) := by
  unfold State.rxExtentGone
  repeat' first
    | with_reducible assumption
    | (intro a)
    | with_reducible apply Keeps.engDrop
    | with_reducible apply Keeps.updAgent
    | with_reducible apply Keeps.rxDrop
    | with_reducible apply Keeps.rxDrain
    | with_reducible apply Keeps.ite
    | with_reducible apply Keeps.foldl

theorem Keeps.doRxaBaseApply {s₀ s : State} (hk : Keeps s₀ s) (id : Nat) : Keeps s₀ (State.doRxaBaseApply s id) := by
  unfold State.doRxaBaseApply
  repeat' first
    | with_reducible assumption
    | with_reducible apply Keeps.rxSetBase
    | with_reducible apply Keeps.finishCmp
    | with_reducible apply Keeps.rxRelease
    | with_reducible apply Keeps.ite
    | (extract_lets +onlyGivenNames x; clear_value x; revert x; intro w)
    | split

theorem Keeps.doReceiveAreaPost {s₀ s : State} (hk : Keeps s₀ s) (id : Nat) : Keeps s₀ (State.doReceiveAreaPost s id) := by
  unfold State.doReceiveAreaPost
  repeat' first
    | with_reducible assumption
    | with_reducible apply Keeps.rxWrite
    | with_reducible apply Keeps.updAgent
    | with_reducible apply Keeps.msgAnswer
    | with_reducible apply Keeps.rxDrain
    | with_reducible apply Keeps.ite
    | (extract_lets +onlyGivenNames x; clear_value x; revert x; intro w)
    | split

theorem Keeps.msgRoute {s₀ s : State} (hk : Keeps s₀ s) (r : Req) : Keeps s₀ (State.msgRoute s r) := by
  unfold State.msgRoute
  repeat' first
    | with_reducible assumption
    | with_reducible apply Keeps.rxArrive
    | with_reducible apply Keeps.answerFrom
    | with_reducible apply Keeps.markDone
    | with_reducible apply Keeps.send
    | with_reducible apply Keeps.ingPlaced
    | with_reducible apply Keeps.ite
    | split

/-! ### Sys2Proof/Machine/Window.lean -/

theorem Keeps.storeLease {s₀ s : State} (hk : Keeps s₀ s) (r : Req) (id : Nat) : Keeps s₀ (State.storeLease s r id) := by
  unfold State.storeLease
  repeat' first
    | with_reducible assumption
    | with_reducible apply Keeps.finishCmp
    | with_reducible apply Keeps.updAgent
    | with_reducible apply Keeps.ite

theorem Keeps.storeRxaBase {s₀ s : State} (hk : Keeps s₀ s) (r : Req) (id : Nat) : Keeps s₀ (State.storeRxaBase s r id) := by
  unfold State.storeRxaBase
  repeat' first
    | with_reducible assumption
    | with_reducible apply Keeps.finishCmp
    | with_reducible apply Keeps.rxSetBase
    | with_reducible apply Keeps.updAgent
    | with_reducible apply Keeps.ite

theorem Keeps.storeRxaTail {s₀ s : State} (hk : Keeps s₀ s) (r : Req) (id : Nat) : Keeps s₀ (State.storeRxaTail s r id) := by
  unfold State.storeRxaTail
  repeat' first
    | with_reducible assumption
    | with_reducible apply Keeps.finishCmp
    | with_reducible apply Keeps.updAgent
    | with_reducible apply Keeps.ite

theorem Keeps.storeDesc {s₀ s : State} (hk : Keeps s₀ s) (r : Req) (k : Nat) (o : Nat) (n : Nat) :
    Keeps s₀ (State.storeDesc s r k o n) := by
  unfold State.storeDesc
  repeat' first
    | with_reducible assumption
    | with_reducible apply Keeps.finishCmp
    | with_reducible apply Keeps.modSlot
    | with_reducible apply Keeps.ite

theorem Keeps.winStore {s₀ s : State} (hk : Keeps s₀ s) (r : Req) : Keeps s₀ (State.winStore s r) := by
  unfold State.winStore
  repeat' first
    | with_reducible assumption
    | with_reducible apply Keeps.storeDesc
    | with_reducible apply Keeps.applyLaunch
    | with_reducible apply Keeps.applyAbort
    | with_reducible apply Keeps.finishCmp
    | with_reducible apply Keeps.storeLease
    | with_reducible apply Keeps.storeRxaBase
    | with_reducible apply Keeps.storeRxaTail
    | with_reducible apply Keeps.ite

theorem Keeps.winAccess {s₀ s : State} (hk : Keeps s₀ s) (r : Req) : Keeps s₀ (State.winAccess s r) := by
  unfold State.winAccess
  repeat' first
    | with_reducible assumption
    | with_reducible apply Keeps.finish
    | with_reducible apply Keeps.finishCmp
    | with_reducible apply Keeps.winStore
    | with_reducible apply Keeps.ite
    | split

/-! ### Sys2Proof/Machine/Caravan.lean -/

theorem Keeps.setChan {s₀ s : State} (hk : Keeps s₀ s) (c : Nat) (h : Chan) : Keeps s₀ (State.setChan s c h) := by
  unfold State.setChan
  repeat' first
    | with_reducible assumption
    | with_reducible apply Keeps.wr
    | with_reducible rfl
    | ((conv => arg 2; arg 23); with_reducible apply Keeps.lit)

theorem Keeps.setCarState {s₀ s : State} (hk : Keeps s₀ s) (c : Nat) (st : Nat) : Keeps s₀ (State.setCarState s c st) := by
  unfold State.setCarState
  repeat' first
    | with_reducible assumption
    | with_reducible apply Keeps.wr
    | with_reducible apply Keeps.sendVector
    | with_reducible apply Keeps.engSend
    | with_reducible apply Keeps.ite

theorem Keeps.carIgn {s₀ s : State} (hk : Keeps s₀ s) (c : Nat) : Keeps s₀ (State.carIgn s c) := by
  unfold State.carIgn
  repeat' first
    | with_reducible assumption
    | with_reducible apply Keeps.raiseBits

theorem Keeps.carFetchAt {s₀ s : State} (hk : Keeps s₀ s) (c : Nat) (a : Nat) : Keeps s₀ (State.carFetchAt s c a) := by
  unfold State.carFetchAt
  repeat' first
    | with_reducible assumption
    | with_reducible apply Keeps.wr
    | with_reducible apply Keeps.setChan

theorem Keeps.carDnext {s₀ s : State} (hk : Keeps s₀ s) (c : Nat) (a : Nat) : Keeps s₀ (State.carDnext s c a) := by
  unfold State.carDnext
  repeat' first
    | with_reducible assumption
    | with_reducible apply Keeps.wr
    | with_reducible apply Keeps.carIgn
    | with_reducible apply Keeps.ite

theorem Keeps.carGo {s₀ s : State} (hk : Keeps s₀ s) (c : Nat) : Keeps s₀ (State.carGo s c) := by
  unfold State.carGo
  repeat' first
    | with_reducible assumption
    | with_reducible apply Keeps.carIgn
    | with_reducible apply Keeps.setCarState
    | with_reducible apply Keeps.carFetchAt
    | with_reducible apply Keeps.ite

theorem Keeps.carPause {s₀ s : State} (hk : Keeps s₀ s) (c : Nat) : Keeps s₀ (State.carPause s c) := by
  unfold State.carPause
  repeat' first
    | with_reducible assumption
    | with_reducible apply Keeps.setCarState
    | with_reducible apply Keeps.carIgn
    | with_reducible apply Keeps.ite

theorem Keeps.carAbort {s₀ s : State} (hk : Keeps s₀ s) (c : Nat) : Keeps s₀ (State.carAbort s c) := by
  unfold State.carAbort
  repeat' first
    | with_reducible assumption
    | with_reducible apply Keeps.setCarState
    | with_reducible apply Keeps.setChan
    | with_reducible apply Keeps.carIgn
    | with_reducible apply Keeps.ite

theorem Keeps.carCommand {s₀ s : State} (hk : Keeps s₀ s) (c : Nat) (go : Bool) (pause : Bool) (abort : Bool)
    (setd : Bool) (daddr : Nat) :
    Keeps s₀ (State.carCommand s c go pause abort setd daddr) := by
  unfold State.carCommand
  repeat' first
    | with_reducible assumption
    | with_reducible apply Keeps.carDnext
    | with_reducible apply Keeps.carAbort
    | with_reducible apply Keeps.carPause
    | with_reducible apply Keeps.carGo
    | with_reducible apply Keeps.ite

theorem Keeps.carAbortAll {s₀ s : State} (hk : Keeps s₀ s) (ok : Nat → Bool) : Keeps s₀ (State.carAbortAll s ok) := by
  unfold State.carAbortAll
  repeat' first
    | with_reducible assumption
    | (intro a)
    | with_reducible apply Keeps.carAbort
    | with_reducible apply Keeps.ite
    | with_reducible apply Keeps.foldl

theorem Keeps.carRead {s₀ s : State} (hk : Keeps s₀ s) (c : Nat) (a : Nat) (n : Nat) :
    Keeps s₀ (State.carRead s c a n).2 := by
  unfold State.carRead
  repeat' first
    | (extract_lets +onlyGivenNames x; refine (fun (hx : ∀ s a, Keeps s₀ s → Keeps s₀ (x s a).2) => ?_) ?_;
       (on_goal 2 => (unfold x; clear x)); (on_goal 1 => (clear_value x; revert x; intro wf hwf)))
    | with_reducible apply hwf
    | with_reducible assumption
    | (intro a)
    | with_reducible apply Keeps.engLine
    | with_reducible apply Keeps.ite2
    | (extract_lets +onlyGivenNames x; clear_value x; revert x; intro w)
    | split

theorem Keeps.carWrite {s₀ s : State} (hk : Keeps s₀ s) (c : Nat) (raw : Nat) (a : Nat) :
    Keeps s₀ (State.carWrite s c raw a) := by
  induction a generalizing s c raw with
  | zero =>
    unfold State.carWrite
    repeat' first
      | with_reducible assumption
  | succ n ih =>
    unfold State.carWrite
    repeat' first
      | with_reducible assumption
      | with_reducible apply ih
      | with_reducible apply Keeps.setChan
      | with_reducible apply Keeps.engSend
      | with_reducible apply Keeps.ite

theorem Keeps.carMove {s₀ s : State} (hk : Keeps s₀ s) (c : Nat) (a : Nat) : Keeps s₀ (State.carMove s c a) := by
  induction a generalizing s c with
  | zero =>
    unfold State.carMove
    repeat' first
      | with_reducible assumption
  | succ n ih =>
    unfold State.carMove
    repeat' first
      | with_reducible assumption
      | with_reducible apply ih
      | with_reducible apply Keeps.carRead
      | with_reducible apply Keeps.chanErr
      | with_reducible apply Keeps.setChan
      | with_reducible apply Keeps.carWrite
      | with_reducible apply Keeps.ite

theorem Keeps.carAsk {s₀ s : State} (hk : Keeps s₀ s) (c : Nat) : Keeps s₀ (State.carAsk s c) := by
  unfold State.carAsk
  repeat' first
    | with_reducible assumption
    | with_reducible apply Keeps.engAskWhere

theorem Keeps.carRun {s₀ s : State} (hk : Keeps s₀ s) (c : Nat) (n : Nat) (a : Nat) : Keeps s₀ (State.carRun s c n a) := by
  induction a generalizing s c n with
  | zero =>
    unfold State.carRun
    repeat' first
      | with_reducible assumption
  | succ n ih =>
    unfold State.carRun
    repeat' first
      | with_reducible assumption
      | with_reducible apply ih
      | with_reducible apply Keeps.carMove
      | with_reducible apply Keeps.engAskLines
      | with_reducible apply Keeps.carAsk
      | with_reducible apply Keeps.ite

theorem Keeps.carStatus {s₀ s : State} (hk : Keeps s₀ s) (c : Nat) (dstate : Nat) (st : Nat) (doneLen : Nat) :
    Keeps s₀ (State.carStatus s c dstate st doneLen) := by
  unfold State.carStatus
  repeat' first
    | with_reducible assumption
    | with_reducible apply Keeps.setChan
    | with_reducible apply Keeps.engSend

theorem Keeps.carHalt {s₀ s : State} (hk : Keeps s₀ s) (c : Nat) (st : Nat) : Keeps s₀ (State.carHalt s c st) := by
  unfold State.carHalt
  repeat' first
    | with_reducible assumption
    | with_reducible apply Keeps.setCarState
    | with_reducible apply Keeps.wr

theorem Keeps.carTell {s₀ s : State} (hk : Keeps s₀ s) (c : Nat) : Keeps s₀ (State.carTell s c) := by
  unfold State.carTell
  repeat' first
    | with_reducible assumption
    | with_reducible apply Keeps.wr
    | with_reducible apply Keeps.setChan
    | with_reducible apply Keeps.sendVector
    | with_reducible apply Keeps.ite

theorem Keeps.carNext {s₀ s : State} (hk : Keeps s₀ s) (c : Nat) : Keeps s₀ (State.carNext s c) := by
  unfold State.carNext
  repeat' first
    | with_reducible assumption
    | with_reducible apply Keeps.setCarState
    | with_reducible apply Keeps.wr
    | with_reducible apply Keeps.carFetchAt
    | with_reducible apply Keeps.ite

theorem Keeps.carEndDesc {s₀ s : State} (hk : Keeps s₀ s) (c : Nat) : Keeps s₀ (State.carEndDesc s c) := by
  unfold State.carEndDesc
  repeat' first
    | with_reducible assumption
    | with_reducible apply Keeps.bump
    | with_reducible apply Keeps.carStatus
    | (extract_lets +onlyGivenNames x; clear_value x; revert x; intro w)
    | split

theorem Keeps.carTimeout {s₀ s : State} (hk : Keeps s₀ s) (c : Nat) : Keeps s₀ (State.carTimeout s c) := by
  unfold State.carTimeout
  repeat' first
    | with_reducible assumption
    | with_reducible apply Keeps.engDropReqs
    | with_reducible apply Keeps.chanErr
    | with_reducible apply Keeps.bump
    | with_reducible rfl
    | ((conv => arg 2; arg 23); with_reducible apply Keeps.lit)
    | split

/-! ### Sys2Proof/Machine/Request.lean -/

theorem Keeps.lotGone {s₀ s : State} (hk : Keeps s₀ s) (r : Req) : Keeps s₀ (State.lotGone s r) := by
  unfold State.lotGone
  repeat' first
    | with_reducible assumption
    | with_reducible apply Keeps.lotDrop
    | split

theorem Keeps.carStore {s₀ s : State} (hk : Keeps s₀ s) (r : Req) (c : Nat) : Keeps s₀ (State.carStore s r c) := by
  unfold State.carStore
  repeat' first
    | with_reducible assumption
    | with_reducible apply Keeps.holdRelease
    | with_reducible apply Keeps.poolAccess
    | with_reducible apply Keeps.carCommand
    | with_reducible apply Keeps.ite

theorem Keeps.homeArrive {s₀ s : State} (hk : Keeps s₀ s) (r : Req) : Keeps s₀ (State.homeArrive s r) := by
  unfold State.homeArrive
  repeat' first
    | with_reducible assumption
    | with_reducible apply Keeps.lotGone
    | with_reducible apply Keeps.bump
    | with_reducible apply Keeps.wait
    | with_reducible apply Keeps.msgRoute
    | with_reducible apply Keeps.contribute
    | with_reducible apply Keeps.carStore
    | with_reducible apply Keeps.holdRelease
    | with_reducible apply Keeps.applyRun
    | with_reducible apply Keeps.winAccess
    | with_reducible apply Keeps.poolAccess
    | with_reducible apply Keeps.ite
    | split

theorem Keeps.tagged {s₀ s : State} (hk : Keeps s₀ s) (p : Nat) (r : Req) : Keeps s₀ (State.tagged s p r).2 := by
  unfold State.tagged
  repeat' first
    | with_reducible assumption
    | with_reducible apply Keeps.lotPut

theorem Keeps.toPoint {s₀ s : State} (hk : Keeps s₀ s) (r : Req) : Keeps s₀ (State.toPoint s r) := by
  unfold State.toPoint
  repeat' first
    | with_reducible assumption
    | (intro a)
    | with_reducible apply Keeps.homeArrive
    | with_reducible apply Keeps.passPoint
    | with_reducible apply Keeps.ite

theorem Keeps.letIn {s₀ s : State} (hk : Keeps s₀ s) (p : Nat) (r : Req) : Keeps s₀ (State.letIn s p r) := by
  unfold State.letIn
  repeat' first
    | with_reducible assumption
    | with_reducible apply Keeps.wait
    | with_reducible apply Keeps.bump
    | with_reducible apply Keeps.tagged
    | with_reducible apply Keeps.toPoint
    | with_reducible apply Keeps.ite

theorem Keeps.ingress {s₀ s : State} (hk : Keeps s₀ s) (p : Nat) (m : Msg) (res : Nat) (go : State → Req → State)
    (hgo : ∀ x x1, Keeps s₀ x → Keeps s₀ (go x x1)) :
    Keeps s₀ (State.ingress s p m res go) := by
  unfold State.ingress
  repeat' first
    | with_reducible assumption
    | with_reducible apply hgo
    | with_reducible apply Keeps.reject
    | with_reducible apply Keeps.bump
    | with_reducible apply Keeps.polMsg
    | with_reducible apply Keeps.open
    | with_reducible apply Keeps.refuseAt
    | with_reducible apply Keeps.ite
    | with_reducible apply Keeps.ite2
    | (extract_lets +onlyGivenNames x; refine (fun (hx : Keeps s₀ x.2) => ?_) ?_;
       (on_goal 2 => (unfold x; clear x)); (on_goal 1 => ((try clear_value x); revert x; intro w hw)))
    | (extract_lets +onlyGivenNames x; clear_value x; revert x; intro w)
    | split

theorem Keeps.request {s₀ s : State} (hk : Keeps s₀ s) (p : Nat) (m : Msg) (res : Nat) :
    Keeps s₀ (State.request s p m res) := by
  unfold State.request
  repeat' first
    | with_reducible assumption
    | (intro a)
    | with_reducible apply Keeps.ingress
    | with_reducible apply Keeps.letIn
    | with_reducible apply Keeps.ite

theorem Keeps.rerun {s₀ s : State} (hk : Keeps s₀ s) (w : Wait) : Keeps s₀ (State.rerun s w) := by
  unfold State.rerun
  repeat' first
    | with_reducible assumption
    | with_reducible apply Keeps.letIn
    | with_reducible apply Keeps.engSend
    | with_reducible apply Keeps.toPoint
    | with_reducible apply Keeps.homeArrive
    | split

theorem Keeps.resumeN {s₀ s : State} (hk : Keeps s₀ s) (a : Nat) : Keeps s₀ (State.resumeN s a) := by
  induction a generalizing s  with
  | zero =>
    unfold State.resumeN
    repeat' first
      | with_reducible assumption
  | succ n ih =>
    unfold State.resumeN
    repeat' first
      | with_reducible assumption
      | with_reducible apply ih
      | with_reducible apply Keeps.rerun
      | with_reducible rfl
      | ((conv => arg 2; arg 23); with_reducible apply Keeps.lit)
      | (extract_lets +onlyGivenNames x; clear_value x; revert x; intro w)
      | split

theorem Keeps.resume {s₀ s : State} (hk : Keeps s₀ s) : Keeps s₀ (State.resume s) := by
  unfold State.resume
  repeat' first
    | with_reducible assumption
    | with_reducible apply Keeps.resumeN

/-! ### Sys2Proof/Machine/Link.lean -/

theorem Keeps.updLink {s₀ s : State} (hk : Keeps s₀ s) (p : Nat) (f : Link → Link) : Keeps s₀ (State.updLink s p f) := by
  unfold State.updLink
  repeat' first
    | with_reducible assumption
    | with_reducible apply Keeps.updPort

theorem Keeps.setLstate {s₀ s : State} (hk : Keeps s₀ s) (p : Nat) (v : Nat) : Keeps s₀ (State.setLstate s p v) := by
  unfold State.setLstate
  repeat' first
    | with_reducible assumption
    | with_reducible apply Keeps.wr

theorem Keeps.emitFlit {s₀ s : State} (hk : Keeps s₀ s) (p : Nat) (ftype : Nat) (fseq : Nat) (hdrmap : Nat)
    (slots : List Byte) :
    Keeps s₀ (State.emitFlit s p ftype fseq hdrmap slots) := by
  unfold State.emitFlit
  repeat' first
    | with_reducible assumption
    | with_reducible apply Keeps.emit
    | with_reducible apply Keeps.updLink

theorem Keeps.sendIdle {s₀ s : State} (hk : Keeps s₀ s) (p : Nat) : Keeps s₀ (State.sendIdle s p) := by
  unfold State.sendIdle
  repeat' first
    | with_reducible assumption
    | with_reducible apply Keeps.emitFlit

theorem Keeps.sendCredits {s₀ s : State} (hk : Keeps s₀ s) (p : Nat) (pool : Nat) :
    Keeps s₀ (State.sendCredits s p pool) := by
  unfold State.sendCredits
  repeat' first
    | with_reducible assumption
    | (intro a)
    | with_reducible apply Keeps.sendIdle
    | with_reducible apply Keeps.ite
    | with_reducible apply Keeps.foldl

theorem Keeps.sendNak {s₀ s : State} (hk : Keeps s₀ s) (p : Nat) : Keeps s₀ (State.sendNak s p) := by
  unfold State.sendNak
  repeat' first
    | with_reducible assumption
    | with_reducible apply Keeps.emitFlit

theorem Keeps.sendProto {s₀ s : State} (hk : Keeps s₀ s) (p : Nat) (hdrmap : Nat) (slots : List Byte) :
    Keeps s₀ (State.sendProto s p hdrmap slots) := by
  unfold State.sendProto
  repeat' first
    | with_reducible assumption
    | with_reducible apply Keeps.updLink
    | with_reducible apply Keeps.emitFlit

theorem Keeps.transmit {s₀ s : State} (hk : Keeps s₀ s) (p : Nat) (m : Msg) : Keeps s₀ (State.transmit s p m) := by
  unfold State.transmit
  repeat' first
    | with_reducible assumption
    | (intro a)
    | with_reducible apply Keeps.updLink
    | with_reducible apply Keeps.sendProto
    | with_reducible apply Keeps.foldl

theorem Keeps.takeAck {s₀ s : State} (hk : Keeps s₀ s) (p : Nat) (f : List Byte) : Keeps s₀ (State.takeAck s p f) := by
  unfold State.takeAck
  repeat' first
    | with_reducible assumption
    | with_reducible apply Keeps.updLink

theorem Keeps.resend {s₀ s : State} (hk : Keeps s₀ s) (p : Nat) : Keeps s₀ (State.resend s p) := by
  unfold State.resend
  repeat' first
    | with_reducible assumption
    | (intro a)
    | with_reducible apply Keeps.emitFlit
    | with_reducible apply Keeps.foldl

theorem Keeps.freeSlots {s₀ s : State} (hk : Keeps s₀ s) (p : Nat) (pool : Nat) (n : Nat) :
    Keeps s₀ (State.freeSlots s p pool n) := by
  unfold State.freeSlots
  repeat' first
    | with_reducible assumption
    | with_reducible apply Keeps.lower
    | with_reducible apply Keeps.updLink

theorem Keeps.mirrProduce {s₀ s : State} (hk : Keeps s₀ s) (n : Nat) (x : Tapped) : Keeps s₀ (State.mirrProduce s n x) := by
  unfold State.mirrProduce
  repeat' first
    | with_reducible assumption
    | with_reducible apply Keeps.advance
    | with_reducible apply Keeps.police
    | with_reducible apply Keeps.bump
    | with_reducible rfl
    | ((conv => arg 2; arg 23); with_reducible apply Keeps.lit)
    | with_reducible apply Keeps.ite

theorem Keeps.mirrTap {s₀ s : State} (hk : Keeps s₀ s) (x : Tapped) : Keeps s₀ (State.mirrTap s x) := by
  unfold State.mirrTap
  repeat' first
    | with_reducible assumption
    | with_reducible apply Keeps.mirrProduce
    | with_reducible rfl
    | ((conv => arg 2; arg 23); with_reducible apply Keeps.lit)
    | with_reducible apply Keeps.ite
    | (extract_lets +onlyGivenNames x; clear_value x; revert x; intro w)
    | split

theorem Keeps.pushIng {s₀ s : State} (hk : Keeps s₀ s) (p : Nat) (point : Nat) (cls : Nat) (sub : Nat) (m : Msg)
    (req : Bool) (held : Bool) (taken : Bool) (dep : Option Nat) :
    Keeps s₀ (State.pushIng s p point cls sub m req held taken dep) := by
  unfold State.pushIng
  repeat' first
    | with_reducible assumption
    | with_reducible apply Keeps.advance
    | with_reducible rfl
    | ((conv => arg 2; arg 23); with_reducible apply Keeps.lit)

theorem Keeps.toUplink {s₀ s : State} (hk : Keeps s₀ s) (r : Req) : Keeps s₀ (State.toUplink s r) := by
  unfold State.toUplink
  repeat' first
    | with_reducible assumption
    | with_reducible apply Keeps.homeArrive
    | with_reducible apply Keeps.ite

theorem Keeps.queueReq {s₀ s : State} (hk : Keeps s₀ s) (p : Nat) (r : Req) : Keeps s₀ (State.queueReq s p r) := by
  unfold State.queueReq
  repeat' first
    | with_reducible assumption
    | with_reducible apply Keeps.bump
    | with_reducible apply Keeps.toUplink
    | with_reducible apply Keeps.pushIng
    | with_reducible apply Keeps.lotPut
    | with_reducible rfl
    | ((conv => arg 2; arg 23); with_reducible apply Keeps.lit)
    | with_reducible apply Keeps.ite
    | (extract_lets +onlyGivenNames x; refine (fun (hx : Keeps s₀ x) => ?_) ?_;
       (on_goal 2 => (unfold x; clear x)); (on_goal 1 => ((try clear_value x); revert x; intro w hw)))
    | (extract_lets +onlyGivenNames x; clear_value x; revert x; intro w)

theorem Keeps.queueHeld {s₀ s : State} (hk : Keeps s₀ s) : Keeps s₀ (State.queueHeld s) := by
  unfold State.queueHeld
  repeat' first
    | with_reducible assumption
    | (intro a)
    | with_reducible apply Keeps.lotPut
    | with_reducible apply Keeps.toUplink
    | with_reducible apply Keeps.bump
    | with_reducible rfl
    | ((conv => arg 2; arg 23); with_reducible apply Keeps.lit)
    | with_reducible apply Keeps.ite
    | with_reducible apply Keeps.foldl

/-! ### Sys2Proof/Machine/Ports.lean -/

theorem Keeps.dropTacc {s₀ s : State} (hk : Keeps s₀ s) (t : TAcc) : Keeps s₀ (State.dropTacc s t) := by
  unfold State.dropTacc
  exact Keeps.lit hk rfl rfl

theorem Keeps.migLine {s₀ s : State} (hk : Keeps s₀ s) (pg : Nat) (l : Nat) (bytes : List Byte) (psn : Bool) :
    Keeps s₀ (State.migLine s pg l bytes psn) := by
  unfold State.migLine
  repeat' first
    | with_reducible assumption
    | with_reducible apply Keeps.bump
    | with_reducible apply Keeps.notePsn
    | with_reducible apply Keeps.learnLine
    | with_reducible apply Keeps.migIssue
    | with_reducible rfl
    | ((conv => arg 2; arg 23); with_reducible apply Keeps.lit)
    | with_reducible apply Keeps.ite
    | split

theorem Keeps.trayData {s₀ s : State} (hk : Keeps s₀ s) (p : Nat) (m : Msg) : Keeps s₀ (State.trayData s p m) := by
  unfold State.trayData
  repeat' first
    | with_reducible assumption
    | with_reducible apply Keeps.serveLoads
    | with_reducible apply Keeps.notePsn
    | with_reducible apply Keeps.learnLine
    | with_reducible apply Keeps.dropTacc
    | with_reducible apply Keeps.bump
    | with_reducible apply Keeps.grantData
    | with_reducible apply Keeps.wbufPut
    | with_reducible apply Keeps.migLine
    | with_reducible apply Keeps.wbufSettle
    | with_reducible apply Keeps.ite
    | (extract_lets +onlyGivenNames x; refine (fun (hx : Keeps s₀ x) => ?_) ?_;
       (on_goal 2 => (unfold x; clear x)); (on_goal 1 => ((try clear_value x); revert x; intro w hw)))
    | (extract_lets +onlyGivenNames x; clear_value x; revert x; intro w)
    | split

theorem Keeps.trayCmp {s₀ s : State} (hk : Keeps s₀ s) (p : Nat) (m : Msg) : Keeps s₀ (State.trayCmp s p m) := by
  unfold State.trayCmp
  repeat' first
    | with_reducible assumption
    | with_reducible apply Keeps.wbufSettle
    | with_reducible apply Keeps.dropTacc
    | with_reducible apply Keeps.migIssue
    | with_reducible apply Keeps.bump
    | with_reducible rfl
    | ((conv => arg 2; arg 23); with_reducible apply Keeps.lit)
    | (extract_lets +onlyGivenNames x; refine (fun (hx : Keeps s₀ x) => ?_) ?_;
       (on_goal 2 => (unfold x; clear x)); (on_goal 1 => ((try clear_value x); revert x; intro w hw)))
    | (extract_lets +onlyGivenNames x; clear_value x; revert x; intro w)
    | split

theorem Keeps.stopTimer {s₀ s : State} (hk : Keeps s₀ s) (r : Req) : Keeps s₀ (State.stopTimer s r) := by
  unfold State.stopTimer
  repeat' first
    | with_reducible assumption
    | (intro a)
    | with_reducible apply Keeps.updSource
    | with_reducible apply Keeps.foldl
    | split

theorem Keeps.trayLost {s₀ s : State} (hk : Keeps s₀ s) (t : TAcc) : Keeps s₀ (State.trayLost s t) := by
  unfold State.trayLost
  repeat' first
    | with_reducible assumption
    | (intro a)
    | with_reducible apply Keeps.dropTacc
    | with_reducible apply Keeps.finish
    | with_reducible apply Keeps.stopTimer
    | with_reducible apply Keeps.grantLost
    | with_reducible apply Keeps.retryDemotions
    | with_reducible apply Keeps.abandonMig
    | with_reducible rfl
    | ((conv => arg 2; arg 23); with_reducible apply Keeps.lit)
    | with_reducible apply Keeps.foldl
    | (extract_lets +onlyGivenNames x; refine (fun (hx : Keeps s₀ x) => ?_) ?_;
       (on_goal 2 => (unfold x; clear x)); (on_goal 1 => ((try clear_value x); revert x; intro w hw)))
    | (extract_lets +onlyGivenNames x; clear_value x; revert x; intro w)
    | split

theorem Keeps.hackArrive {s₀ s : State} (hk : Keeps s₀ s) (id : Nat) (m : Msg) : Keeps s₀ (State.hackArrive s id m) := by
  unfold State.hackArrive
  repeat' first
    | with_reducible assumption
    | with_reducible apply Keeps.noteDone
    | with_reducible apply Keeps.dropSub
    | with_reducible apply Keeps.snoopHack
    | with_reducible rfl
    | ((conv => arg 2; arg 23); with_reducible apply Keeps.lit)
    | with_reducible apply Keeps.ite
    | split

theorem Keeps.fwdData {s₀ s : State} (hk : Keeps s₀ s) (p : Nat) (m : Msg) (ing : Option Nat) (cut : Bool) :
    Keeps s₀ (State.fwdData s p m ing cut).2 := by
  unfold State.fwdData
  repeat' first
    | with_reducible assumption
    | with_reducible apply Keeps.bump
    | with_reducible apply Keeps.send
    | with_reducible rfl
    | ((conv => arg 2; arg 23); with_reducible apply Keeps.lit)
    | with_reducible apply Keeps.ite2
    | (extract_lets +onlyGivenNames x; clear_value x; revert x; intro w)
    | (dsimp -zeta only)
    | split

theorem Keeps.capRefresh {s₀ s : State} (hk : Keeps s₀ s) : Keeps s₀ (State.capRefresh s) := by
  unfold State.capRefresh
  repeat' first
    | with_reducible assumption
    | with_reducible apply Keeps.wr

theorem Keeps.dropUplink {s₀ s : State} (hk : Keeps s₀ s) (here : Msg → Bool) : Keeps s₀ (State.dropUplink s here).2 := by
  unfold State.dropUplink
  repeat' first
    | with_reducible assumption
    | (intro a)
    | with_reducible apply Keeps.egrFree
    | with_reducible apply Keeps.ingPlaced
    | with_reducible apply Keeps.fromEgress
    | with_reducible rfl
    | ((conv => arg 2; arg 23); with_reducible apply Keeps.lit)
    | with_reducible apply Keeps.foldl

theorem Keeps.dropLate {s₀ s : State} (hk : Keeps s₀ s) (here : Req → Bool) : Keeps s₀ (State.dropLate s here).2 := by
  unfold State.dropLate
  repeat' first
    | with_reducible assumption
    | (intro a)
    | with_reducible apply Keeps.rxDiscard
    | with_reducible apply Keeps.pubDrop
    | with_reducible apply Keeps.foldl

theorem Keeps.dropHeld {s₀ s : State} (hk : Keeps s₀ s) (here : Req → Bool) : Keeps s₀ (State.dropHeld s here).2 := by
  unfold State.dropHeld
  repeat' first
    | with_reducible assumption
    | (intro a)
    | with_reducible apply Keeps.dropLate
    | with_reducible apply Keeps.ingPlaced
    | with_reducible rfl
    | ((conv => arg 2; arg 23); with_reducible apply Keeps.lit)
    | with_reducible apply Keeps.foldl

theorem Keeps.flushHeld {s₀ s : State} (hk : Keeps s₀ s) (p : Nat) : Keeps s₀ (State.flushHeld s p).2 := by
  unfold State.flushHeld
  repeat' first
    | with_reducible assumption
    | with_reducible apply Keeps.dropHeld
    | with_reducible rfl
    | ((conv => arg 2; arg 23); with_reducible apply Keeps.lit)
    | (extract_lets +onlyGivenNames x; refine (fun (hx : Keeps s₀ x) => ?_) ?_;
       (on_goal 2 => (unfold x; clear x)); (on_goal 1 => ((try clear_value x); revert x; intro w hw)))
    | (extract_lets +onlyGivenNames x; refine (fun (hx : Keeps s₀ x.2) => ?_) ?_;
       (on_goal 2 => (unfold x; clear x)); (on_goal 1 => ((try clear_value x); revert x; intro w hw)))
    | (extract_lets +onlyGivenNames x; clear_value x; revert x; intro w)
    | (dsimp -zeta only)

theorem Keeps.flushRxa {s₀ s : State} (hk : Keeps s₀ s) (p : Nat) (id : Nat) : Keeps s₀ (State.flushRxa s p id) := by
  unfold State.flushRxa
  repeat' first
    | with_reducible assumption
    | with_reducible apply Keeps.rxRelease
    | with_reducible apply Keeps.ite
    | split

theorem Keeps.flushQueues {s₀ s : State} (hk : Keeps s₀ s) (p : Nat) : Keeps s₀ (State.flushQueues s p) := by
  unfold State.flushQueues
  repeat' first
    | with_reducible assumption
    | (intro a)
    | with_reducible apply Keeps.dropUplink
    | with_reducible apply Keeps.lower
    | with_reducible apply Keeps.mcastDone
    | with_reducible apply Keeps.ingPlaced
    | with_reducible apply Keeps.fromEgress
    | with_reducible apply Keeps.bump
    | with_reducible rfl
    | ((conv => arg 2; arg 23); with_reducible apply Keeps.lit)
    | with_reducible apply Keeps.foldl

theorem Keeps.flushPart {s₀ s : State} (hk : Keeps s₀ s) (p : Nat) : Keeps s₀ (State.flushPart s p) := by
  unfold State.flushPart
  repeat' first
    | with_reducible assumption
    | with_reducible apply Keeps.send
    | with_reducible apply Keeps.bump
    | with_reducible apply Keeps.ite
    | split

theorem Keeps.flushAgent {s₀ s : State} (hk : Keeps s₀ s) (id : Nat) : Keeps s₀ (State.flushAgent s id) := by
  unfold State.flushAgent
  repeat' first
    | with_reducible assumption
    | (intro a)
    | with_reducible apply Keeps.groupFault
    | with_reducible apply Keeps.flushedSnoop
    | with_reducible apply Keeps.unsubscribe
    | with_reducible apply Keeps.updAgent
    | with_reducible rfl
    | ((conv => arg 2; arg 23); with_reducible apply Keeps.lit)
    | with_reducible apply Keeps.ite
    | with_reducible apply Keeps.foldl
    | (extract_lets +onlyGivenNames x; refine (fun (hx : Keeps s₀ x) => ?_) ?_;
       (on_goal 2 => (unfold x; clear x)); (on_goal 1 => ((try clear_value x); revert x; intro w hw)))
    | split

theorem Keeps.flushTray {s₀ s : State} (hk : Keeps s₀ s) (p : Nat) : Keeps s₀ (State.flushTray s p) := by
  unfold State.flushTray
  repeat' first
    | with_reducible assumption
    | (intro a)
    | with_reducible apply Keeps.trayLost
    | with_reducible apply Keeps.foldl

theorem Keeps.unbind {s₀ s : State} (hk : Keeps s₀ s) (p : Nat) : Keeps s₀ (State.unbind s p) := by
  unfold State.unbind
  repeat' first
    | with_reducible assumption
    | with_reducible apply Keeps.updPort
    | with_reducible apply Keeps.wr
    | with_reducible apply Keeps.flushQueues
    | with_reducible apply Keeps.flushPart
    | with_reducible apply Keeps.flushHeld
    | with_reducible apply Keeps.bump
    | with_reducible apply Keeps.flushRxa
    | with_reducible apply Keeps.flushTray
    | with_reducible apply Keeps.abortAll
    | with_reducible apply Keeps.flushAgent
    | with_reducible apply Keeps.unsubscribe
    | with_reducible apply Keeps.carAbortAll
    | with_reducible apply Keeps.event
    | with_reducible apply Keeps.capRefresh
    | with_reducible apply Keeps.ite

theorem Keeps.msgEnd {s₀ s : State} (hk : Keeps s₀ s) (die : Nat) (m : Msg) (st : Nat) :
    Keeps s₀ (State.msgEnd s die m st) := by
  unfold State.msgEnd
  repeat' first
    | with_reducible assumption
    | with_reducible apply Keeps.bump
    | with_reducible apply Keeps.answerFrom
    | with_reducible apply Keeps.markDone
    | split

theorem Keeps.moveUplink {s₀ s : State} (hk : Keeps s₀ s) (die : Nat) (u : Nat) (cls : Nat) (sub : Nat) (m : Msg) :
    Keeps s₀ (State.moveUplink s die u cls sub m) := by
  unfold State.moveUplink
  repeat' first
    | with_reducible assumption
    | with_reducible apply Keeps.sendLocal
    | with_reducible apply Keeps.send
    | with_reducible apply Keeps.ite

theorem Keeps.uplinkLeft {s₀ s : State} (hk : Keeps s₀ s) (p : Nat) : Keeps s₀ (State.uplinkLeft s p) := by
  unfold State.uplinkLeft
  repeat' first
    | with_reducible assumption
    | (intro a)
    | with_reducible apply Keeps.fromEgress
    | with_reducible apply Keeps.moveUplink
    | with_reducible apply Keeps.msgEnd
    | with_reducible apply Keeps.foldl
    | split

theorem Keeps.showRepaired {s₀ s : State} (hk : Keeps s₀ s) (p : Nat) : Keeps s₀ (State.showRepaired s p) := by
  unfold State.showRepaired
  repeat' first
    | with_reducible assumption
    | with_reducible apply Keeps.wr

theorem Keeps.showLanes {s₀ s : State} (hk : Keeps s₀ s) (p : Nat) (used : List Nat) :
    Keeps s₀ (State.showLanes s p used) := by
  unfold State.showLanes
  repeat' first
    | with_reducible assumption
    | (intro a)
    | with_reducible apply Keeps.wr
    | with_reducible apply Keeps.showRepaired
    | with_reducible apply Keeps.foldl

theorem Keeps.linkOff {s₀ s : State} (hk : Keeps s₀ s) (p : Nat) (st : Nat) : Keeps s₀ (State.linkOff s p st) := by
  unfold State.linkOff
  repeat' first
    | with_reducible assumption
    | with_reducible apply Keeps.updPort
    | with_reducible apply Keeps.setLstate
    | with_reducible apply Keeps.showLanes
    | with_reducible apply Keeps.uplinkLeft
    | with_reducible apply Keeps.unbind
    | with_reducible apply Keeps.ite

theorem Keeps.discFollow {s₀ s : State} (hk : Keeps s₀ s) (p : Nat) : Keeps s₀ (State.discFollow s p) := by
  unfold State.discFollow
  repeat' first
    | with_reducible assumption
    | with_reducible apply Keeps.updPort
    | with_reducible apply Keeps.wr
    | with_reducible apply Keeps.ite

theorem Keeps.countDown {s₀ s : State} (hk : Keeps s₀ s) (p : Nat) : Keeps s₀ (State.countDown s p).2 := by
  unfold State.countDown
  repeat' first
    | with_reducible assumption
    | with_reducible apply Keeps.bump
    | with_reducible apply Keeps.updPort
    | with_reducible apply Keeps.wr

theorem Keeps.park {s₀ s : State} (hk : Keeps s₀ s) (p : Nat) : Keeps s₀ (State.park s p) := by
  unfold State.park
  repeat' first
    | with_reducible assumption
    | with_reducible apply Keeps.event
    | with_reducible apply Keeps.linkOff

theorem Keeps.downCounted {s₀ s : State} (hk : Keeps s₀ s) (p : Nat) : Keeps s₀ (State.downCounted s p) := by
  unfold State.downCounted
  repeat' first
    | with_reducible assumption
    | with_reducible apply Keeps.countDown
    | with_reducible apply Keeps.park
    | with_reducible apply Keeps.wr
    | with_reducible apply Keeps.linkOff
    | with_reducible apply Keeps.ite

theorem Keeps.downQuiet {s₀ s : State} (hk : Keeps s₀ s) (p : Nat) : Keeps s₀ (State.downQuiet s p) := by
  unfold State.downQuiet
  repeat' first
    | with_reducible assumption
    | with_reducible apply Keeps.linkOff

theorem Keeps.startTrain {s₀ s : State} (hk : Keeps s₀ s) (p : Nat) : Keeps s₀ (State.startTrain s p) := by
  unfold State.startTrain
  repeat' first
    | with_reducible assumption
    | with_reducible apply Keeps.setLstate
    | with_reducible apply Keeps.ite

theorem Keeps.retrainWaits {s₀ s : State} (hk : Keeps s₀ s) (p : Nat) : Keeps s₀ (State.retrainWaits s p) := by
  unfold State.retrainWaits
  repeat' first
    | with_reducible assumption
    | (intro a)
    | with_reducible apply Keeps.lateLog
    | with_reducible apply Keeps.bump
    | with_reducible apply Keeps.recause
    | with_reducible apply Keeps.setDir
    | with_reducible rfl
    | ((conv => arg 2; arg 23); with_reducible apply Keeps.lit)
    | with_reducible apply Keeps.ite2
    | with_reducible apply Keeps.foldl
    | with_reducible apply Keeps.foldl2
    | (extract_lets +onlyGivenNames x; refine (fun (hx : Keeps s₀ x) => ?_) ?_;
       (on_goal 2 => (unfold x; clear x)); (on_goal 1 => ((try clear_value x); revert x; intro w hw)))
    | (extract_lets +onlyGivenNames x; refine (fun (hx : Keeps s₀ x.2) => ?_) ?_;
       (on_goal 2 => (unfold x; clear x)); (on_goal 1 => ((try clear_value x); revert x; intro w hw)))
    | (dsimp -zeta only)
    | split

theorem Keeps.abandonMoves {s₀ s : State} (hk : Keeps s₀ s) (p : Nat) : Keeps s₀ (State.abandonMoves s p) := by
  unfold State.abandonMoves
  repeat' first
    | with_reducible assumption
    | (intro a)
    | with_reducible apply Keeps.abandonMig
    | with_reducible apply Keeps.ite
    | with_reducible apply Keeps.foldl

theorem Keeps.enterRetrain {s₀ s : State} (hk : Keeps s₀ s) (p : Nat) : Keeps s₀ (State.enterRetrain s p) := by
  unfold State.enterRetrain
  repeat' first
    | with_reducible assumption
    | with_reducible apply Keeps.updPort
    | with_reducible apply Keeps.bump
    | with_reducible apply Keeps.setLstate
    | with_reducible apply Keeps.uplinkLeft
    | with_reducible apply Keeps.abandonMoves
    | with_reducible apply Keeps.retrainWaits
    | with_reducible apply Keeps.ite

theorem Keeps.retrained {s₀ s : State} (hk : Keeps s₀ s) (p : Nat) : Keeps s₀ (State.retrained s p) := by
  unfold State.retrained
  repeat' first
    | with_reducible assumption
    | with_reducible apply Keeps.updPort
    | with_reducible apply Keeps.setLstate
    | with_reducible apply Keeps.retryDemotions
    | with_reducible apply Keeps.resend
    | with_reducible apply Keeps.ite

theorem Keeps.replay {s₀ s : State} (hk : Keeps s₀ s) (p : Nat) : Keeps s₀ (State.replay s p) := by
  unfold State.replay
  repeat' first
    | with_reducible assumption
    | with_reducible apply Keeps.updLink
    | with_reducible apply Keeps.bump
    | with_reducible apply Keeps.resend
    | with_reducible apply Keeps.enterRetrain
    | with_reducible apply Keeps.ite

/-! ### Sys2Proof/Machine/Tasks.lean -/

theorem Keeps.walkCount {s₀ s : State} (hk : Keeps s₀ s) : Keeps s₀ (State.walkCount s) := by
  unfold State.walkCount
  repeat' first
    | with_reducible assumption
    | with_reducible apply Keeps.advance
    | with_reducible apply Keeps.wr

theorem Keeps.walkPage {s₀ s : State} (hk : Keeps s₀ s) (n : Nat) (k : Nat) : Keeps s₀ (State.walkPage s n k).2 := by
  unfold State.walkPage
  repeat' first
    | with_reducible assumption
    | with_reducible apply Keeps.demote
    | with_reducible apply Keeps.walkCount
    | with_reducible rfl
    | ((conv => arg 2; arg 23); with_reducible apply Keeps.lit)
    | with_reducible apply Keeps.ite2
    | (extract_lets +onlyGivenNames x; refine (fun (hx : Keeps s₀ x) => ?_) ?_;
       (on_goal 2 => (unfold x; clear x)); (on_goal 1 => ((try clear_value x); revert x; intro w hw)))
    | (extract_lets +onlyGivenNames x; clear_value x; revert x; intro w)
    | (dsimp -zeta only)
    | split

theorem Keeps.walkRound {s₀ s : State} (hk : Keeps s₀ s) : Keeps s₀ (State.walkRound s).2 := by
  unfold State.walkRound
  repeat' first
    | with_reducible assumption
    | (intro a)
    | with_reducible apply Keeps.walkPage
    | with_reducible apply Keeps.foldl2

theorem Keeps.walkRounds {s₀ s : State} (hk : Keeps s₀ s) (a : Nat) : Keeps s₀ (State.walkRounds s a) := by
  induction a generalizing s  with
  | zero =>
    unfold State.walkRounds
    repeat' first
      | with_reducible assumption
  | succ n ih =>
    unfold State.walkRounds
    repeat' first
      | with_reducible assumption
      | with_reducible apply ih
      | with_reducible apply Keeps.walkRound
      | with_reducible apply Keeps.ite

theorem Keeps.walkEnded {s₀ s : State} (hk : Keeps s₀ s) : Keeps s₀ (State.walkEnded s) := by
  unfold State.walkEnded
  repeat' first
    | with_reducible assumption
    | (intro a)
    | with_reducible apply Keeps.walkCount
    | with_reducible rfl
    | ((conv => arg 2; arg 23); with_reducible apply Keeps.lit)
    | with_reducible apply Keeps.ite
    | with_reducible apply Keeps.foldl
    | (extract_lets +onlyGivenNames x; refine (fun (hx : Keeps s₀ x) => ?_) ?_;
       (on_goal 2 => (unfold x; clear x)); (on_goal 1 => ((try clear_value x); revert x; intro w hw)))
    | (extract_lets +onlyGivenNames x; clear_value x; revert x; intro w)

theorem Keeps.walkEnd {s₀ s : State} (hk : Keeps s₀ s) (st : Nat) : Keeps s₀ (State.walkEnd s st) := by
  unfold State.walkEnd
  repeat' first
    | with_reducible assumption
    | with_reducible apply Keeps.wr
    | with_reducible apply Keeps.cmdDone
    | with_reducible rfl
    | ((conv => arg 2; arg 23); with_reducible apply Keeps.lit)

theorem Keeps.walk {s₀ s : State} (hk : Keeps s₀ s) : Keeps s₀ (State.walk s) := by
  unfold State.walk
  repeat' first
    | with_reducible assumption
    | with_reducible apply Keeps.walkEnded
    | with_reducible apply Keeps.walkRounds
    | with_reducible apply Keeps.walkEnd
    | with_reducible apply Keeps.ite

theorem Keeps.setObject {s₀ s : State} (hk : Keeps s₀ s) (i : Nat) (o : Obj) : Keeps s₀ (State.setObject s i o) := by
  unfold State.setObject
  exact Keeps.lit hk rfl rfl

theorem Keeps.placeFrame {s₀ s : State} (hk : Keeps s₀ s) (pg : Nat) : Keeps s₀ (State.placeFrame s pg).2 := by
  unfold State.placeFrame
  repeat' first
    | with_reducible assumption
    | with_reducible apply Keeps.ergcGate
    | (extract_lets +onlyGivenNames x; refine (fun (hx : Keeps s₀ x.2) => ?_) ?_;
       (on_goal 2 => (unfold x; clear x)); (on_goal 1 => ((try clear_value x); revert x; intro w hw)))
    | split

theorem Keeps.placeIn {s₀ s : State} (hk : Keeps s₀ s) (pg : Nat) : Keeps s₀ (State.placeIn s pg).2 := by
  unfold State.placeIn
  repeat' first
    | with_reducible assumption
    | with_reducible apply Keeps.setPage
    | with_reducible apply Keeps.placeFrame
    | with_reducible apply Keeps.ite
    | with_reducible apply Keeps.ite2

theorem Keeps.placeOut {s₀ s : State} (hk : Keeps s₀ s) (pg : Nat) : Keeps s₀ (State.placeOut s pg).2 := by
  unfold State.placeOut
  repeat' first
    | with_reducible assumption
    | with_reducible apply Keeps.setPage
    | with_reducible apply Keeps.demote
    | with_reducible apply Keeps.ite2

theorem Keeps.showPos {s₀ s : State} (hk : Keeps s₀ s) (pos : Nat) : Keeps s₀ (State.showPos s pos) := by
  unfold State.showPos
  repeat' first
    | with_reducible assumption
    | with_reducible apply Keeps.wr

theorem Keeps.objProgress {s₀ s : State} (hk : Keeps s₀ s) : Keeps s₀ (State.objProgress s) := by
  unfold State.objProgress
  repeat' first
    | with_reducible assumption
    | with_reducible apply Keeps.showPos

theorem Keeps.objOver {s₀ s : State} (hk : Keeps s₀ s) : Keeps s₀ (State.objOver s) := by
  unfold State.objOver
  repeat' first
    | with_reducible assumption
    | with_reducible apply Keeps.cmdDone
    | with_reducible apply Keeps.wr
    | with_reducible rfl
    | ((conv => arg 2; arg 23); with_reducible apply Keeps.lit)

theorem Keeps.nextEntry {s₀ s : State} (hk : Keeps s₀ s) (a : List (Nat × Nat)) : Keeps s₀ (State.nextEntry s a) := by
  induction a generalizing s  with
  | nil =>
    unfold State.nextEntry
    repeat' first
      | with_reducible assumption
      | with_reducible apply Keeps.objOver
  | cons a l ih =>
    unfold State.nextEntry
    repeat' first
      | with_reducible assumption
      | with_reducible apply ih
      | with_reducible apply Keeps.bump
      | with_reducible apply Keeps.showPos
      | with_reducible apply Keeps.wr
      | with_reducible rfl
      | ((conv => arg 2; arg 23); with_reducible apply Keeps.lit)
      | with_reducible apply Keeps.ite

theorem Keeps.objDone {s₀ s : State} (hk : Keeps s₀ s) (st : Nat) : Keeps s₀ (State.objDone s st) := by
  unfold State.objDone
  repeat' first
    | with_reducible assumption
    | with_reducible apply Keeps.setObject
    | with_reducible apply Keeps.wr
    | with_reducible apply Keeps.objProgress
    | with_reducible apply Keeps.objOver
    | with_reducible apply Keeps.nextEntry
    | with_reducible rfl
    | ((conv => arg 2; arg 23); with_reducible apply Keeps.lit)
    | with_reducible apply Keeps.ite

theorem Keeps.objStart {s₀ s : State} (hk : Keeps s₀ s) (a : Nat) : Keeps s₀ (State.objStart s a) := by
  induction a generalizing s  with
  | zero =>
    unfold State.objStart
    repeat' first
      | with_reducible assumption
  | succ n ih =>
    unfold State.objStart
    repeat' first
      | with_reducible assumption
      | with_reducible apply ih
      | with_reducible apply Keeps.placeIn
      | with_reducible apply Keeps.placeOut
      | with_reducible rfl
      | ((conv => arg 2; arg 23); with_reducible apply Keeps.lit)
      | with_reducible apply Keeps.ite
      | with_reducible apply Keeps.ite2
      | (extract_lets +onlyGivenNames x; refine (fun (hx : Keeps s₀ x) => ?_) ?_;
         (on_goal 2 => (unfold x; clear x)); (on_goal 1 => ((try clear_value x); revert x; intro w hw)))
      | (extract_lets +onlyGivenNames x; refine (fun (hx : Keeps s₀ x.2) => ?_) ?_;
         (on_goal 2 => (unfold x; clear x)); (on_goal 1 => ((try clear_value x); revert x; intro w hw)))
      | (extract_lets +onlyGivenNames x; clear_value x; revert x; intro w)
      | split

theorem Keeps.objAdvance {s₀ s : State} (hk : Keeps s₀ s) : Keeps s₀ (State.objAdvance s) := by
  unfold State.objAdvance
  repeat' first
    | with_reducible assumption
    | with_reducible apply Keeps.objDone
    | with_reducible apply Keeps.objStart
    | with_reducible apply Keeps.objProgress
    | with_reducible rfl
    | ((conv => arg 2; arg 23); with_reducible apply Keeps.lit)
    | with_reducible apply Keeps.ite

theorem Keeps.objRun {s₀ s : State} (hk : Keeps s₀ s) (a : Nat) : Keeps s₀ (State.objRun s a) := by
  induction a generalizing s  with
  | zero =>
    unfold State.objRun
    repeat' first
      | with_reducible assumption
  | succ n ih =>
    unfold State.objRun
    repeat' first
      | with_reducible assumption
      | with_reducible apply ih
      | with_reducible apply Keeps.objAdvance
      | with_reducible apply Keeps.ite

theorem Keeps.tasks {s₀ s : State} (hk : Keeps s₀ s) : Keeps s₀ (State.tasks s) := by
  unfold State.tasks
  repeat' first
    | with_reducible assumption
    | with_reducible apply Keeps.walk
    | with_reducible apply Keeps.objRun

/-! ### Sys2Proof/Machine/Recov.lean -/

theorem Keeps.enterContain {s₀ s : State} (hk : Keeps s₀ s) (cause : Nat) (cls : Nat) :
    Keeps s₀ (State.enterContain s cause cls) := by
  unfold State.enterContain
  repeat' first
    | with_reducible assumption
    | with_reducible apply Keeps.wr
    | with_reducible apply Keeps.carAbortAll
    | with_reducible apply Keeps.irq
    | with_reducible apply Keeps.event
    | with_reducible rfl
    | ((conv => arg 2; arg 23); with_reducible apply Keeps.lit)
    | with_reducible apply Keeps.ite

theorem Keeps.leaveContain {s₀ s : State} (hk : Keeps s₀ s) : Keeps s₀ (State.leaveContain s) := by
  unfold State.leaveContain
  repeat' first
    | with_reducible assumption
    | with_reducible apply Keeps.wr
    | with_reducible apply Keeps.retryDemotions
    | with_reducible apply Keeps.lateScans
    | with_reducible apply Keeps.event
    | with_reducible rfl
    | ((conv => arg 2; arg 23); with_reducible apply Keeps.lit)

theorem Keeps.planeFail {s₀ s : State} (hk : Keeps s₀ s) (n : Nat) : Keeps s₀ (State.planeFail s n) := by
  unfold State.planeFail
  repeat' first
    | with_reducible assumption
    | with_reducible apply Keeps.event
    | with_reducible apply Keeps.wr
    | with_reducible apply Keeps.raise
    | with_reducible apply Keeps.ite

theorem Keeps.replayTaken {s₀ s : State} (hk : Keeps s₀ s) (n : Nat) : Keeps s₀ (State.replayTaken s n) := by
  unfold State.replayTaken
  repeat' first
    | with_reducible assumption
    | (intro a)
    | with_reducible apply Keeps.bump
    | with_reducible rfl
    | ((conv => arg 2; arg 23); with_reducible apply Keeps.lit)
    | with_reducible apply Keeps.ite
    | with_reducible apply Keeps.foldl

theorem Keeps.replane {s₀ s : State} (hk : Keeps s₀ s) (n : Nat) : Keeps s₀ (State.replane s n) := by
  unfold State.replane
  repeat' first
    | with_reducible assumption
    | with_reducible apply Keeps.replayTaken
    | with_reducible apply Keeps.mcastFill
    | with_reducible rfl
    | ((conv => arg 2; arg 23); with_reducible apply Keeps.lit)

theorem Keeps.spareIn {s₀ s : State} (hk : Keeps s₀ s) : Keeps s₀ (State.spareIn s) := by
  unfold State.spareIn
  repeat' first
    | with_reducible assumption
    | with_reducible apply Keeps.wr
    | with_reducible apply Keeps.event
    | with_reducible apply Keeps.replane
    | with_reducible apply Keeps.bump
    | split

theorem Keeps.planeReduce {s₀ s : State} (hk : Keeps s₀ s) : Keeps s₀ (State.planeReduce s) := by
  unfold State.planeReduce
  repeat' first
    | with_reducible assumption
    | (intro a)
    | with_reducible apply Keeps.enterContain
    | with_reducible apply Keeps.wr
    | with_reducible apply Keeps.replane
    | with_reducible apply Keeps.ite
    | with_reducible apply Keeps.foldl
    | (extract_lets +onlyGivenNames x; clear_value x; revert x; intro w)
    | split

theorem Keeps.planeStep {s₀ s : State} (hk : Keeps s₀ s) (n : Nat) : Keeps s₀ (State.planeStep s n) := by
  unfold State.planeStep
  repeat' first
    | with_reducible assumption
    | with_reducible apply Keeps.rmap
    | with_reducible apply Keeps.setDegraded
    | with_reducible apply Keeps.ite

theorem Keeps.findSub {s₀ s : State} (hk : Keeps s₀ s) (pg : Nat) : Keeps s₀ (State.findSub s pg).2 := by
  unfold State.findSub
  repeat' first
    | with_reducible assumption
    | with_reducible apply Keeps.takeSub
    | with_reducible apply Keeps.demoteFor
    | with_reducible apply Keeps.ite2
    | (extract_lets +onlyGivenNames x; refine (fun (hx : Keeps s₀ x.2) => ?_) ?_;
       (on_goal 2 => (unfold x; clear x)); (on_goal 1 => ((try clear_value x); revert x; intro w hw)))
    | (extract_lets +onlyGivenNames x; clear_value x; revert x; intro w)
    | split

theorem Keeps.leaveFrame {s₀ s : State} (hk : Keeps s₀ s) (k : Nat) (f : Nat) : Keeps s₀ (State.leaveFrame s k f) := by
  unfold State.leaveFrame
  repeat' first
    | with_reducible assumption
    | with_reducible apply Keeps.demoteSoon
    | with_reducible apply Keeps.findSub
    | with_reducible apply Keeps.ite
    | (extract_lets +onlyGivenNames x; clear_value x; revert x; intro w)
    | split

theorem Keeps.retireFrame {s₀ s : State} (hk : Keeps s₀ s) (key : Nat) : Keeps s₀ (State.retireFrame s key) := by
  unfold State.retireFrame
  repeat' first
    | with_reducible assumption
    | with_reducible apply Keeps.rmap
    | with_reducible apply Keeps.event
    | with_reducible apply Keeps.capRefresh
    | with_reducible apply Keeps.leaveFrame
    | with_reducible rfl
    | ((conv => arg 2; arg 23); with_reducible apply Keeps.lit)
    | with_reducible apply Keeps.ite

theorem Keeps.loseDirty {s₀ s : State} (hk : Keeps s₀ s) (pg : Nat) : Keeps s₀ (State.loseDirty s pg) := by
  unfold State.loseDirty
  repeat' first
    | with_reducible assumption
    | (intro a)
    | with_reducible apply Keeps.poisonPage
    | with_reducible apply Keeps.wbufPut
    | with_reducible apply Keeps.event
    | with_reducible apply Keeps.bump
    | with_reducible apply Keeps.foldl

theorem Keeps.dropPromoted {s₀ s : State} (hk : Keeps s₀ s) (pg : Nat) : Keeps s₀ (State.dropPromoted s pg) := by
  unfold State.dropPromoted
  repeat' first
    | with_reducible assumption
    | with_reducible apply Keeps.creditOasis
    | with_reducible apply Keeps.setPage
    | with_reducible apply Keeps.trayCopy

theorem Keeps.loseMigs {s₀ s : State} (hk : Keeps s₀ s) (n : Nat) : Keeps s₀ (State.loseMigs s n) := by
  unfold State.loseMigs
  repeat' first
    | with_reducible assumption
    | (intro a)
    | with_reducible apply Keeps.abandonMig
    | with_reducible apply Keeps.loseDirty
    | with_reducible apply Keeps.dropPromoted
    | with_reducible apply Keeps.bump
    | with_reducible apply Keeps.dropMig
    | with_reducible apply Keeps.wantPage
    | with_reducible apply Keeps.setPage
    | with_reducible rfl
    | ((conv => arg 2; arg 23); with_reducible apply Keeps.lit)
    | with_reducible apply Keeps.ite
    | with_reducible apply Keeps.foldl
    | (extract_lets +onlyGivenNames x; refine (fun (hx : Keeps s₀ x) => ?_) ?_;
       (on_goal 2 => (unfold x; clear x)); (on_goal 1 => ((try clear_value x); revert x; intro w hw)))
    | (extract_lets +onlyGivenNames x; clear_value x; revert x; intro w)
    | split

theorem Keeps.stackLost {s₀ s : State} (hk : Keeps s₀ s) (n : Nat) : Keeps s₀ (State.stackLost s n) := by
  unfold State.stackLost
  repeat' first
    | with_reducible assumption
    | (intro a)
    | with_reducible apply Keeps.wr
    | with_reducible apply Keeps.loseMigs
    | with_reducible apply Keeps.dropPromoted
    | with_reducible apply Keeps.loseDirty
    | with_reducible apply Keeps.findSub
    | with_reducible apply Keeps.setPage
    | with_reducible apply Keeps.event
    | with_reducible apply Keeps.capRefresh
    | with_reducible apply Keeps.countNosub
    | with_reducible apply Keeps.rmap
    | with_reducible apply Keeps.setDegraded
    | with_reducible rfl
    | ((conv => arg 2; arg 23); with_reducible apply Keeps.lit)
    | with_reducible apply Keeps.ite
    | with_reducible apply Keeps.foldl

theorem Keeps.rowsOf {s₀ s : State} (hk : Keeps s₀ s) (f : Nat) : Keeps s₀ (State.rowsOf s f).2 := by
  unfold State.rowsOf
  repeat' first
    | with_reducible assumption
    | with_reducible apply Keeps.free
    | with_reducible rfl
    | ((conv => arg 2; arg 23); with_reducible apply Keeps.lit)
    | with_reducible apply Keeps.ite2
    | (extract_lets +onlyGivenNames x; clear_value x; revert x; intro w)
    | (dsimp -zeta only)

theorem Keeps.rewriteLine {s₀ s : State} (hk : Keeps s₀ s) (l : Nat) : Keeps s₀ (State.rewriteLine s l) := by
  unfold State.rewriteLine
  repeat' first
    | with_reducible assumption
    | with_reducible apply Keeps.checkLine
    | with_reducible apply Keeps.clearSym
    | with_reducible apply Keeps.putLine
    | with_reducible rfl
    | ((conv => arg 2; arg 23); with_reducible apply Keeps.lit)
    | (extract_lets +onlyGivenNames x; refine (fun (hx : Keeps s₀ x) => ?_) ?_;
       (on_goal 2 => (unfold x; clear x)); (on_goal 1 => ((try clear_value x); revert x; intro w hw)))
    | (extract_lets +onlyGivenNames x; refine (fun (hx : Keeps s₀ x.2) => ?_) ?_;
       (on_goal 2 => (unfold x; clear x)); (on_goal 1 => ((try clear_value x); revert x; intro w hw)))

theorem Keeps.repairRow {s₀ s : State} (hk : Keeps s₀ s) (n : Nat) (row : Nat) : Keeps s₀ (State.repairRow s n row) := by
  unfold State.repairRow
  repeat' first
    | with_reducible assumption
    | (intro a)
    | with_reducible apply Keeps.rmap
    | with_reducible apply Keeps.rewriteLine
    | with_reducible apply Keeps.foldl

theorem Keeps.retireRow {s₀ s : State} (hk : Keeps s₀ s) (n : Nat) (row : Nat) : Keeps s₀ (State.retireRow s n row) := by
  unfold State.retireRow
  repeat' first
    | with_reducible assumption
    | (intro a)
    | with_reducible apply Keeps.retireFrame
    | with_reducible apply Keeps.ite
    | with_reducible apply Keeps.foldl

theorem Keeps.rowCheck {s₀ s : State} (hk : Keeps s₀ s) (f : Nat) (ok : Bool) : Keeps s₀ (State.rowCheck s f ok) := by
  unfold State.rowCheck
  repeat' first
    | with_reducible assumption
    | (intro a)
    | with_reducible apply Keeps.rowsOf
    | with_reducible apply Keeps.repairRow
    | with_reducible apply Keeps.retireRow
    | with_reducible apply Keeps.retireFrame
    | with_reducible apply Keeps.ite
    | with_reducible apply Keeps.foldl

theorem Keeps.portDieLost {s₀ s : State} (hk : Keeps s₀ s) (d : Nat) : Keeps s₀ (State.portDieLost s d) := by
  unfold State.portDieLost
  repeat' first
    | with_reducible assumption
    | (intro a)
    | with_reducible apply Keeps.downQuiet
    | with_reducible rfl
    | ((conv => arg 2; arg 23); with_reducible apply Keeps.lit)
    | with_reducible apply Keeps.ite
    | with_reducible apply Keeps.foldl

theorem Keeps.takeHacks {s₀ s : State} (hk : Keeps s₀ s) : Keeps s₀ (State.takeHacks s) := by
  unfold State.takeHacks
  repeat' first
    | with_reducible assumption
    | (intro a)
    | with_reducible apply Keeps.hackArrive
    | with_reducible rfl
    | ((conv => arg 2; arg 23); with_reducible apply Keeps.lit)
    | with_reducible apply Keeps.foldl

theorem Keeps.dirResume {s₀ s : State} (hk : Keeps s₀ s) (k : Nat) : Keeps s₀ (State.dirResume s k) := by
  unfold State.dirResume
  repeat' first
    | with_reducible assumption
    | with_reducible apply Keeps.takeHacks
    | with_reducible rfl
    | ((conv => arg 2; arg 23); with_reducible apply Keeps.lit)

theorem Keeps.sliceRetire {s₀ s : State} (hk : Keeps s₀ s) (k : Nat) : Keeps s₀ (State.sliceRetire s k) := by
  unfold State.sliceRetire
  repeat' first
    | with_reducible assumption
    | with_reducible apply Keeps.rmap
    | with_reducible apply Keeps.setDegraded
    | with_reducible apply Keeps.dirResume
    | with_reducible apply Keeps.allGroupsFault
    | with_reducible rfl
    | ((conv => arg 2; arg 23); with_reducible apply Keeps.lit)
    | with_reducible apply Keeps.ite

theorem Keeps.ctRetire {s₀ s : State} (hk : Keeps s₀ s) (c : Nat) : Keeps s₀ (State.ctRetire s c) := by
  unfold State.ctRetire
  repeat' first
    | with_reducible assumption
    | with_reducible apply Keeps.rmap
    | with_reducible apply Keeps.enterContain
    | with_reducible apply Keeps.setDegraded
    | with_reducible rfl
    | ((conv => arg 2; arg 23); with_reducible apply Keeps.lit)
    | with_reducible apply Keeps.ite

theorem Keeps.moveAdders {s₀ s : State} (hk : Keeps s₀ s) (k : Nat) : Keeps s₀ (State.moveAdders s k) := by
  unfold State.moveAdders
  repeat' first
    | with_reducible assumption
    | with_reducible apply Keeps.setDegraded
    | with_reducible apply Keeps.event
    | with_reducible apply Keeps.wr
    | with_reducible apply Keeps.ite

theorem Keeps.laneFail {s₀ s : State} (hk : Keeps s₀ s) (p : Nat) (n : Nat) : Keeps s₀ (State.laneFail s p n) := by
  unfold State.laneFail
  repeat' first
    | with_reducible assumption
    | with_reducible apply Keeps.updPort

theorem Keeps.laneRecord {s₀ s : State} (hk : Keeps s₀ s) (l : Nat) : Keeps s₀ (State.laneRecord s l) := by
  unfold State.laneRecord
  repeat' first
    | with_reducible assumption
    | with_reducible apply Keeps.rmap
    | with_reducible apply Keeps.ite
    | split

theorem Keeps.peColumn {s₀ s : State} (hk : Keeps s₀ s) (u : Nat) : Keeps s₀ (State.peColumn s u) := by
  unfold State.peColumn
  repeat' first
    | with_reducible assumption
    | with_reducible apply Keeps.raise
    | with_reducible apply Keeps.dieHard
    | with_reducible apply Keeps.rmap
    | with_reducible apply Keeps.wr
    | with_reducible apply Keeps.ite

theorem Keeps.retireUnit {s₀ s : State} (hk : Keeps s₀ s) (cls : Nat) (u : Nat) : Keeps s₀ (State.retireUnit s cls u) := by
  unfold State.retireUnit
  repeat' first
    | with_reducible assumption
    | with_reducible apply Keeps.retireFrame
    | with_reducible apply Keeps.park
    | with_reducible apply Keeps.laneFail
    | with_reducible apply Keeps.planeStep
    | with_reducible apply Keeps.planeFail
    | with_reducible apply Keeps.rmap
    | with_reducible apply Keeps.moveAdders
    | with_reducible apply Keeps.retireDie
    | with_reducible apply Keeps.dieHardPass
    | with_reducible apply Keeps.dieHard
    | with_reducible apply Keeps.stackLost
    | with_reducible apply Keeps.setDegraded
    | with_reducible apply Keeps.portDieLost
    | with_reducible apply Keeps.sliceRetire
    | with_reducible apply Keeps.ctRetire
    | with_reducible apply Keeps.ite
    | (extract_lets +onlyGivenNames x; refine (fun (hx : Keeps s₀ x) => ?_) ?_;
       (on_goal 2 => (unfold x; clear x)); (on_goal 1 => ((try clear_value x); revert x; intro w hw)))
    | split

theorem Keeps.withRcv {s₀ s : State} (hk : Keeps s₀ s) (q : List RcvEnt) (r : Option RcvEnt) :
    Keeps s₀ (State.withRcv s q r) := by
  unfold State.withRcv
  exact Keeps.lit hk rfl rfl

theorem Keeps.sequence {s₀ s : State} (hk : Keeps s₀ s) : Keeps s₀ (State.sequence s) := by
  unfold State.sequence
  repeat' first
    | with_reducible assumption
    | with_reducible apply Keeps.withRcv
    | with_reducible apply Keeps.bump
    | with_reducible apply Keeps.ite
    | split

theorem Keeps.entryDone {s₀ s : State} (hk : Keeps s₀ s) : Keeps s₀ (State.entryDone s) := by
  unfold State.entryDone
  repeat' first
    | with_reducible assumption
    | with_reducible apply Keeps.sequence
    | with_reducible apply Keeps.bump
    | with_reducible apply Keeps.withRcv

theorem Keeps.immediate {s₀ s : State} (hk : Keeps s₀ s) (cls : Nat) (u : Nat) : Keeps s₀ (State.immediate s cls u) := by
  unfold State.immediate
  repeat' first
    | with_reducible assumption
    | with_reducible apply Keeps.planeFail
    | with_reducible apply Keeps.dieHard
    | with_reducible apply Keeps.portDieLost
    | with_reducible apply Keeps.allGroupsFault
    | with_reducible rfl
    | ((conv => arg 2; arg 23); with_reducible apply Keeps.lit)
    | with_reducible apply Keeps.ite
    | (extract_lets +onlyGivenNames x; clear_value x; revert x; intro w)
    | split

theorem Keeps.report {s₀ s : State} (hk : Keeps s₀ s) (f : StandingFault) : Keeps s₀ (State.report s f) := by
  unfold State.report
  repeat' first
    | with_reducible assumption
    | with_reducible apply Keeps.peColumn
    | with_reducible apply Keeps.enterContain
    | with_reducible apply Keeps.event
    | with_reducible apply Keeps.bump
    | with_reducible apply Keeps.retireUnit
    | with_reducible apply Keeps.withRcv
    | with_reducible apply Keeps.entryDone
    | with_reducible apply Keeps.sequence
    | with_reducible apply Keeps.ite

theorem Keeps.reportAll {s₀ s : State} (hk : Keeps s₀ s) (a : Nat) : Keeps s₀ (State.reportAll s a) := by
  induction a generalizing s  with
  | zero =>
    unfold State.reportAll
    repeat' first
      | with_reducible assumption
  | succ n ih =>
    unfold State.reportAll
    repeat' first
      | with_reducible assumption
      | with_reducible apply ih
      | with_reducible apply Keeps.report
      | with_reducible rfl
      | ((conv => arg 2; arg 23); with_reducible apply Keeps.lit)
      | (extract_lets +onlyGivenNames x; clear_value x; revert x; intro w)
      | split

theorem Keeps.losePins {s₀ s : State} (hk : Keeps s₀ s) : Keeps s₀ (State.losePins s) := by
  unfold State.losePins
  repeat' first
    | with_reducible assumption
    | (intro a)
    | with_reducible apply Keeps.stackLost
    | with_reducible apply Keeps.foldl

theorem Keeps.settle {s₀ s : State} (hk : Keeps s₀ s) : Keeps s₀ (State.settle s) := by
  unfold State.settle
  repeat' first
    | with_reducible assumption
    | with_reducible apply Keeps.losePins
    | with_reducible apply Keeps.queueHeld
    | with_reducible apply Keeps.reportAll
    | with_reducible apply Keeps.takeHacks
    | with_reducible apply Keeps.grantAgain
    | with_reducible apply Keeps.resume
    | with_reducible apply Keeps.tasks
    | with_reducible apply Keeps.grantVoq

theorem Keeps.settled {s₀ s : State} (hk : Keeps s₀ s) : ∀ nx, Machine.settled s = .next nx → Keeps s₀ nx := by
  intro t e; exact Host.Outcome.next.inj e ▸ hk.settle

theorem Keeps.fallBehind {s₀ s : State} (hk : Keeps s₀ s) (read : Bool) (c : Instr) :
    Keeps s₀ (State.fallBehind s read c) := by
  unfold State.fallBehind
  exact Keeps.lit hk rfl rfl

theorem Keeps.inOrder {s₀ s : State} (hk : Keeps s₀ s) (read : Bool) (c : Instr) (act : State → State)
    (hact : ∀ x, Keeps s₀ x → Keeps s₀ (act x)) :
    Keeps s₀ (State.inOrder s read c act) := by
  unfold State.inOrder
  repeat' first
    | with_reducible assumption
    | with_reducible apply hact
    | with_reducible apply Keeps.fallBehind
    | with_reducible apply Keeps.ite

theorem Keeps.hostRow {s₀ s : State} (hk : Keeps s₀ s) (c : Instr) (act : State → State)
    (hact : ∀ x, Keeps s₀ x → Keeps s₀ (act x)) :
    ∀ nx, Machine.hostRow c act s = .next nx → Keeps s₀ nx := by
  intro nx e
  unfold Machine.hostRow at e
  refine Keeps.settled ?_ nx e
  repeat' first
    | with_reducible assumption
    | with_reducible apply Keeps.inOrder

end Sys2Proof.Laws
end

