-- ==== Sys2Proof/Laws/KeepsLinkRows.lean ====
section
/-! SUPPORT. What operations keep:
the commands of links, requests, frontiers, the switch, ports and recovery. -/

namespace Sys2Proof.Laws

open Sys2Proof Sys2Proof.Machine

/-! ### Sys2Proof/Machine/LinkRows.lean -/

theorem Keeps.creditBack {s₀ s : State} (hk : Keeps s₀ s) (p : Nat) (m : Msg) : Keeps s₀ (State.creditBack s p m) := by
  unfold State.creditBack
  repeat' first
    | with_reducible assumption
    | with_reducible apply Keeps.updLink

theorem Keeps.deliverFwd {s₀ s : State} (hk : Keeps s₀ s) (p : Nat) (m : Msg) (cut : Bool) :
    Keeps s₀ (State.deliverFwd s p m cut) := by
  unfold State.deliverFwd
  repeat' first
    | with_reducible assumption
    | with_reducible apply Keeps.fwdData
    | with_reducible apply Keeps.pushIng
    | with_reducible apply Keeps.freeSlots
    | with_reducible rfl
    | ((conv => arg 2; arg 23); with_reducible apply Keeps.lit)
    | with_reducible apply Keeps.ite
    | (extract_lets +onlyGivenNames x; refine (fun (hx : Keeps s₀ x) => ?_) ?_;
       (on_goal 2 => (unfold x; clear x)); (on_goal 1 => ((try clear_value x); revert x; intro w hw)))

theorem Keeps.headTap {s₀ s : State} (hk : Keeps s₀ s) (p : Nat) (m : Msg) : Keeps s₀ (State.headTap s p m) := by
  unfold State.headTap
  repeat' first
    | with_reducible assumption
    | with_reducible apply Keeps.mirrTap

theorem Keeps.passAnswer {s₀ s : State} (hk : Keeps s₀ s) (p : Nat) (m : Msg) (sub : Nat) :
    Keeps s₀ (State.passAnswer s p m sub) := by
  unfold State.passAnswer
  repeat' first
    | with_reducible assumption
    | with_reducible apply Keeps.selectAt

theorem Keeps.deliverMsg {s₀ s : State} (hk : Keeps s₀ s) (p : Nat) (m : Msg) (began : Option Bool) :
    Keeps s₀ (State.deliverMsg s p m began) := by
  unfold State.deliverMsg
  repeat' first
    | with_reducible assumption
    | (intro a)
    | with_reducible apply Keeps.headTap
    | with_reducible apply Keeps.pushIng
    | with_reducible apply Keeps.creditBack
    | with_reducible apply Keeps.deliverFwd
    | with_reducible apply Keeps.ingress
    | with_reducible apply Keeps.queueReq
    | with_reducible apply Keeps.wake
    | with_reducible apply Keeps.ite

theorem Keeps.takeFlit {s₀ s : State} (hk : Keeps s₀ s) (p : Nat) (f : List Byte) : Keeps s₀ (State.takeFlit s p f) := by
  unfold State.takeFlit
  repeat' first
    | with_reducible assumption
    | (intro a)
    | with_reducible apply Keeps.updLink
    | with_reducible apply Keeps.deliverMsg
    | with_reducible apply Keeps.headTap
    | with_reducible apply Keeps.ite
    | with_reducible apply Keeps.foldl

theorem Keeps.nakFlit {s₀ s : State} (hk : Keeps s₀ s) (p : Nat) : Keeps s₀ (State.nakFlit s p) := by
  unfold State.nakFlit
  repeat' first
    | with_reducible assumption
    | with_reducible apply Keeps.sendNak
    | with_reducible apply Keeps.updLink
    | with_reducible apply Keeps.ite

theorem Keeps.execProtocolFlit {s₀ s : State} (hk : Keeps s₀ s) (p : Nat) (flit : List Byte) :
    ∀ nx, Machine.execProtocolFlit p flit s = .next nx → Keeps s₀ nx := by
  intro nx e
  unfold Machine.execProtocolFlit at e
  refine Keeps.settled ?_ nx e
  repeat' first
    | with_reducible assumption
    | with_reducible apply Keeps.takeAck
    | with_reducible apply Keeps.nakFlit
    | with_reducible apply Keeps.updLink
    | with_reducible apply Keeps.takeFlit
    | with_reducible apply Keeps.sendIdle
    | with_reducible apply Keeps.ite

theorem Keeps.execIdleFlit {s₀ s : State} (hk : Keeps s₀ s) (p : Nat) (flit : List Byte) :
    ∀ nx, Machine.execIdleFlit p flit s = .next nx → Keeps s₀ nx := by
  intro nx e
  unfold Machine.execIdleFlit at e
  refine Keeps.settled ?_ nx e
  repeat' first
    | with_reducible assumption
    | with_reducible apply Keeps.takeAck
    | with_reducible apply Keeps.ite

theorem Keeps.execNak {s₀ s : State} (hk : Keeps s₀ s) (p : Nat) (flit : List Byte) :
    ∀ nx, Machine.execNak p flit s = .next nx → Keeps s₀ nx := by
  intro nx e
  unfold Machine.execNak at e
  refine Keeps.settled ?_ nx e
  repeat' first
    | with_reducible assumption
    | with_reducible apply Keeps.replay
    | with_reducible apply Keeps.takeAck
    | with_reducible apply Keeps.ite

theorem Keeps.execReplayTimeout {s₀ s : State} (hk : Keeps s₀ s) (p : Nat) :
    ∀ nx, Machine.execReplayTimeout p s = .next nx → Keeps s₀ nx := by
  intro nx e
  unfold Machine.execReplayTimeout at e
  refine Keeps.settled ?_ nx e
  repeat' first
    | with_reducible assumption
    | with_reducible apply Keeps.replay
    | with_reducible apply Keeps.ite

theorem Keeps.execNakRepeat {s₀ s : State} (hk : Keeps s₀ s) (p : Nat) :
    ∀ nx, Machine.execNakRepeat p s = .next nx → Keeps s₀ nx := by
  intro nx e
  unfold Machine.execNakRepeat at e
  refine Keeps.settled ?_ nx e
  repeat' first
    | with_reducible assumption
    | with_reducible apply Keeps.sendNak
    | with_reducible apply Keeps.ite

theorem Keeps.execAckDeadline {s₀ s : State} (hk : Keeps s₀ s) (p : Nat) :
    ∀ nx, Machine.execAckDeadline p s = .next nx → Keeps s₀ nx := by
  intro nx e
  unfold Machine.execAckDeadline at e
  refine Keeps.settled ?_ nx e
  repeat' first
    | with_reducible assumption
    | with_reducible apply Keeps.sendIdle
    | with_reducible apply Keeps.ite

theorem Keeps.execCrcFailure {s₀ s : State} (hk : Keeps s₀ s) (p : Nat) :
    ∀ nx, Machine.execCrcFailure p s = .next nx → Keeps s₀ nx := by
  intro nx e
  unfold Machine.execCrcFailure at e
  refine Keeps.settled ?_ nx e
  repeat' first
    | with_reducible assumption
    | with_reducible apply Keeps.bump
    | with_reducible apply Keeps.nakFlit
    | with_reducible apply Keeps.ite

theorem Keeps.sendDisc {s₀ s : State} (hk : Keeps s₀ s) (p : Nat) (rec_ : List Byte) :
    Keeps s₀ (State.sendDisc s p rec_) := by
  unfold State.sendDisc
  repeat' first
    | with_reducible assumption
    | with_reducible apply Keeps.emit
    | with_reducible apply Keeps.updPort

theorem Keeps.sendReject {s₀ s : State} (hk : Keeps s₀ s) (p : Nat) (reason : Nat) :
    Keeps s₀ (State.sendReject s p reason) := by
  unfold State.sendReject
  repeat' first
    | with_reducible assumption
    | with_reducible apply Keeps.sendDisc
    | with_reducible apply Keeps.updPort
    | with_reducible apply Keeps.wr

theorem Keeps.helloCheck {s₀ s : State} (hk : Keeps s₀ s) (p : Nat) (rec_ : List Byte) :
    Keeps s₀ (State.helloCheck s p rec_) := by
  unfold State.helloCheck
  repeat' first
    | with_reducible assumption
    | with_reducible apply Keeps.sendReject
    | with_reducible apply Keeps.event
    | with_reducible apply Keeps.updPort
    | with_reducible apply Keeps.wr
    | with_reducible apply Keeps.sendDisc
    | with_reducible apply Keeps.ite
    | split

theorem Keeps.execHello {s₀ s : State} (hk : Keeps s₀ s) (p : Nat) (rec_ : List Byte) :
    ∀ nx, Machine.execHello p rec_ s = .next nx → Keeps s₀ nx := by
  intro nx e
  unfold Machine.execHello at e
  refine Keeps.settled ?_ nx e
  repeat' first
    | with_reducible assumption
    | with_reducible apply Keeps.countDown
    | with_reducible apply Keeps.park
    | with_reducible apply Keeps.discFollow
    | with_reducible apply Keeps.unbind
    | with_reducible apply Keeps.helloCheck
    | with_reducible apply Keeps.ite

theorem Keeps.bindAgent {s₀ s : State} (hk : Keeps s₀ s) (p : Nat) (id : Nat) (serial : Nat) :
    Keeps s₀ (State.bindAgent s p id serial) := by
  unfold State.bindAgent
  repeat' first
    | with_reducible assumption
    | (intro a)
    | with_reducible apply Keeps.msgAnswer
    | with_reducible apply Keeps.rxDrain
    | with_reducible apply Keeps.engDrop
    | with_reducible apply Keeps.freshSlots
    | with_reducible apply Keeps.updAgent
    | with_reducible apply Keeps.ite
    | with_reducible apply Keeps.foldl

theorem Keeps.bind {s₀ s : State} (hk : Keeps s₀ s) (p : Nat) (id : Nat) (rec_ : List Byte) :
    Keeps s₀ (State.bind s p id rec_) := by
  unfold State.bind
  repeat' first
    | with_reducible assumption
    | (intro a)
    | with_reducible apply Keeps.wr
    | with_reducible apply Keeps.updPort
    | with_reducible apply Keeps.capRefresh
    | with_reducible apply Keeps.bindAgent
    | with_reducible apply Keeps.retryDemotions
    | with_reducible apply Keeps.sendIdle
    | with_reducible apply Keeps.event
    | with_reducible rfl
    | ((conv => arg 2; arg 23); with_reducible apply Keeps.lit)
    | with_reducible apply Keeps.foldl

theorem Keeps.execCredits {s₀ s : State} (hk : Keeps s₀ s) (p : Nat) (rec_ : List Byte) :
    ∀ nx, Machine.execCredits p rec_ s = .next nx → Keeps s₀ nx := by
  intro nx e
  unfold Machine.execCredits at e
  refine Keeps.settled ?_ nx e
  repeat' first
    | with_reducible assumption
    | with_reducible apply Keeps.sendReject
    | with_reducible apply Keeps.bind
    | with_reducible apply Keeps.ite
    | (extract_lets +onlyGivenNames x; clear_value x; revert x; intro w)
    | split

theorem Keeps.execDiscRepeat {s₀ s : State} (hk : Keeps s₀ s) (p : Nat) :
    ∀ nx, Machine.execDiscRepeat p s = .next nx → Keeps s₀ nx := by
  intro nx e
  unfold Machine.execDiscRepeat at e
  refine Keeps.settled ?_ nx e
  repeat' first
    | with_reducible assumption
    | with_reducible apply Keeps.emit
    | with_reducible apply Keeps.ite

theorem Keeps.execDiscoveryLimit {s₀ s : State} (hk : Keeps s₀ s) (p : Nat) :
    ∀ nx, Machine.execDiscoveryLimit p s = .next nx → Keeps s₀ nx := by
  intro nx e
  unfold Machine.execDiscoveryLimit at e
  refine Keeps.settled ?_ nx e
  repeat' first
    | with_reducible assumption
    | with_reducible apply Keeps.downCounted
    | with_reducible apply Keeps.ite

/-! ### Sys2Proof/Machine/RequestRows.lean -/

theorem Keeps.execRd {s₀ s : State} (hk : Keeps s₀ s) (p : Nat) (m : Msg) :
    ∀ nx, Machine.execRd p m s = .next nx → Keeps s₀ nx := by
  intro nx e
  unfold Machine.execRd at e
  refine Keeps.settled ?_ nx e
  repeat' first
    | with_reducible assumption
    | with_reducible apply Keeps.request

theorem Keeps.execRdx {s₀ s : State} (hk : Keeps s₀ s) (p : Nat) (m : Msg) :
    ∀ nx, Machine.execRdx p m s = .next nx → Keeps s₀ nx := by
  intro nx e
  unfold Machine.execRdx at e
  refine Keeps.settled ?_ nx e
  repeat' first
    | with_reducible assumption
    | with_reducible apply Keeps.request

theorem Keeps.execUpg {s₀ s : State} (hk : Keeps s₀ s) (p : Nat) (m : Msg) :
    ∀ nx, Machine.execUpg p m s = .next nx → Keeps s₀ nx := by
  intro nx e
  unfold Machine.execUpg at e
  refine Keeps.settled ?_ nx e
  repeat' first
    | with_reducible assumption
    | with_reducible apply Keeps.request

theorem Keeps.execWb {s₀ s : State} (hk : Keeps s₀ s) (p : Nat) (m : Msg) :
    ∀ nx, Machine.execWb p m s = .next nx → Keeps s₀ nx := by
  intro nx e
  unfold Machine.execWb at e
  refine Keeps.settled ?_ nx e
  repeat' first
    | with_reducible assumption
    | with_reducible apply Keeps.request

theorem Keeps.execWbc {s₀ s : State} (hk : Keeps s₀ s) (p : Nat) (m : Msg) :
    ∀ nx, Machine.execWbc p m s = .next nx → Keeps s₀ nx := by
  intro nx e
  unfold Machine.execWbc at e
  refine Keeps.settled ?_ nx e
  repeat' first
    | with_reducible assumption
    | with_reducible apply Keeps.request

theorem Keeps.execNrd {s₀ s : State} (hk : Keeps s₀ s) (p : Nat) (m : Msg) :
    ∀ nx, Machine.execNrd p m s = .next nx → Keeps s₀ nx := by
  intro nx e
  unfold Machine.execNrd at e
  refine Keeps.settled ?_ nx e
  repeat' first
    | with_reducible assumption
    | with_reducible apply Keeps.request

theorem Keeps.execNwr {s₀ s : State} (hk : Keeps s₀ s) (p : Nat) (m : Msg) :
    ∀ nx, Machine.execNwr p m s = .next nx → Keeps s₀ nx := by
  intro nx e
  unfold Machine.execNwr at e
  refine Keeps.settled ?_ nx e
  repeat' first
    | with_reducible assumption
    | with_reducible apply Keeps.request

theorem Keeps.execLd {s₀ s : State} (hk : Keeps s₀ s) (p : Nat) (m : Msg) :
    ∀ nx, Machine.execLd p m s = .next nx → Keeps s₀ nx := by
  intro nx e
  unfold Machine.execLd at e
  refine Keeps.settled ?_ nx e
  repeat' first
    | with_reducible assumption
    | with_reducible apply Keeps.request

theorem Keeps.execSt {s₀ s : State} (hk : Keeps s₀ s) (p : Nat) (m : Msg) :
    ∀ nx, Machine.execSt p m s = .next nx → Keeps s₀ nx := by
  intro nx e
  unfold Machine.execSt at e
  refine Keeps.settled ?_ nx e
  repeat' first
    | with_reducible assumption
    | with_reducible apply Keeps.request

theorem Keeps.execStRel {s₀ s : State} (hk : Keeps s₀ s) (p : Nat) (m : Msg) :
    ∀ nx, Machine.execStRel p m s = .next nx → Keeps s₀ nx := by
  intro nx e
  unfold Machine.execStRel at e
  refine Keeps.settled ?_ nx e
  repeat' first
    | with_reducible assumption
    | with_reducible apply Keeps.request

theorem Keeps.execAt {s₀ s : State} (hk : Keeps s₀ s) (p : Nat) (m : Msg) :
    ∀ nx, Machine.execAt p m s = .next nx → Keeps s₀ nx := by
  intro nx e
  unfold Machine.execAt at e
  refine Keeps.settled ?_ nx e
  repeat' first
    | with_reducible assumption
    | with_reducible apply Keeps.request

theorem Keeps.execInv {s₀ s : State} (hk : Keeps s₀ s) (p : Nat) (m : Msg) :
    ∀ nx, Machine.execInv p m s = .next nx → Keeps s₀ nx := by
  intro nx e
  unfold Machine.execInv at e
  refine Keeps.settled ?_ nx e
  repeat' first
    | with_reducible assumption
    | with_reducible apply Keeps.request

theorem Keeps.execPub {s₀ s : State} (hk : Keeps s₀ s) (p : Nat) (m : Msg) :
    ∀ nx, Machine.execPub p m s = .next nx → Keeps s₀ nx := by
  intro nx e
  unfold Machine.execPub at e
  refine Keeps.settled ?_ nx e
  repeat' first
    | with_reducible assumption
    | with_reducible apply Keeps.request

theorem Keeps.execSubs {s₀ s : State} (hk : Keeps s₀ s) (p : Nat) (m : Msg) :
    ∀ nx, Machine.execSubs p m s = .next nx → Keeps s₀ nx := by
  intro nx e
  unfold Machine.execSubs at e
  refine Keeps.settled ?_ nx e
  repeat' first
    | with_reducible assumption
    | with_reducible apply Keeps.request

theorem Keeps.execMsg {s₀ s : State} (hk : Keeps s₀ s) (p : Nat) (m : Msg) :
    ∀ nx, Machine.execMsg p m s = .next nx → Keeps s₀ nx := by
  intro nx e
  unfold Machine.execMsg at e
  refine Keeps.settled ?_ nx e
  repeat' first
    | with_reducible assumption
    | with_reducible apply Keeps.request

theorem Keeps.execUndefinedOpcode {s₀ s : State} (hk : Keeps s₀ s) (p : Nat) (m : Msg) :
    ∀ nx, Machine.execUndefinedOpcode p m s = .next nx → Keeps s₀ nx := by
  intro nx e
  unfold Machine.execUndefinedOpcode at e
  refine Keeps.settled ?_ nx e
  repeat' first
    | with_reducible assumption
    | with_reducible apply Keeps.request
    | with_reducible apply Keeps.ite

theorem Keeps.execHack {s₀ s : State} (hk : Keeps s₀ s) (p : Nat) (m : Msg) :
    ∀ nx, Machine.execHack p m s = .next nx → Keeps s₀ nx := by
  intro nx e
  unfold Machine.execHack at e
  refine Keeps.settled ?_ nx e
  repeat' first
    | with_reducible assumption
    | with_reducible apply Keeps.request
    | with_reducible apply Keeps.hackArrive
    | with_reducible apply Keeps.passAnswer
    | with_reducible apply Keeps.ite

theorem Keeps.execData {s₀ s : State} (hk : Keeps s₀ s) (p : Nat) (m : Msg) :
    ∀ nx, Machine.execData p m s = .next nx → Keeps s₀ nx := by
  intro nx e
  unfold Machine.execData at e
  refine Keeps.settled ?_ nx e
  repeat' first
    | with_reducible assumption
    | with_reducible apply Keeps.trayData
    | with_reducible apply Keeps.passAnswer
    | with_reducible apply Keeps.fwdData
    | with_reducible apply Keeps.ite

theorem Keeps.execCmp {s₀ s : State} (hk : Keeps s₀ s) (p : Nat) (m : Msg) :
    ∀ nx, Machine.execCmp p m s = .next nx → Keeps s₀ nx := by
  intro nx e
  unfold Machine.execCmp at e
  refine Keeps.settled ?_ nx e
  repeat' first
    | with_reducible assumption
    | with_reducible apply Keeps.trayCmp
    | with_reducible apply Keeps.passAnswer
    | with_reducible apply Keeps.request
    | with_reducible apply Keeps.ite

theorem Keeps.execLeaseWordStore {s₀ s : State} (hk : Keeps s₀ s) (p : Nat) (m : Msg) :
    ∀ nx, Machine.execLeaseWordStore p m s = .next nx → Keeps s₀ nx := by
  intro nx e
  unfold Machine.execLeaseWordStore at e
  refine Keeps.settled ?_ nx e
  repeat' first
    | with_reducible assumption
    | with_reducible apply Keeps.request

theorem Keeps.execFenceWordStore {s₀ s : State} (hk : Keeps s₀ s) (p : Nat) (m : Msg) :
    ∀ nx, Machine.execFenceWordStore p m s = .next nx → Keeps s₀ nx := by
  intro nx e
  unfold Machine.execFenceWordStore at e
  refine Keeps.settled ?_ nx e
  repeat' first
    | with_reducible assumption
    | with_reducible apply Keeps.request

theorem Keeps.execRxaBaseStore {s₀ s : State} (hk : Keeps s₀ s) (p : Nat) (m : Msg) :
    ∀ nx, Machine.execRxaBaseStore p m s = .next nx → Keeps s₀ nx := by
  intro nx e
  unfold Machine.execRxaBaseStore at e
  refine Keeps.settled ?_ nx e
  repeat' first
    | with_reducible assumption
    | with_reducible apply Keeps.request

theorem Keeps.execRxaTailStore {s₀ s : State} (hk : Keeps s₀ s) (p : Nat) (m : Msg) :
    ∀ nx, Machine.execRxaTailStore p m s = .next nx → Keeps s₀ nx := by
  intro nx e
  unfold Machine.execRxaTailStore at e
  refine Keeps.settled ?_ nx e
  repeat' first
    | with_reducible assumption
    | with_reducible apply Keeps.request

theorem Keeps.execRxaBaseApply {s₀ s : State} (hk : Keeps s₀ s) (id : Nat) :
    ∀ nx, Machine.execRxaBaseApply id s = .next nx → Keeps s₀ nx := by
  intro nx e
  unfold Machine.execRxaBaseApply at e
  refine Keeps.settled ?_ nx e
  repeat' first
    | with_reducible assumption
    | with_reducible apply Keeps.doRxaBaseApply

theorem Keeps.execReceiveAreaPost {s₀ s : State} (hk : Keeps s₀ s) (id : Nat) :
    ∀ nx, Machine.execReceiveAreaPost id s = .next nx → Keeps s₀ nx := by
  intro nx e
  unfold Machine.execReceiveAreaPost at e
  refine Keeps.settled ?_ nx e
  repeat' first
    | with_reducible assumption
    | with_reducible apply Keeps.doReceiveAreaPost

theorem Keeps.execReduce {s₀ s : State} (hk : Keeps s₀ s) (p : Nat) (m : Msg) :
    ∀ nx, Machine.execReduce p m s = .next nx → Keeps s₀ nx := by
  intro nx e
  unfold Machine.execReduce at e
  refine Keeps.settled ?_ nx e
  repeat' first
    | with_reducible assumption
    | with_reducible apply Keeps.request

theorem Keeps.execGather {s₀ s : State} (hk : Keeps s₀ s) (p : Nat) (m : Msg) :
    ∀ nx, Machine.execGather p m s = .next nx → Keeps s₀ nx := by
  intro nx e
  unfold Machine.execGather at e
  refine Keeps.settled ?_ nx e
  repeat' first
    | with_reducible assumption
    | with_reducible apply Keeps.request

theorem Keeps.execFilter {s₀ s : State} (hk : Keeps s₀ s) (p : Nat) (m : Msg) :
    ∀ nx, Machine.execFilter p m s = .next nx → Keeps s₀ nx := by
  intro nx e
  unfold Machine.execFilter at e
  refine Keeps.settled ?_ nx e
  repeat' first
    | with_reducible assumption
    | with_reducible apply Keeps.request

theorem Keeps.execMatmul {s₀ s : State} (hk : Keeps s₀ s) (p : Nat) (m : Msg) :
    ∀ nx, Machine.execMatmul p m s = .next nx → Keeps s₀ nx := by
  intro nx e
  unfold Machine.execMatmul at e
  refine Keeps.settled ?_ nx e
  repeat' first
    | with_reducible assumption
    | with_reducible apply Keeps.request

theorem Keeps.execExpand {s₀ s : State} (hk : Keeps s₀ s) (p : Nat) (m : Msg) :
    ∀ nx, Machine.execExpand p m s = .next nx → Keeps s₀ nx := by
  intro nx e
  unfold Machine.execExpand at e
  refine Keeps.settled ?_ nx e
  repeat' first
    | with_reducible assumption
    | with_reducible apply Keeps.request

theorem Keeps.execCompress {s₀ s : State} (hk : Keeps s₀ s) (p : Nat) (m : Msg) :
    ∀ nx, Machine.execCompress p m s = .next nx → Keeps s₀ nx := by
  intro nx e
  unfold Machine.execCompress at e
  refine Keeps.settled ?_ nx e
  repeat' first
    | with_reducible assumption
    | with_reducible apply Keeps.request

theorem Keeps.execOwnerOf {s₀ s : State} (hk : Keeps s₀ s) (p : Nat) (m : Msg) :
    ∀ nx, Machine.execOwnerOf p m s = .next nx → Keeps s₀ nx := by
  intro nx e
  unfold Machine.execOwnerOf at e
  refine Keeps.settled ?_ nx e
  repeat' first
    | with_reducible assumption
    | with_reducible apply Keeps.request

theorem Keeps.execXferOwner {s₀ s : State} (hk : Keeps s₀ s) (p : Nat) (m : Msg) :
    ∀ nx, Machine.execXferOwner p m s = .next nx → Keeps s₀ nx := by
  intro nx e
  unfold Machine.execXferOwner at e
  refine Keeps.settled ?_ nx e
  repeat' first
    | with_reducible assumption
    | with_reducible apply Keeps.request

theorem Keeps.execFill {s₀ s : State} (hk : Keeps s₀ s) (p : Nat) (m : Msg) :
    ∀ nx, Machine.execFill p m s = .next nx → Keeps s₀ nx := by
  intro nx e
  unfold Machine.execFill at e
  refine Keeps.settled ?_ nx e
  repeat' first
    | with_reducible assumption
    | with_reducible apply Keeps.request

theorem Keeps.execCopy {s₀ s : State} (hk : Keeps s₀ s) (p : Nat) (m : Msg) :
    ∀ nx, Machine.execCopy p m s = .next nx → Keeps s₀ nx := by
  intro nx e
  unfold Machine.execCopy at e
  refine Keeps.settled ?_ nx e
  repeat' first
    | with_reducible assumption
    | with_reducible apply Keeps.request

theorem Keeps.execCompare {s₀ s : State} (hk : Keeps s₀ s) (p : Nat) (m : Msg) :
    ∀ nx, Machine.execCompare p m s = .next nx → Keeps s₀ nx := by
  intro nx e
  unfold Machine.execCompare at e
  refine Keeps.settled ?_ nx e
  repeat' first
    | with_reducible assumption
    | with_reducible apply Keeps.request

theorem Keeps.execMreduce {s₀ s : State} (hk : Keeps s₀ s) (p : Nat) (m : Msg) (res : Nat) :
    ∀ nx, Machine.execMreduce p m res s = .next nx → Keeps s₀ nx := by
  intro nx e
  unfold Machine.execMreduce at e
  refine Keeps.settled ?_ nx e
  repeat' first
    | with_reducible assumption
    | with_reducible apply Keeps.request

theorem Keeps.execAbortWord {s₀ s : State} (hk : Keeps s₀ s) (p : Nat) (m : Msg) :
    ∀ nx, Machine.execAbortWord p m s = .next nx → Keeps s₀ nx := by
  intro nx e
  unfold Machine.execAbortWord at e
  refine Keeps.settled ?_ nx e
  repeat' first
    | with_reducible assumption
    | with_reducible apply Keeps.request

theorem Keeps.execContribution {s₀ s : State} (hk : Keeps s₀ s) (p : Nat) (m : Msg) (res : Nat) :
    ∀ nx, Machine.execContribution p m res s = .next nx → Keeps s₀ nx := by
  intro nx e
  unfold Machine.execContribution at e
  refine Keeps.settled ?_ nx e
  repeat' first
    | with_reducible assumption
    | with_reducible apply Keeps.request

theorem Keeps.execLaunchQueuePlace {s₀ s : State} (hk : Keeps s₀ s) :
    ∀ nx, Machine.execLaunchQueuePlace s = .next nx → Keeps s₀ nx := by
  intro nx e
  unfold Machine.execLaunchQueuePlace at e
  refine Keeps.settled ?_ nx e
  repeat' first
    | with_reducible assumption
    | with_reducible apply Keeps.doLaunchQueuePlace

theorem Keeps.execPartStart {s₀ s : State} (hk : Keeps s₀ s) (d : Nat) (res : Nat) (pm : Nat) :
    ∀ nx, Machine.execPartStart d res pm s = .next nx → Keeps s₀ nx := by
  intro nx e
  unfold Machine.execPartStart at e
  refine Keeps.settled ?_ nx e
  repeat' first
    | with_reducible assumption
    | with_reducible apply Keeps.doPartStart

theorem Keeps.execPartEnd {s₀ s : State} (hk : Keeps s₀ s) (d : Nat) :
    ∀ nx, Machine.execPartEnd d s = .next nx → Keeps s₀ nx := by
  intro nx e
  unfold Machine.execPartEnd at e
  refine Keeps.settled ?_ nx e
  repeat' first
    | with_reducible assumption
    | with_reducible apply Keeps.doPartEnd

theorem Keeps.execCompletionRecord {s₀ s : State} (hk : Keeps s₀ s) (id : Nat) (slot : Nat) :
    ∀ nx, Machine.execCompletionRecord id slot s = .next nx → Keeps s₀ nx := by
  intro nx e
  unfold Machine.execCompletionRecord at e
  refine Keeps.settled ?_ nx e
  repeat' first
    | with_reducible assumption
    | with_reducible apply Keeps.doCompletionRecord

theorem Keeps.execOperationTimeout {s₀ s : State} (hk : Keeps s₀ s) (id : Nat) (slot : Nat) :
    ∀ nx, Machine.execOperationTimeout id slot s = .next nx → Keeps s₀ nx := by
  intro nx e
  unfold Machine.execOperationTimeout at e
  refine Keeps.settled ?_ nx e
  repeat' first
    | with_reducible assumption
    | with_reducible apply Keeps.doOperationTimeout

theorem Keeps.execAccumulatorGrant {s₀ s : State} (hk : Keeps s₀ s) (tag : Nat) (chunk : Nat) :
    ∀ nx, Machine.execAccumulatorGrant tag chunk s = .next nx → Keeps s₀ nx := by
  intro nx e
  unfold Machine.execAccumulatorGrant at e
  refine Keeps.settled ?_ nx e
  repeat' first
    | with_reducible assumption
    | with_reducible apply Keeps.doAccumulatorGrant

theorem Keeps.execChunkEmitted {s₀ s : State} (hk : Keeps s₀ s) (tag : Nat) (chunk : Nat) :
    ∀ nx, Machine.execChunkEmitted tag chunk s = .next nx → Keeps s₀ nx := by
  intro nx e
  unfold Machine.execChunkEmitted at e
  refine Keeps.settled ?_ nx e
  repeat' first
    | with_reducible assumption
    | with_reducible apply Keeps.doChunkEmitted

/-! ### Sys2Proof/Machine/FrontierRows.lean -/

theorem Keeps.execLoadTimeout {s₀ s : State} (hk : Keeps s₀ s) (p : Nat) (seq : Nat) :
    ∀ nx, Machine.execLoadTimeout p seq s = .next nx → Keeps s₀ nx := by
  intro nx e
  unfold Machine.execLoadTimeout at e
  refine Keeps.settled ?_ nx e
  repeat' first
    | with_reducible assumption
    | with_reducible apply Keeps.updSource
    | with_reducible apply Keeps.sendLocal
    | with_reducible apply Keeps.bump
    | (extract_lets +onlyGivenNames x; refine (fun (hx : Keeps s₀ x) => ?_) ?_;
       (on_goal 2 => (unfold x; clear x)); (on_goal 1 => ((try clear_value x); revert x; intro w hw)))
    | split

theorem Keeps.discard {s₀ s : State} (hk : Keeps s₀ s) (p : Nat) (seq : Nat) : Keeps s₀ (State.discard s p seq) := by
  unfold State.discard
  repeat' first
    | with_reducible assumption
    | with_reducible apply Keeps.dropHeld
    | with_reducible apply Keeps.dropUplink
    | with_reducible apply Keeps.rxRelease
    | with_reducible rfl
    | ((conv => arg 2; arg 23); with_reducible apply Keeps.lit)
    | (extract_lets +onlyGivenNames x; refine (fun (hx : Keeps s₀ x) => ?_) ?_;
       (on_goal 2 => (unfold x; clear x)); (on_goal 1 => ((try clear_value x); revert x; intro w hw)))
    | (extract_lets +onlyGivenNames x; clear_value x; revert x; intro w)
    | split

theorem Keeps.execCancel {s₀ s : State} (hk : Keeps s₀ s) (p : Nat) (seq : Nat) :
    ∀ nx, Machine.execCancel p seq s = .next nx → Keeps s₀ nx := by
  intro nx e
  unfold Machine.execCancel at e
  refine Keeps.settled ?_ nx e
  repeat' first
    | with_reducible assumption
    | with_reducible apply Keeps.updSource
    | with_reducible apply Keeps.bump
    | with_reducible apply Keeps.discard
    | with_reducible apply Keeps.ite

theorem Keeps.execCancelConfirm {s₀ s : State} (hk : Keeps s₀ s) (p : Nat) (seq : Nat) :
    ∀ nx, Machine.execCancelConfirm p seq s = .next nx → Keeps s₀ nx := by
  intro nx e
  unfold Machine.execCancelConfirm at e
  refine Keeps.settled ?_ nx e
  repeat' first
    | with_reducible assumption
    | with_reducible apply Keeps.settleSeq
    | with_reducible apply Keeps.updSource
    | with_reducible apply Keeps.ite

theorem Keeps.execSeqGapClose {s₀ s : State} (hk : Keeps s₀ s) (p : Nat) :
    ∀ nx, Machine.execSeqGapClose p s = .next nx → Keeps s₀ nx := by
  intro nx e
  unfold Machine.execSeqGapClose at e
  refine Keeps.settled ?_ nx e
  repeat' first
    | with_reducible assumption
    | (intro a)
    | with_reducible apply Keeps.settleSeq
    | with_reducible apply Keeps.event
    | with_reducible apply Keeps.bump
    | with_reducible apply Keeps.foldl
    | split

theorem Keeps.execPerformedReport {s₀ s : State} (hk : Keeps s₀ s) (p : Nat) (seq : Nat) :
    ∀ nx, Machine.execPerformedReport p seq s = .next nx → Keeps s₀ nx := by
  intro nx e
  unfold Machine.execPerformedReport at e
  refine Keeps.settled ?_ nx e
  repeat' first
    | with_reducible assumption
    | with_reducible apply Keeps.settleSeq
    | with_reducible apply Keeps.updSource
    | with_reducible apply Keeps.ite

theorem Keeps.execFrontierUpdate {s₀ s : State} (hk : Keeps s₀ s) (k : Nat) (p : Nat) :
    ∀ nx, Machine.execFrontierUpdate k p s = .next nx → Keeps s₀ nx := by
  intro nx e
  unfold Machine.execFrontierUpdate at e
  refine Keeps.settled ?_ nx e
  repeat' first
    | with_reducible assumption
    | with_reducible rfl
    | ((conv => arg 2; arg 23); with_reducible apply Keeps.lit)
    | with_reducible apply Keeps.ite

theorem Keeps.execTrayTmo {s₀ s : State} (hk : Keeps s₀ s) (p : Nat) (seq : Nat) :
    ∀ nx, Machine.execTrayTmo p seq s = .next nx → Keeps s₀ nx := by
  intro nx e
  unfold Machine.execTrayTmo at e
  refine Keeps.settled ?_ nx e
  repeat' first
    | with_reducible assumption
    | with_reducible apply Keeps.raise
    | with_reducible apply Keeps.trayLost
    | with_reducible apply Keeps.ite
    | split

theorem Keeps.writeBack {s₀ s : State} (hk : Keeps s₀ s) (line : Nat) : Keeps s₀ (State.writeBack s line) := by
  unfold State.writeBack
  repeat' first
    | with_reducible assumption
    | with_reducible apply Keeps.traySend
    | with_reducible rfl
    | ((conv => arg 2; arg 23); with_reducible apply Keeps.lit)
    | with_reducible apply Keeps.ite
    | (extract_lets +onlyGivenNames x; clear_value x; revert x; intro w)
    | split

theorem Keeps.execTrayWriteBack {s₀ s : State} (hk : Keeps s₀ s) (line : Nat) :
    ∀ nx, Machine.execTrayWriteBack line s = .next nx → Keeps s₀ nx := by
  intro nx e
  unfold Machine.execTrayWriteBack at e
  refine Keeps.settled ?_ nx e
  repeat' first
    | with_reducible assumption
    | with_reducible apply Keeps.writeBack
    | with_reducible apply Keeps.owedIn
    | with_reducible apply Keeps.ite

/-! ### Sys2Proof/Machine/SwitchRows.lean -/

theorem Keeps.storeBack {s₀ s : State} (hk : Keeps s₀ s) (l : Nat) (m : Msg) : Keeps s₀ (State.storeBack s l m) := by
  unfold State.storeBack
  repeat' first
    | with_reducible assumption
    | with_reducible apply Keeps.storeLine

theorem Keeps.fwdReturn {s₀ s : State} (hk : Keeps s₀ s) (line : Option Nat) (m : Msg) :
    Keeps s₀ (State.fwdReturn s line m) := by
  unfold State.fwdReturn
  repeat' first
    | with_reducible assumption
    | with_reducible apply Keeps.bump
    | with_reducible apply Keeps.storeBack
    | with_reducible apply Keeps.setDir
    | with_reducible apply Keeps.ite
    | (extract_lets +onlyGivenNames x; refine (fun (hx : Keeps s₀ x) => ?_) ?_;
       (on_goal 2 => (unfold x; clear x)); (on_goal 1 => ((try clear_value x); revert x; intro w hw)))
    | (extract_lets +onlyGivenNames x; clear_value x; revert x; intro w)
    | split

theorem Keeps.respArrive {s₀ s : State} (hk : Keeps s₀ s) (c : Cross) : Keeps s₀ (State.respArrive s c) := by
  unfold State.respArrive
  repeat' first
    | with_reducible assumption
    | with_reducible apply Keeps.updSource
    | with_reducible apply Keeps.bump
    | with_reducible apply Keeps.fwdReturn
    | with_reducible apply Keeps.toEgress
    | with_reducible apply Keeps.ite
    | (extract_lets +onlyGivenNames x; refine (fun (hx : Keeps s₀ x) => ?_) ?_;
       (on_goal 2 => (unfold x; clear x)); (on_goal 1 => ((try clear_value x); revert x; intro w hw)))
    | (extract_lets +onlyGivenNames x; clear_value x; revert x; intro w)
    | split

theorem Keeps.crossArrive {s₀ s : State} (hk : Keeps s₀ s) (c : Cross) : Keeps s₀ (State.crossArrive s c) := by
  unfold State.crossArrive
  repeat' first
    | with_reducible assumption
    | with_reducible apply Keeps.bump
    | with_reducible apply Keeps.toEgress
    | with_reducible apply Keeps.moveUplink
    | with_reducible apply Keeps.msgEnd
    | with_reducible apply Keeps.mcastDone
    | with_reducible apply Keeps.respArrive
    | with_reducible rfl
    | ((conv => arg 2; arg 23); with_reducible apply Keeps.lit)
    | with_reducible apply Keeps.ite
    | (extract_lets +onlyGivenNames x; clear_value x; revert x; intro w)
    | split

theorem Keeps.release {s₀ s : State} (hk : Keeps s₀ s) (o : Nat) (d : Nat) (a : Nat) : Keeps s₀ (State.release s o d a) := by
  induction a generalizing s o d with
  | zero =>
    unfold State.release
    repeat' first
      | with_reducible assumption
  | succ n ih =>
    unfold State.release
    repeat' first
      | with_reducible assumption
      | with_reducible apply ih
      | (intro a)
      | with_reducible apply Keeps.egrGive
      | with_reducible apply Keeps.crossArrive
      | with_reducible rfl
      | ((conv => arg 2; arg 23); with_reducible apply Keeps.lit)
      | with_reducible apply Keeps.foldl
      | (extract_lets +onlyGivenNames x; refine (fun (hx : Keeps s₀ x) => ?_) ?_;
         (on_goal 2 => (unfold x; clear x)); (on_goal 1 => ((try clear_value x); revert x; intro w hw)))
      | (extract_lets +onlyGivenNames x; clear_value x; revert x; intro w)
      | split

theorem Keeps.execXsnArrival {s₀ s : State} (hk : Keeps s₀ s) (o : Nat) (d : Nat) (x : Nat) :
    ∀ nx, Machine.execXsnArrival o d x s = .next nx → Keeps s₀ nx := by
  intro nx e
  unfold Machine.execXsnArrival at e
  refine Keeps.settled ?_ nx e
  repeat' first
    | with_reducible assumption
    | with_reducible apply Keeps.bump
    | with_reducible apply Keeps.egrTake
    | with_reducible apply Keeps.release
    | with_reducible rfl
    | ((conv => arg 2; arg 23); with_reducible apply Keeps.lit)
    | with_reducible apply Keeps.ite

theorem Keeps.execReorderGapTimeout {s₀ s : State} (hk : Keeps s₀ s) (o : Nat) (d : Nat) :
    ∀ nx, Machine.execReorderGapTimeout o d s = .next nx → Keeps s₀ nx := by
  intro nx e
  unfold Machine.execReorderGapTimeout at e
  refine Keeps.settled ?_ nx e
  repeat' first
    | with_reducible assumption
    | with_reducible apply Keeps.planeFail
    | with_reducible apply Keeps.ite
    | split

theorem Keeps.execAcknowledge {s₀ s : State} (hk : Keeps s₀ s) (n : Nat) :
    ∀ nx, Machine.execAcknowledge n s = .next nx → Keeps s₀ nx := by
  intro nx e
  unfold Machine.execAcknowledge at e
  refine Keeps.settled ?_ nx e
  repeat' first
    | with_reducible assumption
    | with_reducible apply Keeps.sendCredits
    | with_reducible apply Keeps.freeSlots
    | with_reducible rfl
    | ((conv => arg 2; arg 23); with_reducible apply Keeps.lit)
    | (extract_lets +onlyGivenNames x; refine (fun (hx : Keeps s₀ x) => ?_) ?_;
       (on_goal 2 => (unfold x; clear x)); (on_goal 1 => ((try clear_value x); revert x; intro w hw)))
    | (extract_lets +onlyGivenNames x; clear_value x; revert x; intro w)
    | split

theorem Keeps.execLineEntryClose {s₀ s : State} (hk : Keeps s₀ s) (line : Nat) :
    ∀ nx, Machine.execLineEntryClose line s = .next nx → Keeps s₀ nx := by
  intro nx e
  unfold Machine.execLineEntryClose at e
  refine Keeps.settled ?_ nx e
  exact Keeps.lit hk rfl rfl

theorem Keeps.execAtomicGroupApply {s₀ s : State} (hk : Keeps s₀ s) (addr : Nat) :
    ∀ nx, Machine.execAtomicGroupApply addr s = .next nx → Keeps s₀ nx := by
  intro nx e
  unfold Machine.execAtomicGroupApply at e
  refine Keeps.settled ?_ nx e
  repeat' first
    | with_reducible assumption
    | with_reducible apply Keeps.applyGroup
    | split

theorem Keeps.execMergeWindowClose {s₀ s : State} (hk : Keeps s₀ s) (line : Nat) :
    ∀ nx, Machine.execMergeWindowClose line s = .next nx → Keeps s₀ nx := by
  intro nx e
  unfold Machine.execMergeWindowClose at e
  refine Keeps.settled ?_ nx e
  repeat' first
    | with_reducible assumption
    | with_reducible apply Keeps.applyRun
    | with_reducible rfl
    | ((conv => arg 2; arg 23); with_reducible apply Keeps.lit)
    | (extract_lets +onlyGivenNames x; clear_value x; revert x; intro w)
    | split

theorem Keeps.execPlaneFault {s₀ s : State} (hk : Keeps s₀ s) (n : Nat) :
    ∀ nx, Machine.execPlaneFault n s = .next nx → Keeps s₀ nx := by
  intro nx e
  unfold Machine.execPlaneFault at e
  refine Keeps.settled ?_ nx e
  repeat' first
    | with_reducible assumption
    | with_reducible apply Keeps.planeFail

theorem Keeps.execSpareInService {s₀ s : State} (hk : Keeps s₀ s) :
    ∀ nx, Machine.execSpareInService s = .next nx → Keeps s₀ nx := by
  intro nx e
  unfold Machine.execSpareInService at e
  refine Keeps.settled ?_ nx e
  repeat' first
    | with_reducible assumption
    | with_reducible apply Keeps.spareIn

theorem Keeps.execPlaneReduce {s₀ s : State} (hk : Keeps s₀ s) :
    ∀ nx, Machine.execPlaneReduce s = .next nx → Keeps s₀ nx := by
  intro nx e
  unfold Machine.execPlaneReduce at e
  refine Keeps.settled ?_ nx e
  repeat' first
    | with_reducible assumption
    | with_reducible apply Keeps.planeReduce

theorem Keeps.execMirrorRecordPerformed {s₀ s : State} (hk : Keeps s₀ s) :
    ∀ nx, Machine.execMirrorRecordPerformed s = .next nx → Keeps s₀ nx := by
  intro nx e
  unfold Machine.execMirrorRecordPerformed at e
  refine Keeps.settled ?_ nx e
  repeat' first
    | with_reducible assumption
    | with_reducible apply Keeps.engSend
    | with_reducible rfl
    | ((conv => arg 2; arg 23); with_reducible apply Keeps.lit)
    | with_reducible apply Keeps.ite
    | (extract_lets +onlyGivenNames x; clear_value x; revert x; intro w)
    | split

theorem Keeps.mirrCtl {s₀ s : State} (hk : Keeps s₀ s) (v : Nat) : Keeps s₀ (State.mirrCtl s v) := by
  unfold State.mirrCtl
  repeat' first
    | with_reducible assumption
    | with_reducible apply Keeps.wr
    | with_reducible apply Keeps.raiseBits
    | with_reducible apply Keeps.ite

theorem Keeps.execMirrCtl {s₀ s : State} (hk : Keeps s₀ s) (v : Nat) :
    ∀ nx, Machine.execMirrCtl v s = .next nx → Keeps s₀ nx := by
  intro nx e
  unfold Machine.execMirrCtl at e
  refine Keeps.hostRow hk _ _ ?_ nx e
  repeat' first
    | with_reducible assumption
    | (intro a)
    | with_reducible apply Keeps.mirrCtl

theorem Keeps.mirrExtentGone {s₀ s : State} (hk : Keeps s₀ s) : Keeps s₀ (State.mirrExtentGone s) := by
  unfold State.mirrExtentGone
  repeat' first
    | with_reducible assumption
    | with_reducible apply Keeps.raiseBits
    | with_reducible apply Keeps.wr
    | with_reducible apply Keeps.ite

/-! ### Sys2Proof/Machine/Traffic.lean -/

theorem Keeps.launchTold {s₀ s : State} (hk : Keeps s₀ s) (p : Nat) (m : Msg) : Keeps s₀ (State.launchTold s p m) := by
  unfold State.launchTold
  repeat' first
    | with_reducible assumption
    | with_reducible rfl
    | ((conv => arg 2; arg 23); with_reducible apply Keeps.lit)
    | with_reducible apply Keeps.ite
    | (extract_lets +onlyGivenNames x; clear_value x; revert x; intro w)

theorem Keeps.leavePort {s₀ s : State} (hk : Keeps s₀ s) (p : Nat) (x : QMsg) : Keeps s₀ (State.leavePort s p x) := by
  unfold State.leavePort
  repeat' first
    | with_reducible assumption
    | with_reducible apply Keeps.fromEgress
    | with_reducible apply Keeps.mirrTap
    | with_reducible apply Keeps.msgEnd
    | with_reducible apply Keeps.emit
    | with_reducible apply Keeps.transmit
    | with_reducible apply Keeps.launchTold
    | with_reducible apply Keeps.ite

theorem Keeps.markTaken {s₀ s : State} (hk : Keeps s₀ s) (x : IngMsg) : Keeps s₀ (State.markTaken s x) := by
  unfold State.markTaken
  repeat' first
    | with_reducible assumption
    | with_reducible rfl
    | ((conv => arg 2; arg 23); with_reducible apply Keeps.lit)
    | (extract_lets +onlyGivenNames x; clear_value x; revert x; intro w)

theorem Keeps.takeIng {s₀ s : State} (hk : Keeps s₀ s) (x : IngMsg) : Keeps s₀ (State.takeIng s x) := by
  unfold State.takeIng
  repeat' first
    | with_reducible assumption
    | with_reducible apply Keeps.markTaken
    | with_reducible apply Keeps.homeArrive
    | with_reducible apply Keeps.trayData
    | with_reducible apply Keeps.trayCmp
    | with_reducible apply Keeps.hackArrive
    | with_reducible apply Keeps.ite

theorem Keeps.mergedArrive {s₀ s : State} (hk : Keeps s₀ s) (rs : List Req) : Keeps s₀ (State.mergedArrive s rs) := by
  unfold State.mergedArrive
  repeat' first
    | with_reducible assumption
    | with_reducible apply Keeps.homeArrive
    | with_reducible apply Keeps.poolAccess
    | with_reducible apply Keeps.bump
    | with_reducible rfl
    | ((conv => arg 2; arg 23); with_reducible apply Keeps.lit)
    | (extract_lets +onlyGivenNames x; clear_value x; revert x; intro w)
    | split

theorem Keeps.takeGroup {s₀ s : State} (hk : Keeps s₀ s) (xs : List IngMsg) : Keeps s₀ (State.takeGroup s xs) := by
  unfold State.takeGroup
  repeat' first
    | with_reducible assumption
    | (intro a)
    | with_reducible apply Keeps.mergedArrive
    | with_reducible apply Keeps.markTaken
    | with_reducible apply Keeps.takeIng
    | with_reducible apply Keeps.foldl

theorem Keeps.serve {s₀ s : State} (hk : Keeps s₀ s) (q : Nat) (x : Cand) : Keeps s₀ (State.serve s q x) := by
  unfold State.serve
  repeat' first
    | with_reducible assumption
    | with_reducible apply Keeps.leavePort
    | with_reducible apply Keeps.takeIng
    | with_reducible apply Keeps.takeGroup
    | with_reducible apply Keeps.homeArrive
    | with_reducible rfl
    | ((conv => arg 2; arg 23); with_reducible apply Keeps.lit)
    | with_reducible apply Keeps.ite
    | (extract_lets +onlyGivenNames x; clear_value x; revert x; intro w)
    | (extract_lets +onlyGivenNames x; revert x; intro w)
    | split

theorem Keeps.execSelect {s₀ s : State} (hk : Keeps s₀ s) (q : Nat) :
    ∀ nx, Machine.execSelect q s = .next nx → Keeps s₀ nx := by
  intro nx e
  unfold Machine.execSelect at e
  refine Keeps.settled ?_ nx e
  repeat' first
    | with_reducible assumption
    | with_reducible apply Keeps.selectAt
    | with_reducible apply Keeps.serve
    | with_reducible apply Keeps.ite
    | (extract_lets +onlyGivenNames x; refine (fun (hx : Keeps s₀ x.2) => ?_) ?_;
       (on_goal 2 => (unfold x; clear x)); (on_goal 1 => ((try clear_value x); revert x; intro w hw)))
    | split

theorem Keeps.tmApplyAll {s₀ s : State} (hk : Keeps s₀ s) : Keeps s₀ (State.tmApplyAll s) := by
  unfold State.tmApplyAll
  repeat' first
    | with_reducible assumption
    | with_reducible apply Keeps.raiseBits
    | with_reducible rfl
    | ((conv => arg 2; arg 23); with_reducible apply Keeps.lit)
    | with_reducible apply Keeps.ite
    | (extract_lets +onlyGivenNames x; refine (fun (hx : Keeps s₀ x) => ?_) ?_;
       (on_goal 2 => (unfold x; clear x)); (on_goal 1 => ((try clear_value x); revert x; intro w hw)))
    | (extract_lets +onlyGivenNames x; clear_value x; revert x; intro w)

theorem Keeps.tmApplyNow {s₀ s : State} (hk : Keeps s₀ s) : Keeps s₀ (State.tmApplyNow s) := by
  unfold State.tmApplyNow
  repeat' first
    | with_reducible assumption
    | with_reducible apply Keeps.cmdDone
    | with_reducible apply Keeps.tmApplyAll
    | with_reducible apply Keeps.wr
    | with_reducible apply Keeps.ite

theorem Keeps.execTmApply {s₀ s : State} (hk : Keeps s₀ s) : ∀ nx, Machine.execTmApply s = .next nx → Keeps s₀ nx := by
  intro nx e
  unfold Machine.execTmApply at e
  refine Keeps.hostRow hk _ _ ?_ nx e
  repeat' first
    | with_reducible assumption
    | (intro a)
    | with_reducible apply Keeps.wr

theorem Keeps.rescale {s₀ s : State} (hk : Keeps s₀ s) : Keeps s₀ (State.rescale s) := by
  unfold State.rescale
  repeat' first
    | with_reducible assumption
    | (intro a)
    | with_reducible apply Keeps.wr
    | with_reducible apply Keeps.event
    | with_reducible apply Keeps.raiseBits
    | with_reducible apply Keeps.ite
    | with_reducible apply Keeps.foldl

theorem Keeps.refillTok {s₀ s : State} (hk : Keeps s₀ s) (n : Nat) (k : Nat) (refill : Nat) (scale : Nat) :
    Keeps s₀ (State.refillTok s n k refill scale) := by
  unfold State.refillTok
  repeat' first
    | with_reducible assumption
    | with_reducible apply Keeps.setBucket
    | with_reducible apply Keeps.ite

theorem Keeps.refill {s₀ s : State} (hk : Keeps s₀ s) (n : Nat) : Keeps s₀ (State.refill s n) := by
  unfold State.refill
  repeat' first
    | with_reducible assumption
    | (intro a)
    | with_reducible apply Keeps.refillTok
    | with_reducible apply Keeps.ite
    | with_reducible apply Keeps.foldl

theorem Keeps.tmBoundary {s₀ s : State} (hk : Keeps s₀ s) : Keeps s₀ (State.tmBoundary s) := by
  unfold State.tmBoundary
  repeat' first
    | with_reducible assumption
    | with_reducible apply Keeps.refill
    | with_reducible apply Keeps.rescale
    | with_reducible apply Keeps.tmApplyNow

theorem Keeps.tmSample {s₀ s : State} (hk : Keeps s₀ s) : Keeps s₀ (State.tmSample s) := by
  unfold State.tmSample
  repeat' first
    | with_reducible assumption
    | (intro a)
    | with_reducible apply Keeps.wr
    | with_reducible apply Keeps.foldl

/-! ### Sys2Proof/Machine/PortRows.lean -/

theorem Keeps.prstEnd {s₀ s : State} (hk : Keeps s₀ s) (st : Nat) : Keeps s₀ (State.prstEnd s st) := by
  unfold State.prstEnd
  repeat' first
    | with_reducible assumption
    | with_reducible apply Keeps.cmdDone
    | with_reducible apply Keeps.wr

theorem Keeps.setHeld {s₀ s : State} (hk : Keeps s₀ s) (n : Nat) (b : Bool) : Keeps s₀ (State.setHeld s n b) := by
  unfold State.setHeld
  repeat' first
    | with_reducible assumption
    | with_reducible apply Keeps.wr

theorem Keeps.prstFlushed {s₀ s : State} (hk : Keeps s₀ s) : Keeps s₀ (State.prstFlushed s) := by
  unfold State.prstFlushed
  repeat' first
    | with_reducible assumption
    | with_reducible apply Keeps.prstEnd
    | with_reducible apply Keeps.setHeld
    | with_reducible apply Keeps.ite

theorem Keeps.linkUp {s₀ s : State} (hk : Keeps s₀ s) (p : Nat) : Keeps s₀ (State.linkUp s p) := by
  unfold State.linkUp
  repeat' first
    | with_reducible assumption
    | with_reducible apply Keeps.showLanes
    | with_reducible apply Keeps.setLstate

theorem Keeps.narrowCheck {s₀ s : State} (hk : Keeps s₀ s) : Keeps s₀ (State.narrowCheck s) := by
  unfold State.narrowCheck
  repeat' first
    | with_reducible assumption
    | with_reducible apply Keeps.setDegraded
    | with_reducible apply Keeps.ite

theorem Keeps.execLinkLoss {s₀ s : State} (hk : Keeps s₀ s) (p : Nat) :
    ∀ nx, Machine.execLinkLoss p s = .next nx → Keeps s₀ nx := by
  intro nx e
  unfold Machine.execLinkLoss at e
  refine Keeps.settled ?_ nx e
  repeat' first
    | with_reducible assumption
    | with_reducible apply Keeps.updPort
    | with_reducible apply Keeps.downCounted
    | with_reducible apply Keeps.setLstate
    | with_reducible apply Keeps.ite

theorem Keeps.execFlushComplete {s₀ s : State} (hk : Keeps s₀ s) (p : Nat) :
    ∀ nx, Machine.execFlushComplete p s = .next nx → Keeps s₀ nx := by
  intro nx e
  unfold Machine.execFlushComplete at e
  refine Keeps.settled ?_ nx e
  repeat' first
    | with_reducible assumption
    | with_reducible apply Keeps.prstFlushed
    | with_reducible apply Keeps.updPort
    | with_reducible apply Keeps.ite

theorem Keeps.rebind {s₀ s : State} (hk : Keeps s₀ s) (p : Nat) : Keeps s₀ (State.rebind s p) := by
  unfold State.rebind
  repeat' first
    | with_reducible assumption
    | with_reducible apply Keeps.downQuiet
    | with_reducible apply Keeps.startTrain
    | with_reducible apply Keeps.discFollow
    | with_reducible apply Keeps.unbind
    | with_reducible apply Keeps.ite

theorem Keeps.execRebind {s₀ s : State} (hk : Keeps s₀ s) (p : Nat) :
    ∀ nx, Machine.execRebind p s = .next nx → Keeps s₀ nx := by
  intro nx e
  unfold Machine.execRebind at e
  refine Keeps.hostRow hk _ _ ?_ nx e
  repeat' first
    | with_reducible assumption
    | (intro a)
    | with_reducible apply Keeps.rebind

theorem Keeps.portEnable {s₀ s : State} (hk : Keeps s₀ s) (p : Nat) (en : Bool) : Keeps s₀ (State.portEnable s p en) := by
  unfold State.portEnable
  repeat' first
    | with_reducible assumption
    | with_reducible apply Keeps.wr
    | with_reducible apply Keeps.downQuiet
    | with_reducible apply Keeps.setLstate
    | with_reducible apply Keeps.ite

theorem Keeps.execPrtCtlEn {s₀ s : State} (hk : Keeps s₀ s) (p : Nat) (en : Bool) :
    ∀ nx, Machine.execPrtCtlEn p en s = .next nx → Keeps s₀ nx := by
  intro nx e
  unfold Machine.execPrtCtlEn at e
  refine Keeps.hostRow hk _ _ ?_ nx e
  repeat' first
    | with_reducible assumption
    | (intro a)
    | with_reducible apply Keeps.portEnable
    | with_reducible apply Keeps.ite

theorem Keeps.execSignalDetect {s₀ s : State} (hk : Keeps s₀ s) (p : Nat) :
    ∀ nx, Machine.execSignalDetect p s = .next nx → Keeps s₀ nx := by
  intro nx e
  unfold Machine.execSignalDetect at e
  refine Keeps.settled ?_ nx e
  repeat' first
    | with_reducible assumption
    | with_reducible apply Keeps.updPort
    | with_reducible apply Keeps.setLstate
    | with_reducible apply Keeps.ite

theorem Keeps.execTrainingComplete {s₀ s : State} (hk : Keeps s₀ s) (p : Nat) :
    ∀ nx, Machine.execTrainingComplete p s = .next nx → Keeps s₀ nx := by
  intro nx e
  unfold Machine.execTrainingComplete at e
  refine Keeps.settled ?_ nx e
  repeat' first
    | with_reducible assumption
    | with_reducible apply Keeps.updPort
    | with_reducible apply Keeps.retryDemotions
    | with_reducible apply Keeps.discFollow
    | with_reducible apply Keeps.linkUp
    | with_reducible apply Keeps.ite

theorem Keeps.execLaneLoss {s₀ s : State} (hk : Keeps s₀ s) (p : Nat) (lane : Nat) :
    ∀ nx, Machine.execLaneLoss p lane s = .next nx → Keeps s₀ nx := by
  intro nx e
  unfold Machine.execLaneLoss at e
  refine Keeps.settled ?_ nx e
  repeat' first
    | with_reducible assumption
    | with_reducible apply Keeps.enterRetrain
    | with_reducible apply Keeps.ite

theorem Keeps.fecCount {s₀ s : State} (hk : Keeps s₀ s) (p : Nat) : Keeps s₀ (State.fecCount s p) := by
  unfold State.fecCount
  repeat' first
    | with_reducible assumption
    | (intro a)
    | with_reducible apply Keeps.bumpFree
    | with_reducible apply Keeps.foldl

theorem Keeps.execFecLimit {s₀ s : State} (hk : Keeps s₀ s) (p : Nat) :
    ∀ nx, Machine.execFecLimit p s = .next nx → Keeps s₀ nx := by
  intro nx e
  unfold Machine.execFecLimit at e
  refine Keeps.settled ?_ nx e
  repeat' first
    | with_reducible assumption
    | with_reducible apply Keeps.enterRetrain
    | with_reducible apply Keeps.fecCount
    | with_reducible apply Keeps.ite

theorem Keeps.hostRetrain {s₀ s : State} (hk : Keeps s₀ s) (p : Nat) : Keeps s₀ (State.hostRetrain s p) := by
  unfold State.hostRetrain
  repeat' first
    | with_reducible assumption
    | with_reducible apply Keeps.enterRetrain
    | with_reducible apply Keeps.ite

theorem Keeps.execRetrain {s₀ s : State} (hk : Keeps s₀ s) (p : Nat) :
    ∀ nx, Machine.execRetrain p s = .next nx → Keeps s₀ nx := by
  intro nx e
  unfold Machine.execRetrain at e
  refine Keeps.hostRow hk _ _ ?_ nx e
  repeat' first
    | with_reducible assumption
    | (intro a)
    | with_reducible apply Keeps.hostRetrain

theorem Keeps.laneReport {s₀ s : State} (hk : Keeps s₀ s) (p : Nat) (n : Nat) : Keeps s₀ (State.laneReport s p n) := by
  unfold State.laneReport
  repeat' first
    | with_reducible assumption
    | with_reducible apply Keeps.raise
    | with_reducible apply Keeps.laneFail

theorem Keeps.execRetrainAttemptEnd {s₀ s : State} (hk : Keeps s₀ s) (p : Nat) (ok : Bool) (bad : List Nat) :
    ∀ nx, Machine.execRetrainAttemptEnd p ok bad s = .next nx → Keeps s₀ nx := by
  intro nx e
  unfold Machine.execRetrainAttemptEnd at e
  refine Keeps.settled ?_ nx e
  repeat' first
    | with_reducible assumption
    | (intro a)
    | with_reducible apply Keeps.retrained
    | with_reducible apply Keeps.updPort
    | with_reducible apply Keeps.downCounted
    | with_reducible apply Keeps.laneReport
    | with_reducible apply Keeps.ite
    | with_reducible apply Keeps.foldl

theorem Keeps.repairLane {s₀ s : State} (hk : Keeps s₀ s) (p : Nat) (n : Nat) (mode : Nat) :
    Keeps s₀ (State.repairLane s p n mode) := by
  unfold State.repairLane
  repeat' first
    | with_reducible assumption
    | with_reducible apply Keeps.wr
    | with_reducible apply Keeps.updPort

theorem Keeps.tryRepair {s₀ s : State} (hk : Keeps s₀ s) (p : Nat) (n : Nat) (pass : Bool) :
    Keeps s₀ (State.tryRepair s p n pass).2 := by
  unfold State.tryRepair
  repeat' first
    | with_reducible assumption
    | with_reducible apply Keeps.repairLane
    | with_reducible apply Keeps.ite2

theorem Keeps.afterTests {s₀ s : State} (hk : Keeps s₀ s) (p : Nat) : Keeps s₀ (State.afterTests s p) := by
  unfold State.afterTests
  repeat' first
    | with_reducible assumption
    | with_reducible apply Keeps.downCounted
    | with_reducible apply Keeps.updPort
    | with_reducible apply Keeps.ite

theorem Keeps.execLoopbackEnd {s₀ s : State} (hk : Keeps s₀ s) (p : Nat) (pass : Bool) :
    ∀ nx, Machine.execLoopbackEnd p pass s = .next nx → Keeps s₀ nx := by
  intro nx e
  unfold Machine.execLoopbackEnd at e
  refine Keeps.settled ?_ nx e
  repeat' first
    | with_reducible assumption
    | with_reducible apply Keeps.tryRepair
    | with_reducible apply Keeps.showRepaired
    | with_reducible apply Keeps.wr
    | with_reducible apply Keeps.laneRecord
    | with_reducible apply Keeps.updPort
    | with_reducible apply Keeps.afterTests
    | with_reducible apply Keeps.ite
    | (extract_lets +onlyGivenNames x; refine (fun (hx : Keeps s₀ x) => ?_) ?_;
       (on_goal 2 => (unfold x; clear x)); (on_goal 1 => ((try clear_value x); revert x; intro w hw)))
    | (extract_lets +onlyGivenNames x; refine (fun (hx : Keeps s₀ x.2) => ?_) ?_;
       (on_goal 2 => (unfold x; clear x)); (on_goal 1 => ((try clear_value x); revert x; intro w hw)))
    | (extract_lets +onlyGivenNames x; clear_value x; revert x; intro w)
    | split

theorem Keeps.execRepairRetrainEnd {s₀ s : State} (hk : Keeps s₀ s) (p : Nat) (ok : Bool) :
    ∀ nx, Machine.execRepairRetrainEnd p ok s = .next nx → Keeps s₀ nx := by
  intro nx e
  unfold Machine.execRepairRetrainEnd at e
  refine Keeps.settled ?_ nx e
  repeat' first
    | with_reducible assumption
    | with_reducible apply Keeps.downCounted
    | with_reducible apply Keeps.retrained
    | with_reducible apply Keeps.showLanes
    | with_reducible apply Keeps.narrowCheck
    | with_reducible apply Keeps.event
    | with_reducible apply Keeps.ite

theorem Keeps.execHoldExpiry {s₀ s : State} (hk : Keeps s₀ s) (p : Nat) :
    ∀ nx, Machine.execHoldExpiry p s = .next nx → Keeps s₀ nx := by
  intro nx e
  unfold Machine.execHoldExpiry at e
  refine Keeps.settled ?_ nx e
  repeat' first
    | with_reducible assumption
    | with_reducible apply Keeps.startTrain
    | with_reducible apply Keeps.setLstate
    | with_reducible apply Keeps.ite

theorem Keeps.clrPark {s₀ s : State} (hk : Keeps s₀ s) (p : Nat) : Keeps s₀ (State.clrPark s p) := by
  unfold State.clrPark
  repeat' first
    | with_reducible assumption
    | with_reducible apply Keeps.wr
    | with_reducible apply Keeps.updPort
    | with_reducible apply Keeps.startTrain
    | with_reducible apply Keeps.setLstate
    | with_reducible apply Keeps.ite

theorem Keeps.execClrPark {s₀ s : State} (hk : Keeps s₀ s) (p : Nat) :
    ∀ nx, Machine.execClrPark p s = .next nx → Keeps s₀ nx := by
  intro nx e
  unfold Machine.execClrPark at e
  refine Keeps.hostRow hk _ _ ?_ nx e
  repeat' first
    | with_reducible assumption
    | (intro a)
    | with_reducible apply Keeps.clrPark

theorem Keeps.execFrame {s₀ s : State} (hk : Keeps s₀ s) (p : Nat) (bytes : List Byte) :
    ∀ nx, Machine.execFrame p bytes s = .next nx → Keeps s₀ nx := by
  intro nx e
  unfold Machine.execFrame at e
  refine Keeps.settled ?_ nx e
  repeat' first
    | with_reducible assumption
    | with_reducible apply Keeps.bump
    | with_reducible apply Keeps.wake
    | with_reducible apply Keeps.mirrTap
    | with_reducible apply Keeps.polMsg
    | with_reducible apply Keeps.rxFill
    | with_reducible apply Keeps.rxArrive
    | with_reducible apply Keeps.ite
    | (extract_lets +onlyGivenNames x; refine (fun (hx : Keeps s₀ x) => ?_) ?_;
       (on_goal 2 => (unfold x; clear x)); (on_goal 1 => ((try clear_value x); revert x; intro w hw)))
    | (extract_lets +onlyGivenNames x; clear_value x; revert x; intro w)
    | split

theorem Keeps.execXoffRepeat {s₀ s : State} (hk : Keeps s₀ s) (p : Nat) (pcp : Nat) :
    ∀ nx, Machine.execXoffRepeat p pcp s = .next nx → Keeps s₀ nx := by
  intro nx e
  unfold Machine.execXoffRepeat at e
  refine Keeps.settled ?_ nx e
  repeat' first
    | with_reducible assumption
    | with_reducible apply Keeps.emit
    | with_reducible apply Keeps.ite

theorem Keeps.setPause {s₀ s : State} (hk : Keeps s₀ s) (p : Nat) (pcp : Nat) (v : Bool) :
    Keeps s₀ (State.setPause s p pcp v) := by
  unfold State.setPause
  repeat' first
    | with_reducible assumption
    | with_reducible apply Keeps.updPort
    | with_reducible apply Keeps.wr

theorem Keeps.execPfcFrame {s₀ s : State} (hk : Keeps s₀ s) (p : Nat) (mask : Nat) (times : List Nat) :
    ∀ nx, Machine.execPfcFrame p mask times s = .next nx → Keeps s₀ nx := by
  intro nx e
  unfold Machine.execPfcFrame at e
  refine Keeps.settled ?_ nx e
  repeat' first
    | with_reducible assumption
    | (intro a)
    | with_reducible apply Keeps.setPause
    | with_reducible apply Keeps.ite
    | with_reducible apply Keeps.foldl

theorem Keeps.execPfcPauseExpiry {s₀ s : State} (hk : Keeps s₀ s) (p : Nat) (pcp : Nat) :
    ∀ nx, Machine.execPfcPauseExpiry p pcp s = .next nx → Keeps s₀ nx := by
  intro nx e
  unfold Machine.execPfcPauseExpiry at e
  refine Keeps.settled ?_ nx e
  repeat' first
    | with_reducible assumption
    | with_reducible apply Keeps.setPause
    | with_reducible apply Keeps.ite

theorem Keeps.execPfcWatchdog {s₀ s : State} (hk : Keeps s₀ s) (p : Nat) (pcp : Nat) :
    ∀ nx, Machine.execPfcWatchdog p pcp s = .next nx → Keeps s₀ nx := by
  intro nx e
  unfold Machine.execPfcWatchdog at e
  refine Keeps.settled ?_ nx e
  repeat' first
    | with_reducible assumption
    | (intro a)
    | with_reducible apply Keeps.updPort
    | with_reducible apply Keeps.setPause
    | with_reducible apply Keeps.msgEnd
    | with_reducible apply Keeps.fromEgress
    | with_reducible apply Keeps.event
    | with_reducible apply Keeps.bump
    | with_reducible apply Keeps.ite
    | with_reducible apply Keeps.foldl
    | (extract_lets +onlyGivenNames x; refine (fun (hx : Keeps s₀ x) => ?_) ?_;
       (on_goal 2 => (unfold x; clear x)); (on_goal 1 => ((try clear_value x); revert x; intro w hw)))
    | (extract_lets +onlyGivenNames x; clear_value x; revert x; intro w)
    | split

/-! ### Sys2Proof/Machine/RecovRows.lean -/

theorem Keeps.execDieLinkError {s₀ s : State} (hk : Keeps s₀ s) (_a : Nat) (_b : Nat) :
    ∀ nx, Machine.execDieLinkError _a _b s = .next nx → Keeps s₀ nx := by
  intro nx e
  unfold Machine.execDieLinkError at e
  refine Keeps.settled ?_ nx e
  repeat' first
    | with_reducible assumption

theorem Keeps.fault {s₀ s : State} (hk : Keeps s₀ s) (cls : Nat) (u : Nat) : Keeps s₀ (State.fault s cls u) := by
  unfold State.fault
  repeat' first
    | with_reducible assumption
    | with_reducible apply Keeps.planeFail
    | with_reducible apply Keeps.raise
    | with_reducible apply Keeps.immediate
    | with_reducible apply Keeps.ite

theorem Keeps.selfTestFail {s₀ s : State} (hk : Keeps s₀ s) (cls : Nat) (u : Nat) :
    Keeps s₀ (State.selfTestFail s cls u) := by
  unfold State.selfTestFail
  repeat' first
    | with_reducible assumption
    | with_reducible apply Keeps.peColumn
    | with_reducible apply Keeps.raise
    | with_reducible apply Keeps.moveAdders
    | with_reducible apply Keeps.stackLost
    | with_reducible apply Keeps.ctRetire
    | with_reducible apply Keeps.fault
    | with_reducible apply Keeps.ite

theorem Keeps.execDieLinkFail {s₀ s : State} (hk : Keeps s₀ s) (a : Nat) (b : Nat) :
    ∀ nx, Machine.execDieLinkFail a b s = .next nx → Keeps s₀ nx := by
  intro nx e
  unfold Machine.execDieLinkFail at e
  refine Keeps.settled ?_ nx e
  repeat' first
    | with_reducible assumption
    | with_reducible apply Keeps.fault
    | with_reducible apply Keeps.ite

theorem Keeps.execRgfHard {s₀ s : State} (hk : Keeps s₀ s) (d : Nat) :
    ∀ nx, Machine.execRgfHard d s = .next nx → Keeps s₀ nx := by
  intro nx e
  unfold Machine.execRgfHard at e
  refine Keeps.settled ?_ nx e
  repeat' first
    | with_reducible assumption
    | with_reducible apply Keeps.fault
    | with_reducible apply Keeps.ite

theorem Keeps.execStackFail {s₀ s : State} (hk : Keeps s₀ s) (n : Nat) :
    ∀ nx, Machine.execStackFail n s = .next nx → Keeps s₀ nx := by
  intro nx e
  unfold Machine.execStackFail at e
  refine Keeps.settled ?_ nx e
  repeat' first
    | with_reducible assumption
    | with_reducible apply Keeps.fault
    | with_reducible apply Keeps.ite

theorem Keeps.execPdFail {s₀ s : State} (hk : Keeps s₀ s) (d : Nat) :
    ∀ nx, Machine.execPdFail d s = .next nx → Keeps s₀ nx := by
  intro nx e
  unfold Machine.execPdFail at e
  refine Keeps.settled ?_ nx e
  repeat' first
    | with_reducible assumption
    | with_reducible apply Keeps.fault
    | with_reducible apply Keeps.ite

theorem Keeps.execMcFail {s₀ s : State} (hk : Keeps s₀ s) (k : Nat) :
    ∀ nx, Machine.execMcFail k s = .next nx → Keeps s₀ nx := by
  intro nx e
  unfold Machine.execMcFail at e
  refine Keeps.settled ?_ nx e
  repeat' first
    | with_reducible assumption
    | with_reducible apply Keeps.fault
    | with_reducible apply Keeps.ite

theorem Keeps.execDirMismatch {s₀ s : State} (hk : Keeps s₀ s) (k : Nat) :
    ∀ nx, Machine.execDirMismatch k s = .next nx → Keeps s₀ nx := by
  intro nx e
  unfold Machine.execDirMismatch at e
  refine Keeps.settled ?_ nx e
  repeat' first
    | with_reducible assumption
    | with_reducible apply Keeps.fault
    | with_reducible apply Keeps.ite

theorem Keeps.trayErr {s₀ s : State} (hk : Keeps s₀ s) (p : Nat) (n : Nat) : Keeps s₀ (State.trayErr s p n) := by
  unfold State.trayErr
  repeat' first
    | with_reducible assumption
    | with_reducible apply Keeps.updPort
    | with_reducible apply Keeps.downCounted
    | with_reducible apply Keeps.ite

theorem Keeps.stepEntry {s₀ s : State} (hk : Keeps s₀ s) (e : RcvEnt) (ok : Bool) : Keeps s₀ (State.stepEntry s e ok) := by
  unfold State.stepEntry
  repeat' first
    | with_reducible assumption
    | with_reducible apply Keeps.rowCheck
    | with_reducible apply Keeps.trayErr
    | with_reducible apply Keeps.laneRecord
    | with_reducible apply Keeps.planeStep
    | with_reducible apply Keeps.rmap
    | with_reducible apply Keeps.dieHardPass
    | with_reducible apply Keeps.stackLost
    | with_reducible apply Keeps.setDegraded
    | with_reducible apply Keeps.dirResume
    | with_reducible apply Keeps.sliceRetire
    | with_reducible rfl
    | ((conv => arg 2; arg 23); with_reducible apply Keeps.lit)
    | with_reducible apply Keeps.ite
    | (extract_lets +onlyGivenNames x; refine (fun (hx : Keeps s₀ x) => ?_) ?_;
       (on_goal 2 => (unfold x; clear x)); (on_goal 1 => ((try clear_value x); revert x; intro w hw)))
    | (extract_lets +onlyGivenNames x; clear_value x; revert x; intro w)
    | split

theorem Keeps.execSequencerStep {s₀ s : State} (hk : Keeps s₀ s) (ok : Bool) :
    ∀ nx, Machine.execSequencerStep ok s = .next nx → Keeps s₀ nx := by
  intro nx e
  unfold Machine.execSequencerStep at e
  refine Keeps.settled ?_ nx e
  repeat' first
    | with_reducible assumption
    | with_reducible apply Keeps.stepEntry
    | with_reducible apply Keeps.entryDone
    | with_reducible apply Keeps.ite
    | split

theorem Keeps.execSubstituteRetry {s₀ s : State} (hk : Keeps s₀ s) (page : Nat) :
    ∀ nx, Machine.execSubstituteRetry page s = .next nx → Keeps s₀ nx := by
  intro nx e
  unfold Machine.execSubstituteRetry at e
  refine Keeps.settled ?_ nx e
  repeat' first
    | with_reducible assumption
    | with_reducible apply Keeps.findSub
    | with_reducible apply Keeps.ite

theorem Keeps.execLockstepMismatch {s₀ s : State} (hk : Keeps s₀ s) (pair : Nat) :
    ∀ nx, Machine.execLockstepMismatch pair s = .next nx → Keeps s₀ nx := by
  intro nx e
  unfold Machine.execLockstepMismatch at e
  refine Keeps.settled ?_ nx e
  repeat' first
    | with_reducible assumption
    | with_reducible apply Keeps.fault
    | with_reducible apply Keeps.ite

theorem Keeps.execControlSelfTestEnd {s₀ s : State} (hk : Keeps s₀ s) (pair : Nat) (lowOk : Bool) (highOk : Bool) :
    ∀ nx, Machine.execControlSelfTestEnd pair lowOk highOk s = .next nx → Keeps s₀ nx := by
  intro nx e
  unfold Machine.execControlSelfTestEnd at e
  refine Keeps.settled ?_ nx e
  repeat' first
    | with_reducible assumption
    | with_reducible apply Keeps.ctRetire
    | with_reducible rfl
    | ((conv => arg 2; arg 23); with_reducible apply Keeps.lit)
    | with_reducible apply Keeps.ite
    | (extract_lets +onlyGivenNames x; clear_value x; revert x; intro w)
    | (extract_lets +onlyGivenNames x; revert x; intro w)
    | split

theorem Keeps.doEnter {s₀ s : State} (hk : Keeps s₀ s) : Keeps s₀ (State.doEnter s) := by
  unfold State.doEnter
  repeat' first
    | with_reducible assumption
    | with_reducible apply Keeps.cmdDone
    | with_reducible apply Keeps.enterContain

theorem Keeps.execEnter {s₀ s : State} (hk : Keeps s₀ s) : ∀ nx, Machine.execEnter s = .next nx → Keeps s₀ nx := by
  intro nx e
  unfold Machine.execEnter at e
  refine Keeps.hostRow hk _ _ ?_ nx e
  repeat' first
    | with_reducible assumption
    | (intro a)
    | with_reducible apply Keeps.doEnter

theorem Keeps.clearEnd {s₀ s : State} (hk : Keeps s₀ s) (st : Nat) : Keeps s₀ (State.clearEnd s st) := by
  unfold State.clearEnd
  repeat' first
    | with_reducible assumption
    | with_reducible apply Keeps.cmdDone
    | with_reducible apply Keeps.wr

theorem Keeps.doClear {s₀ s : State} (hk : Keeps s₀ s) (standing : List StandingFault) :
    Keeps s₀ (State.doClear s standing) := by
  unfold State.doClear
  repeat' first
    | with_reducible assumption
    | (intro a)
    | with_reducible apply Keeps.clearEnd
    | with_reducible apply Keeps.report
    | with_reducible apply Keeps.leaveContain
    | with_reducible apply Keeps.ite
    | with_reducible apply Keeps.foldl

theorem Keeps.execClear {s₀ s : State} (hk : Keeps s₀ s) (standing : List StandingFault) :
    ∀ nx, Machine.execClear standing s = .next nx → Keeps s₀ nx := by
  intro nx e
  unfold Machine.execClear at e
  refine Keeps.hostRow hk _ _ ?_ nx e
  repeat' first
    | with_reducible assumption
    | (intro a)
    | with_reducible apply Keeps.doClear

theorem Keeps.doClr {s₀ s : State} (hk : Keeps s₀ s) : Keeps s₀ (State.doClr s) := by
  unfold State.doClr
  repeat' first
    | with_reducible assumption
    | with_reducible apply Keeps.flashWrite
    | with_reducible apply Keeps.cmdDone
    | with_reducible apply Keeps.ite

theorem Keeps.execClr {s₀ s : State} (hk : Keeps s₀ s) : ∀ nx, Machine.execClr s = .next nx → Keeps s₀ nx := by
  intro nx e
  unfold Machine.execClr at e
  refine Keeps.hostRow hk _ _ ?_ nx e
  repeat' first
    | with_reducible assumption
    | (intro a)
    | with_reducible apply Keeps.doClr

theorem Keeps.execHealthRecord {s₀ s : State} (hk : Keeps s₀ s) :
    ∀ nx, Machine.execHealthRecord s = .next nx → Keeps s₀ nx := by
  intro nx e
  unfold Machine.execHealthRecord at e
  refine Keeps.settled ?_ nx e
  repeat' first
    | with_reducible assumption
    | with_reducible apply Keeps.healthLog
    | with_reducible apply Keeps.ite

end Sys2Proof.Laws
end

