-- ==== Sys2Proof/Laws/KeepsUnitRows.lean ====
section
/-! SUPPORT. What operations keep:
the commands of the pool, the tiers, groups, dies, slices and channels. -/

namespace Sys2Proof.Laws

open Sys2Proof Sys2Proof.Machine

/-! ### Sys2Proof/Machine/PoolRows.lean -/

theorem Keeps.extEnd {s₀ s : State} (hk : Keeps s₀ s) (st : Nat) : Keeps s₀ (State.extEnd s st) := by
  unfold State.extEnd
  repeat' first
    | with_reducible assumption
    | with_reducible apply Keeps.wr
    | with_reducible apply Keeps.cmdDone
    | with_reducible rfl
    | ((conv => arg 2; arg 23); with_reducible apply Keeps.lit)

theorem Keeps.extRun {s₀ s : State} (hk : Keeps s₀ s) (op : Nat) (idx : Nat) : Keeps s₀ (State.extRun s op idx) := by
  unfold State.extRun
  repeat' first
    | with_reducible assumption
    | with_reducible apply Keeps.wr
    | with_reducible rfl
    | ((conv => arg 2; arg 23); with_reducible apply Keeps.lit)

theorem Keeps.extCmd {s₀ s : State} (hk : Keeps s₀ s) (idx : Nat) (act : State → Extent → State)
    (hact : ∀ x x1, Keeps s₀ x → Keeps s₀ (act x x1)) :
    Keeps s₀ (State.extCmd s idx act) := by
  unfold State.extCmd
  repeat' first
    | with_reducible assumption
    | with_reducible apply hact
    | with_reducible apply Keeps.wr
    | with_reducible apply Keeps.extEnd
    | with_reducible apply Keeps.ite

theorem Keeps.zeroRange {s₀ s : State} (hk : Keeps s₀ s) (lo : Nat) (n : Nat) : Keeps s₀ (State.zeroRange s lo n) := by
  unfold State.zeroRange
  exact Keeps.litMem hk rfl (tclear_wf 0 _ _ _)

theorem Keeps.countEvict {s₀ s : State} (hk : Keeps s₀ s) (pg : Nat) : Keeps s₀ (State.countEvict s pg) := by
  unfold State.countEvict
  repeat' first
    | with_reducible assumption
    | with_reducible apply Keeps.bump
    | with_reducible rfl
    | ((conv => arg 2; arg 23); with_reducible apply Keeps.lit)
    | with_reducible apply Keeps.ite

theorem Keeps.giveWay {s₀ s : State} (hk : Keeps s₀ s) (pg : Nat) : Keeps s₀ (State.giveWay s pg).2 := by
  unfold State.giveWay
  repeat' first
    | with_reducible assumption
    | with_reducible apply Keeps.findSub
    | with_reducible apply Keeps.setPage
    | with_reducible apply Keeps.demote
    | with_reducible apply Keeps.countEvict
    | with_reducible rfl
    | ((conv => arg 2; arg 23); with_reducible apply Keeps.lit)
    | with_reducible apply Keeps.ite
    | with_reducible apply Keeps.ite2
    | (extract_lets +onlyGivenNames x; refine (fun (hx : Keeps s₀ x) => ?_) ?_;
       (on_goal 2 => (unfold x; clear x)); (on_goal 1 => ((try clear_value x); revert x; intro w hw)))
    | (extract_lets +onlyGivenNames x; clear_value x; revert x; intro w)
    | split

theorem Keeps.newSub {s₀ s : State} (hk : Keeps s₀ s) (pg : Nat) : Keeps s₀ (State.newSub s pg).2 := by
  unfold State.newSub
  repeat' first
    | with_reducible assumption
    | with_reducible apply Keeps.setPage
    | with_reducible apply Keeps.demoteFor
    | with_reducible apply Keeps.ite2
    | (extract_lets +onlyGivenNames x; refine (fun (hx : Keeps s₀ x.2) => ?_) ?_;
       (on_goal 2 => (unfold x; clear x)); (on_goal 1 => ((try clear_value x); revert x; intro w hw)))
    | (extract_lets +onlyGivenNames x; clear_value x; revert x; intro w)
    | split

theorem Keeps.clearWay {s₀ s : State} (hk : Keeps s₀ s) (x : Extent) : Keeps s₀ (State.clearWay s x).2 := by
  unfold State.clearWay
  repeat' first
    | with_reducible assumption
    | (intro a)
    | with_reducible apply Keeps.giveWay
    | with_reducible apply Keeps.newSub
    | with_reducible apply Keeps.foldl2

theorem Keeps.chargeExtent {s₀ s : State} (hk : Keeps s₀ s) (x : Extent) : Keeps s₀ (State.chargeExtent s x) := by
  unfold State.chargeExtent
  repeat' first
    | with_reducible assumption
    | with_reducible apply Keeps.chargeOasis
    | with_reducible apply Keeps.advance
    | with_reducible apply Keeps.ite

theorem Keeps.creditExtent {s₀ s : State} (hk : Keeps s₀ s) (x : Extent) : Keeps s₀ (State.creditExtent s x) := by
  unfold State.creditExtent
  repeat' first
    | with_reducible assumption
    | with_reducible apply Keeps.creditOasis
    | with_reducible apply Keeps.lower
    | with_reducible apply Keeps.ite

theorem Keeps.createFails {s₀ s : State} (hk : Keeps s₀ s) (i : Nat) (x : Extent) : Keeps s₀ (State.createFails s i x) := by
  unfold State.createFails
  repeat' first
    | with_reducible assumption
    | with_reducible apply Keeps.extEnd
    | with_reducible apply Keeps.creditExtent
    | with_reducible apply Keeps.setExtent
    | with_reducible rfl
    | ((conv => arg 2; arg 23); with_reducible apply Keeps.lit)

theorem Keeps.doCreate {s₀ s : State} (hk : Keeps s₀ s) : Keeps s₀ (State.doCreate s) := by
  unfold State.doCreate
  repeat' first
    | with_reducible assumption
    | (intro a)
    | with_reducible apply Keeps.extEnd
    | with_reducible apply Keeps.wr
    | with_reducible apply Keeps.zeroRange
    | with_reducible apply Keeps.chargeExtent
    | with_reducible apply Keeps.setExtent
    | with_reducible apply Keeps.extRun
    | with_reducible apply Keeps.rewriteImage
    | with_reducible apply Keeps.clearWay
    | with_reducible apply Keeps.createFails
    | with_reducible apply Keeps.ite
    | with_reducible apply Keeps.foldl

theorem Keeps.execExtentCreate {s₀ s : State} (hk : Keeps s₀ s) :
    ∀ nx, Machine.execExtentCreate s = .next nx → Keeps s₀ nx := by
  intro nx e
  unfold Machine.execExtentCreate at e
  refine Keeps.hostRow hk _ _ ?_ nx e
  repeat' first
    | with_reducible assumption
    | (intro a)
    | with_reducible apply Keeps.doCreate

theorem Keeps.execExtentActive {s₀ s : State} (hk : Keeps s₀ s) :
    ∀ nx, Machine.execExtentActive s = .next nx → Keeps s₀ nx := by
  intro nx e
  unfold Machine.execExtentActive at e
  refine Keeps.settled ?_ nx e
  repeat' first
    | with_reducible assumption
    | with_reducible apply Keeps.clearWay
    | with_reducible apply Keeps.createFails
    | with_reducible apply Keeps.extEnd
    | with_reducible apply Keeps.setExtent
    | with_reducible apply Keeps.ite
    | with_reducible apply Keeps.ite2

theorem Keeps.endExtent {s₀ s : State} (hk : Keeps s₀ s) (i : Nat) (st : Nat) : Keeps s₀ (State.endExtent s i st) := by
  unfold State.endExtent
  repeat' first
    | with_reducible assumption
    | (intro a)
    | with_reducible apply Keeps.setExtent
    | with_reducible apply Keeps.rxExtentGone
    | with_reducible apply Keeps.mirrExtentGone
    | with_reducible apply Keeps.endRegion
    | with_reducible apply Keeps.finishCmp
    | with_reducible apply Keeps.applyRun
    | with_reducible apply Keeps.applyGroup
    | with_reducible apply Keeps.dirCheckAll
    | with_reducible apply Keeps.endLine
    | with_reducible rfl
    | ((conv => arg 2; arg 23); with_reducible apply Keeps.lit)
    | with_reducible apply Keeps.ite
    | with_reducible apply Keeps.foldl

theorem Keeps.freeObjects {s₀ s : State} (hk : Keeps s₀ s) (x : Extent) : Keeps s₀ (State.freeObjects s x) := by
  unfold State.freeObjects
  exact Keeps.lit hk rfl rfl

theorem Keeps.beginFill {s₀ s : State} (hk : Keeps s₀ s) (i : Nat) : Keeps s₀ (State.beginFill s i) := by
  unfold State.beginFill
  repeat' first
    | with_reducible assumption
    | with_reducible apply Keeps.setExtent
    | with_reducible apply Keeps.zeroRange
    | with_reducible apply Keeps.rewritePages
    | with_reducible apply Keeps.ite

theorem Keeps.freeUp {s₀ s : State} (hk : Keeps s₀ s) (i : Nat) : Keeps s₀ (State.freeUp s i) := by
  unfold State.freeUp
  repeat' first
    | with_reducible assumption
    | with_reducible apply Keeps.freeObjects
    | with_reducible apply Keeps.creditExtent
    | with_reducible apply Keeps.creditOasis
    | with_reducible apply Keeps.countNosub
    | with_reducible apply Keeps.setExtent
    | with_reducible apply Keeps.event
    | with_reducible apply Keeps.bump
    | with_reducible rfl
    | ((conv => arg 2; arg 23); with_reducible apply Keeps.lit)
    | with_reducible apply Keeps.ite

theorem Keeps.doDelete {s₀ s : State} (hk : Keeps s₀ s) (idx : Nat) : Keeps s₀ (State.doDelete s idx) := by
  unfold State.doDelete
  repeat' first
    | with_reducible assumption
    | (intro a)
    | with_reducible apply Keeps.extCmd
    | with_reducible apply Keeps.extEnd
    | with_reducible apply Keeps.extRun
    | with_reducible apply Keeps.endExtent
    | with_reducible apply Keeps.ite

theorem Keeps.execExtentDelete {s₀ s : State} (hk : Keeps s₀ s) (idx : Nat) :
    ∀ nx, Machine.execExtentDelete idx s = .next nx → Keeps s₀ nx := by
  intro nx e
  unfold Machine.execExtentDelete at e
  refine Keeps.hostRow hk _ _ ?_ nx e
  repeat' first
    | with_reducible assumption
    | (intro a)
    | with_reducible apply Keeps.doDelete

theorem Keeps.execReclaimFillEnd {s₀ s : State} (hk : Keeps s₀ s) (idx : Nat) :
    ∀ nx, Machine.execReclaimFillEnd idx s = .next nx → Keeps s₀ nx := by
  intro nx e
  unfold Machine.execReclaimFillEnd at e
  refine Keeps.settled ?_ nx e
  repeat' first
    | with_reducible assumption
    | with_reducible apply Keeps.beginFill
    | with_reducible apply Keeps.freeUp
    | with_reducible apply Keeps.extEnd
    | with_reducible apply Keeps.ite

theorem Keeps.doSetAttr {s₀ s : State} (hk : Keeps s₀ s) (idx : Nat) : Keeps s₀ (State.doSetAttr s idx) := by
  unfold State.doSetAttr
  repeat' first
    | with_reducible assumption
    | (intro a)
    | with_reducible apply Keeps.extCmd
    | with_reducible apply Keeps.extEnd
    | with_reducible apply Keeps.setExtent
    | with_reducible apply Keeps.setPage
    | with_reducible apply Keeps.demoteSoon
    | with_reducible apply Keeps.rewriteImage
    | with_reducible apply Keeps.rewritePages
    | with_reducible apply Keeps.extRun
    | with_reducible rfl
    | ((conv => arg 2; arg 23); with_reducible apply Keeps.lit)
    | with_reducible apply Keeps.ite
    | with_reducible apply Keeps.foldl

theorem Keeps.execSetAttr {s₀ s : State} (hk : Keeps s₀ s) (idx : Nat) :
    ∀ nx, Machine.execSetAttr idx s = .next nx → Keeps s₀ nx := by
  intro nx e
  unfold Machine.execSetAttr at e
  refine Keeps.hostRow hk _ _ ?_ nx e
  repeat' first
    | with_reducible assumption
    | (intro a)
    | with_reducible apply Keeps.doSetAttr

theorem Keeps.execErgcRewriteEnd {s₀ s : State} (hk : Keeps s₀ s) :
    ∀ nx, Machine.execErgcRewriteEnd s = .next nx → Keeps s₀ nx := by
  intro nx e
  unfold Machine.execErgcRewriteEnd at e
  refine Keeps.settled ?_ nx e
  repeat' first
    | with_reducible assumption
    | with_reducible apply Keeps.extEnd
    | with_reducible rfl
    | ((conv => arg 2; arg 23); with_reducible apply Keeps.lit)
    | with_reducible apply Keeps.ite

theorem Keeps.doExtRead {s₀ s : State} (hk : Keeps s₀ s) (idx : Nat) : Keeps s₀ (State.doExtRead s idx) := by
  unfold State.doExtRead
  repeat' first
    | with_reducible assumption
    | (intro a)
    | with_reducible apply Keeps.extCmd
    | with_reducible apply Keeps.wr
    | with_reducible apply Keeps.extEnd

theorem Keeps.execExtentRead {s₀ s : State} (hk : Keeps s₀ s) (idx : Nat) :
    ∀ nx, Machine.execExtentRead idx s = .next nx → Keeps s₀ nx := by
  intro nx e
  unfold Machine.execExtentRead at e
  refine Keeps.hostRow hk _ _ ?_ nx e
  repeat' first
    | with_reducible assumption
    | (intro a)
    | with_reducible apply Keeps.doExtRead

theorem Keeps.doSetOwner {s₀ s : State} (hk : Keeps s₀ s) (idx : Nat) : Keeps s₀ (State.doSetOwner s idx) := by
  unfold State.doSetOwner
  repeat' first
    | with_reducible assumption
    | (intro a)
    | with_reducible apply Keeps.extCmd
    | with_reducible apply Keeps.extEnd
    | with_reducible apply Keeps.setExtent
    | with_reducible apply Keeps.ite

theorem Keeps.execSetOwner {s₀ s : State} (hk : Keeps s₀ s) (idx : Nat) :
    ∀ nx, Machine.execSetOwner idx s = .next nx → Keeps s₀ nx := by
  intro nx e
  unfold Machine.execSetOwner at e
  refine Keeps.hostRow hk _ _ ?_ nx e
  repeat' first
    | with_reducible assumption
    | (intro a)
    | with_reducible apply Keeps.doSetOwner

theorem Keeps.execLeaseExpiry {s₀ s : State} (hk : Keeps s₀ s) (id : Nat) :
    ∀ nx, Machine.execLeaseExpiry id s = .next nx → Keeps s₀ nx := by
  intro nx e
  unfold Machine.execLeaseExpiry at e
  refine Keeps.settled ?_ nx e
  repeat' first
    | with_reducible assumption
    | (intro a)
    | with_reducible apply Keeps.wake
    | with_reducible apply Keeps.updAgent
    | with_reducible apply Keeps.endExtent
    | with_reducible apply Keeps.event
    | with_reducible apply Keeps.bump
    | with_reducible apply Keeps.ite
    | with_reducible apply Keeps.foldl

theorem Keeps.execScrubRead {s₀ s : State} (hk : Keeps s₀ s) (k : Nat) :
    ∀ nx, Machine.execScrubRead k s = .next nx → Keeps s₀ nx := by
  intro nx e
  unfold Machine.execScrubRead at e
  refine Keeps.settled ?_ nx e
  repeat' first
    | with_reducible assumption
    | (intro a)
    | with_reducible apply Keeps.wr
    | with_reducible apply Keeps.advance
    | with_reducible apply Keeps.checkLine
    | with_reducible rfl
    | ((conv => arg 2; arg 23); with_reducible apply Keeps.lit)
    | with_reducible apply Keeps.ite
    | with_reducible apply Keeps.foldl
    | (extract_lets +onlyGivenNames x; refine (fun (hx : Keeps s₀ x) => ?_) ?_;
       (on_goal 2 => (unfold x; clear x)); (on_goal 1 => ((try clear_value x); revert x; intro w hw)))
    | (extract_lets +onlyGivenNames x; have b : Pool := x; clear b; unfold x; clear x)
    | split

theorem Keeps.execPoolSuspClr {s₀ s : State} (hk : Keeps s₀ s) (page : Nat) :
    ∀ nx, Machine.execPoolSuspClr page s = .next nx → Keeps s₀ nx := by
  intro nx e
  unfold Machine.execPoolSuspClr at e
  refine Keeps.hostRow hk _ _ ?_ nx e
  repeat' first
    | with_reducible assumption
    | (intro a)
    | with_reducible apply Keeps.setSusp

theorem Keeps.trayWritten {s₀ s : State} (hk : Keeps s₀ s) (t : Nat) : Keeps s₀ (State.trayWritten s t) := by
  unfold State.trayWritten
  repeat' first
    | ((conv => arg 2; arg 23); with_reducible apply Keeps.litMem)
    | exact fun k => ⟨k.1.filter _, fun e he => k.2 e (List.mem_of_mem_filter he)⟩
    | with_reducible assumption
    | with_reducible apply Keeps.retryDemotions
    | with_reducible apply Keeps.updPort
    | with_reducible rfl
    | with_reducible apply Keeps.ite
    | (extract_lets +onlyGivenNames x; refine (fun (hx : Keeps s₀ x) => ?_) ?_;
       (on_goal 2 => (unfold x; clear x)); (on_goal 1 => ((try clear_value x); revert x; intro w hw)))
    | (extract_lets +onlyGivenNames x; have b : Pool := x; clear b; unfold x; clear x)
    | (extract_lets +onlyGivenNames x; clear_value x; revert x; intro w)
    | split

theorem Keeps.execTrayWritten {s₀ s : State} (hk : Keeps s₀ s) (t : Nat) :
    ∀ nx, Machine.execTrayWritten t s = .next nx → Keeps s₀ nx := by
  intro nx e
  unfold Machine.execTrayWritten at e
  refine Keeps.settled ?_ nx e
  repeat' first
    | with_reducible assumption
    | with_reducible apply Keeps.trayWritten
    | with_reducible apply Keeps.ite

/-! ### Sys2Proof/Machine/TierRows.lean -/

theorem Keeps.execMigrationComplete {s₀ s : State} (hk : Keeps s₀ s) (page : Nat) :
    ∀ nx, Machine.execMigrationComplete page s = .next nx → Keeps s₀ nx := by
  intro nx e
  unfold Machine.execMigrationComplete at e
  refine Keeps.settled ?_ nx e
  repeat' first
    | with_reducible assumption
    | with_reducible apply Keeps.endMig
    | with_reducible apply Keeps.retryDemotions
    | with_reducible apply Keeps.findSub
    | with_reducible apply Keeps.ite
    | split

theorem Keeps.execErgcPromoteRetry {s₀ s : State} (hk : Keeps s₀ s) (page : Nat) :
    ∀ nx, Machine.execErgcPromoteRetry page s = .next nx → Keeps s₀ nx := by
  intro nx e
  unfold Machine.execErgcPromoteRetry at e
  refine Keeps.settled ?_ nx e
  repeat' first
    | with_reducible assumption
    | with_reducible apply Keeps.ergcGate
    | with_reducible apply Keeps.recause
    | with_reducible apply Keeps.ite
    | (extract_lets +onlyGivenNames x; refine (fun (hx : Keeps s₀ x.2) => ?_) ?_;
       (on_goal 2 => (unfold x; clear x)); (on_goal 1 => ((try clear_value x); revert x; intro w hw)))
    | split

theorem Keeps.halveHeat {s₀ s : State} (hk : Keeps s₀ s) : Keeps s₀ (State.halveHeat s) := by
  unfold State.halveHeat
  repeat' first
    | with_reducible assumption
    | with_reducible rfl
    | ((conv => arg 2; arg 23); with_reducible apply Keeps.lit)
    | with_reducible apply Keeps.ite
    | (extract_lets +onlyGivenNames x; clear_value x; revert x; intro w)

theorem Keeps.execHeatDecay {s₀ s : State} (hk : Keeps s₀ s) : ∀ nx, Machine.execHeatDecay s = .next nx → Keeps s₀ nx := by
  intro nx e
  unfold Machine.execHeatDecay at e
  refine Keeps.settled ?_ nx e
  repeat' first
    | with_reducible assumption
    | with_reducible apply Keeps.halveHeat

theorem Keeps.objEnd {s₀ s : State} (hk : Keeps s₀ s) (st : Nat) : Keeps s₀ (State.objEnd s st) := by
  unfold State.objEnd
  repeat' first
    | with_reducible assumption
    | with_reducible apply Keeps.cmdDone
    | with_reducible apply Keeps.wr

theorem Keeps.doDefine {s₀ s : State} (hk : Keeps s₀ s) : Keeps s₀ (State.doDefine s) := by
  unfold State.doDefine
  repeat' first
    | with_reducible assumption
    | with_reducible apply Keeps.objEnd
    | with_reducible apply Keeps.setObject
    | with_reducible apply Keeps.wr
    | with_reducible apply Keeps.ite
    | split

theorem Keeps.execDefine {s₀ s : State} (hk : Keeps s₀ s) : ∀ nx, Machine.execDefine s = .next nx → Keeps s₀ nx := by
  intro nx e
  unfold Machine.execDefine at e
  refine Keeps.hostRow hk _ _ ?_ nx e
  repeat' first
    | with_reducible assumption
    | (intro a)
    | with_reducible apply Keeps.doDefine

theorem Keeps.objCmd {s₀ s : State} (hk : Keeps s₀ s) (idx : Nat) (act : State → Obj → State)
    (hact : ∀ x x1, Keeps s₀ x → Keeps s₀ (act x x1)) :
    Keeps s₀ (State.objCmd s idx act) := by
  unfold State.objCmd
  repeat' first
    | with_reducible assumption
    | with_reducible apply hact
    | with_reducible apply Keeps.wr
    | with_reducible apply Keeps.objEnd
    | with_reducible apply Keeps.ite

theorem Keeps.objBegin {s₀ s : State} (hk : Keeps s₀ s) (i : Nat) (op : Nat) (o : Obj) :
    Keeps s₀ (State.objBegin s i op o) := by
  unfold State.objBegin
  repeat' first
    | with_reducible assumption
    | with_reducible apply Keeps.wr
    | with_reducible rfl
    | ((conv => arg 2; arg 23); with_reducible apply Keeps.lit)
    | (extract_lets +onlyGivenNames x; refine (fun (hx : Keeps s₀ x) => ?_) ?_;
       (on_goal 2 => (unfold x; clear x)); (on_goal 1 => ((try clear_value x); revert x; intro w hw)))

theorem Keeps.doPlaceOasis {s₀ s : State} (hk : Keeps s₀ s) (idx : Nat) : Keeps s₀ (State.doPlaceOasis s idx) := by
  unfold State.doPlaceOasis
  repeat' first
    | with_reducible assumption
    | (intro a)
    | with_reducible apply Keeps.objCmd
    | with_reducible apply Keeps.objEnd
    | with_reducible apply Keeps.objBegin
    | with_reducible apply Keeps.ite
    | split

theorem Keeps.execPlaceOasis {s₀ s : State} (hk : Keeps s₀ s) (idx : Nat) :
    ∀ nx, Machine.execPlaceOasis idx s = .next nx → Keeps s₀ nx := by
  intro nx e
  unfold Machine.execPlaceOasis at e
  refine Keeps.hostRow hk _ _ ?_ nx e
  repeat' first
    | with_reducible assumption
    | (intro a)
    | with_reducible apply Keeps.doPlaceOasis

theorem Keeps.doPlaceErg {s₀ s : State} (hk : Keeps s₀ s) (idx : Nat) : Keeps s₀ (State.doPlaceErg s idx) := by
  unfold State.doPlaceErg
  repeat' first
    | with_reducible assumption
    | (intro a)
    | with_reducible apply Keeps.objCmd
    | with_reducible apply Keeps.objBegin

theorem Keeps.execPlaceErg {s₀ s : State} (hk : Keeps s₀ s) (idx : Nat) :
    ∀ nx, Machine.execPlaceErg idx s = .next nx → Keeps s₀ nx := by
  intro nx e
  unfold Machine.execPlaceErg at e
  refine Keeps.hostRow hk _ _ ?_ nx e
  repeat' first
    | with_reducible assumption
    | (intro a)
    | with_reducible apply Keeps.doPlaceErg

theorem Keeps.doObjDelete {s₀ s : State} (hk : Keeps s₀ s) (idx : Nat) : Keeps s₀ (State.doObjDelete s idx) := by
  unfold State.doObjDelete
  repeat' first
    | with_reducible assumption
    | (intro a)
    | with_reducible apply Keeps.objCmd
    | with_reducible apply Keeps.setPage
    | with_reducible apply Keeps.objEnd
    | with_reducible apply Keeps.wr
    | with_reducible apply Keeps.setObject
    | with_reducible apply Keeps.foldl

theorem Keeps.execObjectDelete {s₀ s : State} (hk : Keeps s₀ s) (idx : Nat) :
    ∀ nx, Machine.execObjectDelete idx s = .next nx → Keeps s₀ nx := by
  intro nx e
  unfold Machine.execObjectDelete at e
  refine Keeps.hostRow hk _ _ ?_ nx e
  repeat' first
    | with_reducible assumption
    | (intro a)
    | with_reducible apply Keeps.doObjDelete

theorem Keeps.doObjRead {s₀ s : State} (hk : Keeps s₀ s) (idx : Nat) : Keeps s₀ (State.doObjRead s idx) := by
  unfold State.doObjRead
  repeat' first
    | with_reducible assumption
    | with_reducible apply Keeps.wr
    | with_reducible apply Keeps.objEnd
    | with_reducible apply Keeps.ite

theorem Keeps.execObjectRead {s₀ s : State} (hk : Keeps s₀ s) (idx : Nat) :
    ∀ nx, Machine.execObjectRead idx s = .next nx → Keeps s₀ nx := by
  intro nx e
  unfold Machine.execObjectRead at e
  refine Keeps.hostRow hk _ _ ?_ nx e
  repeat' first
    | with_reducible assumption
    | (intro a)
    | with_reducible apply Keeps.doObjRead

theorem Keeps.imageObjects {s₀ s : State} (hk : Keeps s₀ s) : Keeps s₀ (State.imageObjects s) := by
  unfold State.imageObjects
  repeat' first
    | with_reducible assumption
    | (intro a)
    | with_reducible apply Keeps.setObject
    | with_reducible apply Keeps.ite
    | with_reducible apply Keeps.foldl

theorem Keeps.doSchedule {s₀ s : State} (hk : Keeps s₀ s) (phase : Nat) : Keeps s₀ (State.doSchedule s phase) := by
  unfold State.doSchedule
  repeat' first
    | with_reducible assumption
    | with_reducible apply Keeps.objEnd
    | with_reducible apply Keeps.imageObjects
    | with_reducible apply Keeps.wr
    | with_reducible apply Keeps.nextEntry
    | with_reducible rfl
    | ((conv => arg 2; arg 23); with_reducible apply Keeps.lit)
    | with_reducible apply Keeps.ite

theorem Keeps.execScheduleRun {s₀ s : State} (hk : Keeps s₀ s) (phase : Nat) :
    ∀ nx, Machine.execScheduleRun phase s = .next nx → Keeps s₀ nx := by
  intro nx e
  unfold Machine.execScheduleRun at e
  refine Keeps.hostRow hk _ _ ?_ nx e
  repeat' first
    | with_reducible assumption
    | (intro a)
    | with_reducible apply Keeps.doSchedule

theorem Keeps.stopSchedule {s₀ s : State} (hk : Keeps s₀ s) : Keeps s₀ (State.stopSchedule s) := by
  unfold State.stopSchedule
  repeat' first
    | with_reducible assumption
    | with_reducible rfl
    | ((conv => arg 2; arg 23); with_reducible apply Keeps.lit)
    | with_reducible apply Keeps.ite

theorem Keeps.execScheduleStop {s₀ s : State} (hk : Keeps s₀ s) :
    ∀ nx, Machine.execScheduleStop s = .next nx → Keeps s₀ nx := by
  intro nx e
  unfold Machine.execScheduleStop at e
  refine Keeps.hostRow hk _ _ ?_ nx e
  repeat' first
    | with_reducible assumption
    | (intro a)
    | with_reducible apply Keeps.stopSchedule

/-! ### Sys2Proof/Machine/GroupRows.lean -/

theorem Keeps.cgEnd {s₀ s : State} (hk : Keeps s₀ s) (st : Nat) : Keeps s₀ (State.cgEnd s st) := by
  unfold State.cgEnd
  repeat' first
    | with_reducible assumption
    | with_reducible apply Keeps.cmdDone
    | with_reducible apply Keeps.wr

theorem Keeps.cgCmd {s₀ s : State} (hk : Keeps s₀ s) (act : State → Nat → State) (hact : ∀ x x1, Keeps s₀ x → Keeps s₀
    (act x x1)) :
    Keeps s₀ (State.cgCmd s act) := by
  unfold State.cgCmd
  repeat' first
    | with_reducible assumption
    | with_reducible apply hact
    | with_reducible apply Keeps.wr
    | with_reducible apply Keeps.cgEnd
    | with_reducible apply Keeps.ite

theorem Keeps.cgWalk {s₀ s : State} (hk : Keeps s₀ s) (g : Nat) (walk : Nat) : Keeps s₀ (State.cgWalk s g walk) := by
  unfold State.cgWalk
  repeat' first
    | with_reducible assumption
    | with_reducible apply Keeps.wr
    | with_reducible apply Keeps.setCg

theorem Keeps.cgWalked {s₀ s : State} (hk : Keeps s₀ s) (g : Nat) : Keeps s₀ (State.cgWalked s g) := by
  unfold State.cgWalked
  repeat' first
    | with_reducible assumption
    | with_reducible apply Keeps.wr

theorem Keeps.setCgState {s₀ s : State} (hk : Keeps s₀ s) (g : Nat) (st : Nat) : Keeps s₀ (State.setCgState s g st) := by
  unfold State.setCgState
  repeat' first
    | with_reducible assumption
    | with_reducible apply Keeps.wr

theorem Keeps.recallAll {s₀ s : State} (hk : Keeps s₀ s) (g : Nat) (ok : DirEnt → Bool) :
    Keeps s₀ (State.recallAll s g ok) := by
  unfold State.recallAll
  repeat' first
    | with_reducible assumption
    | (intro a)
    | with_reducible apply Keeps.dirCheckAll
    | with_reducible apply Keeps.recall
    | with_reducible apply Keeps.ite
    | with_reducible apply Keeps.foldl

theorem Keeps.dropP {s₀ s : State} (hk : Keeps s₀ s) (g : Nat) : Keeps s₀ (State.dropP s g) := by
  unfold State.dropP
  exact Keeps.lit hk rfl rfl

theorem Keeps.doForm {s₀ s : State} (hk : Keeps s₀ s) : Keeps s₀ (State.doForm s) := by
  unfold State.doForm
  repeat' first
    | with_reducible assumption
    | (intro a)
    | with_reducible apply Keeps.cgCmd
    | with_reducible apply Keeps.cgEnd
    | with_reducible apply Keeps.advance
    | with_reducible apply Keeps.setCgState
    | with_reducible apply Keeps.setCg
    | with_reducible apply Keeps.ite

theorem Keeps.execForm {s₀ s : State} (hk : Keeps s₀ s) : ∀ nx, Machine.execForm s = .next nx → Keeps s₀ nx := by
  intro nx e
  unfold Machine.execForm at e
  refine Keeps.hostRow hk _ _ ?_ nx e
  repeat' first
    | with_reducible assumption
    | (intro a)
    | with_reducible apply Keeps.doForm

theorem Keeps.doAdd {s₀ s : State} (hk : Keeps s₀ s) : Keeps s₀ (State.doAdd s) := by
  unfold State.doAdd
  repeat' first
    | with_reducible assumption
    | (intro a)
    | with_reducible apply Keeps.cgCmd
    | with_reducible apply Keeps.cgEnd
    | with_reducible apply Keeps.setCg
    | with_reducible apply Keeps.wr
    | with_reducible apply Keeps.ite

theorem Keeps.execAdd {s₀ s : State} (hk : Keeps s₀ s) : ∀ nx, Machine.execAdd s = .next nx → Keeps s₀ nx := by
  intro nx e
  unfold Machine.execAdd at e
  refine Keeps.hostRow hk _ _ ?_ nx e
  repeat' first
    | with_reducible assumption
    | (intro a)
    | with_reducible apply Keeps.doAdd

theorem Keeps.doRemove {s₀ s : State} (hk : Keeps s₀ s) : Keeps s₀ (State.doRemove s) := by
  unfold State.doRemove
  repeat' first
    | with_reducible assumption
    | (intro a)
    | with_reducible apply Keeps.cgCmd
    | with_reducible apply Keeps.cgEnd
    | with_reducible apply Keeps.cgWalk
    | with_reducible apply Keeps.setCg
    | with_reducible apply Keeps.recallAll
    | with_reducible apply Keeps.ite

theorem Keeps.execRemove {s₀ s : State} (hk : Keeps s₀ s) : ∀ nx, Machine.execRemove s = .next nx → Keeps s₀ nx := by
  intro nx e
  unfold Machine.execRemove at e
  refine Keeps.hostRow hk _ _ ?_ nx e
  repeat' first
    | with_reducible assumption
    | (intro a)
    | with_reducible apply Keeps.doRemove

theorem Keeps.reformLoad {s₀ s : State} (hk : Keeps s₀ s) (g : Nat) : Keeps s₀ (State.reformLoad s g) := by
  unfold State.reformLoad
  repeat' first
    | with_reducible assumption
    | with_reducible apply Keeps.cgEnd
    | with_reducible apply Keeps.setCg
    | with_reducible apply Keeps.cgWalk
    | with_reducible apply Keeps.ite

theorem Keeps.doReform {s₀ s : State} (hk : Keeps s₀ s) : Keeps s₀ (State.doReform s) := by
  unfold State.doReform
  repeat' first
    | with_reducible assumption
    | (intro a)
    | with_reducible apply Keeps.cgCmd
    | with_reducible apply Keeps.cgEnd
    | with_reducible apply Keeps.cgWalk
    | with_reducible apply Keeps.reformLoad
    | with_reducible apply Keeps.ite

theorem Keeps.execReform {s₀ s : State} (hk : Keeps s₀ s) : ∀ nx, Machine.execReform s = .next nx → Keeps s₀ nx := by
  intro nx e
  unfold Machine.execReform at e
  refine Keeps.hostRow hk _ _ ?_ nx e
  repeat' first
    | with_reducible assumption
    | (intro a)
    | with_reducible apply Keeps.doReform

theorem Keeps.doDisband {s₀ s : State} (hk : Keeps s₀ s) : Keeps s₀ (State.doDisband s) := by
  unfold State.doDisband
  repeat' first
    | with_reducible assumption
    | (intro a)
    | with_reducible apply Keeps.cgCmd
    | with_reducible apply Keeps.cgEnd
    | with_reducible apply Keeps.cgWalk
    | with_reducible apply Keeps.recallAll
    | with_reducible apply Keeps.ite

theorem Keeps.execDisband {s₀ s : State} (hk : Keeps s₀ s) : ∀ nx, Machine.execDisband s = .next nx → Keeps s₀ nx := by
  intro nx e
  unfold Machine.execDisband at e
  refine Keeps.hostRow hk _ _ ?_ nx e
  repeat' first
    | with_reducible assumption
    | (intro a)
    | with_reducible apply Keeps.doDisband

theorem Keeps.removeWalk {s₀ s : State} (hk : Keeps s₀ s) (g : Nat) : Keeps s₀ (State.removeWalk s g) := by
  unfold State.removeWalk
  repeat' first
    | with_reducible assumption
    | with_reducible apply Keeps.recallAll
    | with_reducible apply Keeps.setCg
    | with_reducible apply Keeps.cgEnd
    | with_reducible apply Keeps.cgWalked
    | with_reducible apply Keeps.wr
    | with_reducible apply Keeps.ite
    | (extract_lets +onlyGivenNames x; clear_value x; revert x; intro w)
    | split

theorem Keeps.disbandWalk {s₀ s : State} (hk : Keeps s₀ s) (g : Nat) : Keeps s₀ (State.disbandWalk s g) := by
  unfold State.disbandWalk
  repeat' first
    | with_reducible assumption
    | with_reducible apply Keeps.recallAll
    | with_reducible apply Keeps.dropP
    | with_reducible apply Keeps.advance
    | with_reducible apply Keeps.setCgState
    | with_reducible apply Keeps.setCg
    | with_reducible apply Keeps.cgEnd
    | with_reducible apply Keeps.cgWalked
    | with_reducible apply Keeps.event
    | with_reducible apply Keeps.ite

theorem Keeps.reformWalk {s₀ s : State} (hk : Keeps s₀ s) (g : Nat) : Keeps s₀ (State.reformWalk s g) := by
  unfold State.reformWalk
  repeat' first
    | with_reducible assumption
    | with_reducible apply Keeps.setCgState
    | with_reducible apply Keeps.setCg
    | with_reducible apply Keeps.dropP
    | with_reducible apply Keeps.cgEnd
    | with_reducible apply Keeps.cgWalked
    | with_reducible apply Keeps.event
    | with_reducible apply Keeps.advance

theorem Keeps.execGroupWalkEnd {s₀ s : State} (hk : Keeps s₀ s) :
    ∀ nx, Machine.execGroupWalkEnd s = .next nx → Keeps s₀ nx := by
  intro nx e
  unfold Machine.execGroupWalkEnd at e
  refine Keeps.settled ?_ nx e
  repeat' first
    | with_reducible assumption
    | with_reducible apply Keeps.dirCheckAll
    | with_reducible apply Keeps.removeWalk
    | with_reducible apply Keeps.disbandWalk
    | with_reducible apply Keeps.reformWalk
    | with_reducible apply Keeps.ite
    | (extract_lets +onlyGivenNames x; refine (fun (hx : Keeps s₀ x) => ?_) ?_;
       (on_goal 2 => (unfold x; clear x)); (on_goal 1 => ((try clear_value x); revert x; intro w hw)))
    | (extract_lets +onlyGivenNames x; clear_value x; revert x; intro w)
    | split

theorem Keeps.markLine {s₀ s : State} (hk : Keeps s₀ s) (l : Nat) : Keeps s₀ (State.markLine s l) := by
  unfold State.markLine
  repeat' first
    | with_reducible assumption
    | with_reducible apply Keeps.touch
    | with_reducible apply Keeps.setPsn
    | with_reducible apply Keeps.wbufPut
    | with_reducible apply Keeps.ite

theorem Keeps.faultEntry {s₀ s : State} (hk : Keeps s₀ s) (l : Nat) (e : DirEnt) : Keeps s₀ (State.faultEntry s l e) := by
  unfold State.faultEntry
  repeat' first
    | with_reducible assumption
    | with_reducible apply Keeps.dropDir
    | with_reducible apply Keeps.setDir
    | with_reducible apply Keeps.bump
    | with_reducible apply Keeps.markLine
    | with_reducible apply Keeps.ite

theorem Keeps.execFaultWalkEnd {s₀ s : State} (hk : Keeps s₀ s) (g : Nat) :
    ∀ nx, Machine.execFaultWalkEnd g s = .next nx → Keeps s₀ nx := by
  intro nx e
  unfold Machine.execFaultWalkEnd at e
  refine Keeps.settled ?_ nx e
  repeat' first
    | with_reducible assumption
    | (intro a)
    | with_reducible apply Keeps.wr
    | with_reducible apply Keeps.dirCheckAll
    | with_reducible apply Keeps.faultEntry
    | with_reducible apply Keeps.event
    | with_reducible apply Keeps.cgWalked
    | with_reducible apply Keeps.setCg
    | with_reducible apply Keeps.reformLoad
    | with_reducible apply Keeps.ite
    | with_reducible apply Keeps.foldl

theorem Keeps.execSnoopTimeout {s₀ s : State} (hk : Keeps s₀ s) (line : Nat) (id : Nat) :
    ∀ nx, Machine.execSnoopTimeout line id s = .next nx → Keeps s₀ nx := by
  intro nx e
  unfold Machine.execSnoopTimeout at e
  refine Keeps.settled ?_ nx e
  repeat' first
    | with_reducible assumption
    | with_reducible apply Keeps.dropSub
    | with_reducible apply Keeps.flushedSnoop
    | with_reducible apply Keeps.bump
    | with_reducible apply Keeps.ite
    | (extract_lets +onlyGivenNames x; clear_value x; revert x; intro w)
    | split

theorem Keeps.execSharerWalkEnd {s₀ s : State} (hk : Keeps s₀ s) (id : Nat) :
    ∀ nx, Machine.execSharerWalkEnd id s = .next nx → Keeps s₀ nx := by
  intro nx e
  unfold Machine.execSharerWalkEnd at e
  refine Keeps.settled ?_ nx e
  repeat' first
    | with_reducible assumption
    | (intro a)
    | with_reducible apply Keeps.setDir
    | with_reducible apply Keeps.stable
    | with_reducible apply Keeps.dirCheckAll
    | with_reducible apply Keeps.updAgent
    | with_reducible apply Keeps.ite
    | with_reducible apply Keeps.foldl
    | (extract_lets +onlyGivenNames x; clear_value x; revert x; intro w)
    | split

theorem Keeps.pubCmdEnd {s₀ s : State} (hk : Keeps s₀ s) (st : Nat) : Keeps s₀ (State.pubCmdEnd s st) := by
  unfold State.pubCmdEnd
  repeat' first
    | with_reducible assumption
    | with_reducible apply Keeps.cmdDone
    | with_reducible apply Keeps.wr

theorem Keeps.doRegionCreate {s₀ s : State} (hk : Keeps s₀ s) : Keeps s₀ (State.doRegionCreate s) := by
  unfold State.doRegionCreate
  repeat' first
    | with_reducible assumption
    | with_reducible apply Keeps.pubCmdEnd
    | with_reducible apply Keeps.free
    | with_reducible apply Keeps.wr
    | with_reducible apply Keeps.setRegion
    | with_reducible apply Keeps.ite
    | (extract_lets +onlyGivenNames x; refine (fun (hx : Keeps s₀ x) => ?_) ?_;
       (on_goal 2 => (unfold x; clear x)); (on_goal 1 => ((try clear_value x); revert x; intro w hw)))
    | (extract_lets +onlyGivenNames x; refine (fun (hx : Keeps s₀ x.2) => ?_) ?_;
       (on_goal 2 => (unfold x; clear x)); (on_goal 1 => ((try clear_value x); revert x; intro w hw)))
    | (extract_lets +onlyGivenNames x; clear_value x; revert x; intro w)
    | split

theorem Keeps.execRegionCreate {s₀ s : State} (hk : Keeps s₀ s) :
    ∀ nx, Machine.execRegionCreate s = .next nx → Keeps s₀ nx := by
  intro nx e
  unfold Machine.execRegionCreate at e
  refine Keeps.hostRow hk _ _ ?_ nx e
  repeat' first
    | with_reducible assumption
    | (intro a)
    | with_reducible apply Keeps.doRegionCreate

theorem Keeps.regionCmd {s₀ s : State} (hk : Keeps s₀ s) (idx : Nat) (act : State → Nat → Region → State)
    (hact : ∀ x x1 x2, Keeps s₀ x → Keeps s₀ (act x x1 x2)) :
    Keeps s₀ (State.regionCmd s idx act) := by
  unfold State.regionCmd
  repeat' first
    | with_reducible assumption
    | with_reducible apply hact
    | with_reducible apply Keeps.wr
    | with_reducible apply Keeps.pubCmdEnd
    | with_reducible apply Keeps.ite

theorem Keeps.doRegionDelete {s₀ s : State} (hk : Keeps s₀ s) (idx : Nat) : Keeps s₀ (State.doRegionDelete s idx) := by
  unfold State.doRegionDelete
  repeat' first
    | with_reducible assumption
    | (intro a)
    | with_reducible apply Keeps.regionCmd
    | with_reducible apply Keeps.pubCmdEnd
    | with_reducible apply Keeps.endRegion

theorem Keeps.execRegionDelete {s₀ s : State} (hk : Keeps s₀ s) (idx : Nat) :
    ∀ nx, Machine.execRegionDelete idx s = .next nx → Keeps s₀ nx := by
  intro nx e
  unfold Machine.execRegionDelete at e
  refine Keeps.hostRow hk _ _ ?_ nx e
  repeat' first
    | with_reducible assumption
    | (intro a)
    | with_reducible apply Keeps.doRegionDelete

theorem Keeps.doRegionRead {s₀ s : State} (hk : Keeps s₀ s) (idx : Nat) : Keeps s₀ (State.doRegionRead s idx) := by
  unfold State.doRegionRead
  repeat' first
    | with_reducible assumption
    | (intro a)
    | with_reducible apply Keeps.regionCmd
    | with_reducible apply Keeps.wr
    | with_reducible apply Keeps.pubCmdEnd

theorem Keeps.execRegionRead {s₀ s : State} (hk : Keeps s₀ s) (idx : Nat) :
    ∀ nx, Machine.execRegionRead idx s = .next nx → Keeps s₀ nx := by
  intro nx e
  unfold Machine.execRegionRead at e
  refine Keeps.hostRow hk _ _ ?_ nx e
  repeat' first
    | with_reducible assumption
    | (intro a)
    | with_reducible apply Keeps.doRegionRead

theorem Keeps.execVersionCommit {s₀ s : State} (hk : Keeps s₀ s) (idx : Nat) :
    ∀ nx, Machine.execVersionCommit idx s = .next nx → Keeps s₀ nx := by
  intro nx e
  unfold Machine.execVersionCommit at e
  refine Keeps.settled ?_ nx e
  repeat' first
    | with_reducible assumption
    | with_reducible apply Keeps.pubCommit

/-! ### Sys2Proof/Machine/MirageRows.lean -/

theorem Keeps.execScanDue {s₀ s : State} (hk : Keeps s₀ s) (d : Nat) :
    ∀ nx, Machine.execScanDue d s = .next nx → Keeps s₀ nx := by
  intro nx e
  unfold Machine.execScanDue at e
  refine Keeps.settled ?_ nx e
  repeat' first
    | with_reducible assumption
    | with_reducible apply Keeps.makeDue
    | with_reducible apply Keeps.ite

theorem Keeps.execEarlyScan {s₀ s : State} (hk : Keeps s₀ s) (d : Nat) :
    ∀ nx, Machine.execEarlyScan d s = .next nx → Keeps s₀ nx := by
  intro nx e
  unfold Machine.execEarlyScan at e
  refine Keeps.settled ?_ nx e
  repeat' first
    | with_reducible assumption
    | with_reducible apply Keeps.bump
    | with_reducible apply Keeps.makeDue
    | with_reducible apply Keeps.ite

theorem Keeps.scanOperands {s₀ s : State} (hk : Keeps s₀ s) (d : Nat) : Keeps s₀ (State.scanOperands s d) := by
  unfold State.scanOperands
  repeat' first
    | with_reducible assumption
    | with_reducible apply Keeps.charge

theorem Keeps.execScanStart {s₀ s : State} (hk : Keeps s₀ s) (d : Nat) :
    ∀ nx, Machine.execScanStart d s = .next nx → Keeps s₀ nx := by
  intro nx e
  unfold Machine.execScanStart at e
  refine Keeps.settled ?_ nx e
  repeat' first
    | with_reducible assumption
    | with_reducible apply Keeps.free
    | with_reducible apply Keeps.scanOperands
    | with_reducible apply Keeps.setScan
    | with_reducible rfl
    | ((conv => arg 2; arg 23); with_reducible apply Keeps.lit)
    | with_reducible apply Keeps.ite
    | (extract_lets +onlyGivenNames x; refine (fun (hx : Keeps s₀ x) => ?_) ?_;
       (on_goal 2 => (unfold x; clear x)); (on_goal 1 => ((try clear_value x); revert x; intro w hw)))
    | (extract_lets +onlyGivenNames x; refine (fun (hx : Keeps s₀ x.2) => ?_) ?_;
       (on_goal 2 => (unfold x; clear x)); (on_goal 1 => ((try clear_value x); revert x; intro w hw)))
    | split

theorem Keeps.execVerdict {s₀ s : State} (hk : Keeps s₀ s) (d : Nat) (dig : Nat) (chk : Nat) :
    ∀ nx, Machine.execVerdict d dig chk s = .next nx → Keeps s₀ nx := by
  intro nx e
  unfold Machine.execVerdict at e
  refine Keeps.settled ?_ nx e
  repeat' first
    | with_reducible assumption
    | with_reducible apply Keeps.diePass
    | with_reducible apply Keeps.scanOver
    | with_reducible apply Keeps.scanOperands
    | with_reducible apply Keeps.bump
    | with_reducible apply Keeps.setScan
    | with_reducible rfl
    | ((conv => arg 2; arg 23); with_reducible apply Keeps.lit)
    | with_reducible apply Keeps.ite
    | (extract_lets +onlyGivenNames x; refine (fun (hx : Keeps s₀ x) => ?_) ?_;
       (on_goal 2 => (unfold x; clear x)); (on_goal 1 => ((try clear_value x); revert x; intro w hw)))
    | split

theorem Keeps.execArbitration {s₀ s : State} (hk : Keeps s₀ s) (d : Nat) (dig : Nat) :
    ∀ nx, Machine.execArbitration d dig s = .next nx → Keeps s₀ nx := by
  intro nx e
  unfold Machine.execArbitration at e
  refine Keeps.settled ?_ nx e
  repeat' first
    | with_reducible assumption
    | with_reducible apply Keeps.scanOver
    | with_reducible apply Keeps.dieFail
    | with_reducible apply Keeps.diePass
    | with_reducible apply Keeps.makeDue
    | with_reducible apply Keeps.ite
    | (extract_lets +onlyGivenNames x; refine (fun (hx : Keeps s₀ x) => ?_) ?_;
       (on_goal 2 => (unfold x; clear x)); (on_goal 1 => ((try clear_value x); revert x; intro w hw)))
    | (extract_lets +onlyGivenNames x; clear_value x; revert x; intro w)
    | split

theorem Keeps.execScoreDecay {s₀ s : State} (hk : Keeps s₀ s) : ∀ nx, Machine.execScoreDecay s = .next nx → Keeps s₀ nx := by
  intro nx e
  unfold Machine.execScoreDecay at e
  refine Keeps.settled ?_ nx e
  repeat' first
    | with_reducible assumption
    | (intro a)
    | with_reducible apply Keeps.wr
    | with_reducible apply Keeps.roleCheck
    | with_reducible rfl
    | ((conv => arg 2; arg 23); with_reducible apply Keeps.lit)
    | with_reducible apply Keeps.ite
    | with_reducible apply Keeps.foldl

theorem Keeps.scnEnd {s₀ s : State} (hk : Keeps s₀ s) (st : Nat) : Keeps s₀ (State.scnEnd s st) := by
  unfold State.scnEnd
  repeat' first
    | with_reducible assumption
    | with_reducible apply Keeps.cmdDone
    | with_reducible apply Keeps.wr

theorem Keeps.scnCmd {s₀ s : State} (hk : Keeps s₀ s) (d : Nat) (ok : State → Bool) (act : State → State)
    (hact : ∀ x, Keeps s₀ x → Keeps s₀ (act x)) :
    Keeps s₀ (State.scnCmd s d ok act) := by
  unfold State.scnCmd
  repeat' first
    | with_reducible assumption
    | with_reducible apply hact
    | with_reducible apply Keeps.wr
    | with_reducible apply Keeps.scnEnd
    | with_reducible apply Keeps.ite

theorem Keeps.doObserve {s₀ s : State} (hk : Keeps s₀ s) (d : Nat) : Keeps s₀ (State.doObserve s d) := by
  unfold State.doObserve
  repeat' first
    | with_reducible assumption
    | (intro a)
    | with_reducible apply Keeps.scnCmd
    | with_reducible apply Keeps.event
    | with_reducible apply Keeps.setRole

theorem Keeps.execObserve {s₀ s : State} (hk : Keeps s₀ s) (d : Nat) :
    ∀ nx, Machine.execObserve d s = .next nx → Keeps s₀ nx := by
  intro nx e
  unfold Machine.execObserve at e
  refine Keeps.hostRow hk _ _ ?_ nx e
  repeat' first
    | with_reducible assumption
    | (intro a)
    | with_reducible apply Keeps.doObserve

theorem Keeps.doRelease {s₀ s : State} (hk : Keeps s₀ s) (d : Nat) : Keeps s₀ (State.doRelease s d) := by
  unfold State.doRelease
  repeat' first
    | with_reducible assumption
    | (intro a)
    | with_reducible apply Keeps.scnCmd
    | with_reducible apply Keeps.wr
    | with_reducible apply Keeps.setRole
    | with_reducible apply Keeps.unpair
    | with_reducible apply Keeps.event
    | with_reducible apply Keeps.ite
    | split

theorem Keeps.execRelease {s₀ s : State} (hk : Keeps s₀ s) (d : Nat) :
    ∀ nx, Machine.execRelease d s = .next nx → Keeps s₀ nx := by
  intro nx e
  unfold Machine.execRelease at e
  refine Keeps.hostRow hk _ _ ?_ nx e
  repeat' first
    | with_reducible assumption
    | (intro a)
    | with_reducible apply Keeps.doRelease

theorem Keeps.doRetire {s₀ s : State} (hk : Keeps s₀ s) (d : Nat) : Keeps s₀ (State.doRetire s d) := by
  unfold State.doRetire
  repeat' first
    | with_reducible assumption
    | (intro a)
    | with_reducible apply Keeps.scnCmd
    | with_reducible apply Keeps.retireDie

theorem Keeps.execRetire {s₀ s : State} (hk : Keeps s₀ s) (d : Nat) :
    ∀ nx, Machine.execRetire d s = .next nx → Keeps s₀ nx := by
  intro nx e
  unfold Machine.execRetire at e
  refine Keeps.hostRow hk _ _ ?_ nx e
  repeat' first
    | with_reducible assumption
    | (intro a)
    | with_reducible apply Keeps.doRetire

theorem Keeps.doPair {s₀ s : State} (hk : Keeps s₀ s) (d : Nat) : Keeps s₀ (State.doPair s d) := by
  unfold State.doPair
  repeat' first
    | with_reducible assumption
    | (intro a)
    | with_reducible apply Keeps.scnCmd
    | with_reducible apply Keeps.pairDie

theorem Keeps.execPair {s₀ s : State} (hk : Keeps s₀ s) (d : Nat) : ∀ nx, Machine.execPair d s = .next nx → Keeps s₀ nx := by
  intro nx e
  unfold Machine.execPair at e
  refine Keeps.hostRow hk _ _ ?_ nx e
  repeat' first
    | with_reducible assumption
    | (intro a)
    | with_reducible apply Keeps.doPair

theorem Keeps.doScanNow {s₀ s : State} (hk : Keeps s₀ s) (d : Nat) : Keeps s₀ (State.doScanNow s d) := by
  unfold State.doScanNow
  repeat' first
    | with_reducible assumption
    | (intro a)
    | with_reducible apply Keeps.scnCmd
    | with_reducible apply Keeps.bump
    | with_reducible apply Keeps.makeDue
    | with_reducible apply Keeps.ite

theorem Keeps.execScanNow {s₀ s : State} (hk : Keeps s₀ s) (d : Nat) :
    ∀ nx, Machine.execScanNow d s = .next nx → Keeps s₀ nx := by
  intro nx e
  unfold Machine.execScanNow at e
  refine Keeps.hostRow hk _ _ ?_ nx e
  repeat' first
    | with_reducible assumption
    | (intro a)
    | with_reducible apply Keeps.doScanNow

theorem Keeps.execAdderScanDue {s₀ s : State} (hk : Keeps s₀ s) (k : Nat) :
    ∀ nx, Machine.execAdderScanDue k s = .next nx → Keeps s₀ nx := by
  intro nx e
  unfold Machine.execAdderScanDue at e
  refine Keeps.settled ?_ nx e
  repeat' first
    | with_reducible assumption
    | with_reducible apply Keeps.free
    | with_reducible apply Keeps.setScan
    | with_reducible apply Keeps.ite

theorem Keeps.adderPass {s₀ s : State} (hk : Keeps s₀ s) (k : Nat) (start : Nat) : Keeps s₀ (State.adderPass s k start) := by
  unfold State.adderPass
  repeat' first
    | with_reducible assumption
    | with_reducible apply Keeps.wr
    | with_reducible apply Keeps.setScan

theorem Keeps.adderFail {s₀ s : State} (hk : Keeps s₀ s) (k : Nat) : Keeps s₀ (State.adderFail s k) := by
  unfold State.adderFail
  repeat' first
    | with_reducible assumption
    | with_reducible apply Keeps.setScan
    | with_reducible apply Keeps.bump
    | with_reducible apply Keeps.event
    | with_reducible apply Keeps.raise
    | with_reducible apply Keeps.moveAdders
    | with_reducible apply Keeps.addersStop
    | with_reducible apply Keeps.taintWindow

theorem Keeps.execAdderVerdict {s₀ s : State} (hk : Keeps s₀ s) (k : Nat) (dig : Nat) (chk : Nat) (arb : Nat) :
    ∀ nx, Machine.execAdderVerdict k dig chk arb s = .next nx → Keeps s₀ nx := by
  intro nx e
  unfold Machine.execAdderVerdict at e
  refine Keeps.settled ?_ nx e
  repeat' first
    | with_reducible assumption
    | with_reducible apply Keeps.bump
    | with_reducible apply Keeps.setScan
    | with_reducible apply Keeps.adderPass
    | with_reducible apply Keeps.adderFail
    | with_reducible apply Keeps.ite

/-! ### Sys2Proof/Machine/SliceRows.lean -/

theorem Keeps.copySlices {s₀ s : State} (hk : Keeps s₀ s) : Keeps s₀ (State.copySlices s) := by
  unfold State.copySlices
  repeat' first
    | with_reducible assumption
    | (intro a)
    | with_reducible apply Keeps.wr
    | with_reducible rfl
    | ((conv => arg 2; arg 23); with_reducible apply Keeps.lit)
    | with_reducible apply Keeps.foldl

theorem Keeps.doApply {s₀ s : State} (hk : Keeps s₀ s) (evict : Bool) : Keeps s₀ (State.doApply s evict) := by
  unfold State.doApply
  repeat' first
    | with_reducible assumption
    | with_reducible apply Keeps.cmdDone
    | with_reducible apply Keeps.wr
    | with_reducible apply Keeps.event
    | with_reducible apply Keeps.bump
    | with_reducible apply Keeps.copySlices
    | with_reducible rfl
    | ((conv => arg 2; arg 23); with_reducible apply Keeps.lit)
    | with_reducible apply Keeps.ite
    | (extract_lets +onlyGivenNames x; refine (fun (hx : Keeps s₀ x) => ?_) ?_;
       (on_goal 2 => (unfold x; clear x)); (on_goal 1 => ((try clear_value x); revert x; intro w hw)))

theorem Keeps.execApply {s₀ s : State} (hk : Keeps s₀ s) : ∀ nx, Machine.execApply s = .next nx → Keeps s₀ nx := by
  intro nx e
  unfold Machine.execApply at e
  refine Keeps.hostRow hk _ _ ?_ nx e
  repeat' first
    | with_reducible assumption
    | (intro a)
    | with_reducible apply Keeps.doApply

theorem Keeps.execEvict {s₀ s : State} (hk : Keeps s₀ s) : ∀ nx, Machine.execEvict s = .next nx → Keeps s₀ nx := by
  intro nx e
  unfold Machine.execEvict at e
  refine Keeps.hostRow hk _ _ ?_ nx e
  repeat' first
    | with_reducible assumption
    | (intro a)
    | with_reducible apply Keeps.doApply

theorem Keeps.doBuild {s₀ s : State} (hk : Keeps s₀ s) : Keeps s₀ (State.doBuild s) := by
  unfold State.doBuild
  repeat' first
    | with_reducible assumption
    | with_reducible apply Keeps.wr
    | with_reducible rfl
    | ((conv => arg 2; arg 23); with_reducible apply Keeps.lit)

theorem Keeps.execBuild {s₀ s : State} (hk : Keeps s₀ s) : ∀ nx, Machine.execBuild s = .next nx → Keeps s₀ nx := by
  intro nx e
  unfold Machine.execBuild at e
  refine Keeps.hostRow hk _ _ ?_ nx e
  repeat' first
    | with_reducible assumption
    | (intro a)
    | with_reducible apply Keeps.doBuild

theorem Keeps.execBundleComplete {s₀ s : State} (hk : Keeps s₀ s) :
    ∀ nx, Machine.execBundleComplete s = .next nx → Keeps s₀ nx := by
  intro nx e
  unfold Machine.execBundleComplete at e
  refine Keeps.settled ?_ nx e
  repeat' first
    | with_reducible assumption
    | with_reducible apply Keeps.cmdDone
    | with_reducible apply Keeps.wr
    | with_reducible rfl
    | ((conv => arg 2; arg 23); with_reducible apply Keeps.lit)
    | with_reducible apply Keeps.ite

/-! ### Sys2Proof/Machine/CaravanRows.lean -/

theorem Keeps.carAct {s₀ s : State} (hk : Keeps s₀ s) (c : Nat) (act : State → State) (hact : ∀ x, Keeps s₀ x → Keeps s₀
    (act x)) :
    Keeps s₀ (State.carAct s c act) := by
  unfold State.carAct
  repeat' first
    | with_reducible assumption
    | with_reducible apply hact
    | with_reducible apply Keeps.ite

theorem Keeps.execCarDnext {s₀ s : State} (hk : Keeps s₀ s) (c : Nat) (a : Nat) :
    ∀ nx, Machine.execCarDnext c a s = .next nx → Keeps s₀ nx := by
  intro nx e
  unfold Machine.execCarDnext at e
  refine Keeps.hostRow hk _ _ ?_ nx e
  repeat' first
    | with_reducible assumption
    | (intro a)
    | with_reducible apply Keeps.carAct
    | with_reducible apply Keeps.carDnext

theorem Keeps.execGo {s₀ s : State} (hk : Keeps s₀ s) (c : Nat) : ∀ nx, Machine.execGo c s = .next nx → Keeps s₀ nx := by
  intro nx e
  unfold Machine.execGo at e
  refine Keeps.hostRow hk _ _ ?_ nx e
  repeat' first
    | with_reducible assumption
    | (intro a)
    | with_reducible apply Keeps.carAct
    | with_reducible apply Keeps.carGo

theorem Keeps.execPause {s₀ s : State} (hk : Keeps s₀ s) (c : Nat) :
    ∀ nx, Machine.execPause c s = .next nx → Keeps s₀ nx := by
  intro nx e
  unfold Machine.execPause at e
  refine Keeps.hostRow hk _ _ ?_ nx e
  repeat' first
    | with_reducible assumption
    | (intro a)
    | with_reducible apply Keeps.carAct
    | with_reducible apply Keeps.carPause

theorem Keeps.execAbort {s₀ s : State} (hk : Keeps s₀ s) (c : Nat) :
    ∀ nx, Machine.execAbort c s = .next nx → Keeps s₀ nx := by
  intro nx e
  unfold Machine.execAbort at e
  refine Keeps.hostRow hk _ _ ?_ nx e
  repeat' first
    | with_reducible assumption
    | (intro a)
    | with_reducible apply Keeps.carAct
    | with_reducible apply Keeps.carAbort

theorem Keeps.execSetd {s₀ s : State} (hk : Keeps s₀ s) (c : Nat) (a : Nat) :
    ∀ nx, Machine.execSetd c a s = .next nx → Keeps s₀ nx := by
  intro nx e
  unfold Machine.execSetd at e
  refine Keeps.settled ?_ nx e
  repeat' first
    | with_reducible assumption
    | with_reducible apply Keeps.carDnext
    | with_reducible apply Keeps.ite

theorem Keeps.carFetch {s₀ s : State} (hk : Keeps s₀ s) (c : Nat) : Keeps s₀ (State.carFetch s c) := by
  unfold State.carFetch
  repeat' first
    | with_reducible assumption
    | with_reducible apply Keeps.engAskRanges
    | with_reducible apply Keeps.carRead
    | with_reducible apply Keeps.engForget
    | with_reducible apply Keeps.carHalt
    | with_reducible apply Keeps.setChan
    | with_reducible apply Keeps.wr
    | with_reducible apply Keeps.bump
    | with_reducible apply Keeps.carStatus
    | with_reducible apply Keeps.carAsk
    | with_reducible apply Keeps.ite
    | (extract_lets +onlyGivenNames x; refine (fun (hx : Keeps s₀ x) => ?_) ?_;
       (on_goal 2 => (unfold x; clear x)); (on_goal 1 => ((try clear_value x); revert x; intro w hw)))
    | (extract_lets +onlyGivenNames x; refine (fun (hx : Keeps s₀ x.2) => ?_) ?_;
       (on_goal 2 => (unfold x; clear x)); (on_goal 1 => ((try clear_value x); revert x; intro w hw)))
    | (extract_lets +onlyGivenNames x; clear_value x; revert x; intro w)
    | split

theorem Keeps.execDescriptorFetch {s₀ s : State} (hk : Keeps s₀ s) (c : Nat) :
    ∀ nx, Machine.execDescriptorFetch c s = .next nx → Keeps s₀ nx := by
  intro nx e
  unfold Machine.execDescriptorFetch at e
  refine Keeps.settled ?_ nx e
  repeat' first
    | with_reducible assumption
    | with_reducible apply Keeps.carFetch
    | with_reducible apply Keeps.ite

theorem Keeps.execChannelAccessTimeout {s₀ s : State} (hk : Keeps s₀ s) (c : Nat) :
    ∀ nx, Machine.execChannelAccessTimeout c s = .next nx → Keeps s₀ nx := by
  intro nx e
  unfold Machine.execChannelAccessTimeout at e
  refine Keeps.settled ?_ nx e
  repeat' first
    | with_reducible assumption
    | with_reducible apply Keeps.carTimeout
    | with_reducible apply Keeps.ite

theorem Keeps.execDescriptorEnd {s₀ s : State} (hk : Keeps s₀ s) (c : Nat) :
    ∀ nx, Machine.execDescriptorEnd c s = .next nx → Keeps s₀ nx := by
  intro nx e
  unfold Machine.execDescriptorEnd at e
  refine Keeps.settled ?_ nx e
  repeat' first
    | with_reducible assumption
    | with_reducible apply Keeps.carRun
    | with_reducible apply Keeps.carEndDesc
    | with_reducible apply Keeps.engForget
    | with_reducible apply Keeps.ite

theorem Keeps.carCommit {s₀ s : State} (hk : Keeps s₀ s) (c : Nat) (next : State → State)
    (hnext : ∀ x, Keeps s₀ x → Keeps s₀ (next x)) :
    Keeps s₀ (State.carCommit s c next) := by
  unfold State.carCommit
  repeat' first
    | with_reducible assumption
    | with_reducible apply hnext
    | with_reducible apply Keeps.carHalt
    | with_reducible apply Keeps.carTell
    | split

theorem Keeps.execDescriptorCommit {s₀ s : State} (hk : Keeps s₀ s) (c : Nat) :
    ∀ nx, Machine.execDescriptorCommit c s = .next nx → Keeps s₀ nx := by
  intro nx e
  unfold Machine.execDescriptorCommit at e
  refine Keeps.settled ?_ nx e
  repeat' first
    | (dsimp only [id]; assumption)
    | with_reducible assumption
    | (intro a)
    | with_reducible apply Keeps.carCommit
    | with_reducible apply Keeps.carNext
    | with_reducible apply Keeps.ite

theorem Keeps.carPaused {s₀ s : State} (hk : Keeps s₀ s) (c : Nat) : Keeps s₀ (State.carPaused s c) := by
  unfold State.carPaused
  repeat' first
    | with_reducible assumption
    | with_reducible apply Keeps.engForget
    | with_reducible apply Keeps.setCarState
    | with_reducible apply Keeps.setChan
    | with_reducible apply Keeps.ite

theorem Keeps.execDrainEnd {s₀ s : State} (hk : Keeps s₀ s) (c : Nat) (units : Nat) :
    ∀ nx, Machine.execDrainEnd c units s = .next nx → Keeps s₀ nx := by
  intro nx e
  unfold Machine.execDrainEnd at e
  refine Keeps.settled ?_ nx e
  repeat' first
    | with_reducible assumption
    | (intro a)
    | with_reducible apply Keeps.carMove
    | with_reducible apply Keeps.carEndDesc
    | with_reducible apply Keeps.carCommit
    | with_reducible apply Keeps.carPaused
    | with_reducible apply Keeps.ite

theorem Keeps.carAborted {s₀ s : State} (hk : Keeps s₀ s) (c : Nat) : Keeps s₀ (State.carAborted s c) := by
  unfold State.carAborted
  repeat' first
    | with_reducible assumption
    | with_reducible apply Keeps.engForget
    | with_reducible apply Keeps.wr
    | with_reducible apply Keeps.carTell
    | with_reducible apply Keeps.setCarState
    | with_reducible apply Keeps.setChan
    | with_reducible apply Keeps.bump
    | with_reducible apply Keeps.carStatus
    | with_reducible apply Keeps.ite

theorem Keeps.execAbortEnd {s₀ s : State} (hk : Keeps s₀ s) (c : Nat) (units : Nat) :
    ∀ nx, Machine.execAbortEnd c units s = .next nx → Keeps s₀ nx := by
  intro nx e
  unfold Machine.execAbortEnd at e
  refine Keeps.settled ?_ nx e
  repeat' first
    | with_reducible assumption
    | with_reducible apply Keeps.carMove
    | with_reducible apply Keeps.carAborted
    | with_reducible apply Keeps.ite

end Sys2Proof.Laws
end

