-- ==== Sys2Proof/Laws/KeepsDeviceRows.lean ====
section
/-! SUPPORT. What operations keep:
register access, and the commands of the tenant, start-up, clocks, power, the host, the package and the registers. -/

namespace Sys2Proof.Laws

open Sys2Proof Sys2Proof.Machine

/-! ### Sys2Proof/Machine/RegAccess.lean -/

theorem Keeps.clearRc {s₀ s : State} (hk : Keeps s₀ s) (o : Nat) : Keeps s₀ (State.clearRc s o) := by
  unfold State.clearRc
  repeat' first
    | with_reducible assumption
    | (intro a)
    | with_reducible apply Keeps.wr
    | with_reducible apply Keeps.ite
    | with_reducible apply Keeps.foldl

theorem Keeps.read4 {s₀ s : State} (hk : Keeps s₀ s) (o : Nat) : Keeps s₀ (State.read4 s o).2 := by
  unfold State.read4
  repeat' first
    | with_reducible assumption
    | with_reducible apply Keeps.clearRc
    | with_reducible rfl
    | ((conv => arg 2; arg 23); with_reducible apply Keeps.lit)
    | with_reducible apply Keeps.ite2
    | (extract_lets +onlyGivenNames x; refine (fun (hx : Keeps s₀ x) => ?_) ?_;
       (on_goal 2 => (unfold x; clear x)); (on_goal 1 => ((try clear_value x); revert x; intro w hw)))
    | (extract_lets +onlyGivenNames x; clear_value x; revert x; intro w)
    | (dsimp -zeta only)
    | split

theorem Keeps.read8 {s₀ s : State} (hk : Keeps s₀ s) (o : Nat) : Keeps s₀ (State.read8 s o).2 := by
  unfold State.read8
  repeat' first
    | with_reducible assumption
    | with_reducible apply Keeps.clearRc
    | with_reducible apply Keeps.read4
    | with_reducible apply Keeps.ite2

theorem Keeps.fecSense {s₀ s : State} (hk : Keeps s₀ s) (o : Nat) : Keeps s₀ (State.fecSense s o) := by
  unfold State.fecSense
  repeat' first
    | with_reducible assumption
    | (intro a)
    | with_reducible apply Keeps.bumpFree
    | with_reducible apply Keeps.ite
    | with_reducible apply Keeps.foldl

theorem Keeps.readReg {s₀ s : State} (hk : Keeps s₀ s) (o : Nat) (size : Nat) : Keeps s₀ (State.readReg s o size).2 := by
  unfold State.readReg
  repeat' first
    | with_reducible assumption
    | with_reducible apply Keeps.read8
    | with_reducible apply Keeps.fecSense
    | with_reducible apply Keeps.read4
    | with_reducible apply Keeps.ite2

theorem Keeps.putFields {s₀ s : State} (hk : Keeps s₀ s) (o : Nat) (v : Nat) (m : Nat) :
    Keeps s₀ (State.putFields s o v m) := by
  unfold State.putFields
  repeat' first
    | with_reducible assumption
    | (intro a)
    | with_reducible apply Keeps.wr
    | with_reducible apply Keeps.ite
    | with_reducible apply Keeps.foldl

theorem Keeps.putWindow {s₀ s : State} (hk : Keeps s₀ s) (o : Nat) (bs : List Byte) : Keeps s₀ (State.putWindow s o bs) := by
  unfold State.putWindow
  repeat' first
    | with_reducible assumption
    | with_reducible apply Keeps.emit
    | with_reducible rfl
    | ((conv => arg 2; arg 23); with_reducible apply Keeps.lit)
    | with_reducible apply Keeps.ite

/-! ### Sys2Proof/Machine/TenantRows.lean -/

theorem Keeps.setTenant {s₀ s : State} (hk : Keeps s₀ s) (st : Nat) : Keeps s₀ (State.setTenant s st) := by
  unfold State.setTenant
  repeat' first
    | with_reducible assumption
    | with_reducible apply Keeps.irq
    | with_reducible apply Keeps.wr
    | with_reducible apply Keeps.ite

theorem Keeps.tenEnd {s₀ s : State} (hk : Keeps s₀ s) (st : Nat) : Keeps s₀ (State.tenEnd s st) := by
  unfold State.tenEnd
  repeat' first
    | with_reducible assumption
    | with_reducible apply Keeps.cmdDone
    | with_reducible apply Keeps.wr

theorem Keeps.writeEpoch {s₀ s : State} (hk : Keeps s₀ s) (v : Nat) : Keeps s₀ (State.writeEpoch s v) := by
  unfold State.writeEpoch
  repeat' first
    | with_reducible assumption
    | with_reducible apply Keeps.flashRecord

theorem Keeps.leaseAll {s₀ s : State} (hk : Keeps s₀ s) : Keeps s₀ (State.leaseAll s) := by
  unfold State.leaseAll
  repeat' first
    | with_reducible assumption
    | with_reducible rfl
    | ((conv => arg 2; arg 23); with_reducible apply Keeps.lit)
    | (extract_lets +onlyGivenNames x; clear_value x; revert x; intro w)

theorem Keeps.setKeys {s₀ s : State} (hk : Keeps s₀ s) (k : Keys) : Keeps s₀ (State.setKeys s k) := by
  unfold State.setKeys
  exact Keeps.lit hk rfl rfl

theorem Keeps.doAssign {s₀ s : State} (hk : Keeps s₀ s) : Keeps s₀ (State.doAssign s) := by
  unfold State.doAssign
  repeat' first
    | with_reducible assumption
    | with_reducible apply Keeps.tenEnd
    | with_reducible apply Keeps.setKeys
    | with_reducible apply Keeps.leaseAll
    | with_reducible apply Keeps.wr
    | with_reducible apply Keeps.writeEpoch
    | with_reducible apply Keeps.event
    | with_reducible apply Keeps.setTenant
    | with_reducible apply Keeps.ite

theorem Keeps.execAssign {s₀ s : State} (hk : Keeps s₀ s) : ∀ nx, Machine.execAssign s = .next nx → Keeps s₀ nx := by
  intro nx e
  unfold Machine.execAssign at e
  refine Keeps.hostRow hk _ _ ?_ nx e
  repeat' first
    | with_reducible assumption
    | (intro a)
    | with_reducible apply Keeps.doAssign

theorem Keeps.endCommands {s₀ s : State} (hk : Keeps s₀ s) : Keeps s₀ (State.endCommands s) := by
  unfold State.endCommands
  repeat' first
    | with_reducible assumption
    | with_reducible apply Keeps.extEnd
    | with_reducible apply Keeps.cgEnd
    | with_reducible apply Keeps.pubCmdEnd
    | with_reducible apply Keeps.objEnd
    | with_reducible apply Keeps.wr
    | with_reducible apply Keeps.walkEnd
    | with_reducible rfl
    | ((conv => arg 2; arg 23); with_reducible apply Keeps.lit)
    | with_reducible apply Keeps.ite

theorem Keeps.doTeardown {s₀ s : State} (hk : Keeps s₀ s) : Keeps s₀ (State.doTeardown s) := by
  unfold State.doTeardown
  repeat' first
    | with_reducible assumption
    | (intro a)
    | with_reducible apply Keeps.tenEnd
    | with_reducible apply Keeps.setTenant
    | with_reducible apply Keeps.wr
    | with_reducible apply Keeps.event
    | with_reducible apply Keeps.abortOp
    | with_reducible apply Keeps.carAbortAll
    | with_reducible apply Keeps.mirrExtentGone
    | with_reducible apply Keeps.endCommands
    | with_reducible apply Keeps.ite
    | with_reducible apply Keeps.foldl

theorem Keeps.execTeardown {s₀ s : State} (hk : Keeps s₀ s) : ∀ nx, Machine.execTeardown s = .next nx → Keeps s₀ nx := by
  intro nx e
  unfold Machine.execTeardown at e
  refine Keeps.hostRow hk _ _ ?_ nx e
  repeat' first
    | with_reducible assumption
    | (intro a)
    | with_reducible apply Keeps.doTeardown

theorem Keeps.discardAll {s₀ s : State} (hk : Keeps s₀ s) : Keeps s₀ (State.discardAll s) := by
  unfold State.discardAll
  repeat' first
    | with_reducible assumption
    | (intro a)
    | with_reducible apply Keeps.flushOpen
    | with_reducible apply Keeps.hostComplete
    | with_reducible apply Keeps.carAborted
    | with_reducible apply Keeps.freeSlots
    | with_reducible apply Keeps.fromEgress
    | with_reducible apply Keeps.egrFree
    | with_reducible apply Keeps.setDieq
    | with_reducible apply Keeps.setLaunchq
    | with_reducible apply Keeps.bump
    | with_reducible rfl
    | ((conv => arg 2; arg 23); with_reducible apply Keeps.lit)
    | with_reducible apply Keeps.foldl

theorem Keeps.drawKey {s₀ s : State} (hk : Keeps s₀ s) : Keeps s₀ (State.drawKey s) := by
  unfold State.drawKey
  repeat' first
    | with_reducible assumption
    | with_reducible apply Keeps.free
    | with_reducible apply Keeps.setKeys

theorem Keeps.clearOnDie {s₀ s : State} (hk : Keeps s₀ s) : Keeps s₀ (State.clearOnDie s) := by
  unfold State.clearOnDie
  repeat' first
    | with_reducible assumption
    | (intro a)
    | with_reducible apply Keeps.advance
    | with_reducible apply Keeps.wr
    | with_reducible apply Keeps.setChan
    | with_reducible apply Keeps.setDieq
    | with_reducible apply Keeps.setLaunchq
    | with_reducible apply Keeps.rxDrain
    | with_reducible apply Keeps.countNosub
    | with_reducible apply Keeps.accRefresh
    | with_reducible rfl
    | ((conv => arg 2; arg 23); with_reducible apply Keeps.lit)
    | with_reducible apply Keeps.ite
    | with_reducible apply Keeps.foldl

theorem Keeps.scrubStart {s₀ s : State} (hk : Keeps s₀ s) : Keeps s₀ (State.scrubStart s) := by
  unfold State.scrubStart
  repeat' first
    | with_reducible assumption
    | with_reducible apply Keeps.clearOnDie
    | with_reducible apply Keeps.wr

theorem Keeps.eraseKey {s₀ s : State} (hk : Keeps s₀ s) : Keeps s₀ (State.eraseKey s) := by
  unfold State.eraseKey
  repeat' first
    | with_reducible assumption
    | with_reducible apply Keeps.drawKey
    | with_reducible apply Keeps.setKeys
    | with_reducible apply Keeps.event
    | with_reducible apply Keeps.setTenant
    | with_reducible apply Keeps.wr
    | with_reducible apply Keeps.scrubStart
    | with_reducible apply Keeps.ite

theorem Keeps.execTeardownDrainEnd {s₀ s : State} (hk : Keeps s₀ s) :
    ∀ nx, Machine.execTeardownDrainEnd s = .next nx → Keeps s₀ nx := by
  intro nx e
  unfold Machine.execTeardownDrainEnd at e
  refine Keeps.settled ?_ nx e
  repeat' first
    | with_reducible assumption
    | with_reducible apply Keeps.eraseKey
    | with_reducible apply Keeps.ite

theorem Keeps.execTeardownLimit {s₀ s : State} (hk : Keeps s₀ s) :
    ∀ nx, Machine.execTeardownLimit s = .next nx → Keeps s₀ nx := by
  intro nx e
  unfold Machine.execTeardownLimit at e
  refine Keeps.settled ?_ nx e
  repeat' first
    | with_reducible assumption
    | with_reducible apply Keeps.eraseKey
    | with_reducible apply Keeps.discardAll
    | with_reducible apply Keeps.wr
    | with_reducible apply Keeps.ite

theorem Keeps.scrubbed {s₀ s : State} (hk : Keeps s₀ s) : Keeps s₀ (State.scrubbed s) := by
  unfold State.scrubbed
  repeat' first
    | ((conv => arg 2; arg 23); with_reducible apply Keeps.litMem)
    | exact fun _ => ⟨List.Pairwise.nil, by simp⟩
    | with_reducible assumption
    | with_reducible rfl
    | (extract_lets +onlyGivenNames x; clear_value x; revert x; intro w)

theorem Keeps.scrubOver {s₀ s : State} (hk : Keeps s₀ s) : Keeps s₀ (State.scrubOver s) := by
  unfold State.scrubOver
  repeat' first
    | with_reducible assumption
    | with_reducible apply Keeps.wr
    | with_reducible apply Keeps.scrubbed
    | with_reducible apply Keeps.setTenant

theorem Keeps.execTeardownScrubEnd {s₀ s : State} (hk : Keeps s₀ s) :
    ∀ nx, Machine.execTeardownScrubEnd s = .next nx → Keeps s₀ nx := by
  intro nx e
  unfold Machine.execTeardownScrubEnd at e
  refine Keeps.settled ?_ nx e
  repeat' first
    | with_reducible assumption
    | (intro a)
    | with_reducible apply Keeps.wr
    | with_reducible apply Keeps.cmdDone
    | with_reducible apply Keeps.event
    | with_reducible apply Keeps.scrubOver
    | with_reducible apply Keeps.ite
    | with_reducible apply Keeps.foldl

theorem Keeps.doGen {s₀ s : State} (hk : Keeps s₀ s) : Keeps s₀ (State.doGen s) := by
  unfold State.doGen
  repeat' first
    | (extract_lets +onlyGivenNames x; refine (fun (hx : Keeps s₀ x) => ?_) ?_;
       (on_goal 2 => (unfold x; clear x)); (on_goal 1 => (revert x; intro w hw)))
    | (show _ = _; rfl)
    | with_reducible assumption
    | with_reducible apply Keeps.raiseBits
    | with_reducible apply Keeps.wr
    | ((conv => arg 2; arg 23); with_reducible apply Keeps.lit)
    | with_reducible apply Keeps.ite
    | (extract_lets +onlyGivenNames x; clear_value x; revert x; intro w)

theorem Keeps.execGen {s₀ s : State} (hk : Keeps s₀ s) : ∀ nx, Machine.execGen s = .next nx → Keeps s₀ nx := by
  intro nx e
  unfold Machine.execGen at e
  refine Keeps.hostRow hk _ _ ?_ nx e
  repeat' first
    | with_reducible assumption
    | (intro a)
    | with_reducible apply Keeps.doGen

theorem Keeps.execReportSigned {s₀ s : State} (hk : Keeps s₀ s) :
    ∀ nx, Machine.execReportSigned s = .next nx → Keeps s₀ nx := by
  intro nx e
  unfold Machine.execReportSigned at e
  refine Keeps.settled ?_ nx e
  repeat' first
    | with_reducible assumption
    | with_reducible apply Keeps.free
    | with_reducible apply Keeps.cmdDone
    | with_reducible apply Keeps.bump
    | with_reducible apply Keeps.wr
    | with_reducible rfl
    | ((conv => arg 2; arg 23); with_reducible apply Keeps.lit)
    | (extract_lets +onlyGivenNames x; refine (fun (hx : Keeps s₀ x) => ?_) ?_;
       (on_goal 2 => (unfold x; clear x)); (on_goal 1 => ((try clear_value x); revert x; intro w hw)))
    | (extract_lets +onlyGivenNames x; refine (fun (hx : Keeps s₀ x.2) => ?_) ?_;
       (on_goal 2 => (unfold x; clear x)); (on_goal 1 => ((try clear_value x); revert x; intro w hw)))
    | (extract_lets +onlyGivenNames x; have b : Boot := x; clear b; unfold x; clear x)
    | split

theorem Keeps.fwEnd {s₀ s : State} (hk : Keeps s₀ s) (st : Nat) : Keeps s₀ (State.fwEnd s st) := by
  unfold State.fwEnd
  repeat' first
    | with_reducible assumption
    | with_reducible apply Keeps.cmdDone
    | with_reducible apply Keeps.wr

theorem Keeps.setBegun {s₀ s : State} (hk : Keeps s₀ s) (b : Bool) : Keeps s₀ (State.setBegun s b) := by
  unfold State.setBegun
  exact Keeps.lit hk rfl rfl

theorem Keeps.dropCommit {s₀ s : State} (hk : Keeps s₀ s) : Keeps s₀ (State.dropCommit s) := by
  unfold State.dropCommit
  repeat' first
    | with_reducible assumption
    | with_reducible apply Keeps.wr
    | with_reducible apply Keeps.flashWrite

theorem Keeps.doBegin {s₀ s : State} (hk : Keeps s₀ s) : Keeps s₀ (State.doBegin s) := by
  unfold State.doBegin
  repeat' first
    | with_reducible assumption
    | with_reducible apply Keeps.fwEnd
    | with_reducible apply Keeps.setBegun
    | with_reducible apply Keeps.wr
    | with_reducible apply Keeps.dropCommit
    | with_reducible apply Keeps.ite

theorem Keeps.execBegin {s₀ s : State} (hk : Keeps s₀ s) : ∀ nx, Machine.execBegin s = .next nx → Keeps s₀ nx := by
  intro nx e
  unfold Machine.execBegin at e
  refine Keeps.hostRow hk _ _ ?_ nx e
  repeat' first
    | with_reducible assumption
    | (intro a)
    | with_reducible apply Keeps.doBegin

theorem Keeps.doChunk {s₀ s : State} (hk : Keeps s₀ s) : Keeps s₀ (State.doChunk s) := by
  unfold State.doChunk
  repeat' first
    | with_reducible assumption
    | with_reducible apply Keeps.fwEnd
    | with_reducible apply Keeps.wr
    | with_reducible apply Keeps.flashWrite
    | with_reducible apply Keeps.ite

theorem Keeps.execChunk {s₀ s : State} (hk : Keeps s₀ s) : ∀ nx, Machine.execChunk s = .next nx → Keeps s₀ nx := by
  intro nx e
  unfold Machine.execChunk at e
  refine Keeps.hostRow hk _ _ ?_ nx e
  repeat' first
    | with_reducible assumption
    | (intro a)
    | with_reducible apply Keeps.doChunk

theorem Keeps.doFinish {s₀ s : State} (hk : Keeps s₀ s) : Keeps s₀ (State.doFinish s) := by
  unfold State.doFinish
  repeat' first
    | with_reducible assumption
    | with_reducible apply Keeps.fwEnd
    | with_reducible apply Keeps.flashWrite
    | with_reducible apply Keeps.flashErase
    | with_reducible apply Keeps.setBegun
    | with_reducible apply Keeps.wr
    | with_reducible apply Keeps.ite

theorem Keeps.execFinish {s₀ s : State} (hk : Keeps s₀ s) : ∀ nx, Machine.execFinish s = .next nx → Keeps s₀ nx := by
  intro nx e
  unfold Machine.execFinish at e
  refine Keeps.hostRow hk _ _ ?_ nx e
  repeat' first
    | with_reducible assumption
    | (intro a)
    | with_reducible apply Keeps.doFinish

theorem Keeps.doFwCancel {s₀ s : State} (hk : Keeps s₀ s) : Keeps s₀ (State.doFwCancel s) := by
  unfold State.doFwCancel
  repeat' first
    | with_reducible assumption
    | with_reducible apply Keeps.fwEnd
    | with_reducible apply Keeps.setBegun
    | with_reducible apply Keeps.dropCommit

theorem Keeps.execFirmwareCancel {s₀ s : State} (hk : Keeps s₀ s) :
    ∀ nx, Machine.execFirmwareCancel s = .next nx → Keeps s₀ nx := by
  intro nx e
  unfold Machine.execFirmwareCancel at e
  refine Keeps.hostRow hk _ _ ?_ nx e
  repeat' first
    | with_reducible assumption
    | (intro a)
    | with_reducible apply Keeps.doFwCancel

theorem Keeps.doRaise {s₀ s : State} (hk : Keeps s₀ s) : Keeps s₀ (State.doRaise s) := by
  unfold State.doRaise
  dsimp only
  split
  · exact hk.fwEnd _
  · rename_i hv
    apply Keeps.fwEnd
    refine ⟨hk.pending, ?_, ?_, hk.mem⟩
    · have := hk.svn; show _ ≤ s.boot.image.svn; omega
    · show ({ s.boot.fuses with minSvn := s.boot.image.svn } : Fuses) = _
      rw [hk.fuses]

theorem Keeps.execRaiseSvn {s₀ s : State} (hk : Keeps s₀ s) : ∀ nx, Machine.execRaiseSvn s = .next nx → Keeps s₀ nx := by
  intro nx e
  unfold Machine.execRaiseSvn at e
  refine Keeps.hostRow hk _ _ ?_ nx e
  repeat' first
    | with_reducible assumption
    | (intro a)
    | with_reducible apply Keeps.doRaise

/-! ### Sys2Proof/Machine/BootRows.lean -/

theorem Keeps.bootShow {s₀ s : State} (hk : Keeps s₀ s) : Keeps s₀ (State.bootShow s) := by
  unfold State.bootShow
  repeat' first
    | with_reducible assumption
    | with_reducible apply Keeps.wr

theorem Keeps.startUp {s₀ s : State} (hk : Keeps s₀ s) : Keeps s₀ (State.startUp s) := by
  unfold State.startUp
  repeat' first
    | with_reducible assumption
    | with_reducible apply Keeps.bootShow
    | with_reducible apply Keeps.drawKey
    | with_reducible rfl
    | ((conv => arg 2; arg 23); with_reducible apply Keeps.lit)

theorem Keeps.execResetNRelease {s₀ s : State} (hk : Keeps s₀ s) :
    ∀ nx, Machine.execResetNRelease s = .next nx → Keeps s₀ nx := by
  intro nx e
  unfold Machine.execResetNRelease at e
  refine Keeps.settled ?_ nx e
  repeat' first
    | with_reducible assumption
    | with_reducible apply Keeps.startUp
    | with_reducible rfl
    | ((conv => arg 2; arg 23); with_reducible apply Keeps.lit)
    | with_reducible apply Keeps.ite

theorem Keeps.bootStep2 {s₀ s : State} (hk : Keeps s₀ s) : Keeps s₀ (State.bootStep2 s) := by
  unfold State.bootStep2
  repeat' first
    | with_reducible assumption
    | with_reducible apply Keeps.wr
    | with_reducible apply Keeps.event
    | with_reducible rfl
    | ((conv => arg 2; arg 23); with_reducible apply Keeps.lit)
    | (extract_lets +onlyGivenNames x; refine (fun (hx : Keeps s₀ x) => ?_) ?_;
       (on_goal 2 => (unfold x; clear x)); (on_goal 1 => ((try clear_value x); revert x; intro w hw)))
    | (extract_lets +onlyGivenNames x; have b : Boot := x; clear b; unfold x; clear x)
    | (extract_lets +onlyGivenNames x; clear_value x; revert x; intro w)
    | split

theorem Keeps.bootStep3 {s₀ s : State} (hk : Keeps s₀ s) : Keeps s₀ (State.bootStep3 s) := by
  unfold State.bootStep3
  repeat' first
    | with_reducible assumption
    | with_reducible apply Keeps.wr
    | with_reducible apply Keeps.event
    | with_reducible rfl
    | ((conv => arg 2; arg 23); with_reducible apply Keeps.lit)
    | with_reducible apply Keeps.ite
    | (extract_lets +onlyGivenNames x; refine (fun (hx : Keeps s₀ x) => ?_) ?_;
       (on_goal 2 => (unfold x; clear x)); (on_goal 1 => ((try clear_value x); revert x; intro w hw)))
    | (extract_lets +onlyGivenNames x; have b : Boot := x; clear b; unfold x; clear x)
    | (extract_lets +onlyGivenNames x; clear_value x; revert x; intro w)
    | split

theorem Keeps.startRetire {s₀ s : State} (hk : Keeps s₀ s) (d : Nat) (role : Nat) :
    Keeps s₀ (State.startRetire s d role) := by
  unfold State.startRetire
  repeat' first
    | with_reducible assumption
    | (intro a)
    | with_reducible apply Keeps.wr
    | with_reducible apply Keeps.passSlot
    | with_reducible apply Keeps.lowCheck
    | with_reducible apply Keeps.rgfSummary
    | with_reducible apply Keeps.ite
    | with_reducible apply Keeps.foldl
    | (dsimp -zeta only)
    | split

theorem Keeps.applyRmap {s₀ s : State} (hk : Keeps s₀ s) (r : List Byte) : Keeps s₀ (State.applyRmap s r) := by
  unfold State.applyRmap
  repeat' first
    | with_reducible assumption
    | with_reducible apply Keeps.wr
    | with_reducible apply Keeps.startRetire
    | with_reducible apply Keeps.setDegraded
    | with_reducible rfl
    | ((conv => arg 2; arg 23); with_reducible apply Keeps.lit)
    | with_reducible apply Keeps.ite

theorem Keeps.applyRmapAll {s₀ s : State} (hk : Keeps s₀ s) : Keeps s₀ (State.applyRmapAll s) := by
  unfold State.applyRmapAll
  repeat' first
    | with_reducible assumption
    | (intro a)
    | with_reducible apply Keeps.capRefresh
    | with_reducible apply Keeps.applyRmap
    | with_reducible apply Keeps.foldl

theorem Keeps.loadPort {s₀ s : State} (hk : Keeps s₀ s) (x : PMap) : Keeps s₀ (State.loadPort s x) := by
  unfold State.loadPort
  repeat' first
    | with_reducible assumption
    | (intro a)
    | with_reducible apply Keeps.wr
    | with_reducible apply Keeps.ite
    | with_reducible apply Keeps.foldl

theorem Keeps.loadReg {s₀ s : State} (hk : Keeps s₀ s) (o : Nat) (v : Nat) : Keeps s₀ (State.loadReg s o v) := by
  unfold State.loadReg
  repeat' first
    | with_reducible assumption
    | with_reducible apply Keeps.mirrCtl
    | with_reducible apply Keeps.putFields
    | with_reducible apply Keeps.ite
    | split

theorem Keeps.loadConfig {s₀ s : State} (hk : Keeps s₀ s) : Keeps s₀ (State.loadConfig s) := by
  unfold State.loadConfig
  repeat' first
    | with_reducible assumption
    | (intro a)
    | with_reducible apply Keeps.loadPort
    | with_reducible apply Keeps.wr
    | with_reducible apply Keeps.loadReg
    | with_reducible apply Keeps.capRefresh
    | with_reducible apply Keeps.tmApplyAll
    | with_reducible rfl
    | ((conv => arg 2; arg 23); with_reducible apply Keeps.lit)
    | with_reducible apply Keeps.foldl

theorem Keeps.trainAll {s₀ s : State} (hk : Keeps s₀ s) : Keeps s₀ (State.trainAll s) := by
  unfold State.trainAll
  repeat' first
    | with_reducible assumption
    | (intro a)
    | with_reducible apply Keeps.setLstate
    | with_reducible apply Keeps.ite
    | with_reducible apply Keeps.foldl

theorem Keeps.stepEnded {s₀ s : State} (hk : Keeps s₀ s) (n : Nat) : Keeps s₀ (State.stepEnded s n) := by
  unfold State.stepEnded
  repeat' first
    | with_reducible assumption
    | with_reducible apply Keeps.bootShow
    | with_reducible apply Keeps.wr
    | with_reducible rfl
    | ((conv => arg 2; arg 23); with_reducible apply Keeps.lit)

theorem Keeps.bootReady {s₀ s : State} (hk : Keeps s₀ s) : Keeps s₀ (State.bootReady s) := by
  unfold State.bootReady
  repeat' first
    | with_reducible assumption
    | with_reducible apply Keeps.irq
    | with_reducible apply Keeps.event
    | with_reducible apply Keeps.wr
    | with_reducible apply Keeps.ite

theorem Keeps.raiseList {s₀ s : State} (hk : Keeps s₀ s) (l : List StandingFault) : Keeps s₀ (State.raiseList s l) := by
  unfold State.raiseList
  repeat' first
    | with_reducible assumption
    | (intro a)
    | with_reducible apply Keeps.selfTestFail
    | with_reducible apply Keeps.foldl

theorem Keeps.bootStep {s₀ s : State} (hk : Keeps s₀ s) (n : Nat) (ok : Bool) (failed : List StandingFault) :
    Keeps s₀ (State.bootStep s n ok failed) := by
  unfold State.bootStep
  repeat' first
    | with_reducible assumption
    | with_reducible apply Keeps.stepEnded
    | with_reducible apply Keeps.bootStep2
    | with_reducible apply Keeps.bootStep3
    | with_reducible apply Keeps.irq
    | with_reducible apply Keeps.event
    | with_reducible apply Keeps.wr
    | with_reducible apply Keeps.raiseList
    | with_reducible apply Keeps.applyRmapAll
    | with_reducible apply Keeps.bootReady
    | with_reducible apply Keeps.trainAll
    | with_reducible apply Keeps.loadConfig
    | with_reducible apply Keeps.scrubOver
    | with_reducible apply Keeps.ite

theorem Keeps.execStartupStepEnd {s₀ s : State} (hk : Keeps s₀ s) (step : Nat) (ok : Bool) (failed : List StandingFault) :
    ∀ nx, Machine.execStartupStepEnd step ok failed s = .next nx → Keeps s₀ nx := by
  intro nx e
  unfold Machine.execStartupStepEnd at e
  refine Keeps.settled ?_ nx e
  repeat' first
    | with_reducible assumption
    | with_reducible apply Keeps.bootStep
    | with_reducible apply Keeps.ite

theorem Keeps.calEnd {s₀ s : State} (hk : Keeps s₀ s) (st : Nat) : Keeps s₀ (State.calEnd s st) := by
  unfold State.calEnd
  repeat' first
    | with_reducible assumption
    | with_reducible apply Keeps.cmdDone
    | with_reducible apply Keeps.wr

theorem Keeps.calErase {s₀ s : State} (hk : Keeps s₀ s) : Keeps s₀ (State.calErase s) := by
  unfold State.calErase
  repeat' first
    | with_reducible assumption
    | with_reducible apply Keeps.wr
    | with_reducible apply Keeps.flashErase

theorem Keeps.setCalBegun {s₀ s : State} (hk : Keeps s₀ s) (b : Bool) : Keeps s₀ (State.setCalBegun s b) := by
  unfold State.setCalBegun
  exact Keeps.lit hk rfl rfl

theorem Keeps.doCalBegin {s₀ s : State} (hk : Keeps s₀ s) : Keeps s₀ (State.doCalBegin s) := by
  unfold State.doCalBegin
  repeat' first
    | with_reducible assumption
    | with_reducible apply Keeps.calEnd
    | with_reducible apply Keeps.setCalBegun
    | with_reducible apply Keeps.wr
    | with_reducible apply Keeps.calErase
    | with_reducible apply Keeps.ite

theorem Keeps.execCalBegin {s₀ s : State} (hk : Keeps s₀ s) : ∀ nx, Machine.execCalBegin s = .next nx → Keeps s₀ nx := by
  intro nx e
  unfold Machine.execCalBegin at e
  refine Keeps.hostRow hk _ _ ?_ nx e
  repeat' first
    | with_reducible assumption
    | (intro a)
    | with_reducible apply Keeps.doCalBegin

theorem Keeps.doCalChunk {s₀ s : State} (hk : Keeps s₀ s) : Keeps s₀ (State.doCalChunk s) := by
  unfold State.doCalChunk
  repeat' first
    | with_reducible assumption
    | with_reducible apply Keeps.calEnd
    | with_reducible apply Keeps.wr
    | with_reducible apply Keeps.flashWrite
    | with_reducible apply Keeps.ite

theorem Keeps.execCalChunk {s₀ s : State} (hk : Keeps s₀ s) : ∀ nx, Machine.execCalChunk s = .next nx → Keeps s₀ nx := by
  intro nx e
  unfold Machine.execCalChunk at e
  refine Keeps.hostRow hk _ _ ?_ nx e
  repeat' first
    | with_reducible assumption
    | (intro a)
    | with_reducible apply Keeps.doCalChunk

theorem Keeps.doCalCommit {s₀ s : State} (hk : Keeps s₀ s) : Keeps s₀ (State.doCalCommit s) := by
  unfold State.doCalCommit
  repeat' first
    | with_reducible assumption
    | with_reducible apply Keeps.calEnd
    | with_reducible apply Keeps.setCalBegun
    | with_reducible apply Keeps.wr
    | with_reducible apply Keeps.flashWrite
    | with_reducible apply Keeps.ite

theorem Keeps.execCalCommit {s₀ s : State} (hk : Keeps s₀ s) : ∀ nx, Machine.execCalCommit s = .next nx → Keeps s₀ nx := by
  intro nx e
  unfold Machine.execCalCommit at e
  refine Keeps.hostRow hk _ _ ?_ nx e
  repeat' first
    | with_reducible assumption
    | (intro a)
    | with_reducible apply Keeps.doCalCommit

theorem Keeps.doCapture {s₀ s : State} (hk : Keeps s₀ s) (trained : List Byte) : Keeps s₀ (State.doCapture s trained) := by
  unfold State.doCapture
  repeat' first
    | with_reducible assumption
    | with_reducible apply Keeps.calEnd
    | with_reducible apply Keeps.wr
    | with_reducible apply Keeps.flashWrite
    | with_reducible apply Keeps.calErase
    | with_reducible apply Keeps.ite

theorem Keeps.execCapture {s₀ s : State} (hk : Keeps s₀ s) (trained : List Byte) :
    ∀ nx, Machine.execCapture trained s = .next nx → Keeps s₀ nx := by
  intro nx e
  unfold Machine.execCapture at e
  refine Keeps.hostRow hk _ _ ?_ nx e
  repeat' first
    | with_reducible assumption
    | (intro a)
    | with_reducible apply Keeps.doCapture

/-! ### Sys2Proof/Machine/ClockRows.lean -/

theorem Keeps.setClk {s₀ s : State} (hk : Keeps s₀ s) (c : Clock) : Keeps s₀ (State.setClk s c) := by
  unfold State.setClk
  exact Keeps.lit hk rfl rfl

theorem Keeps.pulse {s₀ s : State} (hk : Keeps s₀ s) : Keeps s₀ (State.pulse s) := by
  unfold State.pulse
  repeat' first
    | with_reducible assumption
    | with_reducible apply Keeps.emit
    | with_reducible apply Keeps.ite

theorem Keeps.holdDown {s₀ s : State} (hk : Keeps s₀ s) : Keeps s₀ (State.holdDown s) := by
  unfold State.holdDown
  repeat' first
    | with_reducible assumption
    | (intro a)
    | with_reducible apply Keeps.lower
    | with_reducible apply Keeps.ite
    | with_reducible apply Keeps.foldl

theorem Keeps.flapWindows {s₀ s : State} (hk : Keeps s₀ s) : Keeps s₀ (State.flapWindows s) := by
  unfold State.flapWindows
  repeat' first
    | with_reducible assumption
    | (intro a)
    | with_reducible apply Keeps.wr
    | with_reducible apply Keeps.ite
    | with_reducible apply Keeps.foldl

theorem Keeps.throttleCount {s₀ s : State} (hk : Keeps s₀ s) : Keeps s₀ (State.throttleCount s) := by
  unfold State.throttleCount
  repeat' first
    | with_reducible assumption
    | with_reducible apply Keeps.bump
    | with_reducible rfl
    | ((conv => arg 2; arg 23); with_reducible apply Keeps.lit)
    | with_reducible apply Keeps.ite
    | (extract_lets +onlyGivenNames x; refine (fun (hx : Keeps s₀ x) => ?_) ?_;
       (on_goal 2 => (unfold x; clear x)); (on_goal 1 => ((try clear_value x); revert x; intro w hw)))

theorem Keeps.newEpoch {s₀ s : State} (hk : Keeps s₀ s) (hold : Bool) (len : Option Nat) :
    Keeps s₀ (State.newEpoch s hold len) := by
  unfold State.newEpoch
  repeat' first
    | with_reducible assumption
    | with_reducible apply Keeps.setClk
    | with_reducible apply Keeps.advance
    | with_reducible apply Keeps.flapWindows
    | with_reducible apply Keeps.holdDown
    | with_reducible apply Keeps.halveHeat
    | with_reducible apply Keeps.throttleCount
    | with_reducible apply Keeps.tmSample
    | with_reducible apply Keeps.tmBoundary
    | with_reducible apply Keeps.ite

theorem Keeps.execSubtick {s₀ s : State} (hk : Keeps s₀ s) : ∀ nx, Machine.execSubtick s = .next nx → Keeps s₀ nx := by
  intro nx e
  unfold Machine.execSubtick at e
  refine Keeps.settled ?_ nx e
  repeat' first
    | with_reducible assumption
    | with_reducible apply Keeps.setClk
    | with_reducible apply Keeps.tmBoundary
    | with_reducible apply Keeps.ite

theorem Keeps.enterHoldover {s₀ s : State} (hk : Keeps s₀ s) (cause : Nat) : Keeps s₀ (State.enterHoldover s cause) := by
  unfold State.enterHoldover
  repeat' first
    | with_reducible assumption
    | with_reducible apply Keeps.bump
    | with_reducible apply Keeps.wr
    | with_reducible apply Keeps.setClk
    | with_reducible apply Keeps.irq
    | with_reducible apply Keeps.event

theorem Keeps.lockTest {s₀ s : State} (hk : Keeps s₀ s) (gap : Nat) : Keeps s₀ (State.lockTest s gap) := by
  unfold State.lockTest
  repeat' first
    | with_reducible assumption
    | with_reducible apply Keeps.setClk
    | with_reducible apply Keeps.wr
    | with_reducible apply Keeps.event
    | with_reducible apply Keeps.ite

theorem Keeps.relockEdge {s₀ s : State} (hk : Keeps s₀ s) (int : Nat) : Keeps s₀ (State.relockEdge s int) := by
  unfold State.relockEdge
  repeat' first
    | with_reducible assumption
    | with_reducible apply Keeps.setClk
    | with_reducible apply Keeps.event
    | with_reducible apply Keeps.newEpoch
    | with_reducible apply Keeps.wr
    | with_reducible apply Keeps.pulse
    | with_reducible apply Keeps.irq

theorem Keeps.lockedEdge {s₀ s : State} (hk : Keeps s₀ s) (int : Nat) : Keeps s₀ (State.lockedEdge s int) := by
  unfold State.lockedEdge
  repeat' first
    | with_reducible assumption
    | with_reducible apply Keeps.setClk
    | with_reducible apply Keeps.bump
    | with_reducible apply Keeps.wr
    | with_reducible apply Keeps.pulse
    | with_reducible apply Keeps.newEpoch
    | with_reducible apply Keeps.enterHoldover
    | with_reducible apply Keeps.ite

theorem Keeps.execEpochIn {s₀ s : State} (hk : Keeps s₀ s) (highNs : Nat) (gap16 : Nat) (int16 : Nat) :
    ∀ nx, Machine.execEpochIn highNs gap16 int16 s = .next nx → Keeps s₀ nx := by
  intro nx e
  unfold Machine.execEpochIn at e
  refine Keeps.settled ?_ nx e
  repeat' first
    | with_reducible assumption
    | with_reducible apply Keeps.bump
    | with_reducible apply Keeps.relockEdge
    | with_reducible apply Keeps.lockedEdge
    | with_reducible apply Keeps.lockTest
    | with_reducible apply Keeps.ite

theorem Keeps.execEpochBoundary {s₀ s : State} (hk : Keeps s₀ s) :
    ∀ nx, Machine.execEpochBoundary s = .next nx → Keeps s₀ nx := by
  intro nx e
  unfold Machine.execEpochBoundary at e
  refine Keeps.settled ?_ nx e
  repeat' first
    | with_reducible assumption
    | with_reducible apply Keeps.enterHoldover
    | with_reducible apply Keeps.newEpoch
    | with_reducible apply Keeps.pulse
    | with_reducible apply Keeps.bump
    | with_reducible apply Keeps.setClk
    | with_reducible apply Keeps.ite

theorem Keeps.execEpochLoss {s₀ s : State} (hk : Keeps s₀ s) : ∀ nx, Machine.execEpochLoss s = .next nx → Keeps s₀ nx := by
  intro nx e
  unfold Machine.execEpochLoss at e
  refine Keeps.settled ?_ nx e
  repeat' first
    | with_reducible assumption
    | with_reducible apply Keeps.newEpoch
    | with_reducible apply Keeps.enterHoldover
    | with_reducible apply Keeps.setClk
    | with_reducible apply Keeps.pulse
    | with_reducible apply Keeps.ite

theorem Keeps.execRefclk {s₀ s : State} (hk : Keeps s₀ s) (n : Nat) (present : Bool) :
    ∀ nx, Machine.execRefclk n present s = .next nx → Keeps s₀ nx := by
  intro nx e
  unfold Machine.execRefclk at e
  refine Keeps.settled ?_ nx e
  repeat' first
    | with_reducible assumption
    | with_reducible rfl
    | ((conv => arg 2; arg 23); with_reducible apply Keeps.lit)
    | with_reducible apply Keeps.ite
    | (extract_lets +onlyGivenNames x; clear_value x; revert x; intro w)

/-! ### Sys2Proof/Machine/PowerRows.lean -/

theorem Keeps.toReset {s₀ s : State} (hk : Keeps s₀ s) : Keeps s₀ (State.toReset s) := by
  unfold State.toReset
  exact Keeps.litMem hk rfl fun _ => ⟨List.Pairwise.nil, by simp [State.reset]⟩

theorem Keeps.toOff {s₀ s : State} (hk : Keeps s₀ s) : Keeps s₀ (State.toOff s) := by
  unfold State.toOff
  repeat' first
    | with_reducible assumption
    | with_reducible apply Keeps.toReset
    | with_reducible rfl
    | ((conv => arg 2; arg 23); with_reducible apply Keeps.lit)
    | (extract_lets +onlyGivenNames x; refine (fun (hx : Keeps s₀ x) => ?_) ?_;
       (on_goal 2 => (unfold x; clear x)); (on_goal 1 => ((try clear_value x); revert x; intro w hw)))

theorem Keeps.pwrEnd {s₀ s : State} (hk : Keeps s₀ s) (st : Nat) (reason : Nat) : Keeps s₀ (State.pwrEnd s st reason) := by
  unfold State.pwrEnd
  repeat' first
    | with_reducible assumption
    | with_reducible apply Keeps.cmdDone
    | with_reducible apply Keeps.wr

theorem Keeps.setPower {s₀ s : State} (hk : Keeps s₀ s) (p : Power) : Keeps s₀ (State.setPower s p) := by
  unfold State.setPower
  exact Keeps.lit hk rfl rfl

theorem Keeps.lanesDown {s₀ s : State} (hk : Keeps s₀ s) : Keeps s₀ (State.lanesDown s) := by
  unfold State.lanesDown
  repeat' first
    | with_reducible assumption
    | (intro a)
    | with_reducible apply Keeps.downQuiet
    | with_reducible apply Keeps.abortOp
    | with_reducible apply Keeps.stopSchedule
    | with_reducible apply Keeps.carAbortAll
    | with_reducible apply Keeps.ite
    | with_reducible apply Keeps.foldl

theorem Keeps.scanWorked {s₀ s : State} (hk : Keeps s₀ s) : Keeps s₀ (State.scanWorked s) := by
  unfold State.scanWorked
  repeat' first
    | with_reducible assumption
    | (intro a)
    | with_reducible apply Keeps.makeDue
    | with_reducible apply Keeps.ite
    | with_reducible apply Keeps.foldl

theorem Keeps.enterLow {s₀ s : State} (hk : Keeps s₀ s) (t : Nat) : Keeps s₀ (State.enterLow s t) := by
  unfold State.enterLow
  repeat' first
    | with_reducible assumption
    | with_reducible apply Keeps.wr
    | with_reducible apply Keeps.setPower
    | with_reducible apply Keeps.lanesDown
    | with_reducible apply Keeps.scanWorked
    | with_reducible apply Keeps.ite

theorem Keeps.pwrCmd {s₀ s : State} (hk : Keeps s₀ s) (t : Nat) : Keeps s₀ (State.pwrCmd s t) := by
  unfold State.pwrCmd
  repeat' first
    | with_reducible assumption
    | with_reducible apply Keeps.raiseBits
    | with_reducible apply Keeps.free
    | with_reducible apply Keeps.setPower
    | with_reducible apply Keeps.bump
    | with_reducible apply Keeps.pwrEnd
    | with_reducible apply Keeps.wake
    | with_reducible apply Keeps.wr
    | with_reducible apply Keeps.toOff
    | with_reducible apply Keeps.enterLow
    | with_reducible apply Keeps.ite

theorem Keeps.execRun {s₀ s : State} (hk : Keeps s₀ s) : ∀ nx, Machine.execRun s = .next nx → Keeps s₀ nx := by
  intro nx e
  unfold Machine.execRun at e
  refine Keeps.hostRow hk _ _ ?_ nx e
  repeat' first
    | with_reducible assumption
    | (intro a)
    | with_reducible apply Keeps.pwrCmd

theorem Keeps.execIdle {s₀ s : State} (hk : Keeps s₀ s) : ∀ nx, Machine.execIdle s = .next nx → Keeps s₀ nx := by
  intro nx e
  unfold Machine.execIdle at e
  refine Keeps.hostRow hk _ _ ?_ nx e
  repeat' first
    | with_reducible assumption
    | (intro a)
    | with_reducible apply Keeps.pwrCmd

theorem Keeps.execSleep {s₀ s : State} (hk : Keeps s₀ s) : ∀ nx, Machine.execSleep s = .next nx → Keeps s₀ nx := by
  intro nx e
  unfold Machine.execSleep at e
  refine Keeps.hostRow hk _ _ ?_ nx e
  repeat' first
    | with_reducible assumption
    | (intro a)
    | with_reducible apply Keeps.pwrCmd

theorem Keeps.execDsleep {s₀ s : State} (hk : Keeps s₀ s) : ∀ nx, Machine.execDsleep s = .next nx → Keeps s₀ nx := by
  intro nx e
  unfold Machine.execDsleep at e
  refine Keeps.hostRow hk _ _ ?_ nx e
  repeat' first
    | with_reducible assumption
    | (intro a)
    | with_reducible apply Keeps.pwrCmd

theorem Keeps.execOff {s₀ s : State} (hk : Keeps s₀ s) : ∀ nx, Machine.execOff s = .next nx → Keeps s₀ nx := by
  intro nx e
  unfold Machine.execOff at e
  refine Keeps.hostRow hk _ _ ?_ nx e
  repeat' first
    | with_reducible assumption
    | (intro a)
    | with_reducible apply Keeps.pwrCmd

theorem Keeps.execPmeTurnOff {s₀ s : State} (hk : Keeps s₀ s) : ∀ nx, Machine.execPmeTurnOff s = .next nx → Keeps s₀ nx := by
  intro nx e
  unfold Machine.execPmeTurnOff at e
  refine Keeps.settled ?_ nx e
  repeat' first
    | with_reducible assumption
    | with_reducible apply Keeps.emit
    | with_reducible apply Keeps.setPower
    | with_reducible apply Keeps.ite

theorem Keeps.loseVolatile {s₀ s : State} (hk : Keeps s₀ s) : Keeps s₀ (State.loseVolatile s) := by
  unfold State.loseVolatile
  repeat' first
    | with_reducible assumption
    | (intro a)
    | with_reducible apply Keeps.wr
    | with_reducible rfl
    | ((conv => arg 2; arg 23); with_reducible apply Keeps.lit)
    | with_reducible apply Keeps.foldl

theorem Keeps.entryDoneAt {s₀ s : State} (hk : Keeps s₀ s) (t : Nat) : Keeps s₀ (State.entryDoneAt s t) := by
  unfold State.entryDoneAt
  repeat' first
    | with_reducible assumption
    | (intro a)
    | with_reducible apply Keeps.setPower
    | with_reducible apply Keeps.loseVolatile
    | with_reducible apply Keeps.irq
    | with_reducible apply Keeps.cmdDone
    | with_reducible apply Keeps.wr
    | with_reducible apply Keeps.wake
    | with_reducible apply Keeps.ite
    | with_reducible apply Keeps.foldl

theorem Keeps.execEntryComplete {s₀ s : State} (hk : Keeps s₀ s) :
    ∀ nx, Machine.execEntryComplete s = .next nx → Keeps s₀ nx := by
  intro nx e
  unfold Machine.execEntryComplete at e
  refine Keeps.settled ?_ nx e
  repeat' first
    | with_reducible assumption
    | with_reducible apply Keeps.entryDoneAt
    | with_reducible apply Keeps.ite
    | split

theorem Keeps.levelEvent {s₀ s : State} (hk : Keeps s₀ s) (b : Nat) : Keeps s₀ (State.levelEvent s b) := by
  unfold State.levelEvent
  repeat' first
    | with_reducible assumption
    | with_reducible apply Keeps.setPower
    | with_reducible apply Keeps.wake
    | with_reducible apply Keeps.ite

theorem Keeps.wakeOff {s₀ s : State} (hk : Keeps s₀ s) : Keeps s₀ (State.wakeOff s) := by
  unfold State.wakeOff
  repeat' first
    | with_reducible assumption
    | with_reducible apply Keeps.startUp
    | with_reducible apply Keeps.setPower
    | with_reducible apply Keeps.ite

theorem Keeps.wakeTaken {s₀ s : State} (hk : Keeps s₀ s) : Keeps s₀ (State.wakeTaken s) := by
  unfold State.wakeTaken
  repeat' first
    | with_reducible assumption
    | with_reducible apply Keeps.setPower
    | with_reducible apply Keeps.wakeOff
    | with_reducible apply Keeps.levelEvent
    | with_reducible apply Keeps.ite

theorem Keeps.execWakeN {s₀ s : State} (hk : Keeps s₀ s) (ns : Nat) :
    ∀ nx, Machine.execWakeN ns s = .next nx → Keeps s₀ nx := by
  intro nx e
  unfold Machine.execWakeN at e
  refine Keeps.settled ?_ nx e
  repeat' first
    | with_reducible assumption
    | with_reducible apply Keeps.bump
    | with_reducible apply Keeps.wakeTaken
    | with_reducible apply Keeps.free
    | with_reducible apply Keeps.ite

theorem Keeps.execWakeNHigh {s₀ s : State} (hk : Keeps s₀ s) (ns : Nat) :
    ∀ nx, Machine.execWakeNHigh ns s = .next nx → Keeps s₀ nx := by
  intro nx e
  unfold Machine.execWakeNHigh at e
  refine Keeps.settled ?_ nx e
  repeat' first
    | with_reducible assumption
    | with_reducible apply Keeps.setPower
    | with_reducible apply Keeps.ite

theorem Keeps.execTimerWake {s₀ s : State} (hk : Keeps s₀ s) : ∀ nx, Machine.execTimerWake s = .next nx → Keeps s₀ nx := by
  intro nx e
  unfold Machine.execTimerWake at e
  refine Keeps.settled ?_ nx e
  repeat' first
    | with_reducible assumption
    | with_reducible apply Keeps.levelEvent
    | with_reducible apply Keeps.ite

theorem Keeps.skipEpochs {s₀ s : State} (hk : Keeps s₀ s) (d : Nat) : Keeps s₀ (State.skipEpochs s d) := by
  unfold State.skipEpochs
  repeat' first
    | with_reducible assumption
    | with_reducible rfl
    | ((conv => arg 2; arg 23); with_reducible apply Keeps.lit)
    | (extract_lets +onlyGivenNames x; clear_value x; revert x; intro w)

theorem Keeps.coolMissed {s₀ s : State} (hk : Keeps s₀ s) (from_ : Nat) : Keeps s₀ (State.coolMissed s from_) := by
  unfold State.coolMissed
  repeat' first
    | with_reducible assumption
    | with_reducible rfl
    | ((conv => arg 2; arg 23); with_reducible apply Keeps.lit)
    | (extract_lets +onlyGivenNames x; clear_value x; revert x; intro w)

theorem Keeps.awake {s₀ s : State} (hk : Keeps s₀ s) : Keeps s₀ (State.awake s) := by
  unfold State.awake
  repeat' first
    | with_reducible assumption
    | with_reducible apply Keeps.setPower
    | with_reducible apply Keeps.irq
    | with_reducible apply Keeps.logHeld
    | with_reducible apply Keeps.wr
    | with_reducible apply Keeps.cmdDone
    | with_reducible apply Keeps.coolMissed
    | with_reducible apply Keeps.refill
    | with_reducible apply Keeps.trainAll
    | with_reducible apply Keeps.skipEpochs
    | with_reducible apply Keeps.lateScans
    | with_reducible apply Keeps.ite

theorem Keeps.execWakeComplete {s₀ s : State} (hk : Keeps s₀ s) :
    ∀ nx, Machine.execWakeComplete s = .next nx → Keeps s₀ nx := by
  intro nx e
  unfold Machine.execWakeComplete at e
  refine Keeps.settled ?_ nx e
  repeat' first
    | with_reducible assumption
    | with_reducible apply Keeps.awake
    | with_reducible apply Keeps.ite

/-! ### Sys2Proof/Machine/HostRows.lean -/

theorem Keeps.hostIssue {s₀ s : State} (hk : Keeps s₀ s) (r : Req) : Keeps s₀ (State.hostIssue s r) := by
  unfold State.hostIssue
  repeat' first
    | with_reducible assumption
    | with_reducible apply Keeps.wait
    | with_reducible apply Keeps.engSend
    | with_reducible apply Keeps.ite

theorem Keeps.hostBegin {s₀ s : State} (hk : Keeps s₀ s) (isWrite : Bool) (isAtomic : Bool) (addr : Nat) (len : Nat)
    (rs : Nat → List Req) :
    Keeps s₀ (State.hostBegin s isWrite isAtomic addr len rs) := by
  unfold State.hostBegin
  repeat' first
    | with_reducible assumption
    | (intro a)
    | with_reducible apply Keeps.hostIssue
    | with_reducible rfl
    | ((conv => arg 2; arg 23); with_reducible apply Keeps.lit)
    | with_reducible apply Keeps.foldl

theorem Keeps.bar2NoRead {s₀ s : State} (hk : Keeps s₀ s) : Keeps s₀ (State.bar2NoRead s) := by
  unfold State.bar2NoRead
  repeat' first
    | with_reducible assumption
    | with_reducible apply Keeps.emit
    | with_reducible apply Keeps.bump

theorem Keeps.execBar2Read {s₀ s : State} (hk : Keeps s₀ s) (off : Nat) (len : Nat) :
    ∀ nx, Machine.execBar2Read off len s = .next nx → Keeps s₀ nx := by
  intro nx e
  unfold Machine.execBar2Read at e
  refine Keeps.settled ?_ nx e
  repeat' first
    | with_reducible assumption
    | with_reducible apply Keeps.bar2NoRead
    | with_reducible apply Keeps.hostBegin
    | with_reducible apply Keeps.ite

theorem Keeps.execBar2Write {s₀ s : State} (hk : Keeps s₀ s) (off : Nat) (bytes : List (Option Byte)) :
    ∀ nx, Machine.execBar2Write off bytes s = .next nx → Keeps s₀ nx := by
  intro nx e
  unfold Machine.execBar2Write at e
  refine Keeps.settled ?_ nx e
  repeat' first
    | with_reducible assumption
    | with_reducible apply Keeps.emit
    | with_reducible apply Keeps.hostBegin
    | with_reducible apply Keeps.ite

theorem Keeps.execAtomicOp {s₀ s : State} (hk : Keeps s₀ s) (off : Nat) (size : Nat) (op : Nat) (a : Nat) (b : Nat) :
    ∀ nx, Machine.execAtomicOp off size op a b s = .next nx → Keeps s₀ nx := by
  intro nx e
  unfold Machine.execAtomicOp at e
  refine Keeps.settled ?_ nx e
  repeat' first
    | with_reducible assumption
    | with_reducible apply Keeps.bar2NoRead
    | with_reducible apply Keeps.hostBegin
    | with_reducible apply Keeps.ite
    | (extract_lets +onlyGivenNames x; clear_value x; revert x; intro w)
    | split

theorem Keeps.execBar2Timeout {s₀ s : State} (hk : Keeps s₀ s) (tag : Nat) :
    ∀ nx, Machine.execBar2Timeout tag s = .next nx → Keeps s₀ nx := by
  intro nx e
  unfold Machine.execBar2Timeout at e
  refine Keeps.settled ?_ nx e
  repeat' first
    | with_reducible assumption
    | with_reducible apply Keeps.dropHeld
    | with_reducible apply Keeps.hostComplete
    | with_reducible apply Keeps.bump
    | (extract_lets +onlyGivenNames x; refine (fun (hx : Keeps s₀ x.2) => ?_) ?_;
       (on_goal 2 => (unfold x; clear x)); (on_goal 1 => ((try clear_value x); revert x; intro w hw)))
    | split

theorem Keeps.hostPortReset {s₀ s : State} (hk : Keeps s₀ s) : Keeps s₀ (State.hostPortReset s) := by
  unfold State.hostPortReset
  repeat' first
    | with_reducible assumption
    | with_reducible apply Keeps.dropHeld
    | with_reducible rfl
    | ((conv => arg 2; arg 23); with_reducible apply Keeps.lit)
    | (extract_lets +onlyGivenNames x; refine (fun (hx : Keeps s₀ x) => ?_) ?_;
       (on_goal 2 => (unfold x; clear x)); (on_goal 1 => ((try clear_value x); revert x; intro w hw)))

theorem Keeps.execFunctionLevelReset {s₀ s : State} (hk : Keeps s₀ s) :
    ∀ nx, Machine.execFunctionLevelReset s = .next nx → Keeps s₀ nx := by
  intro nx e
  unfold Machine.execFunctionLevelReset at e
  refine Keeps.settled ?_ nx e
  repeat' first
    | with_reducible assumption
    | with_reducible apply Keeps.hostPortReset

theorem Keeps.execPerstN {s₀ s : State} (hk : Keeps s₀ s) : ∀ nx, Machine.execPerstN s = .next nx → Keeps s₀ nx := by
  intro nx e
  unfold Machine.execPerstN at e
  refine Keeps.settled ?_ nx e
  repeat' first
    | with_reducible assumption
    | with_reducible apply Keeps.hostPortReset

theorem Keeps.doeAnswer {s₀ s : State} (hk : Keeps s₀ s) (code : Byte) (body : List Byte) :
    Keeps s₀ (State.doeAnswer s code body) := by
  unfold State.doeAnswer
  repeat' first
    | with_reducible assumption
    | with_reducible apply Keeps.emit
    | with_reducible apply Keeps.ite

theorem Keeps.spdmError {s₀ s : State} (hk : Keeps s₀ s) (code : Byte) : Keeps s₀ (State.spdmError s code) := by
  unfold State.spdmError
  repeat' first
    | with_reducible assumption
    | with_reducible apply Keeps.doeAnswer

theorem Keeps.execDoeDiscovery {s₀ s : State} (hk : Keeps s₀ s) (idx : Nat) :
    ∀ nx, Machine.execDoeDiscovery idx s = .next nx → Keeps s₀ nx := by
  intro nx e
  unfold Machine.execDoeDiscovery at e
  refine Keeps.settled ?_ nx e
  repeat' first
    | with_reducible assumption
    | with_reducible apply Keeps.doeAnswer
    | with_reducible apply Keeps.ite

theorem Keeps.execGetVersion {s₀ s : State} (hk : Keeps s₀ s) : ∀ nx, Machine.execGetVersion s = .next nx → Keeps s₀ nx := by
  intro nx e
  unfold Machine.execGetVersion at e
  refine Keeps.settled ?_ nx e
  repeat' first
    | with_reducible assumption
    | with_reducible apply Keeps.doeAnswer

theorem Keeps.execGetCapabilities {s₀ s : State} (hk : Keeps s₀ s) :
    ∀ nx, Machine.execGetCapabilities s = .next nx → Keeps s₀ nx := by
  intro nx e
  unfold Machine.execGetCapabilities at e
  refine Keeps.settled ?_ nx e
  repeat' first
    | with_reducible assumption
    | with_reducible apply Keeps.doeAnswer

theorem Keeps.execNegotiateAlgorithms {s₀ s : State} (hk : Keeps s₀ s) :
    ∀ nx, Machine.execNegotiateAlgorithms s = .next nx → Keeps s₀ nx := by
  intro nx e
  unfold Machine.execNegotiateAlgorithms at e
  refine Keeps.settled ?_ nx e
  repeat' first
    | with_reducible assumption
    | with_reducible apply Keeps.doeAnswer

theorem Keeps.execGetDigests {s₀ s : State} (hk : Keeps s₀ s) : ∀ nx, Machine.execGetDigests s = .next nx → Keeps s₀ nx := by
  intro nx e
  unfold Machine.execGetDigests at e
  refine Keeps.settled ?_ nx e
  repeat' first
    | with_reducible assumption
    | with_reducible apply Keeps.doeAnswer

theorem Keeps.execGetCertificate {s₀ s : State} (hk : Keeps s₀ s) (slot : Nat) (off : Nat) (len : Nat) :
    ∀ nx, Machine.execGetCertificate slot off len s = .next nx → Keeps s₀ nx := by
  intro nx e
  unfold Machine.execGetCertificate at e
  refine Keeps.settled ?_ nx e
  repeat' first
    | with_reducible assumption
    | with_reducible apply Keeps.spdmError
    | with_reducible apply Keeps.doeAnswer
    | with_reducible apply Keeps.ite

theorem Keeps.execGetMeasurements {s₀ s : State} (hk : Keeps s₀ s) (idx : Nat) (sign : Bool) :
    ∀ nx, Machine.execGetMeasurements idx sign s = .next nx → Keeps s₀ nx := by
  intro nx e
  unfold Machine.execGetMeasurements at e
  refine Keeps.settled ?_ nx e
  repeat' first
    | with_reducible assumption
    | with_reducible apply Keeps.spdmError
    | with_reducible apply Keeps.doeAnswer
    | with_reducible apply Keeps.ite

theorem Keeps.execSpdmUnsupported {s₀ s : State} (hk : Keeps s₀ s) (code : Nat) :
    ∀ nx, Machine.execSpdmUnsupported code s = .next nx → Keeps s₀ nx := by
  intro nx e
  unfold Machine.execSpdmUnsupported at e
  refine Keeps.settled ?_ nx e
  repeat' first
    | with_reducible assumption
    | with_reducible apply Keeps.doeAnswer

theorem Keeps.prstBegin {s₀ s : State} (hk : Keeps s₀ s) (n : Nat) : Keeps s₀ (State.prstBegin s n) := by
  unfold State.prstBegin
  repeat' first
    | with_reducible assumption
    | with_reducible apply Keeps.wr
    | with_reducible rfl
    | ((conv => arg 2; arg 23); with_reducible apply Keeps.lit)

theorem Keeps.prstHeld {s₀ s : State} (hk : Keeps s₀ s) (n : Nat) : Keeps s₀ (State.prstHeld s n) := by
  unfold State.prstHeld
  repeat' first
    | with_reducible assumption
    | with_reducible apply Keeps.prstEnd
    | with_reducible apply Keeps.setHeld

theorem Keeps.portsStop {s₀ s : State} (hk : Keeps s₀ s) (n : Nat) : Keeps s₀ (State.portsStop s n) := by
  unfold State.portsStop
  repeat' first
    | with_reducible assumption
    | (intro a)
    | with_reducible apply Keeps.downQuiet
    | with_reducible apply Keeps.ite
    | with_reducible apply Keeps.foldl

theorem Keeps.holdDie {s₀ s : State} (hk : Keeps s₀ s) (n : Nat) : Keeps s₀ (State.holdDie s n) := by
  unfold State.holdDie
  repeat' first
    | with_reducible assumption
    | with_reducible apply Keeps.prstEnd
    | with_reducible apply Keeps.setHeld
    | with_reducible apply Keeps.wr
    | with_reducible apply Keeps.prstFlushed
    | with_reducible apply Keeps.portsStop
    | with_reducible apply Keeps.prstBegin
    | with_reducible apply Keeps.prstHeld
    | with_reducible apply Keeps.ite

theorem Keeps.doHold {s₀ s : State} (hk : Keeps s₀ s) (n : Nat) : Keeps s₀ (State.doHold s n) := by
  unfold State.doHold
  repeat' first
    | with_reducible assumption
    | with_reducible apply Keeps.wr
    | with_reducible apply Keeps.prstEnd
    | with_reducible apply Keeps.holdDie
    | with_reducible apply Keeps.ite

theorem Keeps.execHold {s₀ s : State} (hk : Keeps s₀ s) (die : Nat) :
    ∀ nx, Machine.execHold die s = .next nx → Keeps s₀ nx := by
  intro nx e
  unfold Machine.execHold at e
  refine Keeps.hostRow hk _ _ ?_ nx e
  repeat' first
    | with_reducible assumption
    | (intro a)
    | with_reducible apply Keeps.doHold

theorem Keeps.doPrstRelease {s₀ s : State} (hk : Keeps s₀ s) (n : Nat) : Keeps s₀ (State.doPrstRelease s n) := by
  unfold State.doPrstRelease
  repeat' first
    | with_reducible assumption
    | with_reducible apply Keeps.wr
    | with_reducible apply Keeps.prstEnd
    | with_reducible apply Keeps.free
    | with_reducible apply Keeps.prstBegin
    | with_reducible apply Keeps.ite

theorem Keeps.execPrstRelease {s₀ s : State} (hk : Keeps s₀ s) (die : Nat) :
    ∀ nx, Machine.execPrstRelease die s = .next nx → Keeps s₀ nx := by
  intro nx e
  unfold Machine.execPrstRelease at e
  refine Keeps.hostRow hk _ _ ?_ nx e
  repeat' first
    | with_reducible assumption
    | (intro a)
    | with_reducible apply Keeps.doPrstRelease

theorem Keeps.freshSpare {s₀ s : State} (hk : Keeps s₀ s) (d : Nat) : Keeps s₀ (State.freshSpare s d) := by
  unfold State.freshSpare
  repeat' first
    | with_reducible assumption
    | with_reducible apply Keeps.rmap
    | with_reducible apply Keeps.setRole
    | with_reducible apply Keeps.wr
    | with_reducible apply Keeps.setScan

theorem Keeps.releasePass {s₀ s : State} (hk : Keeps s₀ s) (n : Nat) : Keeps s₀ (State.releasePass s n) := by
  unfold State.releasePass
  repeat' first
    | with_reducible assumption
    | (intro a)
    | with_reducible apply Keeps.wr
    | with_reducible apply Keeps.setLstate
    | with_reducible apply Keeps.lateScans
    | with_reducible apply Keeps.freshSpare
    | with_reducible apply Keeps.ite
    | with_reducible apply Keeps.foldl

theorem Keeps.execPrstSelfTestEnd {s₀ s : State} (hk : Keeps s₀ s) (pass : Bool) :
    ∀ nx, Machine.execPrstSelfTestEnd pass s = .next nx → Keeps s₀ nx := by
  intro nx e
  unfold Machine.execPrstSelfTestEnd at e
  refine Keeps.settled ?_ nx e
  repeat' first
    | with_reducible assumption
    | with_reducible apply Keeps.wr
    | with_reducible apply Keeps.setHeld
    | with_reducible apply Keeps.releasePass
    | with_reducible apply Keeps.prstEnd
    | with_reducible apply Keeps.selfTestFail
    | with_reducible apply Keeps.ite

theorem Keeps.execI3cWrite {s₀ s : State} (hk : Keeps s₀ s) (bytes : List Byte) :
    ∀ nx, Machine.execI3cWrite bytes s = .next nx → Keeps s₀ nx := by
  intro nx e
  unfold Machine.execI3cWrite at e
  refine Keeps.settled ?_ nx e
  repeat' first
    | with_reducible assumption
    | with_reducible apply Keeps.doBuild
    | with_reducible rfl
    | ((conv => arg 2; arg 23); with_reducible apply Keeps.lit)
    | with_reducible apply Keeps.ite

theorem Keeps.i3cWords {s₀ s : State} (hk : Keeps s₀ s) (o : Nat) (a : Nat) : Keeps s₀ (State.i3cWords s o a).2 := by
  induction a generalizing s o with
  | zero =>
    unfold State.i3cWords
    repeat' first
      | with_reducible assumption
  | succ n ih =>
    unfold State.i3cWords
    repeat' first
      | with_reducible assumption
      | with_reducible apply ih
      | with_reducible apply Keeps.read4
      | with_reducible apply Keeps.ite2

theorem Keeps.execI3cRead {s₀ s : State} (hk : Keeps s₀ s) (len : Nat) :
    ∀ nx, Machine.execI3cRead len s = .next nx → Keeps s₀ nx := by
  intro nx e
  unfold Machine.execI3cRead at e
  refine Keeps.settled ?_ nx e
  repeat' first
    | with_reducible assumption
    | with_reducible apply Keeps.emit
    | with_reducible apply Keeps.i3cWords
    | with_reducible apply Keeps.ite

theorem Keeps.i3cAssign {s₀ s : State} (hk : Keeps s₀ s) (addr : Nat) : Keeps s₀ (State.i3cAssign s addr) := by
  unfold State.i3cAssign
  repeat' first
    | with_reducible assumption
    | with_reducible apply Keeps.wr
    | with_reducible apply Keeps.ite

theorem Keeps.execSetdasa {s₀ s : State} (hk : Keeps s₀ s) (addr : Nat) :
    ∀ nx, Machine.execSetdasa addr s = .next nx → Keeps s₀ nx := by
  intro nx e
  unfold Machine.execSetdasa at e
  refine Keeps.settled ?_ nx e
  repeat' first
    | with_reducible assumption
    | with_reducible apply Keeps.i3cAssign

theorem Keeps.execEntdaa {s₀ s : State} (hk : Keeps s₀ s) (addr : Nat) :
    ∀ nx, Machine.execEntdaa addr s = .next nx → Keeps s₀ nx := by
  intro nx e
  unfold Machine.execEntdaa at e
  refine Keeps.settled ?_ nx e
  repeat' first
    | with_reducible assumption
    | with_reducible apply Keeps.i3cAssign

/-! ### Sys2Proof/Machine/PackageRows.lean -/

theorem Keeps.execVstbyUp {s₀ s : State} (hk : Keeps s₀ s) : ∀ nx, Machine.execVstbyUp s = .next nx → Keeps s₀ nx := by
  intro nx e
  unfold Machine.execVstbyUp at e
  refine Keeps.settled ?_ nx e
  repeat' first
    | with_reducible assumption
    | with_reducible apply Keeps.wr
    | with_reducible apply Keeps.toReset
    | with_reducible apply Keeps.setPower
    | with_reducible apply Keeps.ite

theorem Keeps.execVstbyLoss {s₀ s : State} (hk : Keeps s₀ s) : ∀ nx, Machine.execVstbyLoss s = .next nx → Keeps s₀ nx := by
  intro nx e
  unfold Machine.execVstbyLoss at e
  refine Keeps.settled ?_ nx e
  repeat' first
    | with_reducible assumption
    | with_reducible apply Keeps.wr
    | with_reducible apply Keeps.toReset
    | with_reducible apply Keeps.setPower
    | with_reducible rfl
    | ((conv => arg 2; arg 23); with_reducible apply Keeps.lit)
    | (extract_lets +onlyGivenNames x; refine (fun (hx : Keeps s₀ x) => ?_) ?_;
       (on_goal 2 => (unfold x; clear x)); (on_goal 1 => ((try clear_value x); revert x; intro w hw)))
    | (extract_lets +onlyGivenNames x; clear_value x; revert x; intro w)

theorem Keeps.execPgInHigh {s₀ s : State} (hk : Keeps s₀ s) : ∀ nx, Machine.execPgInHigh s = .next nx → Keeps s₀ nx := by
  intro nx e
  unfold Machine.execPgInHigh at e
  refine Keeps.settled ?_ nx e
  repeat' first
    | with_reducible assumption
    | with_reducible apply Keeps.setPower
    | with_reducible apply Keeps.startUp
    | with_reducible apply Keeps.ite

theorem Keeps.execPgInLow {s₀ s : State} (hk : Keeps s₀ s) (ns : Nat) :
    ∀ nx, Machine.execPgInLow ns s = .next nx → Keeps s₀ nx := by
  intro nx e
  unfold Machine.execPgInLow at e
  refine Keeps.settled ?_ nx e
  repeat' first
    | with_reducible assumption
    | with_reducible apply Keeps.setPower
    | with_reducible apply Keeps.toReset
    | with_reducible apply Keeps.ite

theorem Keeps.resetTaken {s₀ s : State} (hk : Keeps s₀ s) : Keeps s₀ (State.resetTaken s) := by
  unfold State.resetTaken
  repeat' first
    | with_reducible assumption
    | with_reducible apply Keeps.toReset
    | with_reducible apply Keeps.setPower

theorem Keeps.execResetN {s₀ s : State} (hk : Keeps s₀ s) (ns : Nat) :
    ∀ nx, Machine.execResetN ns s = .next nx → Keeps s₀ nx := by
  intro nx e
  unfold Machine.execResetN at e
  refine Keeps.settled ?_ nx e
  repeat' first
    | with_reducible assumption
    | with_reducible apply Keeps.resetTaken
    | with_reducible apply Keeps.free
    | with_reducible apply Keeps.ite

theorem Keeps.trip {s₀ s : State} (hk : Keeps s₀ s) : Keeps s₀ (State.trip s) := by
  unfold State.trip
  repeat' first
    | with_reducible assumption
    | with_reducible apply Keeps.wr
    | with_reducible apply Keeps.toReset
    | with_reducible apply Keeps.setPower

theorem Keeps.execThermalSample {s₀ s : State} (hk : Keeps s₀ s) (temps : List Nat) :
    ∀ nx, Machine.execThermalSample temps s = .next nx → Keeps s₀ nx := by
  intro nx e
  unfold Machine.execThermalSample at e
  refine Keeps.settled ?_ nx e
  repeat' first
    | with_reducible assumption
    | with_reducible apply Keeps.trip
    | with_reducible apply Keeps.wr
    | with_reducible apply Keeps.ite

theorem Keeps.execThermalLevelExit {s₀ s : State} (hk : Keeps s₀ s) :
    ∀ nx, Machine.execThermalLevelExit s = .next nx → Keeps s₀ nx := by
  intro nx e
  unfold Machine.execThermalLevelExit at e
  refine Keeps.settled ?_ nx e
  repeat' first
    | with_reducible assumption
    | with_reducible apply Keeps.wr
    | with_reducible rfl
    | ((conv => arg 2; arg 23); with_reducible apply Keeps.lit)
    | with_reducible apply Keeps.ite
    | (extract_lets +onlyGivenNames x; refine (fun (hx : Keeps s₀ x) => ?_) ?_;
       (on_goal 2 => (unfold x; clear x)); (on_goal 1 => ((try clear_value x); revert x; intro w hw)))

theorem Keeps.execPowerLimit {s₀ s : State} (hk : Keeps s₀ s) (above : Bool) :
    ∀ nx, Machine.execPowerLimit above s = .next nx → Keeps s₀ nx := by
  intro nx e
  unfold Machine.execPowerLimit at e
  refine Keeps.settled ?_ nx e
  repeat' first
    | with_reducible assumption
    | with_reducible apply Keeps.wr
    | with_reducible rfl
    | ((conv => arg 2; arg 23); with_reducible apply Keeps.lit)
    | with_reducible apply Keeps.ite
    | (extract_lets +onlyGivenNames x; refine (fun (hx : Keeps s₀ x) => ?_) ?_;
       (on_goal 2 => (unfold x; clear x)); (on_goal 1 => ((try clear_value x); revert x; intro w hw)))

theorem Keeps.withTap {s₀ s : State} (hk : Keeps s₀ s) (t : Tap) : Keeps s₀ (State.withTap s t) := by
  unfold State.withTap
  repeat' first
    | with_reducible assumption
    | with_reducible rfl
    | ((conv => arg 2; arg 23); with_reducible apply Keeps.lit)
    | with_reducible apply Keeps.ite

theorem Keeps.tapDrive {s₀ s : State} (hk : Keeps s₀ s) (opc : Nat) : Keeps s₀ (State.tapDrive s opc) := by
  unfold State.tapDrive
  repeat' first
    | with_reducible assumption
    | with_reducible apply Keeps.withTap
    | with_reducible apply Keeps.ite

theorem Keeps.execTapReset {s₀ s : State} (hk : Keeps s₀ s) : ∀ nx, Machine.execTapReset s = .next nx → Keeps s₀ nx := by
  intro nx e
  unfold Machine.execTapReset at e
  refine Keeps.settled ?_ nx e
  repeat' first
    | with_reducible assumption
    | with_reducible apply Keeps.withTap

theorem Keeps.execExtest {s₀ s : State} (hk : Keeps s₀ s) : ∀ nx, Machine.execExtest s = .next nx → Keeps s₀ nx := by
  intro nx e
  unfold Machine.execExtest at e
  refine Keeps.settled ?_ nx e
  repeat' first
    | with_reducible assumption
    | with_reducible apply Keeps.tapDrive

theorem Keeps.execIdcode {s₀ s : State} (hk : Keeps s₀ s) : ∀ nx, Machine.execIdcode s = .next nx → Keeps s₀ nx := by
  intro nx e
  unfold Machine.execIdcode at e
  refine Keeps.settled ?_ nx e
  repeat' first
    | with_reducible assumption
    | with_reducible apply Keeps.emit
    | with_reducible apply Keeps.withTap
    | with_reducible apply Keeps.ite

theorem Keeps.execSamplePreload {s₀ s : State} (hk : Keeps s₀ s) (v : Nat) :
    ∀ nx, Machine.execSamplePreload v s = .next nx → Keeps s₀ nx := by
  intro nx e
  unfold Machine.execSamplePreload at e
  refine Keeps.settled ?_ nx e
  repeat' first
    | with_reducible assumption
    | with_reducible apply Keeps.withTap

theorem Keeps.execClamp {s₀ s : State} (hk : Keeps s₀ s) : ∀ nx, Machine.execClamp s = .next nx → Keeps s₀ nx := by
  intro nx e
  unfold Machine.execClamp at e
  refine Keeps.settled ?_ nx e
  repeat' first
    | with_reducible assumption
    | with_reducible apply Keeps.tapDrive

theorem Keeps.execHighz {s₀ s : State} (hk : Keeps s₀ s) : ∀ nx, Machine.execHighz s = .next nx → Keeps s₀ nx := by
  intro nx e
  unfold Machine.execHighz at e
  refine Keeps.settled ?_ nx e
  repeat' first
    | with_reducible assumption
    | with_reducible apply Keeps.tapDrive

theorem Keeps.execExtestPulse {s₀ s : State} (hk : Keeps s₀ s) :
    ∀ nx, Machine.execExtestPulse s = .next nx → Keeps s₀ nx := by
  intro nx e
  unfold Machine.execExtestPulse at e
  refine Keeps.settled ?_ nx e
  repeat' first
    | with_reducible assumption
    | with_reducible apply Keeps.tapDrive

theorem Keeps.execExtestTrain {s₀ s : State} (hk : Keeps s₀ s) :
    ∀ nx, Machine.execExtestTrain s = .next nx → Keeps s₀ nx := by
  intro nx e
  unfold Machine.execExtestTrain at e
  refine Keeps.settled ?_ nx e
  repeat' first
    | with_reducible assumption
    | with_reducible apply Keeps.tapDrive

theorem Keeps.execBypass {s₀ s : State} (hk : Keeps s₀ s) (opcode : Nat) :
    ∀ nx, Machine.execBypass opcode s = .next nx → Keeps s₀ nx := by
  intro nx e
  unfold Machine.execBypass at e
  refine Keeps.settled ?_ nx e
  repeat' first
    | with_reducible assumption
    | with_reducible apply Keeps.withTap
    | with_reducible apply Keeps.ite

/-! ### Sys2Proof/Machine/RegRows.lean -/

theorem Keeps.telSel {s₀ s : State} (hk : Keeps s₀ s) (n : Nat) (v : Nat) : Keeps s₀ (State.telSel s n v) := by
  unfold State.telSel
  repeat' first
    | with_reducible assumption
    | with_reducible apply Keeps.wr
    | with_reducible apply Keeps.raiseBits
    | with_reducible apply Keeps.ite

theorem Keeps.execTelSel {s₀ s : State} (hk : Keeps s₀ s) (n : Nat) (v : Nat) :
    ∀ nx, Machine.execTelSel n v s = .next nx → Keeps s₀ nx := by
  intro nx e
  unfold Machine.execTelSel at e
  refine Keeps.hostRow hk _ _ ?_ nx e
  repeat' first
    | with_reducible assumption
    | (intro a)
    | with_reducible apply Keeps.telSel

theorem Keeps.execSnapshot {s₀ s : State} (hk : Keeps s₀ s) : ∀ nx, Machine.execSnapshot s = .next nx → Keeps s₀ nx := by
  intro nx e
  unfold Machine.execSnapshot at e
  refine Keeps.settled ?_ nx e
  repeat' first
    | with_reducible assumption
    | with_reducible apply Keeps.wr
    | with_reducible apply Keeps.advance
    | with_reducible rfl
    | ((conv => arg 2; arg 23); with_reducible apply Keeps.lit)
    | with_reducible apply Keeps.ite

theorem Keeps.execFlashLogWrite {s₀ s : State} (hk : Keeps s₀ s) :
    ∀ nx, Machine.execFlashLogWrite s = .next nx → Keeps s₀ nx := by
  intro nx e
  unfold Machine.execFlashLogWrite at e
  refine Keeps.settled ?_ nx e
  repeat' first
    | with_reducible assumption
    | with_reducible apply Keeps.flashRecord
    | with_reducible apply Keeps.wr
    | with_reducible rfl
    | ((conv => arg 2; arg 23); with_reducible apply Keeps.lit)
    | with_reducible apply Keeps.ite
    | split

theorem Keeps.cmdIgn {s₀ s : State} (hk : Keeps s₀ s) (o : Nat) : Keeps s₀ (State.cmdIgn s o) := by
  unfold State.cmdIgn
  repeat' first
    | with_reducible assumption
    | with_reducible apply Keeps.raiseBits
    | with_reducible apply Keeps.ite

theorem Keeps.cmdBoot {s₀ s : State} (hk : Keeps s₀ s) (o : Nat) (op : Nat) : Keeps s₀ (State.cmdBoot s o op) := by
  unfold State.cmdBoot
  repeat' first
    | with_reducible assumption
    | with_reducible apply Keeps.doAssign
    | with_reducible apply Keeps.doTeardown
    | with_reducible apply Keeps.tenEnd
    | with_reducible apply Keeps.doBegin
    | with_reducible apply Keeps.doChunk
    | with_reducible apply Keeps.doFinish
    | with_reducible apply Keeps.doFwCancel
    | with_reducible apply Keeps.doRaise
    | with_reducible apply Keeps.fwEnd
    | with_reducible apply Keeps.doCalBegin
    | with_reducible apply Keeps.doCalChunk
    | with_reducible apply Keeps.doCalCommit
    | with_reducible apply Keeps.free
    | with_reducible apply Keeps.doCapture
    | with_reducible apply Keeps.calEnd
    | with_reducible apply Keeps.ite

theorem Keeps.cmdPool {s₀ s : State} (hk : Keeps s₀ s) (o : Nat) (op : Nat) (v : Nat) :
    Keeps s₀ (State.cmdPool s o op v) := by
  unfold State.cmdPool
  repeat' first
    | with_reducible assumption
    | with_reducible apply Keeps.doCreate
    | with_reducible apply Keeps.doDelete
    | with_reducible apply Keeps.doSetAttr
    | with_reducible apply Keeps.doExtRead
    | with_reducible apply Keeps.doSetOwner
    | with_reducible apply Keeps.extEnd
    | with_reducible apply Keeps.doForm
    | with_reducible apply Keeps.doAdd
    | with_reducible apply Keeps.doRemove
    | with_reducible apply Keeps.doReform
    | with_reducible apply Keeps.doDisband
    | with_reducible apply Keeps.cgEnd
    | with_reducible apply Keeps.doRegionCreate
    | with_reducible apply Keeps.doRegionDelete
    | with_reducible apply Keeps.doRegionRead
    | with_reducible apply Keeps.pubCmdEnd
    | with_reducible apply Keeps.ite

theorem Keeps.cmdUnit {s₀ s : State} (hk : Keeps s₀ s) (o : Nat) (op : Nat) (v : Nat) :
    Keeps s₀ (State.cmdUnit s o op v) := by
  unfold State.cmdUnit
  repeat' first
    | with_reducible assumption
    | with_reducible apply Keeps.doDefine
    | with_reducible apply Keeps.doPlaceOasis
    | with_reducible apply Keeps.doPlaceErg
    | with_reducible apply Keeps.doObjDelete
    | with_reducible apply Keeps.doObjRead
    | with_reducible apply Keeps.objEnd
    | with_reducible apply Keeps.doObserve
    | with_reducible apply Keeps.doRelease
    | with_reducible apply Keeps.doRetire
    | with_reducible apply Keeps.doPair
    | with_reducible apply Keeps.doScanNow
    | with_reducible apply Keeps.scnEnd
    | with_reducible apply Keeps.ite

theorem Keeps.cmdAct {s₀ s : State} (hk : Keeps s₀ s) (o : Nat) (v : Nat) : Keeps s₀ (State.cmdAct s o v) := by
  unfold State.cmdAct
  repeat' first
    | with_reducible assumption
    | with_reducible apply Keeps.doHold
    | with_reducible apply Keeps.doPrstRelease
    | with_reducible apply Keeps.prstEnd
    | with_reducible apply Keeps.pwrCmd
    | with_reducible apply Keeps.cmdBoot
    | with_reducible apply Keeps.doGen
    | with_reducible apply Keeps.doEnter
    | with_reducible apply Keeps.doClear
    | with_reducible apply Keeps.doClr
    | with_reducible apply Keeps.doBuild
    | with_reducible apply Keeps.wr
    | with_reducible apply Keeps.cmdPool
    | with_reducible apply Keeps.doApply
    | with_reducible apply Keeps.stopSchedule
    | with_reducible apply Keeps.doSchedule
    | with_reducible apply Keeps.cmdUnit
    | with_reducible apply Keeps.ite

theorem Keeps.portAct {s₀ s : State} (hk : Keeps s₀ s) (p : Nat) (v : Nat) : Keeps s₀ (State.portAct s p v) := by
  unfold State.portAct
  repeat' first
    | with_reducible assumption
    | with_reducible apply Keeps.portEnable
    | with_reducible apply Keeps.hostRetrain
    | with_reducible apply Keeps.clrPark
    | with_reducible apply Keeps.ite

theorem Keeps.writeReg {s₀ s : State} (hk : Keeps s₀ s) (o : Nat) (v : Nat) (m : Nat) :
    Keeps s₀ (State.writeReg s o v m) := by
  unfold State.writeReg
  repeat' first
    | with_reducible assumption
    | with_reducible apply Keeps.cmdIgn
    | with_reducible apply Keeps.cmdAct
    | with_reducible apply Keeps.putFields
    | with_reducible apply Keeps.mirrCtl
    | with_reducible apply Keeps.setSusp
    | with_reducible apply Keeps.telSel
    | with_reducible apply Keeps.portAct
    | with_reducible apply Keeps.discFollow
    | with_reducible apply Keeps.rebind
    | with_reducible apply Keeps.carCommand
    | with_reducible apply Keeps.carDnext
    | with_reducible apply Keeps.ite

theorem Keeps.write4 {s₀ s : State} (hk : Keeps s₀ s) (o : Nat) (v : Nat) : Keeps s₀ (State.write4 s o v) := by
  unfold State.write4
  repeat' first
    | with_reducible assumption
    | with_reducible apply Keeps.putWindow
    | with_reducible apply Keeps.writeReg
    | with_reducible apply Keeps.ite

theorem Keeps.write8 {s₀ s : State} (hk : Keeps s₀ s) (o : Nat) (v : Nat) : Keeps s₀ (State.write8 s o v) := by
  unfold State.write8
  repeat' first
    | with_reducible assumption
    | with_reducible apply Keeps.putWindow
    | with_reducible apply Keeps.writeReg
    | with_reducible apply Keeps.write4
    | with_reducible apply Keeps.ite

theorem Keeps.hostWrite {s₀ s : State} (hk : Keeps s₀ s) (off : Nat) (size : Nat) (v : Nat) :
    Keeps s₀ (State.hostWrite s off size v) := by
  unfold State.hostWrite
  repeat' first
    | with_reducible assumption
    | with_reducible apply Keeps.emit
    | with_reducible apply Keeps.write8
    | with_reducible apply Keeps.write4
    | with_reducible apply Keeps.ite

theorem Keeps.execRegisterWrite {s₀ s : State} (hk : Keeps s₀ s) (off : Nat) (size : Nat) (v : Nat) :
    ∀ nx, Machine.execRegisterWrite off size v s = .next nx → Keeps s₀ nx := by
  intro nx e
  unfold Machine.execRegisterWrite at e
  refine Keeps.hostRow hk _ _ ?_ nx e
  repeat' first
    | with_reducible assumption
    | (intro a)
    | with_reducible apply Keeps.hostWrite

theorem Keeps.hostRead {s₀ s : State} (hk : Keeps s₀ s) (off : Nat) (size : Nat) : Keeps s₀ (State.hostRead s off size) := by
  unfold State.hostRead
  repeat' first
    | with_reducible assumption
    | with_reducible apply Keeps.emit
    | with_reducible apply Keeps.readReg
    | with_reducible apply Keeps.ite

theorem Keeps.execRegisterRead {s₀ s : State} (hk : Keeps s₀ s) (off : Nat) (size : Nat) :
    ∀ nx, Machine.execRegisterRead off size s = .next nx → Keeps s₀ nx := by
  intro nx e
  unfold Machine.execRegisterRead at e
  refine Keeps.settled ?_ nx e
  repeat' first
    | with_reducible assumption
    | (intro a)
    | with_reducible apply Keeps.inOrder
    | with_reducible apply Keeps.hostRead

end Sys2Proof.Laws
end

