-- ==== Sys2Proof/Laws/Messages.lean ====
section
/-! SUPPORT. Laws of message headers: a field set is read back, and the fields beside it are as they were. -/

namespace Sys2Proof.Machine

/-- A field of a header, bit by bit. -/
theorem testBit_hbits (m : Msg) (lo n i : Nat) : (hbits m lo n).testBit i = (decide (i < n) && m.hdr.getLsbD (lo + i)) := by
  simp [hbits, bits, Nat.testBit_mod_two_pow, Nat.testBit_shiftRight]
  rfl

/-- A field below the opcode is as it was. -/
theorem hbits_withOpc (m : Msg) (o lo n : Nat) (h : lo + n ≤ 122) : hbits (withOpc m o) lo n = hbits m lo n := by
  apply Nat.eq_of_testBit_eq
  intro i
  rw [testBit_hbits, testBit_hbits]
  by_cases hi : i < n
  · have h1 : lo + i < 122 := by omega
    simp only [withOpc, hi, decide_true, Bool.true_and, BitVec.getLsbD_or, BitVec.getLsbD_and, BitVec.getLsbD_ofNat]
    rw [Nat.testBit_two_pow_sub_one, Nat.testBit_mul_two_pow]
    simp [h1, show lo + i < 128 by omega, show ¬ 122 ≤ lo + i by omega]
  · simp [hi]

/-- The opcode set is read back. -/
theorem mOpc_withOpc (m : Msg) (o : Nat) (h : o < 64) : mOpc (withOpc m o) = o := by
  apply Nat.eq_of_testBit_eq
  intro i
  rw [mOpc, testBit_hbits]
  by_cases hi : i < 6
  · simp only [withOpc, hi, decide_true, Bool.true_and, BitVec.getLsbD_or, BitVec.getLsbD_and, BitVec.getLsbD_ofNat]
    rw [Nat.testBit_two_pow_sub_one, Nat.testBit_mul_two_pow]
    simp [show 122 + i < 128 by omega]
  · have : o < 2 ^ i := lt_of_lt_of_le h (by
      calc 64 = 2 ^ 6 := rfl
        _ ≤ 2 ^ i := Nat.pow_le_pow_right (by decide) (by omega))
    simp [hi, Nat.testBit_lt_two_pow this]

theorem mAddr_withOpc (m : Msg) (o : Nat) : mAddr (withOpc m o) = mAddr m := hbits_withOpc m o 27 48 (by decide)
theorem mSrc_withOpc (m : Msg) (o : Nat) : mSrc (withOpc m o) = mSrc m := hbits_withOpc m o 107 12 (by decide)
theorem mSeq_withOpc (m : Msg) (o : Nat) : mSeq (withOpc m o) = mSeq m := hbits_withOpc m o 75 20 (by decide)
theorem mSc_withOpc (m : Msg) (o : Nat) : mSc (withOpc m o) = mSc m := hbits_withOpc m o 119 3 (by decide)
theorem mSizeF_withOpc (m : Msg) (o : Nat) : mSizeF (withOpc m o) = mSizeF m := hbits_withOpc m o 24 3 (by decide)

/-- The address set is read back. -/
theorem mAddr_withAddr (m : Msg) (a : Nat) : mAddr (withAddr m a) = a % 2 ^ 48 := by
  apply Nat.eq_of_testBit_eq
  intro i
  rw [mAddr, testBit_hbits, Nat.testBit_mod_two_pow]
  by_cases hi : i < 48
  · simp only [withAddr, hi, decide_true, Bool.true_and, BitVec.getLsbD_or, BitVec.getLsbD_and, BitVec.getLsbD_not,
      BitVec.getLsbD_ofNat]
    rw [Nat.testBit_mul_two_pow, Nat.testBit_mul_two_pow, Nat.testBit_two_pow_sub_one, Nat.testBit_mod_two_pow]
    simp [hi, show 27 + i < 128 by omega]
  · simp [hi]

/-- A field outside the address is as it was. -/
theorem hbits_withAddr (m : Msg) (a lo n : Nat) (h : lo + n ≤ 27 ∨ 75 ≤ lo) :
    hbits (withAddr m a) lo n = hbits m lo n := by
  apply Nat.eq_of_testBit_eq
  intro i
  rw [testBit_hbits, testBit_hbits]
  by_cases hi : i < n
  · simp only [withAddr, hi, decide_true, Bool.true_and, BitVec.getLsbD_or, BitVec.getLsbD_and, BitVec.getLsbD_not,
      BitVec.getLsbD_ofNat]
    by_cases hb : lo + i < 128
    · rw [Nat.testBit_mul_two_pow, Nat.testBit_mul_two_pow, Nat.testBit_two_pow_sub_one, Nat.testBit_mod_two_pow]
      rcases h with h | h
      · simp [hb, show ¬ 27 ≤ lo + i by omega]
      · simp [hb, show ¬ lo + i - 27 < 48 by omega]
    · simp [hb]
      exact BitVec.getLsbD_of_ge m.hdr (lo + i) (by omega)
  · simp [hi]

end Sys2Proof.Machine
end

