-- ==== Sys2Proof/Laws/Ports.lean ====
section
/-! SUPPORT. Laws of ports, links, sources and agents: a change of one is read back, and leaves the others alone; what a flit
sent changes. -/

namespace Sys2Proof.Machine

theorem port_updPort_same (s : State) (p : Nat) (f : Port → Port) : (s.updPort p f).port p = f (s.port p) := by
  simp [State.updPort, State.port]

theorem port_updPort_ne (s : State) {p q : Nat} (f : Port → Port) (h : q ≠ p) : (s.updPort p f).port q = s.port q := by
  simp only [State.updPort, State.port]; exact tget_tins_ne _ _ _ (Ne.symm h)

theorem link_updLink_same (s : State) (p : Nat) (f : Link → Link) : (s.updLink p f).link p = f (s.link p) := by
  simp [State.updLink, State.link, port_updPort_same]

theorem port_updLink_ne (s : State) {p q : Nat} (f : Link → Link) (h : q ≠ p) : (s.updLink p f).port q = s.port q :=
  port_updPort_ne s _ h

theorem link_updLink_ne (s : State) {p q : Nat} (f : Link → Link) (h : q ≠ p) : (s.updLink p f).link q = s.link q := by
  simp [State.link, port_updLink_ne _ _ h]

theorem source_updSource_same (s : State) (p : Nat) (f : Source → Source) : (s.updSource p f).source p = f (s.source p) := by
  simp [State.updSource, State.source, port_updPort_same]

theorem source_updSource_ne (s : State) {p q : Nat} (f : Source → Source) (h : q ≠ p) :
    (s.updSource p f).source q = s.source q := by
  simp [State.updSource, State.source, port_updPort_ne _ _ h]

theorem agent_updAgent_same (s : State) (i : Nat) (f : Agent → Agent) : (s.updAgent i f).agent i = f (s.agent i) := by
  simp [State.updAgent, State.agent]

theorem agent_updAgent_ne (s : State) {i j : Nat} (f : Agent → Agent) (h : j ≠ i) : (s.updAgent i f).agent j = s.agent j := by
  simp only [State.updAgent, State.agent]; exact tget_tins_ne _ _ _ (Ne.symm h)

theorem link_emit (s : State) (w : Wire) (p : Nat) : (s.emit w).link p = s.link p := rfl

/-- A flit sent goes out of its port. -/
theorem emitFlit_out (s : State) (p a b c : Nat) (sl : List Byte) :
    (s.emitFlit p a b c sl).out = .flit p (mkFlit ((s.link p).hdr a b c) sl) :: s.out := rfl

/-- A flit sent acknowledges what has been received, and the next reports the next pair of pools. -/
theorem emitFlit_link (s : State) (p a b c : Nat) (sl : List Byte) :
    (s.emitFlit p a b c sl).link p = { s.link p with rot := ((s.link p).rot + 1) % 8, unacked := 0 } := by
  simp [State.emitFlit, link_emit, link_updLink_same]

/-- A command that is a request of an agent takes the way of every request. -/
theorem request_runs (c : Instr) (s : State) (p : Nat) (m : Msg) (res : Nat) (h : requestOf s c = some (p, m, res)) :
    exec c s = .next (s.request p m res).settle := by
  cases c <;> simp only [requestOf, Option.some.injEq, Prod.mk.injEq, reduceCtorEq] at h <;> obtain ⟨rfl, rfl, rfl⟩ := h <;> rfl

end Sys2Proof.Machine
end

