-- ==== Sys2Proof/WellFormed.lean ====
section
/-! DEFINITION. Well-formed commands: every operand in the range the spec gives it. The meanings leave the state as it is,
or answer as the spec says, for operands outside. -/

namespace Sys2Proof

/-- Is a command well formed: ports 0 to 319, agents 0 to 4,095, memory complexes 0 to 15, RGF dies 0 to 35, channels and
slots in range, addresses of 48 bits, flits of 256 bytes (R35), register accesses as BAR0 accepts them (R471). -/
def wellFormed (i : Instr) : Bool :=
  match i with
  | .protocolFlit p flit => decide (p < 320 ∧ flit.length = 256)
  | .idleFlit p flit => decide (p < 320 ∧ flit.length = 256)
  | .nak p flit => decide (p < 320 ∧ flit.length = 256)
  | .replayTimeout p => decide (p < 320)
  | .nakRepeat p => decide (p < 320)
  | .ackDeadline p => decide (p < 320)
  | .hello p _ => decide (p < 320)
  | .credits p _ => decide (p < 320)
  | .discRepeat p => decide (p < 320)
  | .discoveryLimit p => decide (p < 320)
  | .rd p _ => decide (p < 320)
  | .rdx p _ => decide (p < 320)
  | .upg p _ => decide (p < 320)
  | .wb p _ => decide (p < 320)
  | .wbc p _ => decide (p < 320)
  | .nrd p _ => decide (p < 320)
  | .nwr p _ => decide (p < 320)
  | .ld p _ => decide (p < 320)
  | .st p _ => decide (p < 320)
  | .stRel p _ => decide (p < 320)
  | .at_ p _ => decide (p < 320)
  | .inv p _ => decide (p < 320)
  | .pub p _ => decide (p < 320)
  | .subs p _ => decide (p < 320)
  | .msg p _ => decide (p < 320)
  | .hack p _ => decide (p < 320)
  | .data p _ => decide (p < 320)
  | .cmp p _ => decide (p < 320)
  | .leaseWordStore p _ => decide (p < 320)
  | .fenceWordStore p _ => decide (p < 320)
  | .rxaBaseStore p _ => decide (p < 320)
  | .rxaBaseApply id => decide (id < 4096)
  | .rxaTailStore p _ => decide (p < 320)
  | .receiveAreaPost id => decide (id < 4096)
  | .loadTimeout p seq => decide (p < 320 ∧ seq < 2 ^ 20)
  | .cancel p seq => decide (p < 320 ∧ seq < 2 ^ 20)
  | .cancelConfirm p seq => decide (p < 320 ∧ seq < 2 ^ 20)
  | .seqGapClose p => decide (p < 320)
  | .performedReport p seq => decide (p < 320 ∧ seq < 2 ^ 20)
  | .frontierUpdate k p => decide (k < 16 ∧ p < 320)
  | .trayTmo p seq => decide (p < 320 ∧ seq < 2 ^ 20)
  | .trayWriteBack line => decide (line < 2 ^ 42)
  | .xsnArrival o d x => decide (o < 100 ∧ d < 100 ∧ x < 65536)
  | .reorderGapTimeout o d => decide (o < 100 ∧ d < 100)
  | .acknowledge _ => true
  | .lineEntryClose line => decide (line < 2 ^ 42)
  | .atomicGroupApply addr => decide (addr < 2 ^ 48)
  | .mergeWindowClose line => decide (line < 2 ^ 42)
  | .select q => decide (q < 376)
  | .linkLoss p => decide (p < 320)
  | .flushComplete p => decide (p < 320)
  | .rebind p => decide (p < 320)
  | .prtCtlEn p _ => decide (p < 320)
  | .planeFault n => decide (n < 8)
  | .spareInService => true
  | .planeReduce => true
  | .mirrorRecordPerformed => true
  | .mirrCtl v => decide (v < 2 ^ 32)
  | .subtick => true
  | .tmApply => true
  | .signalDetect p => decide (p < 320)
  | .trainingComplete p => decide (p < 320)
  | .laneLoss p lane => decide (p < 320 ∧ lane < 8)
  | .fecLimit p => decide (p < 320)
  | .retrain p => decide (p < 320)
  | .retrainAttemptEnd p _ _ => decide (p < 320)
  | .loopbackEnd p _ => decide (p < 320)
  | .repairRetrainEnd p _ => decide (p < 320)
  | .holdExpiry p => decide (p < 320)
  | .clrPark p => decide (p < 320)
  | .frame p _ => decide (p < 320)
  | .xoffRepeat p pcp => decide (p < 320 ∧ pcp < 8)
  | .pfcFrame p mask _ => decide (p < 320 ∧ mask < 256)
  | .pfcPauseExpiry p pcp => decide (p < 320 ∧ pcp < 8)
  | .pfcWatchdog p pcp => decide (p < 320 ∧ pcp < 8)
  | .extentCreate => true
  | .extentActive => true
  | .extentDelete idx => decide (idx < 4096)
  | .setAttr idx => decide (idx < 4096)
  | .ergcRewriteEnd => true
  | .extentRead idx => decide (idx < 4096)
  | .setOwner idx => decide (idx < 4096)
  | .reclaimFillEnd idx => decide (idx < 4096)
  | .leaseExpiry id => decide (id < 4096)
  | .scrubRead k => decide (k < 16)
  | .poolSuspClr page => decide (page < 2 ^ 32)
  | .migrationComplete page => decide (page < 2 ^ 32)
  | .ergcPromoteRetry page => decide (page < 2 ^ 32)
  | .heatDecay => true
  | .define => true
  | .placeOasis idx => decide (idx < 1024)
  | .placeErg idx => decide (idx < 1024)
  | .objectDelete idx => decide (idx < 1024)
  | .objectRead idx => decide (idx < 1024)
  | .scheduleRun phase => decide (1 ≤ phase ∧ phase < 4)
  | .scheduleStop => true
  | .form => true
  | .add => true
  | .remove => true
  | .reform => true
  | .disband => true
  | .groupWalkEnd => true
  | .faultWalkEnd g => decide (g < 16)
  | .snoopTimeout line id => decide (line < 2 ^ 42 ∧ id < 4096)
  | .sharerWalkEnd id => decide (id < 4096)
  | .regionCreate => true
  | .regionDelete idx => decide (idx < 1024)
  | .regionRead idx => decide (idx < 1024)
  | .versionCommit idx => decide (idx < 1024)
  | .reduce p _ => decide (p < 320)
  | .gather p _ => decide (p < 320)
  | .filter p _ => decide (p < 320)
  | .matmul p _ => decide (p < 320)
  | .expand p _ => decide (p < 320)
  | .compress p _ => decide (p < 320)
  | .ownerOf p _ => decide (p < 320)
  | .xferOwner p _ => decide (p < 320)
  | .fill p _ => decide (p < 320)
  | .copy p _ => decide (p < 320)
  | .compare p _ => decide (p < 320)
  | .mreduce p _ _ => decide (p < 320)
  | .abortWord p _ => decide (p < 320)
  | .launchQueuePlace => true
  | .partStart d _ _ => decide (d < 36)
  | .partEnd d => decide (d < 36)
  | .completionRecord id slot => decide (id < 4096 ∧ slot < 16)
  | .operationTimeout id slot => decide (id < 4096 ∧ slot < 16)
  | .contribution p _ _ => decide (p < 320)
  | .accumulatorGrant tag _ => decide (tag < 2 ^ 32)
  | .chunkEmitted tag _ => decide (tag < 2 ^ 32)
  | .scanDue d => decide (d < 36)
  | .earlyScan d => decide (d < 36)
  | .scanStart d => decide (d < 36)
  | .verdict d _ _ => decide (d < 36)
  | .arbitration d _ => decide (d < 36)
  | .scoreDecay => true
  | .observe d => decide (d < 36)
  | .release d => decide (d < 36)
  | .retire d => decide (d < 36)
  | .pair d => decide (d < 36)
  | .scanNow d => decide (d < 36)
  | .adderScanDue k => decide (k < 16)
  | .adderVerdict k _ _ _ => decide (k < 16)
  | .dieLinkError a b => decide (a < 100 ∧ b < 100)
  | .dieLinkFail a b => decide (a < 100 ∧ b < 100)
  | .rgfHard d => decide (d < 36)
  | .stackFail n => decide (n < 32)
  | .pdFail d => decide (d < 36)
  | .mcFail k => decide (k < 16)
  | .dirMismatch k => decide (k < 16)
  | .sequencerStep _ => true
  | .substituteRetry page => decide (page < 2 ^ 32)
  | .lockstepMismatch pair => decide (pair < 2)
  | .controlSelfTestEnd pair _ _ => decide (pair < 2)
  | .enter => true
  | .clear _ => true
  | .clr => true
  | .build => true
  | .bundleComplete => true
  | .healthRecord => true
  | .apply => true
  | .evict => true
  | .assign => true
  | .teardown => true
  | .teardownDrainEnd => true
  | .teardownLimit => true
  | .teardownScrubEnd => true
  | .trayWritten t => decide (t < 24)
  | .gen => true
  | .reportSigned => true
  | .begin => true
  | .chunk => true
  | .finish => true
  | .raiseSvn => true
  | .resetNRelease => true
  | .startupStepEnd step _ _ => decide (1 ≤ step ∧ step ≤ 10)
  | .calBegin => true
  | .calChunk => true
  | .calCommit => true
  | .capture trained => decide (trained.length ≤ 140928)
  | .run => true
  | .idle => true
  | .sleep => true
  | .dsleep => true
  | .off => true
  | .pmeTurnOff => true
  | .entryComplete => true
  | .wakeN _ => true
  | .timerWake => true
  | .wakeComplete => true
  | .epochIn _ _ _ => true
  | .epochBoundary => true
  | .epochLoss => true
  | .snapshot => true
  | .telSel n v => decide (n < 256 ∧ v < 2 ^ 32)
  | .flashLogWrite => true
  | .registerWrite off size v => decide ((size = 4 ∨ size = 8) ∧ off % size = 0 ∧ off + size ≤ 2 ^ 28 ∧ v < 2 ^ (8 * size))
  | .registerRead off size => decide ((size = 4 ∨ size = 8) ∧ off % size = 0 ∧ off + size ≤ 2 ^ 28)
  | .carDnext c a => decide (c < 64 ∧ a < 2 ^ 48)
  | .go c => decide (c < 64)
  | .pause c => decide (c < 64)
  | .abort c => decide (c < 64)
  | .setd c a => decide (c < 64 ∧ a < 2 ^ 48)
  | .descriptorFetch c => decide (c < 64)
  | .channelAccessTimeout c => decide (c < 64)
  | .descriptorEnd c => decide (c < 64)
  | .descriptorCommit c => decide (c < 64)
  | .drainEnd c _ => decide (c < 64)
  | .abortEnd c _ => decide (c < 64)
  | .bar2Read off len => decide (off + len ≤ 2 ^ 36)
  | .bar2Write off bytes => decide (off + bytes.length ≤ 2 ^ 36)
  | .atomicOp off size op _ _ => decide (off < 2 ^ 36 ∧ (size = 4 ∨ size = 8) ∧ op < 3)
  | .bar2Timeout tag => decide (tag < 2 ^ 32)
  | .functionLevelReset => true
  | .perstN => true
  | .doeDiscovery idx => decide (idx < 1024)
  | .getVersion => true
  | .getCapabilities => true
  | .negotiateAlgorithms => true
  | .getDigests => true
  | .getCertificate slot _ _ => decide (slot < 8)
  | .getMeasurements idx _ => decide (idx < 256)
  | .spdmUnsupported _ => true
  | .hold die => decide (die < 100)
  | .prstRelease die => decide (die < 100)
  | .prstSelfTestEnd _ => true
  | .i3cWrite _ => true
  | .i3cRead len => decide (len ≤ 256)
  | .setdasa addr => decide (addr < 128)
  | .entdaa addr => decide (addr < 128)
  | .vstbyUp => true
  | .vstbyLoss => true
  | .pgInHigh => true
  | .pgInLow _ => true
  | .resetN _ => true
  | .thermalSample temps => decide (temps.length ≤ 100)
  | .thermalLevelExit => true
  | .powerLimit _ => true
  | .tapReset => true
  | .extest => true
  | .idcode => true
  | .samplePreload _ => true
  | .clamp => true
  | .highz => true
  | .extestPulse => true
  | .extestTrain => true
  | .bypass opcode => decide (opcode < 256)
  | .crcFailure p => decide (p < 320)
  | .undefinedOpcode p _ => decide (p < 320)
  | .firmwareCancel => true
  | .wakeNHigh _ => true
  | .refclk n _ => decide (n < 16)

end Sys2Proof
end

