-- ==== Sys2Proof/Tests/Slice0.lean ====
section
/-! SUPPORT. Tests: small states, one command each; ill-formed commands refused; and for every statement a state and operands
that meet its hypotheses. -/

namespace Sys2Proof.Tests

set_option Elab.async false

open Sys2Proof Sys2Proof.Machine

/-! ### States to test on -/

/-- Write several register fields: field, instance and value. -/
def wrs (s : State) (l : List (Fld × Nat × Nat)) : State := l.foldl (fun s e => s.wr e.1 e.2.2 e.2.1) s

/-- A plain extent of `n` granules from granule `b` on. -/
def ext (b n : Nat) : Extent := { Extent.free with state := 1, base := b, len := n }

/-- A device in RUN with a tenant: port 0 bound as agent 5, port 1 as agent 6, port 2 with its link up and no agent, port 256
a bound tray, port 300 an uplink. Extents: 0 plain Oasis, 1 coherent in group 1, 2 published regions, 3 on the
tray, 4 on the tray with objects, 5 on the tray exponent-compressed. -/
def up : State :=
  wrs { State.reset with
    power := { Power.reset with inReset := false, stepsEnded := [1, 2, 3, 4, 5, 6, 7, 8, 9, 10] }
    boot := { Boot.reset with keys := { cur := some 7, next := none, dead := [] } }
    ports := [(0, { Port.init with signal := true, serial := 50 }), (1, { Port.init with signal := true, serial := 60 }),
      (2, { Port.init with signal := true }), (256, { Port.init with signal := true, capacity := 1024, written := true, role := 3 })]
    agents := [(5, { Agent.init with serial := some 50, valid := true, expiry := 9, port := some 0 }),
      (6, { Agent.init with serial := some 60, valid := true, expiry := 9, port := some 1 })]
    pool := { extents := [(0, ext 0 4), (1, { ext 4 4 with coh := true, cg := 1 }), (2, { ext 8 4 with pub := true }),
      (3, ext 0x100000 4), (4, { ext 0x100004 4 with place := 2 }),
      (5, { ext 0x100008 4 with ergc := true })] }
    coh := { cgs := [(1, { Cg.init with slots := [(0, 5), (1, 6)] })] } }
    [(.SEC_TEN_STAT_STATE, 0, 1), (.SEC_TEN_STAT_STEP, 0, 0), (.SEC_TEN_STAT_BUSY, 0, 0), (.DIR_CG_STAT_STATE, 1, 1),
     (.BOOT_STAT_READY, 0, 1), (.BOOT_STAT_STEP, 0, 0), (.POOL_QUOTA_OASIS_MAX, 0, 1000), (.POOL_QUOTA_ERG_MAX, 0, 1000),
     (.PRT_CFG_MODE, 0, 1), (.PRT_CFG_WIDTH, 0, 8), (.PRT_LINK_STAT_LANES, 0, 8), (.PRT_LINK_STAT_LSTATE, 0, 2), (.PRT_PFTL_STAT_STATE, 0, 2),
     (.PRT_PFTL_STAT_BOUND, 0, 1), (.PRT_PFTL_STAT_AGENT_ID, 0, 5), (.PRT_PFTL_STAT_ROLE, 0, 2),
     (.PRT_CFG_MODE, 1, 1), (.PRT_CFG_WIDTH, 1, 8), (.PRT_LINK_STAT_LANES, 1, 8), (.PRT_LINK_STAT_LSTATE, 1, 2), (.PRT_PFTL_STAT_STATE, 1, 2),
     (.PRT_PFTL_STAT_BOUND, 1, 1), (.PRT_PFTL_STAT_AGENT_ID, 1, 6), (.PRT_PFTL_STAT_ROLE, 1, 2),
     (.PRT_CFG_MODE, 2, 1), (.PRT_CFG_WIDTH, 2, 8), (.PRT_LINK_STAT_LANES, 2, 8), (.PRT_CFG_DYN, 2, 1), (.PRT_LINK_STAT_LSTATE, 2, 2),
     (.PRT_CFG_MODE, 256, 2), (.PRT_CFG_WIDTH, 256, 8), (.PRT_LINK_STAT_LANES, 256, 8), (.PRT_LINK_STAT_LSTATE, 256, 2), (.PRT_PFTL_STAT_STATE, 256, 2),
     (.PRT_PFTL_STAT_BOUND, 256, 1), (.PRT_PFTL_STAT_AGENT_ID, 256, 9), (.PRT_PFTL_STAT_ROLE, 256, 3),
     (.PRT_CFG_MODE, 300, 3), (.PRT_CFG_WIDTH, 300, 8), (.PRT_LINK_STAT_LANES, 300, 8), (.PRT_LINK_STAT_LSTATE, 300, 2),
     (.SWC_CTL_COMB_EN, 0, 0), (.SWC_CTL_MRG_EN, 0, 0)]

/-- A request of agent 5 with its first number. -/
def ask (opc sc addr sizeF : Nat) (pay : List Byte := []) : Msg := { hdr := reqHdr opc sc 5 0 addr sizeF, payload := pay }

/-- `n` zero bytes. -/
def zs (n : Nat) : List Byte := List.replicate n 0

/-- A state with a changed port, link or source. -/
def upPort (p : Nat) (f : Port → Port) : State := up.updPort p f

/-- The link layer of port 0 changed. -/
def upLink (f : Link → Link) : State := up.updLink 0 f

/-- The source of port 0 changed. -/
def upSrc (f : Source → Source) : State := up.updSource 0 f

/-- The state once a request's point has taken it. -/
def pass (a : Req × State) : State :=
  if mOpc a.1.msg = opMSG ∧ mDsw a.1.msg ≠ 0 then a.2
  else (a.2.atPoint (a.2.queuePoint a.1) (a.2.candOf a.1 (a.2.queuePoint a.1) a.2.nextId a.2.cycle)).2

/-- Does the point take it. -/
def passes (a : Req × State) : Bool :=
  decide (mOpc a.1.msg = opMSG ∧ mDsw a.1.msg ≠ 0) ||
    (a.2.atPoint (a.2.queuePoint a.1) (a.2.candOf a.1 (a.2.queuePoint a.1) a.2.nextId a.2.cycle)).1

theorem pass_ok (a : Req × State) (h : passes a = true) : a.2.Passes (pass a) a.1 := by
  unfold State.Passes pass
  split
  · rfl
  · rename_i hn
    rw [passes, decide_eq_false hn, Bool.false_or] at h
    exact Prod.ext h rfl

/-- The state in which an admitted request reaches its home. -/
def adm (s : State) (p : Nat) (m : Msg) (res : Nat) : State := pass (s.accepted p m res)

/-- An access of an engine at its point. -/
def engPass (s : State) (r : Req) : Bool × State :=
  s.atPoint (320 + s.homeOf (mAddr r.msg) % 16) (s.candOf r (320 + s.homeOf (mAddr r.msg) % 16) s.nextId s.cycle)

theorem engPass_ok (s : State) (r : Req) (h : (engPass s r).1 = true) : s.EngPasses (engPass s r).2 r := Prod.ext h rfl

/-- What `accepted` gives meets AtHome. -/
theorem atHome_of {s : State} {p res : Nat} {m : Msg}
    (h : p < 320 ∧ s.active p = true ∧ s.rd .PRT_PFTL_STAT_ROLE p ≠ 3 ∧ mOpc m ≠ opMSG ∧ s.ingressCheck p m = .accept
      ∧ s.ingressHeld p = false ∧ s.portsTake = true ∧ s.lotRoom p m = true ∧ s.planeUp m = true)
    (g : passes (s.accepted p m res) = true ∧ (adm s p m res).already (s.accepted p m res).1 = false ∧
      (adm s p m res).depDone (s.accepted p m res).1 = true ∧
      (adm s p m res).contribTo (s.accepted p m res).1 = none ∧
      (adm s p m res).carLine (s.accepted p m res).1 = none ∧
      (isRelease m = true → (adm s p m res).relReady (s.accepted p m res).1 = true)) :
    s.AtHome (adm s p m res) p m res (s.accepted p m res).1 := ⟨h, ⟨_, rfl, pass_ok _ g.1⟩, g.2⟩

/-- What `accepted` gives meets AtExtent. -/
theorem atExtent_of {s : State} {p : Nat} {m : Msg} {x : Extent} (i st : Nat)
    (h : s.AtHome (adm s p m 0) p m 0 (s.accepted p m 0).1)
    (g : inWindow (mAddr m) = false ∧ (adm s p m 0).extentAt (mAddr m) = some (i, x) ∧ x.state = 1 ∧
      ((adm s p m 0).page (pageOf (mAddr m))).loc ≠ 2 ∧ ((adm s p m 0).page (pageOf (mAddr m))).loc ≠ 3 ∧
      (adm s p m 0).busy.rewrite.contains (pageOf (mAddr m)) = false ∧ ergPage (pageOf (mAddr m)) = false ∧
      (adm s p m 0).stackOfPage (pageOf (mAddr m)) = some st ∧
      (adm s p m 0).rcv.stackWait.contains st = false) :
    s.AtExtent (adm s p m 0) p m (s.accepted p m 0).1 x :=
  ⟨h, g.1, ⟨i, g.2.1⟩, g.2.2.1, g.2.2.2.1, g.2.2.2.2.1, g.2.2.2.2.2.1, g.2.2.2.2.2.2.1, st, g.2.2.2.2.2.2.2.1,
    g.2.2.2.2.2.2.2.2⟩

/-- Messages of agent 5: plain, coherent and region addresses, and its own block. -/
def mLd : Msg := ask opLD 2 64 3
def mRd : Msg := ask opRD 0 0x800000 6
def mWb : Msg := ask opWB 0 0x800000 6 (zs 64)
def mWin (pay : List Byte := zs 16) : Msg := ask opST 1 winBase 3 pay

/-- The request of a message, as `accepted` makes it. -/
def req (m : Msg) : Req := (up.accepted 0 m 0).1

/-- A line of extent 1 that slot 0 of group 1 owns. -/
def upOwned : State :=
  up.setDir (0x800000 / 64) (DirEnt.mk 0 .X 1 (some 0) [] none .drop [] false false false false false)

/-- The entry of that line. -/
def owned : DirEnt := (upOwned.dirEnt (0x800000 / 64)).getD (DirEnt.mk 0 .S 0 none [] none .drop [] false false false false false)

/-- Region 0 of four lines, with its body in extent 0. -/
def reg0 : Region := { Region.none with used := true, hdr := 0x1000000, lines := 4, body := 0, version := 1 }
def upReg : State := { up with coh := { up.coh with regions := [(0, reg0)] } }

/-- A tray access of port 256. -/
def acc (k : TKind) : TAcc := { port := 256, seq := 0, line := 0x8000000000, kind := k }
def upAcc (k : TKind) : State := { up with home := { up.home with tacc := [acc k] } }

/-- A message being written into the receive area of agent 5. -/
def rxm : RxMsg := { msg := mLd, fromPort := none, uplink := none, srcSw := 0, time := 0, base := 0, sub := 0, hdrSent := true }
def upAgent (f : Agent → Agent) : State := up.updAgent 5 f

/-- A collective that agent 5 has joined as rank 0: one chunk at address 0. -/
def coll : Coll :=
  { tag := 1, desc := zs 16 ++ leBytes 8 1 ++ zs 40, tmo := 1, opener := 80, deadline := 9, rmode := 0, joins := [(0, 5, 0)],
    ranks := [0], chunks := [(0, { Chunk.init with writing := true })], held := [], stopped := [], status := 0, psn := false,
    errPos := none }
def upColl : State := { up with rgf := { up.rgf with colls := [coll] } }

/-- Port 2 in the port map as a dynamic port. -/
def upMap : State :=
  { up with boot := { up.boot with image := { up.boot.image with pmap := [PMap.mk 2 0 0 8 1 false false false 0 3 0 0 []] } } }

def mReg (pay : List Byte) : Msg := ask opSUBS 0 0x1000000 6 pay
def mInv : Msg := ask opINV 0 0x1000040 6
def mMsg : Msg :=
  { hdr := mkHdr (commonHdr opMSG 6 5 6 0 ++ [(45, 14, 4)]), payload := zs 16 }
def mCon : Msg := withField (withOpc (ask opST 4 64 6 (zs 64)) opST) 119 3 4
def mCon0 : Msg := withField (withOpc (ask opST 4 0 6 (zs 64)) opST) 119 3 4

theorem plain_of {s : State} {m : Msg} {x : Extent}
    (h : 0 < 320 ∧ s.active 0 = true ∧ s.rd .PRT_PFTL_STAT_ROLE 0 ≠ 3 ∧ mOpc m ≠ opMSG ∧ s.ingressCheck 0 m = .accept
      ∧ s.ingressHeld 0 = false ∧ s.portsTake = true ∧ s.lotRoom 0 m = true ∧ s.planeUp m = true)
    (g : passes (s.accepted 0 m 0) = true ∧ (adm s 0 m 0).already (s.accepted 0 m 0).1 = false ∧
      (adm s 0 m 0).depDone (s.accepted 0 m 0).1 = true ∧
      (adm s 0 m 0).contribTo (s.accepted 0 m 0).1 = none ∧
      (adm s 0 m 0).carLine (s.accepted 0 m 0).1 = none ∧
      (isRelease m = true → (adm s 0 m 0).relReady (s.accepted 0 m 0).1 = true))
    (k : inWindow (mAddr m) = false ∧ (adm s 0 m 0).extentAt (mAddr m) = some (0, x) ∧ x.state = 1 ∧
      ((adm s 0 m 0).page (pageOf (mAddr m))).loc ≠ 2 ∧ ((adm s 0 m 0).page (pageOf (mAddr m))).loc ≠ 3 ∧
      (adm s 0 m 0).busy.rewrite.contains (pageOf (mAddr m)) = false ∧ ergPage (pageOf (mAddr m)) = false ∧
      (adm s 0 m 0).stackOfPage (pageOf (mAddr m)) = some 0 ∧
      (adm s 0 m 0).rcv.stackWait.contains 0 = false ∧ x.coh = false ∧ x.pub = false) :
    s.AtPlain (adm s 0 m 0) 0 m (s.accepted 0 m 0).1 x :=
  ⟨atExtent_of 0 0 (atHome_of h g) ⟨k.1, k.2.1, k.2.2.1, k.2.2.2.1, k.2.2.2.2.1, k.2.2.2.2.2.1, k.2.2.2.2.2.2.1,
    k.2.2.2.2.2.2.2.1, k.2.2.2.2.2.2.2.2.1⟩, k.2.2.2.2.2.2.2.2.2.1, k.2.2.2.2.2.2.2.2.2.2⟩

theorem coh_of {s : State} {m : Msg} {x : Extent} (i st : Nat)
    (h : 0 < 320 ∧ s.active 0 = true ∧ s.rd .PRT_PFTL_STAT_ROLE 0 ≠ 3 ∧ mOpc m ≠ opMSG ∧ s.ingressCheck 0 m = .accept
      ∧ s.ingressHeld 0 = false ∧ s.portsTake = true ∧ s.lotRoom 0 m = true ∧ s.planeUp m = true)
    (g : passes (s.accepted 0 m 0) = true ∧ (adm s 0 m 0).already (s.accepted 0 m 0).1 = false ∧
      (adm s 0 m 0).depDone (s.accepted 0 m 0).1 = true ∧
      (adm s 0 m 0).contribTo (s.accepted 0 m 0).1 = none ∧
      (adm s 0 m 0).carLine (s.accepted 0 m 0).1 = none ∧
      (isRelease m = true → (adm s 0 m 0).relReady (s.accepted 0 m 0).1 = true))
    (k : inWindow (mAddr m) = false ∧ (adm s 0 m 0).extentAt (mAddr m) = some (i, x) ∧ x.state = 1 ∧
      ((adm s 0 m 0).page (pageOf (mAddr m))).loc ≠ 2 ∧ ((adm s 0 m 0).page (pageOf (mAddr m))).loc ≠ 3 ∧
      (adm s 0 m 0).busy.rewrite.contains (pageOf (mAddr m)) = false ∧ ergPage (pageOf (mAddr m)) = false ∧
      (adm s 0 m 0).stackOfPage (pageOf (mAddr m)) = some st ∧
      (adm s 0 m 0).rcv.stackWait.contains st = false ∧ x.coh = true ∧
      (adm s 0 m 0).cgState x.cg ≠ 2 ∧
      (adm s 0 m 0).rcv.dirHold.contains ((adm s 0 m 0).homeOf (mAddr m)) = false ∧
      (adm s 0 m 0).coh.dirErr = [] ∧ tfind (adm s 0 m 0).home.runs (lineOf (mAddr m)) = none) :
    s.AtCoherent (adm s 0 m 0) 0 m (s.accepted 0 m 0).1 x :=
  ⟨atExtent_of i st (atHome_of h g) ⟨k.1, k.2.1, k.2.2.1, k.2.2.2.1, k.2.2.2.2.1, k.2.2.2.2.2.1, k.2.2.2.2.2.2.1,
    k.2.2.2.2.2.2.2.1, k.2.2.2.2.2.2.2.2.1⟩, k.2.2.2.2.2.2.2.2.2.1, k.2.2.2.2.2.2.2.2.2.2.1,
    k.2.2.2.2.2.2.2.2.2.2.2⟩

theorem region_of {s : State} {m : Msg} {i : Nat} {r : Region}
    (h : 0 < 320 ∧ s.active 0 = true ∧ s.rd .PRT_PFTL_STAT_ROLE 0 ≠ 3 ∧ mOpc m ≠ opMSG ∧ s.ingressCheck 0 m = .accept
      ∧ s.ingressHeld 0 = false ∧ s.portsTake = true ∧ s.lotRoom 0 m = true ∧ s.planeUp m = true)
    (g : passes (s.accepted 0 m 0) = true ∧ (adm s 0 m 0).already (s.accepted 0 m 0).1 = false ∧
      (adm s 0 m 0).depDone (s.accepted 0 m 0).1 = true ∧
      (adm s 0 m 0).contribTo (s.accepted 0 m 0).1 = none ∧
      (adm s 0 m 0).carLine (s.accepted 0 m 0).1 = none ∧
      (isRelease m = true → (adm s 0 m 0).relReady (s.accepted 0 m 0).1 = true))
    (k : inWindow (mAddr m) = false ∧
      (adm s 0 m 0).extentAt (mAddr m) = some (2, { ext 8 4 with pub := true }) ∧
      (adm s 0 m 0).regionAt (mAddr m) = some (i, r)) :
    s.AtRegion (adm s 0 m 0) 0 m (s.accepted 0 m 0).1 i r :=
  ⟨atHome_of h g, k.1, ⟨2, { ext 8 4 with pub := true }, k.2.1, rfl, rfl, rfl⟩, k.2.2⟩

theorem block_of {s : State} {m : Msg} {res : Nat}
    (h : 0 < 320 ∧ s.active 0 = true ∧ s.rd .PRT_PFTL_STAT_ROLE 0 ≠ 3 ∧ mOpc m ≠ opMSG ∧ s.ingressCheck 0 m = .accept
      ∧ s.ingressHeld 0 = false ∧ s.portsTake = true ∧ s.lotRoom 0 m = true ∧ s.planeUp m = true)
    (g : passes (s.accepted 0 m res) = true ∧ (adm s 0 m res).already (s.accepted 0 m res).1 = false ∧
      (adm s 0 m res).depDone (s.accepted 0 m res).1 = true ∧
      (adm s 0 m res).contribTo (s.accepted 0 m res).1 = none ∧
      (adm s 0 m res).carLine (s.accepted 0 m res).1 = none ∧
      (isRelease m = true → (adm s 0 m res).relReady (s.accepted 0 m res).1 = true))
    (k : inWindow (mAddr m) = true) : s.AtBlock (adm s 0 m res) 0 m res (s.accepted 0 m res).1 :=
  ⟨atHome_of h g, k⟩

/-- The policer of port 0 in force, its bucket empty. -/
def upPol : State :=
  { up with sw := { up.sw with tmAct := [(Fld.key .TM_POL_MSG_REFILL 0 0, 1)] } }

/-- A message of agent 5 is being written. -/
def upWr : State := upAgent (fun a => { a with writing := [rxm] })

/-- A part of slot 0 of agent 5, in the queue of die 0. -/
def part0 : Part := { key := 80, opc := 2, lo := 0, hi := 1, work := 1, place := 0, running := false, worked := false }
def upDie (x : Part) : State := { up with rgf := { up.rgf with dieq := [(0, [x])] } }

/-- Slot 0 of agent 5 in use. -/
def upSlot (f : OpSlot → OpSlot) : State := up.setSlot 80 (f { OpSlot.init with isOpen := true, lcnt := 1 })

/-- A write-buffer entry of the host's class and subscriber. -/
def wbe (l : List (Nat × Byte)) (issued : Bool) : WbEnt := { bytes := l, psn := false, issued := issued }

/-- A line of the tray with bytes in its write buffer, and credits to write it back. -/
def upBuf (n : Nat) : State :=
  { up.wr .PRT_CRED_REM_ADV 100 256 3 with home := { up.home with wbuf := [(0x800000000, wbe ((List.range n).map (fun i => (i, 1))) false)] } }

/-- A message crossing from die 8 to die 9. -/
def crs : Cross := { org := 8, dst := 9, xsn := 0, plane := 0, point := 1, cls := 0, sub := 0, msg := mLd, mcast := none }

/-- A message taken from an ingress region. -/
def ingm : IngMsg :=
  { n := 0, port := 0, pool := 2, slots := 1, point := 320, cls := 2, sub := 0, msg := mLd, time := 0, taken := true, dep := none }

/-- A response waiting at port 0. -/
def egm : QMsg := { n := 0, point := 0, cls := 2, sub := 0, msg := respMsg 2 5 5 0 { status := 0 }, time := 0, mcast := none }
def upEgr : State := { up.wr .PRT_CRED_REM_ADV 100 0 10 with sw := { up.sw with egr := [egm] } }

/-- A frame for agent 6, from switch 1. -/
def frm : List Byte :=
  (zs 12 ++ [0x81, 0, 0, 0, 0x88, 0xB5, 1, 0, 1, 0, 0, 0] ++ leBytes 16 mMsg.hdr.toNat ++ zs 20)
    ++ leBytes 4 (fcs (zs 12 ++ [0x81, 0, 0, 0, 0x88, 0xB5, 1, 0, 1, 0, 0, 0] ++ leBytes 16 mMsg.hdr.toNat ++ zs 20))

/-- Object 0, one page. -/
def upObj : State := { up with tier := { up.tier with objs := [(0, { state := 1, base := 0x2000080, pages := 1, layer := 0xFFFF })] } }

/-- A migration of page 0x2000000 whose lines are done. -/
def mig0 : Mig :=
  { page := 0x2000000, home := up.homeOfPage 0x2000000, kind := 0, frame := 0, need := 0, done := 0, want := none, img := [], psns := [] }

/-- Group 1 in a state, and its arguments. -/
def upCg (st m id : Nat) : State :=
  wrs up [(.DIR_CG_STAT_STATE, 1, st), (.DIR_CG_ARG_GROUP, 0, 1), (.DIR_CG_ARG_SLOT, 0, m), (.DIR_CG_ARG_ID, 0, id)]

/-- Group 1 under a walk. -/
def upWalk (f : Cg → Cg) : State := (wrs up [(.DIR_CG_RES_BUSY, 0, 1), (.DIR_CG_RES_GROUP, 0, 1)]).setCg 1 (f (up.cg 1))

/-- A directory entry that waits for slot 0. -/
def dirW : DirEnt := DirEnt.mk 0 .SX_I 1 none [0] none .drop [0] false false false false false

/-- The same, for slots 0 and 1, at line 0. -/
def dirW2 : DirEnt := DirEnt.mk 0 .SX_I 1 none [0, 1] none .drop [0, 1] false false false false false

/-- A note of region 0 that agent 5 has not answered. -/
def upNote : State := { up with coh := { up.coh with inotes := [⟨0, 5, 0, req mLd⟩] } }

/-- A request of agent 5 for the line of `acc`. -/
def rTr : Req := req (ask opLD 2 (64 * 0x8000000000) 3)

/-- An unanswered request of a source, number 0. -/
def out0 : Outst := { seq := 0, msg := mLd, answered := false, cancelled := false }

/-- A line of the collective's chunk 0 that waits for an accumulator. -/
def collHeld : Coll := { coll with held := [⟨0, req mCon⟩] }

/-- Agent 6 with a receive area, and with a store to RXA_BASE that waits; an uplink to switch 1. -/
def upRx : State := up.updAgent 6 (fun a => { a with rxaLog2 := 12 })
def upRxPend : State := up.updAgent 6 (fun a => { a with rxaPend := some (req mWin) })
def upSw : State := { up with boot := { up.boot with image := { up.boot.image with sw := [(1, 300, [])] } } }
def mUpl : Msg := withField mMsg 59 16 1

/-- A MSG once its policer has let it through. -/
def msgIn (s : State) (m : Msg) : Req × State :=
  (s.polMsg 0 (16 * mSlots (withOpc m opMSG))).2.accepted 0 (withOpc m opMSG) 0

theorem msgAdmitted_of {s : State} {m : Msg}
    (h : 0 < 320 ∧ s.active 0 = true ∧ s.rd .PRT_PFTL_STAT_ROLE 0 ≠ 3 ∧ s.ingressCheck 0 (withOpc m opMSG) = .accept
      ∧ (s.polMsg 0 (16 * mSlots (withOpc m opMSG))).1 = true)
    (g : s.ingressHeld 0 = false ∧ s.portsTake = true ∧ s.lotRoom 0 (withOpc m opMSG) = true ∧
      s.planeUp (withOpc m opMSG) = true ∧ passes (msgIn s m) = true ∧ (pass (msgIn s m)).already (msgIn s m).1 = false ∧
      (pass (msgIn s m)).depDone (msgIn s m).1 = true) :
    s.MsgAdmitted (pass (msgIn s m)) 0 (withOpc m opMSG) (msgIn s m).1 :=
  ⟨h.1, h.2.1, h.2.2.1, h.2.2.2.1, h.2.2.2.2, ⟨_, rfl, pass_ok _ g.2.2.2.2.1⟩, g.1, g.2.1, g.2.2.1, g.2.2.2.1,
    g.2.2.2.2.2⟩

theorem inOasis_of {s : State} {pg : Nat} (st : Nat)
    (h : (s.page pg).loc ≠ 2 ∧ (s.page pg).loc ≠ 3 ∧ s.busy.rewrite.contains pg = false ∧ ergPage pg = false ∧
      s.stackOfPage pg = some st ∧ s.rcv.stackWait.contains st = false) : s.InOasis pg :=
  ⟨h.1, h.2.1, h.2.2.1, h.2.2.2.1, st, h.2.2.2.2⟩

/-- A mirror record that waits, its buffer at granule `b`. -/
def mir0 : MirRec := { recno := 0, index := 0, bytes := zs 32 }
def upMir (b : Nat) : State := { up.wr .MIRR_BASE_BASE b with sw := { up.sw with mirq := [mir0] } }

/-- Every die's queue full. -/
def upFull : State :=
  { up with rgf := { up.rgf with dieq := (List.range 36).map (fun d => (d, List.replicate 64 part0)) } }

/-- With every die's queue full no place is found. -/
theorem placeFor_full (s : State) (m n : Nat) (h : ∀ p, p < 32 → 64 ≤ (s.dieq (s.dieOf p)).length) : s.placeFor m n = none := by
  unfold State.placeFor
  generalize hl : ((List.range 32).map (fun i => (m + i) % 32)).filter (fun p => inMask n p) = l
  have hb : ∀ p ∈ l, p < 32 := by
    intro p hp
    rw [← hl] at hp
    obtain ⟨i, -, rfl⟩ := List.mem_map.1 (List.mem_filter.1 hp).1
    exact Nat.mod_lt _ (by decide)
  clear hl
  induction l with
  | nil => rfl
  | cons a l ih =>
    rw [List.foldl_cons]
    simp only [h a (hb a (by simp)), if_true]
    exact ih (fun p hp => hb p (by simp [hp]))

/-- A scan record of die 0. -/
def upScan (f : Scan → Scan) : State := (up.wr .RGF_DIE_STAT_ROLE 1 0).setScan 0 (f Scan.init)

/-- A journal entry. -/
def jent : JEnt := JEnt.mk 0 1 1 1 0 0 0 0 false false 0 0 [] 0 0

/-- Dies 0 and 1 with given roles. -/
def upRole (a b : Nat) : State := wrs up [(.RGF_DIE_STAT_ROLE, 0, a), (.RGF_DIE_STAT_ROLE, 1, b)]


/-- Error of a unit, and its entry in the sequencer. -/
def flt : StandingFault := ⟨0x08, 3⟩
def rent (c : Nat) : RcvEnt := RcvEnt.mk c 3 (sevOf c) 0 1 1 true
def upRcv (f : Recov → Recov) : State := { up with rcv := f up.rcv }

/-- The device contained by the host. -/
def upCont (l : List (Fld × Nat × Nat)) : State := wrs up ([(.EVT_CONTAIN_ACTIVE, 0, 1), (.EVT_CONTAIN_CAUSE, 0, 3)] ++ l)

/-- Record `i` of the repair map live in flash. -/
def upRmap (i : Nat) : State :=
  { up with boot := { up.boot with flash := [(flRmap + 32 * i + 1, 2), (flRmap + 32 * i + 31, 1)] } }

/-- Host channel 0 in a state, its record changed. -/
def upCar (st : Nat) (f : Chan → Chan) : State := (up.wr .CAR_STAT_STATE st 0).setChan 0 (f Chan.init)

/-- A descriptor at address 64: 8 bytes from address 4096 to address 8192. -/
def cdesc : List Byte := leBytes 8 4096 ++ leBytes 8 8192 ++ leBytes 4 8 ++ zs 44
def upDesc (a : Nat) : State :=
  let s := (upCar 1 id).wr .CAR_CUR_ADDR a 0
  { s with pool := { s.pool with mem := [(65, 16), (73, 32), (80, 8)].map (fun e => (e.1, BitVec.ofNat 8 e.2)) } }

/-- A tenant's state of life. -/
def upTen (st step : Nat) : State := wrs up [(.SEC_TEN_STAT_STATE, 0, st), (.SEC_TEN_STAT_STEP, 0, step)]

/-- A firmware image being given: its length, the next chunk's and the position. -/
def upFw (t n p : Nat) : State :=
  let s := wrs up [(.SEC_FW_TOT_TOTAL, 0, t), (.SEC_FW_CHLEN_LEN, 0, n), (.SEC_FW_POS_POS, 0, p)]
  { s with boot := { s.boot with fwBegun := true } }

/-- The same for a calibration set. -/
def upCal (t n p : Nat) : State :=
  let s := wrs up [(.BOOT_CAL_TOT_TOTAL, 0, t), (.BOOT_CAL_CHLEN_LEN, 0, n), (.BOOT_CAL_POS_POS, 0, p)]
  { s with boot := { s.boot with calBegun := true } }

/-- Start-up with some steps ended. -/
def upBoot (l : List Nat) : State := up.setPower { up.power with stepsEnded := l }

/-- The running image's security version. -/
def upSvn (n : Nat) : State := { up with boot := { up.boot with image := { up.boot.image with svn := n } } }

/-- A BAR2 read that waits, and a posted write that does. -/
def hreq (w : Bool) : HostReq := HostReq.mk 7 w false 0 8 1 0 0 false []
def upHost (w : Bool) : State := { up with host := { up.host with reqs := [hreq w] } }

/-- The aperture open. -/
def upAper : State := up.wr .GLB_APER_EN 1 0

/-- A die held by partial reset. -/
def upHeld (n : Nat) : State := (up.updPort n id).wr .GLB_PRST_HELD_HELD (2 ^ (n % 32)) (n / 32)

/-- A channel's record with that descriptor read. -/
def got (h : Chan) : Chan := { h with desc := cdesc, fetched := true }

/-- The first step of its descriptor's read. -/
def askd (a : Nat) : State :=
  (upDesc a).engAskRanges (.chan 0) ((upDesc a).carSrc 0) ((upDesc a).carSub 0) 5 [(lineOf ((upDesc a).rd .CAR_CUR_ADDR 0), 1)]

/-- A security version fuse above the images'. -/
def upFuse : State := { up with boot := { up.boot with fuses := { up.boot.fuses with minSvn := 5 } } }
def svn0 (b : Nat) : State :=
  { upFuse with boot := { upFuse.boot with flash := [(slotBase b + 12, 0), (slotBase b + 13, 0), (slotBase b + 14, 0), (slotBase b + 15, 0)] } }

/-- The next state of a step. -/
def after (s : State) : State := match step s with | .next t => t | _ => s

/-- The launch word that slot 0 of agent 5 takes next, its DLINES `dl`. -/
def mLw (dl : Nat) : Msg := mWin (leBytes 16 (2 ^ 16 + 2 ^ 52 * dl))

/-- Slot 0 of agent 5 with the descriptor `d`. -/
def upD (d : List Byte) : State := up.setSlot 80 { OpSlot.init with desc := memWrite [] 0 d }

/-- The state after a launch word that passes. -/
def launched (s : State) (m : Msg) (opc res : Nat) : State :=
  let v := adm s 0 (s.launchMsg 0 m opc) res
  let r := (s.accepted 0 (s.launchMsg 0 m opc) res).1
  (((v.bump .RGF_LAUNCH_COUNT).openSlot 80 (leAt r.msg.payload 0 8)).launchAnswer r 80).finishCmp r stOK

theorem launched_of {s : State} {m : Msg} {opc res : Nat}
    (b : s.AtBlock (adm s 0 (s.launchMsg 0 m opc) res) 0 (s.launchMsg 0 m opc) res (s.accepted 0 (s.launchMsg 0 m opc) res).1)
    (h : mSize (s.accepted 0 (s.launchMsg 0 m opc) res).1.msg = 8 ∧
      winOff (mAddr (s.accepted 0 (s.launchMsg 0 m opc) res).1.msg) = 0x400 ∧
      winAgent (mAddr (s.accepted 0 (s.launchMsg 0 m opc) res).1.msg) = 5)
    (c : (adm s 0 (s.launchMsg 0 m opc) res).launchCheck 80 (leAt (s.accepted 0 (s.launchMsg 0 m opc) res).1.msg.payload 0 8) = none ∧
      lwOpc (leAt (s.accepted 0 (s.launchMsg 0 m opc) res).1.msg.payload 0 8) = opc ∧
      lwDlines (leAt (s.accepted 0 (s.launchMsg 0 m opc) res).1.msg.payload 0 8) = dlinesOf opc) :
    s.Launched (launched s m opc res) 0 m opc res 80 :=
  ⟨_, _, ⟨b, h.1, by rw [h.2.1]; decide, by rw [h.2.1], by rw [h.2.1, h.2.2]; decide⟩, c.1, c.2.1, c.2.2, rfl⟩

/-- Descriptors in extent 0: one chunk reduced, 32 values compressed, extent 0's owner asked for and changed, a line filled. -/
def dRed : List Byte :=
  leBytes 4 1 ++ leBytes 2 1 ++ [0, 0, 1, 1] ++ zs 6 ++ leBytes 8 1 ++ leBytes 8 0 ++ leBytes 8 65536 ++ zs 24
def dCmp : List Byte := [1] ++ zs 7 ++ leBytes 8 0 ++ leBytes 8 4096 ++ leBytes 8 0 ++ leBytes 8 32 ++ leBytes 8 1024 ++ zs 16
def dXfer (act : Byte) : List Byte := zs 12 ++ leBytes 2 5 ++ [act, 0] ++ leBytes 8 64 ++ zs 40
def dFill : List Byte := leBytes 8 4096 ++ leBytes 8 64 ++ leBytes 8 7 ++ zs 104

/-- The collective that `dRed` joins, and one without its rank. -/
def collRed : Coll := { coll with desc := redShared dRed, tmo := 8192, ranks := [], joins := [], slots := [], chunks := [] }

/-- Extent 0 owned by agent 0, a transfer offered at address 64. -/
def upOwn (act : Byte) : State :=
  let s := (upD (dXfer act)).setExtent 0 { ext 0 4 with owned := true }
  { s with pool := { s.pool with mem := [(78, 5)] } }

/-- The same collective, its page's heat counted. -/
def collHot : Coll := { coll with chunks := [(0, { Chunk.init with writing := true, hot := true })] }
def upHot : State := { up with rgf := { up.rgf with colls := [collHot] } }

/-- The same collective, its frame's lines sent. -/
def collIss : Coll := { coll with chunks := [(0, { Chunk.init with writing := true, issued := true })] }
def upIss : State := { up with rgf := { up.rgf with colls := [collIss] } }

/-- A full repair map, its records' second bytes `b`. -/
def fullMap (b : Nat → Byte) : State :=
  { up with boot := { up.boot with
    flash := (List.range 4096).map (fun i => (flRmap + 32 * i + 1, b i)) ++ (List.range 4096).map (fun i => (flRmap + 32 * i + 31, 1)) } }

theorem tfind_map {α : Type} (f : Nat → Nat) (g : Nat → α) (hf : ∀ i j, f i = f j → i = j) (r : List (Nat × α)) (j : Nat) :
    ∀ l : List Nat, j ∈ l → tfind (l.map (fun i => (f i, g i)) ++ r) (f j) = some (g j)
  | [], h => absurd h List.not_mem_nil
  | a :: l, h => by
    simp only [List.map_cons, List.cons_append, tfind]
    split
    · rename_i e; rw [hf _ _ e]
    · rename_i e
      exact tfind_map f g hf r j l ((List.mem_cons.1 h).resolve_left (fun x => e (by rw [x])))

theorem tfind_not {α : Type} (k : Nat) : ∀ l : List (Nat × α), (∀ e ∈ l, e.1 ≠ k) → tfind l k = none
  | [], _ => rfl
  | a :: l, h => by
    simp only [tfind, h a (by simp), if_false]
    exact tfind_not k l (fun e he => h e (by simp [he]))

theorem fullMap_byte (b : Nat → Byte) (a : Nat) : (fullMap b).flashByte a =
    (tfind ((List.range 4096).map (fun i => (flRmap + 32 * i + 1, b i)) ++
      (List.range 4096).map (fun i => (flRmap + 32 * i + 31, (1 : Byte)))) a).getD 0xFF := by
  unfold State.flashByte tget fullMap; rfl

theorem fullMap_slots (b : Nat → Byte) : (fullMap b).rmapSlots = List.range 4096 := by
  unfold State.rmapSlots fullMap
  simp only [List.filterMap_append, List.filterMap_map]
  rw [List.filterMap_eq_nil_iff.2, List.nil_append]
  · exact (List.filterMap_congr (fun i hi => by
      have := List.mem_range.1 hi
      simp only [Function.comp, flRmap]
      rw [if_pos ⟨by omega, by omega, by omega, trivial⟩]
      exact congrArg some (by omega))).trans List.filterMap_some
  · intro i hi
    simp only [Function.comp, flRmap]
    rw [if_neg (by omega)]

theorem fullMap_cleared (b : Nat → Byte) (i : Nat) (h : i < 4096) :
    rmapCleared ((fullMap b).rmapAt i) = (b i).toNat.testBit 1 := by
  rw [Laws.rmapCleared_rmapAt, fullMap_byte]
  rw [tfind_map (fun i => flRmap + 32 * i + 1) b (fun i j (h : flRmap + 32 * i + 1 = flRmap + 32 * j + 1) => by omega) _ i _ (List.mem_range.2 h)]
  rfl

theorem fullMap_kind (b : Nat → Byte) (i : Nat) : leAt ((fullMap b).rmapAt i) 0 1 = 0xFF := by
  have h : tfind ((List.range 4096).map (fun i => (flRmap + 32 * i + 1, b i)) ++
      (List.range 4096).map (fun i => (flRmap + 32 * i + 31, (1 : Byte)))) (flRmap + 32 * i + 0) = none := by
    refine tfind_not _ _ (fun e he => ?_)
    rcases List.mem_append.1 he with h | h <;> obtain ⟨j, -, rfl⟩ := List.mem_map.1 h <;> simp only <;> omega
  rw [State.rmapAt, Laws.leAt_flashRead _ _ _ _ (by decide), fullMap_byte]
  rw [h]; rfl

theorem fullMap_live (b : Nat → Byte) (i : Nat) (h : i < 4096) : rmapLive ((fullMap b).rmapAt i) = true := by
  rw [Laws.rmapLive_rmapAt, fullMap_byte]
  have e : ∀ (l : List Nat) (r : List (Nat × Byte)), tfind (l.map (fun i => (flRmap + 32 * i + 1, b i)) ++ r) (flRmap + 32 * i + 31) =
      tfind r (flRmap + 32 * i + 31) := by
    intro l r
    induction l with
    | nil => rfl
    | cons a l ih => simp only [List.map_cons, List.cons_append, tfind]; rw [if_neg (by omega), ih]
  rw [e]
  have := tfind_map (fun i => flRmap + 32 * i + 31) (fun _ => (1 : Byte)) (fun i j (h : flRmap + 32 * i + 31 = flRmap + 32 * j + 31) => by omega) [] i _ (List.mem_range.2 h)
  rw [List.append_nil] at this
  rw [this]; rfl

theorem fullMap_has (b : Nat → Byte) : (fullMap b).rmapHas 1 2 3 4 = false := by
  unfold State.rmapHas
  have : (((fullMap b).rmapSlots.map (fullMap b).rmapAt).filter (fun r =>
      !rmapCleared r && leAt r 0 1 == 1 % 256 && leAt r 2 2 == 2 % 65536 && leAt r 4 4 == 3 % 2 ^ 32)) = [] := by
    rw [List.filter_eq_nil_iff]
    intro r hr
    obtain ⟨i, -, rfl⟩ := List.mem_map.1 hr
    rw [fullMap_kind]; simp
  simp only [this]; rfl

theorem firstGap_range' (n : Nat) : ∀ k, firstGap k (List.range' k n) = k + n := by
  induction n with
  | zero => intro k; rfl
  | succ n ih => intro k; rw [List.range'_succ, firstGap, if_pos rfl, ih]; omega

theorem fullMap_gap (b : Nat → Byte) : firstGap 0 (fullMap b).rmapSlots = 4096 := by
  rw [fullMap_slots, List.range_eq_range', firstGap_range']

/-- With no record CLEARED nothing gives way; with record 0 CLEARED alone, it does. -/
theorem fullMap_none : (fullMap (fun _ => 0)).rmapOldest = none := by
  rw [State.rmapOldest, fullMap_slots, List.filter_eq_nil_iff.2]
  · rfl
  · intro i hi
    rw [fullMap_cleared _ _ (List.mem_range.1 hi)]; simp

theorem fullMap_some : (fullMap (fun i => if i = 0 then 2 else 0)).rmapOldest = some 0 := by
  rw [State.rmapOldest, fullMap_slots, List.range_succ_eq_map, List.filter_cons, if_pos, List.filter_eq_nil_iff.2]
  · rfl
  · intro i hi
    obtain ⟨j, hj, rfl⟩ := List.mem_map.1 hi
    rw [fullMap_cleared _ _ (by have := List.mem_range.1 hj; omega)]; simp
  · rw [fullMap_live _ _ (by decide), fullMap_cleared _ _ (by decide)]; decide

/-- A load that waits at point 320, and who is chosen there. -/
def upQ : State := { up with home := { up.home with waits := [⟨{ req mLd with pt := 1 }, 15, 320⟩] } }
def selQ : Pick × Cand :=
  (upQ.pickSub (upQ.candsAt 320) 320 ((upQ.pickCls (upQ.candsAt 320) 320).getD ⟨0, true, []⟩).id).getD
    (⟨0, true, []⟩, ⟨0, 0, 0, 0, true, 0⟩)

/-- No die active or spare. -/
def upNoChk : State := wrs up ((List.range 36).map (fun d => (.RGF_DIE_STAT_ROLE, d, 3)))

/-! ### Worked examples of the spec -/

/-- Example 2.1: the header of an LD, word by word, and its slot's bytes. -/
def hdr21 : BitVec 128 := reqHdr 8 2 0x02A 0x01234 0x1A400000 6
theorem test_header : hdr21 = 0x210150000091A00000D2000006000000#128 := by decide
theorem test_header_bytes : leBytes 16 hdr21.toNat =
    [0, 0, 0, 6, 0, 0, 0xD2, 0, 0, 0xA0, 0x91, 0, 0, 0x50, 0x01, 0x21] := by decide +kernel
theorem test_header_fields : let m : Msg := ⟨hdr21, []⟩
    mOpc m = 8 ∧ mSc m = 2 ∧ mSrc m = 0x2A ∧ mSeq m = 0x1234 ∧ mAddr m = 0x1A400000 ∧ mSize m = 64 := by decide +kernel

/-- Example 12.1: one pass of 256 products. -/
theorem test_pass : (narrow fmtFP32 0 false (passSum 0 (mulExact (widenF fmtBF16 0x4580) (widenF fmtBF16 0x4600) ::
    List.replicate 255 (mulExact (widenF fmtBF16 0x3F80) (widenF fmtBF16 0x3F80)))).num).1 = 0x4C000040 := by decide +kernel

/-- Example 12.2: the same values in two orders. -/
def f32 (v : Nat) : Fp := Fp.of (widenF fmtFP32 v)
def bits32 (x : Fp) : Nat := (narrow fmtFP32 0 false x.num).1
theorem test_sum_large_first :
    bits32 (fpAdd 0 (fpAdd 0 (f32 0x4B800000) (f32 0x3F800000)) (f32 0x3F800000)) = 0x4B800000 := by decide +kernel
theorem test_sum_ones_first :
    bits32 (fpAdd 0 (fpAdd 0 (f32 0x3F800000) (f32 0x3F800000)) (f32 0x4B800000)) = 0x4B800001 := by decide +kernel

/-- Example 12.3: 1,234.5625 (0x449A5200) as BF16 under each mode, and 500.0 as E4M3. -/
theorem test_narrow_bf16 : [0, 1, 2, 3].map (fun m => (narrow fmtBF16 m false (widenF fmtFP32 0x449A5200)).1) =
    [0x449A, 0x449A, 0x449B, 0x449A] := by decide +kernel
theorem test_narrow_e4m3 : narrow fmtE4M3 0 false (widenF fmtFP32 0x43FA0000) = (0x7F, true) ∧
    (narrow fmtE4M3 0 true (widenF fmtFP32 0x43FA0000)).1 = 0x7E := by decide +kernel

/-- Example 13.1: a block, its table, check value, header and code bytes; it decodes to its values. -/
def blk131 : List Nat := List.replicate 252 0 ++ [0x3F80, 0x3FC0, 0xBE80, 0x4120]
theorem test_block_tables : (List.range 8).map (fun t => tableBits false 127 t (blk131.map (expField false))) =
    [1279, 1280, 1029, 275, 1280, 1030, 525, 522] := by decide +kernel
theorem test_block_check : checkOf (blk131.drop 252) = 0x4409 ∧ crc16 (zs 64) = 0 := by decide +kernel
set_option maxRecDepth 100000 in
theorem test_block_bytes : (encodeBlock false blk131).length = 297 ∧
    (encodeBlock false blk131).take 6 = [0x09, 0x44, 0x29, 0x01, 0x7F, 0x0C] ∧
    ((encodeBlock false blk131).drop 258).take 4 = [0x00, 0x40, 0x80, 0x20] ∧
    (encodeBlock false blk131).drop 293 = [0x09, 0x37, 0x90, 0x40] := by decide +kernel

/-- Example 14.1: bytes 16 to 31 of the descriptor. -/
def desc141 : List Byte :=
  leBytes 8 0x80000000 ++ leBytes 8 0xC0000000 ++ [0x00, 0x0E, 0x27, 0x07, 8, 0, 0, 0, 0, 0, 0, 0, 0x62, 2, 0, 0] ++ zs 32
theorem test_descriptor : carCheck desc141 = true ∧ cdLen desc141 = 120000000 ∧ cdSw desc141 = 4 ∧ cdDw desc141 = 64 ∧
    cdSs desc141 = 8 ∧ cdDs desc141 = 64 ∧ swapUnit (cdSwap desc141) = 4 := by decide +kernel

/-- The check values of the CRCs over the digits 1 to 9, from their published definitions. -/
def digits : List Byte := [0x31, 0x32, 0x33, 0x34, 0x35, 0x36, 0x37, 0x38, 0x39]
theorem test_crc : crc32c digits = 0xE3069283 ∧ fcs digits = 0xCBF43926 ∧ crc16 digits = 0xD0DB := by decide +kernel

/-- Row 6 of Table 24.3: an event raised in DSLEEP is not logged until the wake, and then with the time it was raised. -/
theorem test_event_in_dsleep :
    let s := (State.reset.wr .PWR_STAT_STATE 3).event .epochLost 0 0 1
    let t := ({ s with clk := { s.clk with subtick := 5 } }.wr .PWR_STAT_STATE 0).logHeld
    s.tel.evRing = [] ∧ t.tel.evRing.map (fun e => leAt e.2 0 8) = [State.reset.now] ∧ t.rd .EVT_LOG_IDX_NEXT = 1 := by decide

/-- Example 22.1: a timestamp in holdover. -/
theorem test_time : ({ up.wr .PWR_EPOCH_COUNT 70000004 with clk := { Clock.reset with holdEpoch := true } }).now =
    0x042C1D840800 := by decide +kernel

/-! ### One step each -/

/-- The state after one command. -/
def run1 (c : Instr) (s : State) : State := after { s with pending := [c] }

/-- A store of 8 bytes to plain memory, and what is left of its request. -/
theorem test_store : memRead (run1 (.st 0 (ask opST 3 64 3 ([1, 2, 3, 4, 5, 6, 7, 8] ++ zs 8))) up).pool.mem 63 10 =
    [0, 1, 2, 3, 4, 5, 6, 7, 8, 0] := by decide +kernel
theorem test_store_answer : ((run1 (.st 0 (ask opST 3 64 3 (zs 16))) up).source 0).outst.length = 1 := by decide +kernel
theorem test_refused_role : ((run1 (.ld 256 mLd) up).source 256).outst = [] := by decide +kernel

theorem test_extent_active :
    (run1 .extentActive (run1 .extentCreate (wrs up [(.POOL_EXT_ARG0_BASE, 0, 0x100010), (.POOL_EXT_ARG1_LEN, 0, 1)]))).extent 6 =
    ext 0x100010 1 := by decide +kernel
theorem test_teardown : (run1 .teardown up).rd .SEC_TEN_STAT_STATE = 2 := by decide +kernel
theorem test_sleep_groups : (run1 .sleep up).rd .PWR_STAT_STATUS = stSTATE ∧ (run1 .sleep up).rd .PWR_STAT_REASON = 4 := by
  decide +kernel
theorem test_wake_glitch : (run1 (.wakeN 1599) (up.wr .PWR_STAT_STATE 1)).rd .PWR_WAKE_GLITCH_COUNT = 1 := by decide +kernel
theorem test_get_version : (run1 .getVersion up).out = [.doe [0x04, 0x01, 0x00, 0x13]] := by decide +kernel
theorem test_idle : (step up) = .next up.idle ∧ up.idle.clk.cclk = 1 := ⟨rfl, rfl⟩
theorem test_reset_waits : (run1 (.ld 0 mLd) State.reset).ports = [] := by decide +kernel

/-! ### Commands that are not well formed, one for each check -/

theorem test_ill_formed_1 : (([
    .protocolFlit 320 (zs 256), .protocolFlit 0 (zs 255), .idleFlit 320 (zs 256), .idleFlit 0 (zs 255),
    .nak 320 (zs 256), .nak 0 (zs 255), .replayTimeout 320, .nakRepeat 320, .ackDeadline 320, .hello 320 [],
    .credits 320 [], .discRepeat 320, .discoveryLimit 320, .rd 320 mLd, .rdx 320 mLd, .upg 320 mLd, .wb 320 mLd,
    .wbc 320 mLd, .nrd 320 mLd, .nwr 320 mLd, .ld 320 mLd, .st 320 mLd, .stRel 320 mLd, .at_ 320 mLd, .inv 320 mLd,
    .pub 320 mLd, .subs 320 mLd, .msg 320 mLd, .hack 320 mLd, .data 320 mLd, .cmp 320 mLd, .leaseWordStore 320 mLd,
    .fenceWordStore 320 mLd, .rxaBaseStore 320 mLd, .rxaBaseApply 4096, .rxaTailStore 320 mLd, .receiveAreaPost 4096,
    .loadTimeout 320 0, .loadTimeout 0 (2 ^ 20), .cancel 320 0, .cancel 0 (2 ^ 20), .cancelConfirm 320 0,
    .cancelConfirm 0 (2 ^ 20), .seqGapClose 320, .performedReport 320 0] : List Instr).all (fun c => !wellFormed c)) = true := by decide +kernel

theorem test_ill_formed_2 : (([
    .performedReport 0 (2 ^ 20), .frontierUpdate 16 0, .frontierUpdate 0 320, .trayTmo 320 0, .trayTmo 0 (2 ^ 20),
    .trayWriteBack (2 ^ 42), .xsnArrival 100 0 0, .xsnArrival 0 100 0, .xsnArrival 0 0 65536,
    .reorderGapTimeout 100 0, .reorderGapTimeout 0 100, .lineEntryClose (2 ^ 42), .atomicGroupApply (2 ^ 48),
    .mergeWindowClose (2 ^ 42), .select 376, .linkLoss 320, .flushComplete 320, .rebind 320, .prtCtlEn 320 true,
    .planeFault 8, .mirrCtl (2 ^ 32), .signalDetect 320, .trainingComplete 320, .laneLoss 320 0, .laneLoss 0 8,
    .fecLimit 320, .retrain 320, .retrainAttemptEnd 320 true [], .loopbackEnd 320 true, .repairRetrainEnd 320 true,
    .holdExpiry 320, .clrPark 320, .frame 320 [], .xoffRepeat 320 0, .xoffRepeat 0 8, .pfcFrame 320 0 [],
    .pfcFrame 0 256 [], .pfcPauseExpiry 320 0, .pfcPauseExpiry 0 8, .pfcWatchdog 320 0, .pfcWatchdog 0 8,
    .extentDelete 4096, .setAttr 4096, .extentRead 4096, .setOwner 4096] : List Instr).all (fun c => !wellFormed c)) = true := by decide +kernel

theorem test_ill_formed_3 : (([
    .reclaimFillEnd 4096, .leaseExpiry 4096, .scrubRead 16, .poolSuspClr (2 ^ 32), .migrationComplete (2 ^ 32),
    .ergcPromoteRetry (2 ^ 32), .placeOasis 1024, .placeErg 1024, .objectDelete 1024, .objectRead 1024,
    .scheduleRun 0, .scheduleRun 4, .faultWalkEnd 16, .snoopTimeout (2 ^ 42) 0, .snoopTimeout 0 4096,
    .sharerWalkEnd 4096, .regionDelete 1024, .regionRead 1024, .versionCommit 1024, .reduce 320 mLd, .gather 320 mLd,
    .filter 320 mLd, .matmul 320 mLd, .expand 320 mLd, .compress 320 mLd, .ownerOf 320 mLd, .xferOwner 320 mLd,
    .fill 320 mLd, .copy 320 mLd, .compare 320 mLd, .mreduce 320 mLd 0, .abortWord 320 mLd, .partStart 36 0 0,
    .partEnd 36, .completionRecord 4096 0, .completionRecord 0 16, .operationTimeout 4096 0, .operationTimeout 0 16,
    .contribution 320 mLd 0, .accumulatorGrant (2 ^ 32) 0, .chunkEmitted (2 ^ 32) 0, .scanDue 36, .earlyScan 36,
    .scanStart 36, .verdict 36 0 0] : List Instr).all (fun c => !wellFormed c)) = true := by decide +kernel

theorem test_ill_formed_4 : (([
    .arbitration 36 0, .observe 36, .release 36, .retire 36, .pair 36, .scanNow 36, .adderScanDue 16,
    .adderVerdict 16 0 0 0, .dieLinkError 100 0, .dieLinkError 0 100, .dieLinkFail 100 0, .dieLinkFail 0 100,
    .rgfHard 36, .stackFail 32, .pdFail 36, .mcFail 16, .dirMismatch 16, .substituteRetry (2 ^ 32),
    .lockstepMismatch 2, .controlSelfTestEnd 2 true true, .trayWritten 24, .startupStepEnd 0 true [],
    .startupStepEnd 11 true [], .telSel 256 0, .telSel 0 (2 ^ 32), .registerWrite 0 2 0, .registerWrite 2 4 0,
    .registerWrite (2 ^ 28) 4 0, .registerWrite 0 4 (2 ^ 32), .carDnext 64 0, .carDnext 0 (2 ^ 48), .go 64,
    .pause 64, .abort 64, .setd 64 0, .setd 0 (2 ^ 48), .descriptorFetch 64, .channelAccessTimeout 64,
    .descriptorEnd 64, .descriptorCommit 64, .drainEnd 64 0, .abortEnd 64 0, .bar2Read (2 ^ 36 + 1) 0,
    .bar2Write (2 ^ 36 + 1) [], .atomicOp (2 ^ 36) 4 0 0 0] : List Instr).all (fun c => !wellFormed c)) = true := by decide +kernel

theorem test_ill_formed_5 : (([
    .atomicOp 0 2 0 0 0, .atomicOp 0 4 3 0 0, .bar2Timeout (2 ^ 32), .doeDiscovery 1024, .getCertificate 8 0 0,
    .getMeasurements 256 true, .hold 100, .prstRelease 100, .i3cRead 257, .setdasa 128, .entdaa 128,
    .thermalSample (List.replicate 101 0), .bypass 256, .crcFailure 320, .undefinedOpcode 320 mLd, .registerRead 0 2,
    .registerRead 2 4, .registerRead (2 ^ 28) 4, .refclk 16 true] : List Instr).all (fun c => !wellFormed c)) = true := by decide +kernel

theorem test_ill_formed_capture : wellFormed (.capture (List.replicate 140929 0)) = false := by
  simp only [wellFormed, List.length_replicate]; decide

/-! ### The hypotheses of the statements are met -/


/-- A state and operands that meet the hypotheses of each clause of ProtocolFlitTaken. -/
theorem witness_ProtocolFlitTaken :
    (∃ (p : Nat) (f : List Byte) (s : State), p < 320 ∧ s.flits p = true ∧ flitOk f = true ∧ flType f = 1 ∧ flSeq f =
    ((s.takeAck p f).link p).rxNext) ∧
    (∃ (p : Nat) (f : List Byte) (s : State), p < 320 ∧ s.flits p = true ∧ flitOk f = true ∧ flType f = 1 ∧ flSeq f ≠
    ((s.takeAck p f).link p).rxNext) :=
  ⟨⟨0, mkFlit (Link.hdr Link.init 1 0 0) [], up, by decide +kernel⟩,
   ⟨0, mkFlit (Link.hdr Link.init 1 3 0) [], up, by decide +kernel⟩⟩

/-- A state and operands that meet the hypotheses of each clause of LinkAcksAndTimers. -/
theorem witness_LinkAcksAndTimers :
    (∃ (p : Nat) (f : List Byte) (s : State), p < 320 ∧ s.flits p = true ∧ flitOk f = true ∧ flType f = 0) ∧
    (∃ (p : Nat) (f : List Byte) (s : State), p < 320 ∧ s.flits p = true ∧ flitOk f = true ∧ flType f = 2) ∧
    (∃ (p : Nat) (s : State), p < 320 ∧ s.flits p = true ∧ (s.link p).replayBuf ≠ []) ∧
    (∃ (p : Nat) (s : State), p < 320 ∧ s.flits p = true ∧ (s.link p).nakWait = true) ∧
    (∃ (p : Nat) (s : State), p < 320 ∧ s.flits p = true ∧ (s.link p).unacked ≠ 0) ∧
    (∃ (p : Nat) (s : State), p < 320 ∧ s.isPftl p = true ∧ s.lstate p = 2 ∧ s.active p = true ∧ (s.link p).nakWait =
    false) :=
  ⟨⟨0, mkFlit (Link.hdr Link.init 0 0 0) [], up, by decide +kernel⟩,
   ⟨0, mkFlit (Link.hdr Link.init 2 0 0) [], up, by decide +kernel⟩,
   ⟨0, upLink (fun l => { l with replayBuf := [⟨0, []⟩] }), by decide +kernel⟩,
   ⟨0, upLink (fun l => { l with nakWait := true }), by decide +kernel⟩,
   ⟨0, upLink (fun l => { l with unacked := 1 }), by decide +kernel⟩,
   ⟨0, up, by decide +kernel⟩⟩

/-- A state and operands that meet the hypotheses of each clause of DiscoveryBinds. -/
theorem witness_DiscoveryBinds :
    (∃ (p : Nat) (r : List Byte) (s : State), s.discovers p = true ∧ leAt r 0 1 = 1 ∧ s.on .PRT_PFTL_STAT_BOUND p =
    false ∧ leAt r 1 1 ≠ 1) ∧
    (∃ (p : Nat) (r : List Byte) (s : State), s.discovers p = true ∧ leAt r 0 1 = 1 ∧ s.on .PRT_PFTL_STAT_BOUND p =
    false ∧ leAt r 1 1 = 1 ∧ (if s.pmode p = 2 then leAt r 3 1 ≠ 3 else leAt r 3 1 ≠ 1 ∧ leAt r 3 1 ≠ 2)) ∧
    (∃ (p : Nat) (r : List Byte) (s : State), s.discovers p = true ∧ leAt r 0 1 = 1 ∧ s.on .PRT_PFTL_STAT_BOUND p =
    false ∧ leAt r 1 1 = 1 ∧ (if s.pmode p = 2 then leAt r 3 1 = 3 else leAt r 3 1 = 1 ∨ leAt r 3 1 = 2) ∧ s.chooseId p
    r = none) ∧
    (∃ (p id : Nat) (r : List Byte) (s : State), s.discovers p = true ∧ leAt r 0 1 = 1 ∧ s.on .PRT_PFTL_STAT_BOUND p =
    false ∧ leAt r 1 1 = 1 ∧ (if s.pmode p = 2 then leAt r 3 1 = 3 else leAt r 3 1 = 1 ∨ leAt r 3 1 = 2) ∧ s.chooseId p
    r = some id ∧ (s.agent id).walking = false) ∧
    (∃ (p : Nat) (r : List Byte) (s : State), s.discovers p = true ∧ leAt r 0 1 = 1 ∧ s.on .PRT_PFTL_STAT_BOUND p =
    true) ∧
    (∃ (p id n : Nat) (r : List Byte) (s : State), s.discovers p = true ∧ leAt r 0 1 = 3 ∧ (s.port p).flushing = false ∧
    (s.port p).offered = some id ∧ n < 16 ∧ leAt r (3 + 2 * n) 2 < credMin (s.pmode p == 2) n) ∧
    (∃ (p id : Nat) (r : List Byte) (s : State), s.discovers p = true ∧ leAt r 0 1 = 3 ∧ (s.port p).flushing = false ∧
    (s.port p).offered = some id ∧ (∀ n, n < 16 → credMin (s.pmode p == 2) n ≤ leAt r (3 + 2 * n) 2)) ∧
    (∃ (p : Nat) (s : State), s.discovers p = true ∧ s.active p = false ∧ (s.port p).lastDisc ≠ []) ∧
    (∃ (p : Nat) (s u : State), s.discovers p = true ∧ s.active p = false ∧ s.on .PRT_PFTL_STAT_BOUND p = false ∧ u =
    (s.countDown p).2) :=
  ⟨⟨2, [1, 2], up, by decide +kernel⟩,
   ⟨2, [1, 1, 0, 3], up, by decide +kernel⟩,
   ⟨2, [1, 1, 0, 1], up, by decide +kernel⟩,
   ⟨2, 3, [1, 1, 0, 1], upMap, by decide +kernel⟩,
   ⟨0, [1, 1, 0, 1], up, by decide +kernel⟩,
   ⟨2, 3, 0, [3, 1, 0], upPort 2 (fun x => { x with offered := some 3 }), by decide +kernel⟩,
   ⟨2, 3, [3, 1, 0] ++ (zs 32).map (fun _ => 1), upPort 2 (fun x => { x with offered := some 3 }), ⟨by decide +kernel,
    by decide +kernel, by decide +kernel, by decide +kernel, by decide +kernel⟩⟩,
   ⟨2, upPort 2 (fun x => { x with lastDisc := [4] }), by decide +kernel⟩,
   ⟨2, up, (up.countDown 2).2, by decide +kernel, by decide +kernel, by decide +kernel, rfl⟩⟩

/-- A state and operands that meet the hypotheses of each clause of RequestChecks. -/
theorem witness_RequestChecks :
    (∃ (c : Instr) (s : State) (p : Nat) (m : Msg) (res : Nat), requestOf s c = some (p, m, res) ∧ s.Admitted p m) ∧
    (∃ (c : Instr) (s : State) (p : Nat) (m : Msg) (res st : Nat) (f : Fld), requestOf s c = some (p, m, res) ∧ p < 320
    ∧ s.active p = true ∧ s.rd .PRT_PFTL_STAT_ROLE p ≠ 3 ∧ s.ingressCheck p m = .refuse st f) ∧
    (∃ (c : Instr) (s : State) (p : Nat) (m : Msg) (res : Nat), requestOf s c = some (p, m, res) ∧ p < 320 ∧ s.active p
    = true ∧ s.rd .PRT_PFTL_STAT_ROLE p ≠ 3 ∧ s.ingressCheck p m = .duplicate) ∧
    (∃ (c : Instr) (s : State) (p : Nat) (m : Msg) (res : Nat), requestOf s c = some (p, m, res) ∧ p < 320 ∧ s.active p
    = true ∧ s.rd .PRT_PFTL_STAT_ROLE p ≠ 3 ∧ s.ingressCheck p m = .performed) ∧
    (∃ (p : Nat) (m : Msg) (s : State), p < 320 ∧ s.active p = true ∧ s.rd .PRT_PFTL_STAT_ROLE p ≠ 3 ∧ isRequest (mOpc
    m) = false ∧ mOpc m ≠ opHACK ∧ mOpc m ≠ opDATA) :=
  ⟨⟨.ld 0 mLd, up, 0, withOpc mLd opLD, 0, rfl, (by unfold State.Admitted; decide +kernel)⟩,
   ⟨.ld 0 { mLd with hdr := reqHdr opLD 2 7 0 64 3 }, up, 0, withOpc { mLd with hdr := reqHdr opLD 2 7 0 64 3 } opLD, 0,
    stREFUSED, .PRT_SRC_MISMATCH_COUNT, by decide +kernel⟩,
   ⟨.ld 0 mLd, upSrc (fun q => { q with outst := [out0] }), 0, withOpc mLd opLD, 0, by decide +kernel⟩,
   ⟨.ld 0 mLd, upSrc (fun q => { q with pf := 1 }), 0, withOpc mLd opLD, 0, by decide +kernel⟩,
   ⟨0, ask 0x10 0 0 0, up, by decide +kernel⟩⟩

/-- A state and operands that meet the hypotheses of each clause of PlainLoadReads. -/
theorem witness_PlainLoadReads :
    (∃ (c : Instr) (s v : State) (p : Nat) (m : Msg) (r : Req) (x : Extent), ((c = .ld p m ∧ s.AtPlain v p (withOpc m
    opLD) r x) ∨ (c = .nrd p m ∧ s.AtPlain v p (withOpc m opNRD) r x)) ∧ tfind v.home.runs (lineOf (mAddr r.msg)) = none
    ∧ v.on .SWC_CTL_COMB_EN = false ∧ v.badSyms (lineOf (mAddr r.msg)) = 0) :=
  ⟨.ld 0 mLd, up, (adm up 0 (withOpc mLd opLD) 0), 0, mLd, (up.accepted 0 (withOpc mLd opLD) 0).1, ext 0 4, .inl ⟨rfl,
    plain_of (by decide +kernel) (by decide +kernel) (by decide +kernel)⟩, by decide +kernel⟩

/-- A state and operands that meet the hypotheses of each clause of PlainStoreWrites. -/
theorem witness_PlainStoreWrites :
    (∃ (c : Instr) (s v : State) (p : Nat) (m : Msg) (r : Req) (x : Extent), ((c = .st p m ∧ s.AtPlain v p (withOpc m
    opST) r x) ∨ (c = .nwr p m ∧ s.AtPlain v p (withOpc m opNWR) r x) ∨ (c = .stRel p m ∧ s.AtPlain v p (withOpc m
    opST_REL) r x)) ∧ tfind v.home.runs (lineOf (mAddr r.msg)) = none ∧ v.on .SWC_CTL_MRG_EN = false ∧ v.badSyms (lineOf
    (mAddr r.msg)) = 0) :=
  ⟨.st 0 (ask opST 3 64 3 (zs 16)), up, (adm up 0 (withOpc (ask opST 3 64 3 (zs 16)) opST) 0), 0, (ask opST 3 64 3 (zs
    16)), (up.accepted 0 (withOpc (ask opST 3 64 3 (zs 16)) opST) 0).1, ext 0 4, .inl ⟨rfl, plain_of (by decide +kernel)
    (by decide +kernel) (by decide +kernel)⟩, by decide +kernel⟩

/-- A state and operands that meet the hypotheses of each clause of PlainAtomicApplies. -/
theorem witness_PlainAtomicApplies :
    (∃ (s v : State) (p : Nat) (m : Msg) (r : Req) (x : Extent), s.AtPlain v p (withOpc m opAT) r x ∧ tfind v.home.runs
    (lineOf (mAddr r.msg)) = none ∧ v.on .SWC_CTL_COMB_EN = false ∧ v.badSyms (lineOf (mAddr r.msg)) = 0) :=
  ⟨up, (adm up 0 (withOpc (ask opAT 3 64 3 (zs 16)) opAT) 0), 0, (ask opAT 3 64 3 (zs 16)), (up.accepted 0 (withOpc (ask
    opAT 3 64 3 (zs 16)) opAT) 0).1, ext 0 4, plain_of (by decide +kernel) (by decide +kernel) (by decide +kernel),
    by decide +kernel⟩

/-- A state and operands that meet the hypotheses of each clause of CoherentGrant. -/
theorem witness_CoherentGrant :
    (∃ (c : Instr) (s v : State) (p : Nat) (m : Msg) (r : Req) (x : Extent) (q way : Nat) (excl : Bool), ((c = .rd p m ∧
    excl = false ∧ s.AtCoherent v p (withOpc m opRD) r x) ∨ (c = .rdx p m ∧ excl = true ∧ s.AtCoherent v p (withOpc m
    opRDX) r x)) ∧ v.memberSlot x.cg r.src = some q ∧ v.dirEnt (lineOf (mAddr r.msg)) = none ∧ v.freeWay (lineOf (mAddr
    r.msg)) = some way ∧ v.linePsn (lineOf (mAddr r.msg)) = false ∧ v.badSyms (lineOf (mAddr r.msg)) = 0) :=
  ⟨.rd 0 mRd, up, (adm up 0 (withOpc mRd opRD) 0), 0, mRd, (up.accepted 0 (withOpc mRd opRD) 0).1, { ext 4 4 with
    coh := true, cg := 1 }, 0, 0, false, .inl ⟨rfl, rfl, coh_of 1 16 (by decide +kernel) (by decide +kernel)
    (by decide +kernel)⟩, by decide +kernel⟩

/-- A state and operands that meet the hypotheses of each clause of OwnerReturns. -/
theorem witness_OwnerReturns :
    (∃ (s v : State) (p : Nat) (m : Msg) (r : Req) (x : Extent) (e : DirEnt) (q : Nat), s.AtCoherent v p (withOpc m
    opUPG) r x ∧ v.memberSlot x.cg r.src = some q ∧ v.dirEnt (lineOf (mAddr r.msg)) = some e ∧ e.st = .X ∧ e.own = some
    q) ∧
    (∃ (s v : State) (p : Nat) (m : Msg) (r : Req) (x : Extent) (e : DirEnt) (q : Nat), s.AtCoherent v p (withOpc m
    opWB) r x ∧ v.memberSlot x.cg r.src = some q ∧ v.dirEnt (lineOf (mAddr r.msg)) = some e ∧ e.st = .X ∧ e.own = some
    q) ∧
    (∃ (s v : State) (p : Nat) (m : Msg) (r : Req) (x : Extent) (e : DirEnt) (q : Nat), s.AtCoherent v p (withOpc m
    opWBC) r x ∧ v.memberSlot x.cg r.src = some q ∧ v.dirEnt (lineOf (mAddr r.msg)) = some e ∧ e.st = .X ∧ e.own = some
    q) :=
  ⟨⟨upOwned, (adm upOwned 0 (withOpc mRd opUPG) 0), 0, mRd, (upOwned.accepted 0 (withOpc mRd opUPG) 0).1, { ext 4 4 with
    coh := true, cg := 1 }, owned, 0, coh_of 1 16 (by decide +kernel) (by decide +kernel) (by decide +kernel),
    by decide +kernel⟩,
   ⟨upOwned, (adm upOwned 0 (withOpc mWb opWB) 0), 0, mWb, (upOwned.accepted 0 (withOpc mWb opWB) 0).1, { ext 4 4 with
    coh := true, cg := 1 }, owned, 0, coh_of 1 16 (by decide +kernel) (by decide +kernel) (by decide +kernel),
    by decide +kernel⟩,
   ⟨upOwned, (adm upOwned 0 (withOpc mRd opWBC) 0), 0, mRd, (upOwned.accepted 0 (withOpc mRd opWBC) 0).1, { ext 4 4 with
    coh := true, cg := 1 }, owned, 0, coh_of 1 16 (by decide +kernel) (by decide +kernel) (by decide +kernel),
    by decide +kernel⟩⟩

/-- A state and operands that meet the hypotheses of each clause of RegionRequestsAndAnswers. -/
theorem witness_RegionRequestsAndAnswers :
    (∃ (s v : State) (p : Nat) (m : Msg) (r : Req) (i : Nat) (g : Region), s.AtRegion v p (withOpc m opSUBS) r i g ∧
    mAddr r.msg < g.hdr + 64) ∧
    (∃ (s v : State) (p : Nat) (m : Msg) (r : Req) (i : Nat) (g : Region), s.AtRegion v p (withOpc m opPUB) r i g ∧
    mAddr r.msg < g.hdr + 64 ∧ v.region i = g ∧ g.cur = none ∧ leAt r.msg.payload 0 4 ≠ g.version) ∧
    (∃ (s v : State) (p : Nat) (m : Msg) (r : Req) (i : Nat) (g : Region), s.AtRegion v p (withOpc m opPUB) r i g ∧
    mAddr r.msg < g.hdr + 64 ∧ v.region i = g ∧ g.cur = none ∧ leAt r.msg.payload 0 4 = g.version ∧ (v.extentAt (leAt
    r.msg.payload 8 6)).isSome ∧ (v.extentAt (leAt r.msg.payload 8 6 + 64 * g.lines - 1)).isSome ∧ v.bodyOk (leAt
    r.msg.payload 8 6) g.lines = true) ∧
    (∃ (s v : State) (p : Nat) (m : Msg) (r : Req) (i : Nat) (g : Region), s.AtRegion v p (withOpc m opINV) r i g ∧
    g.hdr + 64 ≤ mAddr r.msg ∧ (mAddr r.msg - g.hdr - 64) / 64 + mNlines r.msg + 1 ≤ g.lines) ∧
    (∃ (p : Nat) (m : Msg) (s v : State), p < 320 ∧ s.active p = true ∧ s.rd .PRT_PFTL_STAT_ROLE p ≠ 3 ∧ v =
    s.passAnswer p (withOpc m opHACK) (s.hackSub p (withOpc m opHACK)) ∧ s.takesHack (withOpc m opHACK) = false) ∧
    (∃ (p : Nat) (m : Msg) (s v : State) (n : Note), v = s.passAnswer p (withOpc m opHACK) (s.hackSub p (withOpc m
    opHACK)) ∧ p < 320 ∧ s.active p = true ∧ s.rd .PRT_PFTL_STAT_ROLE p ≠ 3 ∧ s.takesHack (withOpc m opHACK) = true ∧
    s.noteOf (s.agentId p) (withOpc m opHACK) = some n ∧ mRspst (withOpc m opHACK) = 0 ∧ mFwd (withOpc m opHACK) = false
    ∧ mHdata (withOpc m opHACK) = false) ∧
    (∃ (p : Nat) (m : Msg) (s v : State) (n : Note), v = s.passAnswer p (withOpc m opHACK) (s.hackSub p (withOpc m
    opHACK)) ∧ p < 320 ∧ s.active p = true ∧ s.rd .PRT_PFTL_STAT_ROLE p ≠ 3 ∧ s.takesHack (withOpc m opHACK) = true ∧
    s.noteOf (s.agentId p) (withOpc m opHACK) = some n ∧ (mRspst (withOpc m opHACK) ≠ 0 ∨ mFwd (withOpc m opHACK) = true
    ∨ mHdata (withOpc m opHACK) = true)) ∧
    (∃ (p k : Nat) (m : Msg) (s v : State) (e : DirEnt), v = s.passAnswer p (withOpc m opHACK) (s.hackSub p (withOpc m
    opHACK)) ∧ p < 320 ∧ s.active p = true ∧ s.rd .PRT_PFTL_STAT_ROLE p ≠ 3 ∧ s.coh.dirErr = [] ∧ s.takesHack (withOpc m
    opHACK) = true ∧ s.noteOf (s.agentId p) (withOpc m opHACK) = none ∧ mRspst (withOpc m opHACK) = 0 ∧ mFwd (withOpc m
    opHACK) = false ∧ mHdata (withOpc m opHACK) = false ∧ s.dirEnt (lineOf (mAddr (withOpc m opHACK))) = some e ∧
    s.slotListed e.cg (s.agentId p) = some k ∧ e.st = .SX_I ∧ e.awaiting.contains k = true ∧ s.cgState e.cg ≠ 2 ∧
    e.awaiting.filter (· != k) ≠ []) ∧
    (∃ (p : Nat) (m : Msg) (s w : State) (t : TAcc) (r : Req), p < 320 ∧ s.active p = true ∧ w = s.passAnswer p (withOpc
    m opDATA) (s.taccSub p (withOpc m opDATA)) ∧ s.rd .PRT_PFTL_STAT_ROLE p = 3 ∧ s.taccAt p (mSeq (withOpc m opDATA)) =
    some t ∧ t.kind = .load [r] ∧ (∃ k, r.org = .port k) ∧ mOpc r.msg ≠ opAT ∧ lineOf (mAddr r.msg) = t.line ∧ tfind
    s.home.wbuf t.line = none ∧ s.owes t.line = false) ∧
    (∃ (p : Nat) (m : Msg) (s w : State) (t : TAcc) (rs : List Req), p < 320 ∧ s.active p = true ∧ w = s.passAnswer p
    (withOpc m opDATA) (s.taccSub p (withOpc m opDATA)) ∧ s.rd .PRT_PFTL_STAT_ROLE p = 3 ∧ s.taccAt p (mSeq (withOpc m
    opDATA)) = some t ∧ t.kind = .load rs ∧ rs ≠ []) ∧
    (∃ (p q : Nat) (m : Msg) (s : State) (f : Fwd), p < 320 ∧ s.active p = true ∧ s.rd .PRT_PFTL_STAT_ROLE p ≠ 3 ∧
    s.fwdOf p (withOpc m opDATA) = some f ∧ fwdOk f (withOpc m opDATA) = true ∧ s.coh.engReads = [] ∧ s.portOfAgent
    (mDst (withOpc m opDATA)) = some q) ∧
    (∃ (p : Nat) (m : Msg) (s : State), p < 320 ∧ s.active p = true ∧ s.rd .PRT_PFTL_STAT_ROLE p ≠ 3 ∧ s.fwdOf p
    (withOpc m opDATA) = none) ∧
    (∃ (p : Nat) (m : Msg) (s w : State) (t : TAcc) (e : WbEnt), p < 320 ∧ s.active p = true ∧ w = s.passAnswer p
    (withOpc m opCMP) (s.taccSub p (withOpc m opCMP)) ∧ s.rd .PRT_PFTL_STAT_ROLE p = 3 ∧ s.taccAt p (mSeq (withOpc m
    opCMP)) = some t ∧ t.kind = .writeBack ∧ tfind s.home.wbuf t.line = some e ∧ e.issued = true) ∧
    (∃ (p : Nat) (_m : Msg) (s : State), p < 320 ∧ s.active p = true ∧ s.rd .PRT_PFTL_STAT_ROLE p ≠ 3) :=
  ⟨⟨upReg, (adm upReg 0 (withOpc (mReg []) opSUBS) 0), 0, mReg [], (upReg.accepted 0 (withOpc (mReg []) opSUBS) 0).1, 0,
    reg0, region_of (by decide +kernel) (by decide +kernel) (by decide +kernel), by decide +kernel⟩,
   ⟨upReg, (adm upReg 0 (withOpc (mReg (zs 16)) opPUB) 0), 0, mReg (zs 16), (upReg.accepted 0 (withOpc (mReg (zs 16))
    opPUB) 0).1, 0, reg0, region_of (by decide +kernel) (by decide +kernel) (by decide +kernel), by decide +kernel⟩,
   ⟨upReg, (adm upReg 0 (withOpc (mReg (leBytes 16 1)) opPUB) 0), 0, mReg (leBytes 16 1), (upReg.accepted 0 (withOpc
    (mReg (leBytes 16 1)) opPUB) 0).1, 0, reg0, region_of (by decide +kernel) (by decide +kernel) (by decide +kernel),
    by decide +kernel⟩,
   ⟨upReg, (adm upReg 0 (withOpc mInv opINV) 0), 0, mInv, (upReg.accepted 0 (withOpc mInv opINV) 0).1, 0, reg0,
    region_of (by decide +kernel) (by decide +kernel) (by decide +kernel), by decide +kernel⟩,
   ⟨0, ask opHACK 0 0 0, (upRcv (fun r => { r with dirHold := [up.homeOf 0] })), ((upRcv (fun r =>
    { r with dirHold := [up.homeOf 0] })).passAnswer 0 (withOpc (ask opHACK 0 0 0) opHACK) ((upRcv (fun r =>
    { r with dirHold := [up.homeOf 0] })).hackSub 0 (withOpc (ask opHACK 0 0 0) opHACK))), by decide +kernel,
    by decide +kernel, by decide +kernel, rfl, by decide +kernel⟩,
   ⟨0, ask opHACK 0 0 0, upNote, _, ⟨0, 5, 0, req mLd⟩, rfl, by decide +kernel⟩,
   ⟨0, withField (ask opHACK 0 0 0) 23 1 1, upNote, _, ⟨0, 5, 0, req mLd⟩, rfl, by decide +kernel⟩,
   ⟨0, 0, ask opHACK 0 0 0, up.setDir 0 dirW2, _, dirW2, rfl, by decide +kernel⟩,
   ⟨256, ask opDATA 0 0 0, upAcc (.load [rTr]), _, acc (.load [rTr]), rTr, by decide +kernel, by decide +kernel, rfl,
    by decide +kernel, by decide +kernel, rfl, ⟨0, by decide +kernel⟩, by decide +kernel⟩,
   ⟨256, ask opDATA 0 0 0, upAcc (.load [rTr]), _, acc (.load [rTr]), [rTr], by decide +kernel, by decide +kernel, rfl,
    by decide +kernel⟩,
   ⟨0, 1, respMsg 0 6 6 0 { status := 0, grant := 1, data := some (zs 64) }, { up with
    coh := { up.coh with fwds := [⟨5, 0, 6, 0, false⟩] } }, ⟨5, 0, 6, 0, false⟩, by decide +kernel⟩,
   ⟨0, ask opDATA 0 0 0, up, by decide +kernel⟩,
   ⟨256, ask opCMP 0 0 0, { upAcc .writeBack with home := { (upAcc .writeBack).home with wbuf := [(0x8000000000, wbe []
    true)] } }, _, acc .writeBack, wbe [] true, by decide +kernel, by decide +kernel, rfl, by decide +kernel⟩,
   ⟨0, ask opCMP 0 0 0, up, by decide +kernel⟩⟩

/-- A state and operands that meet the hypotheses of each clause of WindowAndReceiveArea. -/
theorem witness_WindowAndReceiveArea :
    (∃ (s v : State) (p id : Nat) (m : Msg) (r : Req), s.AtBlock v p (s.winMsg p m 0x8000 3) 0 r ∧ mAddr r.msg = winBase
    + 65536 * id + 0x8000 ∧ mSize r.msg = 8 ∧ leAt r.msg.payload 0 8 < 32 ∧ (leAt r.msg.payload 0 8 = 0 ∨ (s.rd
    .POOL_LEASE_CFG_MIN_LOG2 ≤ leAt r.msg.payload 0 8 ∧ leAt r.msg.payload 0 8 ≤ s.rd .POOL_LEASE_CFG_MAX_LOG2))) ∧
    (∃ (s v : State) (p id : Nat) (m : Msg) (r : Req), s.AtBlock v p (s.winMsg p m 0x8000 3) 0 r ∧ mAddr r.msg = winBase
    + 65536 * id + 0x8000 ∧ mSize r.msg = 8 ∧ 32 ≤ leAt r.msg.payload 0 8) ∧
    (∃ (s v : State) (p id : Nat) (m : Msg) (r : Req), s.AtBlock v p (s.winMsg p m 0x8100 0) 0 r ∧ mAddr r.msg = winBase
    + 65536 * id + 0x8100 ∧ mSize r.msg = 1) ∧
    (∃ (s v : State) (p id : Nat) (m : Msg) (r : Req), s.AtBlock v p (s.winMsg p m 0x8200 3) 0 r ∧ mAddr r.msg = winBase
    + 65536 * id + 0x8200 ∧ mSize r.msg = 8 ∧ s.rxBaseOk (leAt r.msg.payload 0 8) = true ∧ (s.agent id).writing = [] ∧
    (s.agent id).rxaPend = none ∧ (s.agent id).held = []) ∧
    (∃ (s v : State) (p id : Nat) (m : Msg) (r : Req), s.AtBlock v p (s.winMsg p m 0x8200 3) 0 r ∧ mAddr r.msg = winBase
    + 65536 * id + 0x8200 ∧ mSize r.msg = 8 ∧ s.rxBaseOk (leAt r.msg.payload 0 8) = true ∧ (s.agent id).writing ≠ []) ∧
    (∃ (s v : State) (p id : Nat) (m : Msg) (r : Req), s.AtBlock v p (s.winMsg p m 0x8210 3) 0 r ∧ mAddr r.msg = winBase
    + 65536 * id + 0x8210 ∧ mSize r.msg = 8 ∧ leAt r.msg.payload 0 8 < 2 ^ 32 ∧ (leAt r.msg.payload 0 8 + 2 ^ 32 -
    (s.agent id).rxaTail) % 2 ^ 32 ≤ ((s.agent id).rxaHead + 2 ^ 32 - (s.agent id).rxaTail) % 2 ^ 32) ∧
    (∃ (p : Nat) (m : Msg) (s v : State) (r : Req), s.MsgAdmitted v p (withOpc m opMSG) r ∧ mDsw r.msg = 0 ∧
    v.msgDestExists r.msg = true ∧ (v.agent (mDst r.msg)).rxaPend = none ∧ (v.agent (mDst r.msg)).rxaLog2 ≠ 0 ∧ 1 + cdiv
    (mLen r.msg) 64 ≤ (v.agent (mDst r.msg)).rxaFree) ∧
    (∃ (p : Nat) (m : Msg) (s v : State) (r w : Req), s.MsgAdmitted v p (withOpc m opMSG) r ∧ mDsw r.msg = 0 ∧
    v.msgDestExists r.msg = true ∧ (v.agent (mDst r.msg)).rxaPend = some w) ∧
    (∃ (p u : Nat) (m : Msg) (s v : State) (r : Req), s.MsgAdmitted v p (withOpc m opMSG) r ∧ mDsw r.msg ≠ 0 ∧
    v.uplinkFor (mDsw r.msg) (mMpri r.msg) = some u) ∧
    (∃ (p : Nat) (m : Msg) (s : State), p < 320 ∧ s.active p = true ∧ s.rd .PRT_PFTL_STAT_ROLE p ≠ 3 ∧ s.ingressCheck p
    (withOpc m opMSG) = .accept ∧ (s.polMsg p (16 * mSlots (withOpc m opMSG))).1 = false) ∧
    (∃ (id : Nat) (r : Req) (s : State), id < 4096 ∧ (s.agent id).rxaPend = some r ∧ (s.agent id).writing = [] ∧ (∃ p,
    r.org = .port p) ∧ s.rxBaseOk (leAt r.msg.payload 0 8) = true ∧ (s.agent id).held = []) ∧
    (∃ (id : Nat) (r : Req) (s : State), id < 4096 ∧ (s.agent id).rxaPend = some r ∧ (s.agent id).writing = [] ∧
    s.rxBaseOk (leAt r.msg.payload 0 8) = true) ∧
    (∃ (id : Nat) (r : Req) (s : State), id < 4096 ∧ (s.agent id).rxaPend = some r ∧ (s.agent id).writing = [] ∧
    s.rxBaseOk (leAt r.msg.payload 0 8) = false) ∧
    (∃ (id : Nat) (x : RxMsg) (l : List RxMsg) (s : State), id < 4096 ∧ (s.agent id).writing = x :: l ∧ x.hdrSent = true
    ∧ s.engQuiet (.rxa id) = true) :=
  ⟨⟨up, (adm up 0 (up.winMsg 0 mWin 0x8000 3) 0), 0, 5, mWin, (up.accepted 0 (up.winMsg 0 mWin 0x8000 3) 0).1, block_of
    (by decide +kernel) (by decide +kernel) (by decide +kernel), by decide +kernel⟩,
   ⟨up, (adm up 0 (up.winMsg 0 (mWin (leBytes 16 32)) 0x8000 3) 0), 0, 5, mWin (leBytes 16 32), (up.accepted 0
    (up.winMsg 0 (mWin (leBytes 16 32)) 0x8000 3) 0).1, block_of (by decide +kernel) (by decide +kernel)
    (by decide +kernel), by decide +kernel⟩,
   ⟨up, (adm up 0 (up.winMsg 0 mWin 0x8100 0) 0), 0, 5, mWin, (up.accepted 0 (up.winMsg 0 mWin 0x8100 0) 0).1, block_of
    (by decide +kernel) (by decide +kernel) (by decide +kernel), by decide +kernel⟩,
   ⟨up, (adm up 0 (up.winMsg 0 mWin 0x8200 3) 0), 0, 5, mWin, (up.accepted 0 (up.winMsg 0 mWin 0x8200 3) 0).1, block_of
    (by decide +kernel) (by decide +kernel) (by decide +kernel), by decide +kernel⟩,
   ⟨upWr, (adm upWr 0 (upWr.winMsg 0 mWin 0x8200 3) 0), 0, 5, mWin, (upWr.accepted 0 (upWr.winMsg 0 mWin 0x8200 3) 0).1,
    block_of (by decide +kernel) (by decide +kernel) (by decide +kernel), by decide +kernel⟩,
   ⟨up, (adm up 0 (up.winMsg 0 mWin 0x8210 3) 0), 0, 5, mWin, (up.accepted 0 (up.winMsg 0 mWin 0x8210 3) 0).1, block_of
    (by decide +kernel) (by decide +kernel) (by decide +kernel), by decide +kernel⟩,
   ⟨0, mMsg, upRx, (pass (msgIn upRx mMsg)), (msgIn upRx mMsg).1, msgAdmitted_of (by decide +kernel)
    (by decide +kernel), by decide +kernel⟩,
   ⟨0, mMsg, upRxPend, (pass (msgIn upRxPend mMsg)), (msgIn upRxPend mMsg).1, req mWin, msgAdmitted_of
    (by decide +kernel) (by decide +kernel), by decide +kernel⟩,
   ⟨0, 300, mUpl, upSw, (pass (msgIn upSw mUpl)), (msgIn upSw mUpl).1, msgAdmitted_of (by decide +kernel)
    (by decide +kernel), by decide +kernel⟩,
   ⟨0, mMsg, upPol, by decide +kernel⟩,
   ⟨5, req mWin, upAgent (fun a => { a with rxaPend := some (req mWin) }), by decide, by decide +kernel,
    by decide +kernel, ⟨0, by decide +kernel⟩, by decide +kernel⟩,
   ⟨5, req mWin, upAgent (fun a => { a with rxaPend := some (req mWin) }), by decide +kernel⟩,
   ⟨5, req (mWin (leBytes 16 31)), upAgent (fun a => { a with rxaPend := some (req (mWin (leBytes 16 31))) }),
    by decide +kernel⟩,
   ⟨5, rxm, [], upAgent (fun a => { a with writing := [rxm] }), by decide +kernel⟩⟩

/-- A state and operands that meet the hypotheses of each clause of LaunchesAndContributions. -/
theorem witness_LaunchesAndContributions :
    (∃ (c : Instr) (s v : State) (p opc res : Nat) (m : Msg) (r : Req) (k : Nat), Launch c p m opc res ∧ s.AtSlot v p m
    opc res r k) ∧
    (∃ (s u : State) (p k : Nat) (m : Msg) (d : List Byte), s.Launched u p m 0x01 0 k ∧ d = (s.slot k).descBytes 64 ∧
    u.planStatus (u.reduceExtra (reducePlan (redShared d))) = stOK ∧ redRank d < redCount d ∧ u.collAt (redTag d) = none
    ∧ u.rgf.closed.contains (redTag d) = false) ∧
    (∃ (s u : State) (p k : Nat) (m : Msg) (d : List Byte) (c : Coll), s.Launched u p m 0x01 0 k ∧ d = (s.slot
    k).descBytes 64 ∧ u.planStatus (u.reduceExtra (reducePlan (redShared d))) = stOK ∧ u.collAt (redTag d) = some c ∧
    c.tag = redTag d ∧ redShared d = c.desc ∧ (u.slot k).tmo = c.tmo ∧ redRank d < redCount c.desc ∧ c.ranks.contains
    (redRank d) = false ∧ c.ended = none) ∧
    (∃ (c : Instr) (s u w : State) (p opc k n : Nat) (m : Msg) (a : Plan), Launch c p m opc 0 ∧ 2 ≤ opc ∧ opc ≤ 6 ∧
    s.Launched u p m opc 0 k ∧ w = (u.planRead k opc).2 ∧ w.engNoted (slotOrg k) = [] ∧ a = (u.planOf k opc).1 ∧
    w.planStatus a = stOK ∧ n = w.partCount a (w.slot k).nosplit) ∧
    (∃ (s u : State) (p k i : Nat) (m : Msg) (d : List Byte) (x : Extent), s.Launched u p m 0x07 0 k ∧ d = (s.slot
    k).descBytes 64 ∧ u.ownBusy k = false ∧ addrOk d 0 = true ∧ zeroBetween d 8 64 = true ∧ u.extentAt (leAt d 0 8) =
    some (i, x) ∧ (x.state = 1 ∨ x.state = 2)) ∧
    (∃ (s u w y : State) (p k i rec_ : Nat) (m : Msg) (d : List Byte) (x : Extent), s.Launched u p m 0x08 0 k ∧ d =
    (s.slot k).descBytes 64 ∧ u.ownBusy k = false ∧ rec_ = leAt d 16 8 ∧ addrOk d 0 = true ∧ addrOk d 16 = true ∧
    zeroBetween d 24 64 = true ∧ leAt d 15 1 = 0 ∧ leAt d 12 2 < 4096 ∧ leAt d 14 1 = 1 ∧ rec_ % 64 = 0 ∧ u.rangeStatus
    (Rng.mk (leAt d 0 8) 1) = stOK ∧ u.rangeStatus (Rng.mk rec_ 64) = stOK ∧ u.rangeIn (Rng.mk rec_ 64) (fun x => !x.coh
    && !x.pub) = true ∧ u.extentAt (leAt d 0 8) = some (i, x) ∧ x.owned = true ∧ x.gen = leAt d 8 4 ∧ u.hasLease (leAt d
    12 2) = true ∧ w = u.modSlot k (fun x => { x with tot := 1 }) ∧ y = (w.engWriteLine (slotOrg k) (slotAgentId k) 0
    (w.agentSub (slotAgentId k)) 4 (rec_ / 64) (leBytes 8 (x.base * 2 ^ 21) ++ leBytes 4 x.gen ++ leBytes 2 x.owner ++
    leBytes 2 (leAt d 12 2) ++ leBytes 8 w.now ++ leBytes 8 0 ++ leBytes 32 0) false).opAnswer k stOK 0 ∧ y.engNoted
    (slotOrg k) = []) ∧
    (∃ (s u w y : State) (p k i rec_ : Nat) (m : Msg) (d : List Byte) (x : Extent) (b : List Byte) (ps : List Bool),
    s.Launched u p m 0x08 0 k ∧ d = (s.slot k).descBytes 64 ∧ u.ownBusy k = false ∧ rec_ = leAt d 16 8 ∧ addrOk d 0 =
    true ∧ addrOk d 16 = true ∧ zeroBetween d 24 64 = true ∧ leAt d 15 1 = 0 ∧ leAt d 12 2 < 4096 ∧ leAt d 14 1 = 2 ∧
    rec_ % 64 = 0 ∧ u.rangeStatus (Rng.mk (leAt d 0 8) 1) = stOK ∧ u.rangeStatus (Rng.mk rec_ 64) = stOK ∧ u.rangeIn
    (Rng.mk rec_ 64) (fun x => !x.coh && !x.pub) = true ∧ u.extentAt (leAt d 0 8) = some (i, x) ∧ x.owned = true ∧ x.gen
    = leAt d 8 4 ∧ u.hasLease (leAt d 12 2) = true ∧ (u.modSlot k (fun x => { x with tot := 1 })).opRead k rec_ 64 =
    ((b, ps), w) ∧ ps.any (fun p => p) = false ∧ leAt b 0 8 = x.base * 2 ^ 21 ∧ leAt b 8 4 = x.gen ∧ leAt b 14 2 = leAt
    d 12 2 ∧ leAt b 63 1 = 0 ∧ w.hasLease (leAt d 12 2) = true ∧ y = ((w.xferClose k rec_ 1).modSlot k (fun x =>
    { x with pos := 1, ending := true, left := 1 })).xferOver k ∧ y.engNoted (slotOrg k) = []) ∧
    (∃ (c : Instr) (s u : State) (p opc res k : Nat) (m : Msg) (a : Plan), Launch c p m opc res ∧ 0x10 ≤ opc ∧ opc ≤
    0x13 ∧ s.Launched u p m opc res k ∧ a = nearPlan opc ((s.slot k).descBytes 128) ∧ u.planStatus a = stOK ∧ (opc =
    0x13 → ∀ h, h ∈ (a.outs ++ a.ins).flatMap u.nearHomes → (u.adderOf h).isSome)) ∧
    (∃ (s u z : State) (p k i l : Nat) (m : Msg) (x : Extent) (pat : List Byte) (q : Req), s.Launched u p m 0x10 0 k ∧
    64 * l = leAt ((s.slot k).descBytes 128) 0 8 ∧ leAt ((s.slot k).descBytes 128) 8 8 = 64 ∧ u.planStatus (nearPlan
    0x10 ((s.slot k).descBytes 128)) = stOK ∧ u.extentAt (64 * l) = some (i, x) ∧ x.state = 1 ∧ x.coh = false ∧ x.pub =
    false ∧ u.InOasis (l / 1024) ∧ tfind u.home.runs l = none ∧ u.engineFree k (u.homeOfPage (l / 1024)) = true ∧
    u.engNoted (slotOrg k) = [] ∧ pat = (List.range 8).flatMap (fun _ => (((s.slot k).descBytes 128).drop 16).take 8) ∧
    z = ((u.modSlot k (fun y =>
    { y with parts := 1, tot := 1, left := 1, nearLeft := [u.homeOfPage (l / 1024)], nearRes := 0 })).modSlot k (fun y
    => { y with nearRun := [u.homeOfPage (l / 1024)] })).onShare k (u.homeOfPage (l / 1024)) ∧ q = engReq (slotOrg k)
    (slotAgentId k) (u.homeOfPage (l / 1024)) (z.agentSub (slotAgentId k)) opNWR 5 (64 * l) 6 [(17, 1, 0)] pat ∧
    (z.atPoint (320 + z.homeOf (mAddr q.msg) % 16) (z.candOf q (320 + z.homeOf (mAddr q.msg) % 16) z.nextId z.cycle)).1
    = true) ∧
    (∃ (s v : State) (p : Nat) (m : Msg) (r : Req) (k : Nat), s.AtBlock v p (s.winMsg p m (0x800 * slotOfMsg m + 0x408)
    3) 0 r ∧ mSize r.msg = 8 ∧ winOff (mAddr r.msg) < 0x8000 ∧ winOff (mAddr r.msg) % 0x800 = 0x408 ∧ k = slotKey
    (winAgent (mAddr r.msg)) (winOff (mAddr r.msg) / 0x800) ∧ leAt r.msg.payload 0 8 < 65536) ∧
    (∃ (s v : State) (p : Nat) (m : Msg) (r : Req) (x : Coll) (rank res : Nat), s.AtOwner v p (withField (withOpc m
    opST) 119 3 4) res r x rank) ∧
    (∃ (s v : State) (p : Nat) (m : Msg) (r : Req) (x : Coll) (rank res i ln : Nat), s.AtOwner v p (withField (withOpc m
    opST) 119 3 4) res r x rank ∧ v.collAt x.tag = some x ∧ x.ended = none ∧ mSize r.msg = 64 ∧ i = (mAddr r.msg -
    redTarget x.desc) / 65536 ∧ ln = (mAddr r.msg - redTarget x.desc) % 65536 / 64 ∧ (x.chunk i).done.find? (fun e =>
    e.1 == rank) = none ∧ (flag x.desc 11 0 = true ∨ ln < x.rawLines i) ∧ (x.chunk i).lines.any (fun l => l.1 == rank &&
    l.2.1 == ln) = false ∧ x.held.any (fun h => h.chunk == i && h.req.src == r.src) = false ∧ ((x.chunk i).granted =
    true ∨ v.accRoom x i = true) ∧ (v.chunkBusy x.tag i = false ∨ v.stageUsed (v.dieOf (chunkSlot x.tag i)) < 131072)) ∧
    (∃ (tag chunk : Nat) (s : State) (c : Coll), s.contained = false ∧ s.collAt tag = some c ∧ c.ended = none ∧
    s.chunkBusy tag chunk = false ∧ c.held.filter (fun h => h.chunk == chunk) ≠ [] ∧ ((c.chunk chunk).granted = true ∨
    s.accRoom c chunk = true)) ∧
    (∃ (tag chunk : Nat) (s : State), s.contained = false ∧ (∀ c, s.collAt tag = some c → c.held.filter (fun h =>
    h.chunk == chunk) = [] ∨ c.ended.isSome = true ∨ s.chunkBusy tag chunk = true)) ∧
    (∃ (tag chunk : Nat) (s b y : State) (x c : Coll), s.contained = false ∧ s.chunkBusy tag chunk = false ∧ s.partner
    (s.dieOf (chunkSlot tag chunk)) = none ∧ s.collAt tag = some x ∧ (x.chunk chunk).writing = true ∧ (x.chunk
    chunk).issued = false ∧ b = s.updChunk tag chunk (fun x => { x with pm := 0 }) ∧ b.collAt tag = some c ∧ c.ended =
    none ∧ (c.chunk chunk).writing = true ∧ (c.chunk chunk).issued = false ∧ (c.chunk chunk).emitted = false ∧
    c.stopped.contains (chunkSlot tag chunk) = false ∧ extentCheck (b.extentAt (65536 * (redOut c.desc / 65536 +
    chunk))) = none ∧ (b.frameGate (c.chunk chunk) (redOut c.desc / 65536 + chunk)).1 = .go ∧ y = (b.frameGate (c.chunk
    chunk) (redOut c.desc / 65536 + chunk)).2.emitChunk c chunk) ∧
    (∃ (tag chunk : Nat) (s : State) (c : Coll), s.contained = false ∧ s.collAt tag = some c ∧ c.tag = tag ∧ c.ended =
    none ∧ s.chunkBusy tag chunk = false ∧ (c.chunk chunk).writing = true ∧ (c.chunk chunk).issued = true ∧ (c.chunk
    chunk).emitted = false ∧ s.frameQuiet c chunk = true ∧ c.stopped.contains (chunkSlot tag chunk) = false ∧ flag
    c.desc 11 3 = false) ∧
    (∃ (_tag _chunk : Nat) (s : State), s.contained = true) :=
  ⟨⟨.reduce 0 (mLw 0), (upD dRed), (adm (upD dRed) 0 ((upD dRed).launchMsg 0 (mLw 0) 1) 0), 0, 1, 0, mLw 0, ((upD
    dRed).accepted 0 ((upD dRed).launchMsg 0 (mLw 0) 1) 0).1, 80, List.mem_cons_self, block_of (by decide +kernel)
    (by decide +kernel) (by decide +kernel), by decide +kernel⟩,
   ⟨(upD dRed), (launched (upD dRed) (mLw 0) 0x01 0), 0, 80, mLw 0, _, (launched_of (block_of (by decide +kernel)
    (by decide +kernel) (by decide +kernel)) (by decide +kernel) (by decide +kernel)), rfl, by decide +kernel⟩,
   ⟨({ upD dRed with rgf := { (upD dRed).rgf with colls := [collRed] } }), (launched ({ upD dRed with rgf := { (upD
    dRed).rgf with colls := [collRed] } }) (mLw 0) 0x01 0), 0, 80, mLw 0, _, collRed, (launched_of (block_of
    (by decide +kernel) (by decide +kernel) (by decide +kernel)) (by decide +kernel) (by decide +kernel)), rfl,
    by decide +kernel⟩,
   ⟨.compress 0 (mLw 0), (upD dCmp), (launched (upD dCmp) (mLw 0) 0x06 0), _, 0, 6, 80, _, mLw 0, _, (by simp [Launch]),
    by decide, by decide, (launched_of (block_of (by decide +kernel) (by decide +kernel) (by decide +kernel))
    (by decide +kernel) (by decide +kernel)), rfl, by decide +kernel, rfl, by decide +kernel, rfl⟩,
   ⟨(upD (zs 64)), (launched (upD (zs 64)) (mLw 0) 0x07 0), 0, 80, 0, mLw 0, _, ext 0 4, (launched_of (block_of
    (by decide +kernel) (by decide +kernel) (by decide +kernel)) (by decide +kernel) (by decide +kernel)), rfl,
    by decide +kernel⟩,
   ⟨(upOwn 1), (launched (upOwn 1) (mLw 0) 0x08 0), _, _, 0, 80, 0, 64, mLw 0, _, { ext 0 4 with owned := true },
    (launched_of (block_of (by decide +kernel) (by decide +kernel) (by decide +kernel)) (by decide +kernel)
    (by decide +kernel)), rfl, by decide +kernel, by decide +kernel, by decide +kernel, by decide +kernel,
    by decide +kernel, by decide +kernel, by decide +kernel, by decide +kernel, by decide +kernel, by decide +kernel,
    by decide +kernel, by decide +kernel, by decide +kernel, by decide +kernel, by decide +kernel, by decide +kernel,
    rfl, rfl, by decide +kernel⟩,
   ⟨(upOwn 2), (launched (upOwn 2) (mLw 0) 0x08 0), _, _, 0, 80, 0, 64, mLw 0, _, { ext 0 4 with owned := true }, _, _,
    (launched_of (block_of (by decide +kernel) (by decide +kernel) (by decide +kernel)) (by decide +kernel)
    (by decide +kernel)), rfl, by decide +kernel, by decide +kernel, by decide +kernel, by decide +kernel,
    by decide +kernel, by decide +kernel, by decide +kernel, by decide +kernel, by decide +kernel, by decide +kernel,
    by decide +kernel, by decide +kernel, by decide +kernel, by decide +kernel, by decide +kernel, by decide +kernel,
    rfl, by decide +kernel, by decide +kernel, by decide +kernel, by decide +kernel, by decide +kernel,
    by decide +kernel, rfl, by decide +kernel⟩,
   ⟨.fill 0 (mLw 0), (upD dFill), (launched (upD dFill) (mLw 0) 0x10 0), 0, 0x10, 0, 80, mLw 0, _, (by simp [Launch]),
    by decide, by decide, (launched_of (block_of (by decide +kernel) (by decide +kernel) (by decide +kernel))
    (by decide +kernel) (by decide +kernel)), rfl, by decide +kernel, fun h => absurd h (by decide)⟩,
   ⟨(upD dFill), (launched (upD dFill) (mLw 0) 0x10 0), _, 0, 80, 0, 64, mLw 0, ext 0 4, _, _, (launched_of (block_of
    (by decide +kernel) (by decide +kernel) (by decide +kernel)) (by decide +kernel) (by decide +kernel)),
    by decide +kernel, by decide +kernel, by decide +kernel, by decide +kernel, by decide +kernel, by decide +kernel,
    by decide +kernel, inOasis_of 0 (by decide +kernel), by decide +kernel, by decide +kernel, by decide +kernel, rfl,
    rfl, rfl, by decide +kernel⟩,
   ⟨up, (adm up 0 (up.winMsg 0 mWin 0x408 3) 0), 0, mWin, (up.accepted 0 (up.winMsg 0 mWin 0x408 3) 0).1, 80, block_of
    (by decide +kernel) (by decide +kernel) (by decide +kernel), by decide +kernel⟩,
   ⟨upColl, (adm upColl 0 mCon 0), 0, ask opST 4 64 6 (zs 64), (upColl.accepted 0 mCon 0).1, coll, 0, 0,
    ⟨(by unfold State.Admitted; decide +kernel), ⟨_, rfl, pass_ok _ (by decide +kernel)⟩, by decide +kernel⟩⟩,
   ⟨upColl, (adm upColl 0 mCon0 0), 0, ask opST 4 0 6 (zs 64), (upColl.accepted 0 mCon0 0).1, coll, 0, 0, 0, 0,
    ⟨(by unfold State.Admitted; decide +kernel), ⟨_, rfl, pass_ok _ (by decide +kernel)⟩, by decide +kernel⟩,
    by decide +kernel⟩,
   ⟨1, 0, { up with rgf := { up.rgf with colls := [collHeld] } }, collHeld, by decide +kernel⟩,
   ⟨1, 0, up, by decide +kernel, fun c h => absurd (Eq.trans (show none = up.collAt 1 by decide +kernel) h) (by simp)⟩,
   ⟨1, 0, upHot, upHot.updChunk 1 0 (fun x => { x with pm := 0 }), _, collHot, collHot, by decide +kernel,
    by decide +kernel, by decide +kernel, by decide +kernel, by decide +kernel, by decide +kernel, rfl,
    by decide +kernel, by decide +kernel, by decide +kernel, by decide +kernel, by decide +kernel, by decide +kernel,
    by decide +kernel, by decide +kernel, rfl⟩,
   ⟨1, 0, upIss, collIss, by decide +kernel⟩,
   ⟨1, 0, upCont [], by decide +kernel⟩⟩

/-- A state and operands that meet the hypotheses of each clause of OperationsRun. -/
theorem witness_OperationsRun :
    (∃ (s : State), (∀ n mask, s.placeFor n mask = none)) ∧
    (∃ (s : State) (x : Part) (q : Nat), s.rgf.launchq = [x] ∧ s.placeFor (slotAgentId x.key % 32) (s.slot x.key).mask =
    some q ∧ s.partner (s.dieOf q) = none) ∧
    (∃ (d _res _pm : Nat) (s : State) (x : Part), d < 36 ∧ s.pairMayStart d = true ∧ startable (s.dieq d) = some x) ∧
    (∃ (d _res _pm : Nat) (s : State), d < 36 ∧ (s.pairMayStart d = false ∨ startable (s.dieq d) = none)) ∧
    (∃ (d : Nat) (s : State) (x : Part), d < 36 ∧ s.dieRuns d = true ∧ s.engaged d = false ∧ (s.dieq d).find? (fun x =>
    x.running && (x.worked || !s.engWaiting (slotOrg x.key))) = some x ∧ x.worked = true ∧ s.partner d = none) ∧
    (∃ (id n : Nat) (s : State), id < 4096 ∧ n < 16 ∧ (s.slot (slotKey id n)).isOpen = true ∧ (s.slot (slotKey id
    n)).ending = true ∧ (s.slot (slotKey id n)).left = 0 ∧ s.opQuiet (slotKey id n) = true ∧ (∀ c ∈ s.rgf.colls,
    c.slots.contains (slotKey id n) = false)) ∧
    (∃ (id n : Nat) (s u : State), id < 4096 ∧ n < 16 ∧ (s.slot (slotKey id n)).isOpen = true ∧ (s.slot (slotKey id
    n)).ending = true ∧ (s.slot (slotKey id n)).left = 0 ∧ s.opQuiet (slotKey id n) = true ∧ u = (((s.taintedOp id
    (s.slot (slotKey id n))).modSlot (slotKey id n) (fun y =>
    { y with isOpen := false, ending := false, tDone := s.now, crec := (s.slot (slotKey id n)).record s.now })).engForget
    (slotOrg (slotKey id n)))) ∧
    (∃ (id n : Nat) (s u : State), id < 4096 ∧ n < 16 ∧ u = (if s.contained then s else ((s.partsResume (slotKey id
    n)).nearResume (slotKey id n)).ownResume (slotKey id n)).xferOver (slotKey id n) ∧ ((u.slot (slotKey id n)).ending =
    false ∨ (u.slot (slotKey id n)).left ≠ 0 ∨ u.opQuiet (slotKey id n) = false)) ∧
    (∃ (id n : Nat) (s : State), id < 4096 ∧ n < 16 ∧ (s.slot (slotKey id n)).isOpen = true ∧ s.contained = false ∧
    (s.slot (slotKey id n)).deadline ≤ s.epoch ∧ ((s.slot (slotKey id n)).ending = false ∨ ((s.slot (slotKey id n)).rank
    < 4 ∧ ((s.slot (slotKey id n)).left ≠ 0 ∨ s.opQuiet (slotKey id n) = false))) ∧ s.collOf (slotKey id n) = none ∧ (∀
    e ∈ s.rgf.dieq, ∀ x ∈ e.2, x.key = slotKey id n → x.pending = false)) ∧
    (∃ (id n : Nat) (s : State) (c : Coll), id < 4096 ∧ n < 16 ∧ (s.slot (slotKey id n)).isOpen = true ∧ s.contained =
    false ∧ (s.slot (slotKey id n)).deadline ≤ s.epoch ∧ (s.slot (slotKey id n)).ending = false ∧ s.collOf (slotKey id
    n) = some c) ∧
    (∃ (id n : Nat) (s : State), id < 4096 ∧ n < 16 ∧ (s.contained = true ∨ s.epoch < (s.slot (slotKey id n)).deadline)) :=
  ⟨⟨upFull, fun n m => placeFor_full upFull n m (by decide +kernel)⟩,
   ⟨{ upSlot (fun x => { x with mask := 2 ^ 32 - 1 }) with rgf := { (upSlot (fun x =>
    { x with mask := 2 ^ 32 - 1 })).rgf with launchq := [part0] } }, part0, 5, by decide +kernel⟩,
   ⟨0, 0, 0, upDie part0, part0, by decide +kernel⟩,
   ⟨0, 0, 0, up, by decide +kernel⟩,
   ⟨0, upDie { part0 with running := true, worked := true }, { part0 with running := true, worked := true },
    by decide +kernel⟩,
   ⟨5, 0, upSlot (fun x => { x with ending := true }), by decide +kernel⟩,
   ⟨5, 0, upSlot (fun x => { x with ending := true }), _, by decide, by decide, by decide +kernel, by decide +kernel,
    by decide +kernel, by decide +kernel, rfl⟩,
   ⟨5, 0, upSlot id, _, by decide, by decide, rfl, by decide +kernel⟩,
   ⟨5, 0, upSlot id, by decide +kernel⟩,
   ⟨5, 0, { upSlot id with rgf := { (upSlot id).rgf with colls := [coll] } }, coll, by decide +kernel⟩,
   ⟨5, 0, upCont [], by decide +kernel⟩⟩

/-- A state and operands that meet the hypotheses of each clause of FrontiersAndTrays. -/
theorem witness_FrontiersAndTrays :
    (∃ (p seq : Nat) (s : State) (o : Outst), (s.source p).outst.find? (fun o => o.seq == seq && !o.answered &&
    !o.stopped) = some o) ∧
    (∃ (p seq : Nat) (s : State), (s.source p).cancels.contains seq = true ∧ (s.source p).isDone seq = true) ∧
    (∃ (p seq : Nat) (s : State), (s.source p).cancels.contains seq = true ∧ (s.source p).isDone seq = false) ∧
    (∃ (p seq : Nat) (s : State), (s.source p).canceled.contains seq = true) ∧
    (∃ (p : Nat) (s : State), (s.source p).gap ≠ []) ∧
    (∃ (p seq : Nat) (s : State), (s.source p).unreported.contains seq = true) ∧
    (∃ (k p : Nat) (s : State), k < 16 ∧ p < 320 ∧ s.on .PRT_PFTL_STAT_BOUND p = true) ∧
    (∃ (p seq : Nat) (s : State) (a : TAcc), s.taccAt p seq = some a ∧ s.lstate p ≠ 3) ∧
    (∃ (p seq : Nat) (s : State) (a : TAcc) (r : Req), s.taccAt p seq = some a ∧ s.lstate p ≠ 3 ∧ a.kind = .load [r] ∧
    (∃ k, r.org = .port k)) ∧
    (∃ (p seq : Nat) (s : State) (a : TAcc), s.taccAt p seq = some a ∧ s.lstate p = 3) ∧
    (∃ (line : Nat) (s : State) (e : WbEnt), s.rd .SEC_TEN_STAT_STATE ≠ 2 ∧ (s.page (line / 1024)).loc ≠ 2 ∧ s.owes line
    = false ∧ tfind s.home.wbuf line = some e ∧ e.issued = false ∧ s.home.tacc.any (fun t => t.line == line) = false ∧
    s.trayGate line e.cls 5 = .tray ∧ 64 ≤ e.bytes.length) ∧
    (∃ (line : Nat) (s : State) (e : WbEnt), s.rd .SEC_TEN_STAT_STATE ≠ 2 ∧ (s.page (line / 1024)).loc ≠ 2 ∧ s.owes line
    = false ∧ tfind s.home.wbuf line = some e ∧ e.issued = false ∧ s.home.tacc.any (fun t => t.line == line) = false ∧
    s.trayGate line e.cls 5 = .tray ∧ e.bytes.length < 64) ∧
    (∃ (line : Nat) (s : State), s.rd .SEC_TEN_STAT_STATE ≠ 2 ∧ (s.page (line / 1024)).loc ≠ 2 ∧ s.owes line = true) ∧
    (∃ (line : Nat) (s : State), (s.rd .SEC_TEN_STAT_STATE = 2 ∨ (s.page (line / 1024)).loc = 2)) :=
  ⟨⟨0, 0, upSrc (fun q => { q with outst := [out0] }), out0, by decide +kernel⟩,
   ⟨0, 0, upSrc (fun q => { q with cancels := [0], pf := 1 }), by decide +kernel⟩,
   ⟨0, 0, upSrc (fun q => { q with cancels := [0] }), by decide +kernel⟩,
   ⟨0, 0, upSrc (fun q => { q with canceled := [0] }), by decide +kernel⟩,
   ⟨0, upSrc (fun q => { q with newest := some 2, tops := [2] }), by decide +kernel⟩,
   ⟨0, 0, upSrc (fun q => { q with unreported := [0] }), by decide +kernel⟩,
   ⟨0, 0, up, by decide +kernel⟩,
   ⟨256, 0, upAcc (.load []), acc (.load []), by decide +kernel⟩,
   ⟨256, 0, upAcc (.load [rTr]), acc (.load [rTr]), rTr, by decide +kernel, by decide +kernel, rfl, ⟨0,
    by decide +kernel⟩⟩,
   ⟨256, 0, (upAcc (.load [])).setLstate 256 3, acc (.load []), by decide +kernel⟩,
   ⟨0x800000000, upBuf 64, wbe ((List.range 64).map (fun i => (i, 1))) false, by decide +kernel⟩,
   ⟨0x800000000, upBuf 1, wbe ((List.range 1).map (fun i => (i, 1))) false, by decide +kernel⟩,
   ⟨0, { up with home := { up.home with owed := [(0, 1)] } }, by decide +kernel⟩,
   ⟨0, up.wr .SEC_TEN_STAT_STATE 2, by decide +kernel⟩⟩

/-- A state and operands that meet the hypotheses of each clause of FrontierSettle. -/
theorem witness_FrontierSettle :
    (∃ (q : Source) (_seq : Nat), q.pf < 2 ^ 20 ∧ q.pf ∉ q.above) :=
  ⟨Source.init, 0, by decide +kernel⟩

/-- A state and operands that meet the hypotheses of each clause of CrossingsAndWindows. -/
theorem witness_CrossingsAndWindows :
    (∃ (o d x : Nat) (s : State), s.sw.cross.filter (fun c => c.org == o && c.dst == d && c.xsn == x) ≠ [] ∧ (∀ c ∈
    s.sw.cross, c.org = o → c.dst = d → c.xsn = x → c.plane < 8 ∧ s.planeFailed c.plane = false ∧ s.linkNext c = true) ∧
    x < 65536 ∧ tget 0 s.sw.xsnDone (Nat.pair o d) < 65536 ∧ (x + 65536 - tget 0 s.sw.xsnDone (Nat.pair o d)) % 65536 <
    4096 ∧ s.sw.xhold.any (fun c => c.org == o && c.dst == d && c.xsn == x) = false) ∧
    (∃ (o d x : Nat) (s : State), s.sw.cross.filter (fun c => c.org == o && c.dst == d && c.xsn == x) ≠ [] ∧ (∀ c ∈
    s.sw.cross, c.org = o → c.dst = d → c.xsn = x → c.plane < 8 ∧ s.planeFailed c.plane = false ∧ s.linkNext c = true) ∧
    (4096 ≤ (x + 65536 - tget 0 s.sw.xsnDone (Nat.pair o d)) % 65536 ∨ s.sw.xhold.any (fun c => c.org == o && c.dst == d
    && c.xsn == x) = true)) ∧
    (∃ (o d : Nat) (s : State) (c : Cross), s.sw.xhold.any (fun c => c.org == o && c.dst == d) = true ∧ s.sw.cross.find?
    (fun c => c.org == o && c.dst == d && c.xsn == tget 0 s.sw.xsnDone (Nat.pair o d)) = some c ∧ c.plane < 8 ∧
    s.planeFailed c.plane = false) ∧
    (∃ (n : Nat) (s : State) (x : IngMsg), s.sw.ing.find? (fun x => x.n == n && x.taken) = some x ∧ s.accHeld n = false) ∧
    (∃ (addr : Nat) (s : State) (g : AtGrp) (r : Req) (l : List Req), s.home.atGrps.find? (fun g => g.addr == addr) =
    some g ∧ g.members = r :: l ∧ extentCheck (s.extentAt g.addr) = none ∧ s.InOasis (pageOf g.addr) ∧ s.onTray (lineOf
    g.addr) = false ∧ s.heatCounted (pageOf g.addr) = false) ∧
    (∃ (line : Nat) (s : State), tfind s.home.runs line = some []) ∧
    (∃ (line : Nat) (s : State) (r : Req) (l : List Req), tfind s.home.runs line = some (r :: l) ∧ extentCheck
    (s.extentAt (64 * line)) = none ∧ s.InOasis (line / 1024) ∧ s.heatCounted (line / 1024) = false) ∧
    (∃ (line : Nat) (s : State) (r : Req) (l : List Req) (st : Nat), tfind s.home.runs line = some (r :: l) ∧
    extentCheck (s.extentAt (64 * line)) = some st) :=
  ⟨⟨8, 9, 0, { up with sw := { up.sw with cross := [crs] } }, by decide +kernel⟩,
   ⟨8, 9, 5000, { up with sw := { up.sw with cross := [{ crs with xsn := 5000 }] } }, by decide +kernel⟩,
   ⟨8, 9, { up with sw := { up.sw with cross := [crs], xhold := [{ crs with xsn := 1 }] } }, crs, by decide +kernel⟩,
   ⟨0, { up with sw := { up.sw with ing := [ingm] } }, ingm, by decide +kernel⟩,
   ⟨64, { up with home := { up.home with atGrps := [⟨64, 0, 8, false, [req mLd]⟩] } }, ⟨64, 0, 8, false, [req mLd]⟩, req
    mLd, [], by decide +kernel, by decide +kernel, by decide +kernel, inOasis_of 0 (by decide +kernel),
    by decide +kernel⟩,
   ⟨1, { up with home := { up.home with runs := [(1, [])] } }, by decide +kernel⟩,
   ⟨1, { up with home := { up.home with runs := [(1, [req mLd])] } }, req mLd, [], by decide +kernel, by decide +kernel,
    inOasis_of 0 (by decide +kernel), by decide +kernel⟩,
   ⟨2 ^ 30, { up with home := { up.home with runs := [(2 ^ 30, [req mLd])] } }, req mLd, [], stUNMAPPED,
    by decide +kernel⟩⟩

/-- A state and operands that meet the hypotheses of each clause of PlanesAndMirror. -/
theorem witness_PlanesAndMirror :
    (∃ (n : Nat) (s : State), n < 8 ∧ s.planeFailed n = false) ∧
    (∃ (h q : Nat) (l : List Nat) (s : State), s.failedSlots = h :: l ∧ s.sparePlane = some q) ∧
    (∃ (h : Nat) (l : List Nat) (s : State), s.failedSlots = h :: l ∧ s.sparePlane = none ∧ 2 ≤ s.rd
    .SWC_PLANE_STAT_N_ACTIVE) ∧
    (∃ (h : Nat) (l : List Nat) (s : State), s.failedSlots = h :: l ∧ s.sparePlane = none ∧ s.rd
    .SWC_PLANE_STAT_N_ACTIVE ≤ 1 ∧ s.contained = false) ∧
    (∃ (s u v : State) (r : MirRec) (l : List MirRec) (st : Nat), s.sw.mirq = r :: l ∧ r.sent = false ∧ u = { s with
    sw := { s.sw with mirq := { r with sent := true } :: l } } ∧ u.EngPasses v (engReq .mirror 0 0 1023 opNWR 7
    (s.mirrAddr r.index) 5 [] (slice r.bytes 0 32)) ∧ s.mirrAddr r.index < 2 ^ 48 ∧ extentCheck (s.extentAt (s.mirrAddr
    r.index)) = some st) ∧
    (∃ (s u : State) (r : MirRec) (l : List MirRec) (q : Req) (n : Nat), s.sw.mirq = r :: l ∧ r.sent = false ∧ u = { s
    with sw := { s.sw with mirq := { r with sent := true } :: l } } ∧ q = engReq .mirror 0 0 1023 opNWR 7 (s.mirrAddr
    r.index) 5 [] (slice r.bytes 0 32) ∧ n = 320 + u.homeOf (mAddr q.msg) % 16 ∧ (u.atPoint n (u.candOf q n u.nextId
    u.cycle)).1 = false) ∧
    (∃ (s u v : State) (r : MirRec) (l : List MirRec) (i : Nat) (x : Extent), s.sw.mirq = r :: l ∧ r.sent = false ∧ u =
    { s with sw := { s.sw with mirq := { r with sent := true } :: l } } ∧ u.EngPasses v (engReq .mirror 0 0 1023 opNWR 7
    (s.mirrAddr r.index) 5 [] (slice r.bytes 0 32)) ∧ s.mirrAddr r.index < 2 ^ 48 ∧ s.extentAt (s.mirrAddr r.index) =
    some (i, x) ∧ x.state = 1 ∧ x.coh = false ∧ x.pub = false ∧ s.InOasis (pageOf (s.mirrAddr r.index)) ∧ tfind
    s.home.runs (lineOf (s.mirrAddr r.index)) = none ∧ s.on .SWC_CTL_MRG_EN = false ∧ s.badSyms (lineOf (s.mirrAddr
    r.index)) = 0 ∧ s.linePsn (lineOf (s.mirrAddr r.index)) = false) ∧
    (∃ (v : Nat) (s : State), s.hostHeld = false ∧ bit v 0 = true ∧ s.on .MIRR_CTL_EN = false) ∧
    (∃ (v : Nat) (s : State), s.hostHeld = false ∧ bit v 0 = false) :=
  ⟨⟨0, up, by decide +kernel⟩,
   ⟨0, 7, [], up.wr .SWC_PLANE_STAT_FAILED 1, by decide +kernel⟩,
   ⟨0, [], up.wr .SWC_PLANE_STAT_FAILED 0x81, by decide +kernel⟩,
   ⟨0, [], wrs up [(.SWC_PLANE_STAT_FAILED, 0, 0xFF), (.SWC_PLANE_STAT_N_ACTIVE, 0, 1)], by decide +kernel⟩,
   ⟨upMir 0x10000, { upMir 0x10000 with sw := { (upMir 0x10000).sw with mirq := [{ mir0 with sent := true }] } },
    (engPass ({ upMir 0x10000 with sw := { (upMir 0x10000).sw with mirq := [{ mir0 with sent := true }] } }) (engReq
    .mirror 0 0 1023 opNWR 7 ((upMir 0x10000).mirrAddr 0) 5 [] (slice mir0.bytes 0 32))).2, mir0, [], stUNMAPPED,
    by decide +kernel, by decide +kernel, rfl, engPass_ok _ _ (by decide +kernel), by decide +kernel⟩,
   ⟨{ upMir 0 with home := { (upMir 0).home with waits := [⟨req mLd, 15, 320 + up.homeOf 0 % 16⟩] } }, _, mir0, [], _,
    _, by decide +kernel, by decide +kernel, rfl, rfl, rfl, by decide +kernel⟩,
   ⟨upMir 0, { upMir 0 with sw := { (upMir 0).sw with mirq := [{ mir0 with sent := true }] } }, (engPass ({ upMir 0 with
    sw := { (upMir 0).sw with mirq := [{ mir0 with sent := true }] } }) (engReq .mirror 0 0 1023 opNWR 7 ((upMir
    0).mirrAddr 0) 5 [] (slice mir0.bytes 0 32))).2, mir0, [], 0, ext 0 4, by decide +kernel, by decide +kernel, rfl,
    engPass_ok _ _ (by decide +kernel), by decide +kernel, by decide +kernel, by decide +kernel, by decide +kernel,
    by decide +kernel, inOasis_of 0 (by decide +kernel), by decide +kernel⟩,
   ⟨1, up, by decide +kernel⟩,
   ⟨0, up, by decide +kernel⟩⟩

/-- A state and operands that meet the hypotheses of each clause of PortsComeAndGo. -/
theorem witness_PortsComeAndGo :
    (∃ (p : Nat) (s : State), p < 320 ∧ (s.lstate p = 2 ∨ s.lstate p = 3)) ∧
    (∃ (p : Nat) (s : State), p < 320 ∧ s.lstate p = 1) ∧
    (∃ (p : Nat) (s : State), p < 320 ∧ (s.port p).flushing = true ∧ (s.sw.cross ++ s.sw.xhold ++ s.sw.voq).any (fun c
    => c.point == p) = false ∧ s.agents.any (fun e => e.2.walking && e.2.port == some p) = false) ∧
    (∃ (p : Nat) (s : State), s.hostHeld = false ∧ p < 320 ∧ s.isPftl p = true ∧ s.on .PRT_PFTL_STAT_BOUND p = true ∧
    s.lstate p ≠ 3) ∧
    (∃ (p : Nat) (s : State), s.hostHeld = false ∧ p < 320 ∧ s.isPftl p = true ∧ s.on .PRT_PFTL_STAT_BOUND p = true ∧
    s.lstate p = 3) ∧
    (∃ (p : Nat) (s : State), s.hostHeld = false ∧ p < 320 ∧ 1 ≤ s.lstate p ∧ s.lstate p ≤ 3) ∧
    (∃ (p : Nat) (s : State), s.hostHeld = false ∧ p < 320 ∧ (s.lstate p = 0 ∨ 3 < s.lstate p)) ∧
    (∃ (p : Nat) (s u : State), s.hostHeld = false ∧ p < 320 ∧ u = s.wr .PRT_CTL_EN 1 p ∧ u.mayTrain p = true ∧ (s.port
    p).signal = true ∧ s.lstate p = 0) ∧
    (∃ (p : Nat) (s : State), p < 320 ∧ s.mayTrain p = true ∧ s.lstate p = 0) ∧
    (∃ (p : Nat) (s : State), s.mayTrain p = true ∧ s.lstate p = 1 ∧ s.power.refclkGone.contains (s.rd .PRT_CFG_DIE p /
    4) = false) ∧
    (∃ (p : Nat) (s : State), p < 320 ∧ s.lstate p = 4 ∧ s.rd .PRT_HOLD_REMAIN p = 0 ∧ s.mayTrain p = true) ∧
    (∃ (p : Nat) (s : State), s.hostHeld = false ∧ p < 320 ∧ s.lstate p = 5 ∧ s.mayTrain p = true) ∧
    (∃ (p : Nat) (s : State), s.lstate p = 2 ∧ s.isPftl p = true ∧ s.on .PRT_PFTL_STAT_BOUND p = false) :=
  ⟨⟨0, up, by decide +kernel⟩,
   ⟨2, up.setLstate 2 1, by decide +kernel⟩,
   ⟨2, upPort 2 (fun x => { x with flushing := true }), by decide +kernel⟩,
   ⟨0, up, by decide +kernel⟩,
   ⟨0, up.setLstate 0 3, by decide +kernel⟩,
   ⟨0, up, by decide +kernel⟩,
   ⟨2, up.setLstate 2 0, by decide +kernel⟩,
   ⟨2, up.setLstate 2 0, (up.setLstate 2 0).wr .PRT_CTL_EN 1 2, by decide +kernel, by decide, rfl, by decide +kernel⟩,
   ⟨2, up.setLstate 2 0, by decide +kernel⟩,
   ⟨2, up.setLstate 2 1, by decide +kernel⟩,
   ⟨2, up.setLstate 2 4, by decide +kernel⟩,
   ⟨2, up.setLstate 2 5, by decide +kernel⟩,
   ⟨2, up, by decide +kernel⟩⟩

/-- A state and operands that meet the hypotheses of each clause of RetrainAndUplink. -/
theorem witness_RetrainAndUplink :
    (∃ (p lane : Nat) (s : State), p < 320 ∧ lane < s.width p ∧ s.pmode p = 1 ∧ s.lstate p = 2) ∧
    (∃ (p lane : Nat) (s : State), p < 320 ∧ lane < s.width p ∧ 2 ≤ s.pmode p ∧ s.lstate p = 2) ∧
    (∃ (p : Nat) (s : State), p < 320 ∧ s.pmode p = 1 ∧ s.lstate p = 2) ∧
    (∃ (p : Nat) (s : State), s.hostHeld = false ∧ p < 320 ∧ s.pmode p = 1 ∧ s.lstate p = 2) ∧
    (∃ (p : Nat) (_bad : List Nat) (s : State), p < 320 ∧ s.lstate p = 3 ∧ (s.port p).repairing = false ∧ (s.port
    p).failedLane = none ∧ (s.port p).attempts = 0) ∧
    (∃ (p : Nat) (bad : List Nat) (s : State), p < 320 ∧ s.lstate p = 3 ∧ (s.port p).repairing = false ∧ (s.port
    p).failedLane = none ∧ (s.port p).attempts = 1 ∧ (∀ i ∈ bad, s.width p ≤ i ∨ i ∉ (s.port p).fastBad)) ∧
    (∃ (p i : Nat) (s : State), p < 320 ∧ s.lstate p = 3 ∧ (s.port p).repairing = false ∧ (s.port p).failedLane = none ∧
    (s.port p).attempts = 1 ∧ i < s.width p ∧ i ∈ (s.port p).fastBad) ∧
    (∃ (p n l : Nat) (pass : Bool) (s v u : State), p < 320 ∧ s.lstate p = 3 ∧ (s.port p).failedLane = some n ∧ v = (if
    (s.tryRepair p n pass).1 then (s.tryRepair p n pass).2 else ((s.tryRepair p n pass).2.wr .PRT_LANE_MAP_STATE 2 p
    n).showRepaired p) ∧ l = 16 * s.rd .PRT_CFG_DIE p + s.laneIdx p n ∧ u = (if v.laneQueued l then v else v.laneRecord
    l)) ∧
    (∃ (p : Nat) (s : State), p < 320 ∧ s.lstate p = 3 ∧ (s.port p).repairing = true) ∧
    (∃ (p : Nat) (s : State), p < 320 ∧ s.lstate p = 3 ∧ (s.port p).repairing = true) ∧
    (∃ (p : Nat) (b : List Byte) (s : State), p < 320 ∧ s.pmode p = 3 ∧ s.lstate p = 2 ∧ s.contained = false ∧
    s.frameMsg p b = none) ∧
    (∃ (p : Nat) (b : List Byte) (s u : State) (m : Msg), p < 320 ∧ s.pmode p = 3 ∧ s.lstate p = 2 ∧ s.contained = false
    ∧ s.frameMsg p b = some m ∧ s.running = true ∧ s.on .MIRR_CTL_EN = false ∧ u = (s.polMsg p (16 * mSlots m)).2 ∧
    (s.polMsg p (16 * mSlots m)).1 = true ∧ s.power.waking = false) ∧
    (∃ (p pcp : Nat) (s : State), p < 320 ∧ s.pmode p = 3 ∧ s.lstate p = 2 ∧ (s.port p).xoff.contains pcp = true) ∧
    (∃ (p n t0 : Nat) (s : State), p < 320 ∧ s.pmode p = 3 ∧ s.lstate p = 2 ∧ n < 8 ∧ s.pfcOn p n = true ∧ s.pfcIgnored
    p n = false ∧ t0 ≠ 0) ∧
    (∃ (p n : Nat) (s : State), p < 320 ∧ n < 8 ∧ s.paused p n = true) ∧
    (∃ (p n e : Nat) (s : State), p < 320 ∧ n < 8 ∧ s.paused p n = true ∧ tfind (s.port p).pauseStart n = some e ∧ e +
    s.rd .PRT_UPL_PFC_WD_WD p ≤ s.epoch) :=
  ⟨⟨0, 7, up, by decide +kernel⟩,
   ⟨256, 7, up, by decide +kernel⟩,
   ⟨0, up, by decide +kernel⟩,
   ⟨0, up, by decide +kernel⟩,
   ⟨0, [0], up.setLstate 0 3, by decide +kernel⟩,
   ⟨0, [], (upPort 0 (fun x => { x with attempts := 1 })).setLstate 0 3, by decide +kernel⟩,
   ⟨0, 0, (upPort 0 (fun x => { x with attempts := 1, fastBad := [0] })).setLstate 0 3, by decide +kernel⟩,
   ⟨0, 0, 0, false, (upPort 0 (fun x => { x with failedLane := some 0 })).setLstate 0 3, _, _, by decide,
    by decide +kernel, by decide +kernel, rfl, by decide +kernel, rfl⟩,
   ⟨0, (upPort 0 (fun x => { x with repairing := true })).setLstate 0 3, by decide +kernel⟩,
   ⟨0, (upPort 0 (fun x => { x with repairing := true })).setLstate 0 3, by decide +kernel⟩,
   ⟨300, [], up, by decide +kernel⟩,
   ⟨300, frm, up, (up.polMsg 300 (16 * mSlots { mMsg with payload := zs 16 })).2, { mMsg with payload := zs 16 }, by
    decide, by decide +kernel, by decide +kernel, by decide +kernel, by decide +kernel, by decide +kernel,
    by decide +kernel, rfl, by decide +kernel⟩,
   ⟨300, 0, upPort 300 (fun x => { x with xoff := [0] }), by decide +kernel⟩,
   ⟨300, 0, 1, up.wr .PRT_UPL_CTL_PFC_EN 1 300, by decide +kernel⟩,
   ⟨300, 0, up.wr .PRT_UPL_PAUSED_PCP 1 300, by decide +kernel⟩,
   ⟨300, 0, 0, wrs (upPort 300 (fun x => { x with pauseStart := [(0, 0)] })) [(.PRT_UPL_PAUSED_PCP, 300, 1),
    (.PRT_UPL_PFC_WD_WD, 300, 0)], by decide +kernel⟩⟩

/-- A state and operands that meet the hypotheses of each clause of SelectServes. -/
theorem witness_SelectServes :
    (∃ (s : State) (cs : List Cand) (q : Nat), s.clsReady cs q 0 = true) ∧
    (∃ (s : State) (cs : List Cand) (q : Nat), s.clsReady cs q 0 = false ∧ s.clsReady cs q 1 = true) ∧
    (∃ (s : State) (cs : List Cand) (q : Nat) (k : Pick), s.pickCls cs q = some k ∧ 2 ≤ k.id) ∧
    (∃ (q : Nat) (s : State) (k u : Pick) (x : Cand), q < 376 ∧ s.pickCls (s.candsAt q) q = some k ∧ s.pickSub
    (s.candsAt q) q k.id = some (u, x)) ∧
    (∃ (q : Nat) (s : State) (k u : Pick) (x : Cand) (w : Wait), 320 ≤ q ∧ q < 376 ∧ s.pickCls (s.candsAt q) q = some k
    ∧ s.pickSub (s.candsAt q) q k.id = some (u, x) ∧ s.sw.ing.find? (fun y => y.n == x.n) = none ∧ s.home.waits.find?
    (fun w => w.cause == 15 && w.key == q && w.req.pt == x.n) = some w) ∧
    (∃ (q : Nat) (s : State), q < 376 ∧ s.pickCls (s.candsAt q) q = none) ∧
    (∃ (s : State), s.hostHeld = false) ∧
    (∃ (s : State), s.epochRuns = true ∧ s.clk.subtick < 15 ∧ s.running = true) ∧
    (∃ (s : State), s.epochRuns = true ∧ s.clk.subtick < 15 ∧ s.running = false) :=
  ⟨⟨up, [⟨0, 0, 0, 32, true, 0⟩], 0, by decide +kernel⟩,
   ⟨up, [⟨0, 1, 0, 32, true, 0⟩], 0, by decide +kernel⟩,
   ⟨up, [⟨0, 3, 0, 32, true, 0⟩], 0, (up.pickCls [⟨0, 3, 0, 32, true, 0⟩] 0).getD ⟨0, true, []⟩, by decide +kernel⟩,
   ⟨0, upEgr, (upEgr.pickCls (upEgr.candsAt 0) 0).getD ⟨0, true, []⟩, ((upEgr.pickSub (upEgr.candsAt 0) 0 2).getD (⟨0,
    true, []⟩, ⟨0, 0, 0, 0, true, 0⟩)).1, ((upEgr.pickSub (upEgr.candsAt 0) 0 2).getD (⟨0, true, []⟩, ⟨0, 0, 0, 0, true,
    0⟩)).2, by decide +kernel⟩,
   ⟨320, upQ, (upQ.pickCls (upQ.candsAt 320) 320).getD ⟨0, true, []⟩, selQ.1, selQ.2, ⟨{ req mLd with pt := 1 }, 15,
    320⟩, by decide +kernel⟩,
   ⟨0, up, by decide +kernel⟩,
   ⟨up, by decide +kernel⟩,
   ⟨up, by decide +kernel⟩,
   ⟨up.wr .PWR_STAT_STATE 1, by decide +kernel⟩⟩

/-- A state and operands that meet the hypotheses of each clause of EpochUnit. -/
theorem witness_EpochUnit :
    (∃ (h _g _i : Nat) (s : State), s.epochRuns = true ∧ h < 200) ∧
    (∃ (h g _i : Nat) (s : State), s.epochRuns = true ∧ 200 ≤ h ∧ g < 4000) ∧
    (∃ (h g i : Nat) (s : State), s.epochRuns = true ∧ 200 ≤ h ∧ 4000 ≤ g ∧ s.clk.relock = false ∧ s.on
    .PWR_EP_STAT_LOCKED = true ∧ s.clk.madeLast = false ∧ 100 * (i - s.rd .PWR_EP_STAT_PERIOD) ≤ s.rd
    .PWR_EP_STAT_PERIOD ∧ 100 * (s.rd .PWR_EP_STAT_PERIOD - i) ≤ s.rd .PWR_EP_STAT_PERIOD) ∧
    (∃ (s : State), s.epochRuns = true ∧ s.clk.unlocked = true) ∧
    (∃ (s : State), s.epochRuns = true ∧ s.clk.unlocked = false ∧ s.on .PWR_EP_STAT_HOLDOVER = true) ∧
    (∃ (s : State), s.epochRuns = true ∧ s.clk.unlocked = false ∧ s.on .PWR_EP_STAT_HOLDOVER = false) ∧
    (∃ (s : State), s.epochRuns = true ∧ s.on .PWR_EP_STAT_HOLDOVER = false) ∧
    (∃ (_hold : Bool) (_len : Option Nat) (s : State), s.running = false ∧ 2 ≤ s.rd .PWR_STAT_STATE) ∧
    (∃ (n : Nat) (_b : Bool) (_s : State), n < 9) :=
  ⟨⟨199, 0, 0, up, by decide +kernel⟩,
   ⟨200, 3999, 0, up, by decide +kernel⟩,
   ⟨200, 4000, 100, wrs up [(.PWR_EP_STAT_LOCKED, 0, 1), (.PWR_EP_STAT_PERIOD, 0, 100)], by decide +kernel⟩,
   ⟨{ up with clk := { up.clk with unlocked := true } }, by decide +kernel⟩,
   ⟨up, by decide +kernel⟩,
   ⟨up.wr .PWR_EP_STAT_HOLDOVER 0, by decide +kernel⟩,
   ⟨up.wr .PWR_EP_STAT_HOLDOVER 0, by decide +kernel⟩,
   ⟨true, none, up.wr .PWR_STAT_STATE 2, by decide +kernel⟩,
   ⟨0, true, up, by decide +kernel⟩⟩

/-- A state and operands that meet the hypotheses of each clause of PowerStates. -/
theorem witness_PowerStates :
    (∃ (c : Instr) (n : Nat) (s : State), s.hostHeld = false ∧ (c, n) ∈ [(Instr.idle, 1), (.sleep, 2), (.dsleep, 3),
    (.off, 4)] ∧ s.power.inReset = false ∧ s.power.offState = false ∧ s.rd .PWR_STAT_STATE = 0 ∧ s.on .PWR_STAT_BUSY =
    false ∧ s.entryReason n ≠ 0) ∧
    (∃ (c : Instr) (n : Nat) (s : State), s.hostHeld = false ∧ (c, n) ∈ [(Instr.idle, 1), (.sleep, 2), (.dsleep, 3)] ∧
    s.power.inReset = false ∧ s.power.offState = false ∧ s.rd .PWR_STAT_STATE = 0 ∧ s.on .PWR_STAT_BUSY = false ∧
    s.entryReason n = 0) ∧
    (∃ (s : State), s.hostHeld = false ∧ s.power.inReset = false ∧ s.power.offState = false ∧ s.rd .PWR_STAT_STATE = 0 ∧
    s.on .PWR_STAT_BUSY = false ∧ s.entryReason 4 = 0) ∧
    (∃ (s : State), s.hostHeld = false ∧ s.power.inReset = false ∧ s.power.offState = false ∧ s.rd .PWR_STAT_STATE = 0 ∧
    s.on .PWR_STAT_BUSY = false) ∧
    (∃ (s : State), s.hostHeld = false ∧ (s.rd .PWR_STAT_STATE = 1 ∨ s.rd .PWR_STAT_STATE = 2) ∧ s.asleep = true ∧ s.on
    .PWR_STAT_BUSY = false) ∧
    (∃ (c : Instr) (s : State), s.hostHeld = false ∧ c ∈ [Instr.idle, .sleep, .dsleep, .off] ∧ s.power.inReset = false ∧
    s.power.offState = false ∧ s.rd .PWR_STAT_STATE ≠ 3 ∧ s.on .PWR_STAT_BUSY = true) ∧
    (∃ (s : State), s.power.entering = some 3 ∧ s.power.pme = false) ∧
    (∃ (n : Nat) (s : State), 1 ≤ n ∧ n ≤ 3 ∧ s.power.entering = some n ∧ s.entryReady n = true ∧ s.power.heldEdge =
    false ∧ s.power.heldLevels = 0 ∧ (s.setPower
    { s.power with entering := none, heldEdge := false, heldLevels := 0, lowStart := s.now / 4096 }).levels n = 0) ∧
    (∃ (ns : Nat) (s : State), s.power.vstby = true ∧ ns < 1600) ∧
    (∃ (ns : Nat) (s : State), s.power.vstby = true ∧ 1600 ≤ ns ∧ ns < 2400) ∧
    (∃ (ns : Nat) (s : State), s.power.vstby = true ∧ 2400 ≤ ns ∧ s.asleep = true) ∧
    (∃ (ns : Nat) (_s : State), 2400 ≤ ns) ∧
    (∃ (s : State), s.rd .PWR_TIMER_EPOCH ≠ 0 ∧ s.rd .PWR_TIMER_EPOCH ≤ s.epoch ∧ s.asleep = true) ∧
    (∃ (s : State), s.power.waking = true ∧ s.power.inReset = false ∧ s.power.offState = false) :=
  ⟨⟨.sleep, 2, up, by decide +kernel⟩,
   ⟨.idle, 1, up, by decide +kernel⟩,
   ⟨up, by decide +kernel⟩,
   ⟨up, by decide +kernel⟩,
   ⟨up.wr .PWR_STAT_STATE 1, by decide +kernel⟩,
   ⟨.idle, up.wr .PWR_STAT_BUSY 1, by decide +kernel⟩,
   ⟨up.setPower { up.power with entering := some 3 }, by decide +kernel⟩,
   ⟨1, up.setPower { up.power with entering := some 1 }, by decide +kernel⟩,
   ⟨1599, up, by decide +kernel⟩,
   ⟨1600, up, by decide +kernel⟩,
   ⟨2400, up.wr .PWR_STAT_STATE 1, by decide +kernel⟩,
   ⟨2400, up, by decide +kernel⟩,
   ⟨wrs up [(.PWR_EPOCH_COUNT, 0, 1), (.PWR_TIMER_EPOCH, 0, 1), (.PWR_STAT_STATE, 0, 1)], by decide +kernel⟩,
   ⟨up.setPower { up.power with waking := true }, by decide +kernel⟩⟩

/-- A state and operands that meet the hypotheses of each clause of ExtentCreate. -/
theorem witness_ExtentCreate :
    (∃ (c : Instr) (i : Nat) (s : State), s.hostHeld = false ∧ c ∈ [Instr.extentCreate, .extentDelete i, .setAttr i,
    .extentRead i, .setOwner i] ∧ s.on .POOL_EXT_RES_BUSY = false ∧ s.poolCmdOk = false) ∧
    (∃ (s : State), s.hostHeld = false ∧ s.on .POOL_EXT_RES_BUSY = false ∧ s.poolCmdOk = true ∧ s.createStatus s.extArgs
    ≠ stOK) ∧
    (∃ (s : State), s.hostHeld = false ∧ s.on .POOL_EXT_RES_BUSY = false ∧ s.poolCmdOk = true ∧ s.createStatus s.extArgs
    = stOK ∧ s.extArgs.isOasis = false) ∧
    (∃ (s : State), s.hostHeld = false ∧ s.on .POOL_EXT_RES_BUSY = false ∧ s.poolCmdOk = true ∧ s.createStatus s.extArgs
    = stOK ∧ s.extArgs.isOasis = true) ∧
    (∃ (s : State) (x : Extent), s.busy.extOp = 1 ∧ s.extent s.busy.extIdx = x ∧ (x.isOasis = true → s.inTheWay x = [] ∧
    s.frameless x = []) ∧ s.wayClear x = true) :=
  ⟨⟨.extentCreate, 0, up.wr .SEC_TEN_STAT_STATE 0, by decide +kernel⟩,
   ⟨up, by decide +kernel⟩,
   ⟨wrs up [(.POOL_EXT_ARG0_BASE, 0, 0x100010), (.POOL_EXT_ARG1_LEN, 0, 1)], by decide +kernel⟩,
   ⟨wrs up [(.POOL_EXT_ARG0_BASE, 0, 12), (.POOL_EXT_ARG1_LEN, 0, 1)], by decide +kernel⟩,
   ⟨{ up with busy := { up.busy with extOp := 1, extIdx := 3 } }, ext 0x100000 4, by decide +kernel⟩⟩

/-- A state and operands that meet the hypotheses of each clause of ExtentCommands. -/
theorem witness_ExtentCommands :
    (∃ (i : Nat) (s u : State), s.hostHeld = false ∧ i < 4096 ∧ s.on .POOL_EXT_RES_BUSY = false ∧ s.poolCmdOk = true ∧ u
    = s.wr .POOL_EXT_CMD_INDEX i ∧ (s.extent i).state = 1) ∧
    (∃ (i : Nat) (s : State), s.hostHeld = false ∧ i < 4096 ∧ s.on .POOL_EXT_RES_BUSY = false ∧ s.poolCmdOk = true ∧ 2 ≤
    (s.extent i).state) ∧
    (∃ (i : Nat) (s : State), s.hostHeld = false ∧ i < 4096 ∧ s.on .POOL_EXT_RES_BUSY = false ∧ s.poolCmdOk = true ∧
    (s.extent i).state = 1 ∧ s.rd .POOL_EXT_ARG2_PLACE = (s.extent i).place ∧ (s.extent i).place ≠ 3 ∧ s.on
    .POOL_EXT_ARG2_ERGC = (s.extent i).ergc ∧ ((s.extent i).ergc = true → (s.extent i).place ≠ 1)) ∧
    (∃ (i : Nat) (s : State), s.hostHeld = false ∧ i < 4096 ∧ s.on .POOL_EXT_RES_BUSY = false ∧ s.poolCmdOk = true ∧
    (s.extent i).state = 1 ∧ (s.extent i).isOasis = true ∧ s.rd .POOL_EXT_ARG2_PLACE ≠ 3 ∧ (s.on .POOL_EXT_ARG2_ERGC =
    true → s.rd .POOL_EXT_ARG2_PLACE ≠ 1)) ∧
    (∃ (s : State), s.busy.extOp = 3 ∧ s.owesIn (s.extent s.busy.extIdx) = false) ∧
    (∃ (i : Nat) (s : State), s.hostHeld = false ∧ i < 4096 ∧ s.on .POOL_EXT_RES_BUSY = false ∧ s.poolCmdOk = true) ∧
    (∃ (i : Nat) (s : State), s.hostHeld = false ∧ i < 4096 ∧ s.on .POOL_EXT_RES_BUSY = false ∧ s.poolCmdOk = true ∧
    (s.extent i).state = 1) ∧
    (∃ (i : Nat) (s v : State) (x : Extent), x = s.extent i ∧ (x.state = 2 ∨ x.state = 3) ∧ ¬(s.busy.extOp = 1 ∧
    s.busy.extIdx = i) ∧ s.mayFill x = true ∧ v = s.beginFill i) :=
  ⟨⟨0, up, up.wr .POOL_EXT_CMD_INDEX 0, by decide, by decide +kernel, by decide +kernel, rfl, by decide +kernel⟩,
   ⟨3, up.setExtent 3 { ext 0x100000 4 with state := 2 }, by decide +kernel⟩,
   ⟨0, up, by decide +kernel⟩,
   ⟨0, up, by decide +kernel⟩,
   ⟨{ up with busy := { up.busy with extOp := 3 } }, by decide +kernel⟩,
   ⟨4095, up, by decide +kernel⟩,
   ⟨0, up, by decide +kernel⟩,
   ⟨3, up.setExtent 3 { ext 0x100000 4 with state := 3 }, _, _, rfl, by decide +kernel, by decide +kernel,
    by decide +kernel, rfl⟩⟩

/-- A state and operands that meet the hypotheses of each clause of LeasesScrubAndHeat. -/
theorem witness_LeasesScrubAndHeat :
    (∃ (id : Nat) (s : State), id < 4096 ∧ (s.agent id).valid = true ∧ (s.agent id).expiry ≤ s.epoch ∧ s.contained =
    false ∧ s.running = true ∧ s.pool.extents.filter (fun e => e.2.state == 1 && e.2.owned && e.2.owner == id) = []) ∧
    (∃ (_id : Nat) (s : State), s.contained = true) ∧
    (∃ (k f : Nat) (s : State), k < 16 ∧ s.on .POOL_CTL_SCRUB_EN = true ∧ s.running = true ∧ s.contained = false ∧ s.rd
    .SEC_TEN_STAT_STATE ≠ 2 ∧ s.pool.symErr = [] ∧ s.scrubNext k = some f) ∧
    (∃ (_pg : Nat) (s : State), s.hostHeld = false) ∧
    (∃ (n p : Nat) (s : State), n < 24 ∧ s.trayPort n = some p ∧ s.on .PRT_PFTL_STAT_BOUND p = true ∧ (s.port p).written
    = false ∧ (∀ pg, (s.page pg).loc = 0) ∧ s.home.wbuf = [] ∧ s.tier.retry = []) ∧
    (∃ (pg : Nat) (s : State) (m : Mig), s.tier.migs.find? (fun m => m.page == pg) = some m ∧ m.need ≤ m.done) ∧
    (∃ (pg : Nat) (s : State), s.home.waits.any (fun w => decide (w.cause ≤ 3) && w.key == pg) = true ∧ s.mayStartPages
    = true ∧ ergPage pg = true ∧ (s.page pg).loc = 0 ∧ s.ergcAt pg = true ∧ s.activeAt (pg * 65536) = true ∧
    s.busy.rewrite.contains pg = false) ∧
    (∃ (s : State), s.rd .PWR_STAT_STATE = 0 ∧ s.epoch % 2 ^ s.rd .TIER_CTL_DECAY_LOG2 = 0 ∧ s.tier.decayed ≠ some
    s.epoch) ∧
    (∃ (s : State), s.tier.decayed = some s.epoch) :=
  ⟨⟨5, upAgent (fun a => { a with expiry := 0 }), by decide +kernel⟩,
   ⟨0, up.wr .EVT_CONTAIN_ACTIVE 1, by decide +kernel⟩,
   ⟨0, 0, wrs up [(.POOL_CTL_SCRUB_EN, 0, 1), (.POOL_SCRUB_TOT_TOTAL, 0, 2 ^ 25)], by decide +kernel⟩,
   ⟨0, up, by decide +kernel⟩,
   ⟨0, 256, upPort 256 (fun x => { x with written := false }), by decide, by decide +kernel, by decide +kernel,
    by decide +kernel, fun _ => rfl, by decide +kernel⟩,
   ⟨0x2000000, { up with tier := { up.tier with migs := [mig0] } }, mig0, by decide +kernel⟩,
   ⟨0x2000100, { up with home := { up.home with waits := [⟨req mLd, 0, 0x2000100⟩] } }, by decide +kernel⟩,
   ⟨up, by decide +kernel⟩,
   ⟨{ up with tier := { up.tier with decayed := some 0 } }, by decide +kernel⟩⟩

/-- A state and operands that meet the hypotheses of each clause of ObjectCommands. -/
theorem witness_ObjectCommands :
    (∃ (c : Instr) (i : Nat) (s : State), s.hostHeld = false ∧ c ∈ [Instr.define, .placeOasis i, .placeErg i,
    .objectDelete i, .objectRead i] ∧ s.on .TIER_OBJ_RES_BUSY = false ∧ s.poolCmdOk = false) ∧
    (∃ (i : Nat) (s : State), s.hostHeld = false ∧ s.on .TIER_OBJ_RES_BUSY = false ∧ s.poolCmdOk = true ∧ s.objOk (s.rd
    .TIER_OBJ_ARG0_BASE) (s.rd .TIER_OBJ_ARG1_PAGES) = true ∧ (List.range 1024).find? (fun i => (s.object i).state == 0)
    = some i) ∧
    (∃ (i k : Nat) (s : State) (x : Extent), s.hostHeld = false ∧ i < 1024 ∧ s.on .TIER_OBJ_RES_BUSY = false ∧
    s.poolCmdOk = true ∧ (s.object i).state ≠ 0 ∧ s.extentAt ((s.object i).base * 65536) = some (k, x) ∧ x.place ≠ 1) ∧
    (∃ (i : Nat) (s : State), s.hostHeld = false ∧ i < 1024 ∧ s.on .TIER_OBJ_RES_BUSY = false ∧ s.poolCmdOk = true ∧
    (s.object i).state ≠ 0) ∧
    (∃ (i : Nat) (s : State), s.hostHeld = false ∧ i < 1024 ∧ s.on .TIER_OBJ_RES_BUSY = false ∧ s.poolCmdOk = true ∧
    (s.object i).state ≠ 0) ∧
    (∃ (i : Nat) (s : State), s.hostHeld = false ∧ i < 1024 ∧ s.on .TIER_OBJ_RES_BUSY = false ∧ s.poolCmdOk = true) ∧
    (∃ (ph : Nat) (s : State), s.hostHeld = false ∧ 1 ≤ ph ∧ ph ≤ 3 ∧ s.on .TIER_OBJ_RES_BUSY = false ∧ s.poolCmdOk =
    true) ∧
    (∃ (ph : Nat) (s : State), s.hostHeld = false ∧ 1 ≤ ph ∧ ph ≤ 3 ∧ s.on .TIER_OBJ_RES_BUSY = false ∧ s.poolCmdOk =
    false) ∧
    (∃ (ph : Nat) (s : State), s.hostHeld = false ∧ 1 ≤ ph ∧ ph ≤ 3 ∧ s.on .TIER_OBJ_RES_BUSY = false ∧ s.poolCmdOk =
    true ∧ s.boot.image.objs = [] ∧ s.boot.image.sched = []) ∧
    (∃ (s : State), s.hostHeld = false ∧ s.on .TIER_SCHED_STAT_RUNNING = true) :=
  ⟨⟨.define, 0, up.wr .SEC_TEN_STAT_STATE 0, by decide +kernel⟩,
   ⟨0, wrs up [(.TIER_OBJ_ARG0_BASE, 0, 0x2000080), (.TIER_OBJ_ARG1_PAGES, 0, 1)], by decide +kernel⟩,
   ⟨0, 4, upObj, { ext 0x100004 4 with place := 2 }, by decide +kernel⟩,
   ⟨0, upObj, by decide +kernel⟩,
   ⟨0, upObj, by decide +kernel⟩,
   ⟨1023, up, by decide +kernel⟩,
   ⟨1, up, by decide +kernel⟩,
   ⟨1, up.wr .SEC_TEN_STAT_STATE 0, by decide +kernel⟩,
   ⟨3, up, by decide +kernel⟩,
   ⟨up.wr .TIER_SCHED_STAT_RUNNING 1, by decide +kernel⟩⟩

/-- A state and operands that meet the hypotheses of each clause of GroupCommands. -/
theorem witness_GroupCommands :
    (∃ (c : Instr) (s : State), s.hostHeld = false ∧ c ∈ [Instr.form, .add, .remove, .reform, .disband] ∧ s.on
    .DIR_CG_RES_BUSY = false ∧ s.poolCmdOk = false) ∧
    (∃ (g : Nat) (s : State), s.hostHeld = false ∧ s.on .DIR_CG_RES_BUSY = false ∧ s.poolCmdOk = true ∧ s.rcv.dirOff =
    [] ∧ s.rd .DIR_CG_ARG_GROUP = g ∧ g < 16 ∧ s.cgState g = 0 ∧ idsOnce (s.cgListed g) = true) ∧
    (∃ (g : Nat) (s : State), s.hostHeld = false ∧ s.on .DIR_CG_RES_BUSY = false ∧ s.poolCmdOk = true ∧ s.rcv.dirOff =
    [] ∧ s.rd .DIR_CG_ARG_GROUP = g ∧ g < 16 ∧ s.cgState g = 0 ∧ idsOnce (s.cgListed g) = false) ∧
    (∃ (g m id : Nat) (s : State), s.hostHeld = false ∧ s.on .DIR_CG_RES_BUSY = false ∧ s.poolCmdOk = true ∧
    s.rcv.dirOff = [] ∧ s.rd .DIR_CG_ARG_GROUP = g ∧ g < 16 ∧ s.rd .DIR_CG_ARG_SLOT = m ∧ m < 64 ∧ s.rd .DIR_CG_ARG_ID =
    id ∧ id < 4096 ∧ s.cgState g = 1 ∧ s.slotAgent g m = none ∧ s.slotListed g id = none) ∧
    (∃ (g m : Nat) (s : State), s.hostHeld = false ∧ s.on .DIR_CG_RES_BUSY = false ∧ s.poolCmdOk = true ∧ s.contained =
    false ∧ s.rcv.dirOff = [] ∧ s.rd .DIR_CG_ARG_GROUP = g ∧ g < 16 ∧ s.rd .DIR_CG_ARG_SLOT = m ∧ s.cgState g = 1 ∧
    (s.slotAgent g m).isSome = true) ∧
    (∃ (g : Nat) (s : State), s.hostHeld = false ∧ s.on .DIR_CG_RES_BUSY = false ∧ s.poolCmdOk = true ∧ s.rcv.dirOff =
    [] ∧ s.rd .DIR_CG_ARG_GROUP = g ∧ g < 16 ∧ s.cgState g = 2) ∧
    (∃ (g : Nat) (s : State), s.hostHeld = false ∧ s.on .DIR_CG_RES_BUSY = false ∧ s.poolCmdOk = true ∧ s.rcv.dirOff =
    [] ∧ s.rd .DIR_CG_ARG_GROUP = g ∧ g < 16 ∧ s.cgState g = 1) ∧
    (∃ (g : Nat) (s : State), s.hostHeld = false ∧ s.on .DIR_CG_RES_BUSY = false ∧ s.poolCmdOk = true ∧ s.rcv.dirOff =
    [] ∧ s.rd .DIR_CG_ARG_GROUP = g ∧ g < 16 ∧ s.cgState g = 2 ∧ (s.cg g).faultWalk = false ∧ idsOnce (s.cgListed g) =
    true) :=
  ⟨⟨.form, up.wr .SEC_TEN_STAT_STATE 0, by decide +kernel⟩,
   ⟨0, up, by decide +kernel⟩,
   ⟨0, (up.wr .DIR_CG_MEMBER_VALID 1 0 0).wr .DIR_CG_MEMBER_VALID 1 0 1, by decide +kernel⟩,
   ⟨1, 63, 7, upCg 1 63 7, by decide +kernel⟩,
   ⟨1, 0, upCg 1 0 0, by decide +kernel⟩,
   ⟨1, upCg 2 0 0, by decide +kernel⟩,
   ⟨1, upCg 1 0 0, by decide +kernel⟩,
   ⟨1, upCg 2 0 0, by decide +kernel⟩⟩

/-- A state and operands that meet the hypotheses of each clause of GroupWalks. -/
theorem witness_GroupWalks :
    (∃ (g m : Nat) (s : State), s.on .DIR_CG_RES_BUSY = true ∧ s.rd .DIR_CG_RES_GROUP = g ∧ g < 16 ∧ m < 64 ∧ (s.cg
    g).walk = 1 ∧ (s.cg g).removing = some m ∧ s.coh.dirErr = [] ∧ (∀ e ∈ s.coh.dir, e.2.cg = g → e.2.names m = false ∧
    ∀ r, e.2.st.transient = true → e.2.req = some r → s.slotListed g r.src ≠ some m)) ∧
    (∃ (g : Nat) (s : State), s.on .DIR_CG_RES_BUSY = true ∧ s.rd .DIR_CG_RES_GROUP = g ∧ g < 16 ∧ (s.cg g).walk = 3 ∧
    (s.cg g).faultWalk = false ∧ s.coh.dirErr = [] ∧ (∀ e ∈ s.coh.dir, e.2.cg = g → e.2.st = .P)) ∧
    (∃ (g : Nat) (s : State), s.on .DIR_CG_RES_BUSY = true ∧ s.rd .DIR_CG_RES_GROUP = g ∧ g < 16 ∧ (s.cg g).walk = 4 ∧
    s.coh.dirErr = []) ∧
    (∃ (g : Nat) (s : State), g < 16 ∧ (s.cg g).faultWalk = true ∧ (s.cg g).walk ≠ 2 ∧ s.coh.dirErr = []) ∧
    (∃ (line id m : Nat) (s : State) (e : DirEnt), s.coh.inotes = [] ∧ s.dirEnt line = some e ∧ s.slotListed e.cg id =
    some m ∧ e.st.transient = true ∧ e.awaiting.contains m = true ∧ s.coh.hacks.any (fun h => h.1 == id && lineOf (mAddr
    h.2) == line) = false) ∧
    (∃ (line id : Nat) (s : State) (n : Note), s.coh.inotes.find? (fun n => n.id == id && n.addr == 64 * line) = some n) ∧
    (∃ (l n : Nat) (s : State), s.coh.dirErr = [(l, n)] ∧ n = 2) ∧
    (∃ (id : Nat) (s : State), (s.agent id).walking = true ∧ s.coh.dirErr = []) :=
  ⟨⟨1, 0, upWalk (fun x => { x with walk := 1, removing := some 0 }), by decide +kernel, by decide +kernel, by decide,
    by decide, by decide +kernel, by decide +kernel, by decide +kernel, fun _ h => absurd h List.not_mem_nil⟩,
   ⟨1, upWalk (fun x => { x with walk := 3 }), by decide +kernel⟩,
   ⟨1, upWalk (fun x => { x with walk := 4 }), by decide +kernel⟩,
   ⟨1, upWalk (fun x => { x with faultWalk := true }), by decide +kernel⟩,
   ⟨1, 5, 0, up.setDir 1 dirW, dirW, by decide +kernel⟩,
   ⟨1, 5, { up with coh := { up.coh with inotes := [⟨0, 5, 64, req mLd⟩] } }, ⟨0, 5, 64, req mLd⟩, by decide +kernel⟩,
   ⟨0, 2, { up with coh := { up.coh with dirErr := [(0, 2)] } }, by decide +kernel⟩,
   ⟨5, upAgent (fun a => { a with walking := true }), by decide +kernel⟩⟩

/-- A state and operands that meet the hypotheses of each clause of RegionCommands. -/
theorem witness_RegionCommands :
    (∃ (c : Instr) (i : Nat) (s : State), s.hostHeld = false ∧ c ∈ [Instr.regionCreate, .regionDelete i, .regionRead i]
    ∧ s.on .DIR_PUB_RES_BUSY = false ∧ s.poolCmdOk = false) ∧
    (∃ (st : Nat) (s : State), s.hostHeld = false ∧ s.on .DIR_PUB_RES_BUSY = false ∧ s.poolCmdOk = true ∧ st ≠ stOK ∧ st
    < 16 ∧ s.regionStatus (s.rd .DIR_PUB_ARG0_HDR) (s.rd .DIR_PUB_ARG1_BODY) (s.rd .DIR_PUB_ARG2_LINES) = st) ∧
    (∃ (i : Nat) (s : State), s.hostHeld = false ∧ s.on .DIR_PUB_RES_BUSY = false ∧ s.poolCmdOk = true ∧ s.regionStatus
    (s.rd .DIR_PUB_ARG0_HDR) (s.rd .DIR_PUB_ARG1_BODY) (s.rd .DIR_PUB_ARG2_LINES) = stOK ∧ (List.range 1024).find? (fun
    i => !(s.region i).used) = some i) ∧
    (∃ (i : Nat) (s : State), s.hostHeld = false ∧ i < 1024 ∧ s.on .DIR_PUB_RES_BUSY = false ∧ s.poolCmdOk = true ∧
    (s.region i).used = true ∧ (s.region i).cur = none ∧ (s.region i).queue = []) ∧
    (∃ (i : Nat) (s : State), s.hostHeld = false ∧ i < 1024 ∧ s.on .DIR_PUB_RES_BUSY = false ∧ s.poolCmdOk = true ∧
    (s.region i).used = true) ∧
    (∃ (i : Nat) (s : State), s.hostHeld = false ∧ i < 1024 ∧ s.on .DIR_PUB_RES_BUSY = false ∧ s.poolCmdOk = true ∧
    (s.region i).used = false) ∧
    (∃ (i : Nat) (s : State) (x : Region) (r : Req), s.region i = x ∧ x.cur = some r ∧ x.busy = true ∧ s.oldReads i x =
    false) ∧
    (∃ (i : Nat) (s : State), (s.region i).cur = none) :=
  ⟨⟨.regionCreate, 0, up.wr .SEC_TEN_STAT_STATE 0, by decide +kernel⟩,
   ⟨stREFUSED, up, by decide +kernel⟩,
   ⟨0, wrs up [(.DIR_PUB_ARG0_HDR, 0, 0x1000000), (.DIR_PUB_ARG2_LINES, 0, 4)], by decide +kernel⟩,
   ⟨0, upReg, by decide +kernel⟩,
   ⟨0, upReg, by decide +kernel⟩,
   ⟨1023, upReg, by decide +kernel⟩,
   ⟨0, upReg.setRegion 0 { reg0 with cur := some (req mLd), busy := true },
    { reg0 with cur := some (req mLd), busy := true }, req mLd, by decide +kernel⟩,
   ⟨0, up, by decide +kernel⟩⟩

/-- A state and operands that meet the hypotheses of each clause of ScansAndAdders. -/
theorem witness_ScansAndAdders :
    (∃ (d : Nat) (s : State), d < 36 ∧ scannedRole (s.role d) = true ∧ s.rd .PWR_STAT_STATE ≤ 1 ∧ (s.scan d).startedAt
    s.epoch = false ∧ s.dieScanAt d s.epoch = true) ∧
    (∃ (d : Nat) (s : State), d < 36 ∧ scannedRole (s.role d) = true ∧ (s.scan d).due = false ∧ (s.scan d).running =
    false ∧ 4096 ≤ (s.scan d).since) ∧
    (∃ (d c : Nat) (s : State), d < 36 ∧ scannedRole (s.role d) = true ∧ (s.scan d).due = true ∧ (s.scan d).running =
    false ∧ s.engaged d = false ∧ s.dieRuns d = true ∧ s.scansAllowed = true ∧ s.pickChecker [d] = some c) ∧
    (∃ (d : Nat) (s : State), s.pickChecker [d] = none) ∧
    (∃ (d dig chk : Nat) (s : State), dig ≠ chk ∧ s.pickChecker [d, (s.scan d).checker] = none) ∧
    (∃ (d _dig : Nat) (s : State), d < 36 ∧ (s.scan d).running = true ∧ (s.scan d).arbiting = none ∧ s.dieRuns d = true) ∧
    (∃ (d dig chk a : Nat) (s : State), d < 36 ∧ (s.scan d).running = true ∧ (s.scan d).arbiting = none ∧ s.dieRuns d =
    true ∧ dig ≠ chk ∧ s.pickChecker [d, (s.scan d).checker] = some a) ∧
    (∃ (d _dig own chk a : Nat) (s u : State), d < 36 ∧ (s.scan d).running = true ∧ (s.scan d).arbiting = some (own,
    chk, a) ∧ s.dieRuns d = true ∧ u = s.scanOver d) ∧
    (∃ (s : State), s.epoch % 2 ^ s.rd .SCN_DECAY_LOG2 = 0 ∧ s.scn.decayed ≠ some s.epoch) ∧
    (∃ (s : State), s.scn.decayed = some s.epoch) ∧
    (∃ (k : Nat) (s : State), k < 16 ∧ s.addersRun k = true ∧ (s.scan (48 + k)).running = false ∧ (s.scan (48 +
    k)).startedAt s.epoch = false ∧ s.scanAt k 16 s.epoch = true) ∧
    (∃ (k _dig _chk _arb : Nat) (s : State), k < 16 ∧ s.addersRun k = true ∧ (s.scan (48 + k)).running = true) ∧
    (∃ (k : Nat) (s : State), k < 16 ∧ s.on .SCN_MC_STAT_MOVED k = false) ∧
    (∃ (k _dig _chk _arb : Nat) (s : State), s.addersRun k = false) :=
  ⟨⟨0, up, by decide +kernel⟩,
   ⟨0, upScan (fun x => { x with journal := List.replicate 4096 jent }), by decide +kernel⟩,
   ⟨0, 32, upScan (fun x => { x with due := true }), by decide +kernel⟩,
   ⟨0, upNoChk, by decide +kernel⟩,
   ⟨0, 1, 0, upNoChk.setScan 0 { Scan.init with running := true, checker := 32 }, by decide +kernel⟩,
   ⟨0, 0, upScan (fun x => { x with running := true }), by decide +kernel⟩,
   ⟨0, 1, 0, 33, upScan (fun x => { x with running := true, checker := 32 }), by decide +kernel⟩,
   ⟨0, 1, 1, 2, 33, upScan (fun x => { x with running := true, arbiting := some (1, 2, 33) }), (upScan (fun x =>
    { x with running := true, arbiting := some (1, 2, 33) })).scanOver 0, by decide, by decide +kernel,
    by decide +kernel, by decide +kernel, rfl⟩,
   ⟨up, by decide +kernel⟩,
   ⟨{ up with scn := { up.scn with decayed := some 0 } }, by decide +kernel⟩,
   ⟨0, up, by decide +kernel⟩,
   ⟨0, 0, 0, 0, up.setScan 48 { Scan.init with running := true }, by decide +kernel⟩,
   ⟨15, up, by decide +kernel⟩,
   ⟨16, 0, 0, 0, up, by decide +kernel⟩⟩

/-- A state and operands that meet the hypotheses of each clause of DieCommands. -/
theorem witness_DieCommands :
    (∃ (c : Instr) (d : Nat) (s : State), s.hostHeld = false ∧ c ∈ [Instr.observe d, .release d, .retire d, .pair d,
    .scanNow d] ∧ s.on .SCN_DIE_RES_BUSY = false ∧ (s.running = false ∨ 36 ≤ d)) ∧
    (∃ (d : Nat) (s : State), s.hostHeld = false ∧ d < 36 ∧ s.on .SCN_DIE_RES_BUSY = false ∧ s.running = true ∧ s.role d
    = 1) ∧
    (∃ (d : Nat) (s : State), s.hostHeld = false ∧ d < 36 ∧ s.on .SCN_DIE_RES_BUSY = false ∧ s.running = true ∧ s.role d
    = 2) ∧
    (∃ (d : Nat) (s : State), s.hostHeld = false ∧ d < 36 ∧ s.on .SCN_DIE_RES_BUSY = false ∧ s.running = true ∧ (s.role
    d = 1 ∨ s.role d = 2) ∧ s.firstSpare.isSome = true) ∧
    (∃ (d : Nat) (s : State), s.hostHeld = false ∧ d < 36 ∧ s.on .SCN_DIE_RES_BUSY = false ∧ s.firstSpare = none) ∧
    (∃ (d q : Nat) (s : State), s.hostHeld = false ∧ d < 36 ∧ s.on .SCN_DIE_RES_BUSY = false ∧ s.running = true ∧
    (s.role d = 1 ∨ s.role d = 2) ∧ s.partnerFor d = some q) ∧
    (∃ (d : Nat) (s : State), s.hostHeld = false ∧ d < 36 ∧ s.on .SCN_DIE_RES_BUSY = false ∧ s.running = true ∧
    s.assigned = true ∧ scannedRole (s.role d) = true) ∧
    (∃ (d : Nat) (s : State), s.hostHeld = false ∧ d < 36 ∧ s.on .SCN_DIE_RES_BUSY = false ∧ s.assigned = false) :=
  ⟨⟨.observe 36, 36, up, by decide +kernel⟩,
   ⟨0, up, by decide +kernel⟩,
   ⟨0, upRole 2 1, by decide +kernel⟩,
   ⟨0, up, by decide +kernel⟩,
   ⟨0, wrs up [(.RGF_DIE_STAT_ROLE, 32, 4), (.RGF_DIE_STAT_ROLE, 33, 4), (.RGF_DIE_STAT_ROLE, 34, 4),
    (.RGF_DIE_STAT_ROLE, 35, 4)], by decide +kernel⟩,
   ⟨0, 1, up, by decide +kernel⟩,
   ⟨35, up, by decide +kernel⟩,
   ⟨35, up.wr .SEC_TEN_STAT_STATE 0, by decide +kernel⟩⟩

/-- A state and operands that meet the hypotheses of each clause of RecompositionAndBundle. -/
theorem witness_RecompositionAndBundle :
    (∃ (s : State), s.hostHeld = false ∧ s.on .POOL_RCMP_STAT_BUSY = false ∧ s.poolCmdOk = true) ∧
    (∃ (s : State), s.hostHeld = false ∧ s.on .POOL_RCMP_STAT_BUSY = false ∧ s.poolCmdOk = true) ∧
    (∃ (c : Instr) (s : State), s.hostHeld = false ∧ c ∈ [Instr.apply, .evict] ∧ s.on .POOL_RCMP_STAT_BUSY = false ∧
    s.poolCmdOk = false) ∧
    (∃ (c : Instr) (s : State), s.hostHeld = false ∧ c ∈ [Instr.apply, .evict] ∧ s.on .POOL_RCMP_STAT_BUSY = true) ∧
    (∃ (s : State), s.hostHeld = false) ∧
    (∃ (s : State), s.rd .EVT_BUNDLE_TOT_TOTAL = 2293888 ∧ s.rd .EVT_BUNDLE_POS_POS ≠ 2293888) :=
  ⟨⟨up, by decide +kernel⟩,
   ⟨up, by decide +kernel⟩,
   ⟨.apply, up.wr .SEC_TEN_STAT_STATE 0, by decide +kernel⟩,
   ⟨.evict, up.wr .POOL_RCMP_STAT_BUSY 1, by decide +kernel⟩,
   ⟨up, by decide +kernel⟩,
   ⟨up.wr .EVT_BUNDLE_TOT_TOTAL 2293888, by decide +kernel⟩⟩

/-- A state and operands that meet the hypotheses of each clause of UnitErrors. -/
theorem witness_UnitErrors :
    (∃ (a b : Nat) (_s : State), a < 100 ∧ b < 100) ∧
    (∃ (d : Nat) (s : State), d < 36 ∧ s.role d ≠ 5 ∧ s.partner d ≠ some d) ∧
    (∃ (n : Nat) (s : State), n < 32 ∧ s.stackIn n = true ∧ s.rcv.stackWait.contains n = false) ∧
    (∃ (d : Nat) (s : State), d < 36 ∧ s.rcv.pdOut.contains d = false) ∧
    (∃ (k : Nat) (_s : State), k < 16) ∧
    (∃ (s : State) (f : StandingFault), f.cls ≠ 0 ∧ f.cls < 0x100 ∧ sevOf f.cls = 4 ∧ s.contained = false) ∧
    (∃ (k : Nat) (s : State), k < 16 ∧ s.rcv.dirOff.contains k = false ∧ s.rcv.dirHold.contains k = false) ∧
    (∃ (pr : Nat) (s : State), pr < 2 ∧ s.lockstep pr = true ∧ s.rcv.ctHold.contains pr = false) :=
  ⟨⟨99, 0, up, by decide +kernel⟩,
   ⟨35, up, by decide +kernel⟩,
   ⟨31, up, by decide +kernel⟩,
   ⟨35, up, by decide +kernel⟩,
   ⟨15, up, by decide +kernel⟩,
   ⟨up, ⟨0x0D, 0⟩, by decide +kernel⟩,
   ⟨15, up, by decide +kernel⟩,
   ⟨1, up, by decide +kernel⟩⟩

/-- A state and operands that meet the hypotheses of each clause of SequencerWorks. -/
theorem witness_SequencerWorks :
    (∃ (s : State) (f : StandingFault), 1 ≤ sevOf f.cls ∧ sevOf f.cls ≤ 3 ∧ f.cls ≠ 0 ∧ s.rcv.queue = [] ∧ s.rcv.running
    = none) ∧
    (∃ (s : State) (f : StandingFault) (r : RcvEnt), 1 ≤ sevOf f.cls ∧ f.cls ≠ 0 ∧ sevOf f.cls ≤ 3 ∧ s.rcv.queue = [] ∧
    s.rcv.running = some r ∧ (sameUnit r.cls f.cls && r.unit == f.unit) = false ∧ r.sev < sevOf f.cls) ∧
    (∃ (s : State) (f : StandingFault), 1 ≤ sevOf f.cls ∧ sevOf f.cls ≤ 3 ∧ f.cls ≠ 0 ∧ s.rcv.queue.length = 64 ∧
    s.rcv.running = none ∧ (∀ e ∈ s.rcv.queue, e.unit ≠ f.unit)) ∧
    (∃ (ok : Bool) (s u : State) (e : RcvEnt), s.rcv.running = some e ∧ s.rcv.ctHold = [] ∧ s.stepReady e = true ∧ u =
    s.stepEntry e ok) ∧
    (∃ (_ok : Bool) (s : State) (e : RcvEnt), s.rcv.running = some e ∧ s.stepReady e = false) ∧
    (∃ (_s : State) (e : RcvEnt), e.cls = 0x09) ∧
    (∃ (s : State) (e : RcvEnt), e.cls = 0x06 ∧ e.unit < 48 ∧ s.role e.unit = 5) ∧
    (∃ (_s : State) (e : RcvEnt), e.cls = 0x08) ∧
    (∃ (s : State), s.rcv.running = none) ∧
    (∃ (pg : Nat) (s : State), s.wantsSub pg = true) ∧
    (∃ (pg : Nat) (s : State), s.wantsSub pg = false) ∧
    (∃ (pr : Nat) (s : State), s.rcv.ctHold.contains pr = true ∧ tfind s.rcv.ctMis pr = none) ∧
    (∃ (pr : Nat) (s : State), s.rcv.ctHold.contains pr = true) ∧
    (∃ (pr e : Nat) (s : State), s.rcv.ctHold.contains pr = true ∧ tfind s.rcv.ctMis pr = some e ∧ s.epoch < e + 2 ^ 20) :=
  ⟨⟨up, flt, by decide +kernel⟩,
   ⟨upRcv (fun r => { r with running := some (rent 2) }), flt, rent 2, by decide +kernel⟩,
   ⟨upRcv (fun r => { r with queue := List.replicate 64 (rent 2) }), ⟨0x08, 99⟩, by decide +kernel⟩,
   ⟨true, (upRcv (fun r => { r with running := some (rent 8) })), (upRcv (fun r =>
    { r with running := some (rent 8) })).stepEntry (rent 8) true, rent 8, by decide +kernel, by decide +kernel,
    by decide +kernel, rfl⟩,
   ⟨true, wrs (upRcv (fun r => { r with running := some (rent 5) })) [(.SWC_PLANE_STAT_N_ACTIVE, 0, 8),
    (.SWC_PLANE_STAT_FAILED, 0, 1)], rent 5, by decide +kernel⟩,
   ⟨up, rent 9, by decide +kernel⟩,
   ⟨upRole 1 5, { rent 6 with unit := 1 }, by decide +kernel⟩,
   ⟨up, rent 8, by decide +kernel⟩,
   ⟨up, by decide +kernel⟩,
   ⟨0, up.setPage 0 { Page.home with loc := 3 }, by decide +kernel⟩,
   ⟨0, up, by decide +kernel⟩,
   ⟨0, upRcv (fun r => { r with ctHold := [0] }), by decide +kernel⟩,
   ⟨0, upRcv (fun r => { r with ctHold := [0] }), by decide +kernel⟩,
   ⟨0, 0, upRcv (fun r => { r with ctHold := [0], ctMis := [(0, 0)] }), by decide +kernel⟩⟩

/-- A state and operands that meet the hypotheses of each clause of ContainmentAndRepairMap. -/
theorem witness_ContainmentAndRepairMap :
    (∃ (s : State), s.hostHeld = false ∧ s.contained = false) ∧
    (∃ (_l : List StandingFault) (s : State), s.hostHeld = false ∧ s.running = false) ∧
    (∃ (_l : List StandingFault) (s : State), s.hostHeld = false ∧ s.running = true ∧ s.contained = false) ∧
    (∃ (_l : List StandingFault) (s : State), s.hostHeld = false ∧ s.running = true ∧ s.contained = true ∧ (s.rd
    .EVT_CONTAIN_CAUSE = 2 ∨ s.s3Waits = true)) ∧
    (∃ (s : State) (e : Nat), s.hostHeld = false ∧ s.running = true ∧ s.contained = true ∧ s.rd .EVT_CONTAIN_CAUSE ≠ 2 ∧
    s.s3Waits = false ∧ s.rcv.queue.length < 16 ∧ s.rcv.containFrom = some e ∧ s.tier.retry = []) ∧
    (∃ (i : Nat) (s : State), s.hostHeld = false ∧ s.rd .EVT_RMAP_SEL_INDEX = i ∧ rmapLive (s.rmapAt i) = true) ∧
    (∃ (i : Nat) (s : State), s.hostHeld = false ∧ s.rd .EVT_RMAP_SEL_INDEX = i ∧ rmapLive (s.rmapAt i) = false) ∧
    (∃ (s : State), s.power.inReset = false) ∧
    (∃ (s : State) (k u x d : Nat), s.rmapHas k u x d = true) ∧
    (∃ (s : State) (k u x d i : Nat), s.rmapHas k u x d = false ∧ firstGap 0 s.rmapSlots = i ∧ i < 4096) ∧
    (∃ (s : State) (k u x d i : Nat), s.rmapHas k u x d = false ∧ 4096 ≤ firstGap 0 s.rmapSlots ∧ s.rmapOldest = some i) ∧
    (∃ (s : State) (k u x d : Nat), s.rmapHas k u x d = false ∧ 4096 ≤ firstGap 0 s.rmapSlots ∧ s.rmapOldest = none) ∧
    (∃ (s : State) (i : Nat), s.rmapOldest = some i) ∧
    (∃ (s : State) (j : Nat), s.rmapOldest = none ∧ j < 4096 ∧ rmapLive (s.rmapAt j) = true) :=
  ⟨⟨up, by decide +kernel⟩,
   ⟨[flt], up.wr .PWR_STAT_STATE 1, by decide +kernel⟩,
   ⟨[flt], up, by decide +kernel⟩,
   ⟨[flt], upCont [(.EVT_CONTAIN_CAUSE, 0, 2)], by decide +kernel⟩,
   ⟨{ upCont [] with rcv := { up.rcv with containFrom := some 0 } }, 0, by decide +kernel⟩,
   ⟨0, upRmap 0, by decide +kernel⟩,
   ⟨0, up, by decide +kernel⟩,
   ⟨up, by decide +kernel⟩,
   ⟨{ up with boot := { up.boot with flash := [(flRmap, 1), (flRmap + 1, 0), (flRmap + 31, 1)] } }, 1, 0xFFFF,
    0xFFFFFFFF, 2 ^ 64 - 1, by decide +kernel⟩,
   ⟨up, 1, 2, 3, 4, 0, by decide +kernel⟩,
   ⟨fullMap (fun i => if i = 0 then 2 else 0), 1, 2, 3, 4, 0, fullMap_has _, (fullMap_gap _).ge, fullMap_some⟩,
   ⟨fullMap (fun _ => 0), 1, 2, 3, 4, fullMap_has _, (fullMap_gap _).ge, fullMap_none⟩,
   ⟨upRmap 4095, 4095, by decide +kernel⟩,
   ⟨fullMap (fun _ => 0), 0, fullMap_none, by decide, fullMap_live _ 0 (by decide)⟩⟩

/-- A state and operands that meet the hypotheses of each clause of ChannelCommands. -/
theorem witness_ChannelCommands :
    (∃ (c a : Nat) (i : Instr) (s : State), i ∈ [Instr.carDnext c a, .go c, .pause c, .abort c] ∧ s.hostHeld = true) ∧
    (∃ (c _a : Nat) (s : State), c < 64 ∧ s.hostHeld = false ∧ (s.carState c = 0 ∨ s.carState c = 5)) ∧
    (∃ (c _a : Nat) (s : State), c < 64 ∧ s.carAgent c ≠ none ∧ (s.carState c = 0 ∨ s.carState c = 5)) ∧
    (∃ (c _a : Nat) (s : State), c < 64 ∧ s.carAgent c = none) ∧
    (∃ (c : Nat) (s : State), c < 64 ∧ s.hostHeld = false ∧ s.on .CAR_CFG_AGV c = false ∧ s.assigned = true ∧
    s.contained = false ∧ s.running = true ∧ (s.carState c = 0 ∨ s.carState c = 5) ∧ s.rd .CAR_DNEXT_ADDR c ≠ 0 ∧ s.rd
    .CAR_DNEXT_ADDR c < 2 ^ 48) ∧
    (∃ (c : Nat) (s : State), c < 64 ∧ s.hostHeld = false ∧ s.on .CAR_CFG_AGV c = false ∧ s.assigned = true ∧
    s.contained = false ∧ s.running = true ∧ s.carState c = 3) ∧
    (∃ (c : Nat) (s : State), c < 64 ∧ s.hostHeld = false ∧ (s.assigned = false ∨ s.contained = true ∨ s.running = false
    ∨ (s.carState c = 0 ∧ s.rd .CAR_DNEXT_ADDR c = 0) ∨ s.carState c = 1)) ∧
    (∃ (c : Nat) (s : State), c < 64 ∧ s.hostHeld = false ∧ s.on .CAR_CFG_AGV c = false ∧ s.carState c = 1) ∧
    (∃ (c : Nat) (s : State), c < 64 ∧ s.hostHeld = false ∧ s.carState c ≠ 1) ∧
    (∃ (c : Nat) (s : State), c < 64 ∧ s.hostHeld = false ∧ s.on .CAR_CFG_AGV c = false ∧ (s.carState c = 1 ∨ s.carState
    c = 3)) ∧
    (∃ (c : Nat) (s : State), c < 64 ∧ s.hostHeld = false ∧ s.carState c = 2) ∧
    (∃ (c : Nat) (s : State), c < 64 ∧ s.hostHeld = false ∧ s.on .CAR_CFG_AGV c = false ∧ s.carState c = 5) :=
  ⟨⟨0, 64, .go 0, upHost true, by decide +kernel⟩,
   ⟨63, 64, up, by decide +kernel⟩,
   ⟨0, 64, up.wr .CAR_CFG_AGV 1 0, by decide +kernel⟩,
   ⟨0, 64, up, by decide +kernel⟩,
   ⟨0, up.wr .CAR_DNEXT_ADDR 64 0, by decide +kernel⟩,
   ⟨0, upCar 3 id, by decide +kernel⟩,
   ⟨0, up, by decide +kernel⟩,
   ⟨0, upCar 1 id, by decide +kernel⟩,
   ⟨0, upCar 3 id, by decide +kernel⟩,
   ⟨0, upCar 3 id, by decide +kernel⟩,
   ⟨0, upCar 2 id, by decide +kernel⟩,
   ⟨0, upCar 5 id, by decide +kernel⟩⟩

/-- A state and operands that meet the hypotheses of each clause of DescriptorsRun. -/
theorem witness_DescriptorsRun :
    (∃ (c : Nat) (s u v : State) (d : List Byte) (susp : Bool), c < 64 ∧ s.carState c = 1 ∧ (s.chan c).fetched = false ∧
    s.running = true ∧ (s.chan c).err = none ∧ u = s.engAskRanges (.chan c) (s.carSrc c) (s.carSub c) 5 [(lineOf (s.rd
    .CAR_CUR_ADDR c), 1)] ∧ (u.chan c).err = none ∧ u.carQuiet c = true ∧ u.carRead c (s.rd .CAR_CUR_ADDR c) 64 =
    ((stOK, d, false, susp), v) ∧ carCheck d = true ∧ cdLen d < 2 ^ Fld.CAR_TOT_TOT.width) ∧
    (∃ (c st : Nat) (s u v : State) (d : List Byte) (psn susp : Bool), c < 64 ∧ s.carState c = 1 ∧ (s.chan c).fetched =
    false ∧ s.running = true ∧ (s.chan c).err = none ∧ u = s.engAskRanges (.chan c) (s.carSrc c) (s.carSub c) 5 [(lineOf
    (s.rd .CAR_CUR_ADDR c), 1)] ∧ (u.chan c).err = none ∧ u.carQuiet c = true ∧ u.carRead c (s.rd .CAR_CUR_ADDR c) 64 =
    ((st, d, psn, susp), v) ∧ (st ≠ stOK ∨ psn = true)) ∧
    (∃ (c st a : Nat) (s : State), c < 64 ∧ s.carState c = 1 ∧ (s.chan c).fetched = false ∧ s.running = true ∧ (s.chan
    c).err = some (st, a) ∧ s.carQuiet c = true) ∧
    (∃ (c st : Nat) (s : State), c < 64 ∧ s.on .CAR_CFG_AGV c = false ∧ st < 16 ∧ s.rd .CAR_CUR_ADDR c < 2 ^ 48) ∧
    (∃ (c : Nat) (s : State) (q : Req) (l : List Req), c < 64 ∧ s.heldReqs (fun r => r.org == Origin.chan c) = q :: l ∧
    (s.chan c).err = none) ∧
    (∃ (c : Nat) (s : State), s.heldReqs (fun r => r.org == Origin.chan c) = []) ∧
    (∃ (c : Nat) (s u : State), c < 64 ∧ s.carState c = 1 ∧ (s.chan c).live = true ∧ s.engWaiting (.chan c) = false ∧
    s.running = true ∧ u = s.carRun c (s.chan c).total ((s.chan c).total + 1)) ∧
    (∃ (c : Nat) (s : State) (e : Nat × Nat), (s.chan c).err = some e) ∧
    (∃ (c : Nat) (s : State), c < 64 ∧ s.carState c = 1 ∧ (s.chan c).ended = true ∧ s.carQuiet c = true ∧ (s.chan c).err
    = none ∧ s.on .CAR_CFG_AGV c = false ∧ (s.chan c).bad = false ∧ cdNext (s.chan c).desc = 0 ∧ (s.chan c).told =
    false) ∧
    (∃ (c : Nat) (s : State), c < 64 ∧ s.carState c = 1 ∧ (s.chan c).ended = true ∧ s.carQuiet c = true ∧ (s.chan c).err
    = none ∧ (s.chan c).bad = false ∧ cdNext (s.chan c).desc ≠ 0 ∧ cdNext (s.chan c).desc < 2 ^ 48) ∧
    (∃ (c : Nat) (s : State), c < 64 ∧ (s.carState c = 2 ∨ s.carState c = 3) ∧ (s.chan c).ended = true ∧ s.carQuiet c =
    true ∧ (s.chan c).told = false ∧ (s.chan c).err = none) ∧
    (∃ (c : Nat) (s : State) (e : Nat × Nat), c < 64 ∧ (s.carState c = 1 ∨ ((s.carState c = 2 ∨ s.carState c = 3) ∧
    (s.chan c).told = false)) ∧ (s.chan c).ended = true ∧ s.carQuiet c = true ∧ (s.chan c).err = some e) ∧
    (∃ (c _n : Nat) (s u : State), c < 64 ∧ s.carState c = 2 ∧ (s.chan c).ended = true ∧ s.carQuiet c = true ∧ (s.chan
    c).abortAfter = false ∧ (s.chan c).err = none ∧ u = (s.carTell c).engForget (.chan c)) ∧
    (∃ (c _n : Nat) (s : State), c < 64 ∧ s.carState c = 2 ∧ s.engWaiting (.chan c) = false ∧ (s.chan c).live = false ∧
    (s.chan c).ended = false ∧ s.carQuiet c = true ∧ (s.chan c).abortAfter = false ∧ s.on .CAR_CFG_AGV c = false) ∧
    (∃ (c n : Nat) (s u : State), c < 64 ∧ s.carState c = 2 ∧ s.engWaiting (.chan c) = false ∧ (s.chan c).live = true ∧
    u = s.carMove c (min n (s.chan c).total - (s.chan c).units) ∧ u.carQuiet c = true ∧ (u.chan c).err = none ∧ (u.chan
    c).ended = false ∧ (u.chan c).abortAfter = false) ∧
    (∃ (c _n : Nat) (s : State), c < 64 ∧ s.carState c = 4 ∧ s.engQuiet (.chan c) = true ∧ s.engWaiting (.chan c) =
    false ∧ (s.chan c).fetched = false) ∧
    (∃ (c : Nat) (s u : State), (s.chan c).ended = true ∧ u = ((s.engForget (.chan c)).carTell c).wr .CAR_DNEXT_ADDR
    (cdNext (s.chan c).desc) c) :=
  ⟨⟨0, upDesc 64, askd 64, ((askd 64).carRead 0 64 64).2, cdesc, false, by decide, by decide +kernel, by decide +kernel,
    by decide +kernel, by decide +kernel, rfl, by decide +kernel, by decide +kernel, by decide +kernel,
    by decide +kernel, by decide +kernel⟩,
   ⟨0, stUNMAPPED, upDesc (2 ^ 40), askd (2 ^ 40), askd (2 ^ 40), [], false, false, by decide, by decide +kernel,
    by decide +kernel, by decide +kernel, by decide +kernel, rfl, by decide +kernel, by decide +kernel,
    by decide +kernel, by decide +kernel⟩,
   ⟨0, 3, 64, upCar 1 (fun h => { h with err := some (3, 64) }), by decide +kernel⟩,
   ⟨0, stREFUSED, upCar 1 id, by decide +kernel⟩,
   ⟨0, { up with home := { up.home with waits := [⟨{ req mLd with org := .chan 0 }, 0, 0⟩] } }, { req mLd with
    org := .chan 0 }, [], by decide +kernel⟩,
   ⟨0, up, by decide +kernel⟩,
   ⟨0, upCar 1 got, _, by decide, by decide +kernel, by decide +kernel, by decide +kernel, by decide +kernel, rfl⟩,
   ⟨0, upCar 1 (fun h => { h with err := some (3, 64) }), (3, 64), by decide +kernel⟩,
   ⟨0, upCar 1 (fun h => { h with desc := cdesc, ended := true }), by decide +kernel⟩,
   ⟨0, upCar 1 (fun h => { h with desc := leBytes 40 (64 * 2 ^ 256), ended := true }), by decide +kernel⟩,
   ⟨0, upCar 2 (fun h => { h with ended := true }), by decide +kernel⟩,
   ⟨0, upCar 1 (fun h => { h with ended := true, err := some (3, 64) }), (3, 64), by decide +kernel⟩,
   ⟨0, 1, upCar 2 (fun h => { h with ended := true }), _, by decide, by decide +kernel, by decide +kernel,
    by decide +kernel, by decide +kernel, by decide +kernel, rfl⟩,
   ⟨0, 1, upCar 2 id, by decide +kernel⟩,
   ⟨0, 1, upCar 2 got, _, by decide, by decide +kernel, by decide +kernel, by decide +kernel, rfl, by decide +kernel,
    by decide +kernel, by decide +kernel, by decide +kernel⟩,
   ⟨0, 1, upCar 4 id, by decide +kernel⟩,
   ⟨0, upCar 1 (fun h => { h with ended := true }), (((upCar 1 (fun h => { h with ended := true })).engForget (.chan
    0)).carTell 0).wr .CAR_DNEXT_ADDR (cdNext ((upCar 1 (fun h => { h with ended := true })).chan 0).desc) 0,
    by decide +kernel, rfl⟩⟩

/-- A state and operands that meet the hypotheses of each clause of TenantLife. -/
theorem witness_TenantLife :
    (∃ (s : State), s.hostHeld = false ∧ (s.rd .SEC_TEN_STAT_STATE ≠ 0 ∨ s.boot.fuses.lifecycle ≠ 1 ∨ s.contained = true
    ∨ s.rd .SEC_TEN_EPOCH_EPOCH = 0xFFFFFFFF ∨ s.running = false)) ∧
    (∃ (s : State), s.hostHeld = false ∧ s.rd .SEC_TEN_STAT_STATE = 0 ∧ s.boot.fuses.lifecycle = 1 ∧ s.contained = false
    ∧ s.rd .SEC_TEN_EPOCH_EPOCH < 0xFFFFFFFF ∧ s.running = true) ∧
    (∃ (s : State), s.hostHeld = false ∧ s.rd .SEC_TEN_STAT_STATE = 2) ∧
    (∃ (s : State), s.hostHeld = false ∧ s.rd .SEC_TEN_STAT_STATE ≠ 2 ∧ (s.rd .SEC_TEN_STAT_STATE ≠ 1 ∨ s.running =
    false)) ∧
    (∃ (s : State), s.hostHeld = false ∧ s.rd .SEC_TEN_STAT_STATE = 1 ∧ s.running = true) ∧
    (∃ (s : State), s.rd .SEC_TEN_STAT_STATE = 2 ∧ s.drained = true ∧ s.contained = false) ∧
    (∃ (s : State), s.rd .SEC_TEN_STAT_STATE = 2 ∧ s.drained = false) ∧
    (∃ (s : State), s.rd .SEC_TEN_STAT_STATE = 2) ∧
    (∃ (s : State), s.rd .SEC_TEN_STAT_STATE = 3 ∧ s.rd .SEC_TEN_STAT_STEP = 6 ∧ s.power.stepsEnded.contains 9 = true ∧
    s.home.tacc = [] ∧ s.contained = false) :=
  ⟨⟨up, by decide +kernel⟩,
   ⟨upTen 0 0, by decide +kernel⟩,
   ⟨upTen 2 0, by decide +kernel⟩,
   ⟨upTen 3 0, by decide +kernel⟩,
   ⟨up, by decide +kernel⟩,
   ⟨upTen 2 0, by decide +kernel⟩,
   ⟨{ upTen 2 0 with rgf := { up.rgf with launchq := [part0] } }, by decide +kernel⟩,
   ⟨upTen 2 0, by decide +kernel⟩,
   ⟨upTen 3 6, by decide +kernel⟩⟩

/-- A state and operands that meet the hypotheses of each clause of AttestationAndFirmware. -/
theorem witness_AttestationAndFirmware :
    (∃ (s : State), s.hostHeld = false ∧ s.on .SEC_ATT_STAT_BUSY = false) ∧
    (∃ (s : State), s.hostHeld = false ∧ s.on .SEC_ATT_STAT_BUSY = true) ∧
    (∃ (s : State) (body : List Byte), s.boot.report.pending = some body) ∧
    (∃ (s : State), s.hostHeld = false ∧ slotSize < s.rd .SEC_FW_LEN_LEN) ∧
    (∃ (s : State), s.hostHeld = false ∧ s.rd .SEC_FW_LEN_LEN ≤ slotSize) ∧
    (∃ (s : State), s.hostHeld = false ∧ s.boot.fwBegun = false) ∧
    (∃ (s : State) (n pos : Nat), s.hostHeld = false ∧ s.boot.fwBegun = true ∧ s.rd .SEC_FW_CHLEN_LEN = n ∧ s.rd
    .SEC_FW_POS_POS = pos ∧ 1 ≤ n ∧ n ≤ 32768 ∧ pos + n ≤ s.rd .SEC_FW_TOT_TOTAL ∧ s.rd .SEC_FW_TOT_TOTAL ≤ slotSize) ∧
    (∃ (s : State), s.hostHeld = false ∧ s.boot.fwBegun = true ∧ s.rd .SEC_FW_TOT_TOTAL < s.rd .SEC_FW_POS_POS + s.rd
    .SEC_FW_CHLEN_LEN) ∧
    (∃ (s : State), s.hostHeld = false ∧ s.rd .SEC_FW_POS_POS ≠ s.rd .SEC_FW_TOT_TOTAL) ∧
    (∃ (s : State), s.hostHeld = false ∧ s.rd .SEC_FW_POS_POS = s.rd .SEC_FW_TOT_TOTAL ∧ s.idleSlot < 2) ∧
    (∃ (s : State), s.hostHeld = false) ∧
    (∃ (s : State), s.hostHeld = false ∧ s.boot.fuses.minSvn < s.boot.image.svn ∧ s.boot.image.svn ≤ 63) ∧
    (∃ (s : State), s.hostHeld = false ∧ (s.boot.image.svn ≤ s.boot.fuses.minSvn ∨ 63 < s.boot.image.svn)) :=
  ⟨⟨up, by decide +kernel⟩,
   ⟨up.wr .SEC_ATT_STAT_BUSY 1, by decide +kernel⟩,
   ⟨{ up with boot := { up.boot with report := ⟨some (zs 16), []⟩ } }, zs 16, by decide +kernel⟩,
   ⟨up.wr .SEC_FW_LEN_LEN (slotSize + 1), by decide +kernel⟩,
   ⟨up.wr .SEC_FW_LEN_LEN slotSize, by decide +kernel⟩,
   ⟨up, by decide +kernel⟩,
   ⟨upFw 64 64 0, 64, 0, by decide +kernel⟩,
   ⟨upFw 64 64 1, by decide +kernel⟩,
   ⟨upFw 64 64 1, by decide +kernel⟩,
   ⟨up, by decide +kernel⟩,
   ⟨up, by decide +kernel⟩,
   ⟨upSvn 63, by decide +kernel⟩,
   ⟨upSvn 64, by decide +kernel⟩⟩

/-- A state and operands that meet the hypotheses of each clause of StartUpSteps. -/
theorem witness_StartUpSteps :
    (∃ (s : State), s.power.inReset = true ∧ s.power.vstby = true ∧ s.power.trips = false ∧ s.power.pgIn = true ∧
    s.power.rails = true ∧ s.power.stepsEnded = []) ∧
    (∃ (s : State), s.power.inReset = true ∧ s.power.vstby = true ∧ s.power.trips = false ∧ s.power.pgIn = false) ∧
    (∃ (n : Nat) (_ok : Bool) (_l : List StandingFault) (s : State), s.stepRuns n = false) ∧
    (∃ (n : Nat) (_ok : Bool) (s : State), n ∈ [1, 4, 6, 10] ∧ s.stepRuns n = true) ∧
    (∃ (_ok : Bool) (_l : List StandingFault) (s : State), s.stepRuns 2 = true) ∧
    (∃ (_ok : Bool) (_l : List StandingFault) (s : State), s.stepRuns 3 = true) ∧
    (∃ (_l : List StandingFault) (s : State), s.stepRuns 5 = true) ∧
    (∃ (l : List StandingFault) (s : State), s.stepRuns 5 = true ∧ l.any haltFault = true) ∧
    (∃ (l : List StandingFault) (s : State), s.stepRuns 5 = true ∧ l.any haltFault = false) ∧
    (∃ (_ok : Bool) (_l : List StandingFault) (s : State), s.stepRuns 7 = true) ∧
    (∃ (_ok : Bool) (_l : List StandingFault) (s : State), s.stepRuns 8 = true) ∧
    (∃ (_ok : Bool) (_l : List StandingFault) (s : State), s.stepRuns 9 = true) :=
  ⟨⟨State.reset, by decide +kernel⟩,
   ⟨State.reset.setPower { Power.reset with pgIn := false }, by decide +kernel⟩,
   ⟨11, true, [], up, by decide +kernel⟩,
   ⟨1, true, upBoot [], by decide +kernel⟩,
   ⟨true, [], upBoot [1], by decide +kernel⟩,
   ⟨true, [], upBoot [1, 2], by decide +kernel⟩,
   ⟨[], upBoot [1, 2, 3, 4], by decide +kernel⟩,
   ⟨[⟨0x0E, 0⟩], upBoot [1, 2, 3, 4], by decide +kernel⟩,
   ⟨[flt], upBoot [1, 2, 3, 4], by decide +kernel⟩,
   ⟨true, [], upBoot [1, 2, 3, 4, 5, 6], by decide +kernel⟩,
   ⟨true, [], upBoot [1, 2, 3, 4, 5, 6, 7], by decide +kernel⟩,
   ⟨true, [], upBoot [1, 2, 3, 4, 5, 6, 7], by decide +kernel⟩⟩

/-- A state and operands that meet the hypotheses of each clause of CalibrationCommands. -/
theorem witness_CalibrationCommands :
    (∃ (c : Instr) (tr : List Byte) (s : State), s.hostHeld = false ∧ c ∈ [Instr.calBegin, .calChunk, .calCommit,
    .capture tr] ∧ s.on .BOOT_STAT_READY = false) ∧
    (∃ (s : State), s.hostHeld = false ∧ s.on .BOOT_STAT_READY = true ∧ s.rd .BOOT_CAL_LEN_LEN ≠ 141120) ∧
    (∃ (s : State), s.hostHeld = false ∧ s.on .BOOT_STAT_READY = true ∧ s.rd .BOOT_CAL_LEN_LEN = 141120) ∧
    (∃ (s : State) (n pos : Nat), s.hostHeld = false ∧ s.on .BOOT_STAT_READY = true ∧ s.boot.calBegun = true ∧ s.rd
    .BOOT_CAL_CHLEN_LEN = n ∧ s.rd .BOOT_CAL_POS_POS = pos ∧ 1 ≤ n ∧ n ≤ 32768 ∧ pos + n ≤ s.rd .BOOT_CAL_TOT_TOTAL ∧
    s.rd .BOOT_CAL_TOT_TOTAL ≤ 141120) ∧
    (∃ (s : State), s.hostHeld = false ∧ s.on .BOOT_STAT_READY = true ∧ s.rd .BOOT_CAL_POS_POS = s.rd
    .BOOT_CAL_TOT_TOTAL) ∧
    (∃ (_tr : List Byte) (s : State), s.hostHeld = false ∧ s.on .BOOT_STAT_READY = true) :=
  ⟨⟨.capture [], [], up.wr .BOOT_STAT_READY 0, by decide +kernel⟩,
   ⟨up, by decide +kernel⟩,
   ⟨up.wr .BOOT_CAL_LEN_LEN 141120, by decide +kernel⟩,
   ⟨upCal 64 64 0, 64, 0, by decide +kernel⟩,
   ⟨up, by decide +kernel⟩,
   ⟨zs 4, up, by decide +kernel⟩⟩

/-- A state and operands that meet the hypotheses of each clause of HostMemory. -/
theorem witness_HostMemory :
    (∃ (off n : Nat) (s : State), s.hostServes = true ∧ s.bar2Refused off n = true) ∧
    (∃ (off : Nat) (bs : List (Option Byte)) (s : State), s.hostServes = true ∧ s.bar2Refused off bs.length = true) ∧
    (∃ (off size op _a _b : Nat) (s : State), s.hostServes = true ∧ (2 < op ∨ (size ≠ 4 ∧ size ≠ 8) ∨ off % size ≠ 0 ∨
    s.bar2Refused off size = true)) ∧
    (∃ (s : State), s.bar2Refused 0 4 = false) ∧
    (∃ (off len n : Nat) (s : State), s.hostServes = true ∧ s.bar2Refused off len = false ∧ n = lineOf (s.bar2Addr off +
    max len 1 - 1) - lineOf (s.bar2Addr off) + 1) ∧
    (∃ (off : Nat) (bs : List (Option Byte)) (s : State), s.hostServes = true ∧ s.bar2Refused off bs.length = false ∧
    bs.all (·.isNone) = false) ∧
    (∃ (_tag a : Nat) (bs : List Byte), a % 64 = 0 ∧ bs.length = 64) ∧
    (∃ (off _a _b : Nat) (s : State), s.hostServes = true ∧ s.bar2Refused off 8 = false ∧ off % 8 = 0) ∧
    (∃ (r : Req) (s : State), s.postedBefore r = true) ∧
    (∃ (tag : Nat) (s : State) (h : HostReq), s.host.reqs.find? (fun h => h.tag == tag) = some h ∧ h.isWrite = false ∧
    h.worst = stOK) ∧
    (∃ (c : Instr) (_s : State), c ∈ [Instr.functionLevelReset, .perstN]) :=
  ⟨⟨0, 4, up, by decide +kernel⟩,
   ⟨2 ^ 32 - 4, [some 1, some 2, some 3, some 4, none], upAper, by decide +kernel⟩,
   ⟨0, 4, 3, 1, 2, upAper, by decide +kernel⟩,
   ⟨upAper, by decide +kernel⟩,
   ⟨60, 8, 2, upAper, by decide +kernel⟩,
   ⟨60, [some 1, none], upAper, by decide +kernel⟩,
   ⟨7, 64, zs 64, by decide +kernel⟩,
   ⟨4088, 1, 2, upAper, by decide +kernel⟩,
   ⟨{ req mLd with org := .host 9 }, upHost true, by decide +kernel⟩,
   ⟨7, upHost false, hreq false, by decide +kernel⟩,
   ⟨.perstN, up, by decide +kernel⟩⟩

/-- A state and operands that meet the hypotheses of each clause of MeasurementsAnswered. -/
theorem witness_MeasurementsAnswered :
    (∃ (c : Instr) (i o n k : Nat) (g : Bool) (s : State), c ∈ [Instr.doeDiscovery i, .getVersion, .getCapabilities,
    .negotiateAlgorithms, .getDigests, .getCertificate i o n, .getMeasurements i g, .spdmUnsupported k] ∧ s.hostServes =
    false) ∧
    (∃ (c : Instr) (i o n k : Nat) (g : Bool) (s : State), c ∈ [Instr.doeDiscovery i, .getVersion, .getCapabilities,
    .negotiateAlgorithms, .getDigests, .getCertificate i o n, .getMeasurements i g, .spdmUnsupported k] ∧ s.hostServes =
    true) ∧
    (∃ (s : State), s.hostServes = true) ∧
    (∃ (s : State), s.hostServes = true) ∧
    (∃ (s : State), s.hostServes = true) ∧
    (∃ (s : State), s.hostServes = true) ∧
    (∃ (i : Nat) (s : State), s.hostServes = true ∧ 2 ≤ i) ∧
    (∃ (i _o _n : Nat) (s : State), s.hostServes = true ∧ i ≠ 0) ∧
    (∃ (o n k : Nat) (s : State), s.hostServes = true ∧ n < 65536 ∧ k = min n (Config.certLen - o)) ∧
    (∃ (s : State), s.hostServes = true) ∧
    (∃ (i : Nat) (s : State), s.hostServes = true ∧ 1 ≤ i ∧ i ≤ 7) ∧
    (∃ (_i : Nat) (s : State), s.hostServes = true) ∧
    (∃ (_k : Nat) (s : State), s.hostServes = true) :=
  ⟨⟨.getVersion, 0, 0, 0, 0, true, State.reset, by decide +kernel⟩,
   ⟨.getVersion, 0, 0, 0, 0, true, up, by decide +kernel⟩,
   ⟨up, by decide +kernel⟩,
   ⟨up, by decide +kernel⟩,
   ⟨up, by decide +kernel⟩,
   ⟨up, by decide +kernel⟩,
   ⟨2, up, by decide +kernel⟩,
   ⟨1, 0, 1, up, by decide +kernel⟩,
   ⟨0, 65535, min 65535 (Config.certLen - 0), up, by decide +kernel, by decide, rfl⟩,
   ⟨up, by decide +kernel⟩,
   ⟨7, up, by decide +kernel⟩,
   ⟨255, up, by decide +kernel⟩,
   ⟨0x84, up, by decide +kernel⟩⟩

/-- A state and operands that meet the hypotheses of each clause of PartialResetAndI3c. -/
theorem witness_PartialResetAndI3c :
    (∃ (c : Instr) (n : Nat) (s : State), s.hostHeld = false ∧ c ∈ [Instr.hold n, .prstRelease n] ∧ s.on
    .GLB_PRST_RES_BUSY = true) ∧
    (∃ (c : Instr) (n : Nat) (s : State), s.hostHeld = false ∧ c ∈ [Instr.hold n, .prstRelease n] ∧ s.on
    .GLB_PRST_RES_BUSY = false ∧ s.running = false) ∧
    (∃ (n : Nat) (s : State), s.hostHeld = false ∧ ((44 ≤ n ∧ n < 60) ∨ (100 ≤ n ∧ n < 128)) ∧ s.on .GLB_PRST_RES_BUSY =
    false ∧ s.running = true ∧ s.dieHeld n = false) ∧
    (∃ (n : Nat) (s : State), s.hostHeld = false ∧ 60 ≤ n ∧ n < 96 ∧ s.on .GLB_PRST_RES_BUSY = false ∧ s.running = true
    ∧ s.dieHeld n = false ∧ s.role (n - 60) = 0) ∧
    (∃ (n : Nat) (s : State), s.hostHeld = false ∧ 60 ≤ n ∧ n < 96 ∧ s.on .GLB_PRST_RES_BUSY = false ∧ s.running = true
    ∧ s.dieHeld n = false ∧ s.role (n - 60) ∈ [1, 2, 3]) ∧
    (∃ (n : Nat) (s : State), s.hostHeld = false ∧ n < 100 ∧ s.on .GLB_PRST_RES_BUSY = false ∧ s.running = true ∧
    s.dieHeld n = false) ∧
    (∃ (n : Nat) (s : State), s.hostHeld = false ∧ n < 100 ∧ s.on .GLB_PRST_RES_BUSY = false ∧ s.running = true ∧
    s.dieHeld n = true) ∧
    (∃ (n : Nat) (s : State), 60 ≤ n ∧ n < 96 ∧ s.busy.prstDie = n ∧ s.prstOn n = true ∧ s.dieHeld n = true) ∧
    (∃ (n : Nat) (s : State), n < 100 ∧ s.busy.prstDie = n ∧ s.prstOn n = true ∧ s.dieHeld n = true) ∧
    (∃ (bs : List Byte) (s : State), s.i3cServes = true ∧ bs.length = 4) ∧
    (∃ (bs : List Byte) (s : State), s.i3cServes = true ∧ bs.length = 8 ∧ leAt bs 0 4 = 0x58300 ∧ leAt bs 4 4 = 1 ∧ s.rd
    .PWR_STAT_STATE ≠ 3) ∧
    (∃ (bs : List Byte) (s : State), s.i3cServes = true ∧ bs.length = 8 ∧ leAt bs 0 4 ≠ 0x58300) ∧
    (∃ (s : State), s.i3cServes = true ∧ s.host.i3cOff % 4 = 0 ∧ s.i3cReads s.host.i3cOff = true) ∧
    (∃ (c : Instr) (a : Nat) (s : State), c ∈ [Instr.setdasa a, .entdaa a] ∧ s.i3cServes = true ∧ s.rd
    .GLB_I3C_STAT_DYNADDR = 0 ∧ a < 128) :=
  ⟨⟨.hold 44, 44, up.wr .GLB_PRST_RES_BUSY 1, by decide +kernel⟩,
   ⟨.hold 44, 44, up.wr .PWR_STAT_STATE 1, by decide +kernel⟩,
   ⟨44, up, by decide +kernel⟩,
   ⟨60, up.wr .RGF_DIE_STAT_ROLE 0 0, by decide +kernel⟩,
   ⟨95, up.wr .RGF_DIE_STAT_ROLE 1 35, by decide +kernel⟩,
   ⟨99, up, by decide +kernel⟩,
   ⟨44, upHeld 44, by decide +kernel⟩,
   ⟨60, { (upHeld 60).wr .GLB_PRST_RES_BUSY 1 with busy := { up.busy with prstDie := 60 } }, by decide +kernel⟩,
   ⟨44, { (upHeld 44).wr .GLB_PRST_RES_BUSY 1 with busy := { up.busy with prstDie := 44 } }, by decide +kernel⟩,
   ⟨zs 4, up, by decide +kernel⟩,
   ⟨leBytes 4 0x58300 ++ leBytes 4 1, up, by decide +kernel⟩,
   ⟨zs 8, up, by decide +kernel⟩,
   ⟨up, by decide +kernel⟩,
   ⟨.setdasa 127, 127, up, by decide +kernel⟩⟩

/-- A state and operands that meet the hypotheses of each clause of SuppliesResetAndHeat. -/
theorem witness_SuppliesResetAndHeat :
    (∃ (s : State), s.power.vstby = false) ∧
    (∃ (s : State), s.power.vstby = true) ∧
    (∃ (s : State), s.power.vstby = true ∧ s.power.pgIn = false ∧ s.power.offState = true ∧ s.power.offWake = false) ∧
    (∃ (s : State), s.power.vstby = true ∧ s.power.pgIn = false ∧ s.power.offState = false ∧ s.power.trips = false ∧
    s.power.relHeld = true) ∧
    (∃ (ns : Nat) (_s : State), ns < 1000) ∧
    (∃ (ns : Nat) (s : State), 1000 ≤ ns ∧ s.power.vstby = true ∧ s.power.offState = true) ∧
    (∃ (ns : Nat) (s : State), 1000 ≤ ns ∧ s.power.vstby = true ∧ s.power.offState = false) ∧
    (∃ (ns : Nat) (_s : State), ns < 1000) ∧
    (∃ (ns : Nat) (s : State), 10000 ≤ ns ∧ s.power.vstby = true) ∧
    (∃ (l : List Nat) (s : State), s.power.vstby = true ∧ s.power.rails = true ∧ s.power.inReset = false ∧ l ≠ [] ∧ 115
    ≤ l.foldl max 0) ∧
    (∃ (l : List Nat) (m : Nat) (s : State), s.power.vstby = true ∧ s.power.rails = true ∧ s.power.inReset = false ∧ l ≠
    [] ∧ l.foldl max 0 = m ∧ m < 115 ∧ l.length ≤ 100) ∧
    (∃ (s : State), s.rd .PWR_THERM_STAT_LEVEL = 2 ∧ s.rd .PWR_THERM_STAT_TMAX + 5 < s.rd .PWR_THERM_CFG_T2) ∧
    (∃ (s : State), s.rd .PWR_THERM_STAT_LEVEL = 1 ∧ s.rd .PWR_THERM_STAT_TMAX + 5 < s.rd .PWR_THERM_CFG_T1) ∧
    (∃ (_a : Bool) (s : State), s.power.inReset = false ∧ s.power.offState = false ∧ s.power.rails = true) :=
  ⟨⟨up.setPower { up.power with vstby := false }, by decide +kernel⟩,
   ⟨up, by decide +kernel⟩,
   ⟨up.setPower { up.power with pgIn := false, offState := true }, by decide +kernel⟩,
   ⟨up.setPower { up.power with pgIn := false, relHeld := true }, by decide +kernel⟩,
   ⟨999, up, by decide +kernel⟩,
   ⟨1000, up.setPower { up.power with offState := true }, by decide +kernel⟩,
   ⟨1000, up, by decide +kernel⟩,
   ⟨999, up, by decide +kernel⟩,
   ⟨10000, up, by decide +kernel⟩,
   ⟨[115], up, by decide +kernel⟩,
   ⟨[114], 114, up, by decide +kernel⟩,
   ⟨wrs up [(.PWR_THERM_STAT_LEVEL, 0, 2), (.PWR_THERM_STAT_TMAX, 0, 1), (.PWR_THERM_CFG_T2, 0, 100)],
    by decide +kernel⟩,
   ⟨wrs up [(.PWR_THERM_STAT_LEVEL, 0, 1), (.PWR_THERM_STAT_TMAX, 0, 1), (.PWR_THERM_CFG_T1, 0, 90)], by decide +kernel⟩,
   ⟨true, up, by decide +kernel⟩⟩

/-- A state and operands that meet the hypotheses of each clause of BoundaryScan. -/
theorem witness_BoundaryScan :
    (∃ (c : Instr) (n : Nat) (s : State), (c, n) ∈ [(Instr.extest, 0x00), (.clamp, 0x04), (.highz, 0x05), (.extestPulse,
    0x08), (.extestTrain, 0x09)] ∧ s.power.vstby = true) ∧
    (∃ (s : State), s.power.vstby = true) ∧
    (∃ (s : State), s.power.vstby = true) ∧
    (∃ (_v : Nat) (s : State), s.power.vstby = true) ∧
    (∃ (n : Nat) (s : State), s.power.vstby = true ∧ [0x00, 0x01, 0x02, 0x04, 0x05, 0x08, 0x09].contains (n % 256) =
    false) ∧
    (∃ (c : Instr) (v : Nat) (s : State), c ∈ [Instr.extest, .clamp, .highz, .extestPulse, .extestTrain, .tapReset,
    .idcode, .samplePreload v, .bypass v] ∧ s.power.vstby = false) :=
  ⟨⟨.extest, 0, up, by decide +kernel⟩,
   ⟨up, by decide +kernel⟩,
   ⟨up, by decide +kernel⟩,
   ⟨5, up, by decide +kernel⟩,
   ⟨3, up, by decide +kernel⟩,
   ⟨.tapReset, 0, up.setPower { up.power with vstby := false }, by decide +kernel⟩⟩

/-- A state and operands that meet the hypotheses of each clause of RegistersAndTelemetry. -/
theorem witness_RegistersAndTelemetry :
    (∃ (c : Instr) (b : Bool) (s : State), barAccess c = some b ∧ s.hostHeld = true) ∧
    (∃ (c : Instr) (o n v : Nat) (s : State), c ∈ [Instr.registerWrite o n v, .registerRead o n] ∧ s.hostServes = false
    ∧ s.hostHeld = false) ∧
    (∃ (o n _v : Nat) (s : State), s.hostServes = true ∧ s.hostHeld = false ∧ accessOk o n = false) ∧
    (∃ (o n _v : Nat) (s : State), s.hostServes = true ∧ s.hostHeld = false ∧ accessOk o n = true ∧ s.blockServed o =
    false) ∧
    (∃ (o n : Nat) (s : State), s.hostServes = true ∧ s.hostHeld = false ∧ accessOk o n = true ∧ s.blockServed o = true) ∧
    (∃ (o _v : Nat) (s : State), s.hostServes = true ∧ s.hostHeld = false ∧ accessOk o 8 = true ∧ s.blockServed o = true
    ∧ s.window o 8 = none ∧ wide o = false) ∧
    (∃ (o v : Nat) (s : State), o ∈ cmdOffsets ∧ s.hostServes = true ∧ s.hostHeld = false ∧ s.blockServed o = true ∧
    s.romServes o = true ∧ s.cmdHeld o (v % 2 ^ 32) = false) ∧
    (∃ (o _v : Nat) (s : State), o ∈ cmdOffsets ∧ s.hostServes = true ∧ s.hostHeld = false ∧ s.blockServed o = true ∧
    s.romServes o = false) ∧
    (∃ (o : Nat) (s : State), s.window o 4 = none ∧ (s.read4 o).2.window (o + 4) 4 = none ∧ wide o = true ∧ wide (o + 4)
    = false) ∧
    (∃ (_v : Nat) (s : State), s.hostServes = true ∧ s.hostHeld = false ∧ s.power.stepsEnded.contains 8 = true) ∧
    (∃ (c _v : Nat) (s : State), c < 64 ∧ s.hostServes = true ∧ s.hostHeld = false ∧ s.power.stepsEnded.contains 8 =
    true ∧ s.carState c = 1) ∧
    (∃ (n v : Nat) (s : State), s.hostHeld = false ∧ n < 256 ∧ selectable (v % 2 ^ 28) = true) ∧
    (∃ (n v : Nat) (s : State), s.hostHeld = false ∧ n < 256 ∧ selectable (v % 2 ^ 28) = false) ∧
    (∃ (s : State), s.snapDue = true ∧ s.rd .TEL_STAT_BANK ≤ 1) ∧
    (∃ (s : State), s.snapDue = false) ∧
    (∃ (s : State) (r : List Byte) (q : List (List Byte)), s.tel.flashq = r :: q ∧ r.length = 64 ∧ s.power.inReset =
    false ∧ s.power.offState = false) ∧
    (∃ (s : State), s.tel.flashq = []) :=
  ⟨⟨.registerRead 0 4, true, upHost true, by decide +kernel⟩,
   ⟨.registerRead 0 4, 0, 4, 0, State.reset, by decide +kernel⟩,
   ⟨2, 4, 0, up, by decide +kernel⟩,
   ⟨0x1000000, 4, 0, upBoot [1, 2, 3, 4], by decide +kernel⟩,
   ⟨0x0FFFFFF8, 8, up, by decide +kernel⟩,
   ⟨0x4000020, 0, up, by decide +kernel⟩,
   ⟨0x10100, 1, up, by decide +kernel⟩,
   ⟨0x300, 1, up.wr .BOOT_STAT_HALT 1, by decide +kernel⟩,
   ⟨0x8000010, up, by decide +kernel⟩,
   ⟨5, up, by decide +kernel⟩,
   ⟨63, 64, up.wr .CAR_STAT_STATE 1 63, by decide +kernel⟩,
   ⟨255, 0x80000000, up, by decide +kernel⟩,
   ⟨255, 0x300, up, by decide +kernel⟩,
   ⟨up, by decide +kernel⟩,
   ⟨up.wr .TEL_CTL_EN 0, by decide +kernel⟩,
   ⟨{ up with tel := { up.tel with flashq := [zs 64] } }, zs 64, [], by decide +kernel⟩,
   ⟨up, by decide +kernel⟩⟩

/-- A state and operands that meet the hypotheses of each clause of StepRunsFront. -/
theorem witness_StepRunsFront :
    (∃ (c : Instr) (rest : List Instr) (s : State), s.pending = c :: rest) ∧
    (∃ (s : State), s.pending = [] ∧ (s.host.behind = [] ∨ (∃ b l h, s.host.behind = b :: l ∧ h ∈ s.host.reqs ∧
    h.isWrite = true ∧ h.tag < b.ord))) ∧
    (∃ (s : State) (b : Behind) (l : List Behind), s.pending = [] ∧ s.host.behind = b :: l ∧ (∀ h ∈ s.host.reqs,
    h.isWrite = true → b.ord ≤ h.tag)) :=
  ⟨⟨.clr, [.enter], { up with pending := [.clr, .enter] }, by decide +kernel⟩,
   ⟨up, by decide +kernel, .inl (by decide +kernel)⟩,
   ⟨{ up with host := { up.host with behind := [⟨0, true, .registerRead 0 4⟩] } }, ⟨0, true, .registerRead 0 4⟩, [],
    by decide +kernel⟩⟩

/-- A state and operands that meet the hypotheses of each clause of AlertLine. -/
theorem witness_AlertLine :
    (∃ (s : State), s.contained = true) :=
  ⟨upCont [], by decide +kernel⟩

/-- A state and operands that meet the hypotheses of each clause of TimestampLayout. -/
theorem witness_TimestampLayout :
    (∃ (s : State), s.clk.subtick < 16) ∧
    (∃ (s : State), s.clk.subtick < 16 ∧ s.epoch < 2 ^ 48) ∧
    (∃ (s t : State), s.clk.subtick < 16 ∧ t.clk.subtick < 16 ∧ s.epoch < t.epoch) :=
  ⟨⟨up, by decide +kernel⟩,
   ⟨up, by decide +kernel⟩,
   ⟨up, up.wr .PWR_EPOCH_COUNT 1, by decide +kernel⟩⟩

/-- A state and operands that meet the hypotheses of each clause of DistanceLimit. -/
theorem witness_DistanceLimit :
    (∃ (c : Instr) (s : State) (p : Nat) (m : Msg) (res : Nat) (o : Outst), requestOf s c = some (p, m, res) ∧ p < 320 ∧
    s.active p = true ∧ s.rd .PRT_PFTL_STAT_ROLE p ≠ 3 ∧ check1 m (ownBlock m (s.agentId p)) = true ∧ mSrc m = s.agentId
    p ∧ (s.source p).isOpen (mSeq m) = false ∧ o ∈ (s.source p).outst ∧ o.answered = false ∧ 65536 < (mSeq m + 2 ^ 20 -
    o.seq % 2 ^ 20) % 2 ^ 20 ∧ (mSeq m + 2 ^ 20 - o.seq % 2 ^ 20) % 2 ^ 20 < 2 ^ 20 - 65536) ∧
    (∃ (q : Source) (n : Nat), (∀ o ∈ q.outst, o.answered = false → (n + 2 ^ 20 - o.seq % 2 ^ 20) % 2 ^ 20 ≤ 65536 ∨ 2 ^
    20 - 65536 ≤ (n + 2 ^ 20 - o.seq % 2 ^ 20) % 2 ^ 20)) :=
  ⟨⟨.ld 0 (withField mLd 75 20 65537), upSrc (fun q => { q with outst := [out0] }), 0, withOpc (withField mLd 75 20
    65537) opLD, 0, out0, by decide +kernel⟩,
   ⟨{ Source.init with outst := [out0] }, 65536, by decide +kernel⟩⟩

/-- A state and operands that meet the hypotheses of each clause of SubnormalsKept. -/
theorem witness_SubnormalsKept :
    (∃ (f : Fmt) (v : Nat), f ∈ [fmtBF16, fmtFP16, fmtFP32, fmtE4M3, fmtE5M2] ∧ 1 ≤ v ∧ v < 2 ^ f.mb) ∧
    (∃ (f : Fmt) (_mode v : Nat), f ∈ [fmtBF16, fmtFP16, fmtFP32, fmtE4M3, fmtE5M2] ∧ v < 2 ^ (1 + f.eb + f.mb) ∧ widenF
    f v ≠ .nan) :=
  ⟨⟨fmtBF16, 1, by decide +kernel⟩,
   ⟨fmtFP16, 0, 0x8001, by decide +kernel⟩⟩

/-- A state and operands that meet the hypotheses of each clause of ZeroSums. -/
theorem witness_ZeroSums :
    (∃ (_mode : Nat) (a b : Fp) (n k : Bool) (x y : Nat) (e f : Int), a.num = .fin n x e ∧ b.num = .fin k y f ∧
    Sys2Proof.Machine.Num.at x e (min e f) n + Sys2Proof.Machine.Num.at y f (min e f) k = 0 ∧ ¬(n = true ∧ k = true ∧ x
    = 0 ∧ y = 0)) ∧
    (∃ (_mode : Nat) (a b : Fp) (e f : Int), a.num = .fin true 0 e ∧ b.num = .fin true 0 f) ∧
    (∃ (_mode : Nat) (ps : List Sys2Proof.Machine.Num), ps ≠ [] ∧ (∀ p ∈ ps, ∃ e, p = .fin true 0 e)) ∧
    (∃ (_mode m : Nat) (e : Int), windowExp ≤ e ∧ m ≠ 0) :=
  ⟨⟨0, ⟨.fin false 1 0, false⟩, ⟨.fin true 1 0, false⟩, false, true, 1, 1, 0, 0, by decide +kernel⟩,
   ⟨0, ⟨.fin true 0 0, false⟩, ⟨.fin true 0 1, false⟩, 0, 1, by decide +kernel⟩,
   ⟨0, [.fin true 0 0], by decide, fun p hp => ⟨0, by simpa using hp⟩⟩,
   ⟨0, 1, windowExp, by decide +kernel⟩⟩

/-- A state and operands that meet the hypotheses of each clause of LowPowerCommands. -/
theorem witness_LowPowerCommands :
    (∃ (c : Instr) (i : Nat) (f : Fld) (s : State), s.hostHeld = false ∧ (c, f) ∈ [(Instr.assign,
    Fld.SEC_TEN_RES_STATUS), (.extentCreate, .POOL_EXT_RES_STATUS), (.extentDelete i, .POOL_EXT_RES_STATUS), (.setAttr
    i, .POOL_EXT_RES_STATUS), (.extentRead i, .POOL_EXT_RES_STATUS), (.setOwner i, .POOL_EXT_RES_STATUS), (.apply,
    .POOL_RCMP_STAT_STATUS), (.evict, .POOL_RCMP_STAT_STATUS), (.form, .DIR_CG_RES_STATUS), (.add, .DIR_CG_RES_STATUS),
    (.remove, .DIR_CG_RES_STATUS), (.reform, .DIR_CG_RES_STATUS), (.disband, .DIR_CG_RES_STATUS), (.regionCreate,
    .DIR_PUB_RES_STATUS), (.regionDelete i, .DIR_PUB_RES_STATUS), (.regionRead i, .DIR_PUB_RES_STATUS), (.define,
    .TIER_OBJ_RES_STATUS), (.placeOasis i, .TIER_OBJ_RES_STATUS), (.placeErg i, .TIER_OBJ_RES_STATUS), (.objectDelete i,
    .TIER_OBJ_RES_STATUS), (.objectRead i, .TIER_OBJ_RES_STATUS), (.observe i, .SCN_DIE_RES_STATUS), (.release i,
    .SCN_DIE_RES_STATUS), (.retire i, .SCN_DIE_RES_STATUS), (.pair i, .SCN_DIE_RES_STATUS), (.scanNow i,
    .SCN_DIE_RES_STATUS), (.hold i, .GLB_PRST_RES_STATUS), (.prstRelease i, .GLB_PRST_RES_STATUS)] ∧ s.running = false ∧
    s.on .POOL_EXT_RES_BUSY = false ∧ s.on .POOL_RCMP_STAT_BUSY = false ∧ s.on .DIR_CG_RES_BUSY = false ∧ s.on
    .DIR_PUB_RES_BUSY = false ∧ s.on .TIER_OBJ_RES_BUSY = false ∧ s.on .SCN_DIE_RES_BUSY = false ∧ s.on
    .GLB_PRST_RES_BUSY = false) ∧
    (∃ (c : Nat) (s : State), c < 64 ∧ s.running = false ∧ s.hostHeld = false) :=
  ⟨⟨.form, 0, .DIR_CG_RES_STATUS, up.wr .PWR_STAT_STATE 1, by decide +kernel⟩,
   ⟨63, up.wr .PWR_STAT_STATE 1, by decide +kernel⟩⟩

/-- A state and operands that meet the hypotheses of each clause of CommandFrames. -/
theorem witness_CommandFrames :
    (∃ (c : Instr) (fs : List Fld) (i v : Nat) (b : Bool) (s : State), (c, fs) ∈ [ (Instr.build,
    [Fld.EVT_BUNDLE_TOT_TOTAL, .EVT_BUNDLE_POS_POS, .EVT_BUNDLE_PCT_PCT]), (.tmApply, [.TM_STAT_APPLY_PEND]),
    (.poolSuspClr i, []), (.gen, [.SEC_ATT_STAT_BUSY, .SEC_ATT_STAT_CMD_IGN]), (.begin, [.SEC_FW_STAT_STATUS,
    .SEC_FW_STAT_PEND, .SEC_FW_TOT_TOTAL, .SEC_FW_POS_POS]), (.chunk, [.SEC_FW_STAT_STATUS, .SEC_FW_POS_POS]), (.finish,
    [.SEC_FW_STAT_STATUS, .SEC_FW_STAT_PEND]), (.firmwareCancel, [.SEC_FW_STAT_STATUS, .SEC_FW_STAT_PEND]), (.raiseSvn,
    [.SEC_FW_STAT_STATUS]), (.reportSigned, [.SEC_ATT_STAT_BUSY, .SEC_ATT_STAT_LEN, .SEC_ATT_CNT_COUNT]), (.calBegin,
    [.BOOT_CAL_STAT_STATUS, .BOOT_CAL_STAT_VALID, .BOOT_CAL_TOT_TOTAL, .BOOT_CAL_POS_POS]), (.calChunk,
    [.BOOT_CAL_STAT_STATUS, .BOOT_CAL_POS_POS]), (.calCommit, [.BOOT_CAL_STAT_STATUS, .BOOT_CAL_STAT_VALID]),
    (.regionRead i, [.DIR_PUB_CMD_INDEX, .DIR_PUB_RES_STATUS, .DIR_PUB_RES_BUSY, .DIR_PUB_RES_INDEX, .DIR_PUB_ARG0_HDR,
    .DIR_PUB_ARG1_BODY, .DIR_PUB_ARG2_LINES, .DIR_PUB_VER_VERSION]), (.telSel i v, [.TEL_SEL_OFFSET, .TEL_SEL_VALID,
    .TEL_STAT_SEL_ERR]), (.snapshot, [.TEL_STAT_BANK, .TEL_SEQ_COUNT, .TEL_TS_TIME]), (.flashLogWrite,
    [.EVT_FLOG_IDX_NEXT]), (.powerLimit b, [.PWR_THERM_STAT_LIMIT]), (.thermalLevelExit, [.PWR_THERM_STAT_LEVEL]),
    (.setdasa v, [.GLB_I3C_STAT_DYNADDR]), (.entdaa v, [.GLB_I3C_STAT_DYNADDR]), (.carDnext i v, [.CAR_DNEXT_ADDR,
    .CAR_STAT_CMD_IGN]), (.setd i v, [.CAR_DNEXT_ADDR, .CAR_STAT_CMD_IGN]), (.extest, []), (.idcode, []),
    (.samplePreload v, []), (.bypass v, []), (.tapReset, []), (.clr, []), (.getMeasurements i b, []), (.dieLinkError i
    v, [])] ∧ (s.hostHeld = false ∨ barAccess c = none)) :=
  ⟨.clr, [], 0, 0, true, up, by decide +kernel⟩

/-- A state and operands that meet the hypotheses of each clause of ResetLeaves. -/
theorem witness_ResetLeaves :
    (∃ g, g < 16) ∧
    (∃ c, c < 64) :=
  ⟨⟨15, by decide +kernel⟩,
   ⟨63, by decide +kernel⟩⟩

/-- A state and operands that meet the hypotheses of each clause of SecurityVersionHolds. -/
theorem witness_SecurityVersionHolds :
    (∃ (s : State), s.hostHeld = false ∧ s.boot.fuses.minSvn < s.boot.image.svn ∧ s.boot.image.svn ≤ 63) ∧
    (∃ (s : State), s.hostHeld = false ∧ (s.boot.image.svn ≤ s.boot.fuses.minSvn ∨ 63 < s.boot.image.svn)) ∧
    (∃ (s t : State), step s = .next t) ∧
    (∃ (s : State), s.hostHeld = false ∧ s.rd .SEC_FW_POS_POS = s.rd .SEC_FW_TOT_TOTAL ∧ leAt (s.img s.idleSlot 0 128)
    12 4 < s.boot.fuses.minSvn) ∧
    (∃ (b : Nat) (s : State), leAt (s.img b 0 128) 12 4 < s.boot.fuses.minSvn) :=
  ⟨⟨upSvn 63, by decide +kernel⟩,
   ⟨upSvn 0, by decide +kernel⟩,
   ⟨{ up with pending := [.clr] }, after { up with pending := [.clr] }, rfl⟩,
   ⟨svn0 (1 - up.runSlot), by decide +kernel⟩,
   ⟨1, svn0 1, by decide +kernel⟩⟩

/-- A state and operands that meet the hypotheses of each clause of MemoryStaysCanonical. -/
theorem witness_MemoryStaysCanonical :
    (∃ (s t : State), s.MemOk ∧ step s = .next t) :=
  ⟨{ up with pending := [.clr] }, after { up with pending := [.clr] }, (by unfold State.MemOk; decide), rfl⟩

/-- A state and operands that meet the hypotheses of each clause of QueueIsTheSenders. -/
theorem witness_QueueIsTheSenders :
    (∃ (s t : State), step s = .next t) :=
  ⟨{ up with pending := [.clr, .enter] }, after { up with pending := [.clr, .enter] }, rfl⟩

end Sys2Proof.Tests
end

section
/-! SUPPORT. Proofs of the statements on the scope (spec/00_scope.md): timestamps, what reset leaves, what commands leave alone,
and the accesses of BAR0 with telemetry and the flash log. -/

namespace Sys2Proof.Proofs
open Sys2Proof Sys2Proof.Machine

/-! ### Timestamps (R7, R466) -/

/-- Above its 12-bit fraction a timestamp holds the epoch count and the subtick. -/
theorem now_div_fraction (s : State) : s.now / 2 ^ 12 = s.epoch * 2 ^ 4 + s.clk.subtick := by
  unfold State.now State.epoch
  split <;> omega

/-- The fraction of a timestamp: HOLD above the halved CCLK count, which saturates. -/
theorem now_mod_fraction (s : State) :
    s.now % 2 ^ 12 = (if s.clk.holdEpoch then 2 ^ 11 else 0) + min (s.clk.cclk / 2) 0x7FF := by
  unfold State.now
  split <;> omega

/-- Settles O51: each clause reads the two parts a timestamp is put together from. -/
theorem timestampLayout : Obligations.TimestampLayout := by
  unfold Obligations.TimestampLayout
  refine ⟨fun s hs => ?_, fun s => ?_, fun s hs he => ?_, fun s t hs ht he => ?_⟩
  · have := now_div_fraction s
    omega
  · have hmod := now_mod_fraction s
    have hlow : s.now % 2 ^ 11 = s.now % 2 ^ 12 % 2 ^ 11 := by omega
    rw [hlow, Nat.testBit_eq_decide_div_mod_eq, hmod]
    cases s.clk.holdEpoch <;> simp <;> omega
  · have := now_div_fraction s
    omega
  · have hs' := now_div_fraction s
    have ht' := now_div_fraction t
    omega

/-! ### The state reset leaves (R12) -/

/-- Every register field holds its table's value. -/
@[simp] theorem rd_reset (f : Fld) (i j : Nat) : State.reset.rd f i j = f.resetVal i j := rfl

/-- No byte listed is in canonical form. -/
theorem memOk_of_nil {s : State} (h : s.pool.mem = []) : s.MemOk := by
  simp [State.MemOk, Memory.wf, twf, h]

/-- Settles O57: no register has been written, so each shows what its table gives. -/
theorem resetLeaves : Obligations.ResetLeaves := by
  unfold Obligations.ResetLeaves
  refine ⟨memOk_of_nil rfl, rfl, rfl, rfl, rfl, rfl, rfl, rd_reset _ _ _, rd_reset _ _ _, rd_reset _ _ _, rd_reset _ _ _,
    rd_reset _ _ _, ?_, fun g _ => rd_reset _ g 0, fun c _ => rd_reset _ c 0, rd_reset, ?_⟩
  · rfl
  · simp only [rd_reset]
    decide

/-! ### Commands that run -/

/-- A BAR0 access of the host acts at once while no posted write is before it (R89). -/
theorem runs_inOrder {c : Instr} {b : Bool} {act : State → State} {s : State} (he : exec c s = settled (s.inOrder b c act))
    (hh : s.hostHeld = false) : Runs c s (act s) :=
  runs_of (by simp [he, State.inOrder, hh, settled])

theorem runs_hostRow {c : Instr} {act : State → State} {s : State} (he : exec c s = hostRow c act s)
    (hh : s.hostHeld = false) : Runs c s (act s) :=
  runs_inOrder he hh

/-! ### Frames (R11, R478) -/

/-- From `s` to `t` no register field changes but those of `fs` and the two a command's end sets, and nothing changes of the pool's
bytes and extents or of the other units. -/
structure Frame (fs : List Fld) (s t : State) : Prop where
  rd : ∀ f i j, f ∉ fs → f ≠ .GLB_CMD_DONE_DONE → f ≠ .GLB_IRQ_STAT_CAUSE → t.rd f i j = s.rd f i j
  mem : t.pool.mem = s.pool.mem
  psn : t.pool.psn = s.pool.psn
  extents : t.pool.extents = s.pool.extents
  ports : t.ports = s.ports
  agents : t.agents = s.agents
  sw : t.sw = s.sw
  home : t.home = s.home
  tier : t.tier = s.tier
  coh : t.coh = s.coh
  rgf : t.rgf = s.rgf
  chans : t.chans = s.chans
  rcv : t.rcv = s.rcv
  power : t.power = s.power
  clk : t.clk = s.clk

section Frames

variable {fs : List Fld} {s t : State}

theorem Frame.refl : Frame fs s s := by
  constructor <;> intros <;> rfl

/-- A change of the fields that a frame does not speak of. -/
theorem Frame.lit (h : Frame fs s t) {pending scn boot busy host tel tap out nextId freeCtr} {pool : Pool}
    (hm : pool.mem = t.pool.mem := by rfl) (hp : pool.psn = t.pool.psn := by rfl)
    (hx : pool.extents = t.pool.extents := by rfl) :
    Frame fs s ⟨pending, t.regs, t.ports, t.agents, t.sw, t.home, pool, t.tier, t.coh, t.rgf, t.chans, scn, t.rcv, boot,
      t.power, t.clk, busy, host, tel, tap, out, nextId, freeCtr⟩ :=
  { h with mem := hm.trans h.mem, psn := hp.trans h.psn, extents := hx.trans h.extents }

/-- A write of a named field, or of one that a command's end sets. -/
theorem Frame.wr (h : Frame fs s t) {f : Fld} (hf : f ∈ .GLB_CMD_DONE_DONE :: .GLB_IRQ_STAT_CAUSE :: fs) (v i j : Nat) :
    Frame fs s (t.wr f v i j) :=
  { h with
    rd := fun g i' j' hg hd hc => by
      have hne : f ≠ g := by rintro rfl; simp_all
      rw [rd_wr_fld _ _ _ _ _ _ hne, h.rd g i' j' hg hd hc] }

theorem Frame.raiseBits (h : Frame fs s t) {f : Fld} (hf : f ∈ .GLB_CMD_DONE_DONE :: .GLB_IRQ_STAT_CAUSE :: fs)
    (v i j : Nat) : Frame fs s (t.raiseBits f v i j) :=
  (h.wr hf _ i j).lit

theorem Frame.emit (h : Frame fs s t) (w : Wire) : Frame fs s (t.emit w) := h.lit

theorem Frame.sendVector (h : Frame fs s t) (v : Nat) : Frame fs s (t.sendVector v) := by
  unfold State.sendVector
  split
  · exact h.lit
  · exact h.emit _

theorem Frame.irq (h : Frame fs s t) (c : Nat) : Frame fs s (t.irq c) := by
  have ht := h.raiseBits (f := .GLB_IRQ_STAT_CAUSE) (by simp) (2 ^ c) 0 0
  unfold State.irq
  dsimp only
  split
  · exact ht
  · split
    · exact ht.sendVector c
    · exact ht

theorem Frame.cmdDone (h : Frame fs s t) (b : Nat) : Frame fs s (t.cmdDone b) :=
  (h.raiseBits (f := .GLB_CMD_DONE_DONE) (by simp) _ 0 0).irq 2

theorem Frame.flashWrite (h : Frame fs s t) (a : Nat) (bs : List Byte) : Frame fs s (t.flashWrite a bs) := h.lit

theorem Frame.flashErase (h : Frame fs s t) (a n : Nat) : Frame fs s (t.flashErase a n) := h.lit

theorem Frame.flashRecord (h : Frame fs s t) (base size i : Nat) (bs : List Byte) :
    Frame fs s (t.flashRecord base size i bs) := by
  unfold State.flashRecord
  dsimp only
  split
  · exact (h.flashErase _ _).flashWrite _ _
  · exact h.flashWrite _ _

theorem Frame.withTap (h : Frame fs s t) (x : Tap) : Frame fs s (t.withTap x) := by
  unfold State.withTap
  split
  · exact h.lit
  · exact h

theorem Frame.doeAnswer (h : Frame fs s t) (code : Byte) (body : List Byte) : Frame fs s (t.doeAnswer code body) := by
  unfold State.doeAnswer
  split
  · exact h.emit _
  · exact h

/-! ### Frames of commands -/

theorem Frame.fwEnd (h : Frame fs s t) (hf : .SEC_FW_STAT_STATUS ∈ fs) (st : Nat) : Frame fs s (t.fwEnd st) :=
  (h.wr (by simp [hf]) st 0 0).cmdDone 3

theorem Frame.calEnd (h : Frame fs s t) (hf : .BOOT_CAL_STAT_STATUS ∈ fs) (st : Nat) : Frame fs s (t.calEnd st) :=
  (h.wr (by simp [hf]) st 0 0).cmdDone 4

theorem Frame.pubCmdEnd (h : Frame fs s t) (hf : .DIR_PUB_RES_STATUS ∈ fs) (hb : .DIR_PUB_RES_BUSY ∈ fs) (st : Nat) :
    Frame fs s (t.pubCmdEnd st) :=
  ((h.wr (by simp [hf]) st 0 0).wr (by simp [hb]) 0 0 0).cmdDone 8

theorem Frame.dropCommit (h : Frame fs s t) (hf : .SEC_FW_STAT_PEND ∈ fs) : Frame fs s t.dropCommit :=
  (h.flashWrite _ _).wr (by simp [hf]) 0 0 0

theorem frame_doBuild (s : State) :
    Frame [.EVT_BUNDLE_TOT_TOTAL, .EVT_BUNDLE_POS_POS, .EVT_BUNDLE_PCT_PCT] s s.doBuild :=
  ((Frame.refl.lit.wr (by decide) _ 0 0).wr (by decide) 0 0 0).wr (by decide) 0 0 0

theorem frame_setSusp (s : State) (pg : Nat) (v : Bool) : Frame [] s (s.setSusp pg v) := Frame.refl.lit

theorem frame_doGen (s : State) : Frame [.SEC_ATT_STAT_BUSY, .SEC_ATT_STAT_CMD_IGN] s s.doGen := by
  unfold State.doGen
  split
  · exact Frame.refl.raiseBits (by decide) _ 0 0
  · exact (Frame.refl.wr (by decide) 1 0 0).lit

theorem frame_doBegin (s : State) :
    Frame [.SEC_FW_STAT_STATUS, .SEC_FW_STAT_PEND, .SEC_FW_TOT_TOTAL, .SEC_FW_POS_POS] s s.doBegin := by
  unfold State.doBegin
  dsimp only
  split
  · exact Frame.refl.fwEnd (by decide) _
  · exact (((Frame.refl.dropCommit (by decide)).wr (by decide) _ 0 0).wr (by decide) _ 0 0).lit.fwEnd (by decide) _

theorem frame_doChunk (s : State) : Frame [.SEC_FW_STAT_STATUS, .SEC_FW_POS_POS] s s.doChunk := by
  unfold State.doChunk
  dsimp only
  split
  · exact Frame.refl.fwEnd (by decide) _
  · split
    · exact Frame.refl.fwEnd (by decide) _
    · exact ((Frame.refl.flashWrite _ _).wr (by decide) _ 0 0).fwEnd (by decide) _

theorem frame_doFinish (s : State) : Frame [.SEC_FW_STAT_STATUS, .SEC_FW_STAT_PEND] s s.doFinish := by
  unfold State.doFinish
  dsimp only
  split
  · exact Frame.refl.fwEnd (by decide) _
  · split
    · exact Frame.refl.fwEnd (by decide) _
    · exact (((Frame.refl.flashErase _ _).flashWrite _ _).wr (by decide) 1 0 0).lit.fwEnd (by decide) _

theorem frame_doFwCancel (s : State) : Frame [.SEC_FW_STAT_STATUS, .SEC_FW_STAT_PEND] s s.doFwCancel :=
  (Frame.refl.dropCommit (by decide)).lit.fwEnd (by decide) _

theorem frame_doRaise (s : State) : Frame [.SEC_FW_STAT_STATUS] s s.doRaise := by
  unfold State.doRaise
  dsimp only
  split
  · exact Frame.refl.fwEnd (by decide) _
  · exact Frame.refl.lit.fwEnd (by decide) _

theorem frame_doCalBegin (s : State) :
    Frame [.BOOT_CAL_STAT_STATUS, .BOOT_CAL_STAT_VALID, .BOOT_CAL_TOT_TOTAL, .BOOT_CAL_POS_POS] s s.doCalBegin := by
  unfold State.doCalBegin
  dsimp only
  split
  · exact Frame.refl.calEnd (by decide) _
  · split
    · exact Frame.refl.calEnd (by decide) _
    · exact ((((Frame.refl.flashErase _ _).wr (by decide) _ 0 0).wr (by decide) _ 0 0).wr (by decide) _ 0 0).lit.calEnd
        (by decide) _

theorem frame_doCalChunk (s : State) : Frame [.BOOT_CAL_STAT_STATUS, .BOOT_CAL_POS_POS] s s.doCalChunk := by
  unfold State.doCalChunk
  dsimp only
  split
  · exact Frame.refl.calEnd (by decide) _
  · split
    · exact Frame.refl.calEnd (by decide) _
    · exact ((Frame.refl.flashWrite _ _).wr (by decide) _ 0 0).calEnd (by decide) _

theorem frame_doCalCommit (s : State) : Frame [.BOOT_CAL_STAT_STATUS, .BOOT_CAL_STAT_VALID] s s.doCalCommit := by
  unfold State.doCalCommit
  split
  · exact Frame.refl.calEnd (by decide) _
  · split
    · exact Frame.refl.calEnd (by decide) _
    · exact ((Frame.refl.flashWrite _ _).wr (by decide) _ 0 0).lit.calEnd (by decide) _

theorem frame_doRegionRead (s : State) (i : Nat) :
    Frame [.DIR_PUB_CMD_INDEX, .DIR_PUB_RES_STATUS, .DIR_PUB_RES_BUSY, .DIR_PUB_RES_INDEX, .DIR_PUB_ARG0_HDR,
      .DIR_PUB_ARG1_BODY, .DIR_PUB_ARG2_LINES, .DIR_PUB_VER_VERSION] s (s.doRegionRead i) := by
  unfold State.doRegionRead State.regionCmd
  dsimp only
  split
  · exact Frame.refl
  · split
    · exact (Frame.refl.wr (by decide) _ 0 0).pubCmdEnd (by decide) (by decide) _
    · exact ((((((Frame.refl.wr (by decide) _ 0 0).wr (by decide) _ 0 0).wr (by decide) _ 0 0).wr (by decide) _ 0 0).wr
        (by decide) _ 0 0).wr (by decide) _ 0 0).pubCmdEnd (by decide) (by decide) _

theorem frame_telSel (s : State) (n v : Nat) : Frame [.TEL_SEL_OFFSET, .TEL_SEL_VALID, .TEL_STAT_SEL_ERR] s (s.telSel n v) := by
  unfold State.telSel
  split
  · exact Frame.refl
  · split
    · exact (Frame.refl.wr (by decide) _ n 0).wr (by decide) _ n 0
    · exact Frame.refl.raiseBits (by decide) _ 0 0

theorem frame_i3cAssign (s : State) (addr : Nat) : Frame [.GLB_I3C_STAT_DYNADDR] s (s.i3cAssign addr) := by
  unfold State.i3cAssign
  split
  · exact Frame.refl.wr (by decide) _ 0 0
  · exact Frame.refl

theorem frame_carDnext (s : State) (c a : Nat) : Frame [.CAR_DNEXT_ADDR, .CAR_STAT_CMD_IGN] s (s.carDnext c a) := by
  unfold State.carDnext State.carIgn
  split
  · exact Frame.refl.wr (by decide) _ c 0
  · exact Frame.refl.raiseBits (by decide) _ c 0

theorem frame_doClr (s : State) : Frame [] s s.doClr := by
  unfold State.doClr
  dsimp only
  split
  · exact (Frame.refl.flashWrite _ _).cmdDone _
  · exact Frame.refl.cmdDone _

theorem frame_tapDrive (s : State) (opc : Nat) : Frame [] s (s.tapDrive opc) := by
  unfold State.tapDrive
  split <;> exact Frame.refl.withTap _

/-! ### What a command leaves alone -/

/-- The command `c` runs at `s`, and changes of the fields only those of `fs`. -/
def Framed (fs : List Fld) (c : Instr) (s : State) : Prop := ∃ t, Runs c s t ∧ Frame fs s t

/-- A register write of the host, where it acts at once. -/
theorem framed_hostRow {c : Instr} {act : State → State} (he : exec c s = hostRow c act s) (hb : barAccess c ≠ none)
    (hh : s.hostHeld = false ∨ barAccess c = none) (hf : Frame fs s (act s)) : Framed fs c s :=
  ⟨act s, runs_hostRow he (hh.resolve_right hb), hf⟩

/-- Any other command. -/
theorem framed_settled {c : Instr} (he : exec c s = settled t) (hf : Frame fs s t) : Framed fs c s := ⟨t, runs_of he, hf⟩

theorem framed_carDnext (s : State) (c a : Nat) (hh : s.hostHeld = false ∨ barAccess (.carDnext c a) = none) :
    Framed [.CAR_DNEXT_ADDR, .CAR_STAT_CMD_IGN] (.carDnext c a) s := by
  refine framed_hostRow rfl nofun hh ?_
  dsimp only [State.carAct]
  split
  · exact Frame.refl
  · exact frame_carDnext s c _

theorem framed_setd (s : State) (c a : Nat) : Framed [.CAR_DNEXT_ADDR, .CAR_STAT_CMD_IGN] (.setd c a) s := by
  refine framed_settled rfl ?_
  split
  · exact Frame.refl
  · exact frame_carDnext s c _

theorem framed_reportSigned (s : State) :
    Framed [.SEC_ATT_STAT_BUSY, .SEC_ATT_STAT_LEN, .SEC_ATT_CNT_COUNT] .reportSigned s := by
  refine framed_settled rfl ?_
  split
  · exact Frame.refl
  · exact ((Frame.refl.lit.wr (by decide) 0 0 0).wr (by decide) 7731 0 0 |>.wr (by decide) _ 0 0).cmdDone 2

theorem framed_snapshot (s : State) : Framed [.TEL_STAT_BANK, .TEL_SEQ_COUNT, .TEL_TS_TIME] .snapshot s := by
  refine framed_settled rfl ?_
  dsimp only
  split
  · exact Frame.refl
  · split <;> exact ((Frame.refl.lit.wr (by decide) _ 0 0).wr (by decide) _ 0 0).wr (by decide) _ 0 0

theorem framed_flashLogWrite (s : State) : Framed [.EVT_FLOG_IDX_NEXT] .flashLogWrite s := by
  refine framed_settled rfl ?_
  split
  · exact Frame.refl
  · split
    · exact Frame.refl
    · exact (Frame.refl.flashRecord _ _ _ _).lit.wr (by decide) _ 0 0

theorem framed_powerLimit (s : State) (b : Bool) : Framed [.PWR_THERM_STAT_LIMIT] (.powerLimit b) s := by
  refine framed_settled rfl ?_
  split
  · exact Frame.refl
  · exact (Frame.refl.wr (by decide) _ 0 0).lit

theorem framed_thermalLevelExit (s : State) : Framed [.PWR_THERM_STAT_LEVEL] .thermalLevelExit s := by
  refine framed_settled rfl ?_
  dsimp only
  split
  · exact Frame.refl.wr (by decide) _ 0 0
  · split
    · exact (Frame.refl.wr (by decide) _ 0 0).lit
    · exact Frame.refl

theorem framed_idcode (s : State) : Framed [] .idcode s := by
  refine framed_settled rfl ?_
  split
  · exact (Frame.refl.withTap _).emit _
  · exact Frame.refl

theorem framed_bypass (s : State) (n : Nat) : Framed [] (.bypass n) s := by
  refine framed_settled rfl ?_
  split
  · exact Frame.refl
  · exact Frame.refl.withTap _

theorem framed_getMeasurements (s : State) (i : Nat) (b : Bool) : Framed [] (.getMeasurements i b) s := by
  refine framed_settled rfl ?_
  repeat' split
  all_goals exact Frame.refl.doeAnswer _ _

end Frames

/-- Settles O56: one frame for each command of the list. -/
theorem commandFrames : Obligations.CommandFrames := by
  unfold Obligations.CommandFrames
  intro c fs i v b s hc hh
  have hf : Framed fs c s := by
    simp only [List.mem_cons, Prod.mk.injEq, List.not_mem_nil, or_false] at hc
    rcases hc with ⟨rfl, rfl⟩ | ⟨rfl, rfl⟩ | ⟨rfl, rfl⟩ | ⟨rfl, rfl⟩ | ⟨rfl, rfl⟩ | ⟨rfl, rfl⟩ | ⟨rfl, rfl⟩ | ⟨rfl, rfl⟩ |
      ⟨rfl, rfl⟩ | ⟨rfl, rfl⟩ | ⟨rfl, rfl⟩ | ⟨rfl, rfl⟩ | ⟨rfl, rfl⟩ | ⟨rfl, rfl⟩ | ⟨rfl, rfl⟩ | ⟨rfl, rfl⟩ | ⟨rfl, rfl⟩ |
      ⟨rfl, rfl⟩ | ⟨rfl, rfl⟩ | ⟨rfl, rfl⟩ | ⟨rfl, rfl⟩ | ⟨rfl, rfl⟩ | ⟨rfl, rfl⟩ | ⟨rfl, rfl⟩ | ⟨rfl, rfl⟩ | ⟨rfl, rfl⟩ |
      ⟨rfl, rfl⟩ | ⟨rfl, rfl⟩ | ⟨rfl, rfl⟩ | ⟨rfl, rfl⟩ | ⟨rfl, rfl⟩
    · exact framed_hostRow rfl nofun hh (frame_doBuild s)
    · exact framed_hostRow rfl nofun hh (Frame.refl.wr (by decide) 1 0 0)
    · exact framed_hostRow rfl nofun hh (frame_setSusp s _ false)
    · exact framed_hostRow rfl nofun hh (frame_doGen s)
    · exact framed_hostRow rfl nofun hh (frame_doBegin s)
    · exact framed_hostRow rfl nofun hh (frame_doChunk s)
    · exact framed_hostRow rfl nofun hh (frame_doFinish s)
    · exact framed_hostRow rfl nofun hh (frame_doFwCancel s)
    · exact framed_hostRow rfl nofun hh (frame_doRaise s)
    · exact framed_reportSigned s
    · exact framed_hostRow rfl nofun hh (frame_doCalBegin s)
    · exact framed_hostRow rfl nofun hh (frame_doCalChunk s)
    · exact framed_hostRow rfl nofun hh (frame_doCalCommit s)
    · exact framed_hostRow rfl nofun hh (frame_doRegionRead s i)
    · exact framed_hostRow rfl nofun hh (frame_telSel s i v)
    · exact framed_snapshot s
    · exact framed_flashLogWrite s
    · exact framed_powerLimit s b
    · exact framed_thermalLevelExit s
    · exact framed_settled rfl (frame_i3cAssign s v)
    · exact framed_settled rfl (frame_i3cAssign s v)
    · exact framed_carDnext s i v hh
    · exact framed_setd s i v
    · exact framed_settled rfl (frame_tapDrive s 0x00)
    · exact framed_idcode s
    · exact framed_settled rfl (Frame.refl.withTap _)
    · exact framed_bypass s v
    · exact framed_settled rfl (Frame.refl.withTap _)
    · exact framed_hostRow rfl nofun hh (frame_doClr s)
    · exact framed_getMeasurements s i b
    · exact framed_settled rfl Frame.refl
  obtain ⟨t, hr, h⟩ := hf
  exact ⟨t, hr, h.rd, fun a => by rw [h.mem], h.psn, h.extents, h.ports, h.agents, h.sw, h.home, h.tier, h.coh, h.rgf,
    h.chans, h.rcv, h.power, h.clk⟩

/-! ### Accesses of BAR0 in the host's order (R89) -/

/-- Every command that is a BAR0 access takes its turn in the host's order. -/
theorem exec_barAccess {c : Instr} {b : Bool} (h : barAccess c = some b) (s : State) :
    ∃ act, exec c s = settled (s.inOrder b c act) := by
  cases c
  all_goals cases h -- the commands that are no BAR0 access drop out
  all_goals exact ⟨_, rfl⟩

/-- Behind a posted write that is not performed, it only joins those that wait. -/
theorem runs_fallBehind {c : Instr} {b : Bool} {s : State} (hb : barAccess c = some b) (hh : s.hostHeld = true) :
    Runs c s (s.fallBehind b c) := by
  obtain ⟨act, he⟩ := exec_barAccess hb s
  exact runs_of (by simp [he, State.inOrder, hh, settled])

theorem runs_registerWrite {s t : State} {o n v : Nat} (hh : s.hostHeld = false) (h : s.hostWrite o n v = t) :
    Runs (.registerWrite o n v) s t := by
  subst h
  exact runs_hostRow (act := fun s => s.hostWrite o n v) rfl hh

theorem runs_registerRead {s t : State} {o n : Nat} (hh : s.hostHeld = false) (h : s.hostRead o n = t) :
    Runs (.registerRead o n) s t := by
  subst h
  exact runs_inOrder (act := fun s => s.hostRead o n) rfl hh

/-! ### Which accesses are answered (R444, R471) -/

section Served
variable {s : State} {o n : Nat} (v : Nat)

theorem hostWrite_off (hs : s.hostServes = false) : s.hostWrite o n v = s := by simp [State.hostWrite, hs]

theorem hostRead_off (hs : s.hostServes = false) : s.hostRead o n = s := by simp [State.hostRead, hs]

theorem hostWrite_refused (hs : s.hostServes = true) (ha : accessOk o n = false) : s.hostWrite o n v = s.emit (.aer 2) := by
  simp [State.hostWrite, hs, ha]

theorem hostRead_refused (hs : s.hostServes = true) (ha : accessOk o n = false) :
    s.hostRead o n = (s.emit (.unsupported o)).emit (.aer 2) := by
  simp [State.hostRead, hs, ha]

theorem hostWrite_unserved (hs : s.hostServes = true) (ha : accessOk o n = true) (hb : s.blockServed o = false) :
    s.hostWrite o n v = s := by
  simp [State.hostWrite, hs, ha, hb]

theorem hostRead_unserved (hs : s.hostServes = true) (ha : accessOk o n = true) (hb : s.blockServed o = false) :
    s.hostRead o n = s.emit (.regData o n 0) := by
  simp [State.hostRead, hs, ha, hb]

theorem hostWrite_served (hs : s.hostServes = true) (ha : accessOk o n = true) (hb : s.blockServed o = true) :
    s.hostWrite o n v = if n = 8 then s.write8 o v else s.write4 o v := by
  simp [State.hostWrite, hs, ha, hb]

theorem hostRead_served (hs : s.hostServes = true) (ha : accessOk o n = true) (hb : s.blockServed o = true) :
    s.hostRead o n = (s.readReg o n).2.emit (.regData o n (s.readReg o n).1) := by
  simp [State.hostRead, hs, ha, hb]

end Served

/-- From the end of step 8 on every block is served. -/
theorem blockServed_of_step8 {s : State} (h : s.power.stepsEnded.contains 8 = true) (o : Nat) : s.blockServed o = true := by
  unfold State.blockServed
  rw [h, Bool.or_true]

/-! ### Reads (R471) -/

/-- Clearing what a read clears touches registers alone. -/
@[simp] theorem clearRc_host (s : State) (o : Nat) : (s.clearRc o).host = s.host := by
  unfold State.clearRc
  induction slotsAt o generalizing s with
  | nil => rfl
  | cons x l ih =>
    rw [List.foldl_cons, ih]
    split <;> simp

/-- A read of a 64-bit register's low half keeps its high half. -/
theorem read4_low {s : State} {o : Nat} (hw : s.window o 4 = none) (hl : wide o = true) :
    (s.read4 o).1 = s.regVal o % 2 ^ 32 ∧ (s.read4 o).2.latched o = some (s.regVal o / 2 ^ 32) := by
  simp [State.read4, hw, hl, State.latched]

/-- A read of the high half gives what was kept. -/
theorem read4_high {s : State} {o v : Nat} (hw : s.window (o + 4) 4 = none) (hl : wide o = true) (hh : wide (o + 4) = false)
    (hk : s.latched o = some v) : (s.read4 (o + 4)).1 = v := by
  simp [State.read4, hw, hl, hh, hk]

/-! ### The byte windows -/

/-- Does an offset lie in a byte window of BAR0. -/
def windowed (o : Nat) : Bool :=
  within o 0x8000 0x1000 || within o 0x9000 0x20 || within o 0x18000 0x8000 || within o 0x38000 0x8000 || within o 0x32000 0x1E34
    || within o 0x58220 32 || within o 0x90000 0x40000 || within o 0x150000 bundleLen || within o 0x9003040 64
    || within o 0x9004000 0x1000 || (within o 0x8000000 0x4000 && decide (0x80 ≤ o % 0x100))

/-- Outside the byte windows an access is one of a register. -/
theorem window_none {o : Nat} (h : windowed o = false) (s : State) (n : Nat) : s.window o n = none := by
  simp only [windowed, Bool.or_eq_false_iff] at h
  obtain ⟨⟨⟨⟨⟨⟨⟨⟨⟨⟨h1, h2⟩, h3⟩, h4⟩, h5⟩, h6⟩, h7⟩, h8⟩, h9⟩, h10⟩, h11⟩ := h
  simp only [State.window, h1, h2, h3, h4, h5, h6, h7, h8, h9, h10, h11, or_self, if_false, Bool.false_eq_true]

/-! ### Registers at an offset -/

/-- A field is found at its register's offset. -/
theorem mem_slotsAt {f : Fld} {i j o : Nat} (hf : f ∈ Fld.all) (h : (i, j) ∈ f.instances o) : ⟨f, i, j⟩ ∈ slotsAt o :=
  List.mem_flatMap.2 ⟨f, hf, List.mem_map.2 ⟨(i, j), h, rfl⟩⟩

/-- CAR_DNEXT of every channel is a register of 64 bits. -/
theorem wide_carDnext {c : Nat} (hc : c < 64) : wide (0x8000000 + 256 * c + 0x10) = true := by
  have hinfo : Fld.CAR_DNEXT_ADDR.info = ⟨0x8000010, 0x100, 64, 0x0, 1, 47, 0, 0, .rw, 0⟩ := rfl
  have hi : (c, 0) ∈ Fld.CAR_DNEXT_ADDR.instances (0x8000000 + 256 * c + 0x10) := by
    have h1 : ¬ 0x8000000 + 256 * c + 0x10 < 0x8000010 := by omega
    have h2 : 0x8000000 + 256 * c + 0x10 - 0x8000010 = 256 * c := by omega
    simp [Fld.instances, hinfo, h1, h2, hc]
  exact List.any_eq_true.2 ⟨_, mem_slotsAt (by decide +kernel) hi, by simp [hinfo]⟩

/-! ### Writes (R11) -/

theorem write4_register {s : State} {o : Nat} (hw : windowed o = false) (hl : wide (o - 4) = false) (v : Nat) :
    s.write4 o v = s.writeReg o (v % 2 ^ 32) 0xFFFFFFFF := by
  simp [State.write4, window_none hw, hl]

theorem write8_register {s : State} {o : Nat} (hw : windowed o = false) (hl : wide o = true) (v : Nat) :
    s.write8 o v = s.writeReg o (v % 2 ^ 64) (2 ^ 64 - 1) := by
  simp [State.write8, window_none hw, hl]

/-- An 8-byte write of two 32-bit registers is two writes, the lower first. -/
theorem write8_split {s : State} {o : Nat} (hw : s.window o 8 = none) (hl : wide o = false) (v : Nat) :
    s.write8 o v = (s.write4 o v).write4 (o + 4) (v / 2 ^ 32) := by
  simp [State.write8, hw, hl]

/-- A 4-byte access of a command register is accepted, is of no byte window, and of no half of a 64-bit register. -/
theorem cmdOffsets_plain : ∀ o ∈ cmdOffsets, accessOk o 4 = true ∧ windowed o = false ∧ wide (o - 4) = false := by
  decide +kernel

/-- A 4-byte write of a served command register reaches the register. -/
theorem hostWrite_command {s : State} {o : Nat} (ho : o ∈ cmdOffsets) (hs : s.hostServes = true) (hb : s.blockServed o = true)
    (v : Nat) : s.hostWrite o 4 v = s.writeReg o (v % 2 ^ 32) 0xFFFFFFFF := by
  obtain ⟨ha, hw, hl⟩ := cmdOffsets_plain o ho
  rw [hostWrite_served v hs ha hb, if_neg (by decide), write4_register hw hl]

/-- A write of a command register that is not BUSY acts as its command (R478). -/
theorem writeReg_command {s : State} {o v : Nat} (ho : o ∈ cmdOffsets) (hr : s.romServes o = true) (hc : s.cmdHeld o v = false)
    (m : Nat) : s.writeReg o v m = (s.putFields o v m).cmdAct o v := by
  simp [State.writeReg, ho, hr, hc]

/-- A command that the boot ROM does not serve is ignored (R440, R441). -/
theorem writeReg_command_unserved {s : State} {o : Nat} (ho : o ∈ cmdOffsets) (hr : s.romServes o = false) (v m : Nat) :
    s.writeReg o v m = s := by
  simp [State.writeReg, ho, hr]

/-- A write of every bit of a field leaves the written bits, whatever was there. -/
theorem merge_all (x : Slot) (old v m : Nat) (hm : bits m x.lsb x.f.width = 2 ^ x.f.width - 1) :
    x.merge old v m % 2 ^ x.f.width = bits v x.lsb x.f.width := by
  have hv : bits v x.lsb x.f.width % 2 ^ x.f.width = bits v x.lsb x.f.width := Nat.mod_mod _ _
  simp only [Slot.merge, hm, Nat.and_two_pow_sub_one_eq_mod, Nat.or_mod_two_pow, Nat.xor_mod_two_pow, Nat.mod_mod, hv,
    Nat.xor_self, Nat.zero_or]

/-- A write of all of EXT_ARG1 is one of its LEN. -/
theorem putFields_extLen (s : State) (v : Nat) : ∃ w, s.putFields 0x4000024 v 0xFFFFFFFF = s.wr .POOL_EXT_ARG1_LEN w ∧
    w % 2 ^ 26 = v % 2 ^ 26 := by
  have hslots : slotsAt 0x4000024 = [⟨.POOL_EXT_ARG1_LEN, 0, 0⟩] := by decide +kernel
  have hacc : Fld.POOL_EXT_ARG1_LEN.info.acc = .rw := rfl
  have hmask : bits 0xFFFFFFFF (Slot.mk .POOL_EXT_ARG1_LEN 0 0).lsb Fld.POOL_EXT_ARG1_LEN.width = 2 ^ 26 - 1 := by decide
  refine ⟨_, ?_, merge_all ⟨.POOL_EXT_ARG1_LEN, 0, 0⟩ (s.rd .POOL_EXT_ARG1_LEN) v 0xFFFFFFFF hmask⟩
  simp [State.putFields, State.newVals, hslots, hacc, hmask, wholeOk, State.fieldOk, State.writableNow, fieldMask]

/-- A write of a channel's CAR_DNEXT register acts as its command (R336). -/
theorem writeReg_carDnext {c : Nat} (hc : c < 64) (s : State) (v m : Nat) :
    s.writeReg (0x8000000 + 256 * c + 0x10) v m =
      s.carDnext c (((s.rd .CAR_DNEXT_ADDR c ^^^ (s.rd .CAR_DNEXT_ADDR c &&& m)) ||| (v &&& m)) % 2 ^ 48) := by
  have hcmd : cmdOffsets.contains (0x8000000 + 256 * c + 0x10) = false := by simp [cmdOffsets]; omega
  have hout : ∀ lo n, lo + n ≤ 0x8000000 → within (0x8000000 + 256 * c + 0x10) lo n = false := by
    intro lo n h; simp only [within, decide_eq_false_iff_not]; omega
  have hin : within (0x8000000 + 256 * c + 0x10) 0x8000000 0x4000 = true := by
    simp only [within, decide_eq_true_eq]; omega
  have h1 : 0x8000000 + 256 * c + 0x10 ≠ 0xA000000 := by omega
  have h2 : 0x8000000 + 256 * c + 0x10 ≠ 0x4000018 := by omega
  have hmod : (0x8000000 + 256 * c + 0x10) % 0x100 = 0x10 := by omega
  have hdiv : (0x8000000 + 256 * c + 0x10 - 0x8000000) / 0x100 = c := by omega
  simp only [State.writeReg, hcmd, hout 0x40400 0x400 (by omega), hout 0x1000000 0x140000 (by omega), hin, h1, h2, hmod, hdiv,
    if_false, Bool.false_and, Bool.true_and, Bool.false_eq_true]
  rfl

/-! ### The flash log (R491) -/

/-- A byte of a table that a run of bytes is put into from key `a` on. -/
theorem tget_foldl_tset (bs : List Byte) (a k : Nat) (f : List Host.Cell) (n : Nat) :
    tget 0xFF ((bs.zipIdx n).foldl (fun f (b, i) => tset 0xFF f (a + i) b) f) k =
      if h : a + n ≤ k ∧ k < a + n + bs.length then bs[k - (a + n)] else tget 0xFF f k := by
  induction bs generalizing n f with
  | nil => simp
  | cons b bs ih =>
    rw [List.zipIdx_cons, List.foldl_cons, ih]
    by_cases hk : k = a + n
    · subst hk; simp
    · by_cases hr : a + n ≤ k ∧ k < a + n + (bs.length + 1)
      · have h1 : a + (n + 1) ≤ k ∧ k < a + (n + 1) + bs.length := by omega
        have h2 : k - (a + n) = k - (a + (n + 1)) + 1 := by omega
        simp [h1, hr, h2]
      · have h1 : ¬ (a + (n + 1) ≤ k ∧ k < a + (n + 1) + bs.length) := by omega
        simp [h1, hr, tget_tset_ne _ _ _ _ (Ne.symm hk)]

/-- A read of the flash gives the bytes just programmed there. -/
@[simp] theorem flashRead_flashWrite (s : State) (a : Nat) (bs : List Byte) :
    (s.flashWrite a bs).flashRead a bs.length = bs := by
  refine List.ext_getElem (by simp [State.flashRead]) fun i hi hb => ?_
  have h := tget_foldl_tset bs a (a + i) s.boot.flash 0
  rw [dif_pos (by omega)] at h
  simpa [State.flashRead, State.flashByte, State.flashWrite] using h

theorem slice_all (bs : List Byte) : slice bs 0 bs.length = bs := by simp [slice]

theorem flashRecord_tel (s : State) (base size i : Nat) (r : List Byte) : (s.flashRecord base size i r).tel = s.tel := by
  unfold State.flashRecord
  dsimp only
  split <;> simp

theorem flashRecord_pool (s : State) (base size i : Nat) (r : List Byte) : (s.flashRecord base size i r).pool = s.pool := by
  unfold State.flashRecord
  dsimp only
  split <;> rfl

/-- A read of a slot of a ring gives the record just written into it. -/
theorem flashRead_flashRecord (s : State) (base i : Nat) (r : List Byte) :
    (s.flashRecord base r.length i r).flashRead (base + r.length * i) r.length = r := by
  simp only [State.flashRecord, slice_all]
  exact flashRead_flashWrite _ _ _

/-! ### BAR0, telemetry and the flash log: the commands' effects -/

/-- An event that raises a one-bit field leaves it 1. -/
theorem rd_raiseBits_flag (s : State) {f : Fld} (hf : f.width = 1) (i j : Nat) : (s.raiseBits f 1 i j).rd f i j = 1 := by
  rw [rd_raiseBits, rd_wr_same, hf]
  simp

/-- A posted write of EXT_ARG1 sets LEN and no other argument (R11, R176). -/
theorem registerWrite_extLen {s : State} (hs : s.hostServes = true) (hh : s.hostHeld = false)
    (h8 : s.power.stepsEnded.contains 8 = true) (v : Nat) :
    ∃ t, Runs (.registerWrite 0x4000024 4 v) s t ∧ t.rd .POOL_EXT_ARG1_LEN = v % 2 ^ 26 ∧
      t.rd .POOL_EXT_ARG0_BASE = s.rd .POOL_EXT_ARG0_BASE ∧ t.pool = s.pool := by
  refine ⟨_, runs_registerWrite hh rfl, ?_⟩
  have hplain : accessOk 0x4000024 4 = true ∧ windowed 0x4000024 = false ∧ wide (0x4000024 - 4) = false := by decide +kernel
  obtain ⟨ha, hw, hl⟩ := hplain
  have hput : s.writeReg 0x4000024 (v % 2 ^ 32) 0xFFFFFFFF = s.putFields 0x4000024 (v % 2 ^ 32) 0xFFFFFFFF := rfl
  obtain ⟨w, he, hv⟩ := putFields_extLen s (v % 2 ^ 32)
  rw [hostWrite_served v hs ha (blockServed_of_step8 h8 _), if_neg (by decide), write4_register hw hl, hput, he]
  refine ⟨?_, rd_wr_fld _ _ _ _ _ _ (by decide), rfl⟩
  have hwidth : Fld.POOL_EXT_ARG1_LEN.width = 26 := rfl
  rw [rd_wr_same, hwidth]
  omega

/-- A posted write of CAR_DNEXT while the channel runs is ignored and marked (R336). -/
theorem registerWrite_carDnext {s : State} {c : Nat} (hc : c < 64) (hs : s.hostServes = true) (hh : s.hostHeld = false)
    (h8 : s.power.stepsEnded.contains 8 = true) (hr : s.carState c = 1) (v : Nat) :
    ∃ t, Runs (.registerWrite (0x8000000 + 256 * c + 0x10) 8 v) s t ∧ t.rd .CAR_STAT_CMD_IGN c = 1 ∧
      t.rd .CAR_DNEXT_ADDR c = s.rd .CAR_DNEXT_ADDR c ∧ t.pool = s.pool := by
  refine ⟨_, runs_registerWrite hh rfl, ?_⟩
  have ha : accessOk (0x8000000 + 256 * c + 0x10) 8 = true := by simp [accessOk]; omega
  have hw : windowed (0x8000000 + 256 * c + 0x10) = false := by simp [windowed, within, bundleLen]; omega
  rw [hostWrite_served v hs ha (blockServed_of_step8 h8 _), if_pos rfl, write8_register hw (wide_carDnext hc),
    writeReg_carDnext hc, State.carDnext, if_neg (by simp [hr, carIDLE, carHALTED])]
  exact ⟨rd_raiseBits_flag s rfl c 0, by simp [State.carIgn], rfl⟩

/-- TEL_SEL of a register that is read-only or counts selects it (R486). -/
theorem telSel_selects {s : State} {n v : Nat} (hh : s.hostHeld = false) (hn : n < 256)
    (hv : selectable (v % 2 ^ 28) = true) :
    ∃ t, Runs (.telSel n v) s t ∧ t.rd .TEL_SEL_OFFSET n = v % 2 ^ 28 ∧ t.rd .TEL_SEL_VALID n = bits v 31 1 ∧
      (∀ k, k < 256 → k ≠ n → t.rd .TEL_SEL_OFFSET k = s.rd .TEL_SEL_OFFSET k) ∧ t.tel = s.tel ∧ t.pool = s.pool := by
  refine ⟨_, runs_hostRow (act := fun s => s.telSel n v) rfl hh, ?_⟩
  have he : s.telSel n v = (s.wr .TEL_SEL_OFFSET v n).wr .TEL_SEL_VALID (bits v 31 1) n := by
    rw [State.telSel, if_neg (by omega), if_pos hv]
  have hw : Fld.TEL_SEL_OFFSET.width = 28 := rfl
  have hw' : Fld.TEL_SEL_VALID.width = 1 := rfl
  simp only [he]
  refine ⟨?_, ?_, fun k _ hk => ?_, rfl, rfl⟩
  · rw [rd_wr_fld _ _ _ _ _ _ (by decide), rd_wr_same, hw]
  · rw [rd_wr_same, hw', bits, Nat.mod_mod]
  · rw [rd_wr_fld _ _ _ _ _ _ (by decide), rd_wr_ne _ _ (fun h => hk h.2.1.symm)]

/-- TEL_SEL of any other register is refused and marked (R486). -/
theorem telSel_refuses {s : State} {n v : Nat} (hh : s.hostHeld = false) (hn : n < 256)
    (hv : selectable (v % 2 ^ 28) = false) :
    ∃ t, Runs (.telSel n v) s t ∧ t.rd .TEL_STAT_SEL_ERR = 1 ∧ t.rd .TEL_SEL_OFFSET n = s.rd .TEL_SEL_OFFSET n := by
  refine ⟨_, runs_hostRow (act := fun s => s.telSel n v) rfl hh, ?_⟩
  have he : s.telSel n v = s.raiseBits .TEL_STAT_SEL_ERR 1 := by
    rw [State.telSel, if_neg (by omega), if_neg (ne_true_of_eq_false hv)]
  simp only [he]
  exact ⟨rd_raiseBits_flag s rfl 0 0, by simp⟩


/-- The inactive bank filled with the copies (R487). -/
def bankFilled (s : State) : State :=
  if s.rd .TEL_STAT_BANK = 0 then { s with tel := { s.tel with snapB := s.snapCopy } }
  else { s with tel := { s.tel with snapA := s.snapCopy } }

theorem bankFilled_regs (s : State) : (bankFilled s).regs = s.regs := by unfold bankFilled; split <;> rfl
theorem bankFilled_clk (s : State) : (bankFilled s).clk = s.clk := by unfold bankFilled; split <;> rfl
theorem bankFilled_pool (s : State) : (bankFilled s).pool = s.pool := by unfold bankFilled; split <;> rfl

theorem bankFilled_now (s : State) : (bankFilled s).now = s.now := by
  unfold State.now
  rw [bankFilled_clk, rd_congr (bankFilled_regs s)]

theorem bankFilled_tel (s : State) :
    if s.rd .TEL_STAT_BANK = 0 then (bankFilled s).tel.snapB = s.snapCopy ∧ (bankFilled s).tel.snapA = s.tel.snapA
    else (bankFilled s).tel.snapA = s.snapCopy ∧ (bankFilled s).tel.snapB = s.tel.snapB := by
  by_cases h : s.rd .TEL_STAT_BANK = 0 <;> simp [bankFilled, h]

/-- A snapshot that is due fills the inactive bank, exchanges the banks, counts and keeps its time. -/
theorem exec_snapshot_due {s : State} (hd : s.snapDue = true) : exec .snapshot s =
    settled ((((bankFilled s).wr .TEL_STAT_BANK (1 - s.rd .TEL_STAT_BANK)).advance .TEL_SEQ_COUNT).wr .TEL_TS_TIME
      (bankFilled s).now) := by
  have he : exec .snapshot s = execSnapshot s := rfl
  rw [he, execSnapshot, hd]
  rfl

theorem exec_snapshot_idle {s : State} (hd : s.snapDue = false) : exec .snapshot s = settled s := by
  have he : exec .snapshot s = execSnapshot s := rfl
  rw [he, execSnapshot, hd]
  rfl

theorem snapshot_due {s : State} (hd : s.snapDue = true) (hb : s.rd .TEL_STAT_BANK ≤ 1) :
    ∃ t, Runs .snapshot s t ∧ t.rd .TEL_STAT_BANK = 1 - s.rd .TEL_STAT_BANK ∧
      (if s.rd .TEL_STAT_BANK = 0 then t.tel.snapB = s.snapCopy ∧ t.tel.snapA = s.tel.snapA
       else t.tel.snapA = s.snapCopy ∧ t.tel.snapB = s.tel.snapB) ∧
      t.rd .TEL_SEQ_COUNT = (s.rd .TEL_SEQ_COUNT + 1) % 2 ^ 32 ∧ t.rd .TEL_TS_TIME = s.now % 2 ^ 64 ∧ t.pool = s.pool := by
  have hw1 : Fld.TEL_STAT_BANK.width = 1 := rfl
  have hw2 : Fld.TEL_SEQ_COUNT.width = 32 := rfl
  have hw3 : Fld.TEL_TS_TIME.width = 64 := rfl
  refine ⟨_, runs_of (exec_snapshot_due hd), ?_, ?_, ?_, ?_, ?_⟩
  · rw [rd_wr_fld _ _ _ _ _ _ (by decide), State.advance, rd_wr_fld _ _ _ _ _ _ (by decide), rd_wr_same, hw1]
    omega
  · rw [wr_tel, advance_tel, wr_tel]
    exact bankFilled_tel s
  · rw [rd_wr_fld _ _ _ _ _ _ (by decide), State.advance, rd_wr_same, hw2, rd_wr_fld _ _ _ _ _ _ (by decide),
      rd_congr (bankFilled_regs s)]
  · rw [rd_wr_same, hw3, bankFilled_now]
  · rw [wr_pool, advance_pool, wr_pool, bankFilled_pool]

theorem exec_flashLogWrite_queued {s : State} {r : List Byte} {q : List (List Byte)} (hq : s.tel.flashq = r :: q)
    (hi : s.power.inReset = false) (ho : s.power.offState = false) : exec .flashLogWrite s =
    settled (({ s.flashRecord flEvents 64 (s.tel.flogNext % 16384) r with
      tel := { s.tel with flashq := q, flogNext := s.tel.flogNext % 16384 + 1 } } : State).wr .EVT_FLOG_IDX_NEXT
        (leAt r 40 4 + 1)) := by
  have he : exec .flashLogWrite s = execFlashLogWrite s := rfl
  simp [he, execFlashLogWrite, hq, hi, ho, flashRecord_tel]

theorem exec_flashLogWrite_empty {s : State} (hq : s.tel.flashq = []) : exec .flashLogWrite s = settled s := by
  have he : exec .flashLogWrite s = execFlashLogWrite s := rfl
  simp [he, execFlashLogWrite, hq]

/-- The oldest queued record is written to the next slot of the log (R491). -/
theorem flashLogWrite_queued {s : State} {r : List Byte} {q : List (List Byte)} (hq : s.tel.flashq = r :: q)
    (hr : r.length = 64) (hi : s.power.inReset = false) (ho : s.power.offState = false) :
    ∃ t, Runs .flashLogWrite s t ∧ t.tel.flashq = q ∧ t.flashRead (flEvents + 64 * (s.tel.flogNext % 16384)) 64 = r ∧
      t.tel.flogNext = s.tel.flogNext % 16384 + 1 ∧ t.rd .EVT_FLOG_IDX_NEXT = (leAt r 40 4 + 1) % 2 ^ 32 ∧
      t.pool = s.pool := by
  have h := flashRead_flashRecord s flEvents (s.tel.flogNext % 16384) r
  rw [hr] at h
  refine ⟨_, runs_of (exec_flashLogWrite_queued hq hi ho), rfl, h, rfl, ?_, ?_⟩
  · exact rd_wr_same _ _ _ _ _
  · exact flashRecord_pool s flEvents 64 _ r

/-- Settles O47: BAR0's accesses clause by clause, then the telemetry and the flash log. -/
theorem registersAndTelemetry : Obligations.RegistersAndTelemetry := by
  unfold Obligations.RegistersAndTelemetry
  refine ⟨⟨?_, ?_, ?_, ?_, ?_, ?_, ?_, ?_, ?_, ?_, ?_⟩, ?_, ?_, ?_, ?_, ?_, ?_⟩
  · intro c b s hb hh
    exact ⟨_, runs_fallBehind hb hh, rfl, rfl, rfl, rfl, rfl, rfl, rfl, rfl, rfl, rfl, rfl, rfl, rfl, rfl, rfl⟩
  · intro c o n v s hc hs hh
    simp only [List.mem_cons, List.not_mem_nil, or_false] at hc
    rcases hc with rfl | rfl
    · exact runs_registerWrite hh (hostWrite_off v hs)
    · exact runs_registerRead hh (hostRead_off hs)
  · intro o n v s hs hh ha
    exact ⟨runs_registerWrite hh (hostWrite_refused v hs ha), runs_registerRead hh (hostRead_refused hs ha)⟩
  · intro o n v s hs hh ha hb
    exact ⟨runs_registerWrite hh (hostWrite_unserved v hs ha hb), runs_registerRead hh (hostRead_unserved hs ha hb)⟩
  · intro o n s hs hh ha hb
    exact runs_registerRead hh (hostRead_served hs ha hb)
  · intro o v s hs hh ha hb hw hl
    exact runs_registerWrite hh (by rw [hostWrite_served v hs ha hb, if_pos rfl, write8_split hw hl])
  · intro o v s ho hs hh hb hr hc
    exact runs_registerWrite hh (by rw [hostWrite_command ho hs hb, writeReg_command ho hr hc])
  · intro o v s ho hs hh hb hr
    exact runs_registerWrite hh (by rw [hostWrite_command ho hs hb, writeReg_command_unserved ho hr])
  · intro o s hw hw' hl hh
    obtain ⟨hlow, hkept⟩ := read4_low hw hl
    exact ⟨hlow, read4_high hw' hl hh hkept⟩
  · exact fun v s hs hh h8 => registerWrite_extLen hs hh h8 v
  · exact fun c v s hc hs hh h8 hr => registerWrite_carDnext hc hs hh h8 hr v
  · exact fun n v s => telSel_selects
  · exact fun n v s => telSel_refuses
  · exact fun s => snapshot_due
  · exact fun s hd => runs_of (exec_snapshot_idle hd)
  · exact fun s r q => flashLogWrite_queued
  · exact fun s hq => runs_of (exec_flashLogWrite_empty hq)

end Sys2Proof.Proofs
end

section
/-! SUPPORT. What a port that leaves the link changes of the recovery unit: only what errors in stored data leave there. One
lemma for each operation it comes to, in the order of the model's files. -/

namespace Sys2Proof.Machine

/-- The recovery unit's state but for what an error in stored data leaves there: the errors to report, the rows to check and the
epochs of their corrected lines. -/
def State.rcvRest (s : State) : Recov := { s.rcv with raised := [], rows := [], rowErr := [] }

end Sys2Proof.Machine

namespace Sys2Proof.Proofs
open Sys2Proof Sys2Proof.Machine

/-! ### Folds, choices and records -/

/-- What each step of a fold keeps, the fold keeps. -/
theorem foldl_keeps {α β σ : Type} (p : σ → β) {f : σ → α → σ} (hf : ∀ s a, p (f s a) = p s) (l : List α) (s : σ) :
    p (l.foldl f s) = p s :=
  List.foldlRecOn (motive := fun t => p t = p s) l f rfl fun t ht a _ => (hf t a).trans ht

@[simp] theorem foldl_rcvRest {α : Type} {f : State → α → State} (hf : ∀ s a, (f s a).rcvRest = s.rcvRest) (l : List α)
    (s : State) : (l.foldl f s).rcvRest = s.rcvRest := foldl_keeps State.rcvRest hf l s

@[simp] theorem foldl_snd_rcvRest {α β : Type} {f : β × State → α → β × State} (hf : ∀ s a, (f s a).2.rcvRest = s.2.rcvRest)
    (l : List α) (s : β × State) : (l.foldl f s).2.rcvRest = s.2.rcvRest :=
  foldl_keeps (fun s : β × State => s.2.rcvRest) hf l s

@[simp] theorem ite_rcvRest {c : Prop} [Decidable c] (a b : State) :
    (if c then a else b).rcvRest = if c then a.rcvRest else b.rcvRest := apply_ite _ _ _ _

@[simp] theorem ite_snd_rcvRest {β : Type} {c : Prop} [Decidable c] (a b : β × State) :
    (if c then a else b).2.rcvRest = if c then a.2.rcvRest else b.2.rcvRest := apply_ite (fun x : β × State => x.2.rcvRest) _ _ _

@[simp] theorem lit_rcvRest (s : State) {pending regs ports agents sw home pool tier coh rgf chans scn boot power clk busy host tel
    tap out nextId freeCtr} :
    State.rcvRest ⟨pending, regs, ports, agents, sw, home, pool, tier, coh, rgf, chans, scn, s.rcv, boot, power, clk, busy, host,
      tel, tap, out, nextId, freeCtr⟩ = s.rcvRest := rfl

section RcvRest
variable (s : State)

-- What holds by unfolding is proved `by rfl` here: simp cannot use a lemma it knows to be definitional for the hypothesis of
-- `foldl_rcvRest`.

/-! ### Registers, interrupts, events and memory -/

@[simp] theorem wr_rcvRest (f v i j) : (s.wr f v i j).rcvRest = s.rcvRest := by rfl
@[simp] theorem bump_rcvRest (f i j n) : (s.bump f i j n).rcvRest = s.rcvRest := by rfl
@[simp] theorem advance_rcvRest (f i j n) : (s.advance f i j n).rcvRest = s.rcvRest := by rfl
@[simp] theorem lower_rcvRest (f i j n) : (s.lower f i j n).rcvRest = s.rcvRest := by rfl
@[simp] theorem free_rcvRest : s.free.2.rcvRest = s.rcvRest := by rfl
@[simp] theorem emit_rcvRest (w) : (s.emit w).rcvRest = s.rcvRest := by rfl
@[simp] theorem raiseBits_rcvRest (f v i j) : (s.raiseBits f v i j).rcvRest = s.rcvRest := by rfl
@[simp] theorem sendVector_rcvRest (v) : (s.sendVector v).rcvRest = s.rcvRest := by simp [State.sendVector]
@[simp] theorem irq_rcvRest (c) : (s.irq c).rcvRest = s.rcvRest := by simp [State.irq]
@[simp] theorem queueFlash_rcvRest (r old moved) : (s.queueFlash r old moved).rcvRest = s.rcvRest := by simp [State.queueFlash]

@[simp] theorem logEvent_rcvRest (time ord sev mk) : (s.logEvent time ord sev mk).rcvRest = s.rcvRest := by
  simp [State.logEvent]

@[simp] theorem event_rcvRest (e unit arg0 arg1) : (s.event e unit arg0 arg1).rcvRest = s.rcvRest := by simp [State.event]
@[simp] theorem withMem_rcvRest (m) : (s.withMem m).rcvRest = s.rcvRest := by rfl
@[simp] theorem updPort_rcvRest (p f) : (s.updPort p f).rcvRest = s.rcvRest := by rfl
@[simp] theorem updAgent_rcvRest (id f) : (s.updAgent id f).rcvRest = s.rcvRest := by rfl

/-! ### Flash and the health history -/

@[simp] theorem flashWrite_rcvRest (a bs) : (s.flashWrite a bs).rcvRest = s.rcvRest := by rfl
@[simp] theorem flashErase_rcvRest (a n) : (s.flashErase a n).rcvRest = s.rcvRest := by rfl

@[simp] theorem flashRecord_rcvRest (base size i bs) : (s.flashRecord base size i bs).rcvRest = s.rcvRest := by
  simp [State.flashRecord]

@[simp] theorem healthLog_rcvRest : s.healthLog.rcvRest = s.rcvRest := by simp [State.healthLog]
@[simp] theorem setDegraded_rcvRest (b v) : (s.setDegraded b v).rcvRest = s.rcvRest := by simp [State.setDegraded]

/-! ### Lines of the pool -/

@[simp] theorem setExtent_rcvRest (i x) : (s.setExtent i x).rcvRest = s.rcvRest := by rfl
@[simp] theorem setPsn_rcvRest (l v) : (s.setPsn l v).rcvRest = s.rcvRest := by rfl
@[simp] theorem clearSym_rcvRest (l) : (s.clearSym l).rcvRest = s.rcvRest := by rfl
@[simp] theorem putLine_rcvRest (l off bs) : (s.putLine l off bs).rcvRest = s.rcvRest := by rfl
@[simp] theorem raise_rcvRest (cls unit) : (s.raise cls unit).rcvRest = s.rcvRest := by rfl
@[simp] theorem raiseRow_rcvRest (l) : (s.raiseRow l).rcvRest = s.rcvRest := by rfl

@[simp] theorem countCe_rcvRest (l) : (s.countCe l).rcvRest = s.rcvRest := by
  unfold State.countCe
  dsimp only
  split
  · rfl
  · rw [raiseRow_rcvRest]
    rfl

@[simp] theorem keepCopy_rcvRest (l) : (s.keepCopy l).rcvRest = s.rcvRest := by
  unfold State.keepCopy
  split <;> simp

@[simp] theorem poisonUe_rcvRest (l) : (s.poisonUe l).rcvRest = s.rcvRest := by simp [State.poisonUe]
@[simp] theorem freeLine_rcvRest : s.freeLine.2.rcvRest = s.rcvRest := by rfl

@[simp] theorem checkLine_rcvRest (l) : (s.checkLine l).2.rcvRest = s.rcvRest := by
  unfold State.checkLine
  split <;> simp

@[simp] theorem readLine_rcvRest (l) : (s.readLine l).2.rcvRest = s.rcvRest := by simp [State.readLine]
@[simp] theorem writeLine_rcvRest (l off bs psn) : (s.writeLine l off bs psn).2.rcvRest = s.rcvRest := by simp [State.writeLine]
@[simp] theorem chargeOasis_rcvRest (slc n) : (s.chargeOasis slc n).rcvRest = s.rcvRest := by rfl
@[simp] theorem creditOasis_rcvRest (slc n) : (s.creditOasis slc n).rcvRest = s.rcvRest := by rfl

/-! ### Messages, crossings and answers -/

@[simp] theorem cross_rcvRest (org p cls sub m ing cut) : (s.cross org p cls sub m ing cut).rcvRest = s.rcvRest := by rfl

@[simp] theorem crossCopies_rcvRest (cs) : (s.crossCopies cs).rcvRest = s.rcvRest := by
  unfold State.crossCopies
  split <;> simp

@[simp] theorem send_rcvRest (org p cls sub m ing cut) : (s.send org p cls sub m ing cut).rcvRest = s.rcvRest := by
  simp [State.send]

@[simp] theorem toEgress_rcvRest (p cls sub m mcast plane cut) :
    (s.toEgress p cls sub m mcast plane cut).rcvRest = s.rcvRest := by rfl

@[simp] theorem sendLocal_rcvRest (p cls sub m) : (s.sendLocal p cls sub m).rcvRest = s.rcvRest := by simp [State.sendLocal]

@[simp] theorem sendLegs_rcvRest (org ls) : (s.sendLegs org ls).rcvRest = s.rcvRest := by
  unfold State.sendLegs
  split <;> simp

@[simp] theorem sendMulti_rcvRest (org ps cls sub m) : (s.sendMulti org ps cls sub m).rcvRest = s.rcvRest := by
  simp [State.sendMulti]

@[simp] theorem mcastFill_rcvRest : s.mcastFill.rcvRest = s.rcvRest := foldl_rcvRest (fun _ _ => by split <;> simp) _ _

@[simp] theorem mcastDone_rcvRest (n) : (s.mcastDone n).rcvRest = s.rcvRest := by
  unfold State.mcastDone
  split <;> simp

@[simp] theorem egrFree_rcvRest (cs) : (s.egrFree cs).rcvRest = s.rcvRest := by simp [State.egrFree]
@[simp] theorem fromEgress_rcvRest (x) : (s.fromEgress x).rcvRest = s.rcvRest := by simp [State.fromEgress]
@[simp] theorem ingPlaced_rcvRest (i) : (s.ingPlaced i).rcvRest = s.rcvRest := by rfl
@[simp] theorem updSource_rcvRest (p f) : (s.updSource p f).rcvRest = s.rcvRest := by rfl

@[simp] theorem markDone_rcvRest (r) : (s.markDone r).rcvRest = s.rcvRest := by
  unfold State.markDone
  split <;> simp

@[simp] theorem dropMerged_rcvRest (r) : (s.dropMerged r).rcvRest = s.rcvRest := by
  unfold State.dropMerged
  split <;> simp

@[simp] theorem hostComplete_rcvRest (h) : (s.hostComplete h).rcvRest = s.rcvRest := by simp [State.hostComplete]

@[simp] theorem hostPart_rcvRest (tag addr a) : (s.hostPart tag addr a).rcvRest = s.rcvRest := by
  unfold State.hostPart
  split <;> simp

@[simp] theorem setSlot_rcvRest (k x) : (s.setSlot k x).rcvRest = s.rcvRest := by rfl

@[simp] theorem xferTake_rcvRest (x r) : (s.xferTake x r).rcvRest = s.rcvRest := by
  unfold State.xferTake
  dsimp only
  repeat' split
  all_goals simp

@[simp] theorem slotAnswer_rcvRest (id n r a) : (s.slotAnswer id n r a).rcvRest = s.rcvRest := by simp [State.slotAnswer]
@[simp] theorem chanErr_rcvRest (c st a) : (s.chanErr c st a).rcvRest = s.rcvRest := by simp [State.chanErr]
@[simp] theorem chanAnswer_rcvRest (c r a) : (s.chanAnswer c r a).rcvRest = s.rcvRest := by simp [State.chanAnswer]
@[simp] theorem collAnswer_rcvRest (tag r a) : (s.collAnswer tag r a).rcvRest = s.rcvRest := by simp [State.collAnswer]
@[simp] theorem mirrorDone_rcvRest (st) : (s.mirrorDone st).rcvRest = s.rcvRest := by simp [State.mirrorDone]

@[simp] theorem answerFrom_rcvRest (die r a) : (s.answerFrom die r a).rcvRest = s.rcvRest := by
  unfold State.answerFrom
  split <;> simp

@[simp] theorem answer_rcvRest (home r a) : (s.answer home r a).rcvRest = s.rcvRest := by simp [State.answer]

@[simp] theorem sendTogether_rcvRest (org ls) : (s.sendTogether org ls).rcvRest = s.rcvRest := by
  unfold State.sendTogether
  split <;> simp

@[simp] theorem answerAll_rcvRest (home xs) : (s.answerAll home xs).rcvRest = s.rcvRest := by simp [State.answerAll]

@[simp] theorem finish_rcvRest (r a) : (s.finish r a).rcvRest = s.rcvRest := by
  unfold State.finish
  split <;> simp

@[simp] theorem finishCmp_rcvRest (r st) : (s.finishCmp r st).rcvRest = s.rcvRest := by simp [State.finishCmp]
@[simp] theorem stamp_rcvRest (r) : (s.stamp r).2.rcvRest = s.rcvRest := by simp [State.stamp]
@[simp] theorem wait_rcvRest (r cause key) : (s.wait r cause key).rcvRest = s.rcvRest := by simp [State.wait]

/-! ### Scheduling points -/

@[simp] theorem setBucket_rcvRest (k v) : (s.setBucket k v).rcvRest = s.rcvRest := by rfl
@[simp] theorem chargeTok_rcvRest (k refill cost) : (s.chargeTok k refill cost).rcvRest = s.rcvRest := by simp [State.chargeTok]
@[simp] theorem setSched_rcvRest (k m) : (s.setSched k m).rcvRest = s.rcvRest := by rfl

@[simp] theorem remember_rcvRest (level node k cost more) : (s.remember level node k cost more).rcvRest = s.rcvRest := by
  simp [State.remember]

@[simp] theorem charge_rcvRest (q c) : (s.charge q c).rcvRest = s.rcvRest := by simp [State.charge]

@[simp] theorem selectAt_rcvRest (cs q) : (s.selectAt cs q).2.rcvRest = s.rcvRest := by
  unfold State.selectAt
  dsimp only
  repeat' split
  all_goals simp

@[simp] theorem atPoint_rcvRest (q c) : (s.atPoint q c).2.rcvRest = s.rcvRest := by simp [State.atPoint]
@[simp] theorem queueAt_rcvRest (q r) : (s.queueAt q r).rcvRest = s.rcvRest := by rfl

@[simp] theorem passPoint_rcvRest (q r) {act : State → Req → State} (h : ∀ s r, (act s r).rcvRest = s.rcvRest) :
    (s.passPoint q r act).rcvRest = s.rcvRest := by
  unfold State.passPoint
  dsimp only
  split <;> simp [h]

/-! ### Tiers and page moves -/

@[simp] theorem setPage_rcvRest (pg x) : (s.setPage pg x).rcvRest = s.rcvRest := by rfl

@[simp] theorem traySend_rcvRest (l isWrite bytes psn cls sub kind ent) :
    (s.traySend l isWrite bytes psn cls sub kind ent).rcvRest = s.rcvRest := by
  unfold State.traySend
  split <;> simp

@[simp] theorem lateLog_rcvRest (pg cause) : (s.lateLog pg cause).rcvRest = s.rcvRest := by
  unfold State.lateLog
  split <;> simp

@[simp] theorem lateWait_rcvRest (r cause pg) : (s.lateWait r cause pg).rcvRest = s.rcvRest := by simp [State.lateWait]
@[simp] theorem recause_rcvRest (pg c) : (s.recause pg c).rcvRest = s.rcvRest := by simp [State.recause]
@[simp] theorem holdPage_rcvRest (pg) : (s.holdPage pg).rcvRest = s.rcvRest := by simp [State.holdPage]
@[simp] theorem dropOwed_rcvRest (lo hi) : (s.dropOwed lo hi).rcvRest = s.rcvRest := by rfl
@[simp] theorem setHeat_rcvRest (pg h) : (s.setHeat pg h).rcvRest = s.rcvRest := by rfl
@[simp] theorem countHeat_rcvRest (pg) : (s.countHeat pg).rcvRest = s.rcvRest := by simp [State.countHeat]
@[simp] theorem readPage_rcvRest (pg) : (s.readPage pg).rcvRest = s.rcvRest := by simp [State.readPage]
@[simp] theorem rewritePages_rcvRest (pg n) : (s.rewritePages pg n).rcvRest = s.rcvRest := by rfl
@[simp] theorem rewriteImage_rcvRest (pg) : (s.rewriteImage pg).rcvRest = s.rcvRest := by rfl
@[simp] theorem reform_rcvRest (m) : (s.reform m).rcvRest = s.rcvRest := by simp [State.reform]
@[simp] theorem migIssue_rcvRest (m) : (s.migIssue m).rcvRest = s.rcvRest := by simp [State.migIssue]

@[simp] theorem startPromotion_rcvRest (pg frame) : (s.startPromotion pg frame).rcvRest = s.rcvRest := by
  simp [State.startPromotion]

@[simp] theorem trayCopy_rcvRest (pg) : (s.trayCopy pg).rcvRest = s.rcvRest := by simp [State.trayCopy]
@[simp] theorem toTray_rcvRest (pg) : (s.toTray pg).rcvRest = s.rcvRest := by simp [State.toTray]
@[simp] theorem demote_rcvRest (pg want) : (s.demote pg want).2.rcvRest = s.rcvRest := by simp [State.demote]

@[simp] theorem demoteFor_rcvRest (s : State) (pg pick n) : (s.demoteFor pg pick n).2.rcvRest = s.rcvRest := by
  induction n generalizing s with
  | zero => rfl
  | succ n ih =>
    unfold State.demoteFor
    split <;> simp [ih]

@[simp] theorem awaitFrame_rcvRest (pg) : (s.awaitFrame pg).rcvRest = s.rcvRest := by simp [State.awaitFrame]

@[simp] theorem promoteOver_rcvRest (pg pick) : (s.promoteOver pg pick).2.rcvRest = s.rcvRest := by
  unfold State.promoteOver
  dsimp only
  repeat' split
  all_goals simp

@[simp] theorem ergcFrame_rcvRest (pg) : (s.ergcFrame pg).2.rcvRest = s.rcvRest := by
  unfold State.ergcFrame
  dsimp only
  split <;> simp

@[simp] theorem ergcGate_rcvRest (pg) : (s.ergcGate pg).2.rcvRest = s.rcvRest := by
  unfold State.ergcGate
  dsimp only
  repeat' split
  all_goals simp

theorem heatPromote_rcvRest {s t : State} {pg : Nat} (h : s.heatPromote pg = some t) : t.rcvRest = s.rcvRest := by
  unfold State.heatPromote at h
  dsimp only at h
  split at h
  · cases h
  · split at h
    · cases h
      simp
    · split at h
      · cases h
      · split at h <;> (cases h; simp)

@[simp] theorem gate_rcvRest (pg count) : (s.gate pg count).2.rcvRest = s.rcvRest := by
  unfold State.gate
  dsimp only
  split
  · rfl
  · split
    · rfl
    · split
      · simp
      · split
        · simp
        · split
          · rename_i t h
            obtain ⟨-, hp⟩ := Option.ite_none_right_eq_some.1 h
            have ht : t.rcvRest = s.rcvRest := (heatPromote_rcvRest hp).trans (by simp)
            simp [ht]
          · simp

@[simp] theorem touch_rcvRest (pg) : (s.touch pg).rcvRest = s.rcvRest := by simp [State.touch]
@[simp] theorem dropMig_rcvRest (pg) : (s.dropMig pg).rcvRest = s.rcvRest := by rfl
@[simp] theorem startMove_rcvRest (pg frame) : (s.startMove pg frame).rcvRest = s.rcvRest := by simp [State.startMove]
@[simp] theorem countNosub_rcvRest : s.countNosub.rcvRest = s.rcvRest := by rfl

@[simp] theorem poisonPage_rcvRest (pg) : (s.poisonPage pg).rcvRest = s.rcvRest := by
  unfold State.poisonPage
  rw [foldl_rcvRest (fun _ _ => setPsn_rcvRest _ _ _), withMem_rcvRest]

@[simp] theorem takeSub_rcvRest (pg frame) : (s.takeSub pg frame).rcvRest = s.rcvRest := by simp [State.takeSub]

@[simp] theorem wantPage_rcvRest (pg) : (s.wantPage pg).rcvRest = s.rcvRest := by
  unfold State.wantPage
  dsimp only
  repeat' split
  all_goals simp

@[simp] theorem abandonMig_rcvRest (m) : (s.abandonMig m).rcvRest = s.rcvRest := by
  unfold State.abandonMig
  dsimp only
  repeat' split
  all_goals simp

@[simp] theorem retryDemotions_rcvRest : s.retryDemotions.rcvRest = s.rcvRest := by simp [State.retryDemotions]

/-! ### Accesses at the home -/

@[simp] theorem wbufPut_rcvRest (l off bs psn v) : (s.wbufPut l off bs psn v).rcvRest = s.rcvRest := by rfl
@[simp] theorem closeRead_rcvRest (l) : (s.closeRead l).rcvRest = s.rcvRest := by rfl

@[simp] theorem storeLine_rcvRest (l off bs psn v) : (s.storeLine l off bs psn v).2.rcvRest = s.rcvRest := by
  simp [State.storeLine]

@[simp] theorem writeRun_rcvRest (l rs) : (s.writeRun l rs).rcvRest = s.rcvRest := by simp [State.writeRun]

@[simp] theorem doStore_rcvRest (r) : (s.doStore r).rcvRest = s.rcvRest := by
  unfold State.doStore
  split <;> simp

@[simp] theorem doRead_rcvRest (r grant) : (s.doRead r grant).rcvRest = s.rcvRest := by simp [State.doRead]
@[simp] theorem atomicDone_rcvRest (r) : (s.atomicDone r).2.rcvRest = s.rcvRest := by simp [State.atomicDone]

@[simp] theorem doAtomic_rcvRest (r) : (s.doAtomic r).rcvRest = s.rcvRest := by
  unfold State.doAtomic
  split <;> simp

@[simp] theorem trayRead_rcvRest (r comb) : (s.trayRead r comb).rcvRest = s.rcvRest := by simp [State.trayRead]
@[simp] theorem noFrameAnswer_rcvRest (r) : (s.noFrameAnswer r).rcvRest = s.rcvRest := by simp [State.noFrameAnswer]

@[simp] theorem together_rcvRest (pg rs) {act : State → State} (h : ∀ s, (act s).rcvRest = s.rcvRest) :
    (s.together pg rs act).rcvRest = s.rcvRest := by
  unfold State.together
  dsimp only
  split <;> simp [h]

@[simp] theorem applyRun_rcvRest (l) : (s.applyRun l).rcvRest = s.rcvRest := by
  unfold State.applyRun
  dsimp only
  split <;> (try split) <;> simp

@[simp] theorem endRun_rcvRest (m x) : (s.endRun m x).rcvRest = s.rcvRest := by simp [State.endRun]

@[simp] theorem openEntry_rcvRest (l bytes psn known) : (s.openEntry l bytes psn known).rcvRest = s.rcvRest := by
  simp [State.openEntry]

@[simp] theorem plainRead_rcvRest (r x) : (s.plainRead r x).rcvRest = s.rcvRest := by
  unfold State.plainRead
  dsimp only
  split <;> simp

@[simp] theorem plainStore_rcvRest (r x) : (s.plainStore r x).rcvRest = s.rcvRest := by
  unfold State.plainStore
  dsimp only
  split <;> (try split) <;> simp

@[simp] theorem plainAtomic_rcvRest (r x) : (s.plainAtomic r x).rcvRest = s.rcvRest := by
  unfold State.plainAtomic
  dsimp only
  split <;> (try split) <;> simp

/-! ### The directory and its groups -/

@[simp] theorem setCg_rcvRest (g c) : (s.setCg g c).rcvRest = s.rcvRest := by rfl
@[simp] theorem setDir_rcvRest (l e) : (s.setDir l e).rcvRest = s.rcvRest := by rfl
@[simp] theorem dropDir_rcvRest (l) : (s.dropDir l).rcvRest = s.rcvRest := by rfl
@[simp] theorem stable_rcvRest (l e st own shr) : (s.stable l e st own shr).rcvRest = s.rcvRest := by simp [State.stable]

@[simp] theorem sendSnoop_rcvRest (l opc g f slot) : (s.sendSnoop l opc g f slot).2.rcvRest = s.rcvRest := by
  unfold State.sendSnoop
  dsimp only
  split <;> (try split) <;> simp

@[simp] theorem fwdGone_rcvRest (l id) : (s.fwdGone l id).rcvRest = s.rcvRest := by rfl

@[simp] theorem sendSnoops_rcvRest (l opc g f slots) : (s.sendSnoops l opc g f slots).2.rcvRest = s.rcvRest := by
  simp [State.sendSnoops]

@[simp] theorem faultedAnswer_rcvRest (r) : (s.faultedAnswer r).rcvRest = s.rcvRest := by simp [State.faultedAnswer]
@[simp] theorem grantNow_rcvRest (l e r b) : (s.grantNow l e r b).rcvRest = s.rcvRest := by simp [State.grantNow]
@[simp] theorem noteLate_rcvRest (r c pg) : (s.noteLate r c pg).2.rcvRest = s.rcvRest := by simp [State.noteLate]

@[simp] theorem grant_rcvRest (l e r b) : (s.grant l e r b).rcvRest = s.rcvRest := by
  unfold State.grant
  dsimp only
  repeat' split
  all_goals simp

@[simp] theorem trayAsk_rcvRest (r) : (s.trayAsk r).rcvRest = s.rcvRest := by
  unfold State.trayAsk
  dsimp only
  split <;> simp

@[simp] theorem recallDone_rcvRest (l e) : (s.recallDone l e).rcvRest = s.rcvRest := by
  unfold State.recallDone
  dsimp only
  repeat' split
  all_goals simp

@[simp] theorem recall_rcvRest (l e f r aft) : (s.recall l e f r aft).rcvRest = s.rcvRest := by simp [State.recall]

@[simp] theorem askOwner_rcvRest (l e r excl aft) : (s.askOwner l e r excl aft).rcvRest = s.rcvRest := by
  unfold State.askOwner
  split <;> simp

@[simp] theorem invalidate_rcvRest (l e r who aft) : (s.invalidate l e r who aft).rcvRest = s.rcvRest := by
  simp [State.invalidate]

@[simp] theorem giveUp_rcvRest (l e) : (s.giveUp l e).rcvRest = s.rcvRest := by simp [State.giveUp]

@[simp] theorem transitionDone_rcvRest (l e) : (s.transitionDone l e).rcvRest = s.rcvRest := by
  unfold State.transitionDone
  repeat' split
  all_goals simp

@[simp] theorem wbStale_rcvRest (r) : (s.wbStale r).rcvRest = s.rcvRest := by simp [State.wbStale]
@[simp] theorem upgLost_rcvRest (r) : (s.upgLost r).rcvRest = s.rcvRest := by simp [State.upgLost]
@[simp] theorem protoErr_rcvRest (r) : (s.protoErr r).rcvRest = s.rcvRest := by simp [State.protoErr]
@[simp] theorem ownerWrite_rcvRest (r) : (s.ownerWrite r).rcvRest = s.rcvRest := by simp [State.ownerWrite]
@[simp] theorem readNow_rcvRest (r) : (s.readNow r).rcvRest = s.rcvRest := by simp [State.readNow]

@[simp] theorem dirU_rcvRest (l g r a) : (s.dirU l g r a).rcvRest = s.rcvRest := by
  cases a
  case rd | rdx =>
    simp only [State.dirU]
    split
    · simp
    · split <;> simp
  all_goals simp [State.dirU]

@[simp] theorem dirS_rcvRest (l e r q a) : (s.dirS l e r q a).rcvRest = s.rcvRest := by
  unfold State.dirS
  split <;> simp

@[simp] theorem dirX_rcvRest (l e r q a) : (s.dirX l e r q a).rcvRest = s.rcvRest := by
  unfold State.dirX
  split <;> simp

@[simp] theorem dirO_rcvRest (l e r q a) : (s.dirO l e r q a).rcvRest = s.rcvRest := by
  unfold State.dirO
  split <;> simp

@[simp] theorem wbDuring_rcvRest (l e r q) : (s.wbDuring l e r q).rcvRest = s.rcvRest := by simp [State.wbDuring]

@[simp] theorem sendGroupFault_rcvRest (g cause) : (s.sendGroupFault g cause).rcvRest = s.rcvRest := by
  simp [State.sendGroupFault]

@[simp] theorem groupFault_rcvRest (g cause) : (s.groupFault g cause).rcvRest = s.rcvRest := by
  unfold State.groupFault
  split
  · rfl
  · simp only [wr_rcvRest, setCg_rcvRest, sendGroupFault_rcvRest, foldl_rcvRest fun s _ => faultedAnswer_rcvRest s _]
    refine (foldl_rcvRest (fun _ _ => ?_) _ _).trans (by simp)
    split
    · split <;> simp
    · rfl

@[simp] theorem allGroupsFault_rcvRest : s.allGroupsFault.rcvRest = s.rcvRest := by simp [State.allGroupsFault]

@[simp] theorem dirCheckOne_rcvRest (l) : (s.dirCheckOne l).rcvRest = s.rcvRest := by
  unfold State.dirCheckOne
  dsimp only
  repeat' split
  all_goals simp

@[simp] theorem dirCheck_rcvRest (l) : (s.dirCheck l).rcvRest = s.rcvRest := by simp [State.dirCheck]

@[simp] theorem settleLine_rcvRest (l) : (s.settleLine l).rcvRest = s.rcvRest := by
  unfold State.settleLine
  split <;> simp

@[simp] theorem dirAccess_rcvRest (r g) : (s.dirAccess r g).rcvRest = s.rcvRest := by
  unfold State.dirAccess
  dsimp only
  repeat' split
  all_goals simp

@[simp] theorem recallHack_rcvRest (l e slot m) : (s.recallHack l e slot m).rcvRest = s.rcvRest := by simp [State.recallHack]

@[simp] theorem flushedSnoop_rcvRest (l slot) : (s.flushedSnoop l slot).rcvRest = s.rcvRest := by
  unfold State.flushedSnoop
  dsimp only
  repeat' split
  all_goals simp

@[simp] theorem grantLost_rcvRest (l) : (s.grantLost l).rcvRest = s.rcvRest := by
  unfold State.grantLost
  dsimp only
  repeat' split
  all_goals simp

/-! ### Published regions -/

@[simp] theorem setRegion_rcvRest (i x) : (s.setRegion i x).rcvRest = s.rcvRest := by rfl

@[simp] theorem sendNote_rcvRest (i id addr nl r) : (s.sendNote i id addr nl r).rcvRest = s.rcvRest := by
  unfold State.sendNote
  split <;> simp

@[simp] theorem sendNotes_rcvRest (i x addr nlines r) : (s.sendNotes i x addr nlines r).rcvRest = s.rcvRest := by
  simp [State.sendNotes]

@[simp] theorem pubAnswer_rcvRest (r ver) : (s.pubAnswer r ver).rcvRest = s.rcvRest := by simp [State.pubAnswer]
@[simp] theorem pubBegin_rcvRest (i r) : (s.pubBegin i r).rcvRest = s.rcvRest := by simp [State.pubBegin]

@[simp] theorem pubNext_rcvRest (s : State) (i n) : (s.pubNext i n).rcvRest = s.rcvRest := by
  induction n generalizing s with
  | zero => rfl
  | succ n ih =>
    unfold State.pubNext
    dsimp only
    split
    · rfl
    · split <;> simp [ih]

@[simp] theorem pubEnd_rcvRest (i) : (s.pubEnd i).rcvRest = s.rcvRest := by
  unfold State.pubEnd
  dsimp only
  split <;> simp

@[simp] theorem pubDrop_rcvRest (i) : (s.pubDrop i).rcvRest = s.rcvRest := by simp [State.pubDrop]
@[simp] theorem noteDone_rcvRest (n) : (s.noteDone n).rcvRest = s.rcvRest := by simp [State.noteDone]
@[simp] theorem unsubscribe_rcvRest (id) : (s.unsubscribe id).rcvRest = s.rcvRest := by simp [State.unsubscribe]

/-! ### Pool accesses -/

@[simp] theorem viaTier_rcvRest (r x) {act : State → Req → State} (h : ∀ s r, (act s r).rcvRest = s.rcvRest) :
    (s.viaTier r x act).rcvRest = s.rcvRest := by
  unfold State.viaTier
  dsimp only
  repeat' split
  all_goals simp [h]

@[simp] theorem plainAct_rcvRest (r x) : (s.plainAct r x).rcvRest = s.rcvRest := by simp [State.plainAct]
@[simp] theorem plainPath_rcvRest (r x) : (s.plainPath r x).rcvRest = s.rcvRest := by simp [State.plainPath]

theorem pubAccess_rcvRest {s t : State} {r : Req} (h : s.pubAccess r = .done t) : t.rcvRest = s.rcvRest := by
  unfold State.pubAccess at h
  dsimp only at h
  repeat' split at h
  all_goals cases h
  all_goals simp

@[simp] theorem poolAccess_rcvRest (r) : (s.poolAccess r).rcvRest = s.rcvRest := by
  unfold State.poolAccess
  dsimp only
  split
  · simp
  · rfl
  · split
    · split
      · simp
      · split <;> simp
    · split
      · split
        next h => exact pubAccess_rcvRest h
        · simp
        · split <;> simp
      · simp

@[simp] theorem engSend_rcvRest (r) : (s.engSend r).rcvRest = s.rcvRest := by simp [State.engSend]
@[simp] theorem engDrop_rcvRest (o) : (s.engDrop o).rcvRest = s.rcvRest := by rfl

/-! ### Operation slots and die queues -/

@[simp] theorem opEnd_rcvRest (k rank st) : (s.opEnd k rank st).rcvRest = s.rcvRest := by rfl
@[simp] theorem setOwnq_rcvRest (d q) : (s.setOwnq d q).rcvRest = s.rcvRest := by rfl

@[simp] theorem setDieq_rcvRest (d q) : (s.setDieq d q).rcvRest = s.rcvRest := by
  unfold State.setDieq
  split <;> simp

@[simp] theorem setLaunchq_rcvRest (q) : (s.setLaunchq q).rcvRest = s.rcvRest := by rfl
@[simp] theorem dropParts_rcvRest (k) : (s.dropParts k).rcvRest = s.rcvRest := by simp [State.dropParts]

/-! ### Scan records and the journal -/

@[simp] theorem setScan_rcvRest (d x) : (s.setScan d x).rcvRest = s.rcvRest := by simp [State.setScan]
@[simp] theorem journalAdd_rcvRest (d e) : (s.journalAdd d e).rcvRest = s.rcvRest := by simp [State.journalAdd]
@[simp] theorem journalMap_rcvRest (d ok f) : (s.journalMap d ok f).rcvRest = s.rcvRest := by simp [State.journalMap]

/-! ### Collectives -/

@[simp] theorem updColl_rcvRest (tag f) : (s.updColl tag f).rcvRest = s.rcvRest := by rfl
@[simp] theorem collJournalEnd_rcvRest (c d) : (s.collJournalEnd c d).rcvRest = s.rcvRest := by simp [State.collJournalEnd]
@[simp] theorem collSlotEnd_rcvRest (c k rank st bitmap) : (s.collSlotEnd c k rank st bitmap).rcvRest = s.rcvRest := by rfl

@[simp] theorem collLeave_rcvRest (k) : (s.collLeave k).rcvRest = s.rcvRest := by
  unfold State.collLeave
  split <;> simp

@[simp] theorem collEnter_rcvRest (c d slot) : (s.collEnter c d slot).rcvRest = s.rcvRest := by simp [State.collEnter]

/-! ### Roles of the RGF dies -/

@[simp] theorem rgfSummary_rcvRest : s.rgfSummary.rcvRest = s.rcvRest := by simp [State.rgfSummary]
@[simp] theorem fillq_rcvRest (d q) : (s.fillq d q).rcvRest = s.rcvRest := by simp [State.fillq]
@[simp] theorem setRole_rcvRest (d r) : (s.setRole d r).rcvRest = s.rcvRest := by simp [State.setRole]
@[simp] theorem accRefresh_rcvRest : s.accRefresh.rcvRest = s.rcvRest := by simp [State.accRefresh]
@[simp] theorem journalMove_rcvRest (d new slot) : (s.journalMove d new slot).rcvRest = s.rcvRest := by simp [State.journalMove]
@[simp] theorem passSlot_rcvRest (p new) : (s.passSlot p new).rcvRest = s.rcvRest := by simp [State.passSlot]

@[simp] theorem leaveService_rcvRest (d) : (s.leaveService d).rcvRest = s.rcvRest := by
  unfold State.leaveService
  split
  · simp
  · rw [rgfSummary_rcvRest]
    exact foldl_rcvRest (fun _ _ => by split <;> simp) _ _

@[simp] theorem splitq_rcvRest (d) : (s.splitq d).rcvRest = s.rcvRest := by
  unfold State.splitq
  split <;> simp

@[simp] theorem unpair_rcvRest (d) : (s.unpair d).rcvRest = s.rcvRest := by simp [State.unpair]

@[simp] theorem pairDie_rcvRest (d ev) : (s.pairDie d ev).rcvRest = s.rcvRest := by
  unfold State.pairDie
  split <;> simp

@[simp] theorem retireDie_rcvRest (d auto) : (s.retireDie d auto).rcvRest = s.rcvRest := by
  unfold State.retireDie
  dsimp only
  split <;> simp

@[simp] theorem checkPairs_rcvRest : s.checkPairs.rcvRest = s.rcvRest := by
  unfold State.checkPairs
  split <;> simp

@[simp] theorem roleCheck_rcvRest (d) : (s.roleCheck d).rcvRest = s.rcvRest := by simp [State.roleCheck]
@[simp] theorem addScore_rcvRest (d n) : (s.addScore d n).rcvRest = s.rcvRest := by simp [State.addScore]
@[simp] theorem residueFound_rcvRest (d res) : (s.residueFound d res).rcvRest = s.rcvRest := by simp [State.residueFound]
@[simp] theorem pendingFound_rcvRest (d x) : (s.pendingFound d x).rcvRest = s.rcvRest := by simp [State.pendingFound]
@[simp] theorem pendingAll_rcvRest (k) : (s.pendingAll k).rcvRest = s.rcvRest := by simp [State.pendingAll]

/-! ### Operations that are stopped -/

@[simp] theorem stopOp_rcvRest (k rank st) : (s.stopOp k rank st).rcvRest = s.rcvRest := by simp [State.stopOp]

@[simp] theorem abortOp_rcvRest (k) : (s.abortOp k).rcvRest = s.rcvRest := by
  unfold State.abortOp
  dsimp only
  repeat' split
  all_goals simp

@[simp] theorem abortAll_rcvRest (id) : (s.abortAll id).rcvRest = s.rcvRest := by simp [State.abortAll]

/-! ### Receive areas -/

@[simp] theorem rxWrite_rcvRest (id sub n bs) : (s.rxWrite id sub n bs).rcvRest = s.rcvRest := by simp [State.rxWrite]

@[simp] theorem msgAnswer_rcvRest (id m st) : (s.msgAnswer id m st).rcvRest = s.rcvRest := by
  unfold State.msgAnswer
  split <;> simp

@[simp] theorem rxDrop_rcvRest (id m) : (s.rxDrop id m).rcvRest = s.rcvRest := by simp [State.rxDrop]

@[simp] theorem rxDrain_rcvRest (m) : (s.rxDrain m).rcvRest = s.rcvRest := by
  unfold State.rxDrain
  split <;> simp

@[simp] theorem rxPlace_rcvRest (id m) : (s.rxPlace id m).rcvRest = s.rcvRest := by simp [State.rxPlace]
@[simp] theorem rxArrive_rcvRest (id m) : (s.rxArrive id m).rcvRest = s.rcvRest := by simp [State.rxArrive]
@[simp] theorem rxDiscard_rcvRest (id here) : (s.rxDiscard id here).rcvRest = s.rcvRest := by simp [State.rxDiscard]
@[simp] theorem rxRelease_rcvRest (id) : (s.rxRelease id).rcvRest = s.rcvRest := by simp [State.rxRelease]

/-! ### Caravan channels -/

@[simp] theorem setChan_rcvRest (c h) : (s.setChan c h).rcvRest = s.rcvRest := by rfl
@[simp] theorem setCarState_rcvRest (c st) : (s.setCarState c st).rcvRest = s.rcvRest := by simp [State.setCarState]
@[simp] theorem carIgn_rcvRest (c) : (s.carIgn c).rcvRest = s.rcvRest := by rfl
@[simp] theorem carAbort_rcvRest (c) : (s.carAbort c).rcvRest = s.rcvRest := by simp [State.carAbort]
@[simp] theorem carAbortAll_rcvRest (ok) : (s.carAbortAll ok).rcvRest = s.rcvRest := by simp [State.carAbortAll]

/-! ### Link state -/

@[simp] theorem setLstate_rcvRest (p v) : (s.setLstate p v).rcvRest = s.rcvRest := by rfl

/-! ### Ports that leave the link -/

@[simp] theorem dropTacc_rcvRest (t) : (s.dropTacc t).rcvRest = s.rcvRest := by rfl
@[simp] theorem stopTimer_rcvRest (r) : (s.stopTimer r).rcvRest = s.rcvRest := foldl_rcvRest (fun _ _ => by split <;> simp) _ _

@[simp] theorem trayLost_rcvRest (t) : (s.trayLost t).rcvRest = s.rcvRest := by
  unfold State.trayLost
  dsimp only
  repeat' split
  all_goals simp

@[simp] theorem capRefresh_rcvRest : s.capRefresh.rcvRest = s.rcvRest := by rfl
@[simp] theorem dropUplink_rcvRest (here) : (s.dropUplink here).2.rcvRest = s.rcvRest := by simp [State.dropUplink]
@[simp] theorem dropLate_rcvRest (here) : (s.dropLate here).2.rcvRest = s.rcvRest := by simp [State.dropLate]
@[simp] theorem dropHeld_rcvRest (here) : (s.dropHeld here).2.rcvRest = s.rcvRest := by simp [State.dropHeld]
@[simp] theorem flushHeld_rcvRest (p) : (s.flushHeld p).2.rcvRest = s.rcvRest := by simp [State.flushHeld]

@[simp] theorem flushRxa_rcvRest (p id) : (s.flushRxa p id).rcvRest = s.rcvRest := by
  unfold State.flushRxa
  split <;> simp

@[simp] theorem flushQueues_rcvRest (p) : (s.flushQueues p).rcvRest = s.rcvRest := by simp [State.flushQueues]

@[simp] theorem flushPart_rcvRest (p) : (s.flushPart p).rcvRest = s.rcvRest := by
  unfold State.flushPart
  dsimp only
  repeat' split
  all_goals simp

@[simp] theorem flushAgent_rcvRest (id) : (s.flushAgent id).rcvRest = s.rcvRest := by
  unfold State.flushAgent
  simp only [ite_rcvRest, updAgent_rcvRest, ite_self, lit_rcvRest, unsubscribe_rcvRest]
  refine (foldl_rcvRest (fun _ _ => ?_) _ _).trans (by simp)
  split <;> simp

@[simp] theorem flushTray_rcvRest (p) : (s.flushTray p).rcvRest = s.rcvRest := by simp [State.flushTray]
@[simp] theorem unbind_rcvRest (p) : (s.unbind p).rcvRest = s.rcvRest := by simp [State.unbind]

@[simp] theorem msgEnd_rcvRest (die m st) : (s.msgEnd die m st).rcvRest = s.rcvRest := by
  unfold State.msgEnd
  split <;> simp

@[simp] theorem moveUplink_rcvRest (die u cls sub m) : (s.moveUplink die u cls sub m).rcvRest = s.rcvRest := by
  simp [State.moveUplink]

@[simp] theorem uplinkLeft_rcvRest (p) : (s.uplinkLeft p).rcvRest = s.rcvRest :=
  (foldl_rcvRest (fun _ _ => by split <;> simp) _ _).trans (by simp)

@[simp] theorem showRepaired_rcvRest (p) : (s.showRepaired p).rcvRest = s.rcvRest := by rfl
@[simp] theorem showLanes_rcvRest (p used) : (s.showLanes p used).rcvRest = s.rcvRest := by simp [State.showLanes]
@[simp] theorem linkOff_rcvRest (p st) : (s.linkOff p st).rcvRest = s.rcvRest := by simp [State.linkOff]
@[simp] theorem downQuiet_rcvRest (p) : (s.downQuiet p).rcvRest = s.rcvRest := by simp [State.downQuiet]

end RcvRest

end Sys2Proof.Proofs
end

section
/-! SUPPORT. Proof of the statement on errors of units (spec/01_architecture.md): the roles and partners of the RGF dies through a
hard failure, the entry into containment, and the commands of Table 16.2. -/

namespace Sys2Proof.Machine

/-- What RGF_DIE_STAT says of each die's role and partner. -/
def State.pairing (s : State) (d : Nat) : Nat × Nat := (s.role d, s.rd .RGF_DIE_STAT_PARTNER d)

/-- The device in containment, its channels not yet aborted (R383). -/
def State.containStart (s : State) (cause cls : Nat) : State :=
  let t := ((s.wr .EVT_CONTAIN_ACTIVE 1).wr .EVT_CONTAIN_CAUSE cause).wr .EVT_CONTAIN_CLASS (if cause = 2 then cls else 0)
  (({ t with rcv := { t.rcv with containFrom := some t.epoch } } : State).event .contain 0 0 cause).irq 1

end Sys2Proof.Machine

namespace Sys2Proof.Proofs
open Sys2Proof Sys2Proof.Machine

/-! ### What leaves the dies' roles and partners alone -/

section Pairing
variable (s : State)

@[simp] theorem lit_pairing (s : State) {pending ports agents sw home pool tier coh rgf chans scn rcv boot power clk busy host tel
    tap out nextId freeCtr} :
    State.pairing ⟨pending, s.regs, ports, agents, sw, home, pool, tier, coh, rgf, chans, scn, rcv, boot, power, clk, busy, host,
      tel, tap, out, nextId, freeCtr⟩ = s.pairing := rfl

@[simp] theorem ite_pairing {c : Prop} [Decidable c] (a b : State) :
    (if c then a else b).pairing = if c then a.pairing else b.pairing := apply_ite _ _ _ _

@[simp] theorem foldl_pairing {α : Type} {f : State → α → State} (hf : ∀ s a, (f s a).pairing = s.pairing) (l : List α)
    (s : State) : (l.foldl f s).pairing = s.pairing := foldl_keeps State.pairing hf l s

@[simp] theorem wr_pairing {f : Fld} (h : f ≠ .RGF_DIE_STAT_ROLE) (h' : f ≠ .RGF_DIE_STAT_PARTNER) (v i j) :
    (s.wr f v i j).pairing = s.pairing := by
  funext d
  simp [State.pairing, State.role, h, h']

@[simp] theorem event_pairing (e unit arg0 arg1) : (s.event e unit arg0 arg1).pairing = s.pairing := by
  funext d
  simp [State.pairing, State.role]

@[simp] theorem irq_pairing (c) : (s.irq c).pairing = s.pairing := by
  funext d
  simp [State.pairing, State.role]

@[simp] theorem bump_pairing {f : Fld} (h : f ≠ .RGF_DIE_STAT_ROLE) (h' : f ≠ .RGF_DIE_STAT_PARTNER) (i j n) :
    (s.bump f i j n).pairing = s.pairing := by simp [State.bump, h, h']

@[simp] theorem lower_pairing {f : Fld} (h : f ≠ .RGF_DIE_STAT_ROLE) (h' : f ≠ .RGF_DIE_STAT_PARTNER) (i j n) :
    (s.lower f i j n).pairing = s.pairing := by simp [State.lower, h, h']

@[simp] theorem advance_pairing {f : Fld} (h : f ≠ .RGF_DIE_STAT_ROLE) (h' : f ≠ .RGF_DIE_STAT_PARTNER) (i j n) :
    (s.advance f i j n).pairing = s.pairing := by simp [State.advance, h, h']

@[simp] theorem flashRecord_pairing (base size i bs) : (s.flashRecord base size i bs).pairing = s.pairing := by
  simp [State.flashRecord, State.flashErase, State.flashWrite]

@[simp] theorem healthLog_pairing : s.healthLog.pairing = s.pairing := by simp [State.healthLog]
@[simp] theorem setDegraded_pairing (b v) : (s.setDegraded b v).pairing = s.pairing := by simp [State.setDegraded]
@[simp] theorem rgfSummary_pairing : s.rgfSummary.pairing = s.pairing := by simp [State.rgfSummary]
@[simp] theorem setScan_pairing (d x) : (s.setScan d x).pairing = s.pairing := by simp [State.setScan]
@[simp] theorem journalMap_pairing (d ok f) : (s.journalMap d ok f).pairing = s.pairing := by simp [State.journalMap]
@[simp] theorem journalAdd_pairing (d e) : (s.journalAdd d e).pairing = s.pairing := by simp [State.journalAdd]
@[simp] theorem journalEnd_pairing (d opid slot) : (s.journalEnd d opid slot).pairing = s.pairing := by simp [State.journalEnd]

@[simp] theorem opOutcome_pairing (k rank st) : (s.opOutcome k rank st).pairing = s.pairing := by rfl
@[simp] theorem partOver_pairing (k) : (s.partOver k).pairing = s.pairing := by rfl
@[simp] theorem engDropReqs_pairing (here) : (s.engDropReqs here).pairing = s.pairing := by rfl
@[simp] theorem engDrop_pairing (o) : (s.engDrop o).pairing = s.pairing := by rfl
@[simp] theorem setOwnq_pairing (d q) : (s.setOwnq d q).pairing = s.pairing := by simp [State.setOwnq]
@[simp] theorem setDieq_pairing (d q) : (s.setDieq d q).pairing = s.pairing := by unfold State.setDieq; split <;> simp
@[simp] theorem setLaunchq_pairing (q) : (s.setLaunchq q).pairing = s.pairing := by simp [State.setLaunchq]
@[simp] theorem fillq_pairing (d q) : (s.fillq d q).pairing = s.pairing := by simp [State.fillq]
@[simp] theorem splitq_pairing (d) : (s.splitq d).pairing = s.pairing := by unfold State.splitq; split <;> simp
@[simp] theorem updColl_pairing (tag f) : (s.updColl tag f).pairing = s.pairing := by rfl
@[simp] theorem freeAccs_pairing (c) : (s.freeAccs c).pairing = s.pairing := by simp [State.freeAccs]
@[simp] theorem collJournalEnd_pairing (c d) : (s.collJournalEnd c d).pairing = s.pairing := by simp [State.collJournalEnd]
@[simp] theorem collEnter_pairing (c d slot) : (s.collEnter c d slot).pairing = s.pairing := by simp [State.collEnter]

@[simp] theorem collOver_pairing (tag rank st) : (s.collOver tag rank st).pairing = s.pairing := by
  unfold State.collOver
  split <;> simp

@[simp] theorem collSlotEnd_pairing (c k rank st b) : (s.collSlotEnd c k rank st b).pairing = s.pairing := by rfl

@[simp] theorem collEnd_pairing (tag rank st b) : (s.collEnd tag rank st b).pairing = s.pairing := by
  unfold State.collEnd
  split <;> simp

@[simp] theorem collSettle_pairing (tag) : (s.collSettle tag).pairing = s.pairing := by
  unfold State.collSettle
  split <;> simp

@[simp] theorem collStop_pairing (tag slot st) : (s.collStop tag slot st).pairing = s.pairing := by
  unfold State.collStop
  dsimp only
  split <;> simp

@[simp] theorem collLost_pairing (d) : (s.collLost d).pairing = s.pairing := by simp [State.collLost]
@[simp] theorem accRefresh_pairing : s.accRefresh.pairing = s.pairing := by simp [State.accRefresh]
@[simp] theorem journalMove_pairing (d new slot) : (s.journalMove d new slot).pairing = s.pairing := by simp [State.journalMove]
@[simp] theorem passSlot_pairing (p new) : (s.passSlot p new).pairing = s.pairing := by simp [State.passSlot]

end Pairing

section Dies
variable {s : State} {d x r : Nat}

/-! ### Dies that change role or partner (R247, R366) -/

theorem role_of_pairing {s t : State} (h : t.pairing = s.pairing) (d : Nat) : t.role d = s.role d :=
  congrArg Prod.fst (congrFun h d)

/-- A field of one die after a write of it for another or the same. -/
theorem rd_wr_at (s : State) (f : Fld) (v x d : Nat) :
    (s.wr f v x).rd f d = if d = x then v % 2 ^ f.width else s.rd f d := by
  split
  next h => rw [h, rd_wr_same]
  next h => exact rd_wr_ne s v fun e => h e.2.1.symm

theorem wr_role_pairing (s : State) (x r : Nat) :
    (s.wr .RGF_DIE_STAT_ROLE r x).pairing = Function.update s.pairing x (r % 8, (s.pairing x).2) := by
  have hw : Fld.RGF_DIE_STAT_ROLE.width = 3 := rfl
  funext d
  rw [Function.update_apply]
  split <;> simp_all [State.pairing, State.role, rd_wr_at]

theorem wr_partner_pairing (s : State) (x q : Nat) :
    (s.wr .RGF_DIE_STAT_PARTNER q x).pairing = Function.update s.pairing x ((s.pairing x).1, q % 64) := by
  have hw : Fld.RGF_DIE_STAT_PARTNER.width = 6 := rfl
  funext d
  rw [Function.update_apply]
  split <;> simp_all [State.pairing, State.role, rd_wr_at]

theorem setRole_pairing (s : State) (x : Nat) (hr : r < 8) :
    (s.setRole x r).pairing = Function.update s.pairing x (r, (s.pairing x).2) := by
  unfold State.setRole
  split
  next h => rw [← h]; exact (Function.update_eq_self x s.pairing).symm
  · simp [wr_role_pairing, Nat.mod_eq_of_lt hr]

theorem unpair_pairing (s : State) (x : Nat) :
    (s.unpair x).pairing = Function.update s.pairing x ((s.pairing x).1, 63) := by
  simp [State.unpair, wr_partner_pairing]

theorem role_of_update_self {p : Nat → Nat × Nat} {v : Nat × Nat} (h : s.pairing = Function.update p x v) : s.role x = v.1 :=
  (congrArg Prod.fst (congrFun h x)).trans (by rw [Function.update_self])

theorem role_of_update_ne {p : Nat → Nat × Nat} {v : Nat × Nat} (h : s.pairing = Function.update p x v) (hne : d ≠ x) :
    s.role d = (p d).1 :=
  (congrArg Prod.fst (congrFun h d)).trans (by rw [Function.update_of_ne hne])

theorem role_setRole_self (s : State) (d : Nat) (hr : r < 8) : (s.setRole d r).role d = r :=
  role_of_update_self (setRole_pairing s d hr)

theorem role_setRole_ne (h : d ≠ x) (hr : r < 8) : (s.setRole x r).role d = s.role d :=
  role_of_update_ne (setRole_pairing s x hr) h

@[simp] theorem role_unpair (s : State) (x d : Nat) : (s.unpair x).role d = s.role d := by
  by_cases h : d = x
  · rw [h]
    exact role_of_update_self (unpair_pairing s x)
  · exact role_of_update_ne (unpair_pairing s x) h

/-- A choice made along a list is one of its members. -/
theorem foldl_pick_mem {f : Option Nat → Nat → Option Nat} (hf : ∀ b x, f b x = b ∨ f b x = some x) {l : List Nat} {q : Nat}
    {b : Option Nat} (h : l.foldl f b = some q) : b = some q ∨ q ∈ l := by
  induction l generalizing b with
  | nil => exact .inl h
  | cons x l ih =>
    rcases ih h with hb | hm
    · rcases hf b x with he | he
      · exact .inl (he ▸ hb)
      · rw [he, Option.some.injEq] at hb
        simp [hb]
    · exact .inr (List.mem_cons_of_mem _ hm)

/-- The partner chosen for a die is another die of the array, in service or observed (R366). -/
theorem partnerFor_some {q : Nat} (h : s.partnerFor x = some q) : q < 36 ∧ q ≠ x ∧ (s.role q = 1 ∨ s.role q = 2) := by
  have hm := (foldl_pick_mem (fun b y => by split <;> [exact .inr rfl; (split <;> simp)]) h).resolve_left nofun
  simp only [List.mem_filter, List.mem_range, Bool.and_eq_true, Bool.or_eq_true, bne_iff_ne, beq_iff_eq] at hm
  obtain ⟨hq, hne, h1 | ⟨⟨h2, -⟩, -⟩⟩ := hm
  · exact ⟨hq, hne, .inl h1⟩
  · exact ⟨hq, hne, .inr h2⟩

theorem firstSpare_role {sp : Nat} (h : s.firstSpare = some sp) : s.role sp = 0 := by
  have hs := List.find?_some h
  simp only [State.spareFree, Bool.and_eq_true, beq_iff_eq] at hs
  exact hs.1.1

theorem leaveService_pairing (s : State) (x : Nat) :
    (s.leaveService x).pairing = s.pairing ∨
    ∃ sp, s.role sp = 0 ∧ (s.leaveService x).pairing = Function.update s.pairing sp (1, (s.pairing sp).2) := by
  unfold State.leaveService
  split
  next sp hsp =>
    split
    · exact .inl rfl
    · refine .inr ⟨sp, firstSpare_role hsp, ?_⟩
      rw [setRole_pairing _ _ (by decide)]
      simp
  · refine .inl ?_
    rw [rgfSummary_pairing]
    exact foldl_pairing (fun _ _ => by split <;> simp) _ _

/-- Two dies that pair show each other as partners (R366). -/
theorem pairDie_pairing_some {q : Nat} (hx : x < 36) (h : s.partnerFor x = some q) (ev : Bool) :
    (s.pairDie x ev).pairing = Function.update (Function.update s.pairing x (3, q)) q (3, x) := by
  obtain ⟨hq, hne, -⟩ := partnerFor_some h
  have hp : ∀ t : State, (if ev then t.event .scnPair x else t).pairing = t.pairing := by intro t; simp
  unfold State.pairDie
  simp only [h, hp, fillq_pairing, setRole_pairing _ _ (show 3 < 8 by decide), setScan_pairing, wr_partner_pairing]
  funext d
  simp only [Function.update_apply, Nat.mod_eq_of_lt (show q < 64 by omega), Nat.mod_eq_of_lt (show x < 64 by omega)]
  split <;> split <;> simp_all

/-- With no partner to be had a die leaves its pair and its slots, and is OBSERVED (R366). -/
theorem pairDie_pairing_none (h : s.partnerFor x = none) (ev : Bool) :
    (s.pairDie x ev).pairing = Function.update (((s.unpair x).event .scnNoPartner x).leaveService x).pairing x
      (2, ((((s.unpair x).event .scnNoPartner x).leaveService x).pairing x).2) := by
  unfold State.pairDie
  rw [h]
  exact setRole_pairing _ _ (by decide)

/-- A paired die does not show itself as its partner. -/
def NotOwnPartner (d : Nat) (p : Nat → Nat × Nat) : Prop := (p d).1 = 3 → (p d).2 ≠ d

theorem notOwnPartner_of_partner (hd : d < 36) (h : s.partner d ≠ some d) : NotOwnPartner d s.pairing := by
  intro h3 he
  simp only [State.pairing] at h3 he
  simp [State.partner, h3, he, hd] at h

theorem partner_ne_self (h : NotOwnPartner d s.pairing) : s.partner d ≠ some d := by
  intro he
  simp only [State.partner, Option.ite_none_right_eq_some, Option.some.injEq] at he
  exact h he.1.1 he.2

theorem partner_lt {q : Nat} (h : s.partner d = some q) : q < 36 := by
  simp only [State.partner, Option.ite_none_right_eq_some, Option.some.injEq] at h
  omega

theorem NotOwnPartner.update {p : Nat → Nat × Nat} {v : Nat × Nat} (h : NotOwnPartner d p)
    (hv : d = x → v.1 = 3 → v.2 ≠ d) : NotOwnPartner d (Function.update p x v) := by
  unfold NotOwnPartner
  rw [Function.update_apply]
  split
  · exact hv ‹_›
  · exact h

theorem NotOwnPartner.setRole (h : NotOwnPartner d s.pairing) (hr : r < 8) (h3 : r ≠ 3) :
    NotOwnPartner d (s.setRole x r).pairing := by
  rw [setRole_pairing s x hr]
  exact h.update fun _ he => absurd he h3

theorem NotOwnPartner.unpair (h : NotOwnPartner d s.pairing) (hx : x < 36) : NotOwnPartner d (s.unpair x).pairing := by
  rw [unpair_pairing]
  exact h.update fun _ _ => by simp; omega

theorem NotOwnPartner.leaveService (h : NotOwnPartner d s.pairing) : NotOwnPartner d (s.leaveService x).pairing := by
  rcases leaveService_pairing s x with he | ⟨sp, -, he⟩
  · rwa [he]
  · rw [he]
    exact h.update fun _ h3 => absurd h3 (by simp)

theorem NotOwnPartner.pairDie (h : NotOwnPartner d s.pairing) (hx : x < 36) (ev : Bool) :
    NotOwnPartner d (s.pairDie x ev).pairing := by
  cases hq : s.partnerFor x with
  | some q =>
    obtain ⟨-, hne, -⟩ := partnerFor_some hq
    rw [pairDie_pairing_some hx hq]
    refine (h.update ?_).update ?_
    · rintro rfl -
      exact hne
    · rintro rfl -
      exact hne.symm
  | none =>
    rw [pairDie_pairing_none hq]
    refine NotOwnPartner.update (NotOwnPartner.leaveService ?_) fun _ h3 => absurd h3 (by simp)
    rw [event_pairing]
    exact h.unpair hx

theorem NotOwnPartner.retireDie (h : NotOwnPartner d s.pairing) (hx : x < 36) (auto : Bool) :
    NotOwnPartner d (s.retireDie x auto).pairing := by
  have ht : NotOwnPartner d (((s.unpair x).leaveService x).setRole x 4).pairing :=
    (h.unpair hx).leaveService.setRole (by decide) (by decide)
  unfold State.retireDie
  dsimp only
  split
  · simpa using ht
  next q hq =>
    split
    · exact (NotOwnPartner.unpair (by simpa using ht) (partner_lt hq)).setRole (by decide) (by decide)
    · exact (NotOwnPartner.unpair (by simpa using ht) (partner_lt hq)).pairDie (partner_lt hq) _

theorem worstPaired_lt {w : Nat} (h : s.worstPaired = some w) : w < 36 := by
  have hm := (foldl_pick_mem (fun b y => by split <;> [exact .inr rfl; (split <;> simp)]) h).resolve_left nofun
  simp only [List.mem_filter, List.mem_range] at hm
  exact hm.1

theorem NotOwnPartner.checkPairs (h : NotOwnPartner d s.pairing) : NotOwnPartner d s.checkPairs.pairing := by
  unfold State.checkPairs
  split
  next w hw =>
    split
    · exact h.retireDie (worstPaired_lt hw) true
    · exact h
  · exact h

theorem NotOwnPartner.roleCheck (h : NotOwnPartner d s.pairing) (hx : x < 36) : NotOwnPartner d (s.roleCheck x).pairing := by
  unfold State.roleCheck
  dsimp only
  refine NotOwnPartner.checkPairs ?_
  split
  · simpa using h
  · split
    · split
      · exact h.retireDie hx true
      · exact h.pairDie hx true
    · split
      · rw [event_pairing]
        exact h.setRole (by decide) (by decide)
      · split
        · rw [event_pairing]
          exact h.setRole (by decide) (by decide)
        · exact h

theorem NotOwnPartner.addScore (h : NotOwnPartner d s.pairing) (hx : x < 36) (n : Nat) :
    NotOwnPartner d (s.addScore x n).pairing := by
  unfold State.addScore
  split
  · exact h
  · exact NotOwnPartner.roleCheck (by simpa using h) hx

theorem NotOwnPartner.ite {t : State} {c : Prop} [Decidable c] (hs : NotOwnPartner d s.pairing)
    (ht : NotOwnPartner d t.pairing) : NotOwnPartner d (if c then s else t).pairing := by
  split <;> assumption

theorem NotOwnPartner.pendingFound (h : NotOwnPartner d s.pairing) (hx : x < 36) (y : Part) :
    NotOwnPartner d (s.pendingFound x y).pairing := by
  refine NotOwnPartner.ite ?_ h
  simpa [State.residueFound] using NotOwnPartner.addScore (by simpa using h) hx _

theorem NotOwnPartner.stopRunning (h : NotOwnPartner d s.pairing) (hx : x < 36) :
    NotOwnPartner d (s.stopRunning x).pairing := by
  refine List.foldlRecOn (motive := fun t : State => NotOwnPartner d t.pairing) _ _ (by simpa using h) fun t ht y _ => ?_
  rw [partOver_pairing, journalEnd_pairing]
  exact NotOwnPartner.pendingFound (by simpa using ht) hx y

/-! ### The hard failure of an RGF die (R260) -/

theorem role_leaveService_failed (h : s.role d = 5) : (s.leaveService x).role d = 5 := by
  rcases leaveService_pairing s x with he | ⟨sp, hsp, he⟩
  · rw [role_of_pairing he, h]
  · have hne : d ≠ sp := by rintro rfl; omega
    exact (role_of_update_ne he hne).trans h

theorem role_pairDie_failed (h : s.role d = 5) (hne : d ≠ x) (hx : x < 36) (ev : Bool) : (s.pairDie x ev).role d = 5 := by
  cases hq : s.partnerFor x with
  | some q =>
    obtain ⟨-, -, hr⟩ := partnerFor_some hq
    have hdq : d ≠ q := by rintro rfl; omega
    rw [role_of_update_ne (pairDie_pairing_some hx hq ev) hdq, Function.update_of_ne hne]
    exact h
  | none =>
    refine (role_of_update_ne (pairDie_pairing_none hq ev) hne).trans (role_leaveService_failed ?_)
    rw [role_of_pairing (event_pairing _ _ _ _ _), role_unpair, h]

/-- A die that fails hard is FAILED (R260). -/
theorem role_dieHard (hd : d < 36) (hp : s.partner d ≠ some d) : (s.dieHard d).role d = 5 := by
  unfold State.dieHard
  dsimp only
  split
  · exact role_setRole_self s d (by decide)
  · rw [role_of_pairing (rgfSummary_pairing _)]
    have hown : ∀ t : State, t.pairing = s.pairing → (((t.collLost d).stopRunning d).partner d) ≠ some d := fun t ht =>
      partner_ne_self (NotOwnPartner.stopRunning (by simpa [ht] using notOwnPartner_of_partner hd hp) hd)
    split
    · exact role_setRole_self _ d (by decide)
    next q hq =>
      have hne : d ≠ q := by
        rintro rfl
        exact hown _ (by simp) hq
      split
      · rw [role_setRole_ne hne (by decide), role_unpair]
        exact role_setRole_self _ d (by decide)
      · refine role_pairDie_failed ?_ hne (partner_lt hq) false
        rw [role_unpair]
        exact role_setRole_self _ d (by decide)

end Dies

section Errors
variable {s : State}

/-! ### Containment (R383) -/

theorem enterContain_eq (h : s.contained = false) (cause cls : Nat) :
    s.enterContain cause cls = (s.containStart cause cls).carAbortAll (fun _ => true) := by
  simp [State.enterContain, State.containStart, h]

/-- A field depends on the registers alone. -/
theorem rd_lit (s : State) {pending ports agents sw home pool tier coh rgf chans scn rcv boot power clk busy host tel tap out
    nextId freeCtr} (f : Fld) (i j : Nat) :
    State.rd ⟨pending, s.regs, ports, agents, sw, home, pool, tier, coh, rgf, chans, scn, rcv, boot, power, clk, busy, host, tel,
      tap, out, nextId, freeCtr⟩ f i j = s.rd f i j := rfl

/-- Entering containment shows it with its cause and, of an S4 error, its class (R383). -/
theorem containStart_shows {cause cls : Nat} (hc : cause < 16) (hl : cls < 256) :
    (s.containStart cause cls).contained = true ∧ (s.containStart cause cls).rd .EVT_CONTAIN_CAUSE = cause ∧
      (s.containStart cause cls).rd .EVT_CONTAIN_CLASS = if cause = 2 then cls else 0 := by
  have hw : Fld.EVT_CONTAIN_ACTIVE.width = 1 ∧ Fld.EVT_CONTAIN_CAUSE.width = 4 ∧ Fld.EVT_CONTAIN_CLASS.width = 8 := by decide
  obtain ⟨ha, hcw, hlw⟩ := hw
  have hcls : (if cause = 2 then cls else 0) % 256 = if cause = 2 then cls else 0 := by split <;> omega
  simp only [State.contained, State.on, State.containStart]
  refine ⟨?_, ?_, ?_⟩
  · simp [rd_lit, ha]
  · simp [rd_lit, hcw, Nat.mod_eq_of_lt hc]
  · simp [rd_lit, hlw, hcls]

@[simp] theorem containStart_pool (s : State) (cause cls : Nat) : (s.containStart cause cls).pool = s.pool := by
  simp [State.containStart]

theorem report_s4 {f : StandingFault} (h0 : f.cls ≠ 0) (hl : f.cls < 0x100) (h4 : sevOf f.cls = 4) :
    s.report f = s.enterContain 2 f.cls := by
  unfold State.report
  simp [h0, h4, show f.cls ≠ 0x101 by omega]

/-! ### An error of a unit (Table 16.2) -/

/-- An error from outside takes its immediate action and is reported; a failed plane and a control die without its partner are
the exceptions. -/
theorem fault_eq {cls u : Nat} (h5 : cls ≠ 0x05) (hc : cls = 0x0C → s.ctAlone u = false) :
    s.fault cls u = (s.immediate cls u).raise cls u := by
  unfold State.fault
  rw [if_neg (fun h => h5 h.1), if_neg (fun h => by simp [hc h.1] at h)]

theorem pdOut_eq (s : State) : s.rcv.pdOut = s.rcvRest.pdOut := rfl

/-- A port die that is lost stays among those that are (Table 16.2). -/
theorem portDieLost_pdOut (s : State) (d : Nat) : (s.portDieLost d).rcv.pdOut.contains d = true := by
  unfold State.portDieLost
  rw [pdOut_eq, foldl_rcvRest (fun s p => by simp), ← pdOut_eq]
  split
  · assumption
  · simp

/-! ### The commands of units' errors (Table 16.2) -/

/-- An error from outside, where it is seen: its unit's immediate action and its report. -/
theorem runs_fault {c : Instr} {out : Prop} [Decidable out] {cls u : Nat} {t : State}
    (he : exec c s = settled (if out then s else s.fault cls u)) (ho : ¬out) (h5 : cls ≠ 0x05)
    (hc : cls = 0x0C → s.ctAlone u = false) (hi : s.immediate cls u = t) : Runs c s (t.raise cls u) := by
  refine runs_of ?_
  rw [he, if_neg ho, fault_eq h5 hc, hi]
  rfl

theorem runs_dieLinkFail {a b : Nat} (ha : a < 100) (hb : b < 100) :
    Runs (.dieLinkFail a b) s ((s.fault (dieFault a).1 (dieFault a).2).fault (dieFault b).1 (dieFault b).2) := by
  refine runs_of ?_
  have he : exec (.dieLinkFail a b) s = execDieLinkFail a b s := rfl
  simp [he, execDieLinkFail, settled, Nat.not_le.2 ha, Nat.not_le.2 hb]

theorem runs_rgfHard {d : Nat} (hd : d < 36) (hr : s.role d ≠ 5) : Runs (.rgfHard d) s ((s.dieHard d).raise 0x06 d) :=
  runs_fault (cls := 0x06) rfl (by omega) (by decide) nofun (if_pos hd)

theorem runs_stackFail {n : Nat} (hn : n < 32) (hi : s.stackIn n = true) (hw : s.rcv.stackWait.contains n = false) :
    Runs (.stackFail n) s (({ s with rcv := { s.rcv with stackWait := s.rcv.stackWait ++ [n] } } : State).raise 0x08 n) :=
  runs_fault (cls := 0x08) rfl (by simp [hi, hn]) (by decide) nofun (if_pos (by rw [hi, hw]; rfl))

theorem runs_pdFail {d : Nat} (hd : d < 36) (hp : s.rcv.pdOut.contains d = false) :
    Runs (.pdFail d) s ((s.portDieLost d).raise 0x09 d) :=
  runs_fault (cls := 0x09) rfl (by rw [hp]; simp [hd]) (by decide) nofun rfl

theorem runs_mcFail {k : Nat} (hk : k < 16) : Runs (.mcFail k) s (s.raise 0x0D k) :=
  runs_fault (cls := 0x0D) rfl (by omega) (by decide) nofun rfl

theorem runs_dirMismatch {k : Nat} (hk : k < 16) (ho : s.rcv.dirOff.contains k = false) (hh : s.rcv.dirHold.contains k = false) :
    Runs (.dirMismatch k) s (({ s with rcv := { s.rcv with dirHold := s.rcv.dirHold ++ [k] } } : State).raise 0x0A k) :=
  runs_fault (cls := 0x0A) rfl (by rw [ho]; simp [hk]) (by decide) nofun (if_neg (by rw [ho, hh]; simp))

/-- The entry names the higher-numbered die of the pair (R382, log entry 109). -/
theorem runs_lockstepMismatch {pr : Nat} (hp : pr < 2) (hl : s.lockstep pr = true) (hh : s.rcv.ctHold.contains pr = false) :
    Runs (.lockstepMismatch pr) s
      (({ s with rcv := { s.rcv with ctHold := s.rcv.ctHold ++ [pr] } } : State).raise 0x0C (2 * pr + 1)) := by
  have hal : s.ctAlone (2 * pr + 1) = false := by simpa using (Bool.and_eq_true_iff.1 hl).2
  have hpr : (2 * pr + 1) / 2 = pr := by omega
  refine runs_fault (cls := 0x0C) rfl (by rw [hl, hh]; simp [hp]) (by decide) (fun _ => hal) ?_
  simp only [State.immediate, hpr, hh]
  rfl

end Errors

/-- Settles O33, command by command; that a die which fails hard is FAILED turns on `role_dieHard`, and that a lost port die
stays lost on `portDieLost_pdOut`. -/
theorem unitErrors : Obligations.UnitErrors := by
  unfold Obligations.UnitErrors
  refine ⟨fun a b s => runs_of rfl, fun a b s => runs_dieLinkFail, ?_, ?_, ?_, ?_, ?_, ?_, ?_⟩
  · intro d s hd hr hp
    exact ⟨_, runs_rgfHard hd hr, rfl, role_dieHard hd hp, by simp [State.raise]⟩
  · intro n s hn hi hw
    exact ⟨_, runs_stackFail hn hi hw, rfl, rfl, rfl, rfl⟩
  · exact fun d s hd hp => ⟨runs_pdFail hd hp, portDieLost_pdOut s d⟩
  · exact fun k s hk => ⟨_, runs_mcFail hk, rfl, rfl, rfl⟩
  · intro s f h0 hl h4 hc
    obtain ⟨hin, hcause, hcls⟩ := containStart_shows (s := s) (cause := 2) (by decide) hl
    exact ⟨_, (report_s4 h0 hl h4).trans (enterContain_eq hc 2 f.cls), hin, hcause, hcls, containStart_pool s 2 f.cls⟩
  · intro k s hk ho hh
    exact ⟨_, runs_dirMismatch hk ho hh, rfl, rfl, rfl, rfl, rfl⟩
  · intro pr s hp hl hh
    exact ⟨_, runs_lockstepMismatch hp hl hh, rfl, rfl, rfl, rfl⟩

end Sys2Proof.Proofs
end

section
/-! SUPPORT. Proofs of the statements on the PFTL link (spec/02_fabric_transactions.md): PROTOCOL flits, acknowledgement and
replay, and the link's timers. -/

namespace Sys2Proof.Proofs
open Sys2Proof Sys2Proof.Machine

/-! ### The acknowledgement of a flit (R40, R45) -/

/-- A link once it has taken the acknowledgement and the credit returns of a flit. -/
def ackedLink (f : List Byte) (l : Link) : Link :=
  let l := if flAckV f then
      match l.replayBuf.findIdx? (fun t => t.fseq == flAckSeq f) with
      | some i => { l with replayBuf := l.replayBuf.drop (i + 1), replays := 0 }
      | none => l
    else l
  { l with returned := (l.returned.set (flCraPool f) (flCraCnt f)).set (flCrbPool f) (flCrbCnt f) }

theorem link_takeAck (s : State) (p : Nat) (f : List Byte) : (s.takeAck p f).link p = ackedLink f (s.link p) :=
  link_updLink_same s p _

theorem port_takeAck_ne (s : State) {p q : Nat} (f : List Byte) (h : q ≠ p) : (s.takeAck p f).port q = s.port q :=
  port_updLink_ne s _ h

/-- What an acknowledgement changes of a link, beside the returned pools: the replay buffer and the count of replays. -/
theorem ackedLink_cases (f : List Byte) (l : Link) :
    (∃ i, flAckV f = true ∧ l.replayBuf.findIdx? (fun t => t.fseq == flAckSeq f) = some i ∧
      ackedLink f l = { l with
        replayBuf := l.replayBuf.drop (i + 1), replays := 0
        returned := (l.returned.set (flCraPool f) (flCraCnt f)).set (flCrbPool f) (flCrbCnt f) }) ∨
    ((flAckV f = true → l.replayBuf.findIdx? (fun t => t.fseq == flAckSeq f) = none) ∧
      ackedLink f l = { l with returned := (l.returned.set (flCraPool f) (flCraCnt f)).set (flCrbPool f) (flCrbCnt f) }) := by
  unfold ackedLink
  cases hv : flAckV f
  · exact .inr ⟨nofun, rfl⟩
  · cases hi : l.replayBuf.findIdx? (fun t => t.fseq == flAckSeq f) with
    | none => exact .inr ⟨fun _ => rfl, rfl⟩
    | some i => exact .inl ⟨i, rfl, rfl, rfl⟩

theorem ackedLink_returned (f : List Byte) (l : Link) :
    (ackedLink f l).returned = (l.returned.set (flCraPool f) (flCraCnt f)).set (flCrbPool f) (flCrbCnt f) := by
  obtain ⟨i, -, -, h⟩ | ⟨-, h⟩ := ackedLink_cases f l <;> rw [h]

theorem ackedLink_rxNext (f : List Byte) (l : Link) : (ackedLink f l).rxNext = l.rxNext := by
  obtain ⟨i, -, -, h⟩ | ⟨-, h⟩ := ackedLink_cases f l <;> rw [h]

theorem ackedLink_spent (f : List Byte) (l : Link) : (ackedLink f l).spent = l.spent := by
  obtain ⟨i, -, -, h⟩ | ⟨-, h⟩ := ackedLink_cases f l <;> rw [h]

/-- Without ACKV nothing of the replay buffer is free. -/
theorem ackedLink_noAck {f : List Byte} (h : flAckV f = false) (l : Link) : (ackedLink f l).replayBuf = l.replayBuf := by
  obtain ⟨i, hv, -, -⟩ | ⟨-, he⟩ := ackedLink_cases f l
  · simp [h] at hv
  · rw [he]

/-- A number that the buffer does not hold frees nothing of it. -/
theorem ackedLink_unknown {f : List Byte} {l : Link} (h : ∀ y ∈ l.replayBuf, y.fseq ≠ flAckSeq f) :
    (ackedLink f l).replayBuf = l.replayBuf := by
  obtain ⟨i, -, hi, -⟩ | ⟨-, he⟩ := ackedLink_cases f l
  · have hn : l.replayBuf.findIdx? (fun t => t.fseq == flAckSeq f) = none := List.findIdx?_eq_none_iff.2 (by simpa using h)
    simp [hn] at hi
  · rw [he]

/-- A number that the buffer holds frees it up to the first flit of that number. -/
theorem ackedLink_known {f : List Byte} {l : Link} {pre post : List TxFlit} {x : TxFlit} (hv : flAckV f = true)
    (hl : l.replayBuf = pre ++ x :: post) (hx : x.fseq = flAckSeq f) (hpre : ∀ y ∈ pre, y.fseq ≠ flAckSeq f) :
    (ackedLink f l).replayBuf = post ∧ (ackedLink f l).replays = 0 := by
  have hnone : pre.findIdx? (fun t => t.fseq == flAckSeq f) = none := List.findIdx?_eq_none_iff.2 (by simpa using hpre)
  have hfound : l.replayBuf.findIdx? (fun t => t.fseq == flAckSeq f) = some pre.length := by
    rw [hl, List.findIdx?_append, hnone]
    simp [List.findIdx?_cons, hx]
  obtain ⟨i, -, hi, he⟩ | ⟨hn, -⟩ := ackedLink_cases f l
  · obtain rfl : pre.length = i := by simpa [hfound] using hi
    rw [he, hl]
    simp
  · simp [hn hv] at hfound

/-! ### Flits that carry no message (R40 to R42) -/

theorem emitFlit_regs (s : State) (p a b c : Nat) (sl : List Byte) : (s.emitFlit p a b c sl).regs = s.regs := rfl
theorem emitFlit_pool (s : State) (p a b c : Nat) (sl : List Byte) : (s.emitFlit p a b c sl).pool = s.pool := rfl
theorem emitFlit_sw (s : State) (p a b c : Nat) (sl : List Byte) : (s.emitFlit p a b c sl).sw = s.sw := rfl

/-- A flit that fails leaves a NAK on the link, and changes nothing but the link and the output (R41). -/
theorem nakFlit_link (s : State) (p : Nat) :
    ((s.nakFlit p).link p).nakWait = true ∧ ((s.nakFlit p).link p).rxNext = (s.link p).rxNext := by
  unfold State.nakFlit
  split
  · exact ⟨‹_›, rfl⟩
  · simp [State.sendNak, emitFlit_link, link_updLink_same]

theorem nakFlit_regs (s : State) (p : Nat) : (s.nakFlit p).regs = s.regs := by unfold State.nakFlit; split <;> rfl
theorem nakFlit_pool (s : State) (p : Nat) : (s.nakFlit p).pool = s.pool := by unfold State.nakFlit; split <;> rfl
theorem nakFlit_sw (s : State) (p : Nat) : (s.nakFlit p).sw = s.sw := by unfold State.nakFlit; split <;> rfl

/-- A NAK goes out, unless one is waiting. -/
theorem nakFlit_out_waiting {s : State} {p : Nat} (h : (s.link p).nakWait = true) : (s.nakFlit p).out = s.out := by
  simp [State.nakFlit, h]

theorem nakFlit_out {s : State} {p : Nat} (h : (s.link p).nakWait = false) :
    (s.nakFlit p).out = .flit p (mkFlit (Link.hdr { s.link p with nakWait := true } 2 0 0) []) :: s.out := by
  simp [State.nakFlit, h, State.sendNak, emitFlit_out, link_updLink_same]
  rfl

/-! ### PROTOCOL flits (R38, R40, R41) -/

/-- The link once the flit it expects has come: the next one is expected, and one more is to be acknowledged. -/
def flitCame (s : State) (p : Nat) : State :=
  s.updLink p (fun l => { l with rxNext := (l.rxNext + 1) % 4096, nakWait := false, ackV := true, unacked := l.unacked + 1 })

section ProtocolFlit

variable {p : Nat} {f : List Byte} {s : State}

/-- A flit with the expected FSEQ is taken, and acknowledged at the latest after 32. -/
theorem runs_protocolFlit_expected (hp : p < 320) (hf : s.flits p = true) (hok : flitOk f = true) (ht : flType f = 1)
    (hq : flSeq f = ((s.takeAck p f).link p).rxNext) :
    Runs (.protocolFlit p f) s
      (if 32 ≤ ((((flitCame (s.takeAck p f) p).takeFlit p f).link p).unacked) then
        ((flitCame (s.takeAck p f) p).takeFlit p f).sendIdle p else (flitCame (s.takeAck p f) p).takeFlit p f) := by
  have he : exec (.protocolFlit p f) s = execProtocolFlit p f s := rfl
  refine runs_of (he.trans ?_)
  rw [execProtocolFlit, if_neg (by simp [hf, hok, ht, hp]), if_neg (not_not.2 hq)]
  rfl

/-- A flit with another FSEQ is discarded. -/
theorem runs_protocolFlit_other (hp : p < 320) (hf : s.flits p = true) (hok : flitOk f = true) (ht : flType f = 1)
    (hq : flSeq f ≠ ((s.takeAck p f).link p).rxNext) : Runs (.protocolFlit p f) s ((s.takeAck p f).nakFlit p) := by
  have he : exec (.protocolFlit p f) s = execProtocolFlit p f s := rfl
  refine runs_of (he.trans ?_)
  rw [execProtocolFlit, if_neg (by simp [hf, hok, ht, hp]), if_pos hq]
  rfl

end ProtocolFlit

/-- Settles O1: the two branches of the flit's check; what a discarded flit leaves is that of `nakFlit`. -/
theorem protocolFlitTaken : Obligations.ProtocolFlitTaken := by
  unfold Obligations.ProtocolFlitTaken
  refine ⟨fun p f s hp hf hok ht hq => ?_, fun p f s hp hf hok ht hq => ?_⟩
  · exact ⟨flitCame (s.takeAck p f) p, _, runs_protocolFlit_expected hp hf hok ht hq, link_updLink_same _ _ _,
      fun q h => (port_updLink_ne _ _ h).trans (port_takeAck_ne s f h), rfl, rfl, rfl⟩
  · obtain ⟨hnak, hnext⟩ := nakFlit_link (s.takeAck p f) p
    exact ⟨_, runs_protocolFlit_other hp hf hok ht hq, hnak, hnext, nakFlit_regs _ _, nakFlit_pool _ _, nakFlit_sw _ _,
      nakFlit_out_waiting, nakFlit_out⟩

/-! ### The other flits and timers of a link (R37, R40 to R42) -/

section Timers

variable {p : Nat} {f : List Byte} {s : State}

theorem runs_idleFlit (hp : p < 320) (hf : s.flits p = true) (hok : flitOk f = true) (ht : flType f = 0) :
    Runs (.idleFlit p f) s (s.takeAck p f) := by
  have he : exec (.idleFlit p f) s = execIdleFlit p f s := rfl
  exact runs_of (he.trans (by simp [execIdleFlit, hp, hf, hok, ht, settled]))

theorem runs_nak (hp : p < 320) (hf : s.flits p = true) (hok : flitOk f = true) (ht : flType f = 2) :
    Runs (.nak p f) s ((s.takeAck p f).replay p) := by
  have he : exec (.nak p f) s = execNak p f s := rfl
  exact runs_of (he.trans (by simp [execNak, hp, hf, hok, ht, settled]))

theorem runs_replayTimeout (hp : p < 320) (hf : s.flits p = true) (hb : (s.link p).replayBuf ≠ []) :
    Runs (.replayTimeout p) s (s.replay p) := by
  have he : exec (.replayTimeout p) s = execReplayTimeout p s := rfl
  exact runs_of (he.trans (by simp [execReplayTimeout, hp, hf, hb, settled]))

theorem runs_nakRepeat (hp : p < 320) (hf : s.flits p = true) (hn : (s.link p).nakWait = true) :
    Runs (.nakRepeat p) s (s.sendNak p) := by
  have he : exec (.nakRepeat p) s = execNakRepeat p s := rfl
  exact runs_of (he.trans (by simp [execNakRepeat, hp, hf, hn, settled]))

theorem runs_ackDeadline (hp : p < 320) (hf : s.flits p = true) (hu : (s.link p).unacked ≠ 0) :
    Runs (.ackDeadline p) s (s.sendIdle p) := by
  have he : exec (.ackDeadline p) s = execAckDeadline p s := rfl
  exact runs_of (he.trans (by simp [execAckDeadline, hp, hf, hu, settled]))

/-- A flit whose CRC fails on an ACTIVE port is counted and answered as one that fails (R37, R41). -/
theorem runs_crcFailure (hp : p < 320) (hm : s.isPftl p = true) (hl : s.lstate p = 2) (ha : s.active p = true) :
    Runs (.crcFailure p) s ((s.bump .PRT_CRC_ERR_COUNT p).nakFlit p) := by
  have he : exec (.crcFailure p) s = execCrcFailure p s := rfl
  have ha' : (s.bump .PRT_CRC_ERR_COUNT p).active p = true := by
    unfold State.active State.bump at *
    rwa [rd_wr_fld _ _ _ _ _ _ (by decide)]
  exact runs_of (he.trans (by simp [execCrcFailure, hp, hm, hl, ha', settled]))

end Timers

/-- A counter counts one more, and stays within its field (R485). -/
theorem rd_bump_same (s : State) (f : Fld) (i j n : Nat) :
    (s.bump f i j n).rd f i j = min (s.rd f i j + n) (2 ^ f.width - 1) := by
  rw [State.bump, rd_wr_same, Nat.mod_eq_of_lt]
  have : 0 < 2 ^ f.width := Nat.two_pow_pos _
  omega

/-- Settles O2: the acknowledgement clause by clause from what it changes of a link, then one command each. -/
theorem linkAcksAndTimers : Obligations.LinkAcksAndTimers := by
  unfold Obligations.LinkAcksAndTimers
  refine ⟨fun p f s => ?_, fun p f s => runs_idleFlit, fun p f s => runs_nak, fun p s => runs_replayTimeout, ?_, ?_, ?_⟩
  · rw [link_takeAck]
    exact ⟨ackedLink_returned _ _, fun h => ackedLink_noAck h _, fun pre post x => ackedLink_known,
      fun _ h => ackedLink_unknown h, ackedLink_rxNext _ _, ackedLink_spent _ _, fun q => port_takeAck_ne s f, rfl, rfl, rfl, rfl⟩
  · intro p s hp hf hn
    have hl := emitFlit_link s p 2 0 0 []
    exact ⟨_, runs_nakRepeat hp hf hn, emitFlit_out _ _ _ _ _ _, by rw [State.sendNak, hl], by rw [State.sendNak, hl, hn], rfl, rfl⟩
  · intro p s hp hf hu
    have hl := emitFlit_link s p 0 0 0 []
    exact ⟨_, runs_ackDeadline hp hf hu, emitFlit_out _ _ _ _ _ _, by rw [State.sendIdle, hl], rfl, rfl⟩
  · intro p s hp hm hl ha hn
    obtain ⟨hnak, hnext⟩ := nakFlit_link (s.bump .PRT_CRC_ERR_COUNT p) p
    refine ⟨_, runs_crcFailure hp hm hl ha, ?_, hnak, hnext, nakFlit_out hn, nakFlit_pool _ _⟩
    rw [rd_congr (nakFlit_regs _ _), rd_bump_same]
    rfl

end Sys2Proof.Proofs
end

section
/-! SUPPORT. Proofs of the statements on ingress (spec/02_fabric_transactions.md): what the checks of Table 2.11 do with a request,
and the distance limit of R50. -/

namespace Sys2Proof.Proofs
open Sys2Proof Sys2Proof.Machine

/-! ### Headers -/

/-- A bit of a header is one of the field it lies in. -/
theorem getLsbD_mkHdr (l : List (Nat × Nat × Nat)) {b : Nat} (hb : b < 128) :
    (mkHdr l).getLsbD b = l.any (fun e => decide (e.1 ≤ b ∧ b < e.1 + e.2.1) && e.2.2.testBit (b - e.1)) := by
  induction l with
  | nil => simp [mkHdr]
  | cons e l ih =>
    obtain ⟨lo, n, v⟩ := e
    simp only [mkHdr, BitVec.getLsbD_or, ih, List.any_cons, BitVec.getLsbD_ofNat, hb, decide_true, Bool.true_and,
      Nat.testBit_mul_two_pow, Nat.testBit_mod_two_pow]
    congr 1
    by_cases h : lo ≤ b
    · by_cases h' : b < lo + n
      · simp [h, h', show b - lo < n by omega]
      · simp [h, h', show ¬ b - lo < n by omega]
    · simp [h]

/-- A final response travels in the class it is given. -/
theorem mSc_respMsg (sc src dst seq : Nat) (x : Resp) : mSc (respMsg sc src dst seq x) = sc % 8 := by
  apply Nat.eq_of_testBit_eq
  intro i
  rw [mSc, testBit_hbits, show (8 : Nat) = 2 ^ 3 from rfl, Nat.testBit_mod_two_pow]
  by_cases hi : i < 3
  · rw [respMsg, getLsbD_mkHdr _ (by omega)]
    interval_cases i <;> simp [commonHdr]
  · simp [hi]

theorem mSc_lt (m : Msg) : mSc m < 8 := Nat.mod_lt _ (by decide)

/-! ### Counters (R485) -/

theorem rd_bump_fld (s : State) {f g : Fld} (i j n i' j' : Nat) (h : f ≠ g) : (s.bump f i j n).rd g i' j' = s.rd g i' j' :=
  rd_wr_fld _ _ _ _ _ _ h

theorem rd_advance_fld (s : State) {f g : Fld} (i j n i' j' : Nat) (h : f ≠ g) :
    (s.advance f i j n).rd g i' j' = s.rd g i' j' := rd_wr_fld _ _ _ _ _ _ h

/-! ### A message that a port die makes for one of its ports (R96, R99) -/

/-- It, where it waits for room. -/
def waitingHere (s : State) (p cls sub : Nat) (m : Msg) : Cross :=
  { org := s.portDie p, dst := s.portDie p, xsn := 0, plane := noPlane, point := p, cls := cls, sub := sub, msg := m,
    mcast := none }

section SendLocal

variable (s : State) (p cls sub : Nat) (m : Msg)

/-- What becomes of it: into egress at once where the port takes it, or behind what waits for room there. -/
theorem sendLocal_cases :
    (s.Takes p cls (mSlots m) ∧ s.sendLocal p cls sub m = s.toEgress p cls sub m) ∨
    (¬ s.Takes p cls (mSlots m) ∧ ∃ c : Cross, c.point = p ∧ c.msg = m ∧
      s.sendLocal p cls sub m = { s with sw := { s.sw with voq := s.sw.voq ++ [c] } }) := by
  by_cases h : s.Takes p cls (mSlots m)
  · obtain ⟨hq, hr⟩ := h
    exact .inl ⟨⟨hq, hr⟩, by simp only [State.sendLocal, hq, hr]; rfl⟩
  · refine .inr ⟨h, waitingHere s p cls sub m, rfl, rfl, ?_⟩
    rw [State.sendLocal, if_pos]
    · rfl
    · by_contra hc
      exact h (by simpa [State.Takes] using hc)

theorem sendLocal_pool : (s.sendLocal p cls sub m).pool = s.pool := by
  obtain ⟨-, h⟩ | ⟨-, c, -, -, h⟩ := sendLocal_cases s p cls sub m
  · rw [h]; rfl
  · rw [h]

theorem sendLocal_home : (s.sendLocal p cls sub m).home = s.home := by
  obtain ⟨-, h⟩ | ⟨-, c, -, -, h⟩ := sendLocal_cases s p cls sub m
  · rw [h]; rfl
  · rw [h]

theorem sendLocal_coh : (s.sendLocal p cls sub m).coh = s.coh := by
  obtain ⟨-, h⟩ | ⟨-, c, -, -, h⟩ := sendLocal_cases s p cls sub m
  · rw [h]; rfl
  · rw [h]

theorem sendLocal_ports : (s.sendLocal p cls sub m).ports = s.ports := by
  obtain ⟨-, h⟩ | ⟨-, c, -, -, h⟩ := sendLocal_cases s p cls sub m
  · rw [h]; rfl
  · rw [h]

/-- It changes no register but the count of egress slots in use. -/
theorem rd_sendLocal {f : Fld} (hf : f ≠ .SWC_BUF_EGR_USED) (i j : Nat) : (s.sendLocal p cls sub m).rd f i j = s.rd f i j := by
  obtain ⟨-, h⟩ | ⟨-, c, -, -, h⟩ := sendLocal_cases s p cls sub m
  · rw [h, State.toEgress, rd_advance_fld _ _ _ _ _ _ hf.symm]
    rfl
  · rw [h]
    rfl

/-- It is the answer of the port's die to its agent. -/
theorem answers_sendLocal : Answers s (s.sendLocal p (mSc m) sub m) p m := by
  obtain ⟨ht, h⟩ | ⟨ht, c, hp, hm, h⟩ := sendLocal_cases s p (mSc m) sub m
  · refine ⟨fun _ => ?_, fun hn => absurd ht hn⟩
    simp [h, State.toEgress]
  · refine ⟨fun hy => absurd hy ht, fun _ => ?_⟩
    simp [h, hp, hm]

end SendLocal

/-- What the port takes depends on the switch and on the port map and the egress limit. -/
theorem takes_congr {s t : State} (hsw : t.sw = s.sw)
    (hrd : ∀ f ∈ [Fld.PRT_CFG_DIE, .PRT_CFG_MODE, .SWC_EGR_CAP_CAP], ∀ i, t.rd f i = s.rd f i) (p cls n : Nat) :
    t.Takes p cls n ↔ s.Takes p cls n := by
  have hdie : ∀ q, t.rd .PRT_CFG_DIE q = s.rd .PRT_CFG_DIE q := hrd _ (by decide)
  have hmode : ∀ q, t.rd .PRT_CFG_MODE q = s.rd .PRT_CFG_MODE q := hrd _ (by decide)
  have hcap : t.rd .SWC_EGR_CAP_CAP = s.rd .SWC_EGR_CAP_CAP := hrd _ (by decide) 0
  have hload : ∀ q, t.egrLoad q = s.egrLoad q := fun q => by simp only [State.egrLoad, hsw]
  have hports : ∀ d, t.diePorts d = s.diePorts d := fun d => by simp only [State.diePorts, hdie, hmode]
  simp only [State.Takes, State.egrRoom, State.portDie, hsw, hdie, hcap, hload, hports]

/-- An answer made in a state that differs from `s` in neither is one from `s`. -/
theorem answers_of_takes {s s' t : State} {p : Nat} {m : Msg} (h : Answers s' t p m) (hsw : s'.sw = s.sw)
    (ht : s'.Takes p (mSc m) (mSlots m) ↔ s.Takes p (mSc m) (mSlots m)) : Answers s t p m := by
  simpa only [Answers, hsw, ht] using h

/-- What else a die does to queues and ports is no part of its answer. -/
theorem answers_then {s t u : State} {p : Nat} {m : Msg} (h : Answers s t p m) (he : u.sw.egr = t.sw.egr)
    (hv : u.sw.voq = t.sw.voq) : Answers s u p m := by
  simpa only [Answers, he, hv] using h

/-! ### Refusal at ingress (R64, R80) -/

theorem climb_outst (q : Source) (n : Nat) : (q.climb n).outst = q.outst := by
  induction n generalizing q with
  | zero => rfl
  | succ n ih =>
    unfold Source.climb
    split
    · exact ih _
    · rfl

theorem settle_outst (q : Source) (n : Nat) : (q.settle n).outst = q.outst := by
  unfold Source.settle
  split
  · rfl
  · exact climb_outst _ _

theorem hear_outst (q : Source) (n : Nat) : (q.hear n).outst = q.outst := by
  simp only [Source.hear, apply_ite Source.outst, ite_self]

section Refuse

variable (s : State) (p : Nat) (m : Msg) (st : Nat) (held : Bool)

/-- A source that has heard of a number, where the number is one it may use. -/
def heard (q : Source) (n : Nat) : Source := if q.inWindow n then q.hear n else q

theorem heard_outst (q : Source) (n : Nat) : (heard q n).outst = q.outst := by
  unfold heard
  split
  · exact hear_outst q n
  · rfl

/-- The state in which the port die has sent its answer to a request that it refuses. -/
def refusing : State :=
  let u := s.updSource p (fun q => heard q (mSeq m))
  u.sendLocal p (mSc m) (u.reqSub p (mSeq m)) (respMsg (mSc m) (mSrc m) (u.agentId p) (mSeq m) { status := st })

theorem refuseAs_eq : s.refuseAs p m st held = if held then refusing s p m st else (refusing s p m st).settleSeq p (mSeq m) := rfl

theorem source_refusing_outst : ((refusing s p m st).source p).outst = (s.source p).outst := by
  rw [State.source, State.port, refusing, sendLocal_ports]
  exact (congrArg Source.outst (source_updSource_same s p _)).trans (heard_outst _ _)

theorem refusing_answers :
    Answers s (refusing s p m st) p (respMsg (mSc m) (mSrc m) (s.agentId p) (mSeq m) { status := st }) := by
  have hc : mSc (respMsg (mSc m) (mSrc m) (s.agentId p) (mSeq m) { status := st }) = mSc m := by
    rw [mSc_respMsg, Nat.mod_eq_of_lt (mSc_lt m)]
  have h := answers_sendLocal (s.updSource p (fun q => heard q (mSeq m))) p
    ((s.updSource p (fun q => heard q (mSeq m))).reqSub p (mSeq m)) (respMsg (mSc m) (mSrc m) (s.agentId p) (mSeq m) { status := st })
  rw [hc] at h
  exact answers_of_takes h rfl (takes_congr rfl (fun _ _ _ => rfl) _ _ _)

theorem refuseAt_pool : (s.refuseAt p m st).pool = s.pool := by
  rw [State.refuseAt, refuseAs_eq]
  split <;> exact sendLocal_pool _ _ _ _ _

theorem refuseAt_home : (s.refuseAt p m st).home = s.home := by
  rw [State.refuseAt, refuseAs_eq]
  split <;> exact sendLocal_home _ _ _ _ _

theorem refuseAt_coh : (s.refuseAt p m st).coh = s.coh := by
  rw [State.refuseAt, refuseAs_eq]
  split <;> exact sendLocal_coh _ _ _ _ _

theorem rd_refuseAt {f : Fld} (hf : f ≠ .SWC_BUF_EGR_USED) (i j : Nat) : (s.refuseAt p m st).rd f i j = s.rd f i j := by
  rw [State.refuseAt, refuseAs_eq]
  split <;> exact rd_sendLocal _ _ _ _ _ hf i j

theorem source_refuseAt_outst : ((s.refuseAt p m st).source p).outst = (s.source p).outst := by
  rw [State.refuseAt, refuseAs_eq]
  split
  · exact source_refusing_outst s p m st
  · have hs := source_updSource_same (refusing s p m st) p (fun q => q.settle (mSeq m))
    exact ((congrArg Source.outst hs).trans (settle_outst _ _)).trans (source_refusing_outst s p m st)

theorem refuseAt_answers :
    Answers s (s.refuseAt p m st) p (respMsg (mSc m) (mSrc m) (s.agentId p) (mSeq m) { status := st }) := by
  rw [State.refuseAt, refuseAs_eq]
  split
  · exact refusing_answers s p m st
  · exact answers_then (refusing_answers s p m st) rfl rfl

end Refuse

/-! ### What ingress does with a request (Table 2.11) -/

section Ingress

variable {s : State} {p : Nat} {m : Msg} {res : Nat}

theorem request_refused {st : Nat} {f : Fld} (hp : p < 320) (ha : s.active p = true) (hr : s.rd .PRT_PFTL_STAT_ROLE p ≠ 3)
    (hi : s.ingressCheck p m = .refuse st f) : s.request p m res = s.reject p m st f := by
  rw [State.request, if_pos ⟨hp, ha⟩, State.ingress, if_neg hr, hi]

theorem request_duplicate (hp : p < 320) (ha : s.active p = true) (hr : s.rd .PRT_PFTL_STAT_ROLE p ≠ 3)
    (hi : s.ingressCheck p m = .duplicate) : s.request p m res = s.bump .PRT_DUP_SEQ_COUNT p := by
  rw [State.request, if_pos ⟨hp, ha⟩, State.ingress, if_neg hr, hi]

theorem request_performed (hp : p < 320) (ha : s.active p = true) (hr : s.rd .PRT_PFTL_STAT_ROLE p ≠ 3)
    (hi : s.ingressCheck p m = .performed) : s.request p m res = s.bump .POOL_DUP_DISCARD_COUNT := by
  rw [State.request, if_pos ⟨hp, ha⟩, State.ingress, if_neg hr, hi]

/-- A request that passes the checks, and is no message, is let in. -/
theorem request_accepted (hp : p < 320) (ha : s.active p = true) (hr : s.rd .PRT_PFTL_STAT_ROLE p ≠ 3)
    (hi : s.ingressCheck p m = .accept) (hop : mOpc m ≠ opMSG) :
    s.request p m res = (s.open p m).letIn p { s.mkReq p m with res := res } := by
  rw [State.request, if_pos ⟨hp, ha⟩, State.ingress, if_neg hr, hi]
  simp only [if_neg hop, if_true]

/-- A refused request is counted in one of two counters. -/
theorem ingressCheck_refuse_fld {st : Nat} {f : Fld} (h : s.ingressCheck p m = .refuse st f) :
    f = .PRT_REFUSED_COUNT ∨ f = .PRT_SRC_MISMATCH_COUNT := by
  simp only [State.ingressCheck] at h
  repeat' split at h
  all_goals cases h
  all_goals simp

/-- A request that fails a check is counted, answered there, and neither performed nor outstanding. -/
theorem reject_shows (s : State) (p : Nat) (m : Msg) (st : Nat) {f : Fld} (hf : f = .PRT_REFUSED_COUNT ∨ f = .PRT_SRC_MISMATCH_COUNT) :
    (s.reject p m st f).rd f p = min (s.rd f p + 1) (2 ^ f.width - 1) ∧ (s.reject p m st f).pool = s.pool ∧
      (s.reject p m st f).home = s.home ∧ (s.reject p m st f).coh = s.coh ∧
      ((s.reject p m st f).source p).outst = (s.source p).outst ∧
      Answers s (s.reject p m st f) p (respMsg (mSc m) (mSrc m) (s.agentId p) (mSeq m) { status := st }) := by
  have hne : f ≠ .SWC_BUF_EGR_USED ∧ f ≠ .PRT_PFTL_STAT_AGENT_ID ∧ f ∉ [Fld.PRT_CFG_DIE, .PRT_CFG_MODE, .SWC_EGR_CAP_CAP] := by
    rcases hf with rfl | rfl <;> decide
  obtain ⟨hegr, hid, hcfg⟩ := hne
  have hagent : (s.bump f p).agentId p = s.agentId p := rd_bump_fld _ _ _ _ _ _ hid
  have hans := refuseAt_answers (s.bump f p) p m st
  rw [hagent] at hans
  have htakes := takes_congr (s := s) (t := s.bump f p) rfl fun g hg i => rd_bump_fld _ _ _ _ _ _ (fun e => hcfg (e ▸ hg))
  exact ⟨(rd_refuseAt _ _ _ _ hegr _ _).trans (rd_bump_same _ _ _ _ _), refuseAt_pool _ _ _ _, refuseAt_home _ _ _ _,
    refuseAt_coh _ _ _ _, source_refuseAt_outst _ _ _ _, answers_of_takes hans rfl (htakes _ _ _)⟩

/-- An admitted request leaves its ingress region tagged, for the point of its die (R98, R104, R131). -/
theorem request_admitted (h : s.Admitted p m) :
    s.request p m res = (s.accepted p m res).2.toPoint (s.accepted p m res).1 := by
  obtain ⟨hp, ha, hr, hop, hc, hheld, htake, hroom, hpl⟩ := h
  have hl : (s.open p m).letIn p { s.mkReq p m with res := res } =
      ((s.open p m).tagged p { s.mkReq p m with res := res }).2.toPoint ((s.open p m).tagged p { s.mkReq p m with res := res }).1 := by
    have hheld' : (s.open p m).ingressHeld p = false := hheld
    have htake' : (s.open p m).portsTake = true := htake
    have hroom' : (s.open p m).lotRoom p m = true := hroom
    have hpl' : (s.open p m).planeUp m = true := hpl
    have hm : (State.mkReq s p m).msg = m := rfl
    simp only [State.letIn, hm, hheld', htake', hroom', hpl', Bool.false_and, Bool.not_true, Bool.true_or, if_true, if_false,
      Bool.false_eq_true]
  rw [request_accepted hp ha hr hc hop]
  exact hl

/-- Port dies take no message in containment. -/
theorem not_contained_of_admitted (h : s.Admitted p m) : s.contained = false := by
  obtain ⟨-, -, -, -, -, -, htake, -, -⟩ := h
  simpa using (Bool.and_eq_true_iff.1 htake).2

theorem opc_of_admitted (h : s.Admitted p m) : mOpc m ≠ opMSG := by
  obtain ⟨-, -, -, hop, -⟩ := h
  exact hop

/-- Outside containment a request that is no MSG waits at the point of its die, or passes it as it comes. -/
theorem toPoint_eq {r : Req} (hc : s.contained = false) (hop : mOpc r.msg ≠ opMSG) :
    s.toPoint r = s.passPoint (s.queuePoint r) r (fun s r => s.homeArrive r) := by
  rw [State.toPoint, if_neg (by simp [hc, hop])]

/-- What `passes` says of a request that is no MSG. -/
theorem passes_iff {u v : State} {r : Req} (hop : mOpc r.msg ≠ opMSG) :
    u.Passes v r ↔ u.atPoint (u.queuePoint r) (u.candOf r (u.queuePoint r) u.nextId u.cycle) = (true, v) := by
  rw [State.Passes, if_neg (fun h => hop h.1)]

/-- An admitted request that passes its point reaches its home. -/
theorem request_passes {v : State} (h : s.Admitted p m) (hv : (s.accepted p m res).2.Passes v (s.accepted p m res).1) :
    s.request p m res = v.homeArrive (s.accepted p m res).1 := by
  have hc : (s.accepted p m res).2.contained = false := not_contained_of_admitted (s := s) h
  have hop : mOpc (s.accepted p m res).1.msg ≠ opMSG := opc_of_admitted h
  rw [request_admitted h, toPoint_eq hc hop, State.passPoint, (passes_iff hop).1 hv, if_pos rfl]

/-- One that does not waits there. -/
theorem request_queued {v : State} (h : s.Admitted p m)
    (hv : (s.accepted p m res).2.atPoint ((s.accepted p m res).2.queuePoint (s.accepted p m res).1)
      ((s.accepted p m res).2.candOf (s.accepted p m res).1 ((s.accepted p m res).2.queuePoint (s.accepted p m res).1)
        (s.accepted p m res).2.nextId (s.accepted p m res).2.cycle) = (false, v)) :
    s.request p m res = v.queueAt ((s.accepted p m res).2.queuePoint (s.accepted p m res).1) (s.accepted p m res).1 := by
  have hc : (s.accepted p m res).2.contained = false := not_contained_of_admitted (s := s) h
  have hop : mOpc (s.accepted p m res).1.msg ≠ opMSG := opc_of_admitted h
  rw [request_admitted h, toPoint_eq hc hop, State.passPoint, hv, if_neg Bool.false_ne_true]

end Ingress

/-- A request of the commands that are requests runs as `request` does. -/
theorem runs_request {c : Instr} {s t : State} {p res : Nat} {m : Msg} (h : requestOf s c = some (p, m, res))
    (ht : s.request p m res = t) : Runs c s t :=
  runs_of (ht ▸ request_runs c s p m res h)

/-- An opcode that an agent may not send goes to the checks of a request (Table 2.5). -/
theorem runs_undefinedOpcode {s : State} {p : Nat} {m : Msg} (hr : s.rd .PRT_PFTL_STAT_ROLE p ≠ 3) (hq : isRequest (mOpc m) = false)
    (hh : mOpc m ≠ opHACK) (hd : mOpc m ≠ opDATA) : Runs (.undefinedOpcode p m) s (s.request p m) := by
  have he : exec (.undefinedOpcode p m) s = execUndefinedOpcode p m s := rfl
  exact runs_of (he.trans (by simp [execUndefinedOpcode, hr, hq, hh, hd, settled]))

/-- Settles O4: what ingress does with a request, verdict by verdict. -/
theorem requestChecks : Obligations.RequestChecks := by
  unfold Obligations.RequestChecks
  refine ⟨fun c s p m res hc ha => ⟨not_contained_of_admitted ha, fun v hv => ?_, ?_⟩, ?_, ?_, ?_, ?_⟩
  · exact runs_request hc (request_passes ha hv)
  · rintro q v rfl hv
    exact runs_request hc (request_queued ha hv)
  · intro c s p m res st f hc hp ha hr hi
    obtain ⟨hcount, hpool, hhome, -, hout, hans⟩ := reject_shows s p m st (ingressCheck_refuse_fld hi)
    exact ⟨_, runs_request hc (request_refused hp ha hr hi), hcount, hpool, hhome, hout, hans⟩
  · exact fun c s p m res hc hp ha hr hi => runs_request hc (request_duplicate hp ha hr hi)
  · exact fun c s p m res hc hp ha hr hi => runs_request hc (request_performed hp ha hr hi)
  · intro p m s hp ha hr hq hh hd
    have hi : s.ingressCheck p m = .refuse stREFUSED .PRT_REFUSED_COUNT := by simp [State.ingressCheck, check1, hq]
    have hrun := runs_undefinedOpcode hr hq hh hd
    rw [request_refused hp ha hr hi] at hrun
    obtain ⟨hcount, hpool, hhome, -, hout, hans⟩ := reject_shows s p m stREFUSED (.inl rfl)
    exact ⟨_, hrun, hcount, hans, hpool, hhome, hout⟩

/-! ### The distance limit (R50) -/

theorem seqFar_iff (a b : Nat) : seqFar a b = true ↔
    65536 < (a + 2 ^ 20 - b % 2 ^ 20) % 2 ^ 20 ∧ (a + 2 ^ 20 - b % 2 ^ 20) % 2 ^ 20 < 2 ^ 20 - 65536 := by
  simp [seqFar]

/-- A number too far from an unanswered request is outside the window. -/
theorem inWindow_of_far {q : Source} {n : Nat} {o : Outst} (ho : o ∈ q.outst) (hans : o.answered = false)
    (hfar : seqFar n o.seq = true) : q.inWindow n = false := by
  rw [Source.inWindow, List.all_eq_false]
  exact ⟨o, ho, by simp [hans, hfar]⟩

/-- One near every unanswered request is inside it. -/
theorem inWindow_of_near {q : Source} {n : Nat} (h : ∀ o ∈ q.outst, o.answered = false → seqFar n o.seq = false) :
    q.inWindow n = true := by
  rw [Source.inWindow, List.all_eq_true]
  intro o ho
  cases ha : o.answered
  · simp [h o ho ha]
  · rfl

/-- Settles O52: a request outside the window fails a check of Table 2.11, and what is refused is not performed. -/
theorem distanceLimit : Obligations.DistanceLimit := by
  unfold Obligations.DistanceLimit
  refine ⟨fun c s p m res o hc hp ha hr h1 hsrc hopen ho hans hlo hhi => ?_, fun q n h => ?_⟩
  · have hw := inWindow_of_far ho hans ((seqFar_iff _ _).2 ⟨hlo, hhi⟩)
    have hi : s.ingressCheck p m = .refuse stREFUSED .PRT_REFUSED_COUNT := by
      simp [State.ingressCheck, h1, hsrc, hopen, hw]
    obtain ⟨-, hpool, hhome, hcoh, hout, hans⟩ := reject_shows s p m stREFUSED (.inl rfl)
    exact ⟨_, runs_request hc (request_refused hp ha hr hi), hpool, hhome, hcoh, hout, hans⟩
  · refine inWindow_of_near fun o ho hans => ?_
    rw [← Bool.not_eq_true, seqFar_iff]
    have := h o ho hans
    omega

end Sys2Proof.Proofs
end

section
/-! SUPPORT. Refutation of the statement on frontiers and trays (spec/02_fabric_transactions.md): a cancel that takes a message out
of a receive area has those behind it written anew (R80), so it can change the pool's memory. -/

namespace Sys2Proof.Proofs
open Sys2Proof Sys2Proof.Machine

@[simp] theorem updSource_pool (s : State) (p : Nat) (f : Source → Source) : (s.updSource p f).pool = s.pool := rfl

/-- A MSG of one payload slot with number 0, which is to be cancelled, or 1. -/
def areaMsg (seq : Nat) : RxMsg :=
  { msg := { hdr := mkHdr (commonHdr opMSG 6 5 6 seq ++ [(45, 14, 16)]), payload := List.replicate 16 0xAB }
    fromPort := some 0, uplink := none, srcSw := 0, time := 0, base := 0, sub := 0, hdrSent := false }

/-- Port 0 has a cancel out for its number 0, whose MSG is being written into the receive area of agent 6 before that of its
number 1. The area is a ring of 4 KiB at address 0 of an ACTIVE Oasis extent. -/
def cancelInArea : State :=
  { State.reset with
    ports := [(0, { Port.init with srcq := { Source.init with cancels := [0] } })]
    agents := [(6, { Agent.init with rxaLog2 := 12, writing := [areaMsg 0, areaMsg 1] })]
    pool := { extents := [(0, { Extent.free with state := 1, base := 0, len := 1 })] } }

/-- The cancel has been taken from those that are out. -/
def cancelTaken : State := cancelInArea.updSource 0 (fun q => { q with cancels := q.cancels.filter (· != 0) })

/-- Discarding the first message writes the payload of the second one into the ring's second line, where its place now is. -/
theorem cancel_writes_area : memByte (cancelTaken.discard 0 0).pool.mem 64 = 0xAB := by decide +kernel

/-- Nothing was written there before. -/
theorem area_unwritten : memByte cancelInArea.pool.mem 64 = 0 := rfl

/-- Refutes O14: a cancel need not leave the pool's memory alone where no store to RXA_BASE waits. In `cancelInArea` none does, and
the message behind the cancelled one is written anew. -/
theorem not_frontiersAndTrays : ¬ Obligations.FrontiersAndTrays := by
  unfold Obligations.FrontiersAndTrays
  intro h
  obtain ⟨⟨-, -, hcancel, -⟩, -⟩ := h
  obtain ⟨u, t, -, -, hmem, -, ht, hu⟩ := hcancel 0 0 cancelInArea (by decide) (by decide)
  have hnone : ∀ e ∈ cancelInArea.agents, ∀ r, e.2.rxaPend = some r → isSeq 0 0 r = false := by
    simp [cancelInArea, Agent.init]
  have hpool : t.pool = (cancelTaken.discard 0 0).pool := by rw [ht, bump_pool, updSource_pool, hu, cancelTaken]
  have hsame := hmem hnone
  rw [hpool] at hsame
  have hw := cancel_writes_area
  rw [hsame, area_unwritten] at hw
  exact absurd hw (by decide)

end Sys2Proof.Proofs
end

section
/-! SUPPORT. Proofs of the statements on loads, stores and atomics of a plain extent (spec/02_fabric_transactions.md), from the
ingress of the request to the bytes of its line. -/

namespace Sys2Proof.Proofs
open Sys2Proof Sys2Proof.Machine

/-! ### The passage of a point -/

/-- From `s` to `t` a scheduling point has done its work: the pool is as it was, and of the registers only the largest depth
seen there may have changed (R144). -/
structure PointWork (s t : State) : Prop where
  pool : t.pool = s.pool
  rd : ∀ f i j, f ≠ .TM_QS_MAX_DEPTH → t.rd f i j = s.rd f i j

theorem PointWork.refl (s : State) : PointWork s s := ⟨rfl, fun _ _ _ _ => rfl⟩

theorem PointWork.trans {s t u : State} (h : PointWork s t) (g : PointWork t u) : PointWork s u :=
  ⟨g.pool.trans h.pool, fun f i j hf => (g.rd f i j hf).trans (h.rd f i j hf)⟩

theorem PointWork.foldl {α : Type} {f : State → α → State} (hf : ∀ s a, PointWork s (f s a)) (l : List α) (s : State) :
    PointWork s (l.foldl f s) := by
  induction l generalizing s with
  | nil => exact .refl s
  | cons a l ih => exact (hf s a).trans (ih _)

theorem pointWork_setSched (s : State) (k : Nat) (x : Sched) : PointWork s (s.setSched k x) := ⟨rfl, fun _ _ _ _ => rfl⟩

theorem pointWork_chargeTok (s : State) (k refill cost : Nat) : PointWork s (s.chargeTok k refill cost) := by
  unfold State.chargeTok
  split
  · exact .refl s
  · exact ⟨rfl, fun _ _ _ _ => rfl⟩

theorem pointWork_remember (s : State) (level : Nat) (node : Nat → Nat) (k : Pick) (cost : Nat) (more : Nat → Bool) :
    PointWork s (s.remember level node k cost more) :=
  (pointWork_setSched _ _ _).trans (.foldl (fun _ _ => pointWork_setSched _ _ _) _ _)

theorem pointWork_charge (s : State) (q : Nat) (x : Cand) : PointWork s (s.charge q x) := by
  unfold State.charge
  dsimp only
  split
  · exact (pointWork_chargeTok _ _ _ _).trans (pointWork_chargeTok _ _ _ _)
  · exact ((pointWork_chargeTok _ _ _ _).trans (pointWork_chargeTok _ _ _ _)).trans
      ((pointWork_chargeTok _ _ _ _).trans (pointWork_chargeTok _ _ _ _))

theorem pointWork_depths (s : State) (cs : List Cand) (q : Nat) :
    PointWork s ((List.range 8).foldl (fun s c =>
      if s.rd .TM_QS_MAX_DEPTH q c < depthOf cs c then s.wr .TM_QS_MAX_DEPTH (depthOf cs c) q c else s) s) := by
  refine .foldl (fun s c => ?_) _ _
  split
  · exact ⟨rfl, fun f i j hf => rd_wr_fld _ _ _ _ _ _ hf.symm⟩
  · exact .refl s

theorem pointWork_selectAt (s : State) (cs : List Cand) (q : Nat) : PointWork s (s.selectAt cs q).2 := by
  unfold State.selectAt
  dsimp only
  split
  · exact pointWork_depths s cs q
  · split
    · exact pointWork_depths s cs q
    · refine (pointWork_depths s cs q).trans (.trans ?_ ((pointWork_remember _ _ _ _ _ _).trans (pointWork_charge _ _ _)))
      split
      · exact .refl _
      · exact pointWork_remember _ _ _ _ _ _

theorem pointWork_atPoint (s : State) (q : Nat) (x : Cand) : PointWork s (s.atPoint q x).2 := by
  unfold State.atPoint
  split
  · exact pointWork_selectAt s [x] q
  · exact .refl s

theorem pointWork_of_passes {u v : State} {r : Req} (h : u.Passes v r) : PointWork u v := by
  unfold State.Passes at h
  split at h
  · exact h ▸ .refl u
  · have hw := pointWork_atPoint u (u.queuePoint r) (u.candOf r (u.queuePoint r) u.nextId u.cycle)
    rwa [h] at hw

/-- Accepting a request and the passage of its point leave the pool alone, and the registers but for the largest depth seen. -/
theorem pointWork_of_atHome {s v : State} {p res : Nat} {m : Msg} {r : Req} (h : s.AtHome v p m res r) : PointWork s v := by
  obtain ⟨-, ⟨u, hu, hv⟩, -⟩ := h
  have hacc : PointWork s u := by
    rw [show u = (s.accepted p m res).2 by rw [hu]]
    exact ⟨rfl, fun _ _ _ _ => rfl⟩
  exact hacc.trans (pointWork_of_passes hv)

/-! ### From the home to the page (Tables 7.6 and 8.2) -/

section AtPlain

variable {s v : State} {p : Nat} {m : Msg} {r : Req} {x : Extent}

/-- The request at its home is the one that was accepted. -/
theorem atHome_request {res : Nat} (h : s.AtHome v p m res r) : r.msg = m ∧ r.org = .port p := by
  obtain ⟨-, ⟨u, hu, -⟩, -⟩ := h
  rw [show r = (s.accepted p m res).1 by rw [hu]]
  exact ⟨rfl, rfl⟩

theorem request_atHome {res : Nat} (h : s.AtHome v p m res r) : s.request p m res = v.homeArrive r := by
  obtain ⟨ha, ⟨u, hu, hv⟩, -⟩ := h
  obtain ⟨rfl, rfl⟩ : (s.accepted p m res).1 = r ∧ (s.accepted p m res).2 = u := by rw [hu]; exact ⟨rfl, rfl⟩
  exact request_passes ha hv

/-- Outside the control window it is checked and performed at its home. -/
theorem homeArrive_pool {res : Nat} (h : s.AtHome v p m res r) (hw : inWindow (mAddr m) = false) : v.homeArrive r = v.poolAccess r := by
  obtain ⟨rfl, -⟩ := atHome_request h
  obtain ⟨ha, -, hal, hdep, hcon, hcar, hrel⟩ := h
  have hrel' : (isRelease r.msg && !v.relReady r) = false := by
    cases hi : isRelease r.msg
    · rfl
    · simp [hrel hi]
  simp only [State.homeArrive, hal, hdep, opc_of_admitted ha, hcon, hcar, hrel', hw, Bool.not_true, if_false, Bool.false_eq_true]

/-- A page of the Oasis range that may be accessed lets an access go, and the access counts no heat. -/
theorem gate_inOasis {pg : Nat} (h : v.InOasis pg) (count : Bool) : v.gate pg count = (.go, v) := by
  obtain ⟨h2, h3, hrw, herg, st, hst, hwait⟩ := h
  have hheat : v.heatCounted pg = false := by simp [State.heatCounted, State.heatPage, herg]
  have h23 : ¬ ((v.page pg).loc = 2 ∨ v.busy.rewrite.contains pg = true) := by rw [hrw]; simp [h2]
  simp only [State.gate, if_neg h23, if_neg h3, hst, hheat, hwait, and_false, if_false, Bool.false_eq_true]

theorem gateCounts_inOasis {pg : Nat} (h : v.InOasis pg) : v.gateCounts pg = true := by
  obtain ⟨h2, h3, hrw, herg, st, hst, hwait⟩ := h
  unfold State.gateCounts
  dsimp only
  rw [hst, hrw]
  simp [h2, h3]

/-- Where no run of the line is open, an access of such a page acts. -/
theorem viaTier_inOasis (h : v.InOasis (pageOf (mAddr r.msg))) (hrun : tfind v.home.runs (lineOf (mAddr r.msg)) = none)
    (act : State → Req → State) : v.viaTier r x act = act v { r with hot := true } := by
  have hend : v.endRun r.msg x = v := by
    unfold State.endRun
    split
    · rfl
    · simp [State.applyRun, hrun]
  simp only [State.viaTier, hend, gate_inOasis h, gateCounts_inOasis h, Bool.or_true]

/-- A request that a plain extent serves acts on it. -/
theorem request_atPlain (h : s.AtPlain v p m r x) (hrun : tfind v.home.runs (lineOf (mAddr m)) = none)
    (hop : plainOpc (mOpc m) = true) : s.request p m 0 = v.plainAct { r with hot := true } x := by
  obtain ⟨⟨hh, hw, ⟨i, hx⟩, hst, hin⟩, hcoh, hpub⟩ := h
  rw [request_atHome hh, homeArrive_pool hh hw]
  obtain ⟨rfl, -⟩ := atHome_request hh
  have hcheck : extentCheck (some (i, x)) = none := by simp [extentCheck, hst]
  simp only [State.poolAccess, hx, hcheck, hcoh, hpub, State.plainPath, hop, if_true, if_false, Bool.false_eq_true]
  exact viaTier_inOasis hin hrun _

/-- What `AtPlain` says of the request and of its line. -/
theorem atPlain_shows (h : s.AtPlain v p m r x) :
    r.msg = m ∧ r.org = .port p ∧ ergPage (lineOf (mAddr m) / 1024) = false ∧ check1 m (ownBlock m (s.agentId p)) = true ∧
      PointWork s v := by
  obtain ⟨⟨hh, -, -, -, -, -, -, herg, -⟩, -⟩ := h
  obtain ⟨hmsg, horg⟩ := atHome_request hh
  have hpage : lineOf (mAddr m) / 1024 = pageOf (mAddr m) := Nat.div_div_eq_div_mul _ _ _
  refine ⟨hmsg, horg, hpage ▸ herg, ?_, pointWork_of_atHome hh⟩
  obtain ⟨⟨-, -, -, -, hacc, -⟩, -⟩ := hh
  by_contra hc
  rw [Bool.not_eq_true] at hc
  simp [State.ingressCheck, hc] at hacc

end AtPlain

/-! ### The bytes of a line (R57, R185) -/

section Lines

variable {s : State} {l : Nat}

/-- What a byte of the memory reads as after a write of bytes. -/
theorem memByte_memWrite (mem : List Host.Cell) (b a : Nat) (bs : List Byte) :
    memByte (memWrite mem b bs) a = if b ≤ a ∧ a < b + bs.length then bs.getD (a - b) 0 else memByte mem a := by
  split
  next h =>
    have hi : a - b < bs.length := by omega
    have hw := memByte_memWrite_in mem b bs (a - b) hi
    rwa [Nat.add_sub_cancel' h.1, ← List.getD_eq_getElem _ 0 hi] at hw
  next h => exact memByte_memWrite_out mem b bs (by omega)

theorem linePsn_setPsn_same (s : State) (l : Nat) (b : Bool) : (s.setPsn l b).linePsn l = b := tget_tset_same _ _ _ _

theorem linePsn_setPsn_ne (s : State) {l l' : Nat} (b : Bool) (h : l' ≠ l) : (s.setPsn l b).linePsn l' = s.linePsn l' :=
  tget_tset_ne _ _ _ _ h.symm

/-- A line without symbols in error is read as it is stored; a poisoned one is counted (R185). -/
theorem readLine_sound (h : s.badSyms l = 0) :
    s.readLine l = ((s.lineBytes l, s.linePsn l), if s.linePsn l then s.bump .POOL_POISON_RD_COUNT else s) := by
  simp [State.readLine, State.checkLine, h]

theorem checkLine_sound (h : s.badSyms l = 0) : s.checkLine l = (none, s) := by simp [State.checkLine, h]

/-- The state in which `bs` has been written at `off` of a line: the bytes, and the line's PSN where that becomes known. -/
def written (s : State) (l off : Nat) (bs : List Byte) (psn : Bool) : State :=
  if bs.length = 64 then ((s.clearSym l).putLine l 0 bs).setPsn l psn
  else if psn then (s.putLine l off bs).setPsn l true else s.putLine l off bs

/-- A write to a line without symbols in error, and its status (Table 7.9). -/
theorem writeLine_sound (h : s.badSyms l = 0) (off : Nat) (bs : List Byte) (psn : Bool) :
    s.writeLine l off bs psn =
      (if psn = false ∧ bs.length ≠ 64 ∧ s.linePsn l = true then stPOISON else stOK, written s l off bs psn) := by
  rw [State.writeLine, checkLine_sound h, written]
  split
  next h64 => simp [h64]
  next h64 =>
    cases psn
    · by_cases hp : s.linePsn l = true <;> simp [h64, hp]
    · simp

variable (off : Nat) (bs : List Byte) (psn : Bool)

/-- The bytes written are those of the line from the offset on, and no other. -/
theorem memByte_written (hoff : bs.length = 64 → off = 0) (a : Nat) :
    memByte (written s l off bs psn).pool.mem a =
      if 64 * l + off ≤ a ∧ a < 64 * l + off + bs.length then bs.getD (a - (64 * l + off)) 0 else memByte s.pool.mem a := by
  rw [← memByte_memWrite, written]
  split
  next h64 => rw [hoff h64]; rfl
  next => split <;> rfl

theorem linePsn_written :
    (written s l off bs psn).linePsn l = if psn then true else if bs.length = 64 then false else s.linePsn l := by
  rw [written]
  split
  next h64 => rw [linePsn_setPsn_same]; cases psn <;> rfl
  next h64 =>
    cases psn
    · rfl
    · exact linePsn_setPsn_same _ _ _

theorem linePsn_written_ne {l' : Nat} (h : l' ≠ l) : (written s l off bs psn).linePsn l' = s.linePsn l' := by
  rw [written]
  split
  next => exact linePsn_setPsn_ne _ _ h
  next =>
    split
    · exact linePsn_setPsn_ne _ _ h
    · rfl

theorem extents_written : (written s l off bs psn).pool.extents = s.pool.extents := by
  rw [written]
  split
  · rfl
  · split <;> rfl

/-- A store to a line of the Oasis range goes to its frame. -/
theorem storeLine_oasis (herg : ergPage (l / 1024) = false) (hbad : s.badSyms l = 0) (w : Via) :
    s.storeLine l off bs psn w =
      (if psn = false ∧ bs.length ≠ 64 ∧ s.linePsn l = true then stPOISON else stOK, written (s.closeRead l) l off bs psn) := by
  have hbad' : (s.closeRead l).badSyms l = 0 := hbad
  have htouch : ∀ t : State, t.touch (l / 1024) = t := fun t => by simp [State.touch, herg]
  have htray : ∀ t : State, t.onTray l = false := fun t => by simp [State.onTray, herg]
  rw [State.storeLine, writeLine_sound hbad' off bs psn]
  simp only [htouch, htray, if_false, Bool.false_eq_true]
  rfl

end Lines

/-! ### The answer of the home -/

theorem send_pool (s : State) (org p cls sub : Nat) (m : Msg) (ing : Option Nat) (cut : Bool) :
    (s.send org p cls sub m ing cut).pool = s.pool := by
  unfold State.send
  split <;> rfl

/-- The answer to a request of a port changes nothing of the pool. -/
theorem finish_port_pool {r : Req} {p : Nat} (h : r.org = .port p) (s : State) (x : Resp) : (s.finish r x).pool = s.pool := by
  have hf : s.finish r x = (s.markDone r).answer (s.homeOf (mAddr r.msg)) r x := by simp only [State.finish, h]
  have hm : (s.markDone r).pool = s.pool := by simp only [State.markDone, h, updSource_pool]
  simp only [hf, State.answer, State.answerFrom, h]
  split
  · rw [send_pool, hm]
  · exact hm

/-! ### Loads, stores and atomics whose page may be accessed -/

section Acts

variable {v : State} {r : Req} {x : Extent} (herg : ergPage (lineOf (mAddr r.msg) / 1024) = false)
  (hbad : v.badSyms (lineOf (mAddr r.msg)) = 0)

include herg in
theorem onTray_oasis : v.onTray (lineOf (mAddr r.msg)) = false := by simp [State.onTray, herg]

/-- The state in which a line has been read: a poisoned one is counted. -/
def lineRead (v : State) (l : Nat) : State := if v.linePsn l then v.bump .POOL_POISON_RD_COUNT else v

theorem lineRead_pool (v : State) (l : Nat) : (lineRead v l).pool = v.pool := by unfold lineRead; split <;> rfl

theorem rd_lineRead (v : State) (l : Nat) : (lineRead v l).rd .POOL_POISON_RD_COUNT =
    if v.linePsn l then min (v.rd .POOL_POISON_RD_COUNT + 1) (2 ^ 32 - 1) else v.rd .POOL_POISON_RD_COUNT := by
  unfold lineRead
  split
  · exact rd_bump_same _ _ _ _ _
  · rfl

/-- The data of a line, and its marks. -/
def lineResp (v : State) (m : Msg) : Resp :=
  { status := if v.linePsn (lineOf (mAddr m)) then stPOISON else stOK
    psn := v.linePsn (lineOf (mAddr m)), susp := v.lineSusp (lineOf (mAddr m)), grant := 0
    data := some (cutLine m (v.lineBytes (lineOf (mAddr m)))) }

include herg hbad in
/-- A read that is not combined is answered with the line. -/
theorem plainRead_alone (hc : v.on .SWC_CTL_COMB_EN = false) :
    v.plainRead r x = (lineRead v (lineOf (mAddr r.msg))).finish r (lineResp v r.msg) := by
  have hcomb : v.combines r.msg x = false := by simp [State.combines, hc]
  have hsusp : (lineRead v (lineOf (mAddr r.msg))).lineSusp = v.lineSusp := by
    funext l
    unfold State.lineSusp
    rw [lineRead_pool]
  have hresp : (lineRead v (lineOf (mAddr r.msg))).dataResp r.msg (v.lineBytes (lineOf (mAddr r.msg)))
      (v.linePsn (lineOf (mAddr r.msg))) = lineResp v r.msg := by
    simp [State.dataResp, lineResp, hsusp]
  simp only [State.plainRead, hcomb, onTray_oasis herg, readLine_sound hbad, Bool.false_and, if_false, Bool.false_eq_true,
    Bool.not_false, if_true]
  rw [← hresp]
  rfl

include herg hbad in
/-- A store that is not merged is written, and answered with its status. -/
theorem plainStore_alone {p : Nat} (horg : r.org = .port p) (hm : v.on .SWC_CTL_MRG_EN = false) :
    v.plainStore r x =
      (written (v.closeRead (lineOf (mAddr r.msg))) (lineOf (mAddr r.msg)) (mAddr r.msg % 64) (storeBytes r.msg) (mPsn r.msg)).finishCmp r
        (if mPsn r.msg = false ∧ (storeBytes r.msg).length ≠ 64 ∧ v.linePsn (lineOf (mAddr r.msg)) = true then stPOISON else stOK) := by
  have hmerge : v.merges r.msg x = false := by simp [State.merges, hm]
  have hdo : v.doStore r = (v.storeLine (lineOf (mAddr r.msg)) (mAddr r.msg % 64) (storeBytes r.msg) (mPsn r.msg) r.via).2.finishCmp r
      (v.storeLine (lineOf (mAddr r.msg)) (mAddr r.msg % 64) (storeBytes r.msg) (mPsn r.msg) r.via).1 := by
    simp only [State.doStore, horg]
  simp only [State.plainStore, hmerge, if_false, Bool.false_eq_true, hdo, storeLine_oasis _ _ _ herg hbad]

/-- The word that an atomic works on. -/
def oldWord (v : State) (m : Msg) : Nat := leVal (memRead v.pool.mem (mAddr m) (mSize m))

/-- The bytes that it leaves there (Table 2.6). -/
def newWord (v : State) (m : Msg) : List Byte :=
  leBytes (mSize m) (atomicOp (mAtop m) (mSigned m) (8 * mSize m) (oldWord v m) (atOperand m) (atCompare m))

/-- Its answer. -/
def atomicResp (v : State) (m : Msg) : Resp :=
  { status := if v.linePsn (lineOf (mAddr m)) then stPOISON else stOK
    psn := v.linePsn (lineOf (mAddr m)) && mFetch m
    susp := mFetch m && v.lineSusp (lineOf (mAddr m))
    data := if mFetch m then some (atSlot m (oldWord v m)) else none }

/-- The state it leaves: a poisoned line is not written (R185). -/
def atomicWritten (v : State) (m : Msg) : State :=
  if v.linePsn (lineOf (mAddr m)) then v
  else written (v.closeRead (lineOf (mAddr m))) (lineOf (mAddr m)) (mAddr m % 64) (newWord v m) (mPsn m)

include herg hbad in
theorem atomicDone_oasis : v.atomicDone r = (atomicResp v r.msg, atomicWritten v r.msg) := by
  cases hp : v.linePsn (lineOf (mAddr r.msg))
  · simp only [State.atomicDone, checkLine_sound hbad, hp, if_false, Bool.false_eq_true, storeLine_oasis _ _ _ herg hbad, atomicResp,
      atomicWritten, Bool.false_and]
    rfl
  · simp only [State.atomicDone, checkLine_sound hbad, hp, if_true, atomicResp, atomicWritten, Bool.true_and]
    rfl

include herg hbad in
/-- An atomic that is not combined is performed and answered. -/
theorem plainAtomic_alone {p : Nat} (horg : r.org = .port p) (hc : v.on .SWC_CTL_COMB_EN = false) :
    v.plainAtomic r x = (atomicWritten v r.msg).finish r (atomicResp v r.msg) := by
  have hcomb : v.combines r.msg x = false := by simp [State.combines, hc]
  have hhere : v.wordHere r.msg = true := by simp [State.wordHere, onTray_oasis herg]
  have hdo : v.doAtomic r = (v.atomicDone r).2.finish r (v.atomicDone r).1 := by simp only [State.doAtomic, horg]
  simp only [State.plainAtomic, hcomb, hhere, if_false, if_true, Bool.false_eq_true, hdo, atomicDone_oasis herg hbad]

end Acts

theorem length_slice (bs : List Byte) (o n : Nat) : (slice bs o n).length = n := by
  simp [slice]

theorem length_leBytes (n v : Nat) : (leBytes n v).length = n := by
  induction n generalizing v with
  | zero => rfl
  | succ n ih => simp [leBytes, ih]

/-- A byte address from its line and its place there. -/
theorem lineOf_add (a : Nat) : 64 * lineOf a + a % 64 = a := Nat.div_add_mod a 64

/-- A request that names 64 bytes begins with its line (R56). -/
theorem aligned_of_check1 {m : Msg} {own : Bool} (h : check1 m own = true) (hop : mOpc m ≠ opMSG) (h64 : mSize m = 64) :
    mAddr m % 64 = 0 := by
  have hs : sizeOk m = true := by
    simp only [check1, Bool.and_eq_true, Bool.or_eq_true, beq_iff_eq, hop, false_or] at h
    obtain ⟨⟨-, hs⟩, -⟩ := h
    exact hs
  simp only [sizeOk, Bool.and_eq_true, beq_iff_eq] at hs
  obtain ⟨hal, -⟩ := hs
  rwa [h64] at hal

/-! ### The commands -/

/-- A read of a plain extent, by its opcode. -/
theorem plainAct_read {v : State} {r : Req} {x : Extent} (h : mOpc r.msg = opLD ∨ mOpc r.msg = opNRD) :
    v.plainAct r x = v.plainRead r x := by
  rw [State.plainAct, if_pos h]

theorem plainAct_store {v : State} {r : Req} {x : Extent} (h : mOpc r.msg = opST ∨ mOpc r.msg = opNWR ∨ mOpc r.msg = opST_REL) :
    v.plainAct r x = v.plainStore r x := by
  have hn : ¬ (mOpc r.msg = opLD ∨ mOpc r.msg = opNRD) := by rcases h with h | h | h <;> rw [h] <;> decide
  rw [State.plainAct, if_neg hn, if_pos h]

theorem plainAct_atomic {v : State} {r : Req} {x : Extent} (h : mOpc r.msg = opAT) : v.plainAct r x = v.plainAtomic r x := by
  simp [State.plainAct, h]

/-- Settles O5: the request is answered with its line, and neither the passage of its point nor its answer touches the pool. -/
theorem plainLoadReads : Obligations.PlainLoadReads := by
  unfold Obligations.PlainLoadReads
  intro c s v p m r x hcmd hrun hcomb hbad
  obtain ⟨k, hreq, hplain, hop⟩ : ∃ k, requestOf s c = some (p, k, 0) ∧ s.AtPlain v p k r x ∧ (mOpc k = opLD ∨ mOpc k = opNRD) := by
    rcases hcmd with ⟨rfl, h⟩ | ⟨rfl, h⟩
    · exact ⟨_, rfl, h, .inl (mOpc_withOpc _ _ (by decide))⟩
    · exact ⟨_, rfl, h, .inr (mOpc_withOpc _ _ (by decide))⟩
  obtain ⟨rfl, horg, herg, -, hpool, hrd⟩ := atPlain_shows hplain
  have hopc : plainOpc (mOpc r.msg) = true := by rcases hop with h | h <;> rw [h] <;> decide
  have hact := request_atPlain hplain hrun hopc
  rw [plainAct_read (r := { r with hot := true }) hop, plainRead_alone (r := { r with hot := true }) herg hbad hcomb] at hact
  have hw : (lineRead v (lineOf (mAddr r.msg))).pool = s.pool := (lineRead_pool _ _).trans hpool
  have ht := (finish_port_pool (r := { r with hot := true }) horg (lineRead v (lineOf (mAddr r.msg))) (lineResp v r.msg)).trans hw
  have hsame : ∀ t : State, t.pool = s.pool → t.linePsn = s.linePsn ∧ t.lineSusp = s.lineSusp ∧ t.lineBytes = s.lineBytes :=
    fun t h => by unfold State.linePsn State.lineSusp State.lineBytes; rw [h]; exact ⟨rfl, rfl, rfl⟩
  obtain ⟨hpsn, hsusp, hbytes⟩ := hsame v hpool
  refine ⟨lineRead v (lineOf (mAddr r.msg)), _, runs_request hreq hact, ?_, ?_, hw, ht, fun a => by rw [ht]⟩
  · rw [lineResp, hpsn, hsusp, hbytes]
  · rw [rd_lineRead, hpsn, hrd _ _ _ (by decide)]

/-- Settles O6: the store writes its bytes and the line's PSN, and its answer does not touch the pool. -/
theorem plainStoreWrites : Obligations.PlainStoreWrites := by
  unfold Obligations.PlainStoreWrites
  intro c s v p m r x hcmd hrun hmrg hbad
  obtain ⟨k, hreq, hplain, hop⟩ : ∃ k, requestOf s c = some (p, k, 0) ∧ s.AtPlain v p k r x ∧
      (mOpc k = opST ∨ mOpc k = opNWR ∨ mOpc k = opST_REL) := by
    rcases hcmd with ⟨rfl, h⟩ | ⟨rfl, h⟩ | ⟨rfl, h⟩
    · exact ⟨_, rfl, h, .inl (mOpc_withOpc _ _ (by decide))⟩
    · exact ⟨_, rfl, h, .inr (.inl (mOpc_withOpc _ _ (by decide)))⟩
    · exact ⟨_, rfl, h, .inr (.inr (mOpc_withOpc _ _ (by decide)))⟩
  obtain ⟨rfl, horg, herg, hcheck, hpool, -⟩ := atPlain_shows hplain
  have hopc : plainOpc (mOpc r.msg) = true ∧ mOpc r.msg ≠ opMSG := by rcases hop with h | h | h <;> rw [h] <;> decide
  have hact := request_atPlain hplain hrun hopc.1
  rw [plainAct_store (r := { r with hot := true }) hop, plainStore_alone (r := { r with hot := true }) herg hbad horg hmrg] at hact
  have hlen : (storeBytes r.msg).length = mSize r.msg := length_slice _ _ _
  have hal : (storeBytes r.msg).length = 64 → mAddr r.msg % 64 = 0 := fun h => aligned_of_check1 hcheck hopc.2 (hlen ▸ h)
  have hpsn : v.linePsn = s.linePsn := by unfold State.linePsn; rw [hpool]
  refine ⟨_, _, runs_request hreq hact, by rw [hlen, hpsn], fun a => ?_, ?_, fun l hl => ?_, ?_⟩
  all_goals have ht := fun w st => finish_port_pool (r := { r with hot := true }) horg w { status := st }
  · rw [State.finishCmp, ht, memByte_written _ _ _ hal, lineOf_add, hlen]
    exact if_congr Iff.rfl rfl (by rw [← hpool]; rfl)
  · rw [State.finishCmp, State.linePsn, ht]
    exact (linePsn_written _ _ _).trans (by rw [hlen, ← hpsn]; rfl)
  · rw [State.finishCmp, State.linePsn, ht]
    exact (linePsn_written_ne _ _ _ hl).trans (by rw [← hpsn]; rfl)
  · rw [State.finishCmp, ht, extents_written, ← hpool]
    rfl

/-- Settles O7: the atomic leaves its word, and nothing where the line is poisoned. -/
theorem plainAtomicApplies : Obligations.PlainAtomicApplies := by
  unfold Obligations.PlainAtomicApplies
  intro s v p m r x hplain hrun hcomb hbad
  have hop : mOpc (withOpc m opAT) = opAT := mOpc_withOpc _ _ (by decide)
  obtain ⟨hmsg, horg, herg, hcheck, hpool, -⟩ := atPlain_shows hplain
  have hreq : requestOf s (.at_ p m) = some (p, withOpc m opAT, 0) := rfl
  rw [← hmsg] at hop herg hcheck hreq hplain
  have hact := request_atPlain hplain hrun (by rw [hop]; decide)
  rw [plainAct_atomic (r := { r with hot := true }) hop, plainAtomic_alone (r := { r with hot := true }) herg hbad horg hcomb] at hact
  have hlen : (newWord v r.msg).length = mSize r.msg := length_leBytes _ _
  have hal : (newWord v r.msg).length = 64 → mAddr r.msg % 64 = 0 :=
    fun h => aligned_of_check1 hcheck (by rw [hop]; decide) (hlen ▸ h)
  have hpsn : v.linePsn = s.linePsn := by unfold State.linePsn; rw [hpool]
  have hsusp : v.lineSusp = s.lineSusp := by unfold State.lineSusp; rw [hpool]
  have hold : oldWord v r.msg = leVal (memRead s.pool.mem (mAddr r.msg) (mSize r.msg)) := by unfold oldWord; rw [hpool]
  refine ⟨_, _, runs_request hreq hact, by rw [atomicResp, hpsn, hsusp, hold], fun a => ?_⟩
  rw [finish_port_pool (r := { r with hot := true }) horg, ← hpsn, ← hold, atomicWritten]
  cases hp : v.linePsn (lineOf (mAddr r.msg))
  · rw [if_neg Bool.false_ne_true, memByte_written _ _ _ hal, lineOf_add, hlen]
    exact if_congr (by simp) rfl (by rw [← hpool]; rfl)
  · simp [hpool]

end Sys2Proof.Proofs
end

section
/-! SUPPORT. Proof of the statement on the life of a port (spec/02_fabric_transactions.md): link loss, the host's control of a port,
training, hold-down and park, and a counted down. -/

namespace Sys2Proof.Proofs
open Sys2Proof Sys2Proof.Machine

/-! ### Work on registers alone -/

theorem port_wr (s : State) (f : Fld) (v i j q : Nat) : (s.wr f v i j).port q = s.port q := rfl

theorem port_bump (s : State) (f : Fld) (i j n q : Nat) : (s.bump f i j n).port q = s.port q := rfl

theorem port_setLstate (s : State) (p v q : Nat) : (s.setLstate p v).port q = s.port q := rfl

/-- From `s` to `t` nothing but fields of `fs` changes. -/
structure RegWork (fs : List Fld) (s t : State) : Prop where
  same : t = { s with regs := t.regs }
  rd : ∀ g i j, g ∉ fs → t.rd g i j = s.rd g i j

section RegWork

variable {fs : List Fld} {s t u : State}

theorem RegWork.refl (fs : List Fld) (s : State) : RegWork fs s s := ⟨rfl, fun _ _ _ _ => rfl⟩

theorem RegWork.trans (h : RegWork fs s t) (g : RegWork fs t u) : RegWork fs s u where
  same := g.same.trans (congrArg (fun x : State => { x with regs := u.regs }) h.same)
  rd f i j hf := (g.rd f i j hf).trans (h.rd f i j hf)

theorem RegWork.foldl {α : Type} {f : State → α → State} (hf : ∀ s a, RegWork fs s (f s a)) (l : List α) (s : State) :
    RegWork fs s (l.foldl f s) := by
  induction l generalizing s with
  | nil => exact .refl fs s
  | cons a l ih => exact (hf s a).trans (ih _)

theorem regWork_wr {f : Fld} (hf : f ∈ fs) (s : State) (v i j : Nat) : RegWork fs s (s.wr f v i j) :=
  ⟨rfl, fun _ _ _ hg => rd_wr_fld _ _ _ _ _ _ (fun e => hg (e ▸ hf))⟩

theorem RegWork.ports (h : RegWork fs s t) : t.ports = s.ports := (congrArg State.ports h.same :)
theorem RegWork.pool (h : RegWork fs s t) : t.pool = s.pool := (congrArg State.pool h.same :)
theorem RegWork.port (h : RegWork fs s t) (p : Nat) : t.port p = s.port p := by rw [State.port, h.ports]; rfl

end RegWork

/-! ### Lanes and discovery (R149, R153; Table 2.15) -/

/-- The fields that show which lanes of a port are in service. -/
abbrev laneFlds : List Fld := [.PRT_LANE_MAP_STATE, .PRT_LINK_STAT_LANES, .PRT_LINK_STAT_REPAIRED]

theorem regWork_showLanes (s : State) (p : Nat) (used : List Nat) : RegWork laneFlds s (s.showLanes p used) :=
  (RegWork.foldl (fun _ _ => regWork_wr (by decide) _ _ _ _) _ s).trans
    ((regWork_wr (by decide) _ _ _ _).trans (regWork_wr (by decide) _ _ _ _))

theorem lanes_showLanes (s : State) (p : Nat) (used : List Nat) :
    (s.showLanes p used).lanes p = used.length % 2 ^ Fld.PRT_LINK_STAT_LANES.width := by
  unfold State.showLanes State.showRepaired State.lanes
  dsimp only
  rw [rd_wr_fld _ _ _ _ _ _ (by decide), rd_wr_same]

/-- A port that comes UP from training has every lane in service, and changes nothing but registers. -/
theorem regWork_linkUp (s : State) (p : Nat) : RegWork (.PRT_LINK_STAT_LSTATE :: laneFlds) s (s.linkUp p) := by
  have hl : RegWork (.PRT_LINK_STAT_LSTATE :: laneFlds) s (s.setLstate p 2) := regWork_wr (by decide) _ _ _ _
  have hs := regWork_showLanes (s.setLstate p 2) p (List.range (s.width p))
  exact hl.trans ⟨hs.same, fun g i j hg => hs.rd g i j (fun hm => hg (List.mem_cons_of_mem _ hm))⟩

theorem lstate_setLstate {v : Nat} (hv : v < 8) (s : State) (p : Nat) : (s.setLstate p v).lstate p = v := by
  have hw : Fld.PRT_LINK_STAT_LSTATE.width = 3 := rfl
  rw [State.lstate, State.setLstate, rd_wr_same, hw]
  exact Nat.mod_eq_of_lt hv

theorem lstate_setLstate_ne (s : State) {p q : Nat} (v : Nat) (h : q ≠ p) : (s.setLstate p v).lstate q = s.lstate q :=
  rd_wr_ne _ _ (fun e => h e.2.1.symm)

theorem lstate_linkUp (s : State) (p : Nat) : (s.linkUp p).lstate p = 2 :=
  ((regWork_showLanes _ p _).rd _ _ _ (by decide)).trans (lstate_setLstate (by decide) s p)

theorem lanes_linkUp (s : State) (p : Nat) : (s.linkUp p).lanes p = s.width p % 2 ^ Fld.PRT_LINK_STAT_LANES.width := by
  rw [State.linkUp, lanes_showLanes, List.length_range]

section DiscFollow

variable (s : State) (p : Nat)

/-- STATE of a port follows DISC_EN, or nothing changes. -/
theorem discFollow_cases :
    s.discFollow p = s ∨ s.discFollow p = (s.wr .PRT_PFTL_STAT_STATE (b2n (s.on .PRT_PFTL_CTL_DISC_EN p)) p).updPort p
      (fun x => { x with offered := none, lastDisc := [] }) := by
  unfold State.discFollow
  split
  · exact .inr rfl
  · exact .inl rfl

theorem discFollow_pool : (s.discFollow p).pool = s.pool := by
  rcases discFollow_cases s p with h | h <;> rw [h]
  rfl

theorem rd_discFollow {f : Fld} (hf : f ≠ .PRT_PFTL_STAT_STATE) (i j : Nat) : (s.discFollow p).rd f i j = s.rd f i j := by
  rcases discFollow_cases s p with h | h <;> rw [h]
  rw [rd_updPort, rd_wr_fld _ _ _ _ _ _ hf.symm]

theorem badLanes_discFollow : ((s.discFollow p).port p).badLanes = (s.port p).badLanes := by
  rcases discFollow_cases s p with h | h <;> rw [h]
  rw [port_updPort_same]
  rfl

/-- An unbound PFTL port that is UP is in DISCOVERY, or DOWN while it is held out, and no ID is offered on it. -/
theorem discFollow_unbound (hl : s.lstate p = 2) (hb : s.on .PRT_PFTL_STAT_BOUND p = false) (hm : s.isPftl p = true) :
    (s.discFollow p).rd .PRT_PFTL_STAT_STATE p = (if s.on .PRT_PFTL_CTL_DISC_EN p then 1 else 0) ∧
      ((s.discFollow p).port p).offered = none := by
  have he : s.discFollow p = (s.wr .PRT_PFTL_STAT_STATE (b2n (s.on .PRT_PFTL_CTL_DISC_EN p)) p).updPort p
      (fun x => { x with offered := none, lastDisc := [] }) := by
    simp [State.discFollow, hm, hl, hb]
  rw [he, rd_updPort, rd_wr_same, port_updPort_same]
  refine ⟨?_, rfl⟩
  cases s.on .PRT_PFTL_CTL_DISC_EN p <;> rfl

end DiscFollow

/-! ### The commands -/

section Commands

variable {p : Nat} {s : State}

/-- A link lost from UP or RETRAIN is a counted down (R154). -/
theorem runs_linkLoss_up (hp : p < 320) (hl : s.lstate p = 2 ∨ s.lstate p = 3) :
    Runs (.linkLoss p) s ((s.updPort p (fun x => { x with signal := false })).downCounted p) := by
  have he : exec (.linkLoss p) s = execLinkLoss p s := rfl
  refine runs_of (he.trans ?_)
  rw [execLinkLoss, if_neg (by omega), if_pos hl]
  rfl

/-- From TRAIN the port is DOWN again. -/
theorem runs_linkLoss_train (hp : p < 320) (hl : s.lstate p = 1) :
    Runs (.linkLoss p) s ((s.updPort p (fun x => { x with signal := false })).setLstate p 0) := by
  have he : exec (.linkLoss p) s = execLinkLoss p s := rfl
  refine runs_of (he.trans ?_)
  rw [execLinkLoss, if_neg (by omega), if_neg (by omega), if_pos hl]
  rfl

theorem runs_flushComplete (hp : p < 320) (hf : (s.port p).flushing = true)
    (hc : (s.sw.cross ++ s.sw.xhold ++ s.sw.voq).any (fun c => c.point == p) = false)
    (hw : s.agents.any (fun e => e.2.walking && e.2.port == some p) = false) :
    Runs (.flushComplete p) s (s.updPort p (fun x => { x with flushing := false })).prstFlushed := by
  have he : exec (.flushComplete p) s = execFlushComplete p s := rfl
  refine runs_of (he.trans ?_)
  rw [execFlushComplete, if_neg (by simp [hf, hp]), if_neg (by rw [hc]; decide), if_neg (by rw [hw]; decide)]
  rfl

/-- While no partial-reset command runs, the end of a flush ends none. -/
theorem prstFlushed_idle (h : s.on .GLB_PRST_RES_BUSY = false) : s.prstFlushed = s := by
  simp [State.prstFlushed, State.prstOn, h]

theorem rebind_bound (hp : p < 320) (hm : s.isPftl p = true) (hb : s.on .PRT_PFTL_STAT_BOUND p = true) :
    s.rebind p = if s.lstate p = 3 then (if (s.downQuiet p).mayTrain p then (s.downQuiet p).startTrain p else s.downQuiet p)
      else (s.unbind p).discFollow p := by
  rw [State.rebind, if_neg (by simp [hm, hb, hp])]

theorem runs_rebind (hh : s.hostHeld = false) : Runs (.rebind p) s (s.rebind p) := runs_hostRow (act := fun s => s.rebind p) rfl hh

theorem runs_prtCtlEn (hh : s.hostHeld = false) (hp : p < 320) (en : Bool) : Runs (.prtCtlEn p en) s (s.portEnable p en) := by
  have hr := runs_hostRow (c := .prtCtlEn p en) (act := fun s => if 320 ≤ p then s else s.portEnable p en) rfl hh
  simpa only [if_neg (Nat.not_le.2 hp)] using hr

theorem lstate_wr_en (s : State) (v p q : Nat) : (s.wr .PRT_CTL_EN v p).lstate q = s.lstate q := rd_wr_fld _ _ _ _ _ _ (by decide)

/-- A write of EN = 0 takes a port in TRAIN, UP or RETRAIN down, and leaves any other as it is. -/
theorem portEnable_off (s : State) (p : Nat) : s.portEnable p false =
    if 1 ≤ s.lstate p ∧ s.lstate p ≤ 3 then (s.wr .PRT_CTL_EN 0 p).downQuiet p else s.wr .PRT_CTL_EN 0 p := by
  have hl := lstate_wr_en s 0 p p
  simp only [State.portEnable, b2n, Bool.not_false, if_true, hl, if_false, Bool.false_eq_true]

/-- A write of EN = 1 lets a port that is DOWN train. -/
theorem portEnable_on (hm : (s.wr .PRT_CTL_EN 1 p).mayTrain p = true) (hs : (s.port p).signal = true) (hl : s.lstate p = 0) :
    s.portEnable p true = (s.wr .PRT_CTL_EN 1 p).setLstate p 1 := by
  have hl' : (s.wr .PRT_CTL_EN 1 p).lstate p = 0 := (lstate_wr_en s 1 p p).trans hl
  have hs' : ((s.wr .PRT_CTL_EN 1 p).port p).signal = true := hs
  simp [State.portEnable, b2n, hm, hs', hl']

theorem runs_signalDetect (hp : p < 320) (hm : s.mayTrain p = true) (hl : s.lstate p = 0) :
    Runs (.signalDetect p) s ((s.updPort p (fun x => { x with signal := true })).setLstate p 1) := by
  have he : exec (.signalDetect p) s = execSignalDetect p s := rfl
  have hm' : (s.updPort p (fun x => { x with signal := true })).mayTrain p = true := hm
  have hl' : (s.updPort p (fun x => { x with signal := true })).lstate p = 0 := hl
  refine runs_of (he.trans ?_)
  simp [execSignalDetect, Nat.not_le.2 hp, hm', hl', settled]

/-- A port at the end of training, before its demotions are tried again. -/
def trained (s : State) (p : Nat) : State :=
  ((s.updPort p (fun x => { x with badLanes := [], attempts := 0, repairing := false, failedLane := none })).linkUp p).discFollow p

theorem runs_trainingComplete (hm : s.mayTrain p = true) (hl : s.lstate p = 1)
    (hr : s.power.refclkGone.contains (s.rd .PRT_CFG_DIE p / 4) = false) :
    Runs (.trainingComplete p) s (trained s p).retryDemotions := by
  have he : exec (.trainingComplete p) s = execTrainingComplete p s := rfl
  refine runs_of (he.trans ?_)
  rw [execTrainingComplete, if_neg (by rw [hr]; simp [hm, hl])]
  rfl

theorem mayTrain_enabled (h : s.mayTrain p = true) : s.on .PRT_CTL_EN p = true := by
  simp only [State.mayTrain, Bool.and_eq_true] at h
  tauto

/-- A port that may train starts to where there is a signal. -/
theorem startTrain_eq (h : s.mayTrain p = true) : s.startTrain p = s.setLstate p (if (s.port p).signal then 1 else 0) := by
  rw [State.startTrain, mayTrain_enabled h, Bool.and_true]
  split <;> rfl

theorem runs_holdExpiry (hp : p < 320) (hl : s.lstate p = 4) (hr : s.rd .PRT_HOLD_REMAIN p = 0) (hm : s.mayTrain p = true) :
    Runs (.holdExpiry p) s (s.startTrain p) := by
  have he : exec (.holdExpiry p) s = execHoldExpiry p s := rfl
  exact runs_of (he.trans (by simp [execHoldExpiry, Nat.not_le.2 hp, hl, hr, hm, settled]))

/-- The down history of a port is cleared (R156). -/
def forgiven (s : State) (p : Nat) : State := (s.updPort p (fun x => { x with downs := [] })).wr .PRT_FLAPS_K 0 p

theorem port_forgiven (s : State) (p : Nat) : (forgiven s p).port p = { s.port p with downs := [] } := by
  rw [forgiven, port_wr, port_updPort_same]

/-- Whether a port may train does not turn on its down history. -/
theorem mayTrain_forgiven (s : State) (p : Nat) : (forgiven s p).mayTrain p = s.mayTrain p := by
  have hrd : ∀ f ≠ Fld.PRT_FLAPS_K, ∀ i j, (forgiven s p).rd f i j = s.rd f i j :=
    fun f hf i j => rd_wr_fld _ _ _ _ _ _ hf.symm
  simp only [State.mayTrain, State.pmode, State.on, State.lanesOn, State.portDie, State.dieHeld, State.prstOn,
    hrd _ (show Fld.PRT_CFG_MODE ≠ _ by decide), hrd _ (show Fld.PRT_CTL_EN ≠ _ by decide),
    hrd _ (show Fld.PWR_STAT_STATE ≠ _ by decide), hrd _ (show Fld.PRT_CFG_DIE ≠ _ by decide),
    hrd _ (show Fld.GLB_PRST_HELD_HELD ≠ _ by decide), hrd _ (show Fld.GLB_PRST_RES_BUSY ≠ _ by decide)]
  rfl

theorem runs_clrPark (hh : s.hostHeld = false) (hp : p < 320) (hl : s.lstate p = 5) (hm : (forgiven s p).mayTrain p = true) :
    Runs (.clrPark p) s ((forgiven s p).startTrain p) := by
  have hr := runs_hostRow (c := .clrPark p) (act := fun s => s.clrPark p) rfl hh
  have he : s.clrPark p = (forgiven s p).startTrain p := by
    rw [State.clrPark, if_neg (by omega)]
    exact if_pos hm
  rwa [he] at hr

end Commands

/-! ### A counted down (R154, R155) -/

section CountDown

variable (s : State) (p : Nat)

theorem rd_countDown {f : Fld} (hc : f ≠ .PRT_DOWN_CNT_COUNT) (hk : f ≠ .PRT_FLAPS_K) (i j : Nat) :
    (s.countDown p).2.rd f i j = s.rd f i j := by
  simp only [State.countDown]
  rw [rd_wr_fld _ _ _ _ _ _ hk.symm, rd_bump_fld _ _ _ _ _ _ hc.symm, rd_updPort]

/-- The down is counted, and remembered among the last fifteen. -/
theorem countDown_shows :
    (s.countDown p).2.rd .PRT_DOWN_CNT_COUNT p = min (s.rd .PRT_DOWN_CNT_COUNT p + 1) (2 ^ Fld.PRT_DOWN_CNT_COUNT.width - 1) ∧
      ((s.countDown p).2.port p).downs = (s.epoch :: (s.port p).downs).take 15 := by
  simp only [State.countDown]
  refine ⟨?_, ?_⟩
  · rw [rd_wr_fld _ _ _ _ _ _ (by decide), rd_bump_same, rd_updPort]
  · rw [port_wr, port_bump, port_updPort_same]

/-- Below the limit the port is held down for a time that doubles (R155). -/
theorem rd_downCounted_hold (h : ¬ (s.countDown p).2.rd .PRT_FLAP_CFG_LIMIT p ≤ (s.countDown p).1) :
    (s.downCounted p).rd .PRT_HOLD_REMAIN p =
      min (2 ^ (s.rd .PRT_FLAP_CFG_BASE_LOG2 p + (s.countDown p).1 - 1)) (2 ^ s.rd .PRT_FLAP_CFG_MAX_LOG2 p)
        % 2 ^ Fld.PRT_HOLD_REMAIN.width := by
  rw [State.downCounted, if_neg h, rd_wr_same, rd_countDown _ _ (by decide) (by decide), rd_countDown _ _ (by decide) (by decide)]

end CountDown

/-- Settles O18, command by command. -/
theorem portsComeAndGo : Obligations.PortsComeAndGo := by
  unfold Obligations.PortsComeAndGo
  refine ⟨⟨fun p s => runs_linkLoss_up, ?_, ?_, ?_, ?_, ?_, ?_, ?_, ?_, ?_, ?_, ?_⟩, fun p s _ _ _ => ?_⟩
  · exact fun p s hp hl => ⟨_, runs_linkLoss_train hp hl, lstate_setLstate (by decide) _ _, rd_wr_fld _ _ _ _ _ _ (by decide), rfl⟩
  · intro p s hp hf hc hw
    exact ⟨_, _, runs_flushComplete hp hf hc hw, rfl, by rw [port_updPort_same], fun q hq => port_updPort_ne s _ hq, rfl, rfl,
      fun hi => prstFlushed_idle hi⟩
  · intro p s hh hp hm hb hl
    have hr := runs_rebind (p := p) hh
    rw [rebind_bound hp hm hb, if_neg hl] at hr
    exact ⟨_, _, hr, rfl, rfl, discFollow_unbound (s.unbind p) p⟩
  · intro p s hh hp hm hb hl
    have hr := runs_rebind (p := p) hh
    rwa [rebind_bound hp hm hb, if_pos hl] at hr
  · intro p s hh hp h1 h3
    have hr := runs_prtCtlEn hh hp false
    rw [portEnable_off, if_pos ⟨h1, h3⟩] at hr
    exact ⟨_, hr, rfl⟩
  · intro p s hh hp hl
    have hr := runs_prtCtlEn hh hp false
    rw [portEnable_off, if_neg (by omega)] at hr
    exact ⟨_, hr, rd_wr_same _ _ _ _ _, lstate_wr_en _ _ _ _, rfl, rfl, rfl⟩
  · rintro p s u hh hp rfl hm hs hl
    have hr := runs_prtCtlEn hh hp true
    rw [portEnable_on hm hs hl] at hr
    refine ⟨_, hr, lstate_setLstate (by decide) _ _, ?_, fun q hq => ?_, rfl⟩
    · exact (rd_wr_fld _ _ _ _ _ _ (by decide)).trans (rd_wr_same _ _ _ _ _)
    · exact (lstate_setLstate_ne _ _ hq).trans (lstate_wr_en _ _ _ _)
  · intro p s hp hm hl
    exact ⟨_, runs_signalDetect hp hm hl, lstate_setLstate (by decide) _ _, by rw [port_setLstate, port_updPort_same],
      fun q hq => ⟨lstate_setLstate_ne _ _ hq, by rw [port_setLstate, port_updPort_ne _ _ hq]⟩, rfl⟩
  · intro p s hm hl hr
    refine ⟨trained s p, runs_trainingComplete hm hl hr, ?_, ?_, ?_, fun hpf hb => ?_, ?_⟩
    all_goals
      have hw := regWork_linkUp (s.updPort p (fun x => { x with badLanes := [], attempts := 0, repairing := false, failedLane := none })) p
    · exact (rd_discFollow _ _ (by decide) _ _).trans (lstate_linkUp _ _)
    · exact (rd_discFollow _ _ (by decide) _ _).trans (lanes_linkUp _ _)
    · exact (badLanes_discFollow _ _).trans ((congrArg Port.badLanes (hw.port p)).trans (congrArg Port.badLanes (port_updPort_same s p _)))
    · have hrd : ∀ f ∈ [Fld.PRT_CFG_MODE, .PRT_PFTL_STAT_BOUND, .PRT_PFTL_CTL_DISC_EN], ∀ i j, _ = s.rd f i j :=
        fun f hf i j => hw.rd f i j (by revert f; decide)
      have hmode := hrd .PRT_CFG_MODE (by simp) p 0
      have hbound := hrd .PRT_PFTL_STAT_BOUND (by simp) p 0
      have hdisc := hrd .PRT_PFTL_CTL_DISC_EN (by simp) p 0
      have hd := discFollow_unbound _ p (lstate_linkUp _ p) (by rwa [State.on, hbound]) (by rwa [State.isPftl, State.pmode, hmode])
      rw [trained, hd.1, State.on, State.on, hdisc]
    · exact (discFollow_pool _ _).trans hw.pool
  · intro p s hp hl hr hm
    have hrun := runs_holdExpiry hp hl hr hm
    rw [startTrain_eq hm] at hrun
    refine ⟨_, hrun, lstate_setLstate ?_ _ _, fun q hq => lstate_setLstate_ne _ _ hq, rfl⟩
    split <;> decide
  · intro p s hh hp hl hm
    have hm' : (forgiven s p).mayTrain p = true := (mayTrain_forgiven s p).trans hm
    have hrun := runs_clrPark hh hp hl hm'
    rw [startTrain_eq hm'] at hrun
    refine ⟨_, hrun, (lstate_setLstate ?_ _ _).trans ?_, by rw [port_setLstate, port_forgiven], ?_, rfl⟩
    · split <;> decide
    · rw [port_forgiven]
    · exact (rd_wr_fld _ _ _ _ _ _ (by decide)).trans (rd_wr_same _ _ _ _ _)
  · obtain ⟨hcount, hdowns⟩ := countDown_shows s p
    exact ⟨hcount, hdowns, fun hk => if_pos hk, rd_downCounted_hold s p⟩

end Sys2Proof.Proofs
end

section
/-! SUPPORT. Proof of the statement on the frontier of a source (spec/03_ordering_completion.md): how far it climbs. -/

namespace Sys2Proof.Proofs
open Sys2Proof Sys2Proof.Machine

/-! ### The frontier (R79) -/

theorem climb_unreported (q : Source) (n : Nat) : (q.climb n).unreported = q.unreported := by
  induction n generalizing q with
  | zero => rfl
  | succ n ih =>
    unfold Source.climb
    split
    · exact ih _
    · rfl

theorem settle_unreported (q : Source) (n : Nat) : (q.settle n).unreported = q.unreported := by
  unfold Source.settle
  split
  · rfl
  · exact climb_unreported _ _

/-- The source whose frontier has moved over its own recorded number. -/
def movedOver (q : Source) : Source :=
  { q with
    above := q.above.filter (· != q.pf), pf := (q.pf + 1) % 2 ^ 20, tops := q.tops.filter (· != q.pf)
    newest := if q.newest == some q.pf then none else q.newest }

theorem climb_recorded {q : Source} (h : q.pf ∈ q.above) (k : Nat) : q.climb (k + 1) = (movedOver q).climb k :=
  if_pos (List.contains_iff_mem.mpr h)

theorem climb_unrecorded {q : Source} (h : q.pf ∉ q.above) (k : Nat) : q.climb k = q := by
  cases k with
  | zero => rfl
  | succ k => exact if_neg (mt List.contains_iff_mem.mp h)

theorem movedOver_above_subset (q : Source) : (movedOver q).above ⊆ q.above := List.filter_subset_self _

/-- Climbing records no number. -/
theorem climb_above_subset (q : Source) (k : Nat) : (q.climb k).above ⊆ q.above := by
  induction k generalizing q with
  | zero => exact List.Subset.refl _
  | succ k ih =>
    by_cases h : q.pf ∈ q.above
    · rw [climb_recorded h]
      exact List.Subset.trans (ih _) (movedOver_above_subset q)
    · rw [climb_unrecorded h]
      exact List.Subset.refl _

/-- Climbing goes over recorded numbers alone, one after the other. -/
theorem climb_passes (q : Source) (k : Nat) (hq : q.pf < 2 ^ 20) :
    ∃ n ≤ k, (q.climb k).pf = (q.pf + n) % 2 ^ 20 ∧ ∀ i < n, (q.pf + i) % 2 ^ 20 ∈ q.above := by
  induction k generalizing q with
  | zero => exact ⟨0, le_rfl, (Nat.mod_eq_of_lt hq).symm, by simp⟩
  | succ k ih =>
    by_cases h : q.pf ∈ q.above
    · obtain ⟨n, hn, hpf, hover⟩ := ih (movedOver q) (Nat.mod_lt _ (Nat.two_pow_pos 20))
      have hnext (i : Nat) : ((movedOver q).pf + i) % 2 ^ 20 = (q.pf + (i + 1)) % 2 ^ 20 := by
        rw [movedOver, Nat.mod_add_mod, Nat.add_right_comm, Nat.add_assoc]
      refine ⟨n + 1, Nat.succ_le_succ hn, by rw [climb_recorded h, hpf, hnext], fun i hi => ?_⟩
      cases i with
      | zero => rwa [Nat.add_zero, Nat.mod_eq_of_lt hq]
      | succ i =>
        rw [← hnext]
        exact movedOver_above_subset q (hover i (Nat.lt_of_succ_lt_succ hi))
    · exact ⟨0, Nat.zero_le _, by rw [climb_unrecorded h]; exact (Nat.mod_eq_of_lt hq).symm, by simp⟩

/-- With a bound for all that are recorded, climbing ends at a number that is not recorded. -/
theorem climb_stops (q : Source) (k : Nat) (hk : q.above.length ≤ k) : (q.climb k).pf ∉ (q.climb k).above := by
  induction k generalizing q with
  | zero => simp [Source.climb, List.eq_nil_of_length_eq_zero (Nat.le_zero.mp hk)]
  | succ k ih =>
    by_cases h : q.pf ∈ q.above
    · have hless : (movedOver q).above.length < q.above.length :=
        List.length_filter_lt_length_iff_exists.mpr ⟨q.pf, h, by simp⟩
      rw [climb_recorded h]
      exact ih _ (Nat.le_of_lt_succ (hless.trans_le hk))
    · rwa [climb_unrecorded h]

/-- Settles O15: a number already settled leaves the frontier where it is, and any other is recorded and climbed over. -/
theorem frontierSettle : Obligations.FrontierSettle := by
  unfold Obligations.FrontierSettle
  intro q seq hq hfree
  have hkept := And.intro (settle_outst q seq) (settle_unreported q seq)
  by_cases hdone : (seqBelow seq q.pf || q.above.contains seq) = true
  · have hsame : q.settle seq = q := if_pos hdone
    rw [hsame] at hkept ⊢
    exact ⟨0, Nat.zero_le _, (Nat.mod_eq_of_lt hq).symm, by simp, hfree, fun x hx => .inr hx, hkept⟩
  · have hclimb : q.settle seq = Source.climb { q with above := q.above ++ [seq] } (q.above.length + 1) := if_neg hdone
    have hrec : ∀ x ∈ q.above ++ [seq], x = seq ∨ x ∈ q.above := fun x hx => by simpa [or_comm] using hx
    obtain ⟨n, hn, hpf, hover⟩ := climb_passes { q with above := q.above ++ [seq] } (q.above.length + 1) hq
    have hstop := climb_stops { q with above := q.above ++ [seq] } (q.above.length + 1) (by simp)
    rw [← hclimb] at hpf hstop
    refine ⟨n, hn, hpf, fun i hi => hrec _ (hover i hi), hstop, fun x hx => hrec x ?_, hkept⟩
    rw [hclimb] at hx
    exact climb_above_subset _ _ hx

end Sys2Proof.Proofs
end

section
/-! SUPPORT. Proof of the statement on one step of the block: what stands first in the queue is run. -/

namespace Sys2Proof.Proofs
open Sys2Proof Sys2Proof.Machine

/-! ### A step -/

theorem step_command {c : Instr} {rest : List Instr} {s : State} (h : s.pending = c :: rest) :
    step s = exec c { s with pending := rest } := by simp [step, h]

theorem step_empty {s : State} (h : s.pending = []) : step s = s.quiet := by simp [step, h]

theorem idle_regs_pool (s : State) : s.idle.regs = s.regs ∧ s.idle.pool = s.pool := by
  unfold State.idle
  split <;> exact ⟨rfl, rfl⟩

/-- No access of BAR0 waits. -/
theorem quiet_none {s : State} (h : s.host.behind = []) : s.quiet = .next s.idle := by simp [State.quiet, h]

/-- The oldest access that waits has a posted write before it that is still to be performed (R89). -/
theorem quiet_held {s : State} {b : Behind} {l : List Behind} {h : HostReq} (hb : s.host.behind = b :: l) (hh : h ∈ s.host.reqs)
    (hw : h.isWrite = true) (ho : h.tag < b.ord) : s.quiet = .next s.idle := by
  have hheld : s.host.reqs.any (fun h => h.isWrite && decide (h.tag < b.ord)) = true :=
    List.any_eq_true.mpr ⟨h, hh, by simp [hw, ho]⟩
  simp [State.quiet, hb, hheld]

/-- Every posted write before the oldest access that waits has been performed (R89). -/
theorem quiet_taken {s : State} {b : Behind} {l : List Behind} (hb : s.host.behind = b :: l)
    (hw : ∀ h ∈ s.host.reqs, h.isWrite = true → b.ord ≤ h.tag) :
    s.quiet = (match exec b.cmd { s with host := { s.host with behind := l, draining := true } } with
      | .next t => .next t.drainOver
      | .fault f => .fault f
      | .refused r => .refused r) := by
  have hfree : s.host.reqs.any (fun h => h.isWrite && decide (h.tag < b.ord)) = false :=
    List.any_eq_false.mpr fun h hh => by simpa using hw h hh
  simp only [State.quiet, hb, hfree]
  rfl

/-- Settles O48: the queue's front where there is one, and the cases of `State.quiet` where there is none. -/
theorem stepRunsFront : Obligations.StepRunsFront := by
  unfold Obligations.StepRunsFront
  refine ⟨fun c rest s h => step_command h, fun c s => step_command rfl, fun s hp hwait => ?_, fun s b l hp hb hw => ?_,
    fun n w s => ⟨rfl, rfl⟩⟩
  · refine ⟨?_, idle_regs_pool s⟩
    rw [step_empty hp]
    obtain hb | ⟨b, l, h, hb, hh, hw, ho⟩ := hwait
    · exact quiet_none hb
    · exact quiet_held hb hh hw ho
  · exact (step_empty hp).trans (quiet_taken hb hw)

end Sys2Proof.Proofs
end

section
/-! SUPPORT. What has left the device is not taken back: an operation only adds to it. One lemma for each operation that the end
of a command comes to, in the order of the model's files; here the registers, the pool, the fabric, the tiers and the homes. -/

namespace Sys2Proof.Proofs
open Sys2Proof Sys2Proof.Machine

/-- What the list `ws` holds, the newest in front, left the device before all else that has left it. -/
def Sent (ws : List Wire) (s : State) : Prop := ws <:+ s.out

section Sent
variable {ws : List Wire} {s : State}

/-! ### Choices, folds and records -/

theorem Sent.ite {c : Prop} {_ : Decidable c} {a b : State} (ha : Sent ws a) (hb : Sent ws b) :
    Sent ws (if c then a else b) := by
  split <;> assumption

theorem Sent.ite_snd {β : Type} {c : Prop} {_ : Decidable c} {a b : β × State} (ha : Sent ws a.2) (hb : Sent ws b.2) :
    Sent ws (if c then a else b).2 := by
  split <;> assumption

theorem Sent.foldl {α : Type} {f : State → α → State} {xs : List α} (h : Sent ws s)
    (hf : ∀ s a, Sent ws s → Sent ws (f s a)) : Sent ws (xs.foldl f s) :=
  List.foldlRecOn xs f h fun s hs a _ => hf s a hs

theorem Sent.foldl_snd {α β : Type} {f : β × State → α → β × State} {xs : List α} {b : β × State} (h : Sent ws b.2)
    (hf : ∀ b a, Sent ws b.2 → Sent ws (f b a).2) : Sent ws (xs.foldl f b).2 :=
  List.foldlRecOn (motive := fun b => Sent ws b.2) xs f h fun b hb a _ => hf b a hb

theorem Sent.foldl_snd_snd {α β γ : Type} {f : β × γ × State → α → β × γ × State} {xs : List α} {b : β × γ × State}
    (h : Sent ws b.2.2) (hf : ∀ b a, Sent ws b.2.2 → Sent ws (f b a).2.2) : Sent ws (xs.foldl f b).2.2 :=
  List.foldlRecOn (motive := fun b => Sent ws b.2.2) xs f h fun b hb a _ => hf b a hb

theorem Sent.lit (h : Sent ws s) {pending regs ports agents sw home pool tier coh rgf chans scn rcv boot power clk busy
    host tel tap nextId freeCtr} : Sent ws ⟨pending, regs, ports, agents, sw, home, pool, tier, coh, rgf, chans, scn, rcv, boot,
      power, clk, busy, host, tel, tap, s.out, nextId, freeCtr⟩ := h

/-! ### Registers, interrupts and events -/

theorem Sent.wr (h : Sent ws s) {f v i j} : Sent ws (s.wr f v i j) := h
theorem Sent.bump (h : Sent ws s) {f i j n} : Sent ws (s.bump f i j n) := h.wr
theorem Sent.advance (h : Sent ws s) {f i j n} : Sent ws (s.advance f i j n) := h.wr
theorem Sent.lower (h : Sent ws s) {f i j n} : Sent ws (s.lower f i j n) := h.wr
theorem Sent.free (h : Sent ws s) : Sent ws s.free.2 := h
theorem Sent.emit (h : Sent ws s) {w} : Sent ws (s.emit w) := h.trans (List.suffix_cons w s.out)
theorem Sent.raiseBits (h : Sent ws s) {f v i j} : Sent ws (s.raiseBits f v i j) := h.wr.lit

theorem Sent.sendVector (h : Sent ws s) {v} : Sent ws (s.sendVector v) := by
  unfold State.sendVector
  exact .ite h.lit h.emit

theorem Sent.irq (h : Sent ws s) {c} : Sent ws (s.irq c) := by
  unfold State.irq
  exact .ite h.raiseBits <| .ite h.raiseBits.sendVector h.raiseBits

theorem Sent.cmdDone (h : Sent ws s) {b} : Sent ws (s.cmdDone b) := h.raiseBits.irq

theorem Sent.queueFlash (h : Sent ws s) {r old moved} : Sent ws (s.queueFlash r old moved) := by
  unfold State.queueFlash
  exact .ite h.lit h.lit.bump

theorem Sent.logEvent (h : Sent ws s) {time ord sev mk} : Sent ws (s.logEvent time ord sev mk) := by
  unfold State.logEvent
  exact .ite (.irq <| .ite h.lit.advance.queueFlash h.lit.advance.lit) <| .ite h.lit.advance.queueFlash h.lit.advance.lit

theorem Sent.event (h : Sent ws s) {e unit arg0 arg1} : Sent ws (s.event e unit arg0 arg1) := by
  unfold State.event
  exact .ite h.lit h.logEvent

theorem Sent.withMem (h : Sent ws s) {m} : Sent ws (s.withMem m) := h
theorem Sent.updPort (h : Sent ws s) {p f} : Sent ws (s.updPort p f) := h
theorem Sent.updAgent (h : Sent ws s) {id f} : Sent ws (s.updAgent id f) := h

/-! ### Flash, the repair map and the health history -/

theorem Sent.flashWrite (h : Sent ws s) {a bs} : Sent ws (s.flashWrite a bs) := h
theorem Sent.flashErase (h : Sent ws s) {a n} : Sent ws (s.flashErase a n) := h

theorem Sent.flashRecord (h : Sent ws s) {base size i bs} : Sent ws (s.flashRecord base size i bs) := by
  unfold State.flashRecord
  exact .flashWrite <| .ite h.flashErase h

theorem Sent.rmap (h : Sent ws s) {kind unit index detail} : Sent ws (s.rmap kind unit index detail) := by
  unfold State.rmap
  refine .ite h <| .ite h.flashWrite.wr ?_
  split
  · exact h.flashWrite
  · exact h.wr.event

theorem Sent.healthLog (h : Sent ws s) : Sent ws s.healthLog := h.flashRecord.lit

theorem Sent.setDegraded (h : Sent ws s) {b v} : Sent ws (s.setDegraded b v) := by
  unfold State.setDegraded
  exact .ite h h.wr.irq.event.healthLog

/-! ### Lines of the pool -/

theorem Sent.setExtent (h : Sent ws s) {i x} : Sent ws (s.setExtent i x) := h
theorem Sent.setPsn (h : Sent ws s) {l v} : Sent ws (s.setPsn l v) := h
theorem Sent.setSusp (h : Sent ws s) {pg v} : Sent ws (s.setSusp pg v) := h
theorem Sent.clearSym (h : Sent ws s) {l} : Sent ws (s.clearSym l) := h
theorem Sent.putLine (h : Sent ws s) {l off bs} : Sent ws (s.putLine l off bs) := h.withMem
theorem Sent.raise (h : Sent ws s) {cls unit} : Sent ws (s.raise cls unit) := h
theorem Sent.raiseRow (h : Sent ws s) {l} : Sent ws (s.raiseRow l) := h.lit.raise

theorem Sent.countCe (h : Sent ws s) {l} : Sent ws (s.countCe l) := by
  unfold State.countCe
  exact .ite h.bump.lit h.bump.lit.raiseRow

theorem Sent.keepCopy (h : Sent ws s) {l} : Sent ws (s.keepCopy l) := by
  unfold State.keepCopy
  split
  · exact .ite h.lit h
  · exact h

theorem Sent.poisonUe (h : Sent ws s) {l} : Sent ws (s.poisonUe l) :=
  h.keepCopy.clearSym.putLine.setPsn.lit.bump.event.raiseRow

theorem Sent.freeLine (h : Sent ws s) : Sent ws s.freeLine.2 := h.free

theorem Sent.checkLine (h : Sent ws s) {l} : Sent ws (s.checkLine l).2 := by
  unfold State.checkLine
  split
  · exact h
  · exact h.clearSym.countCe
  · exact h.poisonUe
  · exact .ite_snd h.free.poisonUe <| .ite_snd h.free.freeLine.keepCopy.clearSym.putLine.countCe h.free.freeLine

theorem Sent.readLine (h : Sent ws s) {l} : Sent ws (s.readLine l).2 := by
  unfold State.readLine
  exact .ite h.checkLine.bump h.checkLine

theorem Sent.writeLine (h : Sent ws s) {l off bs psn} : Sent ws (s.writeLine l off bs psn).2 := by
  unfold State.writeLine
  exact .ite_snd h.clearSym.putLine.setPsn <| .ite_snd h.checkLine.putLine.setPsn <|
    .ite_snd h.checkLine.putLine h.checkLine.putLine

theorem Sent.chargeOasis (h : Sent ws s) {slc n} : Sent ws (s.chargeOasis slc n) := h.advance
theorem Sent.creditOasis (h : Sent ws s) {slc n} : Sent ws (s.creditOasis slc n) := h.lower

/-! ### Messages, crossings, sources and answers -/

theorem Sent.cross (h : Sent ws s) {org p cls sub m ing cut} : Sent ws (s.cross org p cls sub m ing cut) := h

theorem Sent.crossCopies (h : Sent ws s) {cs} : Sent ws (s.crossCopies cs) := by
  unfold State.crossCopies
  split
  · exact h
  · exact h.lit

theorem Sent.send (h : Sent ws s) {org p cls sub m ing cut} : Sent ws (s.send org p cls sub m ing cut) := by
  unfold State.send
  exact .ite h.lit h.cross

theorem Sent.toEgress (h : Sent ws s) {p cls sub m mcast plane cut} : Sent ws (s.toEgress p cls sub m mcast plane cut) :=
  h.lit.advance

theorem Sent.sendLocal (h : Sent ws s) {p cls sub m} : Sent ws (s.sendLocal p cls sub m) := by
  unfold State.sendLocal
  exact .ite h.lit h.toEgress

theorem Sent.grantVoq (h : Sent ws s) {n} : Sent ws (s.grantVoq n) := by
  induction n generalizing s with
  | zero => exact h
  | succ n ih =>
    unfold State.grantVoq
    split
    · exact h
    · split
      · exact ih (.ite h.lit.toEgress h.lit.cross)
      · exact ih h.lit.crossCopies

theorem Sent.sendLegs (h : Sent ws s) {org ls} : Sent ws (s.sendLegs org ls) := by
  unfold State.sendLegs
  split
  · exact h
  · exact .foldl (.lit <| .ite h.bump h) fun _ _ h => .ite h.lit h.crossCopies

theorem Sent.sendMulti (h : Sent ws s) {org ps cls sub m} : Sent ws (s.sendMulti org ps cls sub m) := h.sendLegs

theorem Sent.mcastFill (h : Sent ws s) : Sent ws s.mcastFill := by
  unfold State.mcastFill
  refine h.foldl fun _ _ h => ?_
  split
  · exact h
  · exact .ite h h.lit

theorem Sent.mcastDone (h : Sent ws s) {n} : Sent ws (s.mcastDone n) := by
  unfold State.mcastDone
  split
  · exact h
  · exact h.lit.mcastFill

theorem Sent.egrFree (h : Sent ws s) {cs} : Sent ws (s.egrFree cs) := by
  unfold State.egrFree
  exact h.foldl fun _ _ h => h.lower

theorem Sent.fromEgress (h : Sent ws s) {x} : Sent ws (s.fromEgress x) := h.lit.lower.mcastDone
theorem Sent.ingPlaced (h : Sent ws s) {i} : Sent ws (s.ingPlaced i) := h
theorem Sent.updSource (h : Sent ws s) {p f} : Sent ws (s.updSource p f) := h.updPort
theorem Sent.lotDrop (h : Sent ws s) {p seq} : Sent ws (s.lotDrop p seq) := h

theorem Sent.markDone (h : Sent ws s) {r} : Sent ws (s.markDone r) := by
  unfold State.markDone
  split
  · exact h.updSource
  · exact h

theorem Sent.dropMerged (h : Sent ws s) {r} : Sent ws (s.dropMerged r) := by
  unfold State.dropMerged
  split
  · exact h.lit
  · exact h

theorem Sent.hostComplete (h : Sent ws s) {u} : Sent ws (s.hostComplete u) := by
  unfold State.hostComplete
  exact .ite (.ite h.lit <| .ite h.lit.bump.wr.wr h.lit.bump.wr.wr.emit) <| .ite h.lit.emit h.lit.bump.emit

theorem Sent.hostPart (h : Sent ws s) {tag addr x} : Sent ws (s.hostPart tag addr x) := by
  unfold State.hostPart
  split
  · exact h
  · exact .ite h.hostComplete h.lit

theorem Sent.setSlot (h : Sent ws s) {k x} : Sent ws (s.setSlot k x) := h

theorem Sent.xferTake (h : Sent ws s) {x r} : Sent ws (s.xferTake x r) := by
  unfold State.xferTake
  refine .ite ?_ h
  split
  · exact h.setExtent.bump
  · exact h

theorem Sent.slotAnswer (h : Sent ws s) {id n r x} : Sent ws (s.slotAnswer id n r x) := by
  unfold State.slotAnswer
  exact .ite h.lit.setSlot h.lit.xferTake

theorem Sent.chanErr (h : Sent ws s) {c st a} : Sent ws (s.chanErr c st a) := by
  unfold State.chanErr
  exact .ite h h.lit

theorem Sent.chanAnswer (h : Sent ws s) {c r x} : Sent ws (s.chanAnswer c r x) := by
  unfold State.chanAnswer
  exact .ite h.lit.chanErr <| .ite (.lit <| .ite h.lit.advance.advance h.lit) <| .ite h.lit.advance.advance h.lit

theorem Sent.collAnswer (h : Sent ws s) {tag r x} : Sent ws (s.collAnswer tag r x) := by
  unfold State.collAnswer
  exact .ite h.lit h

theorem Sent.mirrorDone (h : Sent ws s) {st} : Sent ws (s.mirrorDone st) := by
  unfold State.mirrorDone
  exact .ite h.lit.advance h.lit.advance.bump

theorem Sent.answerFrom (h : Sent ws s) {die r x} : Sent ws (s.answerFrom die r x) := by
  unfold State.answerFrom
  split
  · exact .ite h.send h.bump
  · exact h.hostPart
  · exact h.slotAnswer
  · exact h.chanAnswer
  · exact h.collAnswer
  · exact h
  · exact h.mirrorDone
  · exact h
  · exact h

theorem Sent.answer (h : Sent ws s) {home r x} : Sent ws (s.answer home r x) := h.answerFrom

theorem Sent.sendTogether (h : Sent ws s) {org ls} : Sent ws (s.sendTogether org ls) := by
  unfold State.sendTogether
  split
  · exact h.send
  · exact h.sendLegs

theorem Sent.answerAll (h : Sent ws s) {home xs} : Sent ws (s.answerAll home xs) := by
  unfold State.answerAll
  exact .sendTogether <| .sendTogether <| .bump <| h.foldl fun _ _ h => h.markDone

theorem Sent.finish (h : Sent ws s) {r x} : Sent ws (s.finish r x) := by
  unfold State.finish
  split
  · exact h.dropMerged.answerAll
  · exact h.markDone.answer

theorem Sent.finishCmp (h : Sent ws s) {r st} : Sent ws (s.finishCmp r st) := h.finish
theorem Sent.lotPut (h : Sent ws s) {p m} : Sent ws (s.lotPut p m) := h

theorem Sent.stamp (h : Sent ws s) {r} : Sent ws (s.stamp r).2 := by
  unfold State.stamp
  exact .ite_snd h.lit h

theorem Sent.wait (h : Sent ws s) {r cause key} : Sent ws (s.wait r cause key) := by
  unfold State.wait
  exact .lit <| .ite_snd h h.stamp

/-! ### Scheduling points -/

theorem Sent.setBucket (h : Sent ws s) {k v} : Sent ws (s.setBucket k v) := h

theorem Sent.chargeTok (h : Sent ws s) {k refill cost} : Sent ws (s.chargeTok k refill cost) := by
  unfold State.chargeTok
  exact .ite h h.setBucket

theorem Sent.setSched (h : Sent ws s) {k x} : Sent ws (s.setSched k x) := h

theorem Sent.remember (h : Sent ws s) {level node k cost more} : Sent ws (s.remember level node k cost more) := by
  unfold State.remember
  exact h.setSched.foldl fun _ _ h => h.setSched

theorem Sent.charge (h : Sent ws s) {q x} : Sent ws (s.charge q x) := by
  unfold State.charge
  exact .ite h.chargeTok.chargeTok h.chargeTok.chargeTok.chargeTok.chargeTok

theorem Sent.selectAt (h : Sent ws s) {cs q} : Sent ws (s.selectAt cs q).2 := by
  unfold State.selectAt
  dsimp only
  split
  · exact h.foldl fun _ _ h => .ite h.wr h
  · split
    · exact h.foldl fun _ _ h => .ite h.wr h
    · exact .charge <| .remember <| .ite (h.foldl fun _ _ h => .ite h.wr h) <| .remember <| h.foldl fun _ _ h => .ite h.wr h

theorem Sent.atPoint (h : Sent ws s) {q x} : Sent ws (s.atPoint q x).2 := by
  unfold State.atPoint
  exact .ite_snd h.selectAt h

theorem Sent.queueAt (h : Sent ws s) {q r} : Sent ws (s.queueAt q r) := h

theorem Sent.passPoint (h : Sent ws s) {q r act} (hact : ∀ {s r}, Sent ws s → Sent ws (act s r)) :
    Sent ws (s.passPoint q r act) := by
  unfold State.passPoint
  exact .ite (hact h.atPoint) h.atPoint.queueAt

/-! ### Pages and their moves -/

theorem Sent.setPage (h : Sent ws s) {pg x} : Sent ws (s.setPage pg x) := h

theorem Sent.traySend (h : Sent ws s) {l isWrite bytes psn cls sub kind ent} :
    Sent ws (s.traySend l isWrite bytes psn cls sub kind ent) := by
  unfold State.traySend
  split
  · exact h
  · exact h.send.updPort.lit

theorem Sent.lateLog (h : Sent ws s) {pg cause} : Sent ws (s.lateLog pg cause) := by
  unfold State.lateLog
  split
  · exact .ite h h.wr.wr.wr.wr.advance
  · exact h

theorem Sent.lateWait (h : Sent ws s) {r cause pg} : Sent ws (s.lateWait r cause pg) := by
  unfold State.lateWait
  exact .ite (.wait <| .lateLog <| .ite h h.bump) h.wait

theorem Sent.recause (h : Sent ws s) {pg c} : Sent ws (s.recause pg c) := by
  unfold State.recause
  exact .lit <| h.foldl fun _ _ h => .lateLog <| .ite h h.bump

theorem Sent.holdPage (h : Sent ws s) {pg} : Sent ws (s.holdPage pg) := by
  unfold State.holdPage
  exact .lit <| .recause <| h.lit.foldl fun _ _ h => h.lateWait

theorem Sent.dropOwed (h : Sent ws s) {lo hi} : Sent ws (s.dropOwed lo hi) := h
theorem Sent.addOwed (h : Sent ws s) {lo hi} : Sent ws (s.addOwed lo hi) := h.dropOwed.lit
theorem Sent.setHeat (h : Sent ws s) {pg u} : Sent ws (s.setHeat pg u) := h

theorem Sent.countHeat (h : Sent ws s) {pg} : Sent ws (s.countHeat pg) := by
  unfold State.countHeat
  exact .ite h.setPage <| .ite h.setHeat <| .ite h.setHeat h.bump

theorem Sent.readPage (h : Sent ws s) {pg} : Sent ws (s.readPage pg) := by
  unfold State.readPage
  exact h.foldl fun _ _ h => .ite h.readLine h

theorem Sent.rewritePages (h : Sent ws s) {pg n} : Sent ws (s.rewritePages pg n) := h.lit.addOwed
theorem Sent.rewriteImage (h : Sent ws s) {pg} : Sent ws (s.rewriteImage pg) := h.lit.dropOwed.addOwed

theorem Sent.reform (h : Sent ws s) {m} : Sent ws (s.reform m) := by
  unfold State.reform
  exact .ite h <| .ite h.rewriteImage h.rewritePages

theorem Sent.migIssue (h : Sent ws s) {m} : Sent ws (s.migIssue m) := by
  unfold State.migIssue
  exact .ite (.ite h.traySend <| .ite (.ite h.readLine.traySend h.traySend) h) h

theorem Sent.startPromotion (h : Sent ws s) {pg frame} : Sent ws (s.startPromotion pg frame) :=
  h.holdPage.setHeat.setPage.chargeOasis.lit.migIssue

theorem Sent.trayCopy (h : Sent ws s) {pg} : Sent ws (s.trayCopy pg) := by
  unfold State.trayCopy
  exact .lit <| h.foldl fun _ _ h => h.putLine.setPsn

theorem Sent.toTray (h : Sent ws s) {pg} : Sent ws (s.toTray pg) := by
  unfold State.toTray
  exact .bump <| .ite h.trayCopy.setPage.creditOasis.setHeat h.trayCopy.setPage.creditOasis

theorem Sent.demote (h : Sent ws s) {pg want} : Sent ws (s.demote pg want).2 := by
  unfold State.demote
  exact .ite_snd h <| .ite_snd h.toTray <| .ite_snd h <| .ite_snd (.bump <| .setPage <| .ite h.readPage h) <| .migIssue <|
    .lit <| .setPage <| .holdPage <| .ite h.readPage h

theorem Sent.demoteSoon (h : Sent ws s) {pg} : Sent ws (s.demoteSoon pg) := by
  unfold State.demoteSoon
  exact .ite h.demote h.demote.lit

theorem Sent.demoteFor (h : Sent ws s) {pg pick n} : Sent ws (s.demoteFor pg pick n).2 := by
  induction n generalizing s with
  | zero => exact h
  | succ n ih =>
    unfold State.demoteFor
    split
    · exact h
    · exact .ite_snd h.demote (.ite_snd (ih h.demote) h.demote)

theorem Sent.awaitFrame (h : Sent ws s) {pg} : Sent ws (s.awaitFrame pg) := h.holdPage.setPage

theorem Sent.promoteOver (h : Sent ws s) {pg pick} : Sent ws (s.promoteOver pg pick).2 := by
  unfold State.promoteOver
  dsimp only
  split
  · exact h.demoteFor
  · refine .ite_snd h.demoteFor.awaitFrame ?_
    split
    · exact h.demoteFor.startPromotion
    · exact h.demoteFor

theorem Sent.ergcFrame (h : Sent ws s) {pg} : Sent ws (s.ergcFrame pg).2 := by
  unfold State.ergcFrame
  dsimp only
  split
  · exact h.startPromotion
  · exact h.promoteOver

theorem Sent.ergcGate (h : Sent ws s) {pg} : Sent ws (s.ergcGate pg).2 := by
  unfold State.ergcGate
  refine .ite_snd h <| .ite_snd h <| .ite_snd ?_ h.ergcFrame
  dsimp only
  split
  · exact .ite_snd h.demoteFor.awaitFrame h.demoteFor.ergcFrame
  · split <;> exact h.demoteFor

theorem Sent.heatPromote (h : Sent ws s) {pg} : ∀ t ∈ s.heatPromote pg, Sent ws t := by
  unfold State.heatPromote
  dsimp only
  repeat' split
  all_goals rintro _ ⟨⟩
  · exact h.bump
  · exact h.startPromotion
  · exact h.promoteOver

theorem Sent.gate (h : Sent ws s) {pg count} : Sent ws (s.gate pg count).2 := by
  have hcounted : Sent ws (if count = true ∧ s.heatCounted pg = true then s.countHeat pg else s) := .ite h.countHeat h
  unfold State.gate
  refine .ite_snd h (.ite_snd h ?_)
  split
  · exact .ite_snd hcounted hcounted
  · refine .ite_snd h.ergcGate ?_
    generalize (if count = true ∧ s.heatCounted pg = true then s.countHeat pg else s) = s' at hcounted
    dsimp only
    split
    next t ht =>
      have hprom : Sent ws t := by
        split at ht
        · exact hcounted.heatPromote t ht
        · exact nomatch ht
      exact .ite_snd hprom hprom
    · exact hcounted

theorem Sent.touch (h : Sent ws s) {pg} : Sent ws (s.touch pg) := by
  unfold State.touch
  exact .ite h.setPage.dropOwed.lit h

theorem Sent.dropMig (h : Sent ws s) {pg} : Sent ws (s.dropMig pg) := h
theorem Sent.startMove (h : Sent ws s) {pg frame} : Sent ws (s.startMove pg frame) := h.holdPage.setPage.lit
theorem Sent.countNosub (h : Sent ws s) : Sent ws s.countNosub := h.wr

theorem Sent.poisonPage (h : Sent ws s) {pg} : Sent ws (s.poisonPage pg) := by
  unfold State.poisonPage
  exact h.withMem.foldl fun _ _ h => h.setPsn

theorem Sent.takeSub (h : Sent ws s) {pg frame} : Sent ws (s.takeSub pg frame) := by
  unfold State.takeSub
  exact .ite h.setPage.poisonPage.countNosub <| .ite h h.startMove

theorem Sent.wantPage (h : Sent ws s) {pg} : Sent ws (s.wantPage pg) := by
  unfold State.wantPage
  refine .ite (.ite h ?_) <| .ite h <| .ite h.setPage <| .ite h.setPage.ergcGate <| .ite ?_ h.setPage
  · split
    · exact h.takeSub
    · exact h
  · split
    · exact h.setPage.startPromotion
    · exact h.setPage

theorem Sent.abandonMig (h : Sent ws s) {m} : Sent ws (s.abandonMig m) := by
  unfold State.abandonMig
  refine .ite (.ite h.lit.dropMig.bump.setPage.creditOasis.reform.setHeat h.lit.dropMig.bump.setPage.creditOasis.reform) ?_
  dsimp only
  split
  · exact h.lit.dropMig.bump.setPage.lit.wantPage
  · exact h.lit.dropMig.bump.setPage.lit

theorem Sent.retryDemotions (h : Sent ws s) : Sent ws s.retryDemotions := by
  unfold State.retryDemotions
  exact h.lit.foldl fun _ _ h => .ite h <| .ite h.demote h.demote.lit

/-! ### Loads, stores and atomics at a home -/

theorem Sent.wbufPut (h : Sent ws s) {l off bs psn v} : Sent ws (s.wbufPut l off bs psn v) := h
theorem Sent.closeRead (h : Sent ws s) {l} : Sent ws (s.closeRead l) := h

theorem Sent.storeLine (h : Sent ws s) {l off bs psn v} : Sent ws (s.storeLine l off bs psn v).2 := by
  unfold State.storeLine
  exact .ite_snd h.closeRead.writeLine.touch.wbufPut h.closeRead.writeLine.touch

theorem Sent.writeRun (h : Sent ws s) {l rs} : Sent ws (s.writeRun l rs) := by
  unfold State.writeRun
  exact .foldl (.ite_snd h.storeLine <| h.foldl_snd fun _ _ h => h.storeLine) fun _ _ h => h.finishCmp

theorem Sent.doStore (h : Sent ws s) {r} : Sent ws (s.doStore r) := by
  unfold State.doStore
  split
  · exact h.writeRun
  · exact h.storeLine.finishCmp

theorem Sent.doRead (h : Sent ws s) {r grant} : Sent ws (s.doRead r grant) := h.readLine.finish

theorem Sent.atomicDone (h : Sent ws s) {r} : Sent ws (s.atomicDone r).2 := by
  unfold State.atomicDone
  exact .ite_snd h.checkLine h.checkLine.storeLine

theorem Sent.doAtomic (h : Sent ws s) {r} : Sent ws (s.doAtomic r) := by
  unfold State.doAtomic
  split
  · exact (Sent.foldl_snd (b := (([], s) : List (Req × Resp) × State)) h fun _ _ h => h.atomicDone).dropMerged.answerAll
  · exact h.atomicDone.finish

theorem Sent.trayRead (h : Sent ws s) {r comb} : Sent ws (s.trayRead r comb) := by
  unfold State.trayRead
  exact .ite h.stamp.lit.bump <| .traySend <| .ite h.stamp.bump h.stamp

theorem Sent.noFrameAnswer (h : Sent ws s) {r} : Sent ws (s.noFrameAnswer r) := by
  unfold State.noFrameAnswer
  exact .ite h.finish h.finishCmp

theorem Sent.together (h : Sent ws s) {pg rs act} (hact : ∀ {s}, Sent ws s → Sent ws (act s)) :
    Sent ws (s.together pg rs act) := by
  unfold State.together
  dsimp only
  split
  · exact hact h.gate
  · exact h.gate.foldl fun _ _ h => h.lateWait
  · exact h.gate.foldl fun _ _ h => h.lateWait
  · exact h.gate.foldl fun _ _ h => h.noFrameAnswer
  · exact .ite (hact h.gate) <| h.gate.foldl fun _ _ h => h.lateWait

theorem Sent.applyRun (h : Sent ws s) {l} : Sent ws (s.applyRun l) := by
  unfold State.applyRun
  split
  · exact h
  · exact h
  · dsimp only
    split
    · exact h.lit.foldl fun _ _ h => h.finishCmp
    · exact h.lit.together (fun h => h.writeRun)

theorem Sent.endRun (h : Sent ws s) {m x} : Sent ws (s.endRun m x) := by
  unfold State.endRun
  exact .ite h h.applyRun

theorem Sent.openEntry (h : Sent ws s) {l bytes psn known} : Sent ws (s.openEntry l bytes psn known) := by
  unfold State.openEntry
  exact .ite h.lit h.bump

theorem Sent.plainRead (h : Sent ws s) {r x} : Sent ws (s.plainRead r x) := by
  unfold State.plainRead
  dsimp only
  split
  · exact .ite h.bump.finish <| .trayRead <| .ite h h.bump
  · exact .ite h.trayRead <| .ite h.readLine.finish h.readLine.finish.openEntry

theorem Sent.plainStore (h : Sent ws s) {r x} : Sent ws (s.plainStore r x) := by
  unfold State.plainStore
  refine .ite ?_ h.doStore
  split
  · exact h.stamp.lit.bump
  · exact .ite h.doStore.lit h.doStore.bump

theorem Sent.plainAtomic (h : Sent ws s) {r x} : Sent ws (s.plainAtomic r x) := by
  unfold State.plainAtomic
  refine .ite ?_ <| .ite h.doAtomic h.trayRead
  split
  · exact h.stamp.lit.bump
  · exact .ite (.lit <| .ite h.doAtomic h.trayRead) <| .bump <| .ite h.doAtomic h.trayRead

/-! ### The directory -/

theorem Sent.setCg (h : Sent ws s) {g c} : Sent ws (s.setCg g c) := h
theorem Sent.setDir (h : Sent ws s) {l e} : Sent ws (s.setDir l e) := h
theorem Sent.dropDir (h : Sent ws s) {l} : Sent ws (s.dropDir l) := h

theorem Sent.stable (h : Sent ws s) {l e st own shr} : Sent ws (s.stable l e st own shr) := by
  unfold State.stable
  exact .ite h.dropDir <| .ite h.dropDir h.setDir

theorem Sent.sendSnoop (h : Sent ws s) {l opc g f slot} : Sent ws (s.sendSnoop l opc g f slot).2 := by
  unfold State.sendSnoop
  dsimp only
  split
  · exact h.bump
  · split
    · exact h.bump
    · exact .send <| .ite h.bump h.bump.lit

theorem Sent.fwdGone (h : Sent ws s) {l id} : Sent ws (s.fwdGone l id) := h

theorem Sent.sendSnoops (h : Sent ws s) {l opc g f slots} : Sent ws (s.sendSnoops l opc g f slots).2 := by
  unfold State.sendSnoops
  exact h.foldl_snd fun _ _ h => h.sendSnoop

theorem Sent.faultedAnswer (h : Sent ws s) {r} : Sent ws (s.faultedAnswer r) := by
  unfold State.faultedAnswer
  exact .ite h.finish <| .ite h.finishCmp h.finishCmp

theorem Sent.grantNow (h : Sent ws s) {l e r x} : Sent ws (s.grantNow l e r x) := by
  unfold State.grantNow
  exact .ite (.ite (.stable <| .ite h.readLine.finish h.readLine) <| .dropDir <| .ite h.readLine.finish h.readLine) <|
    .stable <| .ite h.readLine.finish h.readLine

theorem Sent.noteLate (h : Sent ws s) {r c pg} : Sent ws (s.noteLate r c pg).2 := by
  unfold State.noteLate
  exact .ite_snd h h.bump.lateLog

theorem Sent.grant (h : Sent ws s) {l e r x} : Sent ws (s.grant l e r x) := by
  unfold State.grant
  refine .ite ?_ h.grantNow
  dsimp only
  split
  · exact h.noteLate.setDir
  · exact h.setDir.traySend

theorem Sent.trayAsk (h : Sent ws s) {r} : Sent ws (s.trayAsk r) := by
  unfold State.trayAsk
  dsimp only
  split
  · exact h.lateWait
  · exact h.trayRead

theorem Sent.recallDone (h : Sent ws s) {l e} : Sent ws (s.recallDone l e) := by
  unfold State.recallDone
  dsimp only
  split
  · exact h.dropDir
  · refine .ite h.dropDir ?_
    split
    · exact h.dropDir.doStore
    · exact .ite h.dropDir.doAtomic h.dropDir.trayAsk
    · exact h.dropDir

theorem Sent.recall (h : Sent ws s) {l e f r aft} : Sent ws (s.recall l e f r aft) := by
  unfold State.recall
  exact .ite h.sendSnoops.recallDone h.sendSnoops.setDir

theorem Sent.askOwner (h : Sent ws s) {l e r excl aft} : Sent ws (s.askOwner l e r excl aft) := by
  unfold State.askOwner
  dsimp only
  split
  · exact h
  · exact h.sendSnoops.setDir

theorem Sent.invalidate (h : Sent ws s) {l e r who aft} : Sent ws (s.invalidate l e r who aft) := h.sendSnoops.setDir

theorem Sent.giveUp (h : Sent ws s) {l e} : Sent ws (s.giveUp l e) := by
  unfold State.giveUp
  exact .ite h.dropDir h.recall

theorem Sent.transitionDone (h : Sent ws s) {l e} : Sent ws (s.transitionDone l e) := by
  unfold State.transitionDone
  split
  · split
    · exact .ite h.stable h.askOwner
    · exact h.grant
  · split
    · exact .ite h.finish.stable <| .ite h.stable h.stable
    · exact .ite (.stable <| .ite h.finish h) <| .ite h.finish.bump.dropDir h.dropDir
  · exact h.giveUp
  · exact h.recallDone

theorem Sent.wbStale (h : Sent ws s) {r} : Sent ws (s.wbStale r) := h.finishCmp.bump
theorem Sent.upgLost (h : Sent ws s) {r} : Sent ws (s.upgLost r) := h.finish.bump
theorem Sent.protoErr (h : Sent ws s) {r} : Sent ws (s.protoErr r) := h.finishCmp.bump
theorem Sent.ownerWrite (h : Sent ws s) {r} : Sent ws (s.ownerWrite r) := h.storeLine.finishCmp

theorem Sent.readNow (h : Sent ws s) {r} : Sent ws (s.readNow r) := by
  unfold State.readNow
  exact .ite h.trayAsk h.doRead

theorem Sent.dirU (h : Sent ws s) {l g r a} : Sent ws (s.dirU l g r a) := by
  unfold State.dirU
  split
  · dsimp only
    split
    · exact h.grant
    · split
      · exact .wait <| .ite h.bump.dropDir h.bump.recall
      · exact h.bump.wait
  · dsimp only
    split
    · exact h.grant
    · split
      · exact .wait <| .ite h.bump.dropDir h.bump.recall
      · exact h.bump.wait
  · exact h.upgLost
  · exact h.wbStale
  · exact h.wbStale
  · exact h.readNow
  · exact h.doStore
  · exact .ite h.doAtomic h.trayAsk
  · exact h.finishCmp

theorem Sent.dirS (h : Sent ws s) {l e r q a} : Sent ws (s.dirS l e r q a) := by
  unfold State.dirS
  split
  · exact .ite h.protoErr h.grant
  · exact .ite h.protoErr h.invalidate
  · exact .ite h.invalidate h.upgLost
  · exact h.stable.wbStale
  · exact .ite h.stable.finishCmp h.wbStale
  · exact h.readNow
  · exact h.recall
  · exact h.recall
  · exact h.finishCmp

theorem Sent.dirX (h : Sent ws s) {l e r q a} : Sent ws (s.dirX l e r q a) := by
  unfold State.dirX
  split
  · exact .ite h.protoErr h.askOwner
  · exact .ite h.protoErr h.askOwner
  · exact .ite h.finish h.upgLost
  · exact .ite h.ownerWrite.dropDir h.wbStale
  · exact .ite h.finishCmp.dropDir h.wbStale
  · exact h.askOwner
  · exact h.recall
  · exact h.recall
  · exact h.finishCmp

theorem Sent.dirO (h : Sent ws s) {l e r q a} : Sent ws (s.dirO l e r q a) := by
  unfold State.dirO
  split
  · exact .ite h.protoErr h.askOwner
  · exact .ite h.protoErr <| .ite h.askOwner h.invalidate
  · exact .ite h.invalidate <| .ite h.invalidate h.upgLost
  · exact .ite h.ownerWrite.stable h.stable.wbStale
  · exact .ite h.protoErr <| .ite h.stable.finishCmp h.wbStale
  · exact h.askOwner
  · exact h.recall
  · exact h.recall
  · exact h.finishCmp

theorem Sent.wbDuring (h : Sent ws s) {l e r q} : Sent ws (s.wbDuring l e r q) := by
  unfold State.wbDuring
  exact .ite (.ite h.setDir.ownerWrite h.setDir.wbStale) h.finishCmp

theorem Sent.sendGroupFault (h : Sent ws s) {g cause} : Sent ws (s.sendGroupFault g cause) := h.sendMulti

theorem Sent.groupFault (h : Sent ws s) {g cause} : Sent ws (s.groupFault g cause) := by
  unfold State.groupFault
  refine .ite h <| .wr <| .wr <| .setCg <| .sendGroupFault <|
    .foldl (.foldl (h.wr.wr.wr.advance.event.lit.foldl fun _ _ h => ?_) fun _ _ h => h.faultedAnswer) fun _ _ h =>
      h.faultedAnswer
  split
  · exact .ite h h.faultedAnswer
  · exact h

theorem Sent.allGroupsFault (h : Sent ws s) : Sent ws s.allGroupsFault := by
  unfold State.allGroupsFault
  exact h.foldl fun _ _ h => .ite h.groupFault h

theorem Sent.dirCheckOne (h : Sent ws s) {l} : Sent ws (s.dirCheckOne l) := by
  unfold State.dirCheckOne
  refine .ite h.lit <| .ite h.lit.dropDir.raise.allGroupsFault <| .ite h.lit.free.dropDir.raise.allGroupsFault ?_
  split
  · exact .ite h.lit.free.dropDir.raise.allGroupsFault h.lit.free.setDir
  · exact h.lit.free

theorem Sent.dirCheck (h : Sent ws s) {l} : Sent ws (s.dirCheck l) := by
  unfold State.dirCheck
  exact .ite h <| h.foldl fun _ _ h => h.dirCheckOne

theorem Sent.settleLine (h : Sent ws s) {l} : Sent ws (s.settleLine l) := by
  unfold State.settleLine
  split
  · exact .ite h.transitionDone h
  · exact h

theorem Sent.dirAccess (h : Sent ws s) {r g} : Sent ws (s.dirAccess r g) := by
  unfold State.dirAccess
  refine .ite h.dirCheck.faultedAnswer ?_
  dsimp only
  split
  · exact .finishCmp <| .ite h.dirCheck.bump h.dirCheck
  · split
    · exact .dirU <| .ite h.dirCheck.bump h.dirCheck
    · exact .ite (.ite (.wbDuring <| .ite h.dirCheck.bump h.dirCheck) <| .wait <| .ite h.dirCheck.bump h.dirCheck) <|
        .ite (.settleLine <| .dirS <| .ite h.dirCheck.bump h.dirCheck) <| .ite (.dirX <| .ite h.dirCheck.bump h.dirCheck) <|
        .ite (.settleLine <| .dirO <| .ite h.dirCheck.bump h.dirCheck) <| .faultedAnswer <| .ite h.dirCheck.bump h.dirCheck

theorem Sent.afterShare (h : Sent ws s) {l e keep q} : Sent ws (s.afterShare l e keep q) := by
  unfold State.afterShare
  dsimp only
  split
  · exact h.stable
  · exact .ite h.stable <| .ite h.stable h.stable

theorem Sent.ownerHack (h : Sent ws s) {l e m} : Sent ws (s.ownerHack l e m) := by
  unfold State.ownerHack
  dsimp only
  split
  · exact .giveUp <| .ite h.storeLine h
  · refine .ite (.ite (.ite (.ite (.dropDir <| .ite (.bump <| .ite h.storeLine h) <| .ite h.storeLine h) <| .lit <|
            .dropDir <| .ite (.bump <| .ite h.storeLine h) <| .ite h.storeLine h) <|
          .ite (.dropDir <| .markDone <| .ite (.bump <| .ite h.storeLine h) <| .ite h.storeLine h) <| .stable <| .markDone <|
          .ite (.bump <| .ite h.storeLine h) <| .ite h.storeLine h) <|
        .grant <| .ite (.bump <| .ite h.storeLine h) <| .ite h.storeLine h) <|
      .ite (.afterShare <| .ite (.ite (.bump <| .ite h.storeLine h) <| .ite h.storeLine h) <| .markDone <|
        .ite (.bump <| .ite h.storeLine h) <| .ite h.storeLine h) <|
      .ite (.afterShare <| .ite (.bump <| .ite h.storeLine h) <| .ite h.storeLine h) <| .ite ?_ <| .afterShare <| .finish <|
      .readLine <| .ite (.bump <| .ite h.storeLine h) <| .ite h.storeLine h
    split
    · exact .ite (.grant <| .afterShare <| .ite (.bump <| .ite h.storeLine h) <| .ite h.storeLine h) <| .trayAsk <|
        .afterShare <| .ite (.bump <| .ite h.storeLine h) <| .ite h.storeLine h
    · exact .ite (.grant <| .afterShare <| .ite (.bump <| .ite h.storeLine h) <| .ite h.storeLine h) <| .trayAsk <|
        .afterShare <| .ite (.bump <| .ite h.storeLine h) <| .ite h.storeLine h

theorem Sent.recallHack (h : Sent ws s) {l e slot m} : Sent ws (s.recallHack l e slot m) := by
  unfold State.recallHack
  exact .ite (.transitionDone <| .setDir <| .ite h.storeLine h) <| .setDir <| .ite h.storeLine h

theorem Sent.flushedSnoop (h : Sent ws s) {l slot} : Sent ws (s.flushedSnoop l slot) := by
  unfold State.flushedSnoop
  dsimp only
  split
  · exact h.dirCheck
  · refine .ite h.dirCheck <| .ite (.groupFault ?_) <| .recallHack ?_
    · split
      · exact h.dirCheck.fwdGone
      · exact h.dirCheck
    · split
      · exact h.dirCheck.fwdGone
      · exact h.dirCheck

theorem Sent.snoopHack (h : Sent ws s) {l id m} : Sent ws (s.snoopHack l id m) := by
  unfold State.snoopHack
  dsimp only
  split
  · exact .bump <| .dirCheck <| .ite h h.fwdGone
  · split
    · exact .bump <| .dirCheck <| .ite h h.fwdGone
    · exact .ite (.bump <| .dirCheck <| .ite h h.fwdGone) <|
        .ite (.ite (.recallHack <| .dirCheck <| .ite h h.fwdGone) <| .flushedSnoop <| .bump <| .dirCheck <|
          .ite h h.fwdGone) <|
        .ite (.ownerHack <| .dirCheck <| .ite h h.fwdGone) <| .flushedSnoop <| .bump <| .dirCheck <| .ite h h.fwdGone

theorem Sent.grantLost (h : Sent ws s) {l} : Sent ws (s.grantLost l) := by
  unfold State.grantLost
  split
  · exact h
  · refine .ite (.stable ?_) <| .dropDir ?_
    · split
      · exact .ite h h.finish
      · exact h
    · split
      · exact .ite h h.finish
      · exact h

theorem Sent.grantAgain (h : Sent ws s) : Sent ws s.grantAgain := by
  unfold State.grantAgain
  refine h.foldl fun _ _ h => ?_
  split
  · exact h.grant
  · exact h

/-! ### Published regions -/

theorem Sent.setRegion (h : Sent ws s) {i x} : Sent ws (s.setRegion i x) := h

theorem Sent.sendNote (h : Sent ws s) {i id addr nl r} : Sent ws (s.sendNote i id addr nl r) := by
  unfold State.sendNote
  split
  · exact h
  · exact h.send.bump.lit

theorem Sent.sendNotes (h : Sent ws s) {i x addr nlines r} : Sent ws (s.sendNotes i x addr nlines r) := by
  unfold State.sendNotes
  exact h.foldl fun _ _ h => h.foldl fun _ _ h' => h'.sendNote

theorem Sent.pubAnswer (h : Sent ws s) {r ver} : Sent ws (s.pubAnswer r ver) := h.answer

theorem Sent.pubBegin (h : Sent ws s) {i r} : Sent ws (s.pubBegin i r) := by
  unfold State.pubBegin
  exact .ite h.finish.bump <| .ite h.finishCmp <| .ite h.finishCmp h.setRegion

theorem Sent.pubNext (h : Sent ws s) {i n} : Sent ws (s.pubNext i n) := by
  induction n generalizing s with
  | zero => exact h
  | succ n ih =>
    unfold State.pubNext
    dsimp only
    split
    · exact h
    · exact .ite h (ih h.setRegion.pubBegin)

theorem Sent.pubEnd (h : Sent ws s) {i} : Sent ws (s.pubEnd i) := by
  unfold State.pubEnd
  dsimp only
  split
  · exact h
  · exact h.pubAnswer.setRegion.pubNext

theorem Sent.pubDrop (h : Sent ws s) {i} : Sent ws (s.pubDrop i) := by
  unfold State.pubDrop
  exact .ite h.setRegion.pubNext h

theorem Sent.noteDone (h : Sent ws s) {n} : Sent ws (s.noteDone n) := by
  unfold State.noteDone
  exact .ite h.lit <| .ite h.lit.pubEnd h.lit.finishCmp

theorem Sent.dropSub (h : Sent ws s) {n c} : Sent ws (s.dropSub n c) := h.setRegion.bump.event.noteDone

theorem Sent.unsubscribe (h : Sent ws s) {id} : Sent ws (s.unsubscribe id) := by
  unfold State.unsubscribe
  exact h.lit.foldl fun _ _ h => h.noteDone

theorem Sent.pubAccess (h : Sent ws s) {r t} (ht : s.pubAccess r = .done t) : Sent ws t := by
  unfold State.pubAccess at ht
  dsimp only at ht
  repeat' split at ht
  all_goals cases ht
  · exact h.finish
  · exact h.setRegion.finishCmp
  · exact h.setRegion.finishCmp
  · exact h.setRegion
  · exact h.pubBegin
  · exact h.finishCmp
  · exact h.finishCmp
  · exact h.sendNotes
  · exact h.finishCmp
  · exact h.finishCmp
  · exact h.finishCmp

end Sent

end Sys2Proof.Proofs
end

section
/-! SUPPORT. What has left the device is not taken back: the engines' requests, operations and the dies that perform them. -/

namespace Sys2Proof.Proofs
open Sys2Proof Sys2Proof.Machine

section Sent
variable {ws : List Wire} {s : State}

/-! ### A request at its home, and the engines' requests -/

theorem Sent.holdRelease (h : Sent ws s) {r} : Sent ws (s.holdRelease r) := by
  unfold State.holdRelease
  exact .wait <| .ite h h.bump

theorem Sent.viaTier (h : Sent ws s) {r x act} (hact : ∀ {s r}, Sent ws s → Sent ws (act s r)) :
    Sent ws (s.viaTier r x act) := by
  unfold State.viaTier
  dsimp only
  split
  · exact hact h.endRun.gate
  · exact h.endRun.gate.lateWait
  · exact h.endRun.gate.lateWait
  · exact h.endRun.gate.noFrameAnswer
  · refine .ite h.endRun.gate.lateWait <| .ite ?_ (hact h.endRun.gate)
    split
    · exact h.endRun.gate.lateWait
    · exact hact h.endRun.gate

theorem Sent.plainAct (h : Sent ws s) {r x} : Sent ws (s.plainAct r x) := by
  unfold State.plainAct
  exact .ite h.plainRead <| .ite h.plainStore <| .ite h.plainAtomic h.finishCmp

theorem Sent.plainPath (h : Sent ws s) {r x} : Sent ws (s.plainPath r x) := by
  unfold State.plainPath
  exact .ite (h.viaTier (fun h => h.plainAct)) h.finishCmp

theorem Sent.poolAccess (h : Sent ws s) {r} : Sent ws (s.poolAccess r) := by
  unfold State.poolAccess
  dsimp only
  split
  · exact h.finishCmp
  · exact h
  · refine .ite (.ite h.wait (.ite h.dirAccess (h.viaTier fun h => h.dirAccess))) (.ite ?_ h.plainPath)
    split
    next hdone => exact h.pubAccess hdone
    · exact h.plainPath
    · split
      · exact h.finishCmp
      · exact h.plainPath
      · exact h

theorem Sent.engSend (h : Sent ws s) {r} : Sent ws (s.engSend r) := (h.passPoint (fun h => h.poolAccess))
theorem Sent.engAsk (h : Sent ws s) {o src sub sc l} : Sent ws (s.engAsk o src sub sc l) := h.lit.engSend

theorem Sent.engAskLines (h : Sent ws s) {o src sub sc ls} : Sent ws (s.engAskLines o src sub sc ls) := by
  unfold State.engAskLines
  exact h.foldl fun _ _ h => .ite h.engAsk h

theorem Sent.engNote (h : Sent ws s) {o l} : Sent ws (s.engNote o l) := h

theorem Sent.engTry (h : Sent ws s) {o src sub sc f} (hact : ∀ {s}, Sent ws s → Sent ws (f s)) :
    Sent ws ((s.engTry o src sub sc f).2) := by
  unfold State.engTry
  exact .ite_snd (hact h) h.engAskLines

theorem Sent.engForget (h : Sent ws s) {o} : Sent ws (s.engForget o) := h

theorem Sent.engLine (h : Sent ws s) {o l} : Sent ws (s.engLine o l).2 := by
  unfold State.engLine
  split
  · exact h
  · split
    · exact h
    · refine .ite_snd h <| .ite_snd (.ite h.applyRun.gate h.applyRun) ?_
      split
      · exact .ite_snd (.readLine <| .ite (.bump <| .ite h.applyRun.gate h.applyRun) <| .ite h.applyRun.gate h.applyRun) <|
          .readLine <| .ite (.bump <| .ite h.applyRun.gate h.applyRun) <| .ite h.applyRun.gate h.applyRun
      · exact .readLine <| .ite h.applyRun.gate h.applyRun

theorem Sent.engWriteLine (h : Sent ws s) {o src share sub sc l bs psn} :
    Sent ws (s.engWriteLine o src share sub sc l bs psn) :=
  h.engSend

theorem Sent.engWriteWord (h : Sent ws s) {o src share sub sc a bs psn} :
    Sent ws (s.engWriteWord o src share sub sc a bs psn) :=
  h.engSend

theorem Sent.engDropReqs (h : Sent ws s) {here} : Sent ws (s.engDropReqs here) := h.lit.lit.lit
theorem Sent.engDrop (h : Sent ws s) {o} : Sent ws (s.engDrop o) := h.engDropReqs.engForget

/-! ### Operation slots and RGF dies -/

theorem Sent.modSlot (h : Sent ws s) {k f} : Sent ws (s.modSlot k f) := h.setSlot
theorem Sent.opOutcome (h : Sent ws s) {k rank st} : Sent ws (s.opOutcome k rank st) := h.modSlot
theorem Sent.opEnd (h : Sent ws s) {k rank st} : Sent ws (s.opEnd k rank st) := h.modSlot
theorem Sent.opRefuse (h : Sent ws s) {k st} : Sent ws (s.opRefuse k st) := h.modSlot

theorem Sent.opRead (h : Sent ws s) {k a n} : Sent ws (s.opRead k a n).2 := by
  unfold State.opRead
  exact h.foldl_snd fun _ _ h => .ite (.modSlot <| .engLine <| .ite h.engNote h) <| .engLine <| .ite h.engNote h

theorem Sent.opWord (h : Sent ws s) {k a n} : Sent ws (s.opWord k a n).2 := h.opRead
theorem Sent.onShare (h : Sent ws s) {k i} : Sent ws (s.onShare k i) := h.modSlot

theorem Sent.opWritePiece (h : Sent ws s) {k sc sub a bs psn} : Sent ws (s.opWritePiece k sc sub a bs psn) := by
  unfold State.opWritePiece
  exact .ite (.engWriteLine <| .ite h.modSlot.opOutcome h) <|
    .foldl (.ite h.modSlot.opOutcome h) fun _ _ h => h.engWriteWord

theorem Sent.setOwnq (h : Sent ws s) {d q} : Sent ws (s.setOwnq d q) := h.lit.wr.wr

theorem Sent.setDieq (h : Sent ws s) {d q} : Sent ws (s.setDieq d q) := by
  unfold State.setDieq
  split
  · exact h.setOwnq.setOwnq
  · exact h.setOwnq

theorem Sent.bumpPair (h : Sent ws s) {f d n} : Sent ws (s.bumpPair f d n) := by
  unfold State.bumpPair
  split
  · exact h.bump.bump
  · exact h.bump

theorem Sent.setLaunchq (h : Sent ws s) {q} : Sent ws (s.setLaunchq q) := h.lit.wr

theorem Sent.placeWaiting (h : Sent ws s) : Sent ws s.placeWaiting := by
  unfold State.placeWaiting
  refine h.setLaunchq.foldl fun _ _ h => ?_
  split
  · exact h.setDieq
  · exact h.setLaunchq

theorem Sent.placePart (h : Sent ws s) {x} : Sent ws (s.placePart x) := h.setLaunchq.placeWaiting

theorem Sent.dropParts (h : Sent ws s) {k} : Sent ws (s.dropParts k) := by
  unfold State.dropParts
  exact h.setLaunchq.foldl fun _ _ h => h.setDieq

/-! ### The work of a part -/

theorem Sent.countBlocks (h : Sent ws s) {d bs} : Sent ws (s.countBlocks d bs) := by
  unfold State.countBlocks
  refine h.foldl fun _ _ h => ?_
  split
  · exact h.bumpPair
  · exact .ite (.ite h.bumpPair h.bumpPair) <| .bumpPair <| .ite h.bumpPair h.bumpPair

theorem Sent.planRead (h : Sent ws s) {k opc} : Sent ws (s.planRead k opc).2 := by
  unfold State.planRead
  refine .ite_snd (.ite_snd ?_ h) (.ite_snd h (.ite_snd h (.ite_snd h h)))
  dsimp only
  exact h.opWord.opWord

/-! ### The journal -/

theorem Sent.setScan (h : Sent ws s) {d x} : Sent ws (s.setScan d x) := by
  unfold State.setScan
  exact .ite h.lit.wr h.lit

theorem Sent.journalAdd (h : Sent ws s) {d e} : Sent ws (s.journalAdd d e) := by
  unfold State.journalAdd
  exact .ite h.setScan.advance h.setScan

theorem Sent.journalMap (h : Sent ws s) {d ok f} : Sent ws (s.journalMap d ok f) := h.setScan
theorem Sent.journalEnd (h : Sent ws s) {d opid slot} : Sent ws (s.journalEnd d opid slot) := h.journalMap

/-! ### Collectives -/

theorem Sent.updColl (h : Sent ws s) {tag f} : Sent ws (s.updColl tag f) := h
theorem Sent.updChunk (h : Sent ws s) {tag i f} : Sent ws (s.updChunk tag i f) := h.updColl

theorem Sent.freeAccs (h : Sent ws s) {c} : Sent ws (s.freeAccs c) := by
  unfold State.freeAccs
  exact h.foldl fun _ _ h => h.lower

theorem Sent.collJournalEnd (h : Sent ws s) {c d} : Sent ws (s.collJournalEnd c d) := h.journalMap

theorem Sent.collOver (h : Sent ws s) {tag rank st} : Sent ws (s.collOver tag rank st) := by
  unfold State.collOver
  split
  · exact h
  · exact .ite h <| .updColl <| h.freeAccs.foldl fun _ _ h => h.collJournalEnd

theorem Sent.collSlotEnd (h : Sent ws s) {c k rank st bitmap} : Sent ws (s.collSlotEnd c k rank st bitmap) := h.modSlot

theorem Sent.collEnd (h : Sent ws s) {tag rank st bitmap} : Sent ws (s.collEnd tag rank st bitmap) := by
  unfold State.collEnd
  split
  · exact h
  · exact .collOver <| .ite (.engDrop <| h.foldl fun _ _ h => h.collSlotEnd) <| h.foldl fun _ _ h => h.collSlotEnd

theorem Sent.collSettle (h : Sent ws s) {tag} : Sent ws (s.collSettle tag) := by
  unfold State.collSettle
  split
  · exact h
  · exact .ite h <| .ite h.collEnd <| .ite h.collEnd h.collEnd

theorem Sent.collLeave (h : Sent ws s) {k} : Sent ws (s.collLeave k) := by
  unfold State.collLeave
  split
  · exact h
  · exact .foldl (.ite h.updColl.engDrop h.updColl) fun _ _ h => h.poolAccess

theorem Sent.collLaunch (h : Sent ws s) {k} : Sent ws (s.collLaunch k) := by
  unfold State.collLaunch
  refine .ite h.opRefuse ?_
  dsimp only
  split
  · refine .ite ?_ h.opRefuse.bump
    split
    · exact .collSlotEnd <| .modSlot <| h.updColl.foldl fun _ _ h => h.journalMap
    · exact .modSlot <| h.updColl.foldl fun _ _ h => h.journalMap
  · exact .ite h.opRefuse <| .ite h.opRefuse.bump h.lit.wr.modSlot

theorem Sent.contribOk (h : Sent ws s) {tag i r} : Sent ws (s.contribOk tag i r) := h.markDone.ingPlaced.answerFrom

theorem Sent.collEnter (h : Sent ws s) {c d slot} : Sent ws (s.collEnter c d slot) := by
  unfold State.collEnter
  exact .ite h h.journalAdd

theorem Sent.collJournal (h : Sent ws s) {c i} : Sent ws (s.collJournal c i) := by
  unfold State.collJournal
  exact h.foldl fun _ _ h => h.collEnter

theorem Sent.deliver (h : Sent ws s) {tag i rank} : Sent ws (s.deliver tag i rank) := by
  unfold State.deliver
  split
  · exact h
  · exact .ite h <| .ite h.lit.countBlocks.bumpPair.bumpPair.updChunk h.lit.countBlocks.bumpPair.bumpPair.bump.updChunk

theorem Sent.stageRun (h : Sent ws s) {d} : Sent ws (s.stageRun d) := by
  unfold State.stageRun
  exact h.foldl fun _ _ h => h.deliver

theorem Sent.contribLine (h : Sent ws s) {r tag rank res} : Sent ws (s.contribLine r tag rank res).2 := by
  unfold State.contribLine
  split
  · exact h.finishCmp
  · refine .ite_snd h.finishCmp ?_
    dsimp only
    split
    · exact h.contribOk.bump
    · exact .ite_snd h.contribOk.bump <| .ite_snd h.contribOk.bump <| .ite_snd h.contribOk <| .ite_snd h.updColl <|
        .ite_snd h.updColl <| .ite_snd h.bump.updColl <| .deliver <| .contribOk <| .updChunk <| .ite h h.advance.collJournal

theorem Sent.collStop (h : Sent ws s) {tag slot st} : Sent ws (s.collStop tag slot st) := by
  unfold State.collStop
  refine .collSettle <| .updColl ?_
  split
  · exact h.engDropReqs
  · exact h

/-! ### Dies that err, fail and pair -/

theorem Sent.rgfSummary (h : Sent ws s) : Sent ws s.rgfSummary := by
  unfold State.rgfSummary
  exact .ite (.setDegraded <| .wr <| .wr <| .wr <| .wr <| .wr <| .wr <| h.foldl fun _ _ h => h.wr) <| .wr <| .wr <| .wr <|
    .wr <| .wr <| .wr <| h.foldl fun _ _ h => h.wr

theorem Sent.fillq (h : Sent ws s) {d q} : Sent ws (s.fillq d q) := h.setDieq.setLaunchq

theorem Sent.setRole (h : Sent ws s) {d r} : Sent ws (s.setRole d r) := by
  unfold State.setRole
  exact .ite h <| .healthLog <| .rgfSummary <| .ite h.wr.setOwnq.setScan h.wr.setOwnq

theorem Sent.accRefresh (h : Sent ws s) : Sent ws s.accRefresh := by
  unfold State.accRefresh
  exact h.foldl fun _ _ h => h.wr

theorem Sent.journalMove (h : Sent ws s) {d new slot} : Sent ws (s.journalMove d new slot) := by
  unfold State.journalMove
  exact .foldl (h.journalMap.foldl fun _ _ h => h.journalAdd) fun _ _ h =>
      .ite (.collJournalEnd <| .ite h.collEnter h) <| .ite h.collEnter h

theorem Sent.passSlot (h : Sent ws s) {p new} : Sent ws (s.passSlot p new) := by
  unfold State.passSlot
  exact .accRefresh <| .journalMove <| h.wr.setDieq.foldl fun _ _ h => .ite h.setDieq h.setLaunchq

theorem Sent.leaveService (h : Sent ws s) {d} : Sent ws (s.leaveService d) := by
  unfold State.leaveService
  split
  · exact .ite h <| .setRole <| h.foldl fun _ _ h => h.passSlot
  · refine .rgfSummary <| h.foldl fun _ _ h => ?_
    split
    · exact h.passSlot
    · exact h

theorem Sent.splitq (h : Sent ws s) {d} : Sent ws (s.splitq d) := by
  unfold State.splitq
  split
  · exact h
  · exact h.setOwnq.setOwnq

theorem Sent.unpair (h : Sent ws s) {d} : Sent ws (s.unpair d) := h.splitq.wr.setScan

theorem Sent.pairDie (h : Sent ws s) {d ev} : Sent ws (s.pairDie d ev) := by
  unfold State.pairDie
  split
  · exact .ite h.wr.wr.setScan.setRole.setRole.fillq.event h.wr.wr.setScan.setRole.setRole.fillq
  · exact h.unpair.event.leaveService.setRole

theorem Sent.retireDie (h : Sent ws s) {d auto} : Sent ws (s.retireDie d auto) := by
  unfold State.retireDie
  dsimp only
  split
  · exact .ite h.unpair.leaveService.setRole.wr.event h.unpair.leaveService.setRole
  · exact .ite (.setRole <| .unpair <| .ite h.unpair.leaveService.setRole.wr.event h.unpair.leaveService.setRole) <|
      .pairDie <| .unpair <| .ite h.unpair.leaveService.setRole.wr.event h.unpair.leaveService.setRole

theorem Sent.checkPairs (h : Sent ws s) : Sent ws s.checkPairs := by
  unfold State.checkPairs
  split
  · exact .ite h.retireDie h
  · exact h

theorem Sent.roleCheck (h : Sent ws s) {d} : Sent ws (s.roleCheck d) := by
  unfold State.roleCheck
  exact .checkPairs <| .ite (.ite h h.setScan.rgfSummary) <| .ite (.ite h.retireDie h.pairDie) <| .ite h.setRole.event <|
    .ite h.setRole.event h

theorem Sent.addScore (h : Sent ws s) {d n} : Sent ws (s.addScore d n) := by
  unfold State.addScore
  exact .ite h h.wr.roleCheck

theorem Sent.partOver (h : Sent ws s) {k} : Sent ws (s.partOver k) := h.modSlot

theorem Sent.residueFound (h : Sent ws s) {d res} : Sent ws (s.residueFound d res) := by
  unfold State.residueFound
  exact .ite (.addScore <| .ite (.addScore <| .ite (.event <| .bump <| .ite h.bump h) <| .ite h.bump h) <|
      .ite (.event <| .bump <| .ite h.bump h) <| .ite h.bump h) <|
    .ite (.addScore <| .ite (.event <| .bump <| .ite h.bump h) <| .ite h.bump h) <| .ite (.event <| .bump <| .ite h.bump h) <|
    .ite h.bump h

theorem Sent.pendingFound (h : Sent ws s) {d x} : Sent ws (s.pendingFound d x) := by
  unfold State.pendingFound
  exact .ite h.residueFound h

theorem Sent.pendingAll (h : Sent ws s) {k} : Sent ws (s.pendingAll k) := by
  unfold State.pendingAll
  exact h.foldl fun _ _ h => h.pendingFound

theorem Sent.stopRunning (h : Sent ws s) {d} : Sent ws (s.stopRunning d) := by
  unfold State.stopRunning
  exact h.setDieq.foldl fun _ _ h => h.engDropReqs.pendingFound.journalEnd.partOver

theorem Sent.lowCheck (h : Sent ws s) : Sent ws s.lowCheck := by
  unfold State.lowCheck
  exact .ite h.wr.event.setDegraded h

theorem Sent.collLost (h : Sent ws s) {d} : Sent ws (s.collLost d) := by
  unfold State.collLost
  exact h.foldl fun _ _ h => .foldl (h.foldl fun _ _ h' => h'.opOutcome) fun _ _ h' => h'.collStop

theorem Sent.dieHard (h : Sent ws s) {d} : Sent ws (s.dieHard d) := by
  unfold State.dieHard
  refine .ite h.setRole <| .rgfSummary ?_
  split
  · exact .setRole <| .unpair <| .stageRun <| .setScan <| .stopRunning <| .collLost <| h.foldl fun _ _ h => h.opOutcome
  · exact .ite (.setRole <| .unpair <| .setRole <| .unpair <| .stageRun <| .setScan <| .stopRunning <| .collLost <|
        h.foldl fun _ _ h => h.opOutcome) <|
      .pairDie <| .unpair <| .setRole <| .unpair <| .stageRun <| .setScan <| .stopRunning <| .collLost <|
      h.foldl fun _ _ h => h.opOutcome

theorem Sent.dieHardPass (h : Sent ws s) {d} : Sent ws (s.dieHardPass d) := by
  unfold State.dieHardPass
  exact .ite h.leaveService.rgfSummary.lowCheck h

/-! ### Ownership transfers and near memory -/

theorem Sent.opAnswer (h : Sent ws s) {k st aux} : Sent ws (s.opAnswer k st aux) := h.modSlot

theorem Sent.runOwnerOf (h : Sent ws s) {k} : Sent ws (s.runOwnerOf k) := by
  unfold State.runOwnerOf
  refine .ite h.opRefuse ?_
  dsimp only
  split
  · exact .ite h.modSlot.opAnswer <| .ite h.modSlot.opAnswer h.modSlot.opAnswer
  · exact h.modSlot.opAnswer

theorem Sent.xferClose (h : Sent ws s) {k rec_ fl} : Sent ws (s.xferClose k rec_ fl) := h.engSend.engSend

theorem Sent.xferOver (h : Sent ws s) {k} : Sent ws (s.xferOver k) := by
  unfold State.xferOver
  exact .ite h.modSlot h

theorem Sent.runXfer (h : Sent ws s) {k} : Sent ws (s.runXfer k) := by
  unfold State.runXfer
  refine .ite h.opRefuse ?_
  dsimp only
  split
  · exact h.opRefuse
  · refine .ite h.opRefuse ?_
    split
    · exact h.modSlot.opAnswer
    · exact .ite h.modSlot.opAnswer <|
        .ite (.ite h.modSlot.bump.opAnswer <| .ite h.modSlot.opAnswer h.modSlot.engWriteLine.opAnswer) <|
        .ite h.modSlot.opRead.opOutcome.opAnswer <| .ite h.modSlot.opRead.opAnswer <|
        .ite (.ite h.modSlot.opRead.opAnswer <| .ite h.modSlot.opRead.opAnswer <| .ite h.modSlot.opRead.bump.opAnswer <|
          .ite h.modSlot.opRead.opAnswer h.modSlot.opRead.xferClose.modSlot.xferOver) <|
        .ite h.modSlot.opRead.xferClose.opAnswer <| .ite h.modSlot.opRead.opAnswer h.modSlot.opRead.opAnswer

theorem Sent.ownStart (h : Sent ws s) {k} : Sent ws (s.ownStart k) := by
  unfold State.ownStart
  exact .ite h.modSlot <| .ite h.runOwnerOf <| .ite (h.engTry (fun h => h.runXfer)) (h.engTry (fun h => h.runXfer)).modSlot

theorem Sent.nearLine (h : Sent ws s) {k l} : Sent ws (s.nearLine k l).2 := h.opRead

theorem Sent.nearWrite (h : Sent ws s) {k l bs psn} : Sent ws (s.nearWrite k l bs psn) := by
  unfold State.nearWrite
  exact .ite h <| .ite h.opWritePiece h.opWritePiece.modSlot

theorem Sent.nearCopy (h : Sent ws s) {k r i bs psn} : Sent ws (s.nearCopy k r i bs psn) := by
  unfold State.nearCopy
  exact .ite h.nearWrite.setSusp h.nearWrite

theorem Sent.nearShare (h : Sent ws s) {k opc res u} : Sent ws (s.nearShare k opc res u) := by
  unfold State.nearShare
  refine .ite (h.onShare.foldl fun _ _ h => h.nearCopy) (.ite ?_ (.ite ?_ ?_))
  · exact h.onShare.foldl fun _ _ h => .ite h h.nearLine.nearCopy
  · exact h.onShare.foldl fun _ _ h => .modSlot (.ite h.nearLine.nearLine.opOutcome h.nearLine.nearLine)
  · exact .foldl (.ite h.onShare.free.event h.onShare) fun _ _ h =>
      .ite h (.nearWrite (.lit (.foldl_snd_snd h fun _ _ h => h.nearLine)))

theorem Sent.adderEnd (h : Sent ws s) {opid u} : Sent ws (s.adderEnd opid u) := by
  unfold State.adderEnd
  exact h.foldl fun _ _ h => h.journalMap

theorem Sent.nearDone (h : Sent ws s) {k opc u} : Sent ws (s.nearDone k opc u) := by
  unfold State.nearDone
  exact .modSlot <| .ite h.adderEnd h

theorem Sent.nearGo (h : Sent ws s) {k} : Sent ws (s.nearGo k) := by
  unfold State.nearGo
  exact h.foldl fun _ _ h =>
      .ite h <| .ite (h.modSlot.engTry (fun h' => h'.nearShare)).nearDone (h.modSlot.engTry (fun h' => h'.nearShare))

theorem Sent.runNear (h : Sent ws s) {k opc res} : Sent ws (s.runNear k opc res) := by
  unfold State.runNear
  refine .ite h.opRefuse <| .ite h.opRefuse <| .nearGo <| .ite (h.modSlot.foldl fun _ _ h => ?_) h.modSlot
  dsimp only
  split
  · exact h.journalAdd
  · exact h

/-! ### Operations begin and end -/

theorem Sent.startParts (h : Sent ws s) {k opc} : Sent ws (s.startParts k opc) := by
  unfold State.startParts
  exact .ite (h.engTry (fun h => h.planRead)) <| .ite (h.engTry (fun h => h.planRead)).opRefuse <|
    .foldl ((h.engTry (fun h => h.planRead)).modSlot) fun _ _ h => h.placePart

theorem Sent.openSlot (h : Sent ws s) {k w} : Sent ws (s.openSlot k w) := h.lit.modSlot

theorem Sent.startOp (h : Sent ws s) {k w res} : Sent ws (s.startOp k w res) := by
  unfold State.startOp
  exact .ite h.opRefuse <| .ite h.collLaunch <| .ite h.ownStart <| .ite h.startParts h.runNear

theorem Sent.launchAnswer (h : Sent ws s) {r k} : Sent ws (s.launchAnswer r k) := by
  unfold State.launchAnswer
  split
  · exact h.modSlot
  · exact h

theorem Sent.applyLaunch (h : Sent ws s) {r k} : Sent ws (s.applyLaunch r k) := by
  unfold State.applyLaunch
  dsimp only
  split
  · exact .finishCmp <| .ite h.bump h
  · exact h.bump.openSlot.launchAnswer.finishCmp.startOp

theorem Sent.stopOp (h : Sent ws s) {k rank st} : Sent ws (s.stopOp k rank st) := by
  unfold State.stopOp
  exact .opEnd <| .engDrop <| .dropParts <| .foldl (h.pendingAll.foldl fun _ _ h => h.journalMap) fun _ _ h => h.journalMap

theorem Sent.abortOp (h : Sent ws s) {k} : Sent ws (s.abortOp k) := by
  unfold State.abortOp
  refine .ite h ?_
  dsimp only
  split
  · exact h.bump.collSlotEnd.collLeave
  · exact h.bump.stopOp

theorem Sent.abortAll (h : Sent ws s) {id} : Sent ws (s.abortAll id) := by
  unfold State.abortAll
  exact h.foldl fun _ _ h => h.abortOp

theorem Sent.applyAbort (h : Sent ws s) {r k} : Sent ws (s.applyAbort r k) := by
  unfold State.applyAbort
  exact .ite h.finishCmp <| .ite h.finishCmp.abortOp h.finishCmp

theorem Sent.contribute (h : Sent ws s) {r tag rank res} : Sent ws (s.contribute r tag rank res) := by
  have hline : Sent ws (s.contribLine r tag rank res).2 := h.contribLine
  unfold State.contribute
  split
  next heq =>
    rw [heq] at hline
    exact hline.residueFound
  next heq => rwa [heq] at hline

end Sent

end Sys2Proof.Proofs
end

section
/-! SUPPORT. What has left the device is not taken back: messages, channels, requests, ports, objects and recovery, and so the
end of every command. -/

namespace Sys2Proof.Proofs
open Sys2Proof Sys2Proof.Machine

section Sent
variable {ws : List Wire} {s : State}

/-! ### Receive areas -/

theorem Sent.rxWrite (h : Sent ws s) {id sub n bs} : Sent ws (s.rxWrite id sub n bs) := h.engSend

theorem Sent.msgAnswer (h : Sent ws s) {id m st} : Sent ws (s.msgAnswer id m st) := by
  unfold State.msgAnswer
  split
  · exact h.markDone.answerFrom
  · exact h

theorem Sent.rxDrop (h : Sent ws s) {id m} : Sent ws (s.rxDrop id m) := h.updAgent.msgAnswer

theorem Sent.rxDrain (h : Sent ws s) {m} : Sent ws (s.rxDrain m) := by
  unfold State.rxDrain
  split
  · exact h
  · exact .ite h.updPort.updPort.emit h.updPort

theorem Sent.rxPlace (h : Sent ws s) {id m} : Sent ws (s.rxPlace id m) := by
  unfold State.rxPlace
  exact h.updAgent.foldl fun _ _ h => h.rxWrite

theorem Sent.rxArrive (h : Sent ws s) {id m} : Sent ws (s.rxArrive id m) := by
  unfold State.rxArrive
  exact .ite h.updAgent <| .ite h.rxDrain.rxDrop h.rxPlace

theorem Sent.rxDiscard (h : Sent ws s) {id here} : Sent ws (s.rxDiscard id here) := by
  unfold State.rxDiscard
  exact .ite (.updAgent <| h.foldl fun _ _ h => .ite h.rxDrain h) <|
    .foldl (.updAgent <| .engDrop <| .updAgent <| h.foldl fun _ _ h => .ite h.rxDrain h) fun _ _ h => h.rxPlace

theorem Sent.rxRelease (h : Sent ws s) {id} : Sent ws (s.rxRelease id) := by
  unfold State.rxRelease
  exact h.updAgent.foldl fun _ _ h => h.rxArrive

theorem Sent.rxSetBase (h : Sent ws s) {id base log2} : Sent ws (s.rxSetBase id base log2) := h.updAgent.rxRelease

theorem Sent.msgRoute (h : Sent ws s) {r} : Sent ws (s.msgRoute r) := by
  unfold State.msgRoute
  refine .ite (.ite h.rxArrive h.markDone.answerFrom) ?_
  split
  · exact h.send
  · exact h.ingPlaced.markDone.answerFrom

/-! ### The control window -/

theorem Sent.storeLease (h : Sent ws s) {r id} : Sent ws (s.storeLease r id) := by
  unfold State.storeLease
  exact .ite h.finishCmp h.updAgent.finishCmp

theorem Sent.storeRxaBase (h : Sent ws s) {r id} : Sent ws (s.storeRxaBase r id) := by
  unfold State.storeRxaBase
  exact .ite h.finishCmp <| .ite h.finishCmp.rxSetBase h.updAgent

theorem Sent.storeRxaTail (h : Sent ws s) {r id} : Sent ws (s.storeRxaTail r id) := by
  unfold State.storeRxaTail
  exact .ite h.updAgent.finishCmp h.finishCmp

theorem Sent.storeDesc (h : Sent ws s) {r k o n} : Sent ws (s.storeDesc r k o n) := by
  unfold State.storeDesc
  exact .ite h.finishCmp h.modSlot.finishCmp

theorem Sent.winStore (h : Sent ws s) {r} : Sent ws (s.winStore r) := by
  unfold State.winStore
  exact .ite (.ite h.storeDesc <| .ite h.applyLaunch <| .ite h.applyAbort h.finishCmp) <| .ite h.storeLease <|
    .ite h.finishCmp <| .ite h.storeRxaBase <| .ite h.storeRxaTail h.finishCmp

theorem Sent.winAccess (h : Sent ws s) {r} : Sent ws (s.winAccess r) := by
  unfold State.winAccess
  refine .ite ?_ <| .ite h.winStore h.finishCmp
  split
  · exact h.finish
  · exact h.finishCmp

/-! ### Caravan channels -/

theorem Sent.setChan (h : Sent ws s) {c u} : Sent ws (s.setChan c u) := h.lit.wr

theorem Sent.setCarState (h : Sent ws s) {c st} : Sent ws (s.setCarState c st) := by
  unfold State.setCarState
  exact .ite h <| .ite (.engSend <| .ite h.wr.sendVector h.wr) <| .ite h.wr.sendVector h.wr

theorem Sent.carIgn (h : Sent ws s) {c} : Sent ws (s.carIgn c) := h.raiseBits
theorem Sent.carFetchAt (h : Sent ws s) {c a} : Sent ws (s.carFetchAt c a) := h.setChan.wr

theorem Sent.carDnext (h : Sent ws s) {c a} : Sent ws (s.carDnext c a) := by
  unfold State.carDnext
  exact .ite h.wr h.carIgn

theorem Sent.carGo (h : Sent ws s) {c} : Sent ws (s.carGo c) := by
  unfold State.carGo
  exact .ite h.carIgn <| .ite (.ite h.carIgn h.carFetchAt.setCarState) <| .ite h.setCarState <|
    .ite h.carFetchAt.setCarState h.carIgn

theorem Sent.carPause (h : Sent ws s) {c} : Sent ws (s.carPause c) := by
  unfold State.carPause
  exact .ite h.setCarState h.carIgn

theorem Sent.carAbort (h : Sent ws s) {c} : Sent ws (s.carAbort c) := by
  unfold State.carAbort
  exact .ite h.setCarState <| .ite h.setChan <| .ite h.setCarState h.carIgn

theorem Sent.carCommand (h : Sent ws s) {c go pause abort setd daddr} :
    Sent ws (s.carCommand c go pause abort setd daddr) := by
  unfold State.carCommand
  exact .ite (.carAbort <| .ite h.carDnext h) <| .ite (.carPause <| .ite h.carDnext h) <|
    .ite (.carGo <| .ite h.carDnext h) <| .ite h.carDnext h

theorem Sent.carAbortAll (h : Sent ws s) {ok} : Sent ws (s.carAbortAll ok) := by
  unfold State.carAbortAll
  exact h.foldl fun _ _ h => .ite h.carAbort h

/-! ### From ingress to the home -/

theorem Sent.lotGone (h : Sent ws s) {r} : Sent ws (s.lotGone r) := by
  unfold State.lotGone
  split
  · exact h.lotDrop
  · exact h

theorem Sent.carStore (h : Sent ws s) {r c} : Sent ws (s.carStore r c) := by
  unfold State.carStore
  exact .ite h.holdRelease <| .ite h.poolAccess.carCommand h.poolAccess

theorem Sent.homeArrive (h : Sent ws s) {r} : Sent ws (s.homeArrive r) := by
  unfold State.homeArrive
  refine .ite (.ite h.lotGone h.bump) <| .ite h.wait <| .ite h.msgRoute ?_
  split
  · exact h.contribute
  · split
    · exact h.carStore
    · exact .ite h.applyRun.holdRelease <| .ite h.winAccess h.poolAccess

theorem Sent.tagged (h : Sent ws s) {p r} : Sent ws (s.tagged p r).2 := h.lotPut

theorem Sent.toPoint (h : Sent ws s) {r} : Sent ws (s.toPoint r) := by
  unfold State.toPoint
  exact .ite h.homeArrive (h.passPoint (fun h => h.homeArrive))

theorem Sent.letIn (h : Sent ws s) {p r} : Sent ws (s.letIn p r) := by
  unfold State.letIn
  exact .ite h.wait <| .ite h.wait <| .ite h.bump.wait <| .ite h.tagged.toPoint h.tagged.wait

theorem Sent.rerun (h : Sent ws s) {w} : Sent ws (s.rerun w) := by
  unfold State.rerun
  split
  · exact h.letIn
  · exact h.letIn
  · exact h.engSend
  · exact h.toPoint
  · exact h.homeArrive

theorem Sent.resumeN (h : Sent ws s) {n} : Sent ws (s.resumeN n) := by
  induction n generalizing s with
  | zero => exact h
  | succ n ih =>
    unfold State.resumeN
    split
    · exact h
    · exact ih h.lit.rerun

theorem Sent.resume (h : Sent ws s) : Sent ws s.resume := h.resumeN

/-! ### Link states -/

theorem Sent.setLstate (h : Sent ws s) {p v} : Sent ws (s.setLstate p v) := h.wr

theorem Sent.toUplink (h : Sent ws s) {r} : Sent ws (s.toUplink r) := by
  unfold State.toUplink
  exact .ite h.homeArrive h

theorem Sent.queueHeld (h : Sent ws s) : Sent ws s.queueHeld := by
  unfold State.queueHeld
  exact h.foldl fun _ _ h => .ite h.lotPut.lit.toUplink <| .ite h.lit.bump h

/-! ### Ports that leave the link -/

theorem Sent.dropTacc (h : Sent ws s) {t} : Sent ws (s.dropTacc t) := h

theorem Sent.stopTimer (h : Sent ws s) {r} : Sent ws (s.stopTimer r) := by
  unfold State.stopTimer
  refine h.foldl fun _ _ h => ?_
  split
  · exact h.updSource
  · exact h

theorem Sent.trayLost (h : Sent ws s) {t} : Sent ws (s.trayLost t) := by
  unfold State.trayLost
  dsimp only
  split
  · exact h.dropTacc.foldl fun _ _ h => h.stopTimer.finish
  · refine .grantLost ?_
    split
    · exact h.dropTacc.stopTimer
    · exact h.dropTacc
  · exact h.dropTacc.lit
  · split
    · exact h.dropTacc.abandonMig.retryDemotions
    · exact h.dropTacc
  · exact h.dropTacc

theorem Sent.hackArrive (h : Sent ws s) {id m} : Sent ws (s.hackArrive id m) := by
  unfold State.hackArrive
  refine .ite h.lit ?_
  split
  · exact .ite h.noteDone h.dropSub
  · exact h.snoopHack

theorem Sent.capRefresh (h : Sent ws s) : Sent ws s.capRefresh := h.wr.wr.wr.wr

theorem Sent.dropUplink (h : Sent ws s) {here} : Sent ws (s.dropUplink here).2 := by
  unfold State.dropUplink
  exact .foldl (h.lit.egrFree.foldl fun _ _ h => h.ingPlaced) fun _ _ h => h.fromEgress

theorem Sent.dropLate (h : Sent ws s) {here} : Sent ws (s.dropLate here).2 := by
  unfold State.dropLate
  exact .foldl (h.foldl fun _ _ h => h.rxDiscard) fun _ _ h => h.pubDrop

theorem Sent.dropHeld (h : Sent ws s) {here} : Sent ws (s.dropHeld here).2 := by
  unfold State.dropHeld
  exact h.dropLate.lit.foldl fun _ _ h => h.ingPlaced

theorem Sent.flushHeld (h : Sent ws s) {p} : Sent ws (s.flushHeld p).2 := h.dropHeld.lit

theorem Sent.flushRxa (h : Sent ws s) {p id} : Sent ws (s.flushRxa p id) := by
  unfold State.flushRxa
  split
  · exact .ite h.rxRelease h
  · exact h

theorem Sent.flushQueues (h : Sent ws s) {p} : Sent ws (s.flushQueues p) := by
  unfold State.flushQueues
  exact .bump <| .foldl (h.dropUplink.lit.lower.foldl fun _ _ h => h.ingPlaced.mcastDone) fun _ _ h => h.fromEgress

theorem Sent.flushPart (h : Sent ws s) {p} : Sent ws (s.flushPart p) := by
  unfold State.flushPart
  refine .ite h <| .ite ?_ h.bump
  split
  · exact .ite h.send h.bump
  · exact h.bump

theorem Sent.flushAgent (h : Sent ws s) {id} : Sent ws (s.flushAgent id) := by
  unfold State.flushAgent
  refine .ite (.updAgent <| .lit <| .unsubscribe <| .foldl (h.foldl fun _ _ h => h.groupFault) fun _ _ h => ?_) <| .lit <|
    .unsubscribe <| .foldl (h.foldl fun _ _ h => h.groupFault) fun _ _ h => ?_
  · split
    · exact h.flushedSnoop
    · exact h
  · split
    · exact h.flushedSnoop
    · exact h

theorem Sent.flushTray (h : Sent ws s) {p} : Sent ws (s.flushTray p) := by
  unfold State.flushTray
  exact h.foldl fun _ _ h => h.trayLost

theorem Sent.unbind (h : Sent ws s) {p} : Sent ws (s.unbind p) := by
  unfold State.unbind
  exact .ite h.wr.updPort <| .event <| .capRefresh <| .updPort <| .wr <| .wr <| .wr <| .wr <| .carAbortAll <|
    .ite (.flushAgent <|
      .ite h.flushPart.flushQueues.flushHeld.flushRxa.bump.flushTray
        h.flushPart.flushQueues.flushHeld.flushRxa.bump.abortAll) <|
    .unsubscribe <|
    .ite h.flushPart.flushQueues.flushHeld.flushRxa.bump.flushTray h.flushPart.flushQueues.flushHeld.flushRxa.bump.abortAll

theorem Sent.msgEnd (h : Sent ws s) {die m st} : Sent ws (s.msgEnd die m st) := by
  unfold State.msgEnd
  split
  · exact h.bump
  · exact h.markDone.answerFrom

theorem Sent.moveUplink (h : Sent ws s) {die u cls sub m} : Sent ws (s.moveUplink die u cls sub m) := by
  unfold State.moveUplink
  exact .ite h.sendLocal h.send

theorem Sent.uplinkLeft (h : Sent ws s) {p} : Sent ws (s.uplinkLeft p) := by
  unfold State.uplinkLeft
  refine .foldl (h.foldl fun _ _ h => h.fromEgress) fun _ _ h => ?_
  split
  · exact h.moveUplink
  · exact h.msgEnd

theorem Sent.showRepaired (h : Sent ws s) {p} : Sent ws (s.showRepaired p) := h.wr

theorem Sent.showLanes (h : Sent ws s) {p used} : Sent ws (s.showLanes p used) := by
  unfold State.showLanes
  exact .showRepaired <| .wr <| h.foldl fun _ _ h => h.wr

theorem Sent.linkOff (h : Sent ws s) {p st} : Sent ws (s.linkOff p st) := by
  unfold State.linkOff
  exact .showLanes <| .ite h.setLstate.updPort.uplinkLeft h.setLstate.updPort.unbind

theorem Sent.park (h : Sent ws s) {p} : Sent ws (s.park p) := h.linkOff.event
theorem Sent.downQuiet (h : Sent ws s) {p} : Sent ws (s.downQuiet p) := h.linkOff

/-! ### Eviction walks and objects -/

theorem Sent.walkCount (h : Sent ws s) : Sent ws s.walkCount := h.advance.wr

theorem Sent.walkPage (h : Sent ws s) {n k} : Sent ws (s.walkPage n k).2 := by
  unfold State.walkPage
  refine .ite_snd h ?_
  split
  · exact h
  · exact .ite_snd h.demote.walkCount <| .ite_snd h.demote.lit h.demote

theorem Sent.walkRound (h : Sent ws s) : Sent ws s.walkRound.2 := by
  unfold State.walkRound
  exact h.foldl_snd fun _ _ h => h.foldl_snd fun _ _ h' => h'.walkPage

theorem Sent.walkRounds (h : Sent ws s) {n} : Sent ws (s.walkRounds n) := by
  induction n generalizing s with
  | zero => exact h
  | succ n ih => exact .ite (ih h.walkRound) h.walkRound

theorem Sent.walkEnded (h : Sent ws s) : Sent ws s.walkEnded := by
  unfold State.walkEnded
  exact .lit <| h.foldl fun _ _ h => .ite h.walkCount h

theorem Sent.walkEnd (h : Sent ws s) {st} : Sent ws (s.walkEnd st) := h.lit.wr.wr.cmdDone

theorem Sent.walk (h : Sent ws s) : Sent ws s.walk := by
  unfold State.walk
  exact .ite h <| .ite (.ite h.walkEnded.walkRounds h.walkEnded) <|
    .ite (.walkEnd <| .ite h.walkEnded.walkRounds h.walkEnded) <|
    .ite (.walkEnd <| .ite h.walkEnded.walkRounds h.walkEnded) <| .ite h.walkEnded.walkRounds h.walkEnded

theorem Sent.setObject (h : Sent ws s) {i o} : Sent ws (s.setObject i o) := h

theorem Sent.placeFrame (h : Sent ws s) {pg} : Sent ws (s.placeFrame pg).2 := by
  unfold State.placeFrame
  dsimp only
  split <;> exact h.ergcGate

theorem Sent.placeIn (h : Sent ws s) {pg} : Sent ws (s.placeIn pg).2 := by
  unfold State.placeIn
  exact .ite_snd h.setPage <| .ite_snd (.ite_snd h.setPage h) <| .ite_snd h <| .ite_snd h <|
    .ite h.placeFrame.setPage h.placeFrame

theorem Sent.placeOut (h : Sent ws s) {pg} : Sent ws (s.placeOut pg).2 := by
  unfold State.placeOut
  exact .ite_snd h.setPage <| .ite_snd h.setPage <| .ite_snd h.setPage <| .ite_snd h.setPage.demote h.setPage.demote

theorem Sent.showPos (h : Sent ws s) {pos} : Sent ws (s.showPos pos) := h.wr.wr
theorem Sent.objProgress (h : Sent ws s) : Sent ws s.objProgress := h.showPos
theorem Sent.objOver (h : Sent ws s) : Sent ws s.objOver := h.lit.wr.wr.wr.cmdDone

theorem Sent.nextEntry (h : Sent ws s) {es} : Sent ws (s.nextEntry es) := by
  induction es generalizing s with
  | nil => exact h.objOver
  | cons e t ih => exact .ite (ih h.lit.bump.showPos) h.lit.wr

theorem Sent.objDone (h : Sent ws s) {st} : Sent ws (s.objDone st) := by
  unfold State.objDone
  exact .ite (.objOver <| .lit <| .objProgress <| .ite h.setObject h.setObject.wr) <| .nextEntry <| .lit <| .objProgress <|
    .ite h.setObject h.setObject.wr

theorem Sent.objStart (h : Sent ws s) {n} : Sent ws (s.objStart n) := by
  induction n generalizing s with
  | zero => exact h
  | succ n ih =>
    have hplace (pg : Nat) : Sent ws (if s.busy.objOp = 2 then s.placeIn pg else s.placeOut pg).2 :=
      .ite_snd h.placeIn h.placeOut
    unfold State.objStart
    refine .ite h ?_
    dsimp only
    split
    · exact ih (hplace _).lit
    · exact hplace _
    · exact (hplace _).lit

theorem Sent.objAdvance (h : Sent ws s) : Sent ws s.objAdvance := by
  unfold State.objAdvance
  exact .ite h <| .ite h.objDone <| .ite (.ite h.objStart h) <| .ite (.objProgress <| .ite h.objStart h) <|
    .ite (.objDone <| .objProgress <| .ite h.objStart h) <| .ite (.objDone <| .objProgress <| .ite h.objStart h) <|
    .ite (.objProgress <| .ite h.objStart h) <| .ite (.lit <| .objProgress <| .ite h.objStart h) <|
    .ite (.lit <| .objProgress <| .ite h.objStart h) <| .objDone <| .objProgress <| .ite h.objStart h

theorem Sent.objRun (h : Sent ws s) {n} : Sent ws (s.objRun n) := by
  induction n generalizing s with
  | zero => exact h
  | succ n ih => exact .ite (ih h.objAdvance) h.objAdvance

theorem Sent.tasks (h : Sent ws s) : Sent ws s.tasks := h.objRun.walk

/-! ### Recovery, and the end of a command -/

theorem Sent.enterContain (h : Sent ws s) {cause cls} : Sent ws (s.enterContain cause cls) := by
  unfold State.enterContain
  exact .ite (.ite h.wr.wr h) h.wr.wr.wr.lit.event.irq.carAbortAll

theorem Sent.planeFail (h : Sent ws s) {n} : Sent ws (s.planeFail n) := by
  unfold State.planeFail
  exact .ite h h.wr.event.wr.raise

theorem Sent.planeStep (h : Sent ws s) {n} : Sent ws (s.planeStep n) := by
  unfold State.planeStep
  exact .ite (.setDegraded <| .ite h.rmap.setDegraded h.rmap) <| .ite h.rmap.setDegraded h.rmap

theorem Sent.findSub (h : Sent ws s) {pg} : Sent ws (s.findSub pg).2 := by
  unfold State.findSub
  dsimp only
  split
  · exact h.takeSub
  · split
    · refine .ite_snd h.demoteFor ?_
      split
      · exact h.demoteFor.takeSub
      · exact h.demoteFor
    · exact h.demoteFor

theorem Sent.leaveFrame (h : Sent ws s) {k f} : Sent ws (s.leaveFrame k f) := by
  unfold State.leaveFrame
  split
  · exact .ite (.ite (.findSub <| .ite h h.demoteSoon) <| .ite h h.demoteSoon) h.findSub
  · exact .ite h.findSub h

theorem Sent.retireFrame (h : Sent ws s) {key} : Sent ws (s.retireFrame key) := by
  unfold State.retireFrame
  exact .ite h h.lit.event.rmap.leaveFrame.capRefresh

theorem Sent.loseDirty (h : Sent ws s) {pg} : Sent ws (s.loseDirty pg) := by
  unfold State.loseDirty
  exact .event <| .bump <| h.poisonPage.foldl fun _ _ h => h.wbufPut

theorem Sent.dropPromoted (h : Sent ws s) {pg} : Sent ws (s.dropPromoted pg) := h.trayCopy.setPage.creditOasis

theorem Sent.loseMigs (h : Sent ws s) {n} : Sent ws (s.loseMigs n) := by
  unfold State.loseMigs
  refine h.foldl fun _ _ h => .ite h.abandonMig <| .ite ?_ <| .ite h.dropMig.setPage h.dropMig.dropPromoted.loseDirty
  dsimp only
  split
  · exact h.lit.dropMig.bump.dropPromoted.loseDirty.wantPage
  · exact h.lit.dropMig.bump.dropPromoted.loseDirty

theorem Sent.stackLost (h : Sent ws s) {n} : Sent ws (s.stackLost n) := by
  unfold State.stackLost
  exact .ite h <| .rmap <| .setDegraded <| .event <| .capRefresh <| .countNosub <|
    .foldl (h.wr.wr.lit.loseMigs.foldl fun _ _ h => .ite h.dropPromoted.loseDirty h.dropPromoted) fun _ _ h =>
      h.setPage.findSub

theorem Sent.portDieLost (h : Sent ws s) {d} : Sent ws (s.portDieLost d) := by
  unfold State.portDieLost
  exact .foldl (.ite h h.lit) fun _ _ h => .ite h.downQuiet h

theorem Sent.takeHacks (h : Sent ws s) : Sent ws s.takeHacks := by
  unfold State.takeHacks
  exact h.lit.foldl fun _ _ h => h.hackArrive

theorem Sent.dirResume (h : Sent ws s) {k} : Sent ws (s.dirResume k) := h.lit.takeHacks

theorem Sent.sliceRetire (h : Sent ws s) {k} : Sent ws (s.sliceRetire k) := by
  unfold State.sliceRetire
  exact .rmap <| .setDegraded <| .dirResume <| .allGroupsFault <| .ite h h.lit

theorem Sent.ctRetire (h : Sent ws s) {c} : Sent ws (s.ctRetire c) := by
  unfold State.ctRetire
  exact .ite h <| .ite h.lit.rmap.enterContain h.lit.rmap.setDegraded

theorem Sent.moveAdders (h : Sent ws s) {k} : Sent ws (s.moveAdders k) := by
  unfold State.moveAdders
  exact .ite h h.wr.event.setDegraded

theorem Sent.laneFail (h : Sent ws s) {p n} : Sent ws (s.laneFail p n) := h.updPort

theorem Sent.peColumn (h : Sent ws s) {u} : Sent ws (s.peColumn u) := by
  unfold State.peColumn
  exact .ite h <| .ite h.dieHard.raise h.wr.rmap

theorem Sent.retireUnit (h : Sent ws s) {cls u} : Sent ws (s.retireUnit cls u) := by
  unfold State.retireUnit
  split
  · exact h.retireFrame
  · exact h.park
  · split
    · exact h.laneFail
    · exact h
  · exact h.planeFail.planeStep
  · exact .ite h.moveAdders.rmap <| .rmap <| .ite h.retireDie h.dieHard.dieHardPass
  · exact .ite h.moveAdders.rmap <| .rmap <| .ite h.retireDie h.dieHard.dieHardPass
  · exact h.stackLost
  · exact h.portDieLost.setDegraded.rmap
  · exact h.sliceRetire
  · exact h.ctRetire
  · exact h

theorem Sent.withRcv (h : Sent ws s) {q r} : Sent ws (s.withRcv q r) := h

theorem Sent.sequence (h : Sent ws s) : Sent ws s.sequence := by
  unfold State.sequence
  split
  · exact h
  · exact h.withRcv
  · exact .ite h.withRcv.bump h

theorem Sent.entryDone (h : Sent ws s) : Sent ws s.entryDone := h.withRcv.bump.sequence

theorem Sent.report (h : Sent ws s) {f} : Sent ws (s.report f) := by
  unfold State.report
  exact .ite h <| .ite h.peColumn <| .ite h.enterContain <|
    .ite (.ite h.retireUnit.bump.event.withRcv.entryDone h.retireUnit.bump.event.withRcv.bump) <| .ite h.withRcv.bump <|
    .ite h.bump.bump.enterContain h.withRcv.sequence

theorem Sent.reportAll (h : Sent ws s) {n} : Sent ws (s.reportAll n) := by
  induction n generalizing s with
  | zero => exact h
  | succ n ih =>
    unfold State.reportAll
    split
    · exact h
    · exact ih h.lit.report

theorem Sent.losePins (h : Sent ws s) : Sent ws s.losePins := by
  unfold State.losePins
  exact h.foldl fun _ _ h => h.stackLost

theorem Sent.settle (h : Sent ws s) : Sent ws s.settle :=
  h.losePins.reportAll.queueHeld.tasks.resume.grantAgain.takeHacks.grantVoq.reportAll

end Sent

end Sys2Proof.Proofs
end

section
/-! SUPPORT. Refutation of the statement on BAR2 (spec/21_host_interface_registers.md): the end of a BAR2 request that is not
answered in time (R475) can answer another BAR2 request. -/

namespace Sys2Proof.Proofs
open Sys2Proof Sys2Proof.Machine

/-- Settling only adds to what has left. -/
theorem out_suffix_settle (s : State) : s.out <:+ s.settle.out := Sent.settle (List.suffix_refl s.out)

/-- Where two states settle alike and less has left from the first, that is the oldest part of what has left from the second. -/
theorem out_suffix_of_settle_eq {t u : State} (h : t.settle = u.settle) (hlen : t.out.length ≤ u.out.length) :
    t.out <:+ u.out :=
  List.suffix_of_suffix_length_le (h ▸ out_suffix_settle t) (out_suffix_settle u) hlen

/-- A BAR2 request has ended with TIMEOUT, and its pool requests are dropped (R475). -/
def timedOut (s : State) (h : HostReq) : State :=
  let d := s.dropHeld (fun r => r.org == .host h.tag)
  let worse := decide (hostRank h.worst < hostRank stTIMEOUT)
  (d.2.bump .POOL_CANCEL_COUNT 0 0 d.1).hostComplete
    { h with worst := if worse then stTIMEOUT else h.worst, worstAddr := if worse then h.addr else h.worstAddr }

theorem exec_bar2Timeout {s : State} {h : HostReq} (hf : s.host.reqs.find? (fun x => x.tag == h.tag) = some h) :
    exec (.bar2Timeout h.tag) s = settled (timedOut s h) := by
  have he : exec (.bar2Timeout h.tag) s = execBar2Timeout h.tag s := rfl
  rw [he, execBar2Timeout, hf]
  rfl

/-- A PUB whose answer goes to a BAR2 request. No command makes one, as a BAR2 request takes loads, stores and atomics alone
(R473); but the statement is about every state. -/
def barPub (tag : Nat) : Req := hostPool tag opPUB 0 0 0 [] []

/-- A BAR2 read of which one pool request is not answered. -/
def barRead (tag : Nat) : HostReq :=
  { tag := tag, isWrite := false, isAtomic := false, addr := 0, len := 0, left := 1, worst := stOK, worstAddr := 0,
    psn := false, bytes := [] }

/-- Region 0, of version 1, publishes for BAR2 request 7; behind it waits a PUB of BAR2 request 8 over version 0. -/
def barPublishes : State :=
  { State.reset with
    coh := { State.reset.coh with
      regions := [(0, { Region.none with version := 1, busy := true, cur := some (barPub 7), queue := [barPub 8] })] }
    host := { State.reset.host with reqs := [barRead 7, barRead 8] } }

/-- The timeout of request 7 takes its PUB away; that of request 8 begins, is stale, and ends request 8 first. -/
theorem timedOut_out : (timedOut barPublishes (barRead 7)).out = [.bar2 7 1 false [], .bar2 8 2 false []] := by decide +kernel

/-- Refutes O42: the timeout of a read need not let the read's answer alone leave. In `barPublishes` that of request 7 comes
second, after the answer of request 8; and as settling only adds to what has left, no state from which the answer of request 7
alone has left settles to the same. -/
theorem not_hostMemory : ¬ Obligations.HostMemory := by
  unfold Obligations.HostMemory
  rintro ⟨-, -, -, -, -, -, -, -, -, -, htimeout, -⟩
  obtain ⟨t, ⟨hrun, -⟩, hout, -⟩ := htimeout 7 barPublishes (barRead 7) rfl rfl rfl
  have hsettle : t.settle = (timedOut barPublishes (barRead 7)).settle :=
    Host.Outcome.next.inj (hrun.symm.trans (exec_bar2Timeout (h := barRead 7) rfl))
  have hsuffix : [Wire.bar2 7 1 false []] <:+ [.bar2 7 1 false [], .bar2 8 2 false []] := by
    have := out_suffix_of_settle_eq hsettle
    rw [hout, timedOut_out] at this
    exact this (by decide)
  exact absurd hsuffix (by decide)

end Sys2Proof.Proofs
end

section
/-! SUPPORT. Proof of the statement on crossings and windows (spec/04_switch_core.md): arrivals through a plane, the gap in an
order, acknowledgement, and the windows of combining and merging. -/

namespace Sys2Proof.Proofs
open Sys2Proof Sys2Proof.Machine

/-! ### The failure of a plane (Table 4.3, steps 1 and 2) -/

/-- Setting a bit that is clear leaves the other bits as they are. -/
theorem testBit_setBit_true {x i : Nat} (h : x.testBit i = false) (j : Nat) :
    (setBit x i true).testBit j = if j = i then true else x.testBit j := by
  rw [setBit, if_neg (by simp [h]), if_pos rfl, Nat.add_comm x]
  obtain hj | rfl | hj := lt_trichotomy j i
  · rw [if_neg (by omega), Nat.testBit_two_pow_add_gt hj]
  · rw [if_pos rfl, Nat.testBit_two_pow_add_eq, h]
    rfl
  · have heven : x / 2 ^ i % 2 = 0 := by simpa [Nat.testBit_eq_decide_div_mod_eq] using h
    have hdiv : (2 ^ i + x) / 2 ^ i / 2 = x / 2 ^ i / 2 := by
      rw [Nat.add_div_left x (Nat.two_pow_pos i)]
      omega
    have hj' : 2 ^ j = 2 ^ i * 2 * 2 ^ (j - i - 1) := by rw [← pow_succ, ← pow_add]; congr 1; omega
    simp only [if_neg (show ¬ j = i by omega), Nat.testBit_eq_decide_div_mod_eq, hj', ← Nat.div_div_eq_div_mul, hdiv]

section PlaneFail

variable {s : State} {n : Nat}

theorem planeFail_eq (hn : n < 8) (hf : s.planeFailed n = false) :
    s.planeFail n =
      let t := (s.wr .SWC_PLANE_STAT_FAILED (setBit (s.rd .SWC_PLANE_STAT_FAILED) n true)).event .planeFail n
      (t.wr .SWC_PLANE_STAT_SPARE_AVAIL (b2n t.sparePlane.isSome)).raise 0x05 n := by
  rw [State.planeFail, if_neg (by rw [hf]; simp; omega)]

/-- The plane declared failed is the one more that has failed. -/
theorem planeFailed_planeFail (hn : n < 8) (hf : s.planeFailed n = false) {m : Nat} (hm : m < 8) :
    (s.planeFail n).planeFailed m = if m = n then true else s.planeFailed m := by
  have hw : Fld.SWC_PLANE_STAT_FAILED.width = 8 := rfl
  rw [planeFail_eq hn hf, State.planeFailed, rd_raise, rd_wr_fld _ _ _ _ _ _ (by decide),
    rd_event _ _ _ _ _ _ _ (by decide) (by decide) (by decide), rd_wr_same, hw, Nat.testBit_mod_two_pow,
    testBit_setBit_true hf]
  simp [hm, State.planeFailed]

/-- It is reported to the sequencer. -/
theorem raised_planeFail (hn : n < 8) (hf : s.planeFailed n = false) :
    (s.planeFail n).rcv.raised = (s.raise 0x05 n).rcv.raised := by
  rw [planeFail_eq hn hf]
  simp [State.raise]

theorem planeFail_pool (s : State) (n : Nat) : (s.planeFail n).pool = s.pool := by
  unfold State.planeFail
  split <;> simp

theorem planeFail_sw (s : State) (n : Nat) : (s.planeFail n).sw = s.sw := by
  unfold State.planeFail
  split <;> simp

end PlaneFail

/-! ### Arrival through a plane (R103) -/

theorem egrTake_sw (s : State) (cs : List Cross) : (s.egrTake cs).sw = s.sw := by cases cs <;> rfl
theorem egrTake_pool (s : State) (cs : List Cross) : (s.egrTake cs).pool = s.pool := by cases cs <;> rfl

section Arrival

variable {s : State} {o d x : Nat}

/-- Crossing `x` of die `o` toward port die `d`. -/
def isCrossing (o d x : Nat) (c : Cross) : Bool := c.org == o && c.dst == d && c.xsn == x

/-- The messages of a crossing leave their plane. -/
def crossingTaken (s : State) (o d x : Nat) : State :=
  { s with sw := { s.sw with cross := s.sw.cross.filter (fun c => !isCrossing o d x c) } }

/-- They are held at their port die, whose egress region they occupy. -/
def crossingHeld (s : State) (o d x : Nat) : State :=
  let cs := s.sw.cross.filter (isCrossing o d x)
  let t := crossingTaken s o d x
  ({ t with sw := { t.sw with xhold := t.sw.xhold ++ cs } }).egrTake (cs.filter (fun c => decide (c.point < 320)))

/-- A crossing that its link delivers next is held and what is next in order released; a copy of an earlier one is counted. -/
theorem runs_xsnArrival (hne : s.sw.cross.filter (isCrossing o d x) ≠ [])
    (hup : ∀ c ∈ s.sw.cross, c.org = o → c.dst = d → c.xsn = x →
      c.plane < 8 ∧ s.planeFailed c.plane = false ∧ s.linkNext c = true) :
    Runs (.xsnArrival o d x) s
      (if 4096 ≤ (x + 65536 - tget 0 s.sw.xsnDone (Nat.pair o d)) % 65536 ∨ s.sw.xhold.any (isCrossing o d x) = true then
        (crossingTaken s o d x).bump .SWC_REORDER_DUP_COUNT 0 0 (s.sw.cross.filter (isCrossing o d x)).length
      else (crossingHeld s o d x).release o d (crossingHeld s o d x).sw.xhold.length) := by
  have hany : (s.sw.cross.filter (isCrossing o d x)).any
      (fun c => decide (8 ≤ c.plane) || s.planeFailed c.plane || !s.linkNext c) = false := by
    rw [List.any_eq_false]
    intro c hc
    obtain ⟨hmem, hhere⟩ := List.mem_filter.1 hc
    simp only [isCrossing, Bool.and_eq_true, beq_iff_eq] at hhere
    obtain ⟨⟨horg, hdst⟩, hxsn⟩ := hhere
    obtain ⟨hlt, hf, hl⟩ := hup c hmem horg hdst hxsn
    simp [hf, hl, hlt]
  have hemp : (s.sw.cross.filter (isCrossing o d x)).isEmpty = false := by simpa using hne
  refine runs_of ?_
  have he : exec (.xsnArrival o d x) s = execXsnArrival o d x s := rfl
  rw [he, execXsnArrival]
  change settled (if (s.sw.cross.filter (isCrossing o d x)).isEmpty = true then _ else
    if (s.sw.cross.filter (isCrossing o d x)).any _ = true then _ else _) = _
  rw [hemp, hany, if_neg Bool.false_ne_true, if_neg Bool.false_ne_true]
  simp only [decide_eq_true_eq]
  rfl

end Arrival

/-- A gap that stays open, where its message is still on a plane, is a fault of that plane (R103, R120). -/
theorem runs_reorderGapTimeout {s : State} {o d : Nat} {c : Cross}
    (hh : s.sw.xhold.any (fun c => c.org == o && c.dst == d) = true)
    (hc : s.sw.cross.find? (fun c => c.org == o && c.dst == d && c.xsn == tget 0 s.sw.xsnDone (Nat.pair o d)) = some c) :
    Runs (.reorderGapTimeout o d) s (s.planeFail c.plane) := by
  refine runs_of ?_
  have he : exec (.reorderGapTimeout o d) s = execReorderGapTimeout o d s := rfl
  rw [he, execReorderGapTimeout]
  dsimp only
  rw [hh, hc]
  rfl

/-! ### Acknowledgement (R97) -/

/-- What an IDLE flit leaves alone, the flits that report freed slots leave alone. -/
theorem sendCredits_keeps {β : Type} (f : State → β) {p : Nat} (hf : ∀ s, f (s.sendIdle p) = f s) (s : State) (pool : Nat) :
    f (s.sendCredits p pool) = f s := by
  unfold State.sendCredits
  split
  · rfl
  · exact foldl_keeps f (fun s _ => hf s) _ _

section Acknowledge

variable (s : State) (p pool n : Nat)

/-- A link with `n` more slots of a receive pool to return. -/
def linkFreed (pool n : Nat) (l : Link) : Link := { l with freed := l.freed.set pool ((l.freed.getD pool 0 + n) % 4096) }

/-- Slots are freed, and the flits that report them sent. -/
def freedAndTold : State := (s.freeSlots p pool n).sendCredits p pool

theorem freedAndTold_link : ((freedAndTold s p pool n).link p).freed =
    (s.link p).freed.set pool (((s.link p).freed.getD pool 0 + n) % 4096) := by
  have hidle : ∀ s : State, ((s.sendIdle p).link p).freed = (s.link p).freed := fun s => by rw [State.sendIdle, emitFlit_link]
  rw [freedAndTold, sendCredits_keeps (fun t => (t.link p).freed) hidle]
  exact congrArg Link.freed (link_updLink_same s p (linkFreed pool n))

theorem freedAndTold_port {q : Nat} (h : q ≠ p) : (freedAndTold s p pool n).port q = s.port q := by
  have hlink : ∀ (s : State) (f : Link → Link), (s.updLink p f).port q = s.port q := fun s f => port_updLink_ne s f h
  have hidle : ∀ s : State, (s.sendIdle p).port q = s.port q :=
    fun s => hlink s (fun l => { l with rot := (l.rot + 1) % 8, unacked := 0 })
  rw [freedAndTold, sendCredits_keeps (fun t => t.port q) hidle]
  exact hlink s (linkFreed pool n)

theorem freedAndTold_sw : (freedAndTold s p pool n).sw = s.sw := sendCredits_keeps State.sw (fun _ => rfl) _ _
theorem freedAndTold_pool : (freedAndTold s p pool n).pool = s.pool := sendCredits_keeps State.pool (fun _ => rfl) _ _

end Acknowledge

/-- An ingress message that is acknowledged leaves its region (R97). -/
theorem runs_acknowledge {s : State} {n : Nat} {x : IngMsg} (hx : s.sw.ing.find? (fun x => x.n == n && x.taken) = some x)
    (ha : s.accHeld n = false) :
    Runs (.acknowledge n) s
      (freedAndTold { s with sw := { s.sw with ing := s.sw.ing.filter (fun y => y.n != n) } } x.port x.pool x.slots) := by
  refine runs_of ?_
  have he : exec (.acknowledge n) s = execAcknowledge n s := rfl
  simp only [he, execAcknowledge, ha, Bool.not_false, Bool.and_true, hx]
  rfl

/-! ### The windows of combining and merging (R113, R114, R116) -/

/-- Requests to a page of the Oasis range that may be accessed are performed together. -/
theorem together_inOasis {s : State} {pg : Nat} (h : s.InOasis pg) (rs : List Req) (act : State → State) :
    s.together pg rs act = act s := by
  simp only [State.together, gate_inOasis h]

section Windows

variable {s : State}

/-- A group of atomics is no more. -/
def groupTaken (s : State) (g : AtGrp) : State :=
  { s with home := { s.home with atGrps := s.home.atGrps.filter (fun x => !(x == g)) } }

/-- The members of a group whose word is in Oasis are applied one after the other (R114). -/
theorem applyGroup_oasis {g : AtGrp} {r : Req} {l : List Req} (hm : g.members = r :: l)
    (hx : extentCheck (s.extentAt g.addr) = none) (hin : s.InOasis (pageOf g.addr)) (ht : s.onTray (lineOf g.addr) = false) :
    s.applyGroup g = (r :: l).foldl (fun s r => s.doAtomic r) (groupTaken s g) := by
  unfold State.applyGroup
  dsimp only
  split
  next h => rw [hm] at h; cases h
  next st rs h _ => exact absurd (hx.symm.trans h) (by simp)
  next r' l' _ h =>
    rw [hm] at h
    obtain ⟨rfl, rfl⟩ := List.cons.inj h
    have hin' : (groupTaken s g).InOasis (pageOf g.addr) := hin
    exact (together_inOasis hin' _ _).trans (if_pos (by rw [show (groupTaken s g).onTray (lineOf g.addr) = false from ht]; rfl))

/-- The next window of a line's run is open. -/
def runOpened (s : State) (l : Nat) : State := { s with home := { s.home with runs := tins s.home.runs l [] } }

theorem applyRun_oasis {l : Nat} {r : Req} {rs : List Req} (hrun : tfind s.home.runs l = some (r :: rs))
    (hx : extentCheck (s.extentAt (64 * l)) = none) (hin : s.InOasis (l / 1024)) :
    s.applyRun l = (runOpened s l).writeRun l (r :: rs) := by
  simp only [State.applyRun, hrun]
  split
  next st h => exact absurd (hx.symm.trans h) (by simp)
  next => exact together_inOasis (s := runOpened s l) hin _ _

theorem applyRun_refused {l : Nat} {r : Req} {rs : List Req} {st : Nat} (hrun : tfind s.home.runs l = some (r :: rs))
    (hx : extentCheck (s.extentAt (64 * l)) = some st) :
    s.applyRun l = (r :: rs).foldl (fun s r => s.finishCmp r st) (runOpened s l) := by
  simp only [State.applyRun, hrun]
  split
  next st' h =>
    obtain rfl : st = st' := Option.some.inj (hx.symm.trans h)
    rfl
  next h => exact absurd (hx.symm.trans h) (by simp)

end Windows

/-! ### What is answered without effect (R62) -/

section Refused

variable (s : State)

/-- A choice leaves the pool as each of its states has it. -/
theorem pool_ite {P : Pool} {c : Prop} [Decidable c] {a b : State} (ha : a.pool = P) (hb : b.pool = P) :
    (if c then a else b).pool = P := by
  split
  · exact ha
  · exact hb

theorem crossCopies_pool (cs : List Cross) : (s.crossCopies cs).pool = s.pool := by cases cs <;> rfl

theorem sendLegs_pool (org : Nat) (ls : List Leg) : (s.sendLegs org ls).pool = s.pool := by
  cases ls with
  | nil => rfl
  | cons l ls =>
    unfold State.sendLegs
    refine (foldl_keeps State.pool (fun t d => ?_) _ _).trans (pool_ite (P := s.pool) rfl rfl)
    exact pool_ite rfl (crossCopies_pool t _)

theorem sendTogether_pool (org : Nat) (ls : List Leg) : (s.sendTogether org ls).pool = s.pool := by
  unfold State.sendTogether
  split
  · exact send_pool ..
  · exact sendLegs_pool ..

theorem markDone_pool (r : Req) : (s.markDone r).pool = s.pool := by unfold State.markDone; split <;> rfl
theorem dropMerged_pool (r : Req) : (s.dropMerged r).pool = s.pool := by unfold State.dropMerged; split <;> rfl

theorem answerAll_pool (home : Nat) (xs : List (Req × Resp)) : (s.answerAll home xs).pool = s.pool := by
  have hmark : (xs.foldl (fun s x => s.markDone x.1) s).pool = s.pool := foldl_keeps State.pool (fun t _ => markDone_pool t _) _ _
  simp only [State.answerAll, sendTogether_pool, bump_pool, hmark]

theorem hostComplete_pool (h : HostReq) : (s.hostComplete h).pool = s.pool :=
  pool_ite (pool_ite rfl (pool_ite rfl rfl)) (pool_ite rfl rfl)

theorem hostPart_pool (tag a : Nat) (x : Resp) : (s.hostPart tag a x).pool = s.pool := by
  unfold State.hostPart
  split
  · rfl
  · exact pool_ite (hostComplete_pool ..) rfl

theorem chanErr_pool (c st a : Nat) : (s.chanErr c st a).pool = s.pool := pool_ite rfl rfl

theorem chanAnswer_pool (c : Nat) (r : Req) (x : Resp) : (s.chanAnswer c r x).pool = s.pool :=
  pool_ite (chanErr_pool ..) (pool_ite (pool_ite rfl rfl) (pool_ite rfl rfl))

theorem collAnswer_pool (tag : Nat) (r : Req) (x : Resp) : (s.collAnswer tag r x).pool = s.pool := pool_ite rfl rfl
theorem mirrorDone_pool (st : Nat) : (s.mirrorDone st).pool = s.pool := pool_ite rfl rfl

/-- A CMP of a status other than OK and POISON is no performed COMMIT, so that an operation's answer too leaves the pool alone
(R258). -/
theorem finishCmp_refused_pool {st : Nat} (hok : st ≠ stOK) (hp : st ≠ stPOISON) (r : Req) :
    (s.finishCmp r st).pool = s.pool := by
  have hslot : ∀ (t : State) id n, (t.slotAnswer id n r { status := st }).pool = t.pool := fun t id n => by
    simp [State.slotAnswer, hok, hp, State.setSlot]
  unfold State.finishCmp State.finish
  split
  · rw [answerAll_pool, dropMerged_pool]
  · rw [State.answer, State.answerFrom]
    split
    · exact pool_ite ((send_pool ..).trans (markDone_pool s r)) ((bump_pool ..).trans (markDone_pool s r))
    all_goals simp only [hostPart_pool, hslot, chanAnswer_pool, collAnswer_pool, mirrorDone_pool, markDone_pool]

/-- What the state of an extent answers is neither OK nor POISON (Table 7.6). -/
theorem extentCheck_status {x : Option (Nat × Extent)} {st : Nat} (h : extentCheck x = some st) :
    st ≠ stOK ∧ st ≠ stPOISON := by
  have hst : st = stLEASE_GONE ∨ st = stUNMAPPED := by
    unfold extentCheck at h
    split at h
    · split at h
      · cases h
      · split at h <;> cases h <;> simp
    · cases h; simp
  rcases hst with rfl | rfl <;> decide

end Refused

/-! ### The commands -/

theorem runs_atomicGroupApply {s t : State} {addr : Nat} {g : AtGrp} (hg : s.home.atGrps.find? (fun g => g.addr == addr) = some g)
    (ht : s.applyGroup g = t) : Runs (.atomicGroupApply addr) s t := by
  refine runs_of ?_
  have he : exec (.atomicGroupApply addr) s = execAtomicGroupApply addr s := rfl
  rw [he, execAtomicGroupApply, hg, ← ht]
  rfl

theorem runs_mergeWindowClose_empty {s : State} {line : Nat} (hrun : tfind s.home.runs line = some []) :
    Runs (.mergeWindowClose line) s { s with home := { s.home with runs := tdel s.home.runs line } } := by
  refine runs_of ?_
  have he : exec (.mergeWindowClose line) s = execMergeWindowClose line s := rfl
  rw [he, execMergeWindowClose, hrun]
  rfl

theorem runs_mergeWindowClose {s t : State} {line : Nat} {r : Req} {l : List Req} (hrun : tfind s.home.runs line = some (r :: l))
    (ht : s.applyRun line = t) : Runs (.mergeWindowClose line) s t := by
  refine runs_of ?_
  have he : exec (.mergeWindowClose line) s = execMergeWindowClose line s := rfl
  rw [he, execMergeWindowClose, hrun, ← ht]
  rfl

/-- Settles O16, command by command: each leaves to the model's own operation what follows, in the state its crossing, group or
run has left. -/
theorem crossingsAndWindows : Obligations.CrossingsAndWindows := by
  unfold Obligations.CrossingsAndWindows
  refine ⟨⟨?_, ?_, ?_, ?_⟩, ?_, ?_, ?_, ?_, ?_⟩
  · intro o d x s hne hup _ _ hnear hfree
    have hfree' : s.sw.xhold.any (isCrossing o d x) = false := hfree
    have hrun := runs_xsnArrival hne hup
    rw [if_neg (by rw [hfree']; simp; omega)] at hrun
    have hsw : (crossingHeld s o d x).sw = { (crossingTaken s o d x).sw with
      xhold := s.sw.xhold ++ s.sw.cross.filter (isCrossing o d x) } := egrTake_sw _ _
    refine ⟨_, _, hrun, rfl, ?_, ?_, ?_, ?_, egrTake_pool _ _⟩
    all_goals rw [hsw]; rfl
  · intro o d x s hne hup hlate
    have hlate' : _ ∨ s.sw.xhold.any (isCrossing o d x) = true := hlate
    have hrun := runs_xsnArrival hne hup
    rw [if_pos hlate'] at hrun
    exact ⟨_, hrun, rfl, rfl, rd_bump_same (crossingTaken s o d x) _ _ _ _, rfl⟩
  · intro o d s c hheld hc hlt hf
    refine ⟨_, runs_reorderGapTimeout hheld hc, rfl, ?_, raised_planeFail hlt hf, planeFail_pool s _, planeFail_sw s _⟩
    rw [planeFailed_planeFail hlt hf hlt, if_pos rfl]
  · intro n s x hx ha
    refine ⟨_, runs_acknowledge hx ha, ?_, freedAndTold_link .., fun q hq => freedAndTold_port _ _ _ _ hq,
      freedAndTold_pool ..⟩
    rw [freedAndTold_sw]
  · intro line s
    exact ⟨_, runs_of rfl, tfind_tdel_same _ _, fun l hl => tfind_tdel_ne _ hl.symm, rfl, rfl, rfl, rfl⟩
  · intro addr s g r l hg hm hx hin ht _
    exact ⟨groupTaken s g, _, runs_atomicGroupApply hg (applyGroup_oasis hm hx hin ht), rfl, rfl, rfl, rfl, rfl, rfl⟩
  · intro line s hrun
    exact ⟨_, runs_mergeWindowClose_empty hrun, tfind_tdel_same _ _, rfl, rfl⟩
  · intro line s r l hrun hx hin _
    exact ⟨runOpened s line, _, runs_mergeWindowClose hrun (applyRun_oasis hrun hx hin), rfl, rfl, rfl, rfl, rfl, rfl⟩
  · intro line s r l st hrun hx
    obtain ⟨hok, hp⟩ := extentCheck_status hx
    exact ⟨runOpened s line, _, runs_mergeWindowClose hrun (applyRun_refused hrun hx), rfl, rfl, rfl,
      foldl_keeps State.pool (fun t q => finishCmp_refused_pool t hok hp q) _ _⟩

end Sys2Proof.Proofs
end

section
/-! SUPPORT. Proof of the statement on planes and the mirror ring (spec/04_switch_core.md): the spare, the reduction of N, the
passage of a mirror record to its slot of the ring, and MIRR_CTL. -/

namespace Sys2Proof.Machine

/-- What the work of a scheduling point leaves alone: all but the registers, where it may note a depth, and the scheduler's memory
(R134, R137, R144). -/
def State.offPoint (s : State) : State := { s with regs := [], sw := { s.sw with buckets := [], sched := [] } }

end Sys2Proof.Machine

namespace Sys2Proof.Proofs
open Sys2Proof Sys2Proof.Machine

/-! ### The spare and the reduction of N (R121, R123) -/

section Planes

variable {s : State} {h q : Nat} {l : List Nat}

/-- Plane `q` is in slot `h`, and is reported there. -/
def spareSeated (s : State) (h q : Nat) : State :=
  let t := s.wr .SWC_PLANE_MAP_SLOT q 0 h
  (t.wr .SWC_PLANE_STAT_SPARE_AVAIL (b2n t.sparePlane.isSome)).event .planeSpare q

theorem runs_spareInService (hf : s.failedSlots = h :: l) (hq : s.sparePlane = some q) :
    Runs .spareInService s (((spareSeated s h q).bump .SWC_FAILOVER_COUNT).replane (s.planeIn h)) := by
  refine runs_of ?_
  have he : exec .spareInService s = settled s.spareIn := rfl
  rw [he, State.spareIn, hf, hq]
  rfl

/-- The spare is written to the map's slot alone. -/
theorem planeIn_spareSeated (i : Nat) : (spareSeated s h q).planeIn i = (s.wr .SWC_PLANE_MAP_SLOT q 0 h).planeIn i := by
  rw [spareSeated, State.planeIn, rd_event _ _ _ _ _ _ _ (by decide) (by decide) (by decide), rd_wr_fld _ _ _ _ _ _ (by decide)]
  rfl

/-- The map without slot `h`, and N one lower. -/
def mapCompacted (s : State) (h : Nat) : State :=
  let n := s.rd .SWC_PLANE_STAT_N_ACTIVE
  let left := sortBy id (((List.range n).filter (· != h)).map s.planeIn)
  ((List.range 7).foldl (fun s i => s.wr .SWC_PLANE_MAP_SLOT (left.getD i 0xF) 0 i) s).wr .SWC_PLANE_STAT_N_ACTIVE (n - 1)

theorem runs_planeReduce (hf : s.failedSlots = h :: l) (hq : s.sparePlane = none) (hn : 2 ≤ s.rd .SWC_PLANE_STAT_N_ACTIVE) :
    Runs .planeReduce s ((mapCompacted s h).replane (s.planeIn h)) := by
  refine runs_of ?_
  have he : exec .planeReduce s = settled s.planeReduce := rfl
  simp only [he, State.planeReduce, hf, hq, if_neg (show ¬ s.rd .SWC_PLANE_STAT_N_ACTIVE ≤ 1 by omega)]
  rfl

theorem mapCompacted_pool (s : State) (h : Nat) : (mapCompacted s h).pool = s.pool :=
  (wr_pool _ _ _ _ _).trans (foldl_keeps State.pool (fun _ _ => wr_pool _ _ _ _ _) _ _)

/-- Containment begins, before its event and its interrupt (R383). -/
def containMarked (s : State) (cause cls : Nat) : State :=
  let t := ((s.wr .EVT_CONTAIN_ACTIVE 1).wr .EVT_CONTAIN_CAUSE cause).wr .EVT_CONTAIN_CLASS (if cause = 2 then cls else 0)
  { t with rcv := { t.rcv with containFrom := some t.epoch } }

/-- With the last plane the device enters containment for an S4 error (R123). -/
theorem runs_planeReduce_last (hf : s.failedSlots = h :: l) (hq : s.sparePlane = none) (hn : s.rd .SWC_PLANE_STAT_N_ACTIVE ≤ 1)
    (hc : s.contained = false) :
    Runs .planeReduce s ((((containMarked s 2 0x0F).event .contain 0 0 2).irq 1).carAbortAll (fun _ => true)) := by
  refine runs_of ?_
  have he : exec .planeReduce s = settled s.planeReduce := rfl
  simp only [he, State.planeReduce, hf, hq, if_pos hn, State.enterContain, hc, if_false, Bool.false_eq_true]
  rfl

theorem containMarked_s4 {cls : Nat} (hl : cls < 256) : (containMarked s 2 cls).contained = true ∧
    (containMarked s 2 cls).rd .EVT_CONTAIN_CAUSE = 2 ∧ (containMarked s 2 cls).rd .EVT_CONTAIN_CLASS = cls := by
  obtain ⟨ha, hcause, hcls⟩ : Fld.EVT_CONTAIN_ACTIVE.width = 1 ∧ Fld.EVT_CONTAIN_CAUSE.width = 4 ∧
      Fld.EVT_CONTAIN_CLASS.width = 8 := by decide
  simp only [State.contained, State.on, containMarked, rd_lit]
  refine ⟨?_, ?_, ?_⟩
  · simp [ha]
  · simp [hcause]
  · simp [hcls, Nat.mod_eq_of_lt hl]

end Planes

/-! ### What the work of a scheduling point leaves alone -/

section OffPoint

variable (s : State)

@[simp] theorem ite_offPoint {c : Prop} [Decidable c] (a b : State) :
    (if c then a else b).offPoint = if c then a.offPoint else b.offPoint := apply_ite _ _ _ _

@[simp] theorem foldl_offPoint {α : Type} {f : State → α → State} (hf : ∀ s a, (f s a).offPoint = s.offPoint)
    (l : List α) (s : State) : (l.foldl f s).offPoint = s.offPoint := foldl_keeps State.offPoint hf l s

@[simp] theorem wr_offPoint (f v i j) : (s.wr f v i j).offPoint = s.offPoint := by rfl
@[simp] theorem setBucket_offPoint (k v) : (s.setBucket k v).offPoint = s.offPoint := by rfl
@[simp] theorem setSched_offPoint (k m) : (s.setSched k m).offPoint = s.offPoint := by rfl
@[simp] theorem chargeTok_offPoint (k refill cost) : (s.chargeTok k refill cost).offPoint = s.offPoint := by
  simp [State.chargeTok]

@[simp] theorem remember_offPoint (level node k cost more) : (s.remember level node k cost more).offPoint = s.offPoint := by
  simp [State.remember]

@[simp] theorem charge_offPoint (q c) : (s.charge q c).offPoint = s.offPoint := by simp [State.charge]

@[simp] theorem selectAt_offPoint (cs q) : (s.selectAt cs q).2.offPoint = s.offPoint := by
  unfold State.selectAt
  dsimp only
  repeat' split
  all_goals simp

@[simp] theorem atPoint_offPoint (q c) : (s.atPoint q c).2.offPoint = s.offPoint := by
  unfold State.atPoint
  split <;> simp

end OffPoint

/-! ### An engine's write that passes its point (R131, R191) -/

section EngPasses

variable {u v : State} {r : Req}

theorem offPoint_of_engPasses (h : u.EngPasses v r) : v.offPoint = u.offPoint := by
  have hp := atPoint_offPoint u (320 + u.homeOf (mAddr r.msg) % 16)
    (u.candOf r (320 + u.homeOf (mAddr r.msg) % 16) u.nextId u.cycle)
  rwa [show u.atPoint _ _ = (true, v) from h] at hp

theorem pointWork_of_engPasses (h : u.EngPasses v r) : PointWork u v := by
  have hw := pointWork_atPoint u (320 + u.homeOf (mAddr r.msg) % 16)
    (u.candOf r (320 + u.homeOf (mAddr r.msg) % 16) u.nextId u.cycle)
  rwa [show u.atPoint _ _ = (true, v) from h] at hw

theorem engSend_passes (h : u.EngPasses v r) : u.engSend r = v.poolAccess r := by
  rw [State.engSend, State.passPoint, show u.atPoint _ _ = (true, v) from h, if_pos rfl]

/-- What pages, homes and lines turn on is as it was before the point. -/
theorem engPasses_keeps (h : u.EngPasses v r) : v.tier = u.tier ∧ v.busy = u.busy ∧ v.rcv = u.rcv ∧ v.pool = u.pool ∧
    v.homeOfPage = u.homeOfPage := by
  have hoff := offPoint_of_engPasses h
  have hseed : v.rd .POOL_CTL_HSEED = u.rd .POOL_CTL_HSEED := (pointWork_of_engPasses h).rd _ _ _ (by decide)
  refine ⟨(congrArg State.tier hoff :), (congrArg State.busy hoff :), (congrArg State.rcv hoff :),
    (congrArg State.pool hoff :), ?_⟩
  unfold State.homeOfPage
  rw [hseed]

theorem inOasis_of_engPasses (h : u.EngPasses v r) {pg : Nat} (hin : u.InOasis pg) : v.InOasis pg := by
  obtain ⟨htier, hbusy, hrcv, -, hhome⟩ := engPasses_keeps h
  have hpage : v.page = u.page := by unfold State.page; rw [htier]
  have hstack : v.stackOfPage pg = u.stackOfPage pg := by unfold State.stackOfPage; rw [hpage, hhome]
  unfold State.InOasis
  rwa [hpage, hbusy, hstack, hrcv]

theorem badSyms_of_engPasses (h : u.EngPasses v r) (l : Nat) : v.badSyms l = u.badSyms l := by
  obtain ⟨htier, -, hrcv, hpool, hhome⟩ := engPasses_keeps h
  simp only [State.badSyms, State.frameOfLine, htier, hpool, hrcv, hhome]

/-- A request that a plain extent serves acts on its page in Oasis, where no run of its line is open. -/
theorem poolAccess_plain {i : Nat} {x : Extent} (hx : v.extentAt (mAddr r.msg) = some (i, x)) (hst : x.state = 1)
    (hcoh : x.coh = false) (hpub : x.pub = false) (hop : plainOpc (mOpc r.msg) = true) (hin : v.InOasis (pageOf (mAddr r.msg)))
    (hrun : tfind v.home.runs (lineOf (mAddr r.msg)) = none) : v.poolAccess r = v.plainAct { r with hot := true } x := by
  have hcheck : extentCheck (some (i, x)) = none := by simp [extentCheck, hst]
  simp only [State.poolAccess, hx, hcheck, hcoh, hpub, State.plainPath, hop, if_true, if_false, Bool.false_eq_true]
  exact viaTier_inOasis hin hrun _

theorem poolAccess_refused {st : Nat} (hx : extentCheck (v.extentAt (mAddr r.msg)) = some st) :
    v.poolAccess r = v.finishCmp r st := by
  simp only [State.poolAccess, hx]

end EngPasses

/-! ### The write of a mirror record (R127, R128) -/

/-- A field of a header that the fields around it do not reach into. -/
theorem hbits_mkHdr (l₁ l₂ : List (Nat × Nat × Nat)) {lo n v : Nat} (pay : List Byte) (hn : lo + n ≤ 128)
    (hl : ∀ e ∈ l₁ ++ l₂, e.1 + e.2.1 ≤ lo ∨ lo + n ≤ e.1) :
    hbits ⟨mkHdr (l₁ ++ (lo, n, v) :: l₂), pay⟩ lo n = v % 2 ^ n := by
  have hout : ∀ l : List (Nat × Nat × Nat), l ⊆ l₁ ++ l₂ → ∀ i < n,
      l.any (fun e => decide (e.1 ≤ lo + i ∧ lo + i < e.1 + e.2.1) && e.2.2.testBit (lo + i - e.1)) = false := by
    intro l hsub i hi
    rw [List.any_eq_false]
    intro e he
    have := hl e (hsub he)
    simp
    omega
  apply Nat.eq_of_testBit_eq
  intro i
  rw [testBit_hbits, Nat.testBit_mod_two_pow]
  by_cases hi : i < n
  · rw [getLsbD_mkHdr _ (by omega), List.any_append, List.any_cons, hout l₁ (List.subset_append_left ..) i hi,
      hout l₂ (List.subset_append_right ..) i hi]
    simp [hi]
  · simp [hi]

section MirrorWrite

variable {s v : State} {r : MirRec} {l : List MirRec} {a : Nat} {bs : List Byte}

/-- The NWR of a mirror record: 32 bytes at `a`, of subscriber 1023 in SC7 (R128). -/
def mirrorWrite (a : Nat) (bs : List Byte) : Req := engReq .mirror 0 0 1023 opNWR 7 a 5 [] bs

theorem mAddr_mirrorWrite (ha : a < 2 ^ 48) : mAddr (mirrorWrite a bs).msg = a :=
  (hbits_mkHdr (commonHdr opNWR 7 0 0 0) [(24, 3, 5)] bs (by decide) (by simp [commonHdr])).trans (Nat.mod_eq_of_lt ha)

theorem mSize_mirrorWrite : mSize (mirrorWrite a bs).msg = 32 := by
  have hmsg : (mirrorWrite a bs).msg = ⟨mkHdr ((commonHdr opNWR 7 0 0 0 ++ [(27, 48, a)]) ++ (24, 3, 5) :: []), bs⟩ := rfl
  have hf : mSizeF (mirrorWrite a bs).msg = 5 := by
    rw [hmsg]
    exact hbits_mkHdr _ [] bs (by decide) (by simp [commonHdr])
  rw [mSize, hf]
  rfl

theorem mOpc_mirrorWrite : mOpc (mirrorWrite a bs).msg = opNWR :=
  hbits_mkHdr [] _ bs (by decide) (by simp)

theorem mPsn_mirrorWrite : mPsn (mirrorWrite a bs).msg = false := by
  have hb : mPsn (mirrorWrite a bs).msg = (mirrorWrite a bs).msg.hdr.getLsbD 17 := rfl
  rw [hb, mirrorWrite, engReq, getLsbD_mkHdr _ (by decide)]
  simp [commonHdr]

/-- The oldest record's write is on its way. -/
def mirrorSent (s : State) (r : MirRec) (l : List MirRec) : State :=
  { s with sw := { s.sw with mirq := { r with sent := true } :: l } }

theorem runs_mirrorRecordPerformed {t : State} (hq : s.sw.mirq = r :: l) (hs : r.sent = false)
    (ht : (mirrorSent s r l).engSend (mirrorWrite (s.mirrAddr r.index) (slice r.bytes 0 32)) = t) :
    Runs .mirrorRecordPerformed s t := by
  refine runs_of ?_
  have he : exec .mirrorRecordPerformed s = execMirrorRecordPerformed s := rfl
  rw [he, execMirrorRecordPerformed, hq, ← ht]
  dsimp only
  rw [hs]
  rfl

theorem finishCmp_mirror {q : Req} (horg : q.org = .mirror) (s : State) (st : Nat) : s.finishCmp q st = s.mirrorDone st := by
  simp only [State.finishCmp, State.finish, State.markDone, State.answer, State.answerFrom, horg]

/-- The ring slot of the oldest record is used up. -/
def slotUsed (s : State) : State := ({ s with sw := { s.sw with mirq := s.sw.mirq.drop 1 } } : State).advance .MIRR_WPTR_INDEX

theorem mirrorDone_eq (s : State) (st : Nat) :
    s.mirrorDone st = if st = stOK then slotUsed s else (slotUsed s).bump .MIRR_DROP_ERR_COUNT := rfl

theorem mirrorDone_mirq (s : State) (st : Nat) : (s.mirrorDone st).sw.mirq = s.sw.mirq.drop 1 := by
  rw [mirrorDone_eq]
  split <;> rfl

theorem rd_mirrorDone_wptr (s : State) (st : Nat) :
    (s.mirrorDone st).rd .MIRR_WPTR_INDEX = (s.rd .MIRR_WPTR_INDEX + 1) % 2 ^ 32 := by
  have hused : (slotUsed s).rd .MIRR_WPTR_INDEX = (s.rd .MIRR_WPTR_INDEX + 1) % 2 ^ 32 := rd_wr_same ..
  rw [mirrorDone_eq]
  split
  · exact hused
  · rw [rd_bump_fld _ _ _ _ _ _ (by decide), hused]

theorem rd_mirrorDone_drop (s : State) (st : Nat) : (s.mirrorDone st).rd .MIRR_DROP_ERR_COUNT =
    if st = stOK then s.rd .MIRR_DROP_ERR_COUNT
    else min (s.rd .MIRR_DROP_ERR_COUNT + 1) (2 ^ Fld.MIRR_DROP_ERR_COUNT.width - 1) := by
  have hused : (slotUsed s).rd .MIRR_DROP_ERR_COUNT = s.rd .MIRR_DROP_ERR_COUNT := rd_advance_fld _ _ _ _ _ _ (by decide)
  rw [mirrorDone_eq]
  split
  · exact hused
  · rw [rd_bump_same, hused]

/-- The write passes its point: the ring and its registers are as they were. -/
theorem mirrorSent_passes {q : Req} (h : (mirrorSent s r l).EngPasses v q) :
    v.sw.mirq = { r with sent := true } :: l ∧ v.home = s.home ∧ v.pool = s.pool ∧
      ∀ f, f ≠ .TM_QS_MAX_DEPTH → v.rd f = s.rd f := by
  have hoff := offPoint_of_engPasses h
  exact ⟨(congrArg (fun t : State => t.sw.mirq) hoff :), (congrArg State.home hoff :), (congrArg State.pool hoff :),
    fun f hf => (pointWork_of_engPasses h).rd f 0 0 hf⟩

/-- A write that its extent does not take is dropped and counted, and uses its ring slot up (R127). -/
theorem mirrorRecord_dropped {st : Nat} (hq : s.sw.mirq = r :: l) (hs : r.sent = false)
    (hv : (mirrorSent s r l).EngPasses v (mirrorWrite (s.mirrAddr r.index) (slice r.bytes 0 32)))
    (ha : s.mirrAddr r.index < 2 ^ 48) (hx : extentCheck (s.extentAt (s.mirrAddr r.index)) = some st) :
    Runs .mirrorRecordPerformed s (v.mirrorDone st) := by
  obtain ⟨-, -, hpool, -⟩ := mirrorSent_passes hv
  refine runs_mirrorRecordPerformed hq hs ?_
  rw [engSend_passes hv, poolAccess_refused (st := st), finishCmp_mirror rfl]
  rw [mAddr_mirrorWrite ha, State.extentAt, hpool]
  exact hx

/-- A store of the mirror that is not merged is written, and ends its record. -/
theorem plainStore_mirror {q : Req} {x : Extent} (horg : q.org = .mirror) (hm : v.on .SWC_CTL_MRG_EN = false)
    (herg : ergPage (lineOf (mAddr q.msg) / 1024) = false) (hbad : v.badSyms (lineOf (mAddr q.msg)) = 0)
    (hpsn : v.linePsn (lineOf (mAddr q.msg)) = false) :
    v.plainStore q x = (written (v.closeRead (lineOf (mAddr q.msg))) (lineOf (mAddr q.msg)) (mAddr q.msg % 64) (storeBytes q.msg)
      (mPsn q.msg)).mirrorDone stOK := by
  have hmerge : v.merges q.msg x = false := by simp [State.merges, hm]
  have hdo : v.doStore q =
      (v.storeLine (lineOf (mAddr q.msg)) (mAddr q.msg % 64) (storeBytes q.msg) (mPsn q.msg) q.via).2.finishCmp q
      (v.storeLine (lineOf (mAddr q.msg)) (mAddr q.msg % 64) (storeBytes q.msg) (mPsn q.msg) q.via).1 := by
    simp only [State.doStore, horg]
  simp only [State.plainStore, hmerge, if_false, Bool.false_eq_true, hdo, storeLine_oasis _ _ _ herg hbad, hpsn, and_false,
    finishCmp_mirror horg]

/-- The state in which a record's 32 bytes are written at `a`. -/
def recordWritten (v : State) (a : Nat) (bs : List Byte) : State := written (v.closeRead (lineOf a)) (lineOf a) (a % 64) bs false

theorem recordWritten_sw (v : State) (a : Nat) (bs : List Byte) : (recordWritten v a bs).sw = v.sw := by
  unfold recordWritten written
  split <;> rfl

theorem rd_recordWritten (v : State) (a : Nat) (bs : List Byte) (f : Fld) : (recordWritten v a bs).rd f = v.rd f := by
  unfold recordWritten written
  split <;> rfl

theorem storeBytes_mirrorWrite (bs : List Byte) : storeBytes (mirrorWrite a (slice bs 0 32)).msg = slice bs 0 32 := by
  have hall := slice_all (slice bs 0 32)
  rw [length_slice] at hall
  rw [storeBytes, mSize_mirrorWrite]
  exact hall

/-- The write of a record to a plain extent in Oasis, with no run of its line open, is performed (R127). -/
theorem poolAccess_mirrorWrite {i : Nat} {x : Extent} (ha : a < 2 ^ 48) (hx : v.extentAt a = some (i, x)) (hst : x.state = 1)
    (hcoh : x.coh = false) (hpub : x.pub = false) (hin : v.InOasis (pageOf a)) (hrun : tfind v.home.runs (lineOf a) = none)
    (hm : v.on .SWC_CTL_MRG_EN = false) (hbad : v.badSyms (lineOf a) = 0) (hpsn : v.linePsn (lineOf a) = false) :
    v.poolAccess (mirrorWrite a (slice bs 0 32)) = (recordWritten v a (slice bs 0 32)).mirrorDone stOK := by
  have haddr := mAddr_mirrorWrite (bs := slice bs 0 32) ha
  have hop : mOpc (mirrorWrite a (slice bs 0 32)).msg = opNWR := mOpc_mirrorWrite
  have herg : ergPage (lineOf a / 1024) = false := by
    obtain ⟨-, -, -, herg, -⟩ := hin
    rwa [show lineOf a / 1024 = pageOf a from Nat.div_div_eq_div_mul _ _ _]
  rw [← haddr] at hx hin hrun herg hbad hpsn
  rw [poolAccess_plain hx hst hcoh hpub (by rw [hop]; decide) hin hrun,
    plainAct_store (r := { mirrorWrite a (slice bs 0 32) with hot := true }) (.inr (.inl hop)),
    plainStore_mirror (q := { mirrorWrite a (slice bs 0 32) with hot := true }) rfl hm herg hbad hpsn]
  simp only [haddr, storeBytes_mirrorWrite, mPsn_mirrorWrite, recordWritten]

/-- The bytes written are those of the record, and no other. -/
theorem memByte_recordWritten (v : State) (a b : Nat) (hlen : bs.length = 32) : memByte (recordWritten v a bs).pool.mem b =
    if a ≤ b ∧ b < a + 32 then bs.getD (b - a) 0 else memByte v.pool.mem b := by
  rw [recordWritten, memByte_written _ _ _ (by omega), lineOf_add, hlen]
  rfl

end MirrorWrite

/-! ### MIRR_CTL (R128) -/

section MirrCtl

variable {s : State} {v : Nat}

/-- The registers of the ring as a write of MIRR_CTL leaves them, before EN (R128). -/
def ringSet (s : State) (v : Nat) : State :=
  let t := s.wr .MIRR_CTL_WRAP (bits v 1 1)
  if t.on .MIRR_CTL_EN ∨ bits v 8 5 < 16 ∨ 25 < bits v 8 5 then t else t.wr .MIRR_CTL_LOG2SZ (bits v 8 5)

theorem regWork_ringSet (s : State) (v : Nat) : RegWork [.MIRR_CTL_WRAP, .MIRR_CTL_LOG2SZ] s (ringSet s v) := by
  have hwrap := regWork_wr (fs := [.MIRR_CTL_WRAP, .MIRR_CTL_LOG2SZ]) (f := .MIRR_CTL_WRAP) (by decide) s (bits v 1 1) 0 0
  unfold ringSet
  dsimp only
  split
  · exact hwrap
  · exact hwrap.trans (regWork_wr (by decide) _ _ _ _)

theorem bits_lt (x lo n : Nat) : bits x lo n < 2 ^ n := Nat.mod_lt _ (Nat.two_pow_pos n)

theorem rd_ringSet_wrap (s : State) (v : Nat) : (ringSet s v).rd .MIRR_CTL_WRAP = bits v 1 1 := by
  have hwrap : (s.wr .MIRR_CTL_WRAP (bits v 1 1)).rd .MIRR_CTL_WRAP = bits v 1 1 :=
    (rd_wr_same ..).trans (Nat.mod_eq_of_lt (bits_lt v 1 1))
  unfold ringSet
  dsimp only
  split
  · exact hwrap
  · rw [rd_wr_fld _ _ _ _ _ _ (by decide), hwrap]

theorem rd_ringSet_size (hen : s.on .MIRR_CTL_EN = false) (hlo : 16 ≤ bits v 8 5) (hhi : bits v 8 5 ≤ 25) :
    (ringSet s v).rd .MIRR_CTL_LOG2SZ = bits v 8 5 := by
  have hen' : (s.wr .MIRR_CTL_WRAP (bits v 1 1)).on .MIRR_CTL_EN = false := by
    rwa [State.on, rd_wr_fld _ _ _ _ _ _ (by decide)]
  rw [ringSet, if_neg (by rw [hen']; simp; omega), rd_wr_same]
  exact Nat.mod_eq_of_lt (bits_lt v 8 5)

theorem ringSet_off (hen : s.on .MIRR_CTL_EN = false) : (ringSet s v).on .MIRR_CTL_EN = false := by
  rwa [State.on, (regWork_ringSet s v).rd _ _ _ (by decide)]

theorem mirrCtl_on (hb : bit v 0 = true) (hen : s.on .MIRR_CTL_EN = false) : s.mirrCtl v =
    if (ringSet s v).ringOk then (ringSet s v).wr .MIRR_CTL_EN 1 else (ringSet s v).raiseBits .MIRR_STAT_BADRING 1 := by
  have he : s.mirrCtl v = if !bit v 0 then (ringSet s v).wr .MIRR_CTL_EN 0 else if (ringSet s v).on .MIRR_CTL_EN then ringSet s v
    else if (ringSet s v).ringOk then (ringSet s v).wr .MIRR_CTL_EN 1 else (ringSet s v).raiseBits .MIRR_STAT_BADRING 1 := rfl
  rw [he, hb, ringSet_off hen]
  rfl

theorem mirrCtl_off (hb : bit v 0 = false) : s.mirrCtl v = (ringSet s v).wr .MIRR_CTL_EN 0 := by
  have he : s.mirrCtl v = if !bit v 0 then (ringSet s v).wr .MIRR_CTL_EN 0 else if (ringSet s v).on .MIRR_CTL_EN then ringSet s v
    else if (ringSet s v).ringOk then (ringSet s v).wr .MIRR_CTL_EN 1 else (ringSet s v).raiseBits .MIRR_STAT_BADRING 1 := rfl
  rw [he, hb]
  rfl

/-- Where the ring lies depends on its base, its size and the extents. -/
theorem ringOk_congr {t : State} (hpool : t.pool = s.pool) (hbase : t.rd .MIRR_BASE_BASE = s.rd .MIRR_BASE_BASE)
    (hsize : t.rd .MIRR_CTL_LOG2SZ = s.rd .MIRR_CTL_LOG2SZ) : t.ringOk = s.ringOk := by
  simp only [State.ringOk, State.inActive, State.mirrSize, hpool, hbase, hsize]

section Enabling

variable (hb : bit v 0 = true) (hen : s.on .MIRR_CTL_EN = false)

include hb hen

theorem rd_mirrCtl_on {f : Fld} (h : f ≠ .MIRR_CTL_EN) (h' : f ≠ .MIRR_STAT_BADRING) :
    (s.mirrCtl v).rd f = (ringSet s v).rd f := by
  rw [mirrCtl_on hb hen]
  split
  · rw [rd_wr_fld _ _ _ _ _ _ h.symm]
  · rw [rd_raiseBits, rd_wr_fld _ _ _ _ _ _ h'.symm]

theorem mirrCtl_on_pool : (s.mirrCtl v).pool = s.pool := by
  rw [mirrCtl_on hb hen]
  exact pool_ite (regWork_ringSet s v).pool (regWork_ringSet s v).pool

/-- Whether the ring may lie where it does is the same before EN is set and after. -/
theorem ringOk_mirrCtl_on : (s.mirrCtl v).ringOk = (ringSet s v).ringOk :=
  ringOk_congr ((mirrCtl_on_pool hb hen).trans (regWork_ringSet s v).pool.symm) (rd_mirrCtl_on hb hen (by decide) (by decide))
    (rd_mirrCtl_on hb hen (by decide) (by decide))

theorem mirrCtl_enabled (hr : (ringSet s v).ringOk = true) :
    (s.mirrCtl v).rd .MIRR_CTL_EN = 1 ∧ (s.mirrCtl v).rd .MIRR_STAT_BADRING = s.rd .MIRR_STAT_BADRING := by
  rw [mirrCtl_on hb hen, if_pos hr]
  refine ⟨rd_wr_same .., ?_⟩
  rw [rd_wr_fld _ _ _ _ _ _ (by decide), (regWork_ringSet s v).rd _ _ _ (by decide)]

theorem mirrCtl_badRing (hr : (ringSet s v).ringOk = false) :
    (s.mirrCtl v).rd .MIRR_CTL_EN = 0 ∧ (s.mirrCtl v).rd .MIRR_STAT_BADRING = 1 := by
  have hzero : s.rd .MIRR_CTL_EN = 0 := by simpa [State.on] using hen
  rw [mirrCtl_on hb hen, if_neg (by simp [hr])]
  refine ⟨?_, rd_raiseBits_flag _ rfl _ _⟩
  rw [rd_raiseBits, rd_wr_fld _ _ _ _ _ _ (by decide), (regWork_ringSet s v).rd _ _ _ (by decide), hzero]

end Enabling

end MirrCtl

/-- Settles O17: planes by what the sequencer's steps do to the map and to N; a record by the home's answer to its write; MIRR_CTL
by where the ring lies. -/
theorem planesAndMirror : Obligations.PlanesAndMirror := by
  unfold Obligations.PlanesAndMirror
  refine ⟨⟨?_, ?_, ?_, ?_⟩, ?_, ?_, ?_, ?_, ?_⟩
  · intro n s hn hf
    refine ⟨_, runs_of rfl, ?_, fun m hm hne => ?_, raised_planeFail hn hf, planeFail_pool s n, planeFail_sw s n⟩
    · rw [planeFailed_planeFail hn hf hn, if_pos rfl]
    · rw [planeFailed_planeFail hn hf hm, if_neg hne]
  · intro h q l s hf hq
    refine ⟨spareSeated s h q, runs_spareInService hf hq, ?_, fun i hi => ?_, (event_pool ..).trans rfl⟩
    · rw [planeIn_spareSeated, State.planeIn, rd_wr_same]
    · rw [planeIn_spareSeated, State.planeIn, rd_wr_ne _ _ (fun e => hi e.2.2.symm)]
      rfl
  · intro h l s hf hq hn
    exact ⟨mapCompacted s h, runs_planeReduce hf hq hn, rd_wr_same .., mapCompacted_pool s h⟩
  · intro h l s hf hq hn hc
    obtain ⟨hin, hcause, hcls⟩ := containMarked_s4 (s := s) (cls := 0x0F) (by decide)
    exact ⟨containMarked s 2 0x0F, runs_planeReduce_last hf hq hn hc, hin, hcause, hcls, rfl, rfl⟩
  · rintro s u v r l st hq hs rfl hv ha hx
    obtain ⟨hmirq, -, hpool, hrd⟩ := mirrorSent_passes hv
    obtain ⟨hok, -⟩ := extentCheck_status hx
    refine ⟨_, mirrorRecord_dropped hq hs hv ha hx, ?_, ?_, ?_, (mirrorDone_pool v st).trans hpool⟩
    · rw [mirrorDone_mirq, hmirq, List.drop_one, List.tail_cons]
    · rw [rd_mirrorDone_wptr, hrd _ (by decide)]
    · rw [rd_mirrorDone_drop, if_neg hok, hrd _ (by decide)]
  · rintro s u r l q n hq hs rfl rfl rfl hw
    exact runs_mirrorRecordPerformed hq hs (if_neg (by rw [← Bool.not_eq_true] at hw; exact hw))
  · rintro s u v r l i x hq hs rfl hv ha hx hst hcoh hpub hin hrun hm hbad hpsn
    obtain ⟨hmirq, hhome, hpool, hrd⟩ := mirrorSent_passes hv
    have hact := poolAccess_mirrorWrite (v := v) (bs := r.bytes) ha (by rw [State.extentAt, hpool]; exact hx) hst hcoh hpub
      (inOasis_of_engPasses hv hin) (by rw [hhome]; exact hrun) (by rw [State.on, hrd _ (by decide)]; exact hm)
      ((badSyms_of_engPasses hv _).trans hbad) (by rw [State.linePsn, hpool]; exact hpsn)
    refine ⟨_, runs_mirrorRecordPerformed hq hs ((engSend_passes hv).trans hact), ?_, ?_, ?_, fun b => ?_⟩
    · rw [mirrorDone_mirq, recordWritten_sw, hmirq, List.drop_one, List.tail_cons]
    · rw [rd_mirrorDone_wptr, rd_recordWritten, hrd _ (by decide)]
    · rw [rd_mirrorDone_drop, if_pos rfl, rd_recordWritten, hrd _ (by decide)]
    · rw [mirrorDone_pool, memByte_recordWritten v _ _ (length_slice ..), hpool]
  · intro v s hh hb hen
    refine ⟨_, runs_hostRow (act := fun s => s.mirrCtl v) rfl hh, ?_, fun hlo hhi => ?_, fun hr => ?_, fun hr => ?_,
      mirrCtl_on_pool hb hen⟩
    · rw [rd_mirrCtl_on hb hen (by decide) (by decide), rd_ringSet_wrap]
    · rw [rd_mirrCtl_on hb hen (by decide) (by decide), rd_ringSet_size hen hlo hhi]
    · exact mirrCtl_enabled hb hen ((ringOk_mirrCtl_on hb hen).symm.trans hr)
    · exact mirrCtl_badRing hb hen ((ringOk_mirrCtl_on hb hen).symm.trans hr)
  · intro v s hh hb
    refine ⟨_, runs_hostRow (act := fun s => s.mirrCtl v) rfl hh, ?_⟩
    rw [mirrCtl_off hb]
    exact ⟨rd_wr_same .., (regWork_ringSet s v).pool⟩

end Sys2Proof.Proofs
end

section
/-! SUPPORT. Proofs of the statements on traffic management (spec/05_traffic_management.md): what a scheduling point selects, what its
selection leaves alone, and what a subtick boundary does. -/

namespace Sys2Proof.Proofs
open Sys2Proof Sys2Proof.Machine

/-! ### Strict classes first (R137) -/

section Strict

variable {s : State} {cs : List Cand} {q : Nat}

theorem pickCls_sc0 (h : s.clsReady cs q 0 = true) : s.pickCls cs q = some ⟨0, true, []⟩ := by
  simp [State.pickCls, h]

theorem pickCls_sc1 (h0 : s.clsReady cs q 0 = false) (h1 : s.clsReady cs q 1 = true) :
    s.pickCls cs q = some ⟨1, true, []⟩ := by
  simp [State.pickCls, h0, h1]

/-- A weighted class is served only while neither strict class can be. -/
theorem strict_idle_of_pickCls {k : Pick} (hk : s.pickCls cs q = some k) (hid : 2 ≤ k.id) :
    s.clsReady cs q 0 = false ∧ s.clsReady cs q 1 = false := by
  have h0 : s.clsReady cs q 0 = false := by
    by_contra h
    obtain rfl : ⟨0, true, []⟩ = k := Option.some.inj ((pickCls_sc0 (by simpa using h)).symm.trans hk)
    exact absurd hid (by decide)
  refine ⟨h0, ?_⟩
  by_contra h
  obtain rfl : ⟨1, true, []⟩ = k := Option.some.inj ((pickCls_sc1 h0 (by simpa using h)).symm.trans hk)
  exact absurd hid (by decide)

end Strict

/-! ### The largest depth seen (R144) -/

section Depths

variable (s : State) (cs : List Cand) (q : Nat)

/-- The largest depth seen of class `c` takes account of what waits now. -/
def depthSeen (c : Nat) : State :=
  if s.rd .TM_QS_MAX_DEPTH q c < depthOf cs c then s.wr .TM_QS_MAX_DEPTH (depthOf cs c) q c else s

/-- The largest depths of all eight classes, as a selection keeps them before it picks. -/
def depthsSeen : State := (List.range 8).foldl (fun s c => depthSeen s cs q c) s

theorem regWork_depthsSeen : RegWork [.TM_QS_MAX_DEPTH] s (depthsSeen s cs q) := by
  refine .foldl (fun s c => ?_) _ _
  unfold depthSeen
  split
  · exact regWork_wr (by decide) _ _ _ _
  · exact .refl _ _

theorem rd_depthSeen_same {c : Nat} (hc : depthOf cs c < 2 ^ 20) :
    (depthSeen s cs q c).rd .TM_QS_MAX_DEPTH q c = max (s.rd .TM_QS_MAX_DEPTH q c) (depthOf cs c) := by
  have hw : Fld.TM_QS_MAX_DEPTH.width = 20 := by decide
  unfold depthSeen
  split
  · rw [rd_wr_same, hw, Nat.mod_eq_of_lt hc]
    omega
  · omega

theorem rd_depthSeen_ne {c d : Nat} (h : d ≠ c) : (depthSeen s cs q d).rd .TM_QS_MAX_DEPTH q c = s.rd .TM_QS_MAX_DEPTH q c := by
  unfold depthSeen
  split
  · exact rd_wr_ne _ _ (fun e => h e.2.2)
  · rfl

theorem rd_depthSeen_foldl {c : Nat} (hc : depthOf cs c < 2 ^ 20) (l : List Nat) :
    (l.foldl (fun s c => depthSeen s cs q c) s).rd .TM_QS_MAX_DEPTH q c =
      if c ∈ l then max (s.rd .TM_QS_MAX_DEPTH q c) (depthOf cs c) else s.rd .TM_QS_MAX_DEPTH q c := by
  induction l generalizing s with
  | nil => simp
  | cons d l ih =>
    rw [List.foldl_cons, ih]
    by_cases hd : d = c
    · subst hd
      rw [rd_depthSeen_same s cs q hc]
      simp
    · rw [rd_depthSeen_ne s cs q hd]
      simp [Ne.symm hd]

theorem rd_depthsSeen {c : Nat} (h8 : c < 8) (hc : depthOf cs c < 2 ^ 20) :
    (depthsSeen s cs q).rd .TM_QS_MAX_DEPTH q c = max (s.rd .TM_QS_MAX_DEPTH q c) (depthOf cs c) :=
  (rd_depthSeen_foldl s cs q hc _).trans (if_pos (List.mem_range.2 h8))

/-- What a point picks turns on no register, since the parameters in force are those last applied (R139). -/
theorem pickCls_depthsSeen : (depthsSeen s cs q).pickCls cs q = s.pickCls cs q := by
  rw [(regWork_depthsSeen s cs q).same]
  rfl

theorem pickSub_depthsSeen (c : Nat) : (depthsSeen s cs q).pickSub cs q c = s.pickSub cs q c := by
  rw [(regWork_depthsSeen s cs q).same]
  rfl

end Depths

/-! ### What a selection remembers (R137) -/

/-- A state without its scheduler memory. -/
def offSched (s : State) : State := { s with sw := { s.sw with sched := [] } }

theorem offSched_remember (s : State) (level : Nat) (node : Nat → Nat) (k : Pick) (cost : Nat) (more : Nat → Bool) :
    offSched (s.remember level node k cost more) = offSched s := by
  unfold State.remember
  refine (foldl_keeps offSched (fun _ _ => ?_) _ _).trans ?_
  · rfl
  · rfl

/-- The picks `k` of a class and `u` of a subscriber, which serve `x`, are remembered; a strict class leaves no memory at the point. -/
def picksKept (s : State) (cs : List Cand) (q : Nat) (k u : Pick) (x : Cand) : State :=
  (if k.id < 2 then s
    else s.remember (pointKey q) (clsNode q) k x.cost (fun c => cs.any (fun y => y.cls == c && y.n != x.n))).remember
    (clsNode q k.id) (subNode q k.id) u x.cost (fun i => cs.any (fun y => y.cls == k.id && y.sub == i && y.n != x.n))

theorem offSched_picksKept (s : State) (cs : List Cand) (q : Nat) (k u : Pick) (x : Cand) :
    offSched (picksKept s cs q k u x) = offSched s := by
  rw [picksKept, offSched_remember]
  split
  · rfl
  · exact offSched_remember ..

/-- The state in which a point has picked `x` and is still to charge it. -/
def picked (s : State) (cs : List Cand) (q : Nat) (k u : Pick) (x : Cand) : State :=
  picksKept (depthsSeen s cs q) cs q k u x

/-! ### SELECT (R134, R137) -/

section Select

variable {s : State} {cs : List Cand} {q : Nat} {k u : Pick} {x : Cand}

/-- Where a class and a subscriber are picked, the subscriber's message is selected and charged. -/
theorem selectAt_of_picks (hk : s.pickCls cs q = some k) (hu : s.pickSub cs q k.id = some (u, x)) :
    s.selectAt cs q = (some x, (picked s cs q k u x).charge q x) := by
  rw [← pickCls_depthsSeen] at hk
  rw [← pickSub_depthsSeen] at hu
  simp only [depthsSeen, depthSeen] at hk hu
  simp only [State.selectAt, hk, hu]
  rfl

theorem selectAt_of_no_pick (hk : s.pickCls cs q = none) : s.selectAt cs q = (none, depthsSeen s cs q) := by
  rw [← pickCls_depthsSeen] at hk
  simp only [depthsSeen, depthSeen] at hk
  simp only [State.selectAt, hk]
  rfl

theorem runs_select_served (hq : q < 376) (hk : s.pickCls (s.candsAt q) q = some k)
    (hu : s.pickSub (s.candsAt q) q k.id = some (u, x)) :
    Runs (.select q) s (((picked s (s.candsAt q) q k u x).charge q x).serve q x) := by
  have he : exec (.select q) s = execSelect q s := rfl
  refine runs_of (he.trans ?_)
  rw [execSelect, if_neg (by omega), selectAt_of_picks hk hu, settled]

theorem runs_select_idle (hq : q < 376) (hk : s.pickCls (s.candsAt q) q = none) :
    Runs (.select q) s (depthsSeen s (s.candsAt q) q) := by
  have he : exec (.select q) s = execSelect q s := rfl
  refine runs_of (he.trans ?_)
  rw [execSelect, if_neg (by omega), selectAt_of_no_pick hk, settled]

/-- Up to its charge, a selection changes the depths seen and the scheduler's memory alone. -/
theorem picked_keeps (s : State) (cs : List Cand) (q : Nat) (k u : Pick) (x : Cand) {t : State} (ht : t = picked s cs q k u x) :
    t.sw.egr = s.sw.egr ∧ t.sw.ing = s.sw.ing ∧ t.sw.buckets = s.sw.buckets ∧ t.ports = s.ports ∧ t.pool = s.pool ∧
      t.home = s.home ∧ t.regs = (depthsSeen s cs q).regs := by
  have hkept : offSched t = { offSched s with regs := (depthsSeen s cs q).regs } :=
    ht ▸ (offSched_picksKept ..).trans (congrArg offSched (regWork_depthsSeen s cs q).same)
  exact ⟨(congrArg (fun t : State => t.sw.egr) hkept :), (congrArg (fun t : State => t.sw.ing) hkept :),
    (congrArg (fun t : State => t.sw.buckets) hkept :), (congrArg State.ports hkept :), (congrArg State.pool hkept :),
    (congrArg State.home hkept :), (congrArg State.regs hkept :)⟩

/-- A request that waits at its die's point, and is in no ingress region, goes on to its home (R131). -/
theorem serve_waiting {t : State} {w : Wait} (hq : 320 ≤ q) (hing : t.sw.ing.find? (fun y => y.n == x.n) = none)
    (hw : t.home.waits.find? (fun w => w.cause == 15 && w.key == q && w.req.pt == x.n) = some w) :
    t.serve q x = ({ t with home := { t.home with waits := t.home.waits.erase w } }).homeArrive w.req := by
  simp only [State.serve, if_neg (Nat.not_lt.2 hq), hing, hw]

theorem charge_sw_ing (s : State) (q : Nat) (x : Cand) : (s.charge q x).sw.ing = s.sw.ing :=
  (congrArg (fun t : State => t.sw.ing) (charge_offPoint s q x) :)

theorem charge_home (s : State) (q : Nat) (x : Cand) : (s.charge q x).home = s.home :=
  (congrArg State.home (charge_offPoint s q x) :)

end Select

/-! ### SUBTICK (R134, R465) -/

section Subtick

variable {s : State}

/-- The next subtick of the epoch has begun, and nothing has been done at its boundary yet. -/
def nextSubtick (s : State) : State :=
  s.setClk { s.clk with
    subtick := s.clk.subtick + 1, cclk := 0, base := s.cycleAt (s.clk.subtick + 1) (s.rd .PWR_EP_STAT_PERIOD) }

theorem exec_subtick (he : s.epochRuns = true) (hc : s.clk.subtick < 15) :
    exec .subtick s = settled (if (nextSubtick s).running then (nextSubtick s).tmBoundary else nextSubtick s) := by
  have hx : exec .subtick s = execSubtick s := rfl
  have hstay : ¬ ((!s.epochRuns) = true ∨ 15 ≤ s.clk.subtick) := by
    rw [he]
    simp
    omega
  rw [hx, execSubtick, if_neg hstay]
  rfl

/-- In RUN the boundary applies what waits, recomputes capacities and scales, and refills, in this order (R138, R141). -/
theorem runs_subtick_running (he : s.epochRuns = true) (hc : s.clk.subtick < 15) (hr : s.running = true) :
    Runs .subtick s ((nextSubtick s).tmApplyNow.rescale.refill) := by
  have hr' : (nextSubtick s).running = true := hr
  refine runs_of ((exec_subtick he hc).trans ?_)
  rw [if_pos hr', settled, State.tmBoundary]

theorem runs_subtick_still (he : s.epochRuns = true) (hc : s.clk.subtick < 15) (hr : s.running = false) :
    Runs .subtick s (nextSubtick s) := by
  have hr' : (nextSubtick s).running = false := hr
  refine runs_of ((exec_subtick he hc).trans ?_)
  rw [hr', if_neg Bool.false_ne_true, settled]

end Subtick

/-- Settles O20: the picks by the order of the classes; SELECT by the pick, which no register enters; APPLY sets its flag, and the
subtick boundary is where it acts. -/
theorem selectServes : Obligations.SelectServes := by
  unfold Obligations.SelectServes
  refine ⟨fun s cs q h => ⟨_, pickCls_sc0 h, rfl⟩, fun s cs q h0 h1 => ⟨_, pickCls_sc1 h0 h1, rfl⟩,
    fun s cs q k hk hid => strict_idle_of_pickCls hk hid, ?_, ?_, ?_, ?_, ?_, ?_⟩
  · intro q s k u x hq hk hu
    obtain ⟨hegr, hing, hbuckets, hports, hpool, hhome, hregs⟩ := picked_keeps s (s.candsAt q) q k u x rfl
    refine ⟨_, runs_select_served hq hk hu, hegr, hing, hbuckets, hports, hpool, hhome, fun c h8 hc => ?_⟩
    rw [rd_congr hregs, rd_depthsSeen s _ q h8 hc]
  · intro q s k u x w h320 hq hk hu hnone hw
    obtain ⟨-, hing, -, hports, hpool, hhome, -⟩ := picked_keeps s (s.candsAt q) q k u x rfl
    refine ⟨picked s (s.candsAt q) q k u x, ?_, hhome, hing, hpool, hports⟩
    rw [← serve_waiting h320 (by rw [charge_sw_ing, hing]; exact hnone) (by rw [charge_home, hhome]; exact hw)]
    exact runs_select_served hq hk hu
  · intro q s hq hk
    have hseen := regWork_depthsSeen s (s.candsAt q) q
    exact ⟨_, runs_select_idle hq hk, (congrArg State.sw hseen.same :), hseen.ports, hseen.pool⟩
  · intro s hh
    refine ⟨_, runs_hostRow (act := fun s => s.wr .TM_STAT_APPLY_PEND 1) rfl hh, ?_, rfl, rfl⟩
    rw [State.on, rd_wr_same]
    decide
  · intro s he hc hr
    exact ⟨nextSubtick s, runs_subtick_running he hc hr, rfl, rfl, rfl, rfl, rfl, rfl⟩
  · intro s he hc hr
    exact ⟨nextSubtick s, runs_subtick_still he hc hr, rfl, rfl, rfl⟩

end Sys2Proof.Proofs
end

section
/-! SUPPORT. Proof of the statement on retrain, lane repair and uplinks (spec/06_links_ports.md): what enters RETRAIN and how it ends,
what becomes of a frame, and the priorities that PFC pauses. -/

namespace Sys2Proof.Proofs
open Sys2Proof Sys2Proof.Machine

/-! ### A port in RETRAIN (R150, R151) -/

/-- A port that has just entered RETRAIN, before what waits on it is told. -/
def retraining (s : State) (p : Nat) : State :=
  ((s.setLstate p 3).bump .PRT_RETRAIN_CNT_COUNT p).updPort p (fun x => { x with attempts := 0, fastBad := [] })

section Retraining

variable (s : State) (p : Nat)

theorem rd_retraining {f : Fld} (hl : f ≠ .PRT_LINK_STAT_LSTATE) (hc : f ≠ .PRT_RETRAIN_CNT_COUNT) (i j : Nat) :
    (retraining s p).rd f i j = s.rd f i j := by
  rw [retraining, rd_updPort, rd_bump_fld _ _ _ _ _ _ hc.symm, State.setLstate, rd_wr_fld _ _ _ _ _ _ hl.symm]

theorem lstate_retraining : (retraining s p).lstate p = 3 := by
  rw [State.lstate, retraining, rd_updPort, rd_bump_fld _ _ _ _ _ _ (by decide)]
  exact lstate_setLstate (by decide) s p

theorem lstate_retraining_ne {q : Nat} (h : q ≠ p) : (retraining s p).lstate q = s.lstate q := by
  rw [State.lstate, retraining, rd_updPort, rd_bump_fld _ _ _ _ _ _ (by decide)]
  exact lstate_setLstate_ne s 3 h

theorem port_retraining : (retraining s p).port p = { s.port p with attempts := 0, fastBad := [] } := by
  rw [retraining, port_updPort_same, port_bump, port_setLstate]

theorem link_retraining : (retraining s p).link p = s.link p := by
  rw [State.link, port_retraining]
  rfl

/-- The retrain is counted. -/
theorem rd_retrainCount_retraining : (retraining s p).rd .PRT_RETRAIN_CNT_COUNT p =
    min (s.rd .PRT_RETRAIN_CNT_COUNT p + 1) (2 ^ Fld.PRT_RETRAIN_CNT_COUNT.width - 1) := by
  rw [retraining, rd_updPort, rd_bump_same, State.setLstate, rd_wr_fld _ _ _ _ _ _ (by decide)]

variable {s p}

/-- From UP a port enters RETRAIN, and its frames move away or the work for its tray waits. -/
theorem enterRetrain_up (hl : s.lstate p = 2) : s.enterRetrain p =
    if s.pmode p = 3 then (retraining s p).uplinkLeft p
    else if s.pmode p = 2 then ((retraining s p).retrainWaits p).abandonMoves p
    else retraining s p := by
  have hm : (retraining s p).pmode p = s.pmode p := rd_retraining s p (by decide) (by decide) p 0
  rw [← hm, State.enterRetrain, if_neg (by omega)]
  rfl

/-- At a port that takes agents nothing else follows. -/
theorem enterRetrain_agent (hm : s.pmode p = 1) (hl : s.lstate p = 2) : s.enterRetrain p = retraining s p := by
  simp [enterRetrain_up hl, hm]

end Retraining

/-! ### The triggers (R150) -/

section Triggers

variable {p : Nat} {s : State}

theorem runs_laneLoss {lane : Nat} (hp : p < 320) (hw : lane < s.width p) (hm : s.pmode p ≠ 0) :
    Runs (.laneLoss p lane) s (s.enterRetrain p) := by
  have he : exec (.laneLoss p lane) s = execLaneLoss p lane s := rfl
  exact runs_of (he.trans (by rw [execLaneLoss, if_neg (by omega)]; rfl))

theorem runs_fecLimit (hp : p < 320) (hm : s.pmode p ≠ 0) : Runs (.fecLimit p) s ((s.fecCount p).enterRetrain p) := by
  have he : exec (.fecLimit p) s = execFecLimit p s := rfl
  exact runs_of (he.trans (by rw [execFecLimit, if_neg (by omega)]; rfl))

theorem runs_retrain (hh : s.hostHeld = false) (hp : p < 320) (hm : s.pmode p ≠ 0) : Runs (.retrain p) s (s.enterRetrain p) := by
  have hr := runs_hostRow (c := .retrain p) (act := fun s => s.hostRetrain p) rfl hh
  rwa [State.hostRetrain, if_neg (by omega)] at hr

end Triggers

/-! ### What the FEC has counted (Table 6.4, log entry 79) -/

section FecCount

variable (s : State) (p : Nat)

theorem rd_bumpFree_same (f : Fld) (i j : Nat) :
    (s.bumpFree f i j).rd f i j = min (s.rd f i j + s.free.1) (2 ^ f.width - 1) := rd_bump_same s.free.2 f i j s.free.1

theorem rd_bumpFree_fld {f g : Fld} (i j i' j' : Nat) (h : f ≠ g) : (s.bumpFree f i j).rd g i' j' = s.rd g i' j' :=
  rd_bump_fld s.free.2 i j s.free.1 i' j' h

/-- The symbols of the lanes are counted beside the codewords. -/
theorem rd_fecCount_codewords {f : Fld} (h : f ≠ .PRT_LANE_SYM_COUNT) (i j : Nat) :
    (s.fecCount p).rd f i j = ((s.bumpFree .PRT_FEC_CORR_COUNT p).bumpFree .PRT_FEC_UNCORR_COUNT p).rd f i j :=
  foldl_keeps (fun t => t.rd f i j) (fun t n => rd_bumpFree_fld t p n i j h.symm) _ _

theorem rd_fecCount {f : Fld} (h : f ∉ [Fld.PRT_LANE_SYM_COUNT, .PRT_FEC_CORR_COUNT, .PRT_FEC_UNCORR_COUNT]) (i j : Nat) :
    (s.fecCount p).rd f i j = s.rd f i j := by
  simp only [List.mem_cons, List.not_mem_nil, or_false, not_or] at h
  obtain ⟨hsym, hcorr, hunc⟩ := h
  rw [rd_fecCount_codewords s p hsym, rd_bumpFree_fld _ _ _ _ _ (Ne.symm hunc), rd_bumpFree_fld _ _ _ _ _ (Ne.symm hcorr)]

theorem rd_fecCount_corr : (s.fecCount p).rd .PRT_FEC_CORR_COUNT p =
    min (s.rd .PRT_FEC_CORR_COUNT p + s.free.1) (2 ^ Fld.PRT_FEC_CORR_COUNT.width - 1) := by
  rw [rd_fecCount_codewords s p (by decide), rd_bumpFree_fld _ _ _ _ _ (by decide), rd_bumpFree_same]

theorem rd_fecCount_uncorr : (s.fecCount p).rd .PRT_FEC_UNCORR_COUNT p =
    min (s.rd .PRT_FEC_UNCORR_COUNT p + (s.bumpFree .PRT_FEC_CORR_COUNT p).free.1) (2 ^ Fld.PRT_FEC_UNCORR_COUNT.width - 1) := by
  rw [rd_fecCount_codewords s p (by decide), rd_bumpFree_same, rd_bumpFree_fld _ _ _ _ _ (by decide)]

theorem fecCount_pool : (s.fecCount p).pool = s.pool :=
  foldl_keeps State.pool (fun t n => (rfl : (t.bumpFree .PRT_LANE_SYM_COUNT p n).pool = t.pool)) _ _

end FecCount

/-! ### The fast attempts (R150) -/

/-- The lanes of a port that failed both fast attempts. -/
def failedBoth (s : State) (p : Nat) (bad : List Nat) : List Nat :=
  (bad.filter (fun i => decide (i < s.width p) && (s.port p).fastBad.contains i)).dedup

/-- A port with both fast attempts spent. -/
def attemptsSpent (s : State) (p : Nat) : State := s.updPort p (fun x => { x with attempts := 2 })

section Attempts

variable {p : Nat} {bad : List Nat} {s : State}

theorem failedBoth_eq_nil (h : ∀ i ∈ bad, s.width p ≤ i ∨ i ∉ (s.port p).fastBad) : failedBoth s p bad = [] := by
  have hnone : bad.filter (fun i => decide (i < s.width p) && (s.port p).fastBad.contains i) = [] := by
    refine List.filter_eq_nil_iff.2 fun i hi => ?_
    rcases h i hi with hw | hb
    · simp [hw]
    · simp [hb]
  rw [failedBoth, hnone, List.dedup_nil]

theorem failedBoth_singleton {i : Nat} (hw : i < s.width p) (hb : i ∈ (s.port p).fastBad) : failedBoth s p [i] = [i] := by
  simp [failedBoth, hw, hb]

variable (hp : p < 320) (hl : s.lstate p = 3) (hr : (s.port p).repairing = false) (hf : (s.port p).failedLane = none)
include hp hl hr hf

theorem runs_attempt_passes (ha : (s.port p).attempts < 2) : Runs (.retrainAttemptEnd p true bad) s (s.retrained p) := by
  have he : exec (.retrainAttemptEnd p true bad) s = execRetrainAttemptEnd p true bad s := rfl
  refine runs_of (he.trans ?_)
  rw [execRetrainAttemptEnd, if_neg (by simp [hp, hl, hr, hf, ha]), if_pos rfl]
  rfl

theorem runs_firstAttempt_fails (ha : (s.port p).attempts = 0) :
    Runs (.retrainAttemptEnd p false bad) s (s.updPort p (fun x => { x with attempts := 1, fastBad := bad })) := by
  have he : exec (.retrainAttemptEnd p false bad) s = execRetrainAttemptEnd p false bad s := rfl
  refine runs_of (he.trans ?_)
  rw [execRetrainAttemptEnd, if_neg (by simp [hp, hl, hr, hf, ha]), if_neg (by decide), ha]
  rfl

theorem runs_secondAttempt_fails (ha : (s.port p).attempts = 1) : Runs (.retrainAttemptEnd p false bad) s
    (if (failedBoth s p bad).isEmpty then (attemptsSpent s p).downCounted p
     else (failedBoth s p bad).foldl (fun s i => s.laneReport p i) (attemptsSpent s p)) := by
  have he : exec (.retrainAttemptEnd p false bad) s = execRetrainAttemptEnd p false bad s := rfl
  refine runs_of (he.trans ?_)
  rw [execRetrainAttemptEnd, if_neg (by simp [hp, hl, hr, hf, ha]), if_neg (by decide), ha]
  rfl

end Attempts

/-! ### Loopback and the repair retrain (R152, R153) -/

/-- A lane whose loopback test has ended: repaired or failed, and recorded unless its queue entry waits (R373). -/
def laneTested (s : State) (p n : Nat) (pass : Bool) : State :=
  let v := if (s.tryRepair p n pass).1 then (s.tryRepair p n pass).2
    else ((s.tryRepair p n pass).2.wr .PRT_LANE_MAP_STATE 2 p n).showRepaired p
  let l := 16 * s.rd .PRT_CFG_DIE p + s.laneIdx p n
  if v.laneQueued l then v else v.laneRecord l

section Repair

variable {p n : Nat} {pass : Bool} {s : State}

theorem runs_loopbackEnd_last (hp : p < 320) (hl : s.lstate p = 3) (hf : (s.port p).failedLane = some n)
    (ht : ((laneTested s p n pass).port p).testQ = []) : Runs (.loopbackEnd p pass) s ((laneTested s p n pass).afterTests p) := by
  have he : exec (.loopbackEnd p pass) s = execLoopbackEnd p pass s := rfl
  refine runs_of (he.trans ?_)
  simp only [laneTested] at ht ⊢
  simp only [execLoopbackEnd, hf, ht, settled]
  rw [if_neg (by omega)]

/-- With a lane left to test, its test begins. -/
theorem runs_loopbackEnd_next {i : Nat} {l : List Nat} (hp : p < 320) (hl : s.lstate p = 3)
    (hf : (s.port p).failedLane = some n) (ht : ((laneTested s p n pass).port p).testQ = i :: l) :
    Runs (.loopbackEnd p pass) s ((laneTested s p n pass).updPort p (fun x => { x with failedLane := some i, testQ := l })) := by
  have he : exec (.loopbackEnd p pass) s = execLoopbackEnd p pass s := rfl
  refine runs_of (he.trans ?_)
  simp only [laneTested] at ht ⊢
  simp only [execLoopbackEnd, hf, ht, settled]
  rw [if_neg (by omega)]

theorem runs_repairRetrain_fails (hp : p < 320) (hl : s.lstate p = 3) (hr : (s.port p).repairing = true) :
    Runs (.repairRetrainEnd p false) s (s.downCounted p) := by
  have he : exec (.repairRetrainEnd p false) s = execRepairRetrainEnd p false s := rfl
  refine runs_of (he.trans ?_)
  rw [execRepairRetrainEnd, if_neg (by simp [hp, hl, hr]), if_pos (by decide)]
  rfl

/-- The port as its repair retrain brings it UP, at the width that its sound lanes fit. -/
def upAtFit (s : State) (p : Nat) : State :=
  (s.showLanes p ((s.soundLanes p).take (fitWidth (s.soundLanes p).length))).retrained p

theorem runs_repairRetrain_passes (hp : p < 320) (hl : s.lstate p = 3) (hr : (s.port p).repairing = true) :
    Runs (.repairRetrainEnd p true) s (if fitWidth (s.soundLanes p).length < s.lanes p
      then ((upAtFit s p).event .portNarrow p).narrowCheck else upAtFit s p) := by
  have he : exec (.repairRetrainEnd p true) s = execRepairRetrainEnd p true s := rfl
  refine runs_of (he.trans ?_)
  rw [execRepairRetrainEnd, if_neg (by simp [hp, hl, hr]), if_neg (by decide)]
  simp only [decide_eq_true_eq]
  rfl

end Repair

/-! ### Frames (R160, R162) -/

section Frames

variable {p : Nat} {b : List Byte} {s : State}

/-- In RUN, with no wake under way, there is nothing to wake. -/
theorem wake_running (hr : s.running = true) (hw : s.power.waking = false) (n : Nat) : s.wake n = s := by
  have hst : s.rd .PWR_STAT_STATE = 0 := by
    simp only [State.running, Bool.and_eq_true, beq_iff_eq] at hr
    obtain ⟨⟨⟨hst, -⟩, -⟩, -⟩ := hr
    exact hst
  simp [State.wake, State.asleep, hst, hw]

theorem mirrTap_disabled (h : s.on .MIRR_CTL_EN = false) (x : Tapped) : s.mirrTap x = s := by simp [State.mirrTap, h]

theorem runs_frame_discarded (hp : p < 320) (hm : s.pmode p = 3) (hl : s.lstate p = 2) (hc : s.contained = false)
    (hf : s.frameMsg p b = none) : Runs (.frame p b) s (s.bump .PRT_UPL_RX_DISCARD_COUNT p) := by
  have he : exec (.frame p b) s = execFrame p b s := rfl
  refine runs_of (he.trans ?_)
  simp only [execFrame, hf, settled]
  rw [if_neg (by simp [hp, hm, hl, hc])]

/-- A MSG that R160 accepts and its policer passes fills the receive queue and arrives at its destination's area. -/
theorem runs_frame_accepted {m : Msg} (hp : p < 320) (hm : s.pmode p = 3) (hl : s.lstate p = 2) (hc : s.contained = false)
    (hf : s.frameMsg p b = some m) (hr : s.running = true) (hen : s.on .MIRR_CTL_EN = false)
    (hpol : (s.polMsg p (16 * mSlots m)).1 = true) (hw : s.power.waking = false) :
    Runs (.frame p b) s
      (let t := (s.polMsg p (16 * mSlots m)).2.rxFill p (beAt b 14 2 / 8192) (40 + mLen m)
       t.rxArrive (mDst m) { msg := m, fromPort := none, uplink := some (8 * p + beAt b 14 2 / 8192), srcSw := leAt b 20 2,
                             time := t.now, base := 0, sub := t.subOf p, hdrSent := false }) := by
  have he : exec (.frame p b) s = execFrame p b s := rfl
  refine runs_of (he.trans ?_)
  simp only [execFrame, hf, settled, wake_running hr hw, mirrTap_disabled hen, hpol]
  rw [if_neg (by simp [hp, hm, hl, hc])]
  rfl

theorem runs_xoffRepeat {pcp : Nat} (hp : p < 320) (hm : s.pmode p = 3) (hl : s.lstate p = 2)
    (hx : (s.port p).xoff.contains pcp = true) :
    Runs (.xoffRepeat p pcp) s (if s.aboveXon p pcp then s.emit (.pfc p pcp 0xFFFF) else s) := by
  have he : exec (.xoffRepeat p pcp) s = execXoffRepeat p pcp s := rfl
  refine runs_of (he.trans ?_)
  simp only [execXoffRepeat, hp, hm, hl, hx, true_and]
  rfl

end Frames

/-! ### Pauses (R161) -/

/-- Setting or clearing a bit leaves the others as they are. -/
theorem testBit_setBit (x i : Nat) (b : Bool) (j : Nat) :
    (setBit x i b).testBit j = if j = i then b else x.testBit j := by
  by_cases hx : x.testBit i = b
  · rw [setBit, if_pos hx]
    split
    · next h => rw [h, hx]
    · rfl
  cases b with
  | true => exact testBit_setBit_true (by simpa using hx) j
  | false =>
    have hset : x.testBit i = true := by simpa using hx
    obtain ⟨y, rfl⟩ := Nat.exists_eq_add_of_le (Nat.ge_two_pow_of_testBit hset)
    have hy : y.testBit i = false := by simpa [Nat.testBit_two_pow_add_eq] using hset
    have hback : setBit y i true = 2 ^ i + y := by rw [setBit, if_neg (by simp [hy]), if_pos rfl, Nat.add_comm]
    have hclear : setBit (2 ^ i + y) i false = y := by simp [setBit, hset]
    rw [hclear, ← hback, testBit_setBit_true hy]
    split
    · next h => rw [h, hy]
    · rfl

/-- What a PFC frame's time does to a priority that it enables. -/
def pfcTime (p : Nat) (times : List Nat) (s : State) (pcp : Nat) : State :=
  if s.pfcOn p pcp && !s.pfcIgnored p pcp then s.setPause p pcp (times.getD pcp 0 != 0) else s

section Pauses

variable {p n : Nat} {s : State}

/-- A priority is paused or freed alone. -/
theorem paused_setPause {k : Nat} (hk : k < 8) (v : Bool) :
    (s.setPause p n v).paused p k = if k = n then v else s.paused p k := by
  have hw : Fld.PRT_UPL_PAUSED_PCP.width = 8 := rfl
  rw [State.paused, State.setPause, rd_wr_same, hw, Nat.testBit_mod_two_pow, rd_updPort, testBit_setBit]
  simp [hk, State.paused]

theorem runs_pfcFrame (mask : Nat) (times : List Nat) (hp : p < 320) (hm : s.pmode p = 3) (hl : s.lstate p = 2) :
    Runs (.pfcFrame p mask times) s (((List.range 8).filter mask.testBit).foldl (pfcTime p times) s) := by
  have he : exec (.pfcFrame p mask times) s = execPfcFrame p mask times s := rfl
  refine runs_of (he.trans ?_)
  rw [execPfcFrame, if_neg (by omega), List.foldl_filter, settled]
  congr 3
  funext t k
  rw [pfcTime, Bool.and_assoc]
  cases mask.testBit k <;> rfl

/-- A mask of one bit enables one priority. -/
theorem filter_testBit_two_pow (hn : n < 8) : (List.range 8).filter (2 ^ n).testBit = [n] := by
  revert n
  decide

theorem pfcTime_pauses {times : List Nat} (hon : s.pfcOn p n = true) (hig : s.pfcIgnored p n = false) (ht : times.getD n 0 ≠ 0) :
    pfcTime p times s n = s.setPause p n true := by
  have hne : (times.getD n 0 != 0) = true := by simpa using ht
  rw [pfcTime, hon, hig, hne]
  rfl

theorem runs_pfcPauseExpiry (hp : p < 320) (hn : n < 8) (hpa : s.paused p n = true) :
    Runs (.pfcPauseExpiry p n) s (s.setPause p n false) := by
  have he : exec (.pfcPauseExpiry p n) s = execPfcPauseExpiry p n s := rfl
  exact runs_of (he.trans (by rw [execPfcPauseExpiry, if_pos ⟨hp, hn, hpa⟩]; rfl))

/-- The watchdog frees a priority, and ignores PFC on it for PFC_WD epochs. -/
def pfcIgnoring (s : State) (p n : Nat) : State :=
  (s.setPause p n false).updPort p (fun x => { x with pauseIgn := tins x.pauseIgn n (s.epoch + s.rd .PRT_UPL_PFC_WD_WD p) })

/-- The MSGs queued for a priority end FLUSHED. -/
def pfcFlushed (u : State) (p n : Nat) : State :=
  (u.sw.egr.filter (fun x => x.point == p && u.pcpOf (mMpri x.msg) == n)).foldl
    (fun s x => (s.fromEgress x).msgEnd (s.portDie p) x.msg stFLUSHED) u

theorem runs_pfcWatchdog {e : Nat} (hp : p < 320) (hn : n < 8) (hpa : s.paused p n = true)
    (hst : tfind (s.port p).pauseStart n = some e) (hwd : e + s.rd .PRT_UPL_PFC_WD_WD p ≤ s.epoch) :
    Runs (.pfcWatchdog p n) s
      (((pfcFlushed (pfcIgnoring s p n) p n).bump .PRT_UPL_PFC_STORM_COUNT p).event .pfcStorm p) := by
  have he : exec (.pfcWatchdog p n) s = execPfcWatchdog p n s := rfl
  refine runs_of (he.trans ?_)
  simp only [execPfcWatchdog, hst]
  rw [if_neg (by simp [hp, hn, hpa, hwd])]
  rfl

theorem paused_pfcIgnoring (hn : n < 8) : (pfcIgnoring s p n).paused p n = false := by
  rw [State.paused, pfcIgnoring, rd_updPort]
  exact (paused_setPause hn false).trans (if_pos rfl)

theorem pauseIgn_pfcIgnoring :
    tfind ((pfcIgnoring s p n).port p).pauseIgn n = some (s.epoch + s.rd .PRT_UPL_PFC_WD_WD p) := by
  rw [pfcIgnoring, port_updPort_same, tfind_tins_same]

end Pauses

/-- Settles O19, command by command: retrains by the state they enter, uplinks by the frame or the priority they are about. -/
theorem retrainAndUplink : Obligations.RetrainAndUplink := by
  unfold Obligations.RetrainAndUplink
  refine ⟨⟨?_, ?_, ?_, ?_, ?_, ?_, ?_, ?_, fun p s => runs_repairRetrain_fails, ?_⟩,
    fun p b s => runs_frame_discarded, ?_, ?_, ?_, ?_, ?_⟩
  · intro p lane s hp hw hm hl
    have hrun := runs_laneLoss hp hw (by omega)
    rw [enterRetrain_agent hm hl] at hrun
    exact ⟨_, hrun, lstate_retraining s p, by rw [port_retraining], rd_retrainCount_retraining s p, link_retraining s p,
      fun q => lstate_retraining_ne s p, rfl, rfl⟩
  · intro p lane s hp hw hm hl
    have hrun := runs_laneLoss hp hw (by omega)
    rw [enterRetrain_up hl] at hrun
    exact ⟨_, hrun, lstate_retraining s p, link_retraining s p, rfl, rfl⟩
  · intro p s hp hm hl
    have hm' : (s.fecCount p).pmode p = 1 := (rd_fecCount s p (by decide) p 0).trans hm
    have hl' : (s.fecCount p).lstate p = 2 := (rd_fecCount s p (by decide) p 0).trans hl
    have hrun := runs_fecLimit hp (s := s) (by omega)
    rw [enterRetrain_agent hm' hl'] at hrun
    exact ⟨_, _, _, hrun, lstate_retraining _ p, by rw [port_retraining],
      (rd_retraining _ p (by decide) (by decide) p 0).trans (rd_fecCount_corr s p),
      (rd_retraining _ p (by decide) (by decide) p 0).trans (rd_fecCount_uncorr s p), fecCount_pool s p⟩
  · intro p s hh hp hm hl
    have hrun := runs_retrain hh hp (by omega)
    rw [enterRetrain_agent hm hl] at hrun
    exact ⟨_, hrun, lstate_retraining s p, link_retraining s p, rfl, rfl⟩
  · intro p bad s hp hl hr hf ha
    exact ⟨runs_attempt_passes hp hl hr hf (by omega), _, runs_firstAttempt_fails hp hl hr hf ha, hl, by rw [port_updPort_same],
      by rw [port_updPort_same], rfl, rfl⟩
  · intro p bad s hp hl hr hf ha hbad
    have hrun := runs_secondAttempt_fails (bad := bad) hp hl hr hf ha
    rw [failedBoth_eq_nil hbad] at hrun
    exact ⟨_, hrun, rfl⟩
  · intro p i s hp hl hr hf ha hw hb
    have hrun := runs_secondAttempt_fails (bad := [i]) hp hl hr hf ha
    rw [failedBoth_singleton hw hb] at hrun
    exact ⟨_, hrun, rfl⟩
  · rintro p n l pass s v u hp hl hf rfl rfl rfl
    exact ⟨runs_loopbackEnd_last hp hl hf, fun i l ht => ⟨_, runs_loopbackEnd_next hp hl hf ht, by rw [port_updPort_same],
      by rw [port_updPort_same], fun q hq => port_updPort_ne _ _ hq, rfl⟩⟩
  · exact fun p s hp hl hr => ⟨_, rfl, runs_repairRetrain_passes hp hl hr⟩
  · rintro p b s u m hp hm hl hc hf hr hen rfl hpol hw
    exact runs_frame_accepted hp hm hl hc hf hr hen hpol hw
  · intro p pcp s hp hm hl hx
    refine ⟨_, runs_xoffRepeat hp hm hl hx, ?_⟩
    split <;> exact ⟨rfl, rfl, rfl, rfl, rfl⟩
  · intro p n t0 s hp hm hl hn hon hig ht
    have hrun := runs_pfcFrame (2 ^ n) (List.replicate n 0 ++ [t0]) hp hm hl
    rw [filter_testBit_two_pow hn, List.foldl_cons, List.foldl_nil, pfcTime_pauses hon hig (by simpa using ht)] at hrun
    exact ⟨_, hrun, (paused_setPause hn _).trans (if_pos rfl), fun k hk hne => (paused_setPause hk _).trans (if_neg hne), rfl, rfl⟩
  · intro p n s hp hn hpa
    exact ⟨_, runs_pfcPauseExpiry hp hn hpa, (paused_setPause hn _).trans (if_pos rfl),
      fun k hk hne => (paused_setPause hk _).trans (if_neg hne), rfl, rfl⟩
  · intro p n e s hp hn hpa hst hwd
    exact ⟨_, _, _, runs_pfcWatchdog hp hn hpa hst hwd, rfl, rfl, paused_pfcIgnoring hn, pauseIgn_pfcIgnoring, rfl, rfl⟩

end Sys2Proof.Proofs
end

section
/-! SUPPORT. Proof of the statement on object commands and the prefetch schedule (spec/08_tiers_migration.md): objects as a table, a
command that ends at once, placements that begin, and a run of a phase. -/

namespace Sys2Proof.Proofs
open Sys2Proof Sys2Proof.Machine

/-! ### The host's commands -/

/-- What a command of the host runs to, by the state its effect is equal to. -/
theorem runs_hostRow_eq {c : Instr} {act : State → State} {s t : State} (he : exec c s = hostRow c act s)
    (hh : s.hostHeld = false) (ht : act s = t) : Runs c s t := ht ▸ runs_hostRow he hh

/-! ### The table of objects (R207) -/

theorem object_setObject_same (s : State) (i : Nat) (o : Obj) : (s.setObject i o).object i = o := tget_tset_same ..

theorem object_setObject_ne (s : State) {i j : Nat} (o : Obj) (h : j ≠ i) : (s.setObject i o).object j = s.object j :=
  tget_tset_ne _ _ _ _ h.symm

theorem object_wr (s : State) (f : Fld) (v i j k : Nat) : (s.wr f v i j).object k = s.object k := rfl

/-! ### A command that ends at once (R207, R478) -/

section ObjEnd

variable (s : State) (st : Nat)

theorem objEnd_tier : (s.objEnd st).tier = s.tier := cmdDone_tier _ _

theorem objEnd_pool : (s.objEnd st).pool = s.pool := cmdDone_pool _ _

theorem object_objEnd (i : Nat) : (s.objEnd st).object i = s.object i := by rw [State.object, objEnd_tier]; rfl

theorem rd_objEnd_status {st : Nat} (h : st < 16) : (s.objEnd st).rd .TIER_OBJ_RES_STATUS = st := by
  have hw : Fld.TIER_OBJ_RES_STATUS.width = 4 := rfl
  rw [State.objEnd, rd_cmdDone _ _ _ _ (by decide) (by decide), rd_wr_fld _ _ _ _ _ _ (by decide), rd_wr_same, hw]
  exact Nat.mod_eq_of_lt h

theorem rd_objEnd_busy : (s.objEnd st).rd .TIER_OBJ_RES_BUSY = 0 := by
  rw [State.objEnd, rd_cmdDone _ _ _ _ (by decide) (by decide), rd_wr_same, Nat.zero_mod]

/-- The end of a command shows its status and nothing else of the command's own registers. -/
theorem rd_objEnd {f : Fld} (hf : f ∉ [Fld.TIER_OBJ_RES_STATUS, .TIER_OBJ_RES_BUSY, .GLB_CMD_DONE_DONE, .GLB_IRQ_STAT_CAUSE]) :
    (s.objEnd st).rd f = s.rd f := by
  simp only [List.mem_cons, List.not_mem_nil, or_false, not_or] at hf
  obtain ⟨hstatus, hbusy, hdone, hirq⟩ := hf
  rw [State.objEnd, rd_cmdDone _ _ _ _ hirq hdone, rd_wr_fld _ _ _ _ _ _ (Ne.symm hbusy), rd_wr_fld _ _ _ _ _ _ (Ne.symm hstatus)]

end ObjEnd

/-! ### A command on the object that INDEX names (R207, R518) -/

/-- The command has taken its INDEX. -/
def objIndexed (s : State) (i : Nat) : State := s.wr .TIER_OBJ_CMD_INDEX (i % 1024)

/-- Whether object commands are served does not turn on INDEX. -/
@[simp] theorem poolCmdOk_wr_index (s : State) (i : Nat) : (s.wr .TIER_OBJ_CMD_INDEX i).poolCmdOk = s.poolCmdOk := by
  simp [State.poolCmdOk, State.assigned, State.running]

section Commands

variable {s : State} {i : Nat} {act : State → Obj → State}

section Served

variable (hb : s.on .TIER_OBJ_RES_BUSY = false)

include hb

/-- Outside ASSIGNED or RUN a command on an object takes its INDEX and ends STATE. -/
theorem objCmd_outside (hp : s.poolCmdOk = false) : s.objCmd i act = (objIndexed s i).objEnd stSTATE := by
  rw [State.objCmd, if_neg (by simp [hb])]
  exact if_pos (by simp [hp])

/-- A command on an object that is not FREE acts on its record. -/
theorem objCmd_acts (hi : i < 1024) (hp : s.poolCmdOk = true) (ho : (s.object i).state ≠ 0) :
    s.objCmd i act = act (objIndexed s i) (s.object i) := by
  rw [State.objCmd, if_neg (by simp [hb]), objIndexed, Nat.mod_eq_of_lt hi]
  exact if_neg (by simp [hp, object_wr, ho])

theorem doDefine_outside (hp : s.poolCmdOk = false) : s.doDefine = s.objEnd stSTATE := by
  rw [State.doDefine, if_neg (by simp [hb]), if_pos (by simp [hp])]

theorem doObjRead_outside (hp : s.poolCmdOk = false) : s.doObjRead i = (objIndexed s i).objEnd stSTATE := by
  rw [State.doObjRead, if_neg (by simp [hb])]
  exact if_pos (by simp [hp])

/-- Outside ASSIGNED or RUN an object command ends STATE, with its INDEX taken if it has one. -/
theorem runs_objectCommand_outside {c : Instr} (hh : s.hostHeld = false)
    (hc : c ∈ [Instr.define, .placeOasis i, .placeErg i, .objectDelete i, .objectRead i]) (hp : s.poolCmdOk = false) :
    Runs c s (s.objEnd stSTATE) ∨ Runs c s ((objIndexed s i).objEnd stSTATE) := by
  simp only [List.mem_cons, List.not_mem_nil, or_false] at hc
  rcases hc with rfl | rfl | rfl | rfl | rfl
  · exact .inl (runs_hostRow_eq rfl hh (doDefine_outside hb hp))
  · exact .inr (runs_hostRow_eq (act := fun s => s.doPlaceOasis i) rfl hh (objCmd_outside hb hp))
  · exact .inr (runs_hostRow_eq (act := fun s => s.doPlaceErg i) rfl hh (objCmd_outside hb hp))
  · exact .inr (runs_hostRow_eq (act := fun s => s.doObjDelete i) rfl hh (objCmd_outside hb hp))
  · exact .inr (runs_hostRow_eq (act := fun s => s.doObjRead i) rfl hh (doObjRead_outside hb hp))

end Served

/-! ### DEFINE, DELETE and READ -/

/-- Object `i` has the range and the layer of the argument registers, and is shown in ERG. -/
def objDefined (s : State) (i : Nat) : State :=
  let t := s.setObject i { state := 1, base := s.rd .TIER_OBJ_ARG0_BASE, pages := s.rd .TIER_OBJ_ARG1_PAGES
                           layer := s.rd .TIER_OBJ_ARG2_LAYER }
  (t.wr .TIER_OBJ_RES_INDEX i).wr .TIER_OBJ_RES_STATE 1

/-- The lowest FREE entry takes a range that may be an object. -/
theorem runs_define (hh : s.hostHeld = false) (hb : s.on .TIER_OBJ_RES_BUSY = false) (hp : s.poolCmdOk = true)
    (hok : s.objOk (s.rd .TIER_OBJ_ARG0_BASE) (s.rd .TIER_OBJ_ARG1_PAGES) = true)
    (hfree : (List.range 1024).find? (fun i => (s.object i).state == 0) = some i) :
    Runs .define s ((objDefined s i).objEnd stOK) := by
  have he : s.doDefine = (objDefined s i).objEnd stOK := by
    rw [State.doDefine, if_neg (by simp [hb]), if_neg (by simp [hp])]
    simp only [hok, hfree]
    rfl
  exact runs_hostRow_eq rfl hh he

theorem objDefined_shows (hi : i < 1024) :
    (objDefined s i).rd .TIER_OBJ_RES_INDEX = i ∧ (objDefined s i).rd .TIER_OBJ_RES_STATE = 1 := by
  obtain ⟨hindex, hstate⟩ : Fld.TIER_OBJ_RES_INDEX.width = 10 ∧ Fld.TIER_OBJ_RES_STATE.width = 2 := by decide
  simp [objDefined, hindex, hstate, Nat.mod_eq_of_lt hi]

/-- PIN is cleared on every page of an object that has a record. -/
def objUnpinned (s : State) (o : Obj) : State := (s.objPages o).foldl (fun s e => s.setPage e.1 { e.2 with pin := false }) s

theorem object_objUnpinned (s : State) (o : Obj) (j : Nat) : (objUnpinned s o).object j = s.object j :=
  foldl_keeps (fun s => State.object s j) (fun _ _ => by rfl) _ s

theorem objUnpinned_pool (s : State) (o : Obj) : (objUnpinned s o).pool = s.pool := foldl_keeps State.pool (fun _ _ => by rfl) _ s

/-- Object `i` is FREE, its pages unpinned where they are. -/
def objFreed (s : State) (i : Nat) : State :=
  ((objUnpinned (objIndexed s i) (s.object i)).setObject i Obj.free).wr .TIER_OBJ_RES_STATE 0

theorem runs_objectDelete (hh : s.hostHeld = false) (hi : i < 1024) (hb : s.on .TIER_OBJ_RES_BUSY = false)
    (hp : s.poolCmdOk = true) (ho : (s.object i).state ≠ 0) : Runs (.objectDelete i) s ((objFreed s i).objEnd stOK) := by
  have he : s.doObjDelete i = (objFreed s i).objEnd stOK := by
    rw [State.doObjDelete, objCmd_acts hb hi hp ho, Nat.mod_eq_of_lt hi]
    rfl
  exact runs_hostRow_eq (act := fun s => s.doObjDelete i) rfl hh he

/-- The record of object `i` stands in the argument registers and in TIER_OBJ_RES. -/
def objLoaded (s : State) (i : Nat) : State :=
  let o := s.object i
  let t := (((objIndexed s i).wr .TIER_OBJ_ARG0_BASE o.base).wr .TIER_OBJ_ARG1_PAGES o.pages).wr .TIER_OBJ_ARG2_LAYER o.layer
  (t.wr .TIER_OBJ_RES_INDEX i).wr .TIER_OBJ_RES_STATE o.state

theorem runs_objectRead (hh : s.hostHeld = false) (hi : i < 1024) (hb : s.on .TIER_OBJ_RES_BUSY = false)
    (hp : s.poolCmdOk = true) : Runs (.objectRead i) s ((objLoaded s i).objEnd stOK) := by
  have he : s.doObjRead i = (objLoaded s i).objEnd stOK := by
    rw [State.doObjRead, if_neg (by simp [hb]), objLoaded, objIndexed, Nat.mod_eq_of_lt hi]
    exact if_neg (by simp [hp])
  exact runs_hostRow_eq (act := fun s => s.doObjRead i) rfl hh he

theorem objLoaded_shows (s : State) (i : Nat) :
    (objLoaded s i).rd .TIER_OBJ_ARG0_BASE = (s.object i).base % 2 ^ Fld.TIER_OBJ_ARG0_BASE.width ∧
      (objLoaded s i).rd .TIER_OBJ_ARG1_PAGES = (s.object i).pages % 2 ^ Fld.TIER_OBJ_ARG1_PAGES.width ∧
      (objLoaded s i).rd .TIER_OBJ_RES_STATE = (s.object i).state % 2 ^ Fld.TIER_OBJ_RES_STATE.width := by
  simp [objLoaded]

/-! ### PLACE_OASIS and PLACE_ERG begin -/

theorem runs_placeOasis {k : Nat} {x : Extent} (hh : s.hostHeld = false) (hi : i < 1024) (hb : s.on .TIER_OBJ_RES_BUSY = false)
    (hp : s.poolCmdOk = true) (ho : (s.object i).state ≠ 0) (hx : s.extentAt ((s.object i).base * 65536) = some (k, x))
    (hplace : x.place ≠ 1) : Runs (.placeOasis i) s ((objIndexed s i).objBegin i 2 (s.object i)) := by
  have hx' : (objIndexed s i).extentAt ((s.object i).base * 65536) = some (k, x) := hx
  have he : s.doPlaceOasis i = (objIndexed s i).objBegin i 2 (s.object i) := by
    rw [State.doPlaceOasis, objCmd_acts hb hi hp ho, Nat.mod_eq_of_lt hi]
    simp only [hx', if_neg hplace]
  exact runs_hostRow_eq (act := fun s => s.doPlaceOasis i) rfl hh he

theorem runs_placeErg (hh : s.hostHeld = false) (hi : i < 1024) (hb : s.on .TIER_OBJ_RES_BUSY = false)
    (hp : s.poolCmdOk = true) (ho : (s.object i).state ≠ 0) :
    Runs (.placeErg i) s ((objIndexed s i).objBegin i 3 (s.object i)) := by
  have he : s.doPlaceErg i = (objIndexed s i).objBegin i 3 (s.object i) := by
    rw [State.doPlaceErg, objCmd_acts hb hi hp ho, Nat.mod_eq_of_lt hi]
  exact runs_hostRow_eq (act := fun s => s.doPlaceErg i) rfl hh he

/-- A placement that begins is BUSY, with no page processed yet (R209). -/
theorem objBegin_shows (s : State) (i op : Nat) (o : Obj) :
    (s.objBegin i op o).on .TIER_OBJ_RES_BUSY = true ∧ (s.objBegin i op o).rd .TIER_PROG_POS_POS = 0 := by
  have hw : Fld.TIER_OBJ_RES_BUSY.width = 1 := rfl
  simp [State.on, State.objBegin, rd_lit, hw]

/-! ### A run of a phase (R208, R209, R437) -/

/-- The image's schedule entries of a phase, in order, each as its object and twice its number plus 1 for ERG. -/
def runEntries (s : State) (ph : Nat) : List (Nat × Nat) :=
  s.boot.image.sched.zipIdx.filterMap (fun (e, n) => if bit e.1 (ph - 1) then some (e.2.1, 2 * n + e.2.2 % 2) else none)

/-- The image's objects are defined and a run of the phase is in progress, before its first entry. -/
def runBegun (s : State) (ph : Nat) : State :=
  let q := runEntries s ph
  let s := s.imageObjects
  let tot := (q.map (fun e => (s.object e.1).pages)).sum
  let s := ((s.wr .TIER_OBJ_RES_BUSY 1).wr .TIER_OBJ_RES_STATUS stOK).wr .TIER_PROG_TOT_TOTAL tot
  let s := (s.wr .TIER_PROG_POS_POS 0).wr .TIER_PROG_PCT_PCT 0
  let s := (s.wr .TIER_SCHED_STAT_RUNNING 1).wr .TIER_SCHED_STAT_PHASE ph
  { s with busy := { s.busy with runQ := q, objStop := false, objFail := false, objPos := 0 } }

/-- Defining the image's objects changes nothing but the table of objects. -/
theorem imageObjects_keeps {β : Type} (p : State → β) (hp : ∀ s i o, p (State.setObject s i o) = p s) (s : State) :
    p s.imageObjects = p s := by
  refine foldl_keeps p (fun s e => ?_) _ s
  dsimp only
  split
  · exact hp _ _ _
  · rfl

theorem imageObjects_nil (h : s.boot.image.objs = []) : s.imageObjects = s := by rw [State.imageObjects, h, List.foldl_nil]

variable {ph : Nat}

theorem runBegun_pool (s : State) (ph : Nat) : (runBegun s ph).pool = s.pool := imageObjects_keeps State.pool (fun _ _ _ => rfl) s
theorem runBegun_sw (s : State) (ph : Nat) : (runBegun s ph).sw = s.sw := imageObjects_keeps State.sw (fun _ _ _ => rfl) s
theorem runBegun_home (s : State) (ph : Nat) : (runBegun s ph).home = s.home := imageObjects_keeps State.home (fun _ _ _ => rfl) s

theorem runBegun_tier (h : s.boot.image.objs = []) : (runBegun s ph).tier = s.tier := by
  have htier : (runBegun s ph).tier = s.imageObjects.tier := rfl
  rw [htier, imageObjects_nil h]

/-- A run that begins is BUSY and RUNNING in its phase, with no page processed yet. -/
theorem runBegun_shows (s : State) (hph : ph ≤ 3) :
    (runBegun s ph).rd .TIER_SCHED_STAT_PHASE = ph ∧ (runBegun s ph).on .TIER_SCHED_STAT_RUNNING = true ∧
      (runBegun s ph).rd .TIER_OBJ_RES_STATUS = stOK ∧ (runBegun s ph).on .TIER_OBJ_RES_BUSY = true ∧
      (runBegun s ph).rd .TIER_PROG_POS_POS = 0 ∧ (runBegun s ph).rd .TIER_PROG_PCT_PCT = 0 := by
  obtain ⟨hphase, hrun, hbusy⟩ : Fld.TIER_SCHED_STAT_PHASE.width = 2 ∧ Fld.TIER_SCHED_STAT_RUNNING.width = 1 ∧
      Fld.TIER_OBJ_RES_BUSY.width = 1 := by decide
  have hmod : ph % 4 = ph := Nat.mod_eq_of_lt (by omega)
  simp [State.on, runBegun, rd_lit, hphase, hrun, hbusy, hmod]

/-- A run with no entry has no page to process. -/
theorem rd_runBegun_total (h : runEntries s ph = []) : (runBegun s ph).rd .TIER_PROG_TOT_TOTAL = 0 := by
  simp [runBegun, rd_lit, h]

section Run

variable (hh : s.hostHeld = false) (h1 : 1 ≤ ph) (h3 : ph ≤ 3) (hb : s.on .TIER_OBJ_RES_BUSY = false)

include hh h1 h3 hb

theorem runs_scheduleRun (hp : s.poolCmdOk = true) : Runs (.scheduleRun ph) s ((runBegun s ph).nextEntry (runEntries s ph)) := by
  have hboot : s.imageObjects.boot = s.boot := imageObjects_keeps State.boot (fun _ _ _ => rfl) s
  have he : s.doSchedule ph = (runBegun s ph).nextEntry (runEntries s ph) := by
    rw [State.doSchedule, if_neg (by simp [hb]; omega), if_neg (by simp [hp])]
    simp only [hboot]
    rfl
  exact runs_hostRow_eq (act := fun s => s.doSchedule ph) rfl hh he

theorem runs_scheduleRun_outside (hp : s.poolCmdOk = false) : Runs (.scheduleRun ph) s (s.objEnd stSTATE) := by
  have he : s.doSchedule ph = s.objEnd stSTATE := by
    rw [State.doSchedule, if_neg (by simp [hb]; omega), if_pos (by simp [hp])]
  exact runs_hostRow_eq (act := fun s => s.doSchedule ph) rfl hh he

end Run

theorem runs_scheduleStop (hh : s.hostHeld = false) (hr : s.on .TIER_SCHED_STAT_RUNNING = true) :
    Runs .scheduleStop s { s with busy := { s.busy with objStop := true } } :=
  runs_hostRow_eq (act := State.stopSchedule) rfl hh (if_pos hr)

end Commands

/-! ### The end of a command or run (R209) -/

section ObjOver

variable (s : State)

theorem objOver_tier : s.objOver.tier = s.tier := cmdDone_tier _ _

theorem objOver_pool : s.objOver.pool = s.pool := cmdDone_pool _ _

/-- BUSY and RUNNING fall. -/
theorem objOver_shows : s.objOver.rd .TIER_SCHED_STAT_RUNNING = 0 ∧ s.objOver.rd .TIER_OBJ_RES_BUSY = 0 := by
  simp [State.objOver]

/-- The other registers that a run shows hold their final values. -/
theorem rd_objOver {f : Fld} (hf : f ∉ [Fld.TIER_OBJ_RES_STATE, .TIER_OBJ_RES_BUSY, .TIER_SCHED_STAT_RUNNING, .GLB_CMD_DONE_DONE,
    .GLB_IRQ_STAT_CAUSE]) : s.objOver.rd f = s.rd f := by
  simp only [List.mem_cons, List.not_mem_nil, or_false, not_or] at hf
  obtain ⟨hstate, hbusy, hrun, hdone, hirq⟩ := hf
  rw [State.objOver, rd_cmdDone _ _ _ _ hirq hdone, rd_wr_fld _ _ _ _ _ _ (Ne.symm hrun), rd_wr_fld _ _ _ _ _ _ (Ne.symm hbusy),
    rd_wr_fld _ _ _ _ _ _ (Ne.symm hstate)]
  rfl

end ObjOver

/-- Settles O26, command by command: a command that ends at once by its end, a placement by its beginning, a run by the state in
which its first entry is taken. -/
theorem objectCommands : Obligations.ObjectCommands := by
  unfold Obligations.ObjectCommands
  refine ⟨?_, ?_, ?_, ?_, ?_, ?_, ?_, ?_, ?_, ?_⟩
  · intro c i s hh hc hb hp
    rcases runs_objectCommand_outside hb hh hc hp with hr | hr <;>
      exact ⟨_, hr, rd_objEnd_status _ (by decide), rd_objEnd_busy _ _, objEnd_tier _ _, objEnd_pool _ _⟩
  · intro i s hh hb hp hok hfree
    have hi : i < 1024 := List.mem_range.1 (List.mem_of_find?_eq_some hfree)
    obtain ⟨hindex, hstate⟩ := objDefined_shows (s := s) hi
    refine ⟨_, runs_define hh hb hp hok hfree, ?_, fun j hj => ?_, rd_objEnd_status _ (by decide), ?_, ?_, objEnd_pool _ _⟩
    · rw [object_objEnd]
      exact object_setObject_same _ _ _
    · rw [object_objEnd]
      exact object_setObject_ne _ _ hj
    · rw [rd_objEnd _ _ (by decide), hindex]
    · rw [rd_objEnd _ _ (by decide), hstate]
  · intro i k s x hh hi hb hp ho hx hplace
    obtain ⟨hbusy, hpos⟩ := objBegin_shows (objIndexed s i) i 2 (s.object i)
    exact ⟨_, runs_placeOasis hh hi hb hp ho hx hplace, hbusy, rfl, rfl, hpos, rfl, rfl⟩
  · intro i s hh hi hb hp ho
    exact ⟨_, runs_placeErg hh hi hb hp ho, (objBegin_shows _ _ _ _).1, rfl, rfl, rfl, rfl⟩
  · intro i s hh hi hb hp ho
    refine ⟨_, runs_objectDelete hh hi hb hp ho, ?_, fun j hj => ?_, rd_objEnd_status _ (by decide), ?_, ?_⟩
    · rw [object_objEnd]
      exact object_setObject_same _ _ _
    · rw [object_objEnd]
      exact (object_setObject_ne _ _ hj).trans (object_objUnpinned _ _ _)
    · rw [rd_objEnd _ _ (by decide), objFreed, rd_wr_same, Nat.zero_mod]
    · exact (objEnd_pool _ _).trans (objUnpinned_pool _ _)
  · intro i s hh hi hb hp
    obtain ⟨hbase, hpages, hstate⟩ := objLoaded_shows s i
    refine ⟨_, runs_objectRead hh hi hb hp, rd_objEnd_status _ (by decide), ?_, ?_, ?_, objEnd_tier _ _, objEnd_pool _ _⟩
    · rw [rd_objEnd _ _ (by decide), hbase]
    · rw [rd_objEnd _ _ (by decide), hpages]
    · rw [rd_objEnd _ _ (by decide), hstate]
  · intro ph s hh h1 h3 hb hp
    obtain ⟨hphase, hrunning, hstatus, hbusy, hpos, hpct⟩ := runBegun_shows s h3
    refine ⟨_, _, runs_scheduleRun hh h1 h3 hb hp, rfl, rfl, hphase, hrunning, hstatus, hbusy, hpos, hpct, runBegun_pool s ph,
      runBegun_sw s ph, runBegun_home s ph, fun hq => ?_⟩
    rw [hq]
    exact objOver_shows _
  · intro ph s hh h1 h3 hb hp
    exact ⟨_, runs_scheduleRun_outside hh h1 h3 hb hp, rd_objEnd_status _ (by decide), rd_objEnd_busy _ _, objEnd_tier _ _,
      objEnd_pool _ _⟩
  · intro ph s hh h1 h3 hb hp hobjs hsched
    have hq : runEntries s ph = [] := by simp [runEntries, hsched]
    have hrun : Runs (.scheduleRun ph) s (runBegun s ph).objOver := by
      have := runs_scheduleRun hh h1 h3 hb hp
      rwa [hq] at this
    obtain ⟨hphase, -, hstatus, -⟩ := runBegun_shows s h3
    obtain ⟨hrunning, hbusy⟩ := objOver_shows (runBegun s ph)
    refine ⟨_, hrun, ?_, hrunning, ?_, hbusy, ?_, (objOver_tier _).trans (runBegun_tier hobjs),
      (objOver_pool _).trans (runBegun_pool s ph)⟩
    · rw [rd_objOver _ (by decide), hphase]
    · rw [rd_objOver _ (by decide), hstatus]
    · rw [rd_objOver _ (by decide), rd_runBegun_total hq]
  · exact fun s hh hr => ⟨_, runs_scheduleStop hh hr, rfl, rfl, rfl, rfl⟩

end Sys2Proof.Proofs
end

section
/-! SUPPORT. Proof of the statement on the commands of coherence groups (spec/09_coherence.md): a group command is taken, and ends at
once or begins a walk. -/

namespace Sys2Proof.Proofs
open Sys2Proof Sys2Proof.Machine

/-! ### Groups as a table (R213) -/

theorem cg_setCg_same (s : State) (g : Nat) (c : Cg) : (s.setCg g c).cg g = c := tget_tset_same ..

theorem cg_setCg_ne (s : State) {g h : Nat} (c : Cg) (hne : h ≠ g) : (s.setCg g c).cg h = s.cg h := tget_tset_ne _ _ _ _ hne.symm

/-- A group's record is part of the coherence unit. -/
theorem cg_congr {s t : State} (h : t.coh = s.coh) (g : Nat) : t.cg g = s.cg g := by rw [State.cg, h]; rfl

/-! ### The end of a group command (Table 21.5) -/

section CgEnd

variable (s : State) (st : Nat)

@[simp] theorem cgEnd_coh : (s.cgEnd st).coh = s.coh := cmdDone_coh _ _

@[simp] theorem cgEnd_pool : (s.cgEnd st).pool = s.pool := cmdDone_pool _ _

@[simp] theorem cg_cgEnd (g : Nat) : (s.cgEnd st).cg g = s.cg g := cg_congr (cgEnd_coh s st) g

theorem rd_cgEnd_status {st : Nat} (h : st < 16) : (s.cgEnd st).rd .DIR_CG_RES_STATUS = st := by
  have hw : Fld.DIR_CG_RES_STATUS.width = 4 := rfl
  rw [State.cgEnd, rd_cmdDone _ _ _ _ (by decide) (by decide), rd_wr_fld _ _ _ _ _ _ (by decide), rd_wr_same, hw]
  exact Nat.mod_eq_of_lt h

theorem rd_cgEnd_busy : (s.cgEnd st).rd .DIR_CG_RES_BUSY = 0 := by
  rw [State.cgEnd, rd_cmdDone _ _ _ _ (by decide) (by decide), rd_wr_same, Nat.zero_mod]

/-- The end of a command shows in its result and in the host's flags alone. -/
theorem rd_cgEnd {f : Fld} (hf : f ∉ [Fld.DIR_CG_RES_STATUS, .DIR_CG_RES_BUSY, .GLB_CMD_DONE_DONE, .GLB_IRQ_STAT_CAUSE])
    (i j : Nat) : (s.cgEnd st).rd f i j = s.rd f i j := by
  simp only [List.mem_cons, List.not_mem_nil, or_false, not_or] at hf
  obtain ⟨hstatus, hbusy, hdone, hirq⟩ := hf
  rw [State.cgEnd, rd_cmdDone _ _ _ _ hirq hdone, rd_wr_fld _ _ _ _ _ _ (Ne.symm hbusy), rd_wr_fld _ _ _ _ _ _ (Ne.symm hstatus)]

end CgEnd

/-! ### A group command is taken (R214, R478) -/

/-- The command's group is shown in its result. -/
def cgTaken (s : State) : State := s.wr .DIR_CG_RES_GROUP (s.rd .DIR_CG_ARG_GROUP)

section Taken

variable {s : State} {g : Nat}

@[simp] theorem cgTaken_coh : (cgTaken s).coh = s.coh := rfl

@[simp] theorem cgTaken_pool : (cgTaken s).pool = s.pool := rfl

@[simp] theorem cg_cgTaken : (cgTaken s).cg g = s.cg g := rfl

theorem rd_cgTaken {f : Fld} (hf : Fld.DIR_CG_RES_GROUP ≠ f) (i j : Nat) : (cgTaken s).rd f i j = s.rd f i j :=
  rd_wr_fld _ _ _ _ _ _ hf

@[simp] theorem cgState_cgTaken : (cgTaken s).cgState g = s.cgState g := rd_cgTaken (by decide) _ _

@[simp] theorem slotAgent_cgTaken (m : Nat) : (cgTaken s).slotAgent g m = s.slotAgent g m := rfl

@[simp] theorem slotListed_cgTaken (id : Nat) : (cgTaken s).slotListed g id = s.slotListed g id := rfl

@[simp] theorem cgListed_cgTaken : (cgTaken s).cgListed g = s.cgListed g := by
  simp only [State.cgListed, State.on, rd_cgTaken (f := .DIR_CG_MEMBER_VALID) (by decide),
    rd_cgTaken (f := .DIR_CG_MEMBER_ID) (by decide)]
  rfl

theorem poolCmdOk_cgTaken : (cgTaken s).poolCmdOk = s.poolCmdOk := by
  simp [cgTaken, State.poolCmdOk, State.assigned, State.running]

variable {act : State → Nat → State} (hb : s.on .DIR_CG_RES_BUSY = false)

include hb

theorem cgCmd_outside (hp : s.poolCmdOk = false) : s.cgCmd act = (cgTaken s).cgEnd stSTATE := by
  have hp' : (cgTaken s).poolCmdOk = false := poolCmdOk_cgTaken.trans hp
  rw [State.cgCmd, if_neg (by simp [hb])]
  exact if_pos (.inl (by simp only [cgTaken] at hp'; simp [hp']))

theorem cgCmd_acts (hp : s.poolCmdOk = true) (hd : s.rcv.dirOff = []) (hg : s.rd .DIR_CG_ARG_GROUP = g) :
    s.cgCmd act = act (cgTaken s) g := by
  have hp' : (cgTaken s).poolCmdOk = true := poolCmdOk_cgTaken.trans hp
  rw [State.cgCmd, if_neg (by simp [hb]), hg]
  simp only [cgTaken, hg] at hp' ⊢
  exact if_neg (by simp [hp', hd])

end Taken

/-! ### The five commands (R214, R236) -/

section Commands

variable {s : State} {g : Nat} (hb : s.on .DIR_CG_RES_BUSY = false)

include hb

/-- Outside ASSIGNED or RUN a group command ends STATE. -/
theorem runs_groupCommand_outside {c : Instr} (hh : s.hostHeld = false)
    (hc : c ∈ [Instr.form, .add, .remove, .reform, .disband]) (hp : s.poolCmdOk = false) :
    Runs c s ((cgTaken s).cgEnd stSTATE) := by
  simp only [List.mem_cons, List.not_mem_nil, or_false] at hc
  rcases hc with rfl | rfl | rfl | rfl | rfl
  · exact runs_hostRow_eq (act := State.doForm) rfl hh (cgCmd_outside hb hp)
  · exact runs_hostRow_eq (act := State.doAdd) rfl hh (cgCmd_outside hb hp)
  · exact runs_hostRow_eq (act := State.doRemove) rfl hh (cgCmd_outside hb hp)
  · exact runs_hostRow_eq (act := State.doReform) rfl hh (cgCmd_outside hb hp)
  · exact runs_hostRow_eq (act := State.doDisband) rfl hh (cgCmd_outside hb hp)

variable (hh : s.hostHeld = false) (hp : s.poolCmdOk = true) (hd : s.rcv.dirOff = []) (hg : s.rd .DIR_CG_ARG_GROUP = g)

omit hb in
/-- The group is UP with the listed slots, at its next GEN. -/
def groupFormed (s : State) (g : Nat) : State :=
  (((cgTaken s).setCg g { Cg.init with slots := s.cgListed g }).setCgState g 1).advance .DIR_CG_GEN_GEN g

include hh hp hd hg

theorem runs_form (hst : s.cgState g = 0) (hone : idsOnce (s.cgListed g) = true) :
    Runs .form s ((groupFormed s g).cgEnd stOK) := by
  refine runs_hostRow_eq (act := State.doForm) rfl hh ?_
  rw [State.doForm, cgCmd_acts hb hp hd hg]
  simp only [cgState_cgTaken, cgListed_cgTaken, hst, hone]
  rfl

theorem runs_form_refused (hst : s.cgState g = 0) (hone : idsOnce (s.cgListed g) = false) :
    Runs .form s ((cgTaken s).cgEnd stREFUSED) := by
  refine runs_hostRow_eq (act := State.doForm) rfl hh ?_
  rw [State.doForm, cgCmd_acts hb hp hd hg]
  simp only [cgState_cgTaken, cgListed_cgTaken, hst, hone]
  rfl

omit hb hh hp hd hg in
/-- Slot `m` of the group lists agent `id`. -/
def memberAdded (s : State) (g m id : Nat) : State :=
  let t := (cgTaken s).setCg g { s.cg g with slots := (s.cg g).slots ++ [(m, id)] }
  (t.wr .DIR_CG_MEMBER_VALID 1 g m).wr .DIR_CG_MEMBER_ID id g m

theorem runs_add {m id : Nat} (hm : s.rd .DIR_CG_ARG_SLOT = m) (hid : s.rd .DIR_CG_ARG_ID = id) (hst : s.cgState g = 1)
    (hslot : s.slotAgent g m = none) (hlist : s.slotListed g id = none) : Runs .add s ((memberAdded s g m id).cgEnd stOK) := by
  refine runs_hostRow_eq (act := State.doAdd) rfl hh ?_
  rw [State.doAdd, cgCmd_acts hb hp hd hg]
  simp only [rd_cgTaken (f := .DIR_CG_ARG_SLOT) (by decide), rd_cgTaken (f := .DIR_CG_ARG_ID) (by decide), hm, hid]
  exact if_neg (by simp [hst, hslot, hlist])

omit hb hh hp hd hg in
/-- The walk that empties slot `m` has begun. -/
def removeBegun (s : State) (g m : Nat) : State := ((cgTaken s).setCg g { s.cg g with removing := some m }).cgWalk g 1

omit hb hh hp hd hg in
theorem contained_removeBegun (m : Nat) : (removeBegun s g m).contained = s.contained := by
  simp [removeBegun, State.cgWalk, State.contained, State.on, State.setCg, rd_lit, rd_cgTaken]

theorem runs_remove {m : Nat} (hc : s.contained = false) (hm : s.rd .DIR_CG_ARG_SLOT = m) (hst : s.cgState g = 1)
    (hslot : (s.slotAgent g m).isSome = true) :
    Runs .remove s ((removeBegun s g m).recallAll g (fun e => e.names m)) := by
  refine runs_hostRow_eq (act := State.doRemove) rfl hh ?_
  rw [State.doRemove, cgCmd_acts hb hp hd hg]
  simp only [rd_cgTaken (f := .DIR_CG_ARG_SLOT) (by decide), hm]
  rw [if_neg (by simp [hst, Option.isSome_iff_ne_none.1 hslot])]
  have hc' : (removeBegun s g m).contained = false := (contained_removeBegun m).trans hc
  exact if_neg (Bool.eq_false_iff.1 hc')

theorem runs_disband_faulted (hst : s.cgState g = 2) : Runs .disband s ((cgTaken s).cgWalk g 3) := by
  refine runs_hostRow_eq (act := State.doDisband) rfl hh ?_
  rw [State.doDisband, cgCmd_acts hb hp hd hg]
  simp [hst]

theorem runs_reform_up (hst : s.cgState g = 1) : Runs .reform s ((cgTaken s).cgEnd stOK) := by
  refine runs_hostRow_eq (act := State.doReform) rfl hh ?_
  rw [State.doReform, cgCmd_acts hb hp hd hg]
  exact if_pos (cgState_cgTaken.trans hst)

omit hb hh hp hd hg in
/-- The group has the listed slots, and the walk that makes it UP has begun. -/
def reformBegun (s : State) (g : Nat) : State := ((cgTaken s).setCg g { s.cg g with slots := s.cgListed g }).cgWalk g 4

theorem runs_reform_faulted (hst : s.cgState g = 2) (hw : (s.cg g).faultWalk = false) (hone : idsOnce (s.cgListed g) = true) :
    Runs .reform s (reformBegun s g) := by
  refine runs_hostRow_eq (act := State.doReform) rfl hh ?_
  rw [State.doReform, cgCmd_acts hb hp hd hg]
  simp [hst, hw, State.reformLoad, hone, reformBegun]

end Commands

/-! ### What they leave -/

/-- A walk that begins is BUSY, from the first set. -/
theorem cgWalk_shows (s : State) (g w : Nat) : (s.cgWalk g w).cg g = { s.cg g with walk := w } ∧
    (s.cgWalk g w).on .DIR_CG_RES_BUSY = true ∧ (s.cgWalk g w).rd .DIR_CG_POS_POS g = 0 ∧
    (s.cgWalk g w).cgState g = s.cgState g := by
  refine ⟨cg_setCg_same _ _ _, ?_, ?_, ?_⟩
  · have hw : Fld.DIR_CG_RES_BUSY.width = 1 := rfl
    simp [State.cgWalk, State.on, hw]
  · simp [State.cgWalk]
  · simp only [State.cgWalk, State.cgState]
    rw [rd_wr_fld _ _ _ _ _ _ (by decide), rd_wr_fld _ _ _ _ _ _ (by decide), rd_wr_fld _ _ _ _ _ _ (by decide)]
    rfl

theorem removeBegun_shows (s : State) (g m : Nat) : ((removeBegun s g m).cg g).removing = some m ∧
    ((removeBegun s g m).cg g).walk = 1 ∧ (removeBegun s g m).on .DIR_CG_RES_BUSY = true ∧
    (removeBegun s g m).rd .DIR_CG_POS_POS g = 0 := by
  obtain ⟨hcg, hbusy, hpos, -⟩ := cgWalk_shows ((cgTaken s).setCg g { s.cg g with removing := some m }) g 1
  rw [removeBegun, hcg, cg_setCg_same]
  exact ⟨rfl, rfl, hbusy, hpos⟩

theorem reformBegun_shows (s : State) (g : Nat) : ((reformBegun s g).cg g).walk = 4 ∧
    ((reformBegun s g).cg g).slots = s.cgListed g ∧ (reformBegun s g).on .DIR_CG_RES_BUSY = true := by
  obtain ⟨hcg, hbusy, -, -⟩ := cgWalk_shows ((cgTaken s).setCg g { s.cg g with slots := s.cgListed g }) g 4
  rw [reformBegun, hcg, cg_setCg_same]
  exact ⟨rfl, rfl, hbusy⟩

theorem groupFormed_shows (s : State) (g : Nat) : (groupFormed s g).cgState g = 1 ∧
    (groupFormed s g).rd .DIR_CG_GEN_GEN g = (s.rd .DIR_CG_GEN_GEN g + 1) % 2 ^ 32 := by
  obtain ⟨hstate, hgen⟩ : Fld.DIR_CG_STAT_STATE.width = 2 ∧ Fld.DIR_CG_GEN_GEN.width = 32 := by decide
  simp [groupFormed, State.advance, State.setCgState, State.cgState, State.setCg, rd_lit, rd_cgTaken, hstate, hgen]

theorem cg_memberAdded (s : State) (g m id h : Nat) :
    (memberAdded s g m id).cg h = (s.setCg g { s.cg g with slots := (s.cg g).slots ++ [(m, id)] }).cg h := rfl

theorem memberAdded_shows (s : State) (g m : Nat) {id : Nat} (hid : id < 4096) :
    (memberAdded s g m id).rd .DIR_CG_MEMBER_VALID g m = 1 ∧ (memberAdded s g m id).rd .DIR_CG_MEMBER_ID g m = id := by
  obtain ⟨hvalid, hwid⟩ : Fld.DIR_CG_MEMBER_VALID.width = 1 ∧ Fld.DIR_CG_MEMBER_ID.width = 12 := by decide
  simp [memberAdded, hvalid, hwid, Nat.mod_eq_of_lt hid]

/-- Settles O27, command by command: one that ends at once by its end, a walk by the state in which it begins. -/
theorem groupCommands : Obligations.GroupCommands := by
  unfold Obligations.GroupCommands
  refine ⟨?_, ?_, ?_, ?_, ?_, ?_, ?_, ?_⟩
  · intro c s hh hc hb hp
    exact ⟨_, runs_groupCommand_outside hb hh hc hp, rd_cgEnd_status _ (by decide), rd_cgEnd_busy _ _, cgEnd_coh _ _,
      cgEnd_pool _ _⟩
  · intro g s hh hb hp hd hg _ hst hone
    obtain ⟨hup, hgen⟩ := groupFormed_shows s g
    refine ⟨_, runs_form hb hh hp hd hg hst hone, ?_, ?_, fun h hne => ?_, ?_, rd_cgEnd_status _ (by decide), ?_, cgEnd_pool _ _⟩
    · exact (rd_cgEnd _ _ (by decide) _ _).trans hup
    · exact (cg_cgEnd _ _ _).trans (cg_setCg_same _ _ _)
    · exact (cg_cgEnd _ _ _).trans (cg_setCg_ne _ _ hne)
    · exact (rd_cgEnd _ _ (by decide) _ _).trans hgen
    · rw [cgEnd_coh]
      rfl
  · intro g s hh hb hp hd hg _ hst hone
    refine ⟨_, runs_form_refused hb hh hp hd hg hst hone, rd_cgEnd_status _ (by decide), ?_, cgEnd_coh _ _⟩
    exact (rd_cgEnd _ _ (by decide) _ _).trans (cgState_cgTaken.trans hst)
  · intro g m id s hh hb hp hd hg _ hm _ hid hlt hst hslot hlist
    obtain ⟨hvalid, hmem⟩ := memberAdded_shows s g m hlt
    refine ⟨_, runs_add hb hh hp hd hg hm hid hst hslot hlist, ?_, fun h hne => ?_, ?_, ?_, rd_cgEnd_status _ (by decide), ?_,
      cgEnd_pool _ _⟩
    · rw [cg_cgEnd, cg_memberAdded, cg_setCg_same]
    · rw [cg_cgEnd, cg_memberAdded, cg_setCg_ne _ _ hne]
    · exact (rd_cgEnd _ _ (by decide) _ _).trans hvalid
    · exact (rd_cgEnd _ _ (by decide) _ _).trans hmem
    · rw [cgEnd_coh]
      rfl
  · intro g m s hh hb hp hc hd hg _ hm hst hslot
    obtain ⟨hremoving, hwalk, hbusy, hpos⟩ := removeBegun_shows s g m
    exact ⟨_, runs_remove hb hh hp hd hg hc hm hst hslot, hremoving, hwalk, hbusy, hpos, rfl, rfl⟩
  · intro g s hh hb hp hd hg _ hst
    obtain ⟨hcg, hbusy, -, hsame⟩ := cgWalk_shows (cgTaken s) g 3
    exact ⟨_, runs_disband_faulted hb hh hp hd hg hst, congrArg Cg.walk hcg, hbusy, hsame.trans (cgState_cgTaken.trans hst), rfl, rfl⟩
  · intro g s hh hb hp hd hg _ hst
    exact ⟨_, runs_reform_up hb hh hp hd hg hst, rd_cgEnd_status _ (by decide), rd_cgEnd_busy _ _, cgEnd_coh _ _, cgEnd_pool _ _⟩
  · intro g s hh hb hp hd hg _ hst hw hone
    obtain ⟨hwalk, hslots, hbusy⟩ := reformBegun_shows s g
    exact ⟨_, runs_reform_faulted hb hh hp hd hg hst hw hone, hwalk, hslots, hbusy, rfl, rfl⟩

end Sys2Proof.Proofs
end

section
/-! SUPPORT. Proof of the statement on the walks of coherence groups (spec/09_coherence.md): the ends of the group commands' walks, the
fault walk, snoops that are not answered in time, and the sharer walk. -/

namespace Sys2Proof.Proofs
open Sys2Proof Sys2Proof.Machine

/-! ### The directory as a table (R217) -/

section Directory

variable (s : State) {l l' : Nat} (e : DirEnt)

theorem dirEnt_setDir_same : (s.setDir l e).dirEnt l = some e := tfind_tins_same ..

theorem dirEnt_setDir_ne (h : l' ≠ l) : (s.setDir l e).dirEnt l' = s.dirEnt l' := tfind_tins_ne _ _ h.symm

theorem dirEnt_dropDir_same : (s.dropDir l).dirEnt l = none := tfind_tdel_same ..

theorem dirEnt_dropDir_ne (h : l' ≠ l) : (s.dropDir l).dirEnt l' = s.dirEnt l' := tfind_tdel_ne _ h.symm

theorem dirEnt_congr {s t : State} (h : t.coh.dir = s.coh.dir) (l : Nat) : t.dirEnt l = s.dirEnt l := by
  rw [State.dirEnt, h]
  rfl

theorem dirEnt_stable_ne (st : DSt) (own : Option Nat) (shr : List Nat) (h : l' ≠ l) :
    (s.stable l e st own shr).dirEnt l' = s.dirEnt l' := by
  unfold State.stable
  split
  · exact dirEnt_dropDir_ne s h
  · split
    · exact dirEnt_dropDir_ne s h
    · exact dirEnt_setDir_ne s _ h

/-- An entry that becomes stable changes the directory alone. -/
theorem stable_keeps {β : Type} (p : State → β) (hset : ∀ s l e, p (State.setDir s l e) = p s)
    (hdrop : ∀ s l, p (State.dropDir s l) = p s) (l : Nat) (st : DSt) (own : Option Nat) (shr : List Nat) :
    p (s.stable l e st own shr) = p s := by
  unfold State.stable
  split
  · exact hdrop ..
  · split
    · exact hdrop ..
    · exact hset ..

end Directory

/-- What a table lists under a key is one of its entries. -/
theorem mem_of_tfind {α : Type} {t : List (Nat × α)} {k : Nat} {v : α} (h : tfind t k = some v) : (k, v) ∈ t := by
  induction t with
  | nil => cases h
  | cons e t ih =>
    rw [tfind] at h
    split at h
    next hk =>
      cases h
      exact hk ▸ List.mem_cons_self
    next => exact List.mem_cons_of_mem _ (ih h)

/-- Where no symbol of the directory is in error, the walk that reads every set changes nothing. -/
theorem dirCheckAll_sound {s : State} (h : s.coh.dirErr = []) (ok : Nat → Bool) : s.dirCheckAll ok = s := by
  simp [State.dirCheckAll, h]

/-- Where no stable entry of the group passes the test, nothing is recalled. -/
theorem recallAll_none {s : State} {g : Nat} {ok : DirEnt → Bool} (hd : s.coh.dirErr = [])
    (h : ∀ e ∈ s.coh.dir, e.2.cg = g → e.2.st = .P ∨ ok e.2 = false) : s.recallAll g ok = s := by
  have hnil : s.coh.dir.filter (fun e => e.2.cg == g && e.2.st != .P && !e.2.st.transient && ok e.2) = [] := by
    rw [List.filter_eq_nil_iff]
    intro e he hp
    simp only [Bool.and_eq_true, beq_iff_eq, bne_iff_ne] at hp
    obtain ⟨⟨⟨hcg, hP⟩, -⟩, hok⟩ := hp
    rcases h e he hcg with hn | hn
    · exact hP hn
    · simp [hn] at hok
  simp only [State.recallAll, dirCheckAll_sound hd, hnil, List.foldl_nil, ite_self]

/-! ### The end of a command's walk (R214, R236) -/

section WalkEnd

variable {s : State} {g : Nat}

@[simp] theorem cgWalked_coh : (s.cgWalked g).coh = s.coh := rfl

@[simp] theorem cgWalked_pool : (s.cgWalked g).pool = s.pool := rfl

theorem rd_cgWalked_pct : (s.cgWalked g).rd .DIR_CG_STAT_PCT g = 10000 := by
  have hw : Fld.DIR_CG_STAT_PCT.width = 14 := rfl
  rw [State.cgWalked, rd_wr_same, hw]
  rfl

theorem rd_cgWalked {f : Fld} (hp : Fld.DIR_CG_POS_POS ≠ f) (ht : Fld.DIR_CG_STAT_PCT ≠ f) (i j : Nat) :
    (s.cgWalked g).rd f i j = s.rd f i j := by
  rw [State.cgWalked, rd_wr_fld _ _ _ _ _ _ ht, rd_wr_fld _ _ _ _ _ _ hp]

/-- The walk of the command in progress has passed every set. -/
theorem runs_groupWalkEnd {w : Nat} {t : State} (hb : s.on .DIR_CG_RES_BUSY = true) (hg : s.rd .DIR_CG_RES_GROUP = g)
    (hd : s.coh.dirErr = []) (hw : (s.cg g).walk = w)
    (ht : (w, t) ∈ [(1, s.removeWalk g), (3, s.disbandWalk g), (4, s.reformWalk g)]) : Runs .groupWalkEnd s t := by
  have he : exec .groupWalkEnd s = execGroupWalkEnd s := rfl
  refine runs_of ?_
  simp only [List.mem_cons, Prod.mk.injEq, List.not_mem_nil, or_false] at ht
  rcases ht with ⟨rfl, rfl⟩ | ⟨rfl, rfl⟩ | ⟨rfl, rfl⟩ <;>
    · simp only [he, execGroupWalkEnd, hb, Bool.not_true, Bool.false_eq_true, if_false, dirCheckAll_sound hd, hg, hw]
      rfl

/-- Slot `m` of the group is empty. -/
def slotEmptied (s : State) (g m : Nat) : State :=
  let t := s.setCg g { s.cg g with removing := none, walk := 0, slots := (s.cg g).slots.filter (fun e => e.1 != m) }
  (t.wr .DIR_CG_MEMBER_VALID 0 g m).cgWalked g

theorem removeWalk_empties {m : Nat} (hr : (s.cg g).removing = some m) (hd : s.coh.dirErr = [])
    (h : ∀ e ∈ s.coh.dir, e.2.cg = g → e.2.names m = false ∧
      ∀ r, e.2.st.transient = true → e.2.req = some r → s.slotListed g r.src ≠ some m) :
    s.removeWalk g = (slotEmptied s g m).cgEnd stOK := by
  have hrec : s.recallAll g (fun e => e.names m) = s := recallAll_none hd fun e he hcg => .inr (h e he hcg).1
  unfold State.removeWalk
  simp only [hr, hrec, ite_self]
  refine if_neg ?_
  rw [Bool.not_eq_true, List.any_eq_false]
  intro e he hp
  simp only [Bool.and_eq_true, beq_iff_eq, Bool.or_eq_true] at hp
  obtain ⟨hcg, hp⟩ := hp
  obtain ⟨hn, hreq⟩ := h e he hcg
  rcases hp with hp | ⟨htr, hp⟩
  · simp [hn] at hp
  · cases hq : e.2.req with
    | none => simp [hq] at hp
    | some r => exact hreq r htr hq (by simpa [hq] using hp)

theorem slotEmptied_shows (s : State) (g m : Nat) : (slotEmptied s g m).rd .DIR_CG_MEMBER_VALID g m = 0 ∧
    (slotEmptied s g m).rd .DIR_CG_STAT_PCT g = 10000 := by
  refine ⟨?_, rd_cgWalked_pct⟩
  rw [slotEmptied, rd_cgWalked (by decide) (by decide), rd_wr_same, Nat.zero_mod]

theorem cg_slotEmptied (s : State) (g m : Nat) : (slotEmptied s g m).cg g =
    { s.cg g with removing := none, walk := 0, slots := (s.cg g).slots.filter (fun e => e.1 != m) } := cg_setCg_same ..

/-- A walk is over that gives the group another state: its next GEN is shown and its event raised. -/
def walkOver (s : State) (e : Ev) (g : Nat) : State := (((s.advance .DIR_CG_GEN_GEN g).event e g).cgWalked g).cgEnd stOK

section WalkOver

variable (s : State) (e : Ev) (g : Nat)

@[simp] theorem walkOver_coh : (walkOver s e g).coh = s.coh := by simp [walkOver]

@[simp] theorem walkOver_pool : (walkOver s e g).pool = s.pool := by simp [walkOver]

theorem rd_walkOver_status : (walkOver s e g).rd .DIR_CG_RES_STATUS = stOK := rd_cgEnd_status _ (by decide)

theorem rd_walkOver_gen : (walkOver s e g).rd .DIR_CG_GEN_GEN g = (s.rd .DIR_CG_GEN_GEN g + 1) % 2 ^ 32 := by
  have hw : Fld.DIR_CG_GEN_GEN.width = 32 := rfl
  rw [walkOver, rd_cgEnd _ _ (by decide), rd_cgWalked (by decide) (by decide), rd_event _ _ _ _ _ _ _ (by decide) (by decide) (by decide),
    State.advance, rd_wr_same, hw]

theorem cgState_walkOver : (walkOver s e g).cgState g = s.cgState g := by
  rw [State.cgState, walkOver, rd_cgEnd _ _ (by decide), rd_cgWalked (by decide) (by decide),
    rd_event _ _ _ _ _ _ _ (by decide) (by decide) (by decide), State.advance, rd_wr_fld _ _ _ _ _ _ (by decide)]
  rfl

end WalkOver

theorem cgState_setCgState {st : Nat} (h : st < 4) : (s.setCgState g st).cgState g = st := by
  have hw : Fld.DIR_CG_STAT_STATE.width = 2 := rfl
  rw [State.cgState, State.setCgState, rd_wr_same, hw]
  exact Nat.mod_eq_of_lt h

/-- The group is OFF, with no P entry. -/
def groupOff (s : State) (g : Nat) : State := ((s.dropP g).setCg g Cg.init).setCgState g 0

theorem disbandWalk_off (hf : (s.cg g).faultWalk = false) (hd : s.coh.dirErr = [])
    (h : ∀ e ∈ s.coh.dir, e.2.cg = g → e.2.st = .P) : s.disbandWalk g = walkOver (groupOff s g) .cgOff g := by
  have hrec : s.recallAll g (fun _ => true) = s := recallAll_none hd fun e he hcg => .inl (h e he hcg)
  unfold State.disbandWalk
  simp only [hf, hrec, ite_self, Bool.false_eq_true, if_false]
  refine if_neg ?_
  rw [Bool.not_eq_true, List.any_eq_false]
  intro e he hcg
  obtain ⟨he, hp⟩ := List.mem_filter.1 he
  rw [beq_iff_eq] at hcg
  simp [hcg, h e he hcg] at hp

/-- The group is UP, with no P entry. -/
def groupUp (s : State) (g : Nat) : State :=
  ((s.dropP g).setCg g { s.cg g with walk := 0, removing := none }).setCgState g 1

theorem reformWalk_up : s.reformWalk g = walkOver (groupUp s g) .cgUp g := rfl

end WalkEnd

/-! ### The fault walk (R233) -/

section FaultWalk

theorem touch_leaves (s : State) (pg : Nat) : (s.touch pg).coh = s.coh ∧ (s.touch pg).pool = s.pool := by
  unfold State.touch
  dsimp only
  split <;> exact ⟨rfl, rfl⟩

theorem markLine_leaves (s : State) (l : Nat) :
    (s.markLine l).coh = s.coh ∧ (s.markLine l).pool.mem = s.pool.mem ∧ (s.markLine l).pool.extents = s.pool.extents := by
  obtain ⟨hcoh, hpool⟩ := touch_leaves (s.setPsn l true) (l / 1024)
  have hw : (s.markLine l).coh = ((s.setPsn l true).touch (l / 1024)).coh ∧
      (s.markLine l).pool = ((s.setPsn l true).touch (l / 1024)).pool := by
    unfold State.markLine
    dsimp only
    split <;> exact ⟨rfl, rfl⟩
  rw [hw.1, hw.2, hcoh, hpool]
  exact ⟨rfl, rfl, rfl⟩

/-- What a step of the fault walk does with an entry: nothing to one in P, an end to one of an ending extent, and P to any other. -/
theorem faultEntry_coh (s : State) (l : Nat) (e : DirEnt) : (s.faultEntry l e).coh =
    if e.st == .P then s.coh else if !s.activeAt (64 * l) then (s.dropDir l).coh
    else (s.setDir l { DirEnt.fresh e.way e.cg with st := .P }).coh := by
  unfold State.faultEntry
  split
  · rfl
  · split
    · rfl
    · dsimp only
      split
      · rw [bump_coh, (markLine_leaves _ _).1]
      · rfl

theorem faultEntry_pool (s : State) (l : Nat) (e : DirEnt) :
    (s.faultEntry l e).pool.mem = s.pool.mem ∧ (s.faultEntry l e).pool.extents = s.pool.extents := by
  unfold State.faultEntry
  split
  · exact ⟨rfl, rfl⟩
  · split
    · exact ⟨rfl, rfl⟩
    · dsimp only
      split
      · exact (markLine_leaves _ _).2
      · exact ⟨rfl, rfl⟩

theorem activeAt_congr {s t : State} (h : t.pool.extents = s.pool.extents) (a : Nat) : t.activeAt a = s.activeAt a := by
  unfold State.activeAt State.extentAt
  rw [h]

/-- The line's entry is in P. -/
def InP (s : State) (l : Nat) : Prop := (s.dirEnt l).map (·.st) = some .P

section Entry

variable {s : State} {l : Nat} (ha : s.activeAt (64 * l) = true)

include ha

theorem inP_faultEntry {e : DirEnt} (he : e.st ≠ .P) : InP (s.faultEntry l e) l := by
  have hcoh : (s.faultEntry l e).coh = (s.setDir l { DirEnt.fresh e.way e.cg with st := .P }).coh := by
    rw [faultEntry_coh, if_neg (by simpa using he), if_neg (by simp [ha])]
  rw [InP, dirEnt_congr (congrArg Coh.dir hcoh), dirEnt_setDir_same]
  rfl

theorem InP.faultEntry (h : InP s l) (l' : Nat) (e : DirEnt) : InP (s.faultEntry l' e) l := by
  by_cases hl : l' = l
  · subst hl
    by_cases he : e.st = .P
    · have hcoh : (s.faultEntry l' e).coh = s.coh := by rw [faultEntry_coh, if_pos (by simpa using he)]
      rwa [InP, dirEnt_congr (congrArg Coh.dir hcoh)]
    · exact inP_faultEntry ha he
  · have hne : l ≠ l' := fun h => hl h.symm
    have hdir : (s.faultEntry l' e).dirEnt l = s.dirEnt l := by
      rw [State.dirEnt, faultEntry_coh]
      split
      · rfl
      · split
        · exact dirEnt_dropDir_ne s hne
        · exact dirEnt_setDir_ne s _ hne
    rwa [InP, hdir]

/-- Once the walk has passed every entry of a list, each line of an ACTIVE extent in it is in P. -/
theorem inP_faultWalk {es : List (Nat × DirEnt)} (h : InP s l ∨ ∃ e, (l, e) ∈ es ∧ e.st ≠ .P) :
    InP (es.foldl (fun s e => s.faultEntry e.1 e.2) s) l := by
  induction es generalizing s with
  | nil =>
    rcases h with h | ⟨e, he, -⟩
    · exact h
    · cases he
  | cons a es ih =>
    have ha' : (s.faultEntry a.1 a.2).activeAt (64 * l) = true :=
      (activeAt_congr (faultEntry_pool s a.1 a.2).2 _).trans ha
    refine ih ha' ?_
    rcases h with h | ⟨e, he, hP⟩
    · exact .inl (h.faultEntry ha _ _)
    · rcases List.mem_cons.1 he with rfl | he
      · exact .inl (inP_faultEntry ha hP)
      · exact .inr ⟨e, he, hP⟩

end Entry

/-- The state in which the walk has passed every entry of the group. -/
def faultMarked (s : State) (g : Nat) : State :=
  (s.coh.dir.filter (fun e => e.2.cg == g)).foldl (fun s e => s.faultEntry e.1 e.2) (s.wr .DIR_CG_POISONED_COUNT 0 g)

/-- The fault walk of the group is over. -/
def faultWalked (s : State) (g : Nat) : State :=
  ((((faultMarked s g).setCg g { s.cg g with faultWalk := false }).wr .DIR_CG_STAT_WALKED 1 g).cgWalked g).event .cgWalked g

theorem faultMarked_pool (s : State) (g : Nat) :
    (faultMarked s g).pool.mem = s.pool.mem ∧ (faultMarked s g).pool.extents = s.pool.extents := by
  constructor
  · exact foldl_keeps (fun s : State => s.pool.mem) (fun s (e : Nat × DirEnt) => (faultEntry_pool s e.1 e.2).1) _ _
  · exact foldl_keeps (fun s : State => s.pool.extents) (fun s (e : Nat × DirEnt) => (faultEntry_pool s e.1 e.2).2) _ _

theorem cgs_faultEntry (s : State) (l : Nat) (e : DirEnt) : (s.faultEntry l e).coh.cgs = s.coh.cgs := by
  rw [faultEntry_coh]
  split
  · rfl
  · split <;> rfl

theorem cg_faultMarked (s : State) (g h : Nat) : (faultMarked s g).cg h = s.cg h := by
  have hcgs : (faultMarked s g).coh.cgs = s.coh.cgs :=
    foldl_keeps (fun s : State => s.coh.cgs) (fun s (e : Nat × DirEnt) => cgs_faultEntry s e.1 e.2) _ _
  rw [State.cg, hcgs]
  rfl

theorem runs_faultWalkEnd {s : State} {g : Nat} (hg : g < 16) (hf : (s.cg g).faultWalk = true) (hw : (s.cg g).walk ≠ 2)
    (hd : s.coh.dirErr = []) : Runs (.faultWalkEnd g) s (faultWalked s g) := by
  have he : exec (.faultWalkEnd g) s = execFaultWalkEnd g s := rfl
  have hcg : (faultMarked s g).cg g = s.cg g := cg_faultMarked s g g
  refine runs_of ?_
  rw [faultMarked] at hcg
  rw [he, execFaultWalkEnd, if_neg (by simp [hf]; omega), dirCheckAll_sound hd]
  simp only [wr_coh, hcg, hw, if_false]
  rfl

theorem faultWalked_shows (s : State) (g : Nat) : (faultWalked s g).rd .DIR_CG_STAT_WALKED g = 1 ∧
    (faultWalked s g).rd .DIR_CG_STAT_PCT g = 10000 := by
  have hw : Fld.DIR_CG_STAT_WALKED.width = 1 := rfl
  constructor
  · rw [faultWalked, rd_event _ _ _ _ _ _ _ (by decide) (by decide) (by decide), rd_cgWalked (by decide) (by decide), rd_wr_same, hw]
    rfl
  · rw [faultWalked, rd_event _ _ _ _ _ _ _ (by decide) (by decide) (by decide), rd_cgWalked_pct]

theorem inP_faultWalked {s : State} {g l : Nat} {e : DirEnt} (he : s.dirEnt l = some e) (hg : e.cg = g)
    (ha : s.activeAt (64 * l) = true) : InP (faultWalked s g) l := by
  have hm : InP (faultMarked s g) l := by
    refine inP_faultWalk (s := s.wr .DIR_CG_POISONED_COUNT 0 g) ha ?_
    by_cases hP : e.st = .P
    · left
      have he' : (s.wr .DIR_CG_POISONED_COUNT 0 g).dirEnt l = some e := he
      rw [InP, he', Option.map_some, hP]
    · exact .inr ⟨e, List.mem_filter.2 ⟨mem_of_tfind he, by simpa using hg⟩, hP⟩
  have hdir : (faultWalked s g).coh.dir = (faultMarked s g).coh.dir := by
    rw [faultWalked, event_coh]
    rfl
  rwa [InP, dirEnt_congr hdir]

theorem cg_faultWalked (s : State) (g : Nat) : (faultWalked s g).cg g = { s.cg g with faultWalk := false } := by
  rw [faultWalked, cg_congr (event_coh ..)]
  exact cg_setCg_same ..

theorem faultWalked_pool (s : State) (g : Nat) : (faultWalked s g).pool = (faultMarked s g).pool := event_pool ..

end FaultWalk

/-! ### Snoops that are not answered in time (R226, R244) -/

section SnoopTimeout

variable {s : State} {line id : Nat}

theorem runs_snoopTimeout_note {n : Note} (h : s.coh.inotes.find? (fun n => n.id == id && n.addr == 64 * line) = some n) :
    Runs (.snoopTimeout line id) s (s.dropSub n .DIR_SNP_TMO_COUNT) := by
  have he : exec (.snoopTimeout line id) s = execSnoopTimeout line id s := rfl
  refine runs_of ?_
  rw [he, execSnoopTimeout, h]
  rfl

/-- Where no note of the line is out, an awaited answer that no home holds is counted and taken as not given. -/
theorem runs_snoopTimeout {e : DirEnt} {m : Nat} (hn : s.coh.inotes = []) (he : s.dirEnt line = some e)
    (hm : s.slotListed e.cg id = some m) (htr : e.st.transient = true) (haw : e.awaiting.contains m = true)
    (hh : s.coh.hacks.any (fun h => h.1 == id && lineOf (mAddr h.2) == line) = false) :
    Runs (.snoopTimeout line id) s ((s.bump .DIR_SNP_TMO_COUNT).flushedSnoop line m) := by
  have hx : exec (.snoopTimeout line id) s = execSnoopTimeout line id s := rfl
  refine runs_of ?_
  simp only [hx, execSnoopTimeout, hn, List.find?_nil, he, hm, htr, haw, hh, Bool.not_false, Bool.and_true, if_true]
  rfl

end SnoopTimeout

/-! ### The directory's symbol code (R217) -/

/-- An entry with two symbols in error is dropped and reported, and every group that is UP fails (log entry 85). -/
theorem dirCheckAll_two {s : State} {l : Nat} (h : s.coh.dirErr = [(l, 2)]) : s.dirCheckAll (fun _ => true) =
    ((({ s with coh := { s.coh with dirErr := [] } }).dropDir l).raise 0x0B (s.homeOfPage (l / 1024))).allGroupsFault := by
  have hdel : tdel s.coh.dirErr l = [] := by simp [h, tdel]
  have hget : tget 0 s.coh.dirErr l = 2 := by simp [h, tget, tfind]
  have hone : s.dirCheckAll (fun _ => true) = s.dirCheckOne l := by simp [State.dirCheckAll, h]
  rw [hone, State.dirCheckOne, hget, hdel]
  rfl

/-! ### The sharer walk (R237) -/

section SharerWalk

/-- The slot of an agent is taken out of an entry's sharers. -/
def sharerOut (id : Nat) (s : State) (e : Nat × DirEnt) : State :=
  match s.slotListed e.2.cg id with
  | none => s
  | some m =>
    if !e.2.shr.contains m then s
    else
      let x := { e.2 with shr := e.2.shr.filter (· != m) }
      if x.st.transient || x.st == .P then s.setDir e.1 x else s.stable e.1 x x.st x.own x.shr

variable {s : State} {id : Nat}

theorem runs_sharerWalkEnd (hw : (s.agent id).walking = true) (hd : s.coh.dirErr = []) :
    Runs (.sharerWalkEnd id) s ((s.coh.dir.foldl (sharerOut id) s).updAgent id (fun a => { a with walking := false })) := by
  have he : exec (.sharerWalkEnd id) s = execSharerWalkEnd id s := rfl
  refine runs_of ?_
  rw [he, execSharerWalkEnd, if_neg (by simp [hw]), dirCheckAll_sound hd]
  rfl

/-- It changes the directory alone. -/
theorem sharerOut_keeps {β : Type} (p : State → β) (hset : ∀ s l e, p (State.setDir s l e) = p s)
    (hdrop : ∀ s l, p (State.dropDir s l) = p s) (s : State) (e : Nat × DirEnt) : p (sharerOut id s e) = p s := by
  unfold sharerOut
  split
  · rfl
  · split
    · rfl
    · dsimp only
      split
      · exact hset ..
      · exact stable_keeps s _ p hset hdrop _ _ _ _

theorem dirEnt_sharerOut_ne {l : Nat} {e : Nat × DirEnt} (h : l ≠ e.1) : (sharerOut id s e).dirEnt l = s.dirEnt l := by
  unfold sharerOut
  split
  · rfl
  · split
    · rfl
    · dsimp only
      split
      · exact dirEnt_setDir_ne s _ h
      · exact dirEnt_stable_ne s _ _ _ _ h

theorem sharerOut_noSharer {e : Nat × DirEnt} {m : Nat} (hm : s.slotListed e.2.cg id = some m) (hs : e.2.shr.contains m = false) :
    sharerOut id s e = s := by
  unfold sharerOut
  rw [hm]
  exact if_pos (by rw [hs]; rfl)

/-- An entry that the agent does not share keeps its place, where its line has one entry. -/
theorem dirEnt_sharerWalk {l m : Nat} {e : DirEnt} (hm : s.slotListed e.cg id = some m) (hs : e.shr.contains m = false)
    {es : List (Nat × DirEnt)} (hone : ∀ a ∈ es, a.1 = l → a.2 = e) : (es.foldl (sharerOut id) s).dirEnt l = s.dirEnt l := by
  induction es generalizing s with
  | nil => rfl
  | cons a es ih =>
    have hm' : (sharerOut id s a).slotListed e.cg id = some m :=
      (sharerOut_keeps (fun s => s.slotListed e.cg id) (fun _ _ _ => rfl) (fun _ _ => rfl) s a).trans hm
    rw [List.foldl_cons, ih hm' fun b hb => hone b (List.mem_cons_of_mem _ hb)]
    by_cases hl : l = a.1
    · have ha : a.2 = e := hone a List.mem_cons_self hl.symm
      rw [sharerOut_noSharer (ha ▸ hm) (ha ▸ hs)]
    · exact dirEnt_sharerOut_ne hl

/-- Where keys are listed once, an entry is what its key reads as. -/
theorem snd_eq_of_mem_nodup {α : Type} {t : List (Nat × α)} {k : Nat} {v : α} (hn : (t.map (·.1)).Nodup)
    (hv : (k, v) ∈ t) : ∀ a ∈ t, a.1 = k → a.2 = v :=
  fun _ ha hk => congrArg Prod.snd (List.inj_on_of_nodup_map hn ha hv hk)

end SharerWalk

/-- Settles O28, walk by walk: a command's walk by what it leaves of the group, the fault walk by the entries it has passed, the sharer
walk by the entries that it passes over. -/
theorem groupWalks : Obligations.GroupWalks := by
  unfold Obligations.GroupWalks
  refine ⟨?_, ?_, ?_, ?_, ?_, ?_, ?_, ?_⟩
  · intro g m s hb hg _ _ hw hr hd hnone
    obtain ⟨hvalid, hpct⟩ := slotEmptied_shows s g m
    have hcg := (cg_cgEnd (slotEmptied s g m) stOK g).trans (cg_slotEmptied s g m)
    refine ⟨_, runs_groupWalkEnd hb hg hd hw (t := (slotEmptied s g m).cgEnd stOK) ?_, congrArg Cg.slots hcg, congrArg Cg.removing hcg,
      congrArg Cg.walk hcg, ?_, ?_, rd_cgEnd_status _ (by decide), rd_cgEnd_busy _ _, ?_, cgEnd_pool _ _⟩
    · simp [removeWalk_empties hr hd hnone]
    · exact (rd_cgEnd _ _ (by decide) _ _).trans hvalid
    · exact (rd_cgEnd _ _ (by decide) _ _).trans hpct
    · rw [cgEnd_coh]
      rfl
  · intro g s hb hg _ hw hf hd hP
    refine ⟨_, runs_groupWalkEnd hb hg hd hw (t := walkOver (groupOff s g) .cgOff g) ?_, ?_, ?_, fun h hne => ?_, ?_, ?_,
      rd_walkOver_status _ _ _, walkOver_pool _ _ _⟩
    · simp [disbandWalk_off hf hd hP]
    · exact (cgState_walkOver _ _ _).trans (cgState_setCgState (by decide))
    · rw [cg_congr (walkOver_coh _ _ _)]
      exact cg_setCg_same _ _ _
    · rw [cg_congr (walkOver_coh _ _ _)]
      exact cg_setCg_ne _ _ hne
    · intro e he
      rw [walkOver_coh] at he
      obtain ⟨hmem, hp⟩ := List.mem_filter.1 he
      refine ⟨fun hcg => ?_, hmem⟩
      simp [hcg, hP e hmem hcg] at hp
    · exact (rd_walkOver_gen _ _ _).trans (by rw [groupOff, State.setCgState, rd_wr_fld _ _ _ _ _ _ (by decide)]; rfl)
  · intro g s hb hg _ hw hd
    refine ⟨_, runs_groupWalkEnd hb hg hd hw (t := walkOver (groupUp s g) .cgUp g) ?_, ?_, ?_, ?_, ?_,
      rd_walkOver_status _ _ _, walkOver_pool _ _ _⟩
    · simp [reformWalk_up]
    · exact (cgState_walkOver _ _ _).trans (cgState_setCgState (by decide))
    · rw [cg_congr (walkOver_coh _ _ _)]
      exact cg_setCg_same _ _ _
    · rw [walkOver_coh]
      rfl
    · exact (rd_walkOver_gen _ _ _).trans (by rw [groupUp, State.setCgState, rd_wr_fld _ _ _ _ _ _ (by decide)]; rfl)
  · intro g s hg hf hw hd
    obtain ⟨hwalked, hpct⟩ := faultWalked_shows s g
    obtain ⟨hmem, hext⟩ := faultMarked_pool s g
    refine ⟨_, runs_faultWalkEnd hg hf hw hd, cg_faultWalked s g, hwalked, hpct, ?_, ?_, fun l e he hcg ha => inP_faultWalked he hcg ha⟩
    · rw [faultWalked_pool, hmem]
    · rw [faultWalked_pool, hext]
  · intro line id m s e hn he hm htr haw hh
    exact ⟨_, runs_snoopTimeout hn he hm htr haw hh, rfl, rfl, rd_bump_same _ _ _ _ _⟩
  · exact fun line id s n h => runs_snoopTimeout_note h
  · intro l n s h hn
    exact dirCheckAll_two (hn ▸ h)
  · intro id s hw hd
    have hk := fun {β : Type} (p : State → β) (hset : ∀ s l e, p (State.setDir s l e) = p s)
      (hdrop : ∀ s l, p (State.dropDir s l) = p s) => foldl_keeps p (sharerOut_keeps (id := id) p hset hdrop) s.coh.dir s
    have hagent := fun j => hk (fun s => s.agent j) (fun _ _ _ => rfl) (fun _ _ => rfl)
    refine ⟨_, runs_sharerWalkEnd hw hd, ?_, fun j hj => ?_, hk State.regs (fun _ _ _ => rfl) (fun _ _ => rfl),
      hk State.pool (fun _ _ _ => rfl) (fun _ _ => rfl), fun l e m he hm hs hn => ?_⟩
    · rw [agent_updAgent_same, hagent]
    · rw [agent_updAgent_ne _ _ hj, hagent]
    · exact (dirEnt_sharerWalk hm hs (snd_eq_of_mem_nodup hn (mem_of_tfind he))).trans he

end Sys2Proof.Proofs
end

section
/-! SUPPORT. Proofs of the statements on coherent lines (spec/09_coherence.md): a member's RD and RDX of a line in U, and an owner's UPG,
WB and WBC, from the home's checks to the entry of the line. -/

namespace Sys2Proof.Proofs
open Sys2Proof Sys2Proof.Machine

/-! ### The home of a coherent line (Table 7.6) -/

section AtHome

variable {s v : State} {p res : Nat} {m : Msg} {r : Req}

theorem offPoint_of_passes {u : State} (h : u.Passes v r) : v.offPoint = u.offPoint := by
  unfold State.Passes at h
  split at h
  · rw [h]
  · have hp := atPoint_offPoint u (u.queuePoint r) (u.candOf r (u.queuePoint r) u.nextId u.cycle)
    rwa [h] at hp

/-- Acceptance and the passage of its point leave directory, regions and homes as they are. -/
theorem atHome_keeps (h : s.AtHome v p m res r) : v.coh = s.coh ∧ v.home = s.home ∧ v.rcv = s.rcv := by
  obtain ⟨-, ⟨u, hu, hv⟩, -⟩ := h
  have hacc : u.coh = s.coh ∧ u.home = s.home ∧ u.rcv = s.rcv := by
    rw [show u = (s.accepted p m res).2 by rw [hu]]
    exact ⟨rfl, rfl, rfl⟩
  have hoff := offPoint_of_passes hv
  obtain ⟨hcoh, hhome, hrcv⟩ := hacc
  exact ⟨(congrArg State.coh hoff :).trans hcoh, (congrArg State.home hoff :).trans hhome, (congrArg State.rcv hoff :).trans hrcv⟩

/-- A request that was admitted reaches its home outside containment. -/
theorem not_contained_of_atHome (h : s.AtHome v p m res r) : v.contained = false := by
  have hrd := (pointWork_of_atHome h).rd .EVT_CONTAIN_ACTIVE 0 0 (by decide)
  obtain ⟨hadm, -⟩ := h
  have hc := not_contained_of_admitted hadm
  unfold State.contained State.on at hc ⊢
  rwa [hrd]

end AtHome

/-- The answer to a request of a port changes nothing of the directory and the regions. -/
theorem finish_port_coh {r : Req} {p : Nat} (h : r.org = .port p) (s : State) (x : Resp) : (s.finish r x).coh = s.coh := by
  have hf : s.finish r x = (s.markDone r).answer (s.homeOf (mAddr r.msg)) r x := by simp only [State.finish, h]
  have hm : (s.markDone r).coh = s.coh := by simp only [State.markDone, h]; rfl
  simp only [hf, State.answer, State.answerFrom, h]
  split
  · unfold State.send
    split <;> exact hm
  · exact hm

section AtCoherent

variable {s v : State} {p : Nat} {m : Msg} {r : Req} {x : Extent}

/-- A request of a coherent extent that may be accessed comes to its directory. -/
theorem request_atCoherent (h : s.AtCoherent v p m r x) : s.request p m 0 = v.dirAccess { r with hot := true } x.cg := by
  obtain ⟨⟨hh, hw, ⟨i, hx⟩, hst, hin⟩, hcoh, hup, hhold, -, hrun⟩ := h
  rw [request_atHome hh, homeArrive_pool hh hw]
  obtain ⟨rfl, -⟩ := atHome_request hh
  have hcheck : extentCheck (some (i, x)) = none := by simp [extentCheck, hst]
  simp only [State.poolAccess, hx, hcheck, hcoh, hhold, if_true, if_neg hup, if_false, Bool.false_eq_true]
  exact viaTier_inOasis hin hrun _

/-- What `AtCoherent` says of the request, of its line and of what came before. -/
theorem atCoherent_shows (h : s.AtCoherent v p m r x) :
    r.msg = m ∧ r.org = .port p ∧ ergPage (lineOf (mAddr m) / 1024) = false ∧ v.contained = false ∧ v.coh = s.coh ∧ v.pool = s.pool := by
  obtain ⟨⟨hh, -, -, -, -, -, -, herg, -⟩, -⟩ := h
  obtain ⟨hmsg, horg⟩ := atHome_request hh
  obtain ⟨hcoh, -, -⟩ := atHome_keeps hh
  have hpage : lineOf (mAddr m) / 1024 = pageOf (mAddr m) := Nat.div_div_eq_div_mul _ _ _
  exact ⟨hmsg, horg, hpage ▸ herg, not_contained_of_atHome hh, hcoh, (pointWork_of_atHome hh).pool⟩

end AtCoherent

/-! ### A member's request at the directory (Tables 9.4 and 9.6) -/

section Member

variable {v : State} {r : Req} {p g q : Nat} {k : CohKind} (hd : v.coh.dirErr = []) (hup : v.cgState g ≠ 2)
  (horg : r.org = .port p) (hq : v.memberSlot g r.src = some q) (hk : cohKind (mOpc r.msg) true = k)

include hd hup horg hq hk

theorem dirAccess_absent (hne : ∀ st, k ≠ .answer st) (he : v.dirEnt (lineOf (mAddr r.msg)) = none) :
    v.dirAccess r g = v.dirU (lineOf (mAddr r.msg)) g r k := by
  have hcheck : v.dirCheck (lineOf (mAddr r.msg)) = v := by simp [State.dirCheck, hd]
  have hacc : (v.accessOf r.org r.src).bind (v.memberSlot g) = some q := by simp [State.accessOf, horg, hq]
  unfold State.dirAccess
  simp only [hcheck, if_neg hup, hacc, Option.isNone_some, Bool.false_and, Bool.false_eq_true, if_false, Option.isSome_some, hk, he]

theorem dirAccess_owned {e : DirEnt} (hne : ∀ st, k ≠ .answer st) (he : v.dirEnt (lineOf (mAddr r.msg)) = some e) (hx : e.st = .X) :
    v.dirAccess r g = v.dirX (lineOf (mAddr r.msg)) e r q k := by
  have hcheck : v.dirCheck (lineOf (mAddr r.msg)) = v := by simp [State.dirCheck, hd]
  have hacc : (v.accessOf r.org r.src).bind (v.memberSlot g) = some q := by simp [State.accessOf, horg, hq]
  unfold State.dirAccess
  simp only [hcheck, if_neg hup, hacc, Option.isNone_some, Bool.false_and, Bool.false_eq_true, if_false, Option.isSome_some, hk, he, hx]
  rfl

end Member

/-! ### A grant (R223, R227) -/

section Grant

variable {v : State} {r : Req} {l : Nat} {e : DirEnt} {q : Nat}

/-- The line's data with a grant. -/
def grantResp (v : State) (m : Msg) (excl : Bool) : Resp :=
  { status := stOK, susp := v.lineSusp (lineOf (mAddr m)), grant := if excl then 2 else 1
    data := some (cutLine m (v.lineBytes (lineOf (mAddr m)))) }

/-- A member is granted a line at hand that is sound: its data goes out, and the entry names the member. -/
theorem grant_member (hl : lineOf (mAddr r.msg) = l) (herg : ergPage (l / 1024) = false) (hbad : v.badSyms l = 0)
    (hpsn : v.linePsn l = false) (hc : v.contained = false) (hcan : e.cancelled = false) (hq : v.memberSlot e.cg r.src = some q)
    (excl : Bool) : v.grant l e r excl =
      if excl then (v.finish r (grantResp v r.msg excl)).stable l e .X (some q) []
      else (v.finish r (grantResp v r.msg excl)).stable l e .S none (addSlot e.shr q) := by
  have htray : v.onTray l = false := by simp [State.onTray, herg]
  have hmay : v.mayGrant e = true := by simp [State.mayGrant, hcan, hc]
  have hresp : ∀ n, v.dataResp r.msg (v.lineBytes l) false n =
      { status := stOK, susp := v.lineSusp (lineOf (mAddr r.msg)), grant := n, data := some (cutLine r.msg (v.lineBytes l)) } :=
    fun _ => rfl
  unfold State.grant
  simp only [htray, Bool.false_and, Bool.false_eq_true, if_false, State.grantNow, readLine_sound hbad, hpsn, hmay, hq, Bool.not_false,
    Bool.and_true, Option.isSome_some, if_true, hresp, Option.getD_some, grantResp, hl]

theorem dirEnt_stable_same (s : State) (l : Nat) (e : DirEnt) {st : DSt} (own : Option Nat) {shr : List Nat}
    (hs : st = .S → shr ≠ []) (hu : st ≠ .U) : (s.stable l e st own shr).dirEnt l = some { e with
      st := st, own := own, shr := shr, req := none, awaiting := [], fwdDone := false, cancelled := false, wbDone := false,
      wasO := false, nofwd := false } := by
  rw [State.stable, if_neg (by simpa using hs), if_neg (by simpa using hu)]
  exact dirEnt_setDir_same _ _

end Grant

/-! ### The write of an owner (Table 9.6) -/

/-- A whole line of the Oasis range is written whatever its symbols hold. -/
theorem storeLine_whole {s : State} {l : Nat} {bs : List Byte} (herg : ergPage (l / 1024) = false) (hlen : bs.length = 64)
    (psn : Bool) (w : Via) : s.storeLine l 0 bs psn w = (stOK, written (s.closeRead l) l 0 bs psn) := by
  have htouch : ∀ t : State, t.touch (l / 1024) = t := fun t => by simp [State.touch, herg]
  have htray : ∀ t : State, t.onTray l = false := fun t => by simp [State.onTray, herg]
  simp only [State.storeLine, State.writeLine, hlen, if_true, htouch, htray, Bool.false_eq_true, if_false, written]

/-- What a byte of the memory reads as after a write of a whole line. -/
theorem memByte_putLine_whole (s : State) (l : Nat) {bs : List Byte} (hlen : bs.length = 64) (a : Nat) :
    memByte (s.putLine l 0 bs).pool.mem a = if lineOf a = l then bs.getD (a % 64) 0 else memByte s.pool.mem a := by
  have ha := lineOf_add a
  have hlt := Nat.mod_lt a (show 0 < 64 by decide)
  have hput : (s.putLine l 0 bs).pool.mem = memWrite s.pool.mem (64 * l + 0) bs := rfl
  rw [hput, memByte_memWrite, hlen]
  by_cases hl : lineOf a = l
  · rw [if_pos hl, if_pos (by omega), show a - (64 * l + 0) = a % 64 by omega]
  · rw [if_neg hl, if_neg (by omega)]

theorem coh_written (s : State) (l off : Nat) (bs : List Byte) (psn : Bool) : (written s l off bs psn).coh = s.coh := by
  rw [written]
  split
  · rfl
  · split <;> rfl

/-! ### The requests -/

section Requests

variable {s v : State} {p : Nat} {m : Msg} {r : Req} {x : Extent} {q : Nat}

/-- An RD or RDX of a line in U, with a way free in its set, is granted. -/
theorem request_grants {excl : Bool} {way : Nat} (h : s.AtCoherent v p m r x) (hop : mOpc m = if excl then opRDX else opRD)
    (hq : v.memberSlot x.cg r.src = some q) (hent : v.dirEnt (lineOf (mAddr m)) = none)
    (hway : v.freeWay (lineOf (mAddr m)) = some way) (hpsn : v.linePsn (lineOf (mAddr m)) = false)
    (hbad : v.badSyms (lineOf (mAddr m)) = 0) :
    s.request p m 0 =
      (v.finish { r with hot := true } (grantResp v m excl)).stable (lineOf (mAddr m)) (DirEnt.fresh way x.cg)
        (if excl then .X else .S) (if excl then some q else none) (if excl then [] else [q]) := by
  have hact := request_atCoherent h
  obtain ⟨rfl, horg, herg, hc, -⟩ := atCoherent_shows h
  obtain ⟨-, -, hup, -, hd, -⟩ := h
  have hkind : cohKind (mOpc r.msg) true = if excl then .rdx else .rd := by rw [hop]; cases excl <;> rfl
  have hx : (mOpc r.msg == opRDX) = excl := by rw [hop]; cases excl <;> rfl
  have hU : v.dirU (lineOf (mAddr r.msg)) x.cg { r with hot := true } (if excl then .rdx else .rd) =
      v.grant (lineOf (mAddr r.msg)) (DirEnt.fresh way x.cg) { r with hot := true } excl := by
    cases excl <;> simp only [State.dirU, hway, hx, if_true, if_false, Bool.false_eq_true]
  rw [hact, dirAccess_absent (r := { r with hot := true }) hd hup horg hq hkind (by cases excl <;> nofun) hent, hU,
    grant_member (r := { r with hot := true }) (e := DirEnt.fresh way x.cg) rfl herg hbad hpsn hc rfl hq excl]
  cases excl <;> rfl

variable {e : DirEnt} (h : s.AtCoherent v p m r x) (hq : v.memberSlot x.cg r.src = some q)
  (hent : v.dirEnt (lineOf (mAddr r.msg)) = some e) (hX : e.st = .X) (hown : e.own = some q)

include h hq hent hX

/-- A member's request of a line in X. -/
theorem request_inX {k : CohKind} (hk : cohKind (mOpc m) true = k) (hne : ∀ st, k ≠ .answer st) :
    s.request p m 0 = v.dirX (lineOf (mAddr r.msg)) e { r with hot := true } q k := by
  have hact := request_atCoherent h
  obtain ⟨rfl, horg, -⟩ := atCoherent_shows h
  obtain ⟨-, -, hup, -, hd, -⟩ := h
  rw [hact, dirAccess_owned (r := { r with hot := true }) hd hup horg hq hk hne hent hX]

include hown

theorem request_upg_owner (hop : mOpc m = opUPG) :
    s.request p m 0 = v.finish { r with hot := true } { status := stOK, grant := 2 } := by
  rw [request_inX h hq hent hX (k := .upg) (by rw [hop]; rfl) nofun, State.dirX, if_pos hown]

theorem request_wbc_owner (hop : mOpc m = opWBC) :
    s.request p m 0 = (v.finishCmp { r with hot := true } stOK).dropDir (lineOf (mAddr r.msg)) := by
  rw [request_inX h hq hent hX (k := .wbc) (by rw [hop]; rfl) nofun, State.dirX, if_pos hown]

omit h hq hent hX hown in
/-- The whole line has been written by its owner. -/
def lineReturned (v : State) (m : Msg) : State :=
  written (v.closeRead (lineOf (mAddr m))) (lineOf (mAddr m)) 0 (slice m.payload 0 64) (mPsn m)

theorem request_wb_owner (hop : mOpc m = opWB) :
    s.request p m 0 = ((lineReturned v r.msg).finishCmp { r with hot := true } stOK).dropDir (lineOf (mAddr r.msg)) := by
  rw [request_inX h hq hent hX (k := .wb) (by rw [hop]; rfl) nofun, State.dirX, if_pos hown]
  obtain ⟨rfl, -, herg, -⟩ := atCoherent_shows h
  simp only [State.ownerWrite, storeLine_whole herg (length_slice _ _ _)]
  rfl

omit h hq hent hX hown in
theorem memByte_lineReturned (v : State) (m : Msg) (a : Nat) : memByte (lineReturned v m).pool.mem a =
    if lineOf a = lineOf (mAddr m) then (slice m.payload 0 64).getD (a % 64) 0 else memByte v.pool.mem a := by
  have hlen : (slice m.payload 0 64).length = 64 := length_slice _ _ _
  rw [← memByte_putLine_whole v _ hlen, lineReturned, written, if_pos hlen]
  rfl

omit h hq hent hX hown in
theorem linePsn_lineReturned (v : State) (m : Msg) : (lineReturned v m).linePsn (lineOf (mAddr m)) = mPsn m := by
  rw [lineReturned, linePsn_written, length_slice]
  cases mPsn m <;> rfl

end Requests

/-- Settles O8: the grant is answered to the port, which touches no entry and nothing of the pool, and enters the requester in the
line's entry. -/
theorem coherentGrant : Obligations.CoherentGrant := by
  unfold Obligations.CoherentGrant
  intro c s v p m r x q way excl hcmd hq hent hway hpsn hbad
  obtain ⟨k, hreq, hcoh, hop⟩ : ∃ k, requestOf s c = some (p, k, 0) ∧ s.AtCoherent v p k r x ∧
      mOpc k = if excl then opRDX else opRD := by
    rcases hcmd with ⟨rfl, rfl, h⟩ | ⟨rfl, rfl, h⟩
    · exact ⟨_, rfl, h, mOpc_withOpc _ _ (by decide)⟩
    · exact ⟨_, rfl, h, mOpc_withOpc _ _ (by decide)⟩
  obtain ⟨rfl, horg, -, -, hsame, hpool⟩ := atCoherent_shows hcoh
  have hfin := finish_port_coh (r := { r with hot := true }) horg v (grantResp v r.msg excl)
  have hst : (if excl then DSt.X else DSt.S) = .S → (if excl then [] else [q]) ≠ [] := by cases excl <;> simp
  have hU : (if excl then DSt.X else DSt.S) ≠ .U := by cases excl <;> simp
  refine ⟨_, _, runs_request hreq (request_grants hcoh hop hq hent hway hpsn hbad), dirEnt_stable_same _ _ _ _ hst hU, rfl, rfl,
    ?_, ?_, fun l hl => ?_, ?_, ?_⟩
  · rintro rfl
    exact ⟨rfl, rfl, rfl⟩
  · rintro rfl
    exact ⟨rfl, rfl, rfl⟩
  · rw [dirEnt_stable_ne _ _ _ _ _ hl, State.dirEnt, hfin, hsame]
    rfl
  · rw [stable_keeps _ _ State.pool (fun _ _ _ => rfl) (fun _ _ => rfl), finish_port_pool (r := { r with hot := true }) horg, hpool]
  · rw [stable_keeps _ _ State.sw (fun _ _ _ => rfl) (fun _ _ => rfl), grantResp, State.lineSusp, State.lineBytes, hpool]
    rfl

/-- Settles O9: the three requests are answered to the owner's port; only WB writes the line, and WB and WBC end the entry. -/
theorem ownerReturns : Obligations.OwnerReturns := by
  unfold Obligations.OwnerReturns
  refine ⟨?_, ?_, ?_⟩
  · intro s v p m r x e q h hq hent hX hown
    obtain ⟨-, horg, -, -, hcoh, hpool⟩ := atCoherent_shows h
    exact ⟨_, runs_request rfl (request_upg_owner h hq hent hX hown (mOpc_withOpc _ _ (by decide))), rfl,
      (finish_port_coh (r := { r with hot := true }) horg _ _).trans hcoh,
      (finish_port_pool (r := { r with hot := true }) horg _ _).trans hpool⟩
  · intro s v p m r x e q h hq hent hX hown
    obtain ⟨-, horg, -, -, hcoh, hpool⟩ := atCoherent_shows h
    have hp : (((lineReturned v r.msg).finishCmp { r with hot := true } stOK).dropDir (lineOf (mAddr r.msg))).pool =
        (lineReturned v r.msg).pool := finish_port_pool (r := { r with hot := true }) horg _ _
    have hc : ((lineReturned v r.msg).finishCmp { r with hot := true } stOK).coh.dir = s.coh.dir := by
      rw [State.finishCmp, finish_port_coh (r := { r with hot := true }) horg, lineReturned, coh_written, ← hcoh]
      rfl
    refine ⟨_, runs_request rfl (request_wb_owner h hq hent hX hown (mOpc_withOpc _ _ (by decide))), dirEnt_dropDir_same _, ?_,
      fun a => ?_, fun l hl => ⟨?_, ?_⟩⟩
    · rw [State.linePsn, hp]
      exact linePsn_lineReturned v r.msg
    · rw [hp, memByte_lineReturned, hpool]
    · rw [dirEnt_dropDir_ne _ hl, dirEnt_congr hc]
    · rw [State.linePsn, hp]
      exact (linePsn_written_ne _ _ _ hl).trans (by rw [State.linePsn, State.linePsn, ← hpool]; rfl)
  · intro s v p m r x e q h hq hent hX hown
    obtain ⟨-, horg, -, -, -, hpool⟩ := atCoherent_shows h
    exact ⟨_, runs_request rfl (request_wbc_owner h hq hent hX hown (mOpc_withOpc _ _ (by decide))), rfl, dirEnt_dropDir_same _,
      (finish_port_pool (r := { r with hot := true }) horg _ _).trans hpool⟩

end Sys2Proof.Proofs
end

section
/-! SUPPORT. Proof of the statement on published regions and answers (spec/09_coherence.md, spec/02_fabric_transactions.md): the requests
of a region at its home, and HACK, DATA and CMP from the point that they pass. -/

namespace Sys2Proof.Proofs
open Sys2Proof Sys2Proof.Machine

/-! ### Regions as a table (R239) -/

theorem region_setRegion_same (s : State) (i : Nat) (x : Region) : (s.setRegion i x).region i = x := tget_tset_same ..

theorem region_setRegion_ne (s : State) {i j : Nat} (x : Region) (h : j ≠ i) : (s.setRegion i x).region j = s.region j :=
  tget_tset_ne _ _ _ _ h.symm

theorem region_congr {s t : State} (h : t.coh = s.coh) (i : Nat) : t.region i = s.region i := by rw [State.region, h]; rfl

/-! ### The requests of a region (Table 9.12) -/

section AtRegion

variable {s v : State} {p : Nat} {m : Msg} {r : Req} {i : Nat} {g : Region}

theorem request_msg_atRegion (h : s.AtRegion v p m r i g) : r.msg = m ∧ v.regionAt (mAddr r.msg) = some (i, g) := by
  obtain ⟨hh, -, -, hreg⟩ := h
  obtain ⟨rfl, -⟩ := atHome_request hh
  exact ⟨rfl, hreg⟩

/-- A request that its region answers. -/
theorem request_atRegion {t : State} (h : s.AtRegion v p m r i g) (ht : v.pubAccess r = .done t) : s.request p m 0 = t := by
  obtain ⟨hh, hw, ⟨k, x, hx, hst, hcoh, hpub⟩, -⟩ := h
  rw [request_atHome hh, homeArrive_pool hh hw]
  obtain ⟨rfl, -⟩ := atHome_request hh
  have hcheck : extentCheck (some (k, x)) = none := by simp [extentCheck, hst]
  simp only [State.poolAccess, hx, hcheck, hcoh, hpub, if_true, if_false, Bool.false_eq_true, ht]

variable (hreg : v.regionAt (mAddr r.msg) = some (i, g))

include hreg

theorem pubAccess_subs (hop : mOpc r.msg = opSUBS) (ha : mAddr r.msg < g.hdr + 64) :
    v.pubAccess r = .done ((v.setRegion i { g with
      subs := if mUnsub r.msg then g.subs.filter (· != r.src) else addSlot g.subs r.src }).finishCmp r stOK) := by
  simp only [State.pubAccess, hreg, if_pos ha, hop]
  rfl

theorem pubAccess_pub (hop : mOpc r.msg = opPUB) (ha : mAddr r.msg < g.hdr + 64) (hcur : g.cur = none) :
    v.pubAccess r = .done (v.pubBegin i r) := by
  simp only [State.pubAccess, hreg, if_pos ha, hop, hcur]
  rfl

theorem pubAccess_inv (hop : mOpc r.msg = opINV) (ha : g.hdr + 64 ≤ mAddr r.msg)
    (hlines : (mAddr r.msg - g.hdr - 64) / 64 + mNlines r.msg + 1 ≤ g.lines) :
    v.pubAccess r = .done (if g.subs.isEmpty then v.finishCmp r stOK
      else v.sendNotes i g (mAddr r.msg) (mNlines r.msg + 1) r) := by
  simp only [State.pubAccess, hreg, if_neg (Nat.not_lt.2 ha), hop, if_pos hlines]
  cases g.subs.isEmpty <;> rfl

end AtRegion

/-- A PUB whose BASE is not the VERSION (R243). -/
theorem pubBegin_stale {v : State} {i : Nat} {r : Req} {g : Region} (hg : v.region i = g) (hb : leAt r.msg.payload 0 4 ≠ g.version) :
    v.pubBegin i r = (v.finish r { status := stVERSION_STALE, curver := g.version }).bump .DIR_PUB_STALE_COUNT := by
  subst hg
  exact if_pos hb

/-- A PUB that may go on is the region's current one, over the new BODY. -/
theorem pubBegin_begins {v : State} {i : Nat} {r : Req} {g : Region} (hg : v.region i = g) (hb : leAt r.msg.payload 0 4 = g.version)
    (hlo : (v.extentAt (leAt r.msg.payload 8 6)).isSome) (hhi : (v.extentAt (leAt r.msg.payload 8 6 + 64 * g.lines - 1)).isSome)
    (hok : v.bodyOk (leAt r.msg.payload 8 6) g.lines = true) :
    v.pubBegin i r = v.setRegion i { g with
      busy := true, cur := some r, invall := leAt r.msg.payload 14 1 % 2 == 1, oldBody := g.body, body := leAt r.msg.payload 8 6 } := by
  subst hg
  unfold State.pubBegin
  simp only [hb, ne_eq, not_true_eq_false, if_false, hok, Option.isNone_iff_eq_none, Option.isSome_iff_ne_none.1 hlo,
    Option.isSome_iff_ne_none.1 hhi, or_self, Bool.not_true, Bool.false_eq_true]

/-! ### The point of an answer (R131, R132) -/

section PassAnswer

variable (s : State) (p : Nat) (m : Msg) (sub : Nat)

/-- What an answer's point changes is the scheduler's memory and the depths seen there. -/
theorem passAnswer_offPoint : (s.passAnswer p m sub).offPoint = s.offPoint := selectAt_offPoint ..

theorem rd_passAnswer {f : Fld} (hf : f ≠ .TM_QS_MAX_DEPTH) (i j : Nat) : (s.passAnswer p m sub).rd f i j = s.rd f i j :=
  (pointWork_selectAt ..).rd _ _ _ hf

@[simp] theorem passAnswer_coh : (s.passAnswer p m sub).coh = s.coh := (congrArg State.coh (passAnswer_offPoint s p m sub) :)

@[simp] theorem passAnswer_home : (s.passAnswer p m sub).home = s.home := (congrArg State.home (passAnswer_offPoint s p m sub) :)

@[simp] theorem passAnswer_pool : (s.passAnswer p m sub).pool = s.pool := (congrArg State.pool (passAnswer_offPoint s p m sub) :)

@[simp] theorem passAnswer_ports : (s.passAnswer p m sub).ports = s.ports := (congrArg State.ports (passAnswer_offPoint s p m sub) :)

theorem passAnswer_tier : (s.passAnswer p m sub).tier = s.tier := (congrArg State.tier (passAnswer_offPoint s p m sub) :)

theorem passAnswer_rcv : (s.passAnswer p m sub).rcv = s.rcv := (congrArg State.rcv (passAnswer_offPoint s p m sub) :)

theorem passAnswer_boot : (s.passAnswer p m sub).boot = s.boot := (congrArg State.boot (passAnswer_offPoint s p m sub) :)

theorem takesHack_passAnswer (m' : Msg) : (s.passAnswer p m sub).takesHack m' = s.takesHack m' := by
  have hhome : (s.passAnswer p m sub).homeOf = s.homeOf := by
    funext a
    unfold State.homeOf State.homeOfPage
    rw [rd_passAnswer _ _ _ _ (by decide)]
  unfold State.takesHack State.page State.dirEnt
  rw [hhome, passAnswer_rcv, passAnswer_tier, passAnswer_coh]

end PassAnswer

/-! ### HACK (R224, R244) -/

section Hack

variable {s : State} {p : Nat} {m : Msg}

/-- A HACK of an accelerator passes its point and reaches its home. -/
theorem runs_hack (hp : p < 320) (ha : s.active p = true) (hr : s.rd .PRT_PFTL_STAT_ROLE p ≠ 3) :
    Runs (.hack p m) s ((s.passAnswer p (withOpc m opHACK) (s.hackSub p (withOpc m opHACK))).hackArrive (s.agentId p) (withOpc m opHACK)) := by
  have he : exec (.hack p m) s = execHack p m s := rfl
  refine runs_of ?_
  rw [he, execHack, if_neg (by simp [ha]; omega), if_neg hr]
  rfl

variable {v : State} {id : Nat} {n : Note}

theorem hackArrive_held (ht : v.takesHack m = false) :
    v.hackArrive id m = { v with coh := { v.coh with hacks := v.coh.hacks ++ [(id, m)] } } := if_pos (by simp [ht])

variable (ht : v.takesHack m = true)

include ht

theorem hackArrive_note (hn : v.noteOf id m = some n) (hst : mRspst m = 0) (hf : mFwd m = false) (hd : mHdata m = false) :
    v.hackArrive id m = v.noteDone n := by
  simp [State.hackArrive, ht, hn, hst, hf, hd]

theorem hackArrive_breach (hn : v.noteOf id m = some n) (h : mRspst m ≠ 0 ∨ mFwd m = true ∨ mHdata m = true) :
    v.hackArrive id m = v.dropSub n .DIR_PROTO_ERR_COUNT := by
  have hno : ¬ (mRspst m = 0 ∧ mFwd m = false ∧ mHdata m = false) := by
    rintro ⟨h0, hf, hd⟩
    simp [h0, hf, hd] at h
  simp [State.hackArrive, ht, hn, hno]

theorem hackArrive_snoop (hn : v.noteOf id m = none) : v.hackArrive id m = v.snoopHack (lineOf (mAddr m)) id m := by
  simp [State.hackArrive, ht, hn]

omit ht

/-- What is left of an entry once a recalled sharer or owner in slot `k` has answered. -/
def recallAnswered (e : DirEnt) (k : Nat) : DirEnt :=
  { e with awaiting := e.awaiting.filter (· != k), own := if e.own == some k then none else e.own, shr := e.shr.filter (· != k) }

/-- A recalled sharer's answer without data, where other answers are awaited. -/
theorem snoopHack_sharer {l k : Nat} {e : DirEnt} (hd : v.coh.dirErr = []) (he : v.dirEnt l = some e)
    (hk : v.slotListed e.cg id = some k) (hst : e.st = .SX_I) (haw : e.awaiting.contains k = true) (hup : v.cgState e.cg ≠ 2)
    (hrsp : mRspst m = 0) (hf : mFwd m = false) (hdata : mHdata m = false) (hleft : e.awaiting.filter (· != k) ≠ []) :
    v.snoopHack l id m = (v.fwdGone l id).setDir l (recallAnswered e k) := by
  have hcheck : (v.fwdGone l id).dirCheck l = v.fwdGone l id := if_pos (by rw [show (v.fwdGone l id).coh.dirErr = [] from hd]; rfl)
  have he' : (v.fwdGone l id).dirEnt l = some e := he
  have hk' : (v.fwdGone l id).slotListed e.cg id = some k := hk
  have hup' : (v.fwdGone l id).cgState e.cg ≠ 2 := hup
  have hempty : (e.awaiting.filter (· != k)).isEmpty = false := by simpa using hleft
  have hguard : (!e.st.transient || !e.awaiting.contains k || decide ((v.fwdGone l id).cgState e.cg = 2)) = false := by
    rw [hst, haw]
    simp [DSt.transient, hup']
  unfold State.snoopHack
  simp only [hf, Bool.false_eq_true, if_false, hcheck, he', hk']
  rw [if_neg (by simpa using hguard), if_pos (by rw [hst]; rfl), if_pos ⟨hrsp, rfl⟩, State.recallHack]
  simp only [hdata, Bool.false_and, Bool.false_eq_true, if_false, hempty, recallAnswered]

end Hack

/-! ### What a tray brings (R70, R77) -/

section Tray

variable {s : State} {p : Nat} {m : Msg} {t : TAcc}

/-- A tray's DATA passes its point and ends its access. -/
theorem runs_data_tray (hp : p < 320) (ha : s.active p = true) (hr : s.rd .PRT_PFTL_STAT_ROLE p = 3) :
    Runs (.data p m) s ((s.passAnswer p (withOpc m opDATA) (s.taccSub p (withOpc m opDATA))).trayData p (withOpc m opDATA)) := by
  have he : exec (.data p m) s = execData p m s := rfl
  refine runs_of ?_
  rw [he, execData, if_neg (by simp [ha]; omega), if_pos hr]
  rfl

/-- So does its CMP. -/
theorem runs_cmp_tray (hp : p < 320) (ha : s.active p = true) (hr : s.rd .PRT_PFTL_STAT_ROLE p = 3) :
    Runs (.cmp p m) s ((s.passAnswer p (withOpc m opCMP) (s.taccSub p (withOpc m opCMP))).trayCmp p (withOpc m opCMP)) := by
  have he : exec (.cmp p m) s = execCmp p m s := rfl
  refine runs_of ?_
  rw [he, execCmp, if_neg (by simp [ha]; omega), if_pos hr]
  rfl

theorem taccAt_congr {v : State} (h : v.home = s.home) (n : Nat) : v.taccAt p n = s.taccAt p n := by
  rw [State.taccAt, State.taccAt, h]

theorem decrypt_congr {v : State} (h : v.boot = s.boot) (l : Nat) (bs : List Byte) : v.decrypt l bs = s.decrypt l bs := by
  rw [State.decrypt, State.decrypt, h]

theorem length_decrypt (s : State) (l : Nat) (bs : List Byte) : (s.decrypt l bs).length = 64 := by
  simp only [State.decrypt, xtsLine, List.length_append, length_leBytes]

theorem slice_decrypt (s : State) (l : Nat) (bs : List Byte) : slice (s.decrypt l bs) 0 64 = s.decrypt l bs := by
  have h := slice_all (s.decrypt l bs)
  rwa [length_decrypt] at h

/-- A load's access has brought its line. -/
def lineCome (w : State) (t : TAcc) (bytes : List Byte) (psn : Bool) : State :=
  ((w.dropTacc t).learnLine t.line bytes psn).notePsn t.line

theorem trayData_load {rs : List Req} (ht : s.taccAt p (mSeq m) = some t) (hk : t.kind = .load rs) :
    s.trayData p m = ((lineCome s t (s.decrypt t.line (slice m.payload 0 64)) (mRpsn m)).serveLoads t.line rs t.ent).wbufSettle t.line := by
  simp only [State.trayData, ht, hk, lineCome]

theorem trayCmp_writeBack (ht : s.taccAt p (mSeq m) = some t) (hk : t.kind = .writeBack) :
    s.trayCmp p m = (s.dropTacc t).wbufSettle t.line := by
  simp only [State.trayCmp, ht, hk]

theorem wbufSettle_keeps {α : Type} (f : State → α) (hf : ∀ (v : State) b, f { v with home := { v.home with wbuf := b } } = f v)
    (l : Nat) : f (s.wbufSettle l) = f s := by
  unfold State.wbufSettle
  split
  · split
    · exact hf _ _
    · rfl
  · rfl

/-- An entry that was written back leaves the buffer unless another access of its line is out (R87). -/
theorem wbuf_wbufSettle {l : Nat} {e : WbEnt} (he : tfind s.home.wbuf l = some e) (hi : e.issued = true) :
    (s.wbufSettle l).home.wbuf = if s.home.tacc.any (fun x => x.line == l) then s.home.wbuf else tdel s.home.wbuf l := by
  simp only [State.wbufSettle, he, hi, Bool.true_and]
  cases s.home.tacc.any (fun x => x.line == l) <;> rfl

theorem tacc_wbufSettle (l : Nat) : (s.wbufSettle l).home.tacc = s.home.tacc :=
  wbufSettle_keeps (fun v => v.home.tacc) (fun _ _ => rfl) l

/-- Bytes over which nothing is laid. -/
theorem overlay_nil (bs : List Byte) : overlay bs [] = bs := by
  rw [overlay]
  exact List.zipIdx_map_fst 0 bs

/-- Where the write buffer holds nothing of a line, the line becomes what its tray brought. -/
theorem learnLine_bare {l : Nat} (hw : tfind s.home.wbuf l = none) (ho : s.owes l = false) (bs : List Byte) (psn : Bool) :
    s.learnLine l bs psn = (s.putLine l 0 bs).setPsn l psn := by
  have hbuf : s.wbufOf l = [] := by simp only [State.wbufOf, ho, hw, Bool.false_and, Bool.false_eq_true, if_false]
  have hput : tfind (s.putLine l 0 bs).home.wbuf l = none := hw
  simp only [State.learnLine, hbuf, overlay_nil, hput, Bool.or_false]
  rfl

/-- A poisoned line is counted as its access brings it. -/
theorem notePsn_keeps {α : Type} (f : State → α) (hf : ∀ (v : State), f (v.bump .POOL_POISON_RD_COUNT) = f v) (l : Nat) :
    f (s.notePsn l) = f s := by
  unfold State.notePsn
  split
  · exact hf _
  · rfl

theorem rd_notePsn (l : Nat) : (s.notePsn l).rd .POOL_POISON_RD_COUNT =
    if s.linePsn l then min (s.rd .POOL_POISON_RD_COUNT + 1) (2 ^ 32 - 1) else s.rd .POOL_POISON_RD_COUNT := by
  unfold State.notePsn
  split
  · exact rd_bump_same _ _ _ _ _
  · rfl

/-- One load that waited is answered with the line, whatever entry the line keeps. -/
theorem serveLoads_one {l q : Nat} {r : Req} (horg : r.org = .port q) (hop : mOpc r.msg ≠ opAT) (hl : lineOf (mAddr r.msg) = l)
    {psn : Bool} (hpsn : s.linePsn l = psn) (ent : Bool) :
    (s.serveLoads l [r] ent).pool = s.pool ∧
      (s.serveLoads l [r] ent).sw = (s.finish r (s.dataResp r.msg (s.lineBytes l) psn)).sw := by
  subst hpsn
  have hserve : s.serveTray r = s.finish r (s.dataResp r.msg (s.lineBytes l) (s.linePsn l)) := by rw [State.serveTray, if_neg hop, hl]
  have hpool : (s.serveTray r).pool = s.pool := by rw [hserve, finish_port_pool horg]
  rw [← hserve]
  cases ent <;> exact ⟨hpool, rfl⟩

end Tray

/-- What the access of a load leaves of a state `w` that shows the memory, homes and counters of `s`. -/
theorem lineCome_shows {s w : State} {t : TAcc} (hhome : w.home = s.home) (hpool : w.pool = s.pool)
    (hrd : w.rd .POOL_POISON_RD_COUNT = s.rd .POOL_POISON_RD_COUNT) (hw : tfind s.home.wbuf t.line = none)
    (ho : s.owes t.line = false) {bs : List Byte} (hlen : bs.length = 64) (psn : Bool) :
    (lineCome w t bs psn).home = { s.home with tacc := s.home.tacc.erase t } ∧ (lineCome w t bs psn).sw = w.sw ∧
      (lineCome w t bs psn).ports = w.ports ∧ (lineCome w t bs psn).linePsn t.line = psn ∧
      (∀ a, memByte (lineCome w t bs psn).pool.mem a = if lineOf a = t.line then bs.getD (a % 64) 0 else memByte s.pool.mem a) ∧
      (lineCome w t bs psn).rd .POOL_POISON_RD_COUNT =
        if psn then min (s.rd .POOL_POISON_RD_COUNT + 1) (2 ^ 32 - 1) else s.rd .POOL_POISON_RD_COUNT := by
  have hw' : tfind (w.dropTacc t).home.wbuf t.line = none := by rw [← hw, ← hhome]; rfl
  have ho' : (w.dropTacc t).owes t.line = false := by rw [← ho, State.owes, State.owes, ← hhome]; rfl
  have hpsn := linePsn_setPsn_same ((w.dropTacc t).putLine t.line 0 bs) t.line psn
  rw [lineCome, learnLine_bare hw' ho' bs psn]
  refine ⟨(notePsn_keeps State.home (fun _ => rfl) _).trans (by rw [← hhome]; rfl), notePsn_keeps State.sw (fun _ => rfl) _,
    notePsn_keeps State.ports (fun _ => rfl) _, (notePsn_keeps (·.linePsn t.line) (fun _ => rfl) _).trans hpsn, fun a => ?_, ?_⟩
  · rw [notePsn_keeps State.pool (fun _ => rfl), ← hpool]
    exact memByte_putLine_whole (w.dropTacc t) t.line hlen a
  · rw [rd_notePsn, hpsn, ← hrd]
    rfl

/-! ### What an owner forwards (R61, R229) -/

section Forward

variable {s : State} {p : Nat} {m : Msg}

/-- The DATA of an agent answers a snoop. -/
theorem runs_data_agent (hp : p < 320) (ha : s.active p = true) (hr : s.rd .PRT_PFTL_STAT_ROLE p ≠ 3) :
    Runs (.data p m) s (s.fwdData p (withOpc m opDATA) none (s.headCut p (withOpc m opDATA))).2 := by
  have he : exec (.data p m) s = execData p m s := rfl
  refine runs_of ?_
  rw [he, execData, if_neg (by simp [ha]; omega), if_neg hr]
  rfl

theorem fwdData_unasked (h : s.fwdOf p m = none) (ing : Option Nat) (cut : Bool) :
    s.fwdData p m ing cut = (false, s.bump .DIR_PROTO_ERR_COUNT) := by
  simp only [State.fwdData, h]

/-- The snoop that was answered is taken away. -/
def fwdTaken (s : State) (f : Fwd) : State := { s with coh := { s.coh with fwds := s.coh.fwds.erase f } }

/-- Sound DATA for a port goes there. -/
theorem fwdData_port {f : Fwd} {q : Nat} (hf : s.fwdOf p m = some f) (hok : fwdOk f m = true) (heng : s.coh.engReads = [])
    (hq : s.portOfAgent (mDst m) = some q) (ing : Option Nat) (cut : Bool) :
    s.fwdData p m ing cut = (true, (fwdTaken s f).send ((fwdTaken s f).portDie p) q (mSc m) ((fwdTaken s f).reqSub q (mSeq m))
      ((fwdTaken s f).fwdMsg q m) ing cut) := by
  have hq' : (fwdTaken s f).portOfAgent (mDst m) = some q := hq
  unfold State.fwdData
  simp only [hf, hok, Bool.not_true, Bool.false_eq_true, if_false]
  rw [show ({ s with coh := { s.coh with fwds := s.coh.fwds.erase f } } : State) = fwdTaken s f from rfl]
  simp only [heng, hq', List.any_nil, Bool.false_eq_true, if_false]

/-- An agent that is no tray may not send a CMP (Table 2.5). -/
theorem runs_cmp_agent (hp : p < 320) (ha : s.active p = true) (hr : s.rd .PRT_PFTL_STAT_ROLE p ≠ 3) :
    Runs (.cmp p m) s (s.reject p (withOpc m opCMP) stREFUSED .PRT_REFUSED_COUNT) := by
  have he : exec (.cmp p m) s = execCmp p m s := rfl
  have hreq : isRequest (mOpc (withOpc m opCMP)) = false := by rw [mOpc_withOpc _ _ (by decide)]; rfl
  have hi : s.ingressCheck p (withOpc m opCMP) = .refuse stREFUSED .PRT_REFUSED_COUNT := by simp [State.ingressCheck, check1, hreq]
  refine runs_of ?_
  rw [he, execCmp, if_neg (by simp [ha]; omega), if_neg hr, request_refused hp ha hr hi]
  rfl

end Forward

/-! ### The statement, clause by clause -/

/-- A PUB whose BASE is the VERSION begins: its region is BUSY with the new BODY, and nothing else changes. -/
theorem pub_begins {s v : State} {p : Nat} {m : Msg} {r : Req} {i : Nat} {g : Region} (h : s.AtRegion v p (withOpc m opPUB) r i g)
    (ha : mAddr r.msg < g.hdr + 64) (hg : v.region i = g) (hcur : g.cur = none) (hb : leAt r.msg.payload 0 4 = g.version)
    (hlo : (v.extentAt (leAt r.msg.payload 8 6)).isSome) (hhi : (v.extentAt (leAt r.msg.payload 8 6 + 64 * g.lines - 1)).isSome)
    (hok : v.bodyOk (leAt r.msg.payload 8 6) g.lines = true) :
    ∃ t, Runs (.pub p m) s t ∧ (t.region i).busy = true ∧ (t.region i).body = leAt r.msg.payload 8 6 ∧
      (t.region i).oldBody = g.body ∧ (t.region i).version = g.version ∧ (t.region i).cur = some r ∧
      (∀ j, j ≠ i → t.region j = s.region j) ∧ t.pool = s.pool ∧ t.regs = v.regs := by
  obtain ⟨hmsg, hreg⟩ := request_msg_atRegion h
  have hop : mOpc r.msg = opPUB := by rw [hmsg, mOpc_withOpc _ _ (by decide)]
  have hcoh := (atHome_keeps h.1).1
  have hpool := (pointWork_of_atHome h.1).pool
  refine ⟨_, runs_request rfl ((request_atRegion h (pubAccess_pub hreg hop ha hcur)).trans (pubBegin_begins hg hb hlo hhi hok)),
    ?_, ?_, ?_, ?_, ?_, fun j hj => ?_, hpool, rfl⟩
  iterate 5 rw [region_setRegion_same]
  rw [region_setRegion_ne _ _ hj, region_congr hcoh]

/-- A recalled sharer's answer takes it off its entry, and nothing else changes. -/
theorem hack_leaves_entry {p k : Nat} {m : Msg} {s v : State} {e : DirEnt}
    (hv : v = s.passAnswer p (withOpc m opHACK) (s.hackSub p (withOpc m opHACK))) (hp : p < 320) (ha : s.active p = true)
    (hr : s.rd .PRT_PFTL_STAT_ROLE p ≠ 3) (hd : s.coh.dirErr = []) (ht : s.takesHack (withOpc m opHACK) = true)
    (hn : s.noteOf (s.agentId p) (withOpc m opHACK) = none) (hrsp : mRspst (withOpc m opHACK) = 0)
    (hf : mFwd (withOpc m opHACK) = false) (hdata : mHdata (withOpc m opHACK) = false)
    (he : s.dirEnt (lineOf (mAddr (withOpc m opHACK))) = some e) (hk : s.slotListed e.cg (s.agentId p) = some k) (hst : e.st = .SX_I)
    (haw : e.awaiting.contains k = true) (hup : s.cgState e.cg ≠ 2) (hleft : e.awaiting.filter (· != k) ≠ []) :
    ∃ t, Runs (.hack p m) s t ∧ t.dirEnt (lineOf (mAddr (withOpc m opHACK))) = some (recallAnswered e k) ∧
      (∀ l, l ≠ lineOf (mAddr (withOpc m opHACK)) → t.dirEnt l = s.dirEnt l) ∧ t.regs = v.regs ∧ t.sw = v.sw ∧
      t.home = s.home ∧ t.pool = s.pool := by
  have hcoh : v.coh = s.coh := by rw [hv, passAnswer_coh]
  have hnote : v.noteOf (s.agentId p) (withOpc m opHACK) = none := by rw [State.noteOf, hcoh]; exact hn
  have hlisted : v.slotListed e.cg (s.agentId p) = some k := by rw [← hk, State.slotListed, State.slotListed, State.cg, State.cg, hcoh]
  have hstate : v.cgState e.cg ≠ 2 := by
    rw [hv, State.cgState, rd_passAnswer _ _ _ _ (by decide)]
    exact hup
  have htake : v.takesHack (withOpc m opHACK) = true := by rw [hv, takesHack_passAnswer]; exact ht
  have hent : v.dirEnt (lineOf (mAddr (withOpc m opHACK))) = some e := by rw [dirEnt_congr (congrArg Coh.dir hcoh)]; exact he
  have hrun := runs_hack (m := m) hp ha hr
  rw [← hv, hackArrive_snoop htake hnote, snoopHack_sharer (hcoh ▸ hd) hent hlisted hst haw hstate hrsp hf hdata hleft] at hrun
  refine ⟨_, hrun, dirEnt_setDir_same _ _, fun l hl => ?_, rfl, rfl, ?_, ?_⟩
  · rw [dirEnt_setDir_ne _ _ hl, ← dirEnt_congr (congrArg Coh.dir hcoh)]
    rfl
  · exact (congrArg State.home hv).trans (passAnswer_home ..)
  · exact (congrArg State.pool hv).trans (passAnswer_pool ..)

/-- A HACK that its home takes finds the note that it answers. -/
theorem hack_finds_note {p : Nat} {m : Msg} {s v : State} {n : Note}
    (hv : v = s.passAnswer p (withOpc m opHACK) (s.hackSub p (withOpc m opHACK))) (hp : p < 320) (ha : s.active p = true)
    (hr : s.rd .PRT_PFTL_STAT_ROLE p ≠ 3) (ht : s.takesHack (withOpc m opHACK) = true)
    (hn : s.noteOf (s.agentId p) (withOpc m opHACK) = some n) :
    v.takesHack (withOpc m opHACK) = true ∧ v.noteOf (s.agentId p) (withOpc m opHACK) = some n ∧
      Runs (.hack p m) s (v.hackArrive (s.agentId p) (withOpc m opHACK)) := by
  subst hv
  refine ⟨by rw [takesHack_passAnswer]; exact ht, ?_, runs_hack hp ha hr⟩
  rw [State.noteOf, passAnswer_coh]
  exact hn

/-- The line a load waited for comes from its tray. -/
theorem data_serves_load {p : Nat} {m : Msg} {s w : State} {t : TAcc} {rs : List Req} (hp : p < 320) (ha : s.active p = true)
    (hw : w = s.passAnswer p (withOpc m opDATA) (s.taccSub p (withOpc m opDATA))) (hr : s.rd .PRT_PFTL_STAT_ROLE p = 3)
    (ht : s.taccAt p (mSeq (withOpc m opDATA)) = some t) (hk : t.kind = .load rs) :
    Runs (.data p m) s (((lineCome w t (s.decrypt t.line (slice (withOpc m opDATA).payload 0 64))
      (mRpsn (withOpc m opDATA))).serveLoads t.line rs t.ent).wbufSettle t.line) := by
  have hhome : w.home = s.home := by rw [hw, passAnswer_home]
  have hboot : w.boot = s.boot := by rw [hw, passAnswer_boot]
  have hrun := runs_data_tray (m := m) hp ha hr
  rwa [← hw, trayData_load ((taccAt_congr hhome _).trans ht) hk, decrypt_congr hboot] at hrun

/-- Settles O10: a region's requests from Table 9.12, and the answers from what their point leaves as it is. -/
theorem regionRequestsAndAnswers : Obligations.RegionRequestsAndAnswers := by
  unfold Obligations.RegionRequestsAndAnswers
  refine ⟨⟨?_, ?_, ?_, ?_⟩, ?_, ?_, ?_, ?_, ?_, ?_, ?_, ?_, ?_, ?_⟩
  · intro s v p m r i g h ha
    obtain ⟨hmsg, hreg⟩ := request_msg_atRegion h
    exact runs_request rfl (request_atRegion h (pubAccess_subs hreg (by rw [hmsg, mOpc_withOpc _ _ (by decide)]) ha))
  · intro s v p m r i g h ha hg hcur hb
    obtain ⟨hmsg, hreg⟩ := request_msg_atRegion h
    have hop : mOpc r.msg = opPUB := by rw [hmsg, mOpc_withOpc _ _ (by decide)]
    exact runs_request rfl ((request_atRegion h (pubAccess_pub hreg hop ha hcur)).trans (pubBegin_stale hg hb))
  · intro s v p m r i g h ha hg hcur hb hlo hhi hok
    exact pub_begins h ha hg hcur hb hlo hhi hok
  · intro s v p m r i g h ha hlines
    obtain ⟨hmsg, hreg⟩ := request_msg_atRegion h
    exact runs_request rfl (request_atRegion h (pubAccess_inv hreg (by rw [hmsg, mOpc_withOpc _ _ (by decide)]) ha hlines))
  · rintro p m s v hp ha hr rfl ht
    have hrun := runs_hack (m := m) hp ha hr
    rw [hackArrive_held (by rw [takesHack_passAnswer]; exact ht)] at hrun
    refine ⟨_, hrun, ?_, rfl, passAnswer_home .., rfl, passAnswer_pool ..⟩
    rw [passAnswer_coh]
  · intro p m s v n hv hp ha hr ht hn hst hf hd
    obtain ⟨htake, hnote, hrun⟩ := hack_finds_note hv hp ha hr ht hn
    rw [hackArrive_note htake hnote hst hf hd] at hrun
    refine ⟨{ v with coh := { v.coh with inotes := v.coh.inotes.erase n } }, _, hrun, ?_, rfl, ?_, rfl, ?_, rfl⟩
    · rw [hv, passAnswer_coh]
    · exact (congrArg State.home hv).trans (passAnswer_home ..)
    · exact (congrArg State.pool hv).trans (passAnswer_pool ..)
  · intro p m s v n hv hp ha hr ht hn hbreach
    obtain ⟨htake, hnote, hrun⟩ := hack_finds_note hv hp ha hr ht hn
    rwa [hackArrive_breach htake hnote hbreach] at hrun
  · intro p k m s v e hv hp ha hr hd ht hn hrsp hf hdata he hk hst haw hup hleft
    exact hack_leaves_entry hv hp ha hr hd ht hn hrsp hf hdata he hk hst haw hup hleft
  · rintro p m s w t r hp ha hw hr ht hk ⟨q, horg⟩ hop hl hbuf howes
    have hrd : w.rd .POOL_POISON_RD_COUNT = s.rd .POOL_POISON_RD_COUNT := by rw [hw, rd_passAnswer _ _ _ _ (by decide)]
    obtain ⟨hhome, hsw, hports, hpsn, hmem, hcount⟩ := lineCome_shows (w := w) (by rw [hw, passAnswer_home])
      (by rw [hw, passAnswer_pool]) hrd hbuf howes (length_decrypt s _ (slice (withOpc m opDATA).payload 0 64)) (mRpsn (withOpc m opDATA))
    obtain ⟨hpool, hout⟩ := serveLoads_one horg hop hl hpsn t.ent
    refine ⟨_, _, data_serves_load hp ha hw hr ht hk, (wbufSettle_keeps State.pool (fun _ _ => rfl) _).trans hpool,
      (wbufSettle_keeps State.sw (fun _ _ => rfl) _).trans hout, hhome, hsw, hports.trans (by rw [hw, passAnswer_ports]), hpsn, ?_, hcount⟩
    rw [slice_decrypt]
    exact hmem
  · intro p m s w t rs hp ha hw hr ht hk _
    exact data_serves_load hp ha hw hr ht hk
  · intro p q m s f hp ha hr hf hok heng hq
    have hrun := runs_data_agent (m := m) hp ha hr
    rw [fwdData_port hf hok heng hq] at hrun
    exact ⟨fwdTaken s f, _, hrun, rfl, rfl, rfl, rfl, rfl, rfl⟩
  · intro p m s hp ha hr hf
    have hrun := runs_data_agent (m := m) hp ha hr
    rwa [fwdData_unasked hf] at hrun
  · intro p m s w t e hp ha hw hr ht hk he hi
    have hhome : w.home = s.home := by rw [hw, passAnswer_home]
    have hrun := runs_cmp_tray (m := m) hp ha hr
    rw [← hw, trayCmp_writeBack ((taccAt_congr hhome _).trans ht) hk] at hrun
    have he' : tfind (w.dropTacc t).home.wbuf t.line = some e := by rw [← he, ← hhome]; rfl
    refine ⟨_, hrun, ?_, ?_, wbufSettle_keeps State.regs (fun _ _ => rfl) _, wbufSettle_keeps State.sw (fun _ _ => rfl) _, ?_⟩
    · rw [tacc_wbufSettle, ← hhome]
      rfl
    · rw [wbuf_wbufSettle he' hi, ← hhome]
      rfl
    · rw [wbufSettle_keeps State.pool (fun _ _ => rfl)]
      exact (congrArg State.pool hw).trans (passAnswer_pool ..)
  · intro p m s hp ha hr
    obtain ⟨hcount, hpool, hhome, -, -, hans⟩ := reject_shows s p (withOpc m opCMP) stREFUSED (.inl rfl)
    rw [mSc_withOpc, mSrc_withOpc, mSeq_withOpc] at hans
    exact ⟨_, runs_cmp_agent hp ha hr, hcount, hans, hhome, hpool⟩

end Sys2Proof.Proofs
end
